-- ==== Sys2Proof/Word.lean ====
section
/-! DEFINITION. The word types of the device and their plainest arithmetic. Management registers are
32 bits wide (R13), core general registers 64 (R175), memory is addressed by byte (R12). -/

namespace Sys2Proof

abbrev Byte := BitVec 8
abbrev Word32 := BitVec 32
abbrev Word64 := BitVec 64

/-- Addition of naturals that stops at `cap`: every counter of the device saturates. -/
def satAdd (cap a b : Nat) : Nat := min cap (a + b)

theorem satAdd_le (cap a b : Nat) : satAdd cap a b ≤ cap := Nat.min_le_left _ _

end Sys2Proof
end

