-- ==== Sys2Proof/Syntax.lean ====
section
/-! DEFINITION. The commands the block takes: one constructor of `Instr` per row of
spec/opcode_table.json, in the table's order, with the operands the step needs from outside the
block (what an agent writes, what a sensor reads, what a frame carries, which unit acts). -/

namespace Sys2Proof

abbrev CoreId := Fin 128
abbrev HearthId := Fin 16
abbrev DomId := Fin 16      -- 8 * half + d, R23
abbrev CtxId := Fin 2
abbrev AnvilId := Fin 4
abbrev PortId := Fin 8

/-- The five places an entry can wait: anvil lanes 0 and 1, vector, tongs, fabric (Table 7-1). -/
inductive Queue where
  | anv0 | anv1 | vec | tongs | fab
  deriving DecidableEq, Repr

/-- Where a WAIT is held: the sequencer (QUEUE 0) or one of the queues (R186). -/
inductive WaitPlace where
  | seq (ctx : CtxId)
  | inQueue (q : Queue)
  deriving DecidableEq, Repr

/-- The fields of a core instruction, Table 7-4, but for OP, which the constructor fixes; and, from outside the block,
whether its words hold an uncorrectable error and whether the core-store data that it reads do (Table 9-3). -/
structure Fields where
  pneg  : Bool
  pred  : BitVec 3
  sigen : Bool
  sigc  : BitVec 4
  mod   : BitVec 7
  d     : BitVec 6
  a     : BitVec 6
  b     : BitVec 6
  c     : BitVec 6
  sub   : BitVec 16
  imm   : BitVec 64
  fetchBad : Bool := false
  dataBad : Bool := false
  deriving DecidableEq, Repr

/-- The Ethernet part of a frame (R269, R274, Table 10-3): the addresses, the number of IEEE 802.1Q tags, the priority and VLAN
of the tag, and the EtherType. The FCS is checked by the MAC (`FilterCause.badFcs`). -/
structure Eth where
  dst   : BitVec 48 := 0
  src   : BitVec 48 := 0
  tags  : Nat := 1
  pcp   : BitVec 3 := 0
  vid   : BitVec 12 := 0
  etype : BitVec 16 := 0
  deriving DecidableEq, Repr

/-- A YLP frame as received: the header of Table 10-4, the payload bytes in the order sent, and the
ICRC word (R276). -/
structure YlpFrame where
  ver    : BitVec 4
  kind   : BitVec 4
  op     : BitVec 8
  epoch  : BitVec 8
  flags  : BitVec 8
  src    : BitVec 16
  dst    : BitVec 16
  seq    : BitVec 24
  lines  : BitVec 8
  ack    : BitVec 24
  status : BitVec 4
  subop  : BitVec 4
  addr   : BitVec 48
  mask   : BitVec 16
  tag    : BitVec 24
  rcount : BitVec 2
  rtag0  : BitVec 24
  rtag1  : BitVec 24
  payload : List Byte
  icrc    : BitVec 32
  eth     : Eth := {}
  deriving DecidableEq, Repr

/-- Which part of an RDMA WRITE message a packet carries (Table 10-8). -/
inductive RocePart where
  | first | middle | last | only
  deriving DecidableEq, Repr

/-- How Table 10-8 sorts the operation of a packet: the one its row names, on a reliable connection; one of those that draw a
NAK; or another transport. -/
inductive RoceClass where
  | listed | atomic | immediate | invalidate | otherSend | otherTransport
  deriving DecidableEq, Repr

/-- A RoCEv2 packet as received on a port (R298). `icrcOk` tells how its ICRC compares, whose formula is InfiniBand's; `options`
tells of IPv4 options or IPv6 extension headers. -/
structure RocePkt where
  dqpn    : BitVec 24
  psn     : BitVec 24
  vaddr   : BitVec 64
  rkey    : BitVec 32
  dmaLen  : Nat
  payload : List Byte
  ecnCe   : Bool
  icrcOk  : Bool
  eth     : Eth := {}
  options : Bool := false
  udpDst  : BitVec 16 := 4791
  cls     : RoceClass := .listed
  deriving DecidableEq, Repr

/-- What a port meets in a received frame before any protocol handles it (R268, R269, R271): a bad FCS, a codeword that the FEC
cannot correct, codewords that it corrects, or a frame to be sorted, with its length and the number its EtherType selects: the
UDP destination port of IPv4 and IPv6, the opcode of MAC control. -/
inductive FilterCause where
  | badFcs | badCodeword
  | corrected (n : Nat)
  | frame (eth : Eth) (bytes : Nat) (sel : BitVec 16)
  deriving DecidableEq, Repr

/-- What a link partner offers, of the options of Table 10-1. -/
structure LinkOffer where
  kr4   : Bool
  cr4   : Bool
  lanes : Nat
  rsFec : Bool
  an    : Bool
  deriving DecidableEq, Repr

/-- How a DRAM read of a line ended (R255). -/
inductive ReadResult where
  | clean
  | corrected
  | uncorrectable (retryOk : Bool)
  /-- The codeword of R254 as read: `bad` symbols in error, the reserved metadata bits after correction, and whether the line
  stands at another location than the one read. -/
  | symbols (bad : Nat) (reserved : BitVec 15) (elsewhere retryOk : Bool)
  deriving DecidableEq, Repr

/-- What the scrubber found in the word or line it read (R257, R258). `raced` tells that a write to
the line was serialised between the read and the write-back. -/
inductive ScrubTarget where
  | dram (addr : BitVec 48) (result : ReadResult) (raced : Bool)
  | slice (h : HearthId) (line : BitVec 48) (bits : Nat)
  | coreStore (core : CoreId) (off : BitVec 21) (bits : Nat)
  | ring (word : BitVec 19) (bits : Nat)
  deriving DecidableEq, Repr

/-- Eye widths, heights and centres of one DRAM channel (Table 9-9). -/
structure MarginResult where
  rdW : BitVec 8
  rdH : BitVec 8
  wrW : BitVec 8
  wrH : BitVec 8
  rdDly : BitVec 7
  wrDly : BitVec 7
  rdVref : BitVec 7
  wrVref : BitVec 7
  attempts : BitVec 3
  deriving DecidableEq, Repr

/-- Where a survival line lies in the survival area (R362). -/
inductive SurvLoc where
  | relation (q : Fin 9)
  | inbox (node : BitVec 16)
  deriving DecidableEq, Repr

/-- What the hardware of one start step reports (Table 15-1). -/
structure StartReport where
  baseOk   : Bool              -- base-die self-test of step 2
  weldOk   : Bool              -- weld training of step 2
  coreFails : List (CoreId × Fin 4)   -- cores whose domain test failed in step 2, with the part
  portsUp  : List PortId       -- ports that came up in step 6
  slacks   : List (List (BitVec 5)) := []   -- of the measurement window of each domain's test in step 2 (Table 14-4)
  deriving DecidableEq, Repr

/-- The reads a local agent makes of a line or window: `n` 8-byte words from `addr`. -/
inductive Agent where
  | core (c : CoreId)
  | fabric (node : BitVec 16)
  | engine (half : Fin 2)
  | smith
  deriving DecidableEq, Repr

/-- The access of a window command (R253). -/
inductive WinAccess where
  | read (words : Nat)
  | write (data : List Word64)
  | atomic
  deriving DecidableEq, Repr

/-- A bit flipped in a value on a drain chain, for the residue check of R125 to meet. -/
structure Upset where
  col : Fin 64
  bit : Fin 48
  deriving DecidableEq, Repr

/-- An upset met by the drain of a set to its save slot (R125, R134): the set in slot B or in slot A. -/
structure SaveUpset where
  anvil : AnvilId
  slotB : Bool
  row : Fin 32
  at_ : Upset
  deriving DecidableEq, Repr

/-- Which core-store read of a starting drain meets an uncorrectable error (R140): its descriptor or its fill. -/
inductive DrainRead where
  | descriptor | fill
  deriving DecidableEq, Repr

/-- What a save reports: the segments that the pass of each lane had fed, and an upset of its drains. -/
structure SaveReport where
  fed   : List Nat
  upset : Option SaveUpset := none
  deriving DecidableEq, Repr

/-- A core, and whether what it reads of its core store holds an uncorrectable error (R140). -/
structure CoreRead where
  core   : CoreId
  eccErr : Bool := false
  deriving DecidableEq, Repr

/-- An anvil that starts a drain, and what the start reads. -/
structure DrainStart where
  anvil  : AnvilId
  eccErr : Option DrainRead := none
  deriving DecidableEq, Repr

/-- An anvil whose row the fused stage writes, and whether what the stage reads for it holds an uncorrectable error (R140). -/
structure RowRead where
  anvil  : AnvilId
  eccErr : Bool := false
  deriving DecidableEq, Repr

/-- A port whose link trains, and what its partner offers. -/
structure LinkUp where
  port  : PortId
  offer : LinkOffer
  deriving DecidableEq, Repr

/-- A reset frame: its Ethernet part and the payload of its SEND (R433). -/
structure ResetSend where
  eth     : Eth := {}
  payload : List Byte
  deriving DecidableEq, Repr

inductive Instr where
  | registerWrite (agent : BitVec 8) (addr : Word32) (val : Word32)
  | readClearRegister (agent : BitVec 8) (addr : Word32)
  | domainSwitchOff (dom : DomId)
  | domainSelfTestStart (dom : DomId)
  | domainSwitchOn (dom : DomId)
  | domainLeft (dom : DomId)
  | coreStoreClearDone (dom : DomId)
  | domainSelfTestComplete (dom : DomId) (failed : List (HearthId × Fin 4))
  | taskDispatch (h : HearthId)
  | taskComplete (core : CoreId) (ctx : CtxId)
  | taskReturn (core : CoreId)
  | coreRetire (core : CoreId)
  | weldTransferRetry (dir : Fin 2) (ok : Bool)
  | measurementWindowNatural (dom : DomId)
  | measurementWindowForced (dom : DomId)
  | measurementWindowComplete (dom : DomId) (slacks : List (BitVec 5))
  | weldMeasurement (dir : Fin 2) (slacks : List (BitVec 5))
  | trimRecordWrite
  | timeCopyCorrection
  | nop (core : CoreId) (ctx : CtxId) (f : Fields)
  | br (core : CoreId) (ctx : CtxId) (f : Fields)
  | bri (core : CoreId) (ctx : CtxId) (f : Fields)
  | brl (core : CoreId) (ctx : CtxId) (f : Fields)
  | loop (core : CoreId) (ctx : CtxId) (f : Fields)
  | setp (core : CoreId) (ctx : CtxId) (f : Fields)
  | plog (core : CoreId) (ctx : CtxId) (f : Fields)
  | movi (core : CoreId) (ctx : CtxId) (f : Fields)
  | alu (core : CoreId) (ctx : CtxId) (f : Fields)
  | ldg (core : CoreId) (ctx : CtxId) (f : Fields) (eccErr : Bool)
  | stg (core : CoreId) (ctx : CtxId) (f : Fields)
  | rdtime (core : CoreId) (ctx : CtxId) (f : Fields)
  | rdreg (core : CoreId) (ctx : CtxId) (f : Fields)
  | wrreg (core : CoreId) (ctx : CtxId) (f : Fields)
  | signal (core : CoreId) (ctx : CtxId) (f : Fields)
  | wait (core : CoreId) (ctx : CtxId) (f : Fields)
  | fence (core : CoreId) (ctx : CtxId) (f : Fields)
  | yieldIf (core : CoreId) (ctx : CtxId) (f : Fields)
  | yieldNow (core : CoreId) (ctx : CtxId) (f : Fields)
  | done (core : CoreId) (ctx : CtxId) (f : Fields)
  | note (core : CoreId) (ctx : CtxId) (f : Fields)
  | azero (core : CoreId) (ctx : CtxId) (f : Fields)
  | aload (core : CoreId) (ctx : CtxId) (f : Fields)
  | aswap (core : CoreId) (ctx : CtxId) (f : Fields)
  | amac (core : CoreId) (ctx : CtxId) (f : Fields)
  | adrain (core : CoreId) (ctx : CtxId) (f : Fields)
  | vadd (core : CoreId) (ctx : CtxId) (f : Fields)
  | vsub (core : CoreId) (ctx : CtxId) (f : Fields)
  | vmul (core : CoreId) (ctx : CtxId) (f : Fields)
  | vmin (core : CoreId) (ctx : CtxId) (f : Fields)
  | vmax (core : CoreId) (ctx : CtxId) (f : Fields)
  | vcmp (core : CoreId) (ctx : CtxId) (f : Fields)
  | vsel (core : CoreId) (ctx : CtxId) (f : Fields)
  | vabs (core : CoreId) (ctx : CtxId) (f : Fields)
  | vneg (core : CoreId) (ctx : CtxId) (f : Fields)
  | vshl (core : CoreId) (ctx : CtxId) (f : Fields)
  | vrsh (core : CoreId) (ctx : CtxId) (f : Fields)
  | vresc (core : CoreId) (ctx : CtxId) (f : Fields)
  | vmov (core : CoreId) (ctx : CtxId) (f : Fields)
  | vsplat (core : CoreId) (ctx : CtxId) (f : Fields)
  | vmovg (core : CoreId) (ctx : CtxId) (f : Fields)
  | vradd (core : CoreId) (ctx : CtxId) (f : Fields)
  | vld (core : CoreId) (ctx : CtxId) (f : Fields) (eccErr : Bool)
  | vst (core : CoreId) (ctx : CtxId) (f : Fields)
  | vqnt (core : CoreId) (ctx : CtxId) (f : Fields)
  | vcvt (core : CoreId) (ctx : CtxId) (f : Fields)
  | vrsum (core : CoreId) (ctx : CtxId) (f : Fields)
  | vrmax (core : CoreId) (ctx : CtxId) (f : Fields)
  | vrcnt (core : CoreId) (ctx : CtxId) (f : Fields)
  | vrssq (core : CoreId) (ctx : CtxId) (f : Fields)
  | vsqadd (core : CoreId) (ctx : CtxId) (f : Fields)
  | vact (core : CoreId) (ctx : CtxId) (f : Fields)
  | vumu (core : CoreId) (ctx : CtxId) (f : Fields)
  | vupd (core : CoreId) (ctx : CtxId) (f : Fields)
  | vgacc (core : CoreId) (ctx : CtxId) (f : Fields)
  | vrand (core : CoreId) (ctx : CtxId) (f : Fields)
  | vmark (core : CoreId) (ctx : CtxId) (f : Fields)
  | mcopy (core : CoreId) (ctx : CtxId) (f : Fields)
  | mfill (core : CoreId) (ctx : CtxId) (f : Fields)
  | fput (core : CoreId) (ctx : CtxId) (f : Fields)
  | fget (core : CoreId) (ctx : CtxId) (f : Fields)
  | fsend (core : CoreId) (ctx : CtxId) (f : Fields)
  | fatom (core : CoreId) (ctx : CtxId) (f : Fields)
  | fred (core : CoreId) (ctx : CtxId) (f : Fields)
  | fgath (core : CoreId) (ctx : CtxId) (f : Fields)
  | fbar (core : CoreId) (ctx : CtxId) (f : Fields)
  | fcollReduceScatter (core : CoreId) (ctx : CtxId) (f : Fields)
  | fcollAllGather (core : CoreId) (ctx : CtxId) (f : Fields)
  | fcollAllReduce (core : CoreId) (ctx : CtxId) (f : Fields)
  | fcollBroadcast (core : CoreId) (ctx : CtxId) (f : Fields)
  | fcollStepEnd (core : CoreId) (ctx : CtxId) (f : Fields)
  | fsnap (core : CoreId) (ctx : CtxId) (f : Fields)
  | instructionComplete (core : CoreId) (q : Queue)
  | waitRelease (core : CoreId) (at_ : WaitPlace)
  | waitTimeout (core : CoreId) (at_ : WaitPlace)
  | fenceRelease (core : CoreId) (ctx : CtxId)
  | doneRelease (core : CoreId) (ctx : CtxId)
  | dispatcherRequest (core : CoreId)
  | yieldTimeout (core : CoreId)
  | saveComplete (core : CoreId) (report : SaveReport)
  | taskRestore (record : CoreRead)
  | zero (core : CoreId) (anvil : AnvilId)
  | load (core : CoreId) (anvil : AnvilId) (eccErr : Bool)
  | loadComplete (core : CoreId) (anvil : AnvilId)
  | swap (core : CoreId) (anvil : AnvilId)
  | multiplyAccumulate (core : CoreId) (lane : CtxId) (eccErr : Bool)
  | passComplete (core : CoreId) (lane : CtxId)
  | rampStage (core : CoreId) (anvil : AnvilId)
  | drain (core : CoreId) (start : DrainStart)
  | drainRow (core : CoreId) (anvil : AnvilId) (upset : Option Upset)
  | drainComplete (core : CoreId) (anvil : AnvilId)
  | fusedOutputRow (core : CoreId) (row : RowRead)
  | splitWrite (core : CoreId) (val : Bool)
  | phaseRelease (h : HearthId)
  | phaseSkip (h : HearthId)
  | backwardEntryComplete (h : HearthId)
  | phaseFail (h : HearthId)
  | scheduleStall (h : HearthId)
  | stepEndRelease
  | stepEndResult (group : BitVec 10)
  | holdRoundResult (group : BitVec 10)
  | lineRead (agent : Agent) (addr : BitVec 48) (words : Nat) (badBits : Nat)
  | lineWrite (agent : Agent) (addr : BitVec 48) (mask : BitVec 16) (data : List Word64)
  | sliceMissFill (addr : BitVec 48) (result : ReadResult)
  | crucibleAtomic (agent : Agent) (op : BitVec 4) (addr : BitVec 48) (operand comparand : Word64)
  | crucibleReduction (agent : Agent) (op : BitVec 4) (addr : BitVec 48) (data : List Word64)
  | windowAccess (agent : Agent) (addr : BitVec 48) (access : WinAccess) (eccErr : Bool)
  | refresh (h : HearthId) (hot : Bool)
  | strobeRecentre (h : HearthId) (chan : BitVec 7)
  | scrubRead (t : ScrubTarget)
  | memRgnClose (agent : BitVec 8)
  | memRgnOpen (agent : BitVec 8)
  | memRgnPolicy (agent : BitVec 8) (policy : Bool)
  | memRgnAlloc (agent : BitVec 8) (alloc : Bool)
  | migrationComplete (pair : BitVec 18)
  | mrgStart (agent : BitVec 8)
  | marginRerun
  | marginRerunComplete (result : MarginResult)
  | dramTrainingComplete (results : List MarginResult)
  | portEnable (port : PortId)
  | portDisable (port : PortId)
  | portUp (link : LinkUp)
  | portDown (port : PortId) (lanesOk : BitVec 4)
  | frameFiltered (port : PortId) (cause : FilterCause)
  | pfcFrame (port : PortId) (prio : BitVec 3) (pause : Bool)
  | ylpRead (port : PortId) (f : YlpFrame)
  | ylpWrite (port : PortId) (f : YlpFrame)
  | ylpWriteMasked (port : PortId) (f : YlpFrame)
  | ylpAtomic (port : PortId) (f : YlpFrame)
  | ylpReduce (port : PortId) (f : YlpFrame)
  | ylpFence (port : PortId) (f : YlpFrame)
  | ylpProbe (port : PortId) (f : YlpFrame)
  | ylpRetire (port : PortId) (f : YlpFrame)
  | ylpReadData (port : PortId) (f : YlpFrame)
  | ylpAck (port : PortId) (f : YlpFrame)
  | ylpAtomicResult (port : PortId) (f : YlpFrame)
  | ylpProbeAck (port : PortId) (f : YlpFrame)
  | ylpBusy (port : PortId) (f : YlpFrame)
  | ylpRefuse (port : PortId) (f : YlpFrame)
  | homeCompletion (node : BitVec 16) (seq : BitVec 24)
  | ackDelayExpiry (node : BitVec 16)
  | busyWaitExpiry (node : BitVec 16)
  | retransmissionTimeout (node : BitVec 16)
  | frameLifeExpiry (node : BitVec 16)
  | probeTimer
  | retireTimer (node : BitVec 16)
  | replayAged (h : HearthId)
  | refusalEntryExpiry
  | roceRdmaWrite (port : PortId) (part : RocePart) (p : RocePkt)
  | roceRdmaReadRequest (port : PortId) (p : RocePkt)
  | roceRdmaReadResponse (port : PortId) (p : RocePkt)
  | roceSend (port : PortId) (p : RocePkt)
  | roceAck (port : PortId) (p : RocePkt)
  | roceNak (port : PortId) (p : RocePkt) (retryable : Bool)
  | roceCnp (port : PortId) (p : RocePkt)
  | roceAckTimeout (conn : BitVec 10)
  | roceRateIncrease (conn : BitVec 10)
  | connAct (agent : BitVec 8) (index : BitVec 10)
  | connDeact (agent : BitVec 8) (index : BitVec 10)
  | grpAct (agent : BitVec 8) (index : BitVec 10)
  | grpDeact (agent : BitVec 8) (index : BitVec 10)
  | ctrlData (group : BitVec 10) (slot : Fin 28)
  | ctrlArrive (group : BitVec 10) (slot : Fin 28)
  | ctrlRelease (group : BitVec 10) (slot : Fin 28)
  | ctrlReset (group : BitVec 10) (slot : Fin 28)
  | ctrlDone (group : BitVec 10) (slot : Fin 28)
  | ctrlAbort (group : BitVec 10) (slot : Fin 28)
  | creditReturn (group : BitVec 10) (rel : Fin 15)
  | collectiveStall (group : BitVec 10)
  | snapshotStreamComplete
  | doorbellPseqWrite (ring : Fin 16) (pseq : Word64)
  | doorbellCconsWrite (ring : Fin 16) (ccons : Word64)
  | itemWaitExpiry (ring : Fin 16)
  | itemAccepted (ring : Fin 16)
  | acceptanceRecordTimer (ring : Fin 16)
  | itemStart (ring : Fin 16)
  | jobStart (ring : Fin 16)
  | widenRelease (ring : Fin 16)
  | ratioRelease (ring : Fin 16)
  | jobReset (ring : Fin 16)
  | jobEnd (ring : Fin 16)
  | workNop (ring : Fin 16)
  | badkindItem (ring : Fin 16)
  | itemDone (ring : Fin 16)
  | doneMarkMirrored (ring : Fin 16)
  | ringAct (agent : BitVec 8) (ring : Fin 16)
  | ringDeact (agent : BitVec 8) (ring : Fin 16)
  | mbxLockRead (agent : BitVec 8) (m : Fin 32)
  | mbxLockWrite (agent : BitVec 8) (m : Fin 32) (val : Word32)
  | mbxWindowWrite (agent : BitVec 8) (m : Fin 32) (w : Fin 64) (val : Word32)
  | post (agent : BitVec 8) (m : Fin 32)
  | take (agent : BitVec 8) (m : Fin 32)
  | mbxLockTimeout (m : Fin 32)
  | mbxMessageTimeout (m : Fin 32)
  | arm (agent : BitVec 8)
  | wardArmCheck (node : BitVec 16) (slot base len : BitVec 48)
  | fullCopyComplete
  | leave (agent : BitVec 8)
  | commit
  | commitApply (ward : BitVec 16)
  | commitAck
  | workingRowTally (owner : BitVec 16) (row : BitVec 48) (words : Nat) (fp : Word64)
  | heartbeatTimer (node : BitVec 16)
  | hbLossExpiry (node : BitVec 16)
  | selfFence
  | loss (at_ : SurvLoc)
  | join (at_ : SurvLoc)
  | change (at_ : SurvLoc)
  | confirm (at_ : SurvLoc)
  | holdoffExpiry
  | resume (at_ : SurvLoc)
  | halt (at_ : SurvLoc)
  | leaseExpiry (node : BitVec 16)
  | handover (node : BitVec 16)
  | noticeRetry
  | restoreGo (agent : BitVec 8)
  | powerEstimate (watts amps : Nat)
  | avsCurrentRead (ok : Bool) (mv : BitVec 16) (railAmps : List (BitVec 16))
  | grant
  | startDitherExpiry
  | paceRaise (causeGone : Bool)
  | ladderStep
  | idleVfloor
  | thermalSample (tj : BitVec 16) (sensor : BitVec 8)
  | thermalAllowanceStep
  | coolantPoll (readOk : Bool) (inlet : BitVec 16) (flow : Nat) (faults : BitVec 8)
  | lowFlowQuench
  | quench (agent : BitVec 8)
  | quenchIdle
  | quenchEnd
  | quenchLeaveTimer
  | thermalTrip (sensor : BitVec 8) (reading : BitVec 16)
  | thermalCycleSample (tj : BitVec 16)
  | wearRecordWrite
  | selfTestRotation (half : Fin 2)
  | run (agent : BitVec 8)
  | portTest (agent : BitVec 8) (port : PortId)
  | queuedTestRun
  | powerGood
  | powerLoss (rail : Fin 5)
  | rstNAssert
  | startStepComplete (r : StartReport)
  | startTimerExpiry
  | portRetryTimer
  | joinSpreadExpiry
  | admissionAnswer
  | admitWaitExpiry
  | watchdogExpiry
  | attestationRequest
  | mgmtMailboxRequest
  | resetFrame (port : PortId) (send : ResetSend)
  | cfgStageWrite (agent : BitVec 8) (setPref : Bool)
  | slotWriteComplete (flashOk : Bool)
  | cfgCommit (agent : BitVec 8)
  | apply (agent : BitVec 8)
  | eventRecord
  | freeze (agent : BitVec 8)
  | thaw (agent : BitVec 8)
  | freezeLimitExpiry
  | evrWindowRead (agent : BitVec 8) (w : BitVec 10) (eccErr : Bool)
  | brownOut
  | brownOutRecovery
  | selfRefreshReentry (h : HearthId) (chan : BitVec 7)
  | forecastWindowDue
  | captureComplete (group : BitVec 10)
  | trayPeerDiscovery (port : PortId) (node : BitVec 16) (epoch : BitVec 8) (slot : Fin 4)
  deriving DecidableEq, Repr

end Sys2Proof
end

