-- ==== Sys2Proof/WellFormed.lean ====
section
/-! DEFINITION. What the agents outside the block can send: the sizes that a transfer, a frame or a
report has by its rule. The meanings are total and do not rest on it. -/

namespace Sys2Proof

/-- R250: a local agent transfers at most one line, in 8-byte words that stay inside it. -/
def lineAccessOk (addr : BitVec 48) (words : Nat) : Bool :=
  addr.toNat % 8 = 0 && 1 ≤ words && addr.toNat % 128 + 8 * words ≤ 128

/-- R276: a frame carries up to eight lines of payload. -/
def frameSizeOk (f : YlpFrame) : Bool := f.payload.length ≤ 1024

/-- R298: a packet carries up to the greatest path MTU of Table 10-8. -/
def packetSizeOk (p : RocePkt) : Bool := p.payload.length ≤ 4096

/-- R433: a reset frame is a SEND of one packet. -/
def resetSizeOk (payload : List Byte) : Bool := payload.length ≤ 4096

def windowAccessOk (addr : BitVec 48) : WinAccess → Bool
  | .read n => lineAccessOk addr n
  | .write d => lineAccessOk addr d.length
  | .atomic => addr.toNat % 8 = 0

/-- R265: the ranges of a sweep's results. -/
def marginOk (m : MarginResult) : Bool :=
  m.rdW.toNat ≤ 64 && m.rdH.toNat ≤ 101 && m.wrW.toNat ≤ 64 && m.wrH.toNat ≤ 101 && m.rdVref.toNat ≤ 100
    && m.wrVref.toNat ≤ 100 && m.attempts.toNat ≤ 2

/-- The bit of MOD that tells YIELD.NOW from YIELD.IF (Table 7-7). -/
def yieldBit (f : Fields) : Nat := f.mod.toNat % 2

/-- The operation of FCOLL, MOD 110:107 (Table 7-15). -/
def fcollBits (f : Fields) : Nat := f.mod.toNat / 8

/-- The command's operands have the sizes that their rules give them, and a row that is one form of an instruction has
the bits of that form. -/
def Instr.wellFormed : Instr → Bool
  | .lineRead _ a n _ => lineAccessOk a n
  | .lineWrite _ a _ d => a.toNat % 128 = 0 && d.length = 16
  | .crucibleAtomic _ op a _ _ => op.toNat ≤ 9 && a.toNat % 8 = 0
  | .crucibleReduction _ op a d => op.toNat ≤ 4 && lineAccessOk a d.length
  | .windowAccess _ a x _ => windowAccessOk a x
  | .ylpRead _ f | .ylpWrite _ f | .ylpWriteMasked _ f | .ylpAtomic _ f | .ylpReduce _ f
  | .ylpFence _ f | .ylpProbe _ f | .ylpRetire _ f | .ylpReadData _ f | .ylpAck _ f
  | .ylpAtomicResult _ f | .ylpProbeAck _ f | .ylpBusy _ f | .ylpRefuse _ f => frameSizeOk f
  | .roceRdmaWrite _ _ p | .roceRdmaReadRequest _ p | .roceRdmaReadResponse _ p | .roceSend _ p
  | .roceAck _ p | .roceNak _ p _ | .roceCnp _ p => packetSizeOk p
  | .resetFrame _ m => resetSizeOk m.payload
  | .dramTrainingComplete rs => rs.length ≤ 2048 && rs.all fun m => marginOk m && 1 ≤ m.attempts.toNat
  | .marginRerunComplete m => marginOk m
  | .measurementWindowComplete _ sl => 1 ≤ sl.length
  | .weldMeasurement _ sl => 1 ≤ sl.length
  | .yieldIf _ _ f => yieldBit f = 0
  | .yieldNow _ _ f => yieldBit f = 1
  | .fcollReduceScatter _ _ f => fcollBits f = 0
  | .fcollAllGather _ _ f => fcollBits f = 1
  | .fcollAllReduce _ _ f => fcollBits f = 2
  | .fcollBroadcast _ _ f => fcollBits f = 3
  | .fcollStepEnd _ _ f => fcollBits f = 4
  | _ => true

end Sys2Proof
end

