-- ==== Sys2Proof/Decode.lean ====
section
/-! DEFINITION. The command table of the spec gives no row any bits: a command is an event or an access at
a named boundary of the block, not a coded word, so no word spells one. -/

namespace Sys2Proof

/-- The command that a word spells by the table's bits: none. -/
def decodeTableWord (_nbits _w : Nat) : Option Instr := none

end Sys2Proof
end

