-- ==== Sys2Proof/Machine/Bits.lean ====
section
/-! DEFINITION. Bit fields, byte orders, sign extension and the roundings that the rules share. -/

namespace Sys2Proof.Machine

/-- A bit field, both ends included, as the register and record tables write it. -/
structure Fld where
  hi : Nat
  lo : Nat
  deriving DecidableEq, Repr

/-- Bits `hi` to `lo` of a natural number. -/
def bitsOf (hi lo v : Nat) : Nat := v / 2 ^ lo % 2 ^ (hi + 1 - lo)

/-- `v` with bits `hi` to `lo` replaced by the low bits of `x`. -/
def putBits (hi lo v x : Nat) : Nat :=
  v % 2 ^ lo + (x % 2 ^ (hi + 1 - lo)) * 2 ^ lo + v / 2 ^ (hi + 1) * 2 ^ (hi + 1)

def Fld.get (f : Fld) (w : Word32) : Nat := bitsOf f.hi f.lo w.toNat

def Fld.put (f : Fld) (w : Word32) (x : Nat) : Word32 := BitVec.ofNat 32 (putBits f.hi f.lo w.toNat x)

/-- The greatest value a field holds. -/
def Fld.cap (f : Fld) : Nat := 2 ^ (f.hi + 1 - f.lo) - 1

/-- A natural number of `n` bits read as two's complement. -/
def sext (n v : Nat) : Int :=
  if v % 2 ^ n < 2 ^ (n - 1) then (v % 2 ^ n : Nat) else ((v % 2 ^ n : Nat) : Int) - 2 ^ n

/-- The low `n` bits of an integer. -/
def wrapBits (n : Nat) (x : Int) : Nat := (x % (2 ^ n : Nat)).toNat

/-- Saturation of a value to `n`-bit two's complement. -/
def satBits (n : Nat) (x : Int) : Int := max (-(2 ^ (n - 1) : Nat)) (min ((2 ^ (n - 1) : Nat) - 1) x)

/-- `n` bytes of a number, least significant first (R12). -/
def leBytes : Nat → Nat → List Byte
  | 0, _ => []
  | n + 1, v => BitVec.ofNat 8 v :: leBytes n (v / 256)

/-- The number that bytes hold, least significant first. -/
def ofLE : List Byte → Nat
  | [] => 0
  | b :: bs => b.toNat + 256 * ofLE bs

/-- Network order, most significant byte first (R12). -/
def beBytes (n v : Nat) : List Byte := (leBytes n v).reverse

def ofBE (bs : List Byte) : Nat := ofLE bs.reverse

theorem leBytes_length (n v : Nat) : (leBytes n v).length = n := by
  induction n generalizing v with
  | zero => rfl
  | succ n ih => simp [leBytes, ih]

theorem ofLE_leBytes (n v : Nat) : ofLE (leBytes n v) = v % 256 ^ n := by
  induction n generalizing v with
  | zero => simp [leBytes, ofLE, Nat.mod_one]
  | succ n ih =>
    have h : ofLE (leBytes (n + 1) v) = v % 256 + 256 * (v / 256 % 256 ^ n) := by
      rw [leBytes, ofLE, ih]; rfl
    have h2 : (256 : Nat) ^ (n + 1) = 256 * 256 ^ n := by rw [Nat.pow_succ, Nat.mul_comm]
    rw [h, h2, Nat.mod_mul]

/-- The 8-byte words of a byte sequence, little-endian, by structural recursion on a count. -/
def wordsOf : Nat → List Byte → List Word64
  | 0, _ => []
  | n + 1, bs => BitVec.ofNat 64 (ofLE (bs.take 8)) :: wordsOf n (bs.drop 8)

def bytesOfWords (ws : List Word64) : List Byte := ws.flatMap fun w => leBytes 8 w.toNat

/-- Bits of a byte record (little-endian): a field of `n` bits at byte `off`. -/
def fieldLE (bs : List Byte) (off n : Nat) : Nat := ofLE ((bs.drop off).take n)

/-- Bits `hi` to `lo` of 8-byte word `i` of a record; a missing word reads zero. -/
def wfield (ws : List Word64) (i hi lo : Nat) : Nat := bitsOf hi lo (ws.getD i 0).toNat

/-- A little-endian 64-bit word. -/
def w64 (v : Nat) : Word64 := BitVec.ofNat 64 v

/-- The right shift with round to nearest, ties to even, of an exact value by `k` bits. -/
def rne (x : Int) (k : Nat) : Int :=
  let q := x / (2 ^ k : Nat)
  let r := x % (2 ^ k : Nat)
  if 2 * r < (2 ^ k : Nat) then q
  else if 2 * r > (2 ^ k : Nat) then q + 1
  else if q % 2 = 0 then q else q + 1

/-- Round to nearest, ties to even, of the quotient of an integer by a positive one. -/
def rneDiv (x : Int) (d : Nat) : Int :=
  let q := x / (d : Int)
  let r := x % (d : Int)
  if 2 * r < d then q
  else if 2 * r > d then q + 1
  else if q % 2 = 0 then q else q + 1

/-- A shift of an exact value by a signed amount: left when positive, right toward minus infinity
when negative. -/
def shiftFloor (x : Int) (k : Int) : Int :=
  if 0 ≤ k then x * (2 ^ k.toNat : Nat) else x / (2 ^ (-k).toNat : Nat)

/-- As `shiftFloor`, rounding to nearest, ties to even, on the right. -/
def shiftRne (x : Int) (k : Int) : Int :=
  if 0 ≤ k then x * (2 ^ k.toNat : Nat) else rne x (-k).toNat

/-- Position of the highest set bit of a natural number; zero gives `none`. -/
def msb? (v : Nat) : Option Nat := if v = 0 then none else some (Nat.log2 v)

/-- Parity of a word of `n` bits. -/
def parity : Nat → Nat → Bool
  | 0, _ => false
  | n + 1, v => (v % 2 = 1) != parity n (v / 2)

/-- Insertion that keeps keys strictly rising and replaces an equal key. -/
def assocSet {α : Type} (k : Nat) (v : α) : List (Nat × α) → List (Nat × α)
  | [] => [(k, v)]
  | (a, b) :: rest =>
    if k < a then (k, v) :: (a, b) :: rest
    else if k = a then (k, v) :: rest
    else (a, b) :: assocSet k v rest

def assocErase {α : Type} (k : Nat) : List (Nat × α) → List (Nat × α)
  | [] => []
  | (a, b) :: rest => if k = a then assocErase k rest else (a, b) :: assocErase k rest

def assocGet {α : Type} (k : Nat) : List (Nat × α) → Option α
  | [] => none
  | (a, b) :: rest => if k = a then some b else assocGet k rest

/-- Sparse update: a key whose value is the default is not listed. -/
def sparseSet {α : Type} [DecidableEq α] (dflt : α) (k : Nat) (v : α) (l : List (Nat × α)) :
    List (Nat × α) :=
  if v = dflt then assocErase k l else assocSet k v l

theorem assocGet_assocSet {α : Type} (k j : Nat) (v : α) (l : List (Nat × α)) :
    assocGet j (assocSet k v l) = if j = k then some v else assocGet j l := by
  induction l with
  | nil => simp [assocSet, assocGet]
  | cons p rest ih =>
    obtain ⟨a, b⟩ := p
    simp only [assocSet]
    split
    · simp only [assocGet]
    · split
      · next h => subst h; simp only [assocGet]; split <;> simp_all
      · simp only [assocGet, ih]
        split <;> split <;> simp_all

theorem assocGet_assocErase {α : Type} (k j : Nat) (l : List (Nat × α)) :
    assocGet j (assocErase k l) = if j = k then none else assocGet j l := by
  induction l with
  | nil => simp [assocErase, assocGet]
  | cons p rest ih =>
    obtain ⟨a, b⟩ := p
    simp only [assocErase]
    split
    · next h => subst h; rw [ih]; simp only [assocGet]; split <;> simp_all
    · simp only [assocGet, ih]
      split <;> split <;> simp_all

/-- Reading after a sparse update: the value at its key, every other key as before. -/
theorem assocGet_sparseSet {α : Type} [DecidableEq α] (d : α) (k j : Nat) (v : α)
    (l : List (Nat × α)) :
    (assocGet j (sparseSet d k v l)).getD d = if j = k then v else (assocGet j l).getD d := by
  unfold sparseSet
  split
  · rw [assocGet_assocErase]; split <;> simp_all
  · rw [assocGet_assocSet]; split <;> simp_all

/-- The elements of a list that satisfy a condition, replaced. -/
def updWhere {α : Type} (p : α → Bool) (f : α → α) (l : List α) : List α :=
  l.map fun x => if p x then f x else x

/-- Keys strictly rising. -/
def risingKeys {α : Type} : List (Nat × α) → Bool
  | [] => true
  | [_] => true
  | (a, _) :: (b, y) :: rest => decide (a < b) && risingKeys ((b, y) :: rest)

end Sys2Proof.Machine
end

