-- ==== Sys2Proof/Machine/RegMap.lean ====
section
/-! DEFINITION. The management registers (R13, R36): the address, the fields, the access code and the
reset value of each, as the register tables of the spec give them. Reserved bits are in no field: they
read 0 and a write to them is ignored (R14). -/

namespace Sys2Proof.Machine

/-- Table 0-4. -/
inductive Access where
  | ro | rw | rw1c | rc | wo | rwl
  deriving DecidableEq, Repr

structure RegField where
  hi : Nat
  lo : Nat
  acc : Access
  reset : Nat
  deriving DecidableEq, Repr

structure RegDesc where
  base : Nat
  count : Nat
  stride : Nat
  fields : List RegField
  deriving DecidableEq, Repr

def DEV_ID : Nat := 0x0
def DEV_ID_PART : Fld := ⟨31, 16⟩
def DEV_ID_STEP : Fld := ⟨15, 8⟩
def DEV_STATUS : Nat := 0x4
def DEV_STATUS_WEDGED : Fld := ⟨4, 4⟩
def DEV_STATUS_SVC_REQ : Fld := ⟨3, 3⟩
def DEV_STATUS_DEGRADED : Fld := ⟨2, 2⟩
def DEV_STATUS_WELD_UP : Fld := ⟨1, 1⟩
def DEV_STATUS_READY : Fld := ⟨0, 0⟩
def DEV_CORE_RETIRED (k : Nat) : Nat := 0x10 + 0x4 * k
def DEV_CORE_RETIRED_RETIRED : Fld := ⟨31, 0⟩
def DEV_DOM_STATE : Nat := 0x20
def DEV_DOM_STATE_HALF1 : Fld := ⟨31, 16⟩
def DEV_DOM_STATE_HALF0 : Fld := ⟨15, 0⟩
def DEV_HEARTH_AVAIL (k : Nat) : Nat := 0x28 + 0x4 * k
def DEV_HEARTH_AVAIL_AVAIL : Fld := ⟨31, 0⟩
def CORE_NUMCTL (i : Nat) : Nat := 0x100040 + 0x1000 * i
def CORE_NUMCTL_FLOOR_MODE : Fld := ⟨0, 0⟩
def CORE_NUMSTAT (i : Nat) : Nat := 0x100044 + 0x1000 * i
def CORE_NUMSTAT_FORCED : Fld := ⟨1, 1⟩
def CORE_NUMSTAT_FLUSHED : Fld := ⟨0, 0⟩
def CORE_VOIDCNT (i : Nat) : Nat := 0x100048 + 0x1000 * i
def CORE_VOIDCNT_VOID_READS : Fld := ⟨31, 0⟩
def CORE_QSATCNT (i : Nat) : Nat := 0x100050 + 0x1000 * i
def CORE_QSATCNT_SAT : Fld := ⟨31, 0⟩
def CORE_QCEILCNT (i : Nat) : Nat := 0x100054 + 0x1000 * i
def CORE_QCEILCNT_CEIL : Fld := ⟨31, 0⟩
def CORE_QZEROCNT (i : Nat) : Nat := 0x100058 + 0x1000 * i
def CORE_QZEROCNT_ZERO : Fld := ⟨31, 0⟩
def CORE_TILECTL (i : Nat) : Nat := 0x100060 + 0x1000 * i
def CORE_TILECTL_SPLIT : Fld := ⟨1, 1⟩
def CORE_TILECTL_LEAVE_POLICY : Fld := ⟨0, 0⟩
def CORE_SAVEBASE (i : Nat) : Nat := 0x100064 + 0x1000 * i
def CORE_SAVEBASE_BASE : Fld := ⟨20, 7⟩
def CORE_TILESAT (i : Nat) : Nat := 0x10006c + 0x1000 * i
def CORE_TILESAT_SATTILES : Fld := ⟨31, 0⟩
def CORE_RESCNT (i : Nat) : Nat := 0x100070 + 0x1000 * i
def CORE_RESCNT_MISMATCH : Fld := ⟨31, 0⟩
def CORE_TILEFAULT (i : Nat) : Nat := 0x100074 + 0x1000 * i
def CORE_TILEFAULT_PART : Fld := ⟨17, 17⟩
def CORE_TILEFAULT_COL : Fld := ⟨16, 11⟩
def CORE_TILEFAULT_ROW : Fld := ⟨10, 6⟩
def CORE_TILEFAULT_ANVIL : Fld := ⟨5, 4⟩
def CORE_TILEFAULT_CAUSE : Fld := ⟨3, 0⟩
def CORE_VSATCNT (i : Nat) : Nat := 0x100080 + 0x1000 * i
def CORE_VSATCNT_VSAT : Fld := ⟨31, 0⟩
def CORE_FOSATCNT (i : Nat) : Nat := 0x100084 + 0x1000 * i
def CORE_FOSATCNT_FOSAT : Fld := ⟨31, 0⟩
def CORE_UPDCLAMP (i : Nat) : Nat := 0x100088 + 0x1000 * i
def CORE_UPDCLAMP_CLAMPED : Fld := ⟨31, 0⟩
def CORE_UPDSTAT (i : Nat) : Nat := 0x10008c + 0x1000 * i
def CORE_UPDSTAT_INEXACT : Fld := ⟨3, 3⟩
def CORE_UPDSTAT_BOOST_CAP : Fld := ⟨2, 2⟩
def CORE_UPDSTAT_BAND_HI : Fld := ⟨1, 1⟩
def CORE_UPDSTAT_BAND_LO : Fld := ⟨0, 0⟩
def CORE_SEQCTL (i : Nat) : Nat := 0x100000 + 0x1000 * i
def CORE_SEQCTL_YIELD_WAIT : Fld := ⟨31, 16⟩
def CORE_SEQCTL_WAIT_LIM : Fld := ⟨15, 0⟩
def CORE_SEQSTAT (i : Nat) : Nat := 0x100004 + 0x1000 * i
def CORE_SEQSTAT_PREQ : Fld := ⟨7, 7⟩
def CORE_SEQSTAT_SPLIT_RUN : Fld := ⟨6, 6⟩
def CORE_SEQSTAT_CTX1 : Fld := ⟨5, 3⟩
def CORE_SEQSTAT_CTX0 : Fld := ⟨2, 0⟩
def CORE_PC (i c : Nat) : Nat := 0x100008 + 0x1000 * i + 4 * c
def CORE_PC_PC : Fld := ⟨20, 0⟩
def CORE_FAULT (i : Nat) : Nat := 0x100010 + 0x1000 * i
def CORE_FAULT_PRECISE : Fld := ⟨23, 23⟩
def CORE_FAULT_CTX : Fld := ⟨22, 22⟩
def CORE_FAULT_QUEUE : Fld := ⟨21, 19⟩
def CORE_FAULT_CODE : Fld := ⟨7, 0⟩
def CORE_FAULTPC (i : Nat) : Nat := 0x100014 + 0x1000 * i
def CORE_FAULTPC_PC : Fld := ⟨20, 0⟩
def CORE_FAULTCNT (i : Nat) : Nat := 0x100018 + 0x1000 * i
def CORE_FAULTCNT_PROGRAM : Fld := ⟨31, 20⟩
def CORE_FAULTCNT_HARDWARE : Fld := ⟨19, 8⟩
def CORE_FAULTCNT_YIELDTO : Fld := ⟨7, 0⟩
def CORE_QOCC (i : Nat) : Nat := 0x10001c + 0x1000 * i
def CORE_QOCC_FABRIC : Fld := ⟨31, 26⟩
def CORE_QOCC_TONGS : Fld := ⟨25, 20⟩
def CORE_QOCC_VECTOR : Fld := ⟨19, 15⟩
def CORE_QOCC_ANV1 : Fld := ⟨14, 10⟩
def CORE_QOCC_ANV0 : Fld := ⟨9, 5⟩
def CORE_SEQSAVE (i : Nat) : Nat := 0x100020 + 0x1000 * i
def CORE_SEQSAVE_BASE : Fld := ⟨20, 7⟩
def CORE_IDENT (i : Nat) : Nat := 0x100024 + 0x1000 * i
def CORE_IDENT_NODE : Fld := ⟨31, 16⟩
def CORE_IDENT_JOINED : Fld := ⟨15, 15⟩
def CORE_IDENT_INDEX : Fld := ⟨6, 0⟩
def MEM_CTL : Nat := 0x80000
def MEM_CTL_SCRUB_HRS : Fld := ⟨31, 24⟩
def MEM_CTL_CE_RATE : Fld := ⟨23, 16⟩
def MEM_STATUS : Nat := 0x80004
def MEM_STATUS_MIGRATING : Fld := ⟨4, 4⟩
def MEM_STATUS_RERUN_PEND : Fld := ⟨3, 3⟩
def MEM_STATUS_TRAINING : Fld := ⟨2, 2⟩
def MEM_STATUS_TRAIN_FAIL : Fld := ⟨1, 1⟩
def MEM_STATUS_TRAINED : Fld := ⟨0, 0⟩
def MEM_RGN_SEL : Nat := 0x80010
def MEM_RGN_SEL_PAIR : Fld := ⟨17, 0⟩
def MEM_RGN : Nat := 0x80014
def MEM_RGN_BUSY : Fld := ⟨4, 4⟩
def MEM_RGN_STATE : Fld := ⟨3, 2⟩
def MEM_RGN_ALLOC : Fld := ⟨1, 1⟩
def MEM_RGN_POLICY : Fld := ⟨0, 0⟩
def MEM_MRG_SEL : Nat := 0x80020
def MEM_MRG_SEL_CHAN : Fld := ⟨10, 0⟩
def MEM_MRG_RES : Nat := 0x80024
def MEM_MRG_RES_RD_W : Fld := ⟨31, 24⟩
def MEM_MRG_RES_RD_H : Fld := ⟨23, 16⟩
def MEM_MRG_RES_WR_W : Fld := ⟨15, 8⟩
def MEM_MRG_RES_WR_H : Fld := ⟨7, 0⟩
def MEM_MRG_CTR : Nat := 0x80028
def MEM_MRG_CTR_PASS : Fld := ⟨31, 31⟩
def MEM_MRG_CTR_RD_DLY : Fld := ⟨30, 24⟩
def MEM_MRG_CTR_WR_DLY : Fld := ⟨23, 17⟩
def MEM_MRG_CTR_RD_VREF : Fld := ⟨16, 10⟩
def MEM_MRG_CTR_WR_VREF : Fld := ⟨9, 3⟩
def MEM_MRG_CTR_ATTEMPTS : Fld := ⟨2, 0⟩
def MEM_MRG_CTL : Nat := 0x8002c
def MEM_MRG_CTL_START : Fld := ⟨31, 31⟩
def MEM_CECNT (k : Nat) : Nat := 0x80040 + 0x4 * k
def MEM_CECNT_CE : Fld := ⟨31, 0⟩
def MEM_UECNT : Nat := 0x80060
def MEM_UECNT_POISONED : Fld := ⟨31, 16⟩
def MEM_UECNT_RETRIED : Fld := ⟨15, 0⟩
def MEM_UEADDR_LO : Nat := 0x80064
def MEM_UEADDR_LO_ADDR_LO : Fld := ⟨31, 7⟩
def MEM_UEADDR_HI : Nat := 0x80068
def MEM_UEADDR_HI_ADDR_HI : Fld := ⟨15, 0⟩
def HCH_SCE (j : Nat) : Nat := 0x90000 + 0x100 * j
def HCH_SCE_SLICE_CE : Fld := ⟨31, 16⟩
def HCH_SCE_CS_CE : Fld := ⟨15, 0⟩
def HCH_SUE (j : Nat) : Nat := 0x90004 + 0x100 * j
def HCH_SUE_SLICE_REFETCH : Fld := ⟨31, 24⟩
def HCH_SUE_SLICE_POISON : Fld := ⟨23, 16⟩
def HCH_SUE_CS_UE : Fld := ⟨15, 0⟩
def HCH_CRUC (j : Nat) : Nat := 0x90008 + 0x100 * j
def HCH_CRUC_REFUSED : Fld := ⟨31, 16⟩
def HCH_CRUC_VOID : Fld := ⟨15, 0⟩
def HCH_SPOOL_LO (j : Nat) : Nat := 0x90010 + 0x100 * j
def HCH_SPOOL_LO_BASE_LO : Fld := ⟨31, 21⟩
def HCH_SPOOL_HI (j : Nat) : Nat := 0x90014 + 0x100 * j
def HCH_SPOOL_HI_BASE_HI : Fld := ⟨15, 0⟩
def HCH_SPOOL_N (j : Nat) : Nat := 0x90018 + 0x100 * j
def HCH_SPOOL_N_USED : Fld := ⟨15, 8⟩
def HCH_SPOOL_N_SLOTS : Fld := ⟨7, 0⟩
def PRT_CTL (p : Nat) : Nat := 0x60000 + 0x1000 * p
def PRT_CTL_PFC_EN : Fld := ⟨15, 8⟩
def PRT_CTL_LOOP : Fld := ⟨3, 3⟩
def PRT_CTL_MEDIA : Fld := ⟨2, 2⟩
def PRT_CTL_AN_EN : Fld := ⟨1, 1⟩
def PRT_CTL_ENABLE : Fld := ⟨0, 0⟩
def PRT_STATUS (p : Nat) : Nat := 0x60004 + 0x1000 * p
def PRT_STATUS_LANE_OK : Fld := ⟨7, 4⟩
def PRT_STATUS_PAUSED : Fld := ⟨3, 3⟩
def PRT_STATUS_AN_DONE : Fld := ⟨2, 2⟩
def PRT_STATUS_FEC_LOCK : Fld := ⟨1, 1⟩
def PRT_STATUS_LINK_UP : Fld := ⟨0, 0⟩
def PRT_FECCOR (p : Nat) : Nat := 0x60008 + 0x1000 * p
def PRT_FECCOR_CORRECTED : Fld := ⟨31, 0⟩
def PRT_FECUNC (p : Nat) : Nat := 0x6000c + 0x1000 * p
def PRT_FECUNC_UNCORRECTED : Fld := ⟨31, 0⟩
def PRT_RXDISC (p : Nat) : Nat := 0x60010 + 0x1000 * p
def PRT_RXDISC_BADFCS : Fld := ⟨31, 16⟩
def PRT_RXDISC_FILTERED : Fld := ⟨15, 0⟩
def PRT_LINKDN (p : Nat) : Nat := 0x60014 + 0x1000 * p
def PRT_LINKDN_DOWN : Fld := ⟨15, 0⟩
def FAB_CTL : Nat := 0x70000
def FAB_CTL_ETYPE : Fld := ⟨31, 16⟩
def FAB_CTL_YLP_PCP : Fld := ⟨15, 13⟩
def FAB_CTL_ROCE_PCP : Fld := ⟨12, 10⟩
def FAB_MAC : Nat := 0x70004
def FAB_MAC_MAC_HI : Fld := ⟨23, 0⟩
def FAB_NODE : Nat := 0x70008
def FAB_NODE_NODE : Fld := ⟨31, 16⟩
def FAB_NODE_EPOCH : Fld := ⟨15, 8⟩
def FAB_NODE_JOINED : Fld := ⟨0, 0⟩
def FAB_TMR : Nat := 0x7000c
def FAB_TMR_RTO_SW : Fld := ⟨31, 24⟩
def FAB_TMR_RTO_DIR : Fld := ⟨23, 16⟩
def FAB_TMR_PATH_FAILS : Fld := ⟨15, 12⟩
def FAB_TMR_FRAME_LIFE : Fld := ⟨11, 0⟩
def FAB_WIN : Nat := 0x70010
def FAB_WIN_WIN : Fld := ⟨31, 21⟩
def FAB_WIN_ACK_DELAY : Fld := ⟨20, 12⟩
def FAB_WIN_BUSY_WAIT : Fld := ⟨11, 4⟩
def FAB_REPLAY : Nat := 0x70014
def FAB_REPLAY_REPLAY_AGE : Fld := ⟨31, 16⟩
def FAB_REPLAY_PEAK : Fld := ⟨12, 0⟩
def FAB_PATH_SEL : Nat := 0x70020
def FAB_PATH_SEL_ENDPOINT : Fld := ⟨11, 0⟩
def FAB_PATH : Nat := 0x70024
def FAB_PATH_UNREACH : Fld := ⟨31, 31⟩
def FAB_PATH_FAILED : Fld := ⟨30, 25⟩
def FAB_PATH_CUR : Fld := ⟨24, 22⟩
def FAB_CNT0 : Nat := 0x70030
def FAB_CNT0_RETX : Fld := ⟨31, 0⟩
def FAB_CNT1 : Nat := 0x70034
def FAB_CNT1_DUPS : Fld := ⟨31, 16⟩
def FAB_CNT1_REROUTES : Fld := ⟨15, 0⟩
def FAB_CNT2 : Nat := 0x70038
def FAB_CNT2_BUSY_SENT : Fld := ⟨31, 16⟩
def FAB_CNT2_UNREACH : Fld := ⟨15, 0⟩
def FAB_CNT3 : Nat := 0x7003c
def FAB_CNT3_REPLAY_HITS : Fld := ⟨31, 16⟩
def FAB_CNT3_REPLAY_AGED : Fld := ⟨15, 0⟩
def FAB_CONN_BASE_LO : Nat := 0x70040
def FAB_CONN_BASE_LO_BASE_LO : Fld := ⟨31, 6⟩
def FAB_CONN_BASE_HI : Nat := 0x70044
def FAB_CONN_BASE_HI_BASE_HI : Fld := ⟨15, 0⟩
def FAB_CONN_CTL : Nat := 0x70048
def FAB_CONN_CTL_ACT : Fld := ⟨31, 31⟩
def FAB_CONN_CTL_DEACT : Fld := ⟨30, 30⟩
def FAB_CONN_CTL_STATE : Fld := ⟨11, 10⟩
def FAB_CONN_CTL_INDEX : Fld := ⟨9, 0⟩
def FAB_ROCE_CC : Nat := 0x7004c
def FAB_ROCE_CC_CNP_GAP : Fld := ⟨31, 24⟩
def FAB_ROCE_CC_DEC_SHIFT : Fld := ⟨23, 20⟩
def FAB_ROCE_CC_INC_PERIOD : Fld := ⟨19, 12⟩
def FAB_ROCE_CC_INC_STEP : Fld := ⟨11, 4⟩
def FAB_CNT4 : Nat := 0x70050
def FAB_CNT4_ICRC_BAD : Fld := ⟨31, 16⟩
def FAB_CNT4_GAPS : Fld := ⟨15, 0⟩
def COL_CTL : Nat := 0x78000
def COL_CTL_STALL_MS : Fld := ⟨31, 16⟩
def COL_GRP_BASE_LO : Nat := 0x78004
def COL_GRP_BASE_LO_BASE_LO : Fld := ⟨31, 6⟩
def COL_GRP_BASE_HI : Nat := 0x78008
def COL_GRP_BASE_HI_BASE_HI : Fld := ⟨15, 0⟩
def COL_GRP_CTL : Nat := 0x7800c
def COL_GRP_CTL_ACT : Fld := ⟨31, 31⟩
def COL_GRP_CTL_DEACT : Fld := ⟨30, 30⟩
def COL_GRP_CTL_STATE : Fld := ⟨11, 10⟩
def COL_GRP_CTL_INDEX : Fld := ⟨9, 0⟩
def COL_SNAP_BASE_LO : Nat := 0x78010
def COL_SNAP_BASE_LO_BASE_LO : Fld := ⟨31, 7⟩
def COL_SNAP_BASE_HI : Nat := 0x78014
def COL_SNAP_BASE_HI_BASE_HI : Fld := ⟨15, 0⟩
def COL_STATUS : Nat := 0x78018
def COL_STATUS_INST : Fld := ⟨26, 22⟩
def COL_STATUS_STREAMING : Fld := ⟨3, 3⟩
def COL_STATUS_SNAP_OPEN : Fld := ⟨2, 2⟩
def COL_STATUS_RESETTING : Fld := ⟨1, 1⟩
def COL_STATUS_INEXACT : Fld := ⟨0, 0⟩
def COL_CNT0 : Nat := 0x78020
def COL_CNT0_RESCALES : Fld := ⟨31, 0⟩
def COL_CNT1 : Nat := 0x78024
def COL_CNT1_FLUSHED : Fld := ⟨31, 16⟩
def COL_CNT1_VOID : Fld := ⟨15, 0⟩
def COL_CNT2 : Nat := 0x78028
def COL_CNT2_RESTARTS : Fld := ⟨31, 24⟩
def COL_CNT2_POISON : Fld := ⟨23, 16⟩
def COL_CNT2_CEIL : Fld := ⟨15, 0⟩
def COL_CNT3 : Nat := 0x7802c
def COL_CNT3_MISMATCH : Fld := ⟨31, 16⟩
def COL_CNT3_STALLS : Fld := ⟨15, 0⟩
def MBX_CFG (m : Nat) : Nat := 0x30000 + 0x20 * m
def MBX_CFG_RKIND : Fld := ⟨1, 0⟩
def MBX_STAT (m : Nat) : Nat := 0x30004 + 0x20 * m
def MBX_STAT_TO_AGENT : Fld := ⟨23, 16⟩
def MBX_STAT_LOCK_TO : Fld := ⟨4, 4⟩
def MBX_STAT_REFUSED : Fld := ⟨3, 3⟩
def MBX_STAT_TIMEOUT : Fld := ⟨2, 2⟩
def MBX_STAT_LOCKED : Fld := ⟨1, 1⟩
def MBX_STAT_FULL : Fld := ⟨0, 0⟩
def MBX_LOCK (m : Nat) : Nat := 0x30008 + 0x20 * m
def MBX_LOCK_OWNER : Fld := ⟨7, 0⟩
def MBX_CTL (m : Nat) : Nat := 0x3000c + 0x20 * m
def MBX_CTL_TAKE : Fld := ⟨1, 1⟩
def MBX_CTL_POST : Fld := ⟨0, 0⟩
def MBX_SENDER_LO (m : Nat) : Nat := 0x30010 + 0x20 * m
def MBX_SENDER_LO_SENDER_LO : Fld := ⟨31, 0⟩
def MBX_SENDER_HI (m : Nat) : Nat := 0x30014 + 0x20 * m
def MBX_SENDER_HI_SENDER_HI : Fld := ⟨31, 0⟩
def MBX_TASK_LO (m : Nat) : Nat := 0x30018 + 0x20 * m
def MBX_TASK_LO_TASK_LO : Fld := ⟨31, 6⟩
def MBX_TASK_HI (m : Nat) : Nat := 0x3001c + 0x20 * m
def MBX_TASK_HI_TASK_HI : Fld := ⟨15, 0⟩
def MBX_TIMEOUT : Nat := 0x30400
def MBX_TIMEOUT_LIMIT : Fld := ⟨15, 0⟩
def WRK_CTL : Nat := 0x300000
def WRK_CTL_ENABLE : Fld := ⟨31, 31⟩
def WRK_CTL_EVRING : Fld := ⟨30, 27⟩
def WRK_CTL_ITEM_WAIT : Fld := ⟨26, 16⟩
def WRK_STATUS : Nat := 0x300004
def WRK_STATUS_STOPPED : Fld := ⟨31, 16⟩
def WRK_STATUS_JFULL : Fld := ⟨2, 2⟩
def WRK_STATUS_PARTNER_DOWN : Fld := ⟨1, 1⟩
def WRK_STATUS_HELD_RECORDS : Fld := ⟨0, 0⟩
def WRK_RING_BASE_LO : Nat := 0x300008
def WRK_RING_BASE_LO_BASE_LO : Fld := ⟨31, 6⟩
def WRK_RING_BASE_HI : Nat := 0x30000c
def WRK_RING_BASE_HI_BASE_HI : Fld := ⟨15, 0⟩
def WRK_RING_CTL : Nat := 0x300010
def WRK_RING_CTL_ACT : Fld := ⟨31, 31⟩
def WRK_RING_CTL_DEACT : Fld := ⟨30, 30⟩
def WRK_RING_CTL_STATE : Fld := ⟨5, 4⟩
def WRK_RING_CTL_INDEX : Fld := ⟨3, 0⟩
def WRK_JBASE_LO : Nat := 0x300014
def WRK_JBASE_LO_BASE_LO : Fld := ⟨31, 9⟩
def WRK_JBASE_HI : Nat := 0x300018
def WRK_JBASE_HI_BASE_HI : Fld := ⟨15, 0⟩
def WRK_JSLOTS : Nat := 0x30001c
def WRK_JSLOTS_LOG : Fld := ⟨3, 0⟩
def WRK_PARTNER : Nat := 0x300020
def WRK_PARTNER_NODE : Fld := ⟨31, 16⟩
def WRK_PARTNER_VALID : Fld := ⟨15, 15⟩
def WRK_MIRROR_LO : Nat := 0x300024
def WRK_MIRROR_LO_MIRROR_LO : Fld := ⟨31, 9⟩
def WRK_MIRROR_HI : Nat := 0x300028
def WRK_MIRROR_HI_MIRROR_HI : Fld := ⟨15, 0⟩
def WRK_CNT : Nat := 0x30002c
def WRK_CNT_ACCEPTED : Fld := ⟨31, 16⟩
def WRK_CNT_STOPS : Fld := ⟨15, 0⟩
def SURV_CTL : Nat := 0x200000
def SURV_CTL_ARM : Fld := ⟨31, 31⟩
def SURV_CTL_LEAVE : Fld := ⟨30, 30⟩
def SURV_CTL_HOLDOFF : Fld := ⟨23, 16⟩
def SURV_CTL_SVC_CORES : Fld := ⟨15, 8⟩
def SURV_CTL_EVICT_CORES : Fld := ⟨7, 0⟩
def SURV_TIMERS : Nat := 0x200004
def SURV_TIMERS_HB_PERIOD : Fld := ⟨31, 24⟩
def SURV_TIMERS_HB_LOSS : Fld := ⟨23, 12⟩
def SURV_TIMERS_LEASE : Fld := ⟨11, 0⟩
def SURV_RETIRE : Nat := 0x200008
def SURV_RETIRE_RES_LIMIT : Fld := ⟨31, 28⟩
def SURV_RETIRE_RES_WINDOW : Fld := ⟨27, 20⟩
def SURV_STATUS : Nat := 0x20000c
def SURV_STATUS_ADOPTS : Fld := ⟨19, 16⟩
def SURV_STATUS_WARDS : Fld := ⟨15, 12⟩
def SURV_STATUS_HALTED : Fld := ⟨7, 7⟩
def SURV_STATUS_FENCED : Fld := ⟨6, 6⟩
def SURV_STATUS_IDLE : Fld := ⟨5, 5⟩
def SURV_STATUS_SVC : Fld := ⟨4, 4⟩
def SURV_STATUS_REPAIRING : Fld := ⟨3, 3⟩
def SURV_STATUS_ARMED : Fld := ⟨2, 2⟩
def SURV_STATUS_COORD : Fld := ⟨1, 1⟩
def SURV_STATUS_MEMBER : Fld := ⟨0, 0⟩
def SURV_PLAN_LO : Nat := 0x200010
def SURV_PLAN_LO_PLAN_LO : Fld := ⟨31, 8⟩
def SURV_PLAN_HI : Nat := 0x200014
def SURV_PLAN_HI_PLAN_HI : Fld := ⟨15, 0⟩
def SURV_PARTNER : Nat := 0x200018
def SURV_PARTNER_NODE : Fld := ⟨31, 16⟩
def SURV_PARTNER_VALID : Fld := ⟨15, 15⟩
def SURV_PARTNER_CAND : Fld := ⟨1, 0⟩
def SURV_MGEN : Nat := 0x20001c
def SURV_MGEN_MGEN : Fld := ⟨31, 0⟩
def SURV_CNT0 : Nat := 0x200020
def SURV_CNT0_LOSSES : Fld := ⟨31, 16⟩
def SURV_CNT0_BADLINE : Fld := ⟨15, 0⟩
def SURV_CNT1 : Nat := 0x200024
def SURV_CNT1_TALLY_MISS : Fld := ⟨31, 16⟩
def SURV_CNT1_SEED_MISS : Fld := ⟨15, 0⟩
def SURV_CNT2 : Nat := 0x200028
def SURV_CNT2_REFETCH : Fld := ⟨31, 16⟩
def SURV_CNT2_PROMOTIONS : Fld := ⟨15, 8⟩
def SURV_CNT2_RETIRED : Fld := ⟨7, 0⟩
def SURV_RST_CTL : Nat := 0x20002c
def SURV_RST_CTL_GO : Fld := ⟨31, 31⟩
def SURV_RST_CTL_DONE : Fld := ⟨16, 16⟩
def SURV_RST_CTL_ERROR : Fld := ⟨15, 0⟩
def SURV_RST_LO : Nat := 0x200030
def SURV_RST_LO_RST_LO : Fld := ⟨31, 7⟩
def SURV_RST_HI : Nat := 0x200034
def SURV_RST_HI_RST_HI : Fld := ⟨15, 0⟩
def SURV_TALLY : Nat := 0x200038
def SURV_TALLY_TALLY_STEPS : Fld := ⟨31, 16⟩
def PWR_CTL : Nat := 0x50000
def PWR_CTL_CAP : Fld := ⟨31, 21⟩
def PWR_CTL_SLOPE : Fld := ⟨20, 14⟩
def PWR_CTL_DITHER : Fld := ⟨13, 9⟩
def PWR_CTL_FC_EN : Fld := ⟨1, 1⟩
def PWR_CTL_PARK_EN : Fld := ⟨0, 0⟩
def PWR_VCTL : Nat := 0x50004
def PWR_VCTL_VSET : Fld := ⟨31, 26⟩
def PWR_VCTL_VFLOOR : Fld := ⟨25, 20⟩
def PWR_VCTL_VREQ : Fld := ⟨19, 14⟩
def PWR_IMAX : Nat := 0x50008
def PWR_IMAX_IMAX : Fld := ⟨19, 8⟩
def PWR_MEAS : Nat := 0x5000c
def PWR_MEAS_VMV : Fld := ⟨31, 16⟩
def PWR_MEAS_IAMP : Fld := ⟨15, 0⟩
def PWR_POWER : Nat := 0x50010
def PWR_POWER_P_FAST : Fld := ⟨31, 16⟩
def PWR_POWER_P_SLOW : Fld := ⟨15, 0⟩
def PWR_STATUS : Nat := 0x50014
def PWR_STATUS_PARKED : Fld := ⟨23, 17⟩
def PWR_STATUS_PACE : Fld := ⟨16, 12⟩
def PWR_STATUS_LIMIT : Fld := ⟨11, 8⟩
def PWR_STATUS_EXCURSION : Fld := ⟨1, 1⟩
def PWR_STATUS_QUENCHED : Fld := ⟨0, 0⟩
def PWR_CNT : Nat := 0x50018
def PWR_CNT_EXCURSIONS : Fld := ⟨31, 16⟩
def PWR_CNT_PACINGS : Fld := ⟨15, 0⟩
def PWR_TEST : Nat := 0x50020
def PWR_TEST_PERIOD : Fld := ⟨31, 24⟩
def PWR_TEST_RUN : Fld := ⟨23, 23⟩
def PWR_TEST_PORT_TEST : Fld := ⟨22, 22⟩
def PWR_TEST_PORT : Fld := ⟨21, 19⟩
def PWR_TEST_PENDING : Fld := ⟨18, 18⟩
def PWR_TEST_LASTDOM : Fld := ⟨11, 8⟩
def PWR_TEST_FAILS : Fld := ⟨7, 0⟩
def THM_CTL : Nat := 0x50100
def THM_CTL_TJ_LIM : Fld := ⟨31, 25⟩
def THM_CTL_QUENCH_T : Fld := ⟨24, 18⟩
def THM_CTL_FLOW_RESUME : Fld := ⟨17, 11⟩
def THM_CTL_FLOW_SAFE : Fld := ⟨10, 4⟩
def THM_QCTL : Nat := 0x50104
def THM_QCTL_QUENCH : Fld := ⟨31, 31⟩
def THM_QCTL_ACTIVE : Fld := ⟨30, 30⟩
def THM_QCTL_CAUSE : Fld := ⟨29, 27⟩
def THM_QCTL_LEAVE : Fld := ⟨26, 19⟩
def THM_QCTL_COUNT : Fld := ⟨7, 0⟩
def THM_TJ : Nat := 0x50108
def THM_TJ_TJ : Fld := ⟨31, 16⟩
def THM_TJ_SENSOR : Fld := ⟨7, 0⟩
def THM_COOL : Nat := 0x5010c
def THM_COOL_INLET : Fld := ⟨31, 16⟩
def THM_COOL_FLOW : Fld := ⟨15, 1⟩
def THM_COOL_SENSE_OK : Fld := ⟨0, 0⟩
def THM_SMB : Nat := 0x50110
def THM_SMB_FLOWREQ : Fld := ⟨31, 22⟩
def THM_SMB_TRAY_ADDR : Fld := ⟨6, 0⟩
def THM_CYC (b : Nat) : Nat := 0x50120 + 0x4 * b
def THM_CYC_HALF : Fld := ⟨31, 0⟩
def THM_LIFE : Nat := 0x50138
def THM_LIFE_USED : Fld := ⟨31, 16⟩
def THM_LIFE_HOT_H : Fld := ⟨15, 0⟩
def THM_TRIM (h : Nat) : Nat := 0x50140 + 0x4 * h
def THM_TRIM_CODES : Fld := ⟨31, 0⟩
def THM_TRIMW : Nat := 0x50148
def THM_TRIMW_DIR1 : Fld := ⟨7, 4⟩
def THM_TRIMW_DIR0 : Fld := ⟨3, 0⟩
def THM_SLK_SEL : Nat := 0x50150
def THM_SLK_SEL_REPLICA : Fld := ⟨9, 0⟩
def THM_SLK : Nat := 0x50154
def THM_SLK_SLACK : Fld := ⟨20, 16⟩
def THM_SLK_AGE : Fld := ⟨15, 0⟩
def CFG_BOOT : Nat := 0x10000
def CFG_BOOT_STEP : Fld := ⟨31, 28⟩
def CFG_BOOT_FAIL_A : Fld := ⟨27, 24⟩
def CFG_BOOT_FAIL_B : Fld := ⟨23, 20⟩
def CFG_BOOT_TRIES : Fld := ⟨19, 18⟩
def CFG_BOOT_ACTIVE : Fld := ⟨17, 17⟩
def CFG_BOOT_PREF : Fld := ⟨16, 16⟩
def CFG_BOOT_BOOT_FAIL : Fld := ⟨15, 15⟩
def CFG_BOOT_TRUST_FAIL : Fld := ⟨14, 14⟩
def CFG_COMMIT : Nat := 0x10004
def CFG_COMMIT_COMMITTED : Fld := ⟨31, 31⟩
def CFG_COMMIT_COMMIT : Fld := ⟨0, 0⟩
def CFG_SVN : Nat := 0x10008
def CFG_SVN_RUN_SVN : Fld := ⟨31, 0⟩
def CFG_MINSVN : Nat := 0x1000c
def CFG_MINSVN_MIN_SVN : Fld := ⟨5, 0⟩
def CFG_START : Nat := 0x10010
def CFG_START_START_MS : Fld := ⟨31, 0⟩
def CFG_JOIN : Nat := 0x10014
def CFG_JOIN_JOIN_SPREAD : Fld := ⟨31, 20⟩
def CFG_JOIN_ADMIT_WAIT : Fld := ⟨19, 8⟩
def CFG_JOIN_JSTATE : Fld := ⟨3, 2⟩
def CFG_STAGE_LO : Nat := 0x10018
def CFG_STAGE_LO_ADDR_LO : Fld := ⟨31, 7⟩
def CFG_STAGE_HI : Nat := 0x1001c
def CFG_STAGE_HI_ADDR_HI : Fld := ⟨15, 0⟩
def CFG_STAGE_CTL : Nat := 0x10020
def CFG_STAGE_CTL_WRITE : Fld := ⟨31, 31⟩
def CFG_STAGE_CTL_SETPREF : Fld := ⟨30, 30⟩
def CFG_STAGE_CTL_BUSY : Fld := ⟨7, 7⟩
def CFG_STAGE_CTL_RESULT : Fld := ⟨3, 0⟩
def TRU_STATE : Nat := 0x20000
def TRU_STATE_OWNED : Fld := ⟨31, 31⟩
def TRU_STATE_DEBUG : Fld := ⟨30, 29⟩
def TRU_STATE_NAUTH : Fld := ⟨28, 26⟩
def TRU_STATE_AUTHSETS : Fld := ⟨25, 21⟩
def TRU_STATE_PCOUNT : Fld := ⟨11, 0⟩
def TRU_SERIAL_LO : Nat := 0x20004
def TRU_SERIAL_LO_SERIAL_LO : Fld := ⟨31, 0⟩
def TRU_SERIAL_HI : Nat := 0x20008
def TRU_SERIAL_HI_SERIAL_HI : Fld := ⟨31, 0⟩
def TRU_CHG_LO : Nat := 0x2000c
def TRU_CHG_LO_ADDR_LO : Fld := ⟨31, 6⟩
def TRU_CHG_HI : Nat := 0x20010
def TRU_CHG_HI_ADDR_HI : Fld := ⟨15, 0⟩
def TRU_CHG_CTL : Nat := 0x20014
def TRU_CHG_CTL_APPLY : Fld := ⟨31, 31⟩
def TRU_CHG_CTL_BUSY : Fld := ⟨7, 7⟩
def TRU_CHG_CTL_RESULT : Fld := ⟨2, 0⟩
def TRU_MEAS_SEL : Nat := 0x20018
def TRU_MEAS_SEL_MEAS : Fld := ⟨5, 4⟩
def TRU_MEAS_SEL_WORD : Fld := ⟨3, 0⟩
def TRU_MEAS : Nat := 0x2001c
def TRU_MEAS_VALUE : Fld := ⟨31, 0⟩
def TRU_RESETS : Nat := 0x20020
def TRU_RESETS_FRAMES : Fld := ⟨15, 0⟩
def EVR_CTL : Nat := 0x40000
def EVR_CTL_FREEZE : Fld := ⟨31, 31⟩
def EVR_CTL_THAW : Fld := ⟨30, 30⟩
def EVR_CTL_FREEZE_LIM : Fld := ⟨29, 15⟩
def EVR_STATUS : Nat := 0x40004
def EVR_STATUS_TIMED_OUT : Fld := ⟨3, 3⟩
def EVR_STATUS_WRAPPED : Fld := ⟨2, 2⟩
def EVR_STATUS_HOLD_FULL : Fld := ⟨1, 1⟩
def EVR_STATUS_FROZEN : Fld := ⟨0, 0⟩
def EVR_HEAD : Nat := 0x40008
def EVR_HEAD_OFFSET : Fld := ⟨21, 3⟩
def EVR_TAIL : Nat := 0x4000c
def EVR_TAIL_OFFSET : Fld := ⟨21, 3⟩
def EVR_SEQ_LO : Nat := 0x40010
def EVR_SEQ_LO_SEQ_LO : Fld := ⟨31, 0⟩
def EVR_SEQ_HI : Nat := 0x40014
def EVR_SEQ_HI_SEQ_HI : Fld := ⟨31, 0⟩
def EVR_CURSOR : Nat := 0x40018
def EVR_CURSOR_OFFSET : Fld := ⟨21, 2⟩
def EVR_LOSS : Nat := 0x4001c
def EVR_LOSS_DROPPED : Fld := ⟨31, 8⟩
def EVR_LOSS_DAMAGED : Fld := ⟨7, 0⟩
def EVR_WINDOW (w : Nat) : Nat := 0x41000 + 0x4 * w
def EVR_WINDOW_DATA : Fld := ⟨31, 0⟩
def CORE_ANVSTAT (i : Nat) : Nat := 0x100068 + 0x1000 * i
def CORE_ANVSTAT_ALL : Fld := ⟨31, 0⟩
def MBX_DATA (w : Nat) : Nat := 0x31000 + 0x4 * w
def MBX_DATA_DATA : Fld := ⟨31, 0⟩

def devRegs : List RegDesc :=
  [ ⟨0x0, 1, 0x4, [⟨31, 16, .ro, 0x1140⟩, ⟨15, 8, .ro, 0x10⟩]⟩,
    ⟨0x4, 1, 0x4, [⟨4, 4, .ro, 0x0⟩, ⟨3, 3, .ro, 0x0⟩, ⟨2, 2, .ro, 0x0⟩, ⟨1, 1, .ro, 0x0⟩, ⟨0, 0, .ro, 0x0⟩]⟩,
    ⟨0x10, 4, 0x4, [⟨31, 0, .ro, 0x0⟩]⟩,
    ⟨0x20, 1, 0x4, [⟨31, 16, .ro, 0xaaaa⟩, ⟨15, 0, .ro, 0xaaaa⟩]⟩,
    ⟨0x28, 2, 0x4, [⟨31, 0, .ro, 0x0⟩]⟩ ]

def coreRegs : List RegDesc :=
  [ ⟨0x100040, 128, 0x1000, [⟨0, 0, .rw, 0x0⟩]⟩,
    ⟨0x100044, 128, 0x1000, [⟨1, 1, .rw1c, 0x0⟩, ⟨0, 0, .rw1c, 0x0⟩]⟩,
    ⟨0x100048, 128, 0x1000, [⟨31, 0, .rc, 0x0⟩]⟩,
    ⟨0x100050, 128, 0x1000, [⟨31, 0, .rc, 0x0⟩]⟩,
    ⟨0x100054, 128, 0x1000, [⟨31, 0, .rc, 0x0⟩]⟩,
    ⟨0x100058, 128, 0x1000, [⟨31, 0, .rc, 0x0⟩]⟩,
    ⟨0x100060, 128, 0x1000, [⟨1, 1, .rw, 0x0⟩, ⟨0, 0, .rw, 0x0⟩]⟩,
    ⟨0x100064, 128, 0x1000, [⟨20, 7, .rw, 0x3ce4⟩]⟩,
    ⟨0x10006c, 128, 0x1000, [⟨31, 0, .rc, 0x0⟩]⟩,
    ⟨0x100070, 128, 0x1000, [⟨31, 0, .rc, 0x0⟩]⟩,
    ⟨0x100074, 128, 0x1000, [⟨17, 17, .ro, 0x0⟩, ⟨16, 11, .ro, 0x0⟩, ⟨10, 6, .ro, 0x0⟩, ⟨5, 4, .ro, 0x0⟩, ⟨3, 0, .ro, 0x0⟩]⟩,
    ⟨0x100080, 128, 0x1000, [⟨31, 0, .rc, 0x0⟩]⟩,
    ⟨0x100084, 128, 0x1000, [⟨31, 0, .rc, 0x0⟩]⟩,
    ⟨0x100088, 128, 0x1000, [⟨31, 0, .rc, 0x0⟩]⟩,
    ⟨0x10008c, 128, 0x1000, [⟨3, 3, .rw1c, 0x0⟩, ⟨2, 2, .rw1c, 0x0⟩, ⟨1, 1, .rw1c, 0x0⟩, ⟨0, 0, .rw1c, 0x0⟩]⟩,
    ⟨0x100000, 128, 0x1000, [⟨31, 16, .rw, 0x64⟩, ⟨15, 0, .rw, 0x64⟩]⟩,
    ⟨0x100004, 128, 0x1000, [⟨7, 7, .ro, 0x0⟩, ⟨6, 6, .ro, 0x0⟩, ⟨5, 3, .ro, 0x0⟩, ⟨2, 0, .ro, 0x0⟩]⟩,
    ⟨0x100008, 128, 0x1000, [⟨20, 0, .ro, 0x0⟩]⟩,
    ⟨0x10000c, 128, 0x1000, [⟨20, 0, .ro, 0x0⟩]⟩,
    ⟨0x100010, 128, 0x1000, [⟨23, 23, .ro, 0x0⟩, ⟨22, 22, .ro, 0x0⟩, ⟨21, 19, .ro, 0x0⟩, ⟨7, 0, .ro, 0x0⟩]⟩,
    ⟨0x100014, 128, 0x1000, [⟨20, 0, .ro, 0x0⟩]⟩,
    ⟨0x100018, 128, 0x1000, [⟨31, 20, .rc, 0x0⟩, ⟨19, 8, .rc, 0x0⟩, ⟨7, 0, .rc, 0x0⟩]⟩,
    ⟨0x10001c, 128, 0x1000, [⟨31, 26, .ro, 0x0⟩, ⟨25, 20, .ro, 0x0⟩, ⟨19, 15, .ro, 0x0⟩, ⟨14, 10, .ro, 0x0⟩, ⟨9, 5, .ro, 0x0⟩]⟩,
    ⟨0x100020, 128, 0x1000, [⟨20, 7, .rw, 0x3adc⟩]⟩,
    ⟨0x100024, 128, 0x1000, [⟨31, 16, .ro, 0x0⟩, ⟨15, 15, .ro, 0x0⟩, ⟨6, 0, .ro, 0x0⟩]⟩,
    ⟨0x100068, 128, 0x1000, [⟨31, 0, .ro, 0x0⟩]⟩ ]

def memRegs : List RegDesc :=
  [ ⟨0x80000, 1, 0x4, [⟨31, 24, .rw, 0x8⟩, ⟨23, 16, .rw, 0x10⟩]⟩,
    ⟨0x80004, 1, 0x4, [⟨4, 4, .ro, 0x0⟩, ⟨3, 3, .ro, 0x0⟩, ⟨2, 2, .ro, 0x0⟩, ⟨1, 1, .ro, 0x0⟩, ⟨0, 0, .ro, 0x0⟩]⟩,
    ⟨0x80010, 1, 0x4, [⟨17, 0, .rw, 0x0⟩]⟩,
    ⟨0x80014, 1, 0x4, [⟨4, 4, .ro, 0x0⟩, ⟨3, 2, .rw, 0x0⟩, ⟨1, 1, .rw, 0x1⟩, ⟨0, 0, .rw, 0x0⟩]⟩,
    ⟨0x80020, 1, 0x4, [⟨10, 0, .rw, 0x0⟩]⟩,
    ⟨0x80024, 1, 0x4, [⟨31, 24, .ro, 0x0⟩, ⟨23, 16, .ro, 0x0⟩, ⟨15, 8, .ro, 0x0⟩, ⟨7, 0, .ro, 0x0⟩]⟩,
    ⟨0x80028, 1, 0x4, [⟨31, 31, .ro, 0x0⟩, ⟨30, 24, .ro, 0x0⟩, ⟨23, 17, .ro, 0x0⟩, ⟨16, 10, .ro, 0x0⟩, ⟨9, 3, .ro, 0x0⟩, ⟨2, 0, .ro, 0x0⟩]⟩,
    ⟨0x8002c, 1, 0x4, [⟨31, 31, .wo, 0x0⟩]⟩,
    ⟨0x80040, 8, 0x4, [⟨31, 0, .rc, 0x0⟩]⟩,
    ⟨0x80060, 1, 0x4, [⟨31, 16, .rc, 0x0⟩, ⟨15, 0, .rc, 0x0⟩]⟩,
    ⟨0x80064, 1, 0x4, [⟨31, 7, .ro, 0x0⟩]⟩,
    ⟨0x80068, 1, 0x4, [⟨15, 0, .ro, 0x0⟩]⟩ ]

def hchRegs : List RegDesc :=
  [ ⟨0x90000, 16, 0x100, [⟨31, 16, .rc, 0x0⟩, ⟨15, 0, .rc, 0x0⟩]⟩,
    ⟨0x90004, 16, 0x100, [⟨31, 24, .rc, 0x0⟩, ⟨23, 16, .rc, 0x0⟩, ⟨15, 0, .rc, 0x0⟩]⟩,
    ⟨0x90008, 16, 0x100, [⟨31, 16, .rc, 0x0⟩, ⟨15, 0, .rc, 0x0⟩]⟩,
    ⟨0x90010, 16, 0x100, [⟨31, 21, .rw, 0x0⟩]⟩,
    ⟨0x90014, 16, 0x100, [⟨15, 0, .rw, 0x0⟩]⟩,
    ⟨0x90018, 16, 0x100, [⟨15, 8, .ro, 0x0⟩, ⟨7, 0, .rw, 0x0⟩]⟩ ]

def prtRegs : List RegDesc :=
  [ ⟨0x60000, 8, 0x1000, [⟨15, 8, .rw, 0x0⟩, ⟨3, 3, .rw, 0x0⟩, ⟨2, 2, .rwl, 0x0⟩, ⟨1, 1, .rwl, 0x1⟩, ⟨0, 0, .rw, 0x0⟩]⟩,
    ⟨0x60004, 8, 0x1000, [⟨7, 4, .ro, 0x0⟩, ⟨3, 3, .ro, 0x0⟩, ⟨2, 2, .ro, 0x0⟩, ⟨1, 1, .ro, 0x0⟩, ⟨0, 0, .ro, 0x0⟩]⟩,
    ⟨0x60008, 8, 0x1000, [⟨31, 0, .rc, 0x0⟩]⟩,
    ⟨0x6000c, 8, 0x1000, [⟨31, 0, .rc, 0x0⟩]⟩,
    ⟨0x60010, 8, 0x1000, [⟨31, 16, .rc, 0x0⟩, ⟨15, 0, .rc, 0x0⟩]⟩,
    ⟨0x60014, 8, 0x1000, [⟨15, 0, .rc, 0x0⟩]⟩ ]

def fabRegs : List RegDesc :=
  [ ⟨0x70000, 1, 0x4, [⟨31, 16, .rwl, 0x88b5⟩, ⟨15, 13, .rwl, 0x5⟩, ⟨12, 10, .rwl, 0x3⟩]⟩,
    ⟨0x70004, 1, 0x4, [⟨23, 0, .rwl, 0x2b7e0⟩]⟩,
    ⟨0x70008, 1, 0x4, [⟨31, 16, .ro, 0xffff⟩, ⟨15, 8, .ro, 0x0⟩, ⟨0, 0, .ro, 0x0⟩]⟩,
    ⟨0x7000c, 1, 0x4, [⟨31, 24, .rw, 0x8⟩, ⟨23, 16, .rw, 0x2⟩, ⟨15, 12, .rw, 0x3⟩, ⟨11, 0, .rw, 0x3e8⟩]⟩,
    ⟨0x70010, 1, 0x4, [⟨31, 21, .rw, 0x40⟩, ⟨20, 12, .rw, 0x32⟩, ⟨11, 4, .rw, 0x2⟩]⟩,
    ⟨0x70014, 1, 0x4, [⟨31, 16, .rw, 0x7d0⟩, ⟨12, 0, .rc, 0x0⟩]⟩,
    ⟨0x70020, 1, 0x4, [⟨11, 0, .rw, 0x0⟩]⟩,
    ⟨0x70024, 1, 0x4, [⟨31, 31, .ro, 0x0⟩, ⟨30, 25, .ro, 0x0⟩, ⟨24, 22, .ro, 0x0⟩]⟩,
    ⟨0x70030, 1, 0x4, [⟨31, 0, .rc, 0x0⟩]⟩,
    ⟨0x70034, 1, 0x4, [⟨31, 16, .rc, 0x0⟩, ⟨15, 0, .rc, 0x0⟩]⟩,
    ⟨0x70038, 1, 0x4, [⟨31, 16, .rc, 0x0⟩, ⟨15, 0, .rc, 0x0⟩]⟩,
    ⟨0x7003c, 1, 0x4, [⟨31, 16, .rc, 0x0⟩, ⟨15, 0, .rc, 0x0⟩]⟩,
    ⟨0x70040, 1, 0x4, [⟨31, 6, .rwl, 0x0⟩]⟩,
    ⟨0x70044, 1, 0x4, [⟨15, 0, .rwl, 0x0⟩]⟩,
    ⟨0x70048, 1, 0x4, [⟨31, 31, .wo, 0x0⟩, ⟨30, 30, .wo, 0x0⟩, ⟨11, 10, .ro, 0x0⟩, ⟨9, 0, .rw, 0x0⟩]⟩,
    ⟨0x7004c, 1, 0x4, [⟨31, 24, .rw, 0x32⟩, ⟨23, 20, .rw, 0x1⟩, ⟨19, 12, .rw, 0x37⟩, ⟨11, 4, .rw, 0x8⟩]⟩,
    ⟨0x70050, 1, 0x4, [⟨31, 16, .rc, 0x0⟩, ⟨15, 0, .rc, 0x0⟩]⟩ ]

def colRegs : List RegDesc :=
  [ ⟨0x78000, 1, 0x4, [⟨31, 16, .rw, 0x64⟩]⟩,
    ⟨0x78004, 1, 0x4, [⟨31, 6, .rwl, 0x0⟩]⟩,
    ⟨0x78008, 1, 0x4, [⟨15, 0, .rwl, 0x0⟩]⟩,
    ⟨0x7800c, 1, 0x4, [⟨31, 31, .wo, 0x0⟩, ⟨30, 30, .wo, 0x0⟩, ⟨11, 10, .ro, 0x0⟩, ⟨9, 0, .rw, 0x0⟩]⟩,
    ⟨0x78010, 1, 0x4, [⟨31, 7, .rw, 0x0⟩]⟩,
    ⟨0x78014, 1, 0x4, [⟨15, 0, .rw, 0x0⟩]⟩,
    ⟨0x78018, 1, 0x4, [⟨26, 22, .ro, 0x0⟩, ⟨3, 3, .ro, 0x0⟩, ⟨2, 2, .ro, 0x0⟩, ⟨1, 1, .ro, 0x0⟩, ⟨0, 0, .rw1c, 0x0⟩]⟩,
    ⟨0x78020, 1, 0x4, [⟨31, 0, .rc, 0x0⟩]⟩,
    ⟨0x78024, 1, 0x4, [⟨31, 16, .rc, 0x0⟩, ⟨15, 0, .rc, 0x0⟩]⟩,
    ⟨0x78028, 1, 0x4, [⟨31, 24, .rc, 0x0⟩, ⟨23, 16, .rc, 0x0⟩, ⟨15, 0, .rc, 0x0⟩]⟩,
    ⟨0x7802c, 1, 0x4, [⟨31, 16, .rc, 0x0⟩, ⟨15, 0, .rc, 0x0⟩]⟩ ]

def mbxRegs : List RegDesc :=
  [ ⟨0x30000, 32, 0x20, [⟨1, 0, .rw, 0x0⟩]⟩,
    ⟨0x30004, 32, 0x20, [⟨23, 16, .ro, 0x0⟩, ⟨4, 4, .rw1c, 0x0⟩, ⟨3, 3, .rw1c, 0x0⟩, ⟨2, 2, .rw1c, 0x0⟩, ⟨1, 1, .ro, 0x0⟩, ⟨0, 0, .ro, 0x0⟩]⟩,
    ⟨0x30008, 32, 0x20, [⟨7, 0, .rw, 0x0⟩]⟩,
    ⟨0x3000c, 32, 0x20, [⟨1, 1, .wo, 0x0⟩, ⟨0, 0, .wo, 0x0⟩]⟩,
    ⟨0x30010, 32, 0x20, [⟨31, 0, .ro, 0x0⟩]⟩,
    ⟨0x30014, 32, 0x20, [⟨31, 0, .ro, 0x0⟩]⟩,
    ⟨0x30018, 32, 0x20, [⟨31, 6, .rw, 0x0⟩]⟩,
    ⟨0x3001c, 32, 0x20, [⟨15, 0, .rw, 0x0⟩]⟩,
    ⟨0x30400, 1, 0x4, [⟨15, 0, .rw, 0x64⟩]⟩,
    ⟨0x31000, 2048, 0x4, [⟨31, 0, .rw, 0x0⟩]⟩ ]

def wrkRegs : List RegDesc :=
  [ ⟨0x300000, 1, 0x4, [⟨31, 31, .rw, 0x0⟩, ⟨30, 27, .rw, 0x0⟩, ⟨26, 16, .rw, 0x64⟩]⟩,
    ⟨0x300004, 1, 0x4, [⟨31, 16, .ro, 0x0⟩, ⟨2, 2, .ro, 0x0⟩, ⟨1, 1, .ro, 0x0⟩, ⟨0, 0, .ro, 0x0⟩]⟩,
    ⟨0x300008, 1, 0x4, [⟨31, 6, .rwl, 0x0⟩]⟩,
    ⟨0x30000c, 1, 0x4, [⟨15, 0, .rwl, 0x0⟩]⟩,
    ⟨0x300010, 1, 0x4, [⟨31, 31, .wo, 0x0⟩, ⟨30, 30, .wo, 0x0⟩, ⟨5, 4, .ro, 0x0⟩, ⟨3, 0, .rw, 0x0⟩]⟩,
    ⟨0x300014, 1, 0x4, [⟨31, 9, .rwl, 0x0⟩]⟩,
    ⟨0x300018, 1, 0x4, [⟨15, 0, .rwl, 0x0⟩]⟩,
    ⟨0x30001c, 1, 0x4, [⟨3, 0, .rwl, 0x4⟩]⟩,
    ⟨0x300020, 1, 0x4, [⟨31, 16, .ro, 0x0⟩, ⟨15, 15, .ro, 0x0⟩]⟩,
    ⟨0x300024, 1, 0x4, [⟨31, 9, .ro, 0x0⟩]⟩,
    ⟨0x300028, 1, 0x4, [⟨15, 0, .ro, 0x0⟩]⟩,
    ⟨0x30002c, 1, 0x4, [⟨31, 16, .rc, 0x0⟩, ⟨15, 0, .rc, 0x0⟩]⟩ ]

def survRegs : List RegDesc :=
  [ ⟨0x200000, 1, 0x4, [⟨31, 31, .wo, 0x0⟩, ⟨30, 30, .wo, 0x0⟩, ⟨23, 16, .rw, 0x32⟩, ⟨15, 8, .rw, 0x1⟩, ⟨7, 0, .rw, 0x0⟩]⟩,
    ⟨0x200004, 1, 0x4, [⟨31, 24, .rw, 0x32⟩, ⟨23, 12, .rw, 0xc8⟩, ⟨11, 0, .rw, 0x3e8⟩]⟩,
    ⟨0x200008, 1, 0x4, [⟨31, 28, .rw, 0x3⟩, ⟨27, 20, .rw, 0x18⟩]⟩,
    ⟨0x20000c, 1, 0x4, [⟨19, 16, .ro, 0x0⟩, ⟨15, 12, .ro, 0x0⟩, ⟨7, 7, .ro, 0x0⟩, ⟨6, 6, .ro, 0x0⟩, ⟨5, 5, .ro, 0x0⟩, ⟨4, 4, .ro, 0x0⟩, ⟨3, 3, .ro, 0x0⟩, ⟨2, 2, .ro, 0x0⟩, ⟨1, 1, .ro, 0x0⟩, ⟨0, 0, .ro, 0x0⟩]⟩,
    ⟨0x200010, 1, 0x4, [⟨31, 8, .rw, 0x0⟩]⟩,
    ⟨0x200014, 1, 0x4, [⟨15, 0, .rw, 0x0⟩]⟩,
    ⟨0x200018, 1, 0x4, [⟨31, 16, .ro, 0x0⟩, ⟨15, 15, .ro, 0x0⟩, ⟨1, 0, .ro, 0x0⟩]⟩,
    ⟨0x20001c, 1, 0x4, [⟨31, 0, .ro, 0x0⟩]⟩,
    ⟨0x200020, 1, 0x4, [⟨31, 16, .rc, 0x0⟩, ⟨15, 0, .rc, 0x0⟩]⟩,
    ⟨0x200024, 1, 0x4, [⟨31, 16, .rc, 0x0⟩, ⟨15, 0, .rc, 0x0⟩]⟩,
    ⟨0x200028, 1, 0x4, [⟨31, 16, .rc, 0x0⟩, ⟨15, 8, .rc, 0x0⟩, ⟨7, 0, .ro, 0x0⟩]⟩,
    ⟨0x20002c, 1, 0x4, [⟨31, 31, .wo, 0x0⟩, ⟨16, 16, .ro, 0x0⟩, ⟨15, 0, .ro, 0x0⟩]⟩,
    ⟨0x200030, 1, 0x4, [⟨31, 7, .rw, 0x0⟩]⟩,
    ⟨0x200034, 1, 0x4, [⟨15, 0, .rw, 0x0⟩]⟩,
    ⟨0x200038, 1, 0x4, [⟨31, 16, .rw, 0x40⟩]⟩ ]

def pwrRegs : List RegDesc :=
  [ ⟨0x50000, 1, 0x4, [⟨31, 21, .rw, 0x546⟩, ⟨20, 14, .rw, 0x3c⟩, ⟨13, 9, .rw, 0x14⟩, ⟨1, 1, .rw, 0x1⟩, ⟨0, 0, .rw, 0x1⟩]⟩,
    ⟨0x50004, 1, 0x4, [⟨31, 26, .rw, 0x1e⟩, ⟨25, 20, .rw, 0xa⟩, ⟨19, 14, .ro, 0x1e⟩]⟩,
    ⟨0x50008, 1, 0x4, [⟨19, 8, .rw, 0xa28⟩]⟩,
    ⟨0x5000c, 1, 0x4, [⟨31, 16, .ro, 0x0⟩, ⟨15, 0, .ro, 0x0⟩]⟩,
    ⟨0x50010, 1, 0x4, [⟨31, 16, .ro, 0x0⟩, ⟨15, 0, .ro, 0x0⟩]⟩,
    ⟨0x50014, 1, 0x4, [⟨23, 17, .ro, 0x0⟩, ⟨16, 12, .ro, 0x10⟩, ⟨11, 8, .ro, 0x0⟩, ⟨1, 1, .ro, 0x0⟩, ⟨0, 0, .ro, 0x0⟩]⟩,
    ⟨0x50018, 1, 0x4, [⟨31, 16, .rc, 0x0⟩, ⟨15, 0, .rc, 0x0⟩]⟩,
    ⟨0x50020, 1, 0x4, [⟨31, 24, .rw, 0x3c⟩, ⟨23, 23, .wo, 0x0⟩, ⟨22, 22, .wo, 0x0⟩, ⟨21, 19, .rw, 0x0⟩, ⟨18, 18, .ro, 0x0⟩, ⟨11, 8, .ro, 0x0⟩, ⟨7, 0, .rc, 0x0⟩]⟩,
    ⟨0x50100, 1, 0x4, [⟨31, 25, .rw, 0x5a⟩, ⟨24, 18, .rw, 0x69⟩, ⟨17, 11, .rw, 0x1e⟩, ⟨10, 4, .rw, 0x32⟩]⟩,
    ⟨0x50104, 1, 0x4, [⟨31, 31, .wo, 0x0⟩, ⟨30, 30, .ro, 0x0⟩, ⟨29, 27, .ro, 0x0⟩, ⟨26, 19, .rw, 0xa⟩, ⟨7, 0, .rc, 0x0⟩]⟩,
    ⟨0x50108, 1, 0x4, [⟨31, 16, .ro, 0x0⟩, ⟨7, 0, .ro, 0x0⟩]⟩,
    ⟨0x5010c, 1, 0x4, [⟨31, 16, .ro, 0x0⟩, ⟨15, 1, .ro, 0x0⟩, ⟨0, 0, .ro, 0x0⟩]⟩,
    ⟨0x50110, 1, 0x4, [⟨31, 22, .ro, 0x0⟩, ⟨6, 0, .rwl, 0x2c⟩]⟩,
    ⟨0x50120, 6, 0x4, [⟨31, 0, .ro, 0x0⟩]⟩,
    ⟨0x50138, 1, 0x4, [⟨31, 16, .ro, 0x0⟩, ⟨15, 0, .ro, 0x0⟩]⟩,
    ⟨0x50140, 2, 0x4, [⟨31, 0, .ro, 0x0⟩]⟩,
    ⟨0x50148, 1, 0x4, [⟨7, 4, .ro, 0x0⟩, ⟨3, 0, .ro, 0x0⟩]⟩,
    ⟨0x50150, 1, 0x4, [⟨9, 0, .rw, 0x0⟩]⟩,
    ⟨0x50154, 1, 0x4, [⟨20, 16, .ro, 0x0⟩, ⟨15, 0, .ro, 0x0⟩]⟩ ]

def cfgRegs : List RegDesc :=
  [ ⟨0x10000, 1, 0x4, [⟨31, 28, .ro, 0x2⟩, ⟨27, 24, .ro, 0x0⟩, ⟨23, 20, .ro, 0x0⟩, ⟨19, 18, .ro, 0x0⟩, ⟨17, 17, .ro, 0x0⟩, ⟨16, 16, .ro, 0x0⟩, ⟨15, 15, .ro, 0x0⟩, ⟨14, 14, .ro, 0x0⟩]⟩,
    ⟨0x10004, 1, 0x4, [⟨31, 31, .ro, 0x0⟩, ⟨0, 0, .wo, 0x0⟩]⟩,
    ⟨0x10008, 1, 0x4, [⟨31, 0, .ro, 0x0⟩]⟩,
    ⟨0x1000c, 1, 0x4, [⟨5, 0, .ro, 0x0⟩]⟩,
    ⟨0x10010, 1, 0x4, [⟨31, 0, .ro, 0x0⟩]⟩,
    ⟨0x10014, 1, 0x4, [⟨31, 20, .rwl, 0x7d0⟩, ⟨19, 8, .rwl, 0xa⟩, ⟨3, 2, .ro, 0x0⟩]⟩,
    ⟨0x10018, 1, 0x4, [⟨31, 7, .rw, 0x0⟩]⟩,
    ⟨0x1001c, 1, 0x4, [⟨15, 0, .rw, 0x0⟩]⟩,
    ⟨0x10020, 1, 0x4, [⟨31, 31, .wo, 0x0⟩, ⟨30, 30, .wo, 0x0⟩, ⟨7, 7, .ro, 0x0⟩, ⟨3, 0, .ro, 0x0⟩]⟩ ]

def truRegs : List RegDesc :=
  [ ⟨0x20000, 1, 0x4, [⟨31, 31, .ro, 0x0⟩, ⟨30, 29, .ro, 0x0⟩, ⟨28, 26, .ro, 0x0⟩, ⟨25, 21, .ro, 0x0⟩, ⟨11, 0, .ro, 0x0⟩]⟩,
    ⟨0x20004, 1, 0x4, [⟨31, 0, .ro, 0x0⟩]⟩,
    ⟨0x20008, 1, 0x4, [⟨31, 0, .ro, 0x0⟩]⟩,
    ⟨0x2000c, 1, 0x4, [⟨31, 6, .rw, 0x0⟩]⟩,
    ⟨0x20010, 1, 0x4, [⟨15, 0, .rw, 0x0⟩]⟩,
    ⟨0x20014, 1, 0x4, [⟨31, 31, .wo, 0x0⟩, ⟨7, 7, .ro, 0x0⟩, ⟨2, 0, .ro, 0x0⟩]⟩,
    ⟨0x20018, 1, 0x4, [⟨5, 4, .rw, 0x0⟩, ⟨3, 0, .rw, 0x0⟩]⟩,
    ⟨0x2001c, 1, 0x4, [⟨31, 0, .ro, 0x0⟩]⟩,
    ⟨0x20020, 1, 0x4, [⟨15, 0, .ro, 0x0⟩]⟩ ]

def evrRegs : List RegDesc :=
  [ ⟨0x40000, 1, 0x4, [⟨31, 31, .wo, 0x0⟩, ⟨30, 30, .wo, 0x0⟩, ⟨29, 15, .rw, 0x3e8⟩]⟩,
    ⟨0x40004, 1, 0x4, [⟨3, 3, .rw1c, 0x0⟩, ⟨2, 2, .ro, 0x0⟩, ⟨1, 1, .ro, 0x0⟩, ⟨0, 0, .ro, 0x0⟩]⟩,
    ⟨0x40008, 1, 0x4, [⟨21, 3, .ro, 0x0⟩]⟩,
    ⟨0x4000c, 1, 0x4, [⟨21, 3, .ro, 0x0⟩]⟩,
    ⟨0x40010, 1, 0x4, [⟨31, 0, .ro, 0x0⟩]⟩,
    ⟨0x40014, 1, 0x4, [⟨31, 0, .ro, 0x0⟩]⟩,
    ⟨0x40018, 1, 0x4, [⟨21, 2, .rw, 0x0⟩]⟩,
    ⟨0x4001c, 1, 0x4, [⟨31, 8, .ro, 0x0⟩, ⟨7, 0, .ro, 0x0⟩]⟩,
    ⟨0x41000, 1024, 0x4, [⟨31, 0, .ro, 0x0⟩]⟩ ]

end Sys2Proof.Machine
end

