-- ==== Sys2Proof/Config.lean ====
section
/-! DEFINITION. What one part fixes and the spec leaves open: opaque constants without a body, so
that no proof can see a value (log entries 3, 4 and 5). -/

namespace Sys2Proof.Config

/-- The fused serial number (Table 15-10 gives its reset value only as "Fused"). -/
opaque serial : Word64

/-- The code set in manufacture for domain `u` (0 to 15) or weld direction `u - 16`. -/
opaque factoryRaw : Nat → Nat

/-- R47: the factory code lies between 3 and 5. -/
def factoryCode (u : Nat) : Nat := 3 + factoryRaw u % 3

/-- ML-DSA-87 verification under FIPS 204 with an empty context string (R418): key, message, signature. -/
opaque mldsaVerify : List Byte → List Byte → List Byte → Bool

/-- A signature by the identity key of the device (R423). -/
opaque mldsaSign : List Byte → List Byte

/-- The firmware key digests in the ROM (R418), less those that fuses have revoked. -/
opaque romKeyDigests : List (List Byte)

/-- Measurement M0 covers the ROM (R424), whose bytes the spec does not give. -/
opaque rom : List Byte

/-- The device and intermediate certificates in on-die one-time memory (R423), in DER. -/
opaque deviceCert : List Byte
opaque intermediateCert : List Byte

/-- The partner of a lost device, and the replica of a node, as the job controller placed them: the spec gives a
member no record of either (log entry 57). -/
opaque lostPartner : Nat → BitVec 16
opaque replicaOf : Nat → Nat

/-- Full-activity current of one anvil and of one vector engine, in mA, at a VCORE in mV and a junction in
1/16 °C: R385 states them at N0 only. -/
opaque anvilCurrent : Nat → Nat → Nat
opaque vectorCurrent : Nat → Nat → Nat

/-- Bytes of the ingress buffer that a port has for one priority (R270, R282): the spec gives no size (log entry 107). -/
opaque ingressSize : Nat

/-- Where the device writes the layer input record of a layer of a job (R198, Table 7-28): the spec gives no address for
it (log entry 44). -/
opaque layerInputAt : List Word64 → Nat → Nat

/-- What a device cannot know by itself and other members know: the widths of a job that it rejoins (R107, log entry 189), the
node that feeds the arrival words of a phase by kind and chunk (R234, log entry 190), the number of the next instance of a group that
it stands in for (R326, log entry 191), the lost device whose place a joined one takes (R381, log entry 192), and RATE of a
cursor stream of no job (R241, log entry 59). -/
opaque memberWidths : Nat → List Nat × List Nat × List (Nat × Nat × Nat)
opaque producerOf : Nat → Nat → Nat
opaque memberInst : Nat → Nat
opaque placeOf : Nat → Nat
opaque streamRate : Nat → Nat

/-- Every value that the spec leaves undefined or does not state, one fresh draw per index. -/
opaque freeWord : Nat → Word64

end Sys2Proof.Config
end

