-- ==== Sys2Proof/Machine/State.lean ====
section
/-! DEFINITION. The state of the block as plain data: every register, buffer, queue, counter, mode
and pin the spec gives it, and the queue of waiting commands. Management registers have one home, the
sparse list `regs` (an unlisted address reads its reset value), but for the few that are views of
other state, which `Machine/Registers.lean` computes. -/

namespace Sys2Proof.Machine

/-- Why a command faults. No command of this block faults: every stop of the device (R204, R364, R380) is a
state of the device, so the one constructor is raised by nothing. -/
inductive Fault where
  /-- Raised by nothing in the model; safe. -/
  | none_
  deriving DecidableEq, Repr

/-- Why a command is refused. -/
inductive Refusal where
  /-- Raised by an arm of `exec` whose command has no meaning yet; safe. -/
  | notModelled (mnemonic : String)
  deriving DecidableEq, Repr

/-! ## Local time (R53, R54) -/

structure TimeUnit where
  ns    : Nat        -- counter of base die 0, in ns
  phase : Nat        -- reference cycles since power-good, modulo 5
  half1 : Nat        -- the copy on base die 1
  tracking : Bool    -- the weld is trained and the copy is corrected
  deriving DecidableEq, Repr

/-! ## Cores -/

structure VReg where
  lanes : List Word32      -- 256 lanes
  x     : Int              -- register exponent, -2048 to 2047
  w     : Bool             -- width bit
  raw   : Bool             -- raw mark (R154)
  deriving DecidableEq, Repr

/-- Table 5-3, with the empty set of R118. -/
inductive SetState where
  | empty | prepared | running | finished
  deriving DecidableEq, Repr

/-- One accumulator set of an anvil: entry 64 r + j is cell (r, j). -/
structure AccSet where
  st     : SetState
  tag    : Nat
  zeroed : Bool                  -- prepared by zeroing (R134)
  acc    : List (BitVec 48)
  res    : List (BitVec 3)
  sat    : List Bool
  ea     : List (Option Int)     -- latched activation exponents (R83)
  eb     : List (Option Int)     -- latched weight exponents
  deriving DecidableEq, Repr

/-- Activity of an anvil (R129, R130). -/
inductive Ramp where
  | idle | waitUp | up (k : Nat) | full | waitDown | down (k : Nat) | waitRev (k : Nat)
  /-- A ramp-up given up at a stage, which waits for the grant of its ramp-down. -/
  | stop (k : Nat)
  deriving DecidableEq, Repr

inductive DrainDest where
  | fused (desc : Nat)
  | raw (addr stride : Nat)
  deriving DecidableEq, Repr

inductive Fill where
  | none
  | zero (tag : Nat)
  | rawRows (tag addr stride : Nat)
  | slot (tag addr : Nat)
  deriving DecidableEq, Repr

structure DrainRun where
  tag   : Nat
  dest  : DrainDest
  fill  : Fill
  left  : Nat            -- rows still to leave; the next row is left - 1
  qid   : Nat
  anySat : Bool
  desc  : List Word64    -- the fused output descriptor, read once at the start (R162)
  handed : List Nat      -- rows handed to the fused stage and not yet written
  set   : AccSet         -- the set that leaves
  deriving DecidableEq, Repr

structure LoadRun where
  tag  : Nat
  qid  : Nat
  deriving DecidableEq, Repr

structure Anvil where
  active : AccSet
  shadow : AccSet
  ramp   : Ramp
  drain  : Option DrainRun
  load   : Option LoadRun
  poison : Bool
  lastPass : Option Nat    -- tag of the last pass issued for the anvil (R121)
  deriving DecidableEq, Repr

/-- A pass running on a lane of the anvil queue, with its descriptor (Table 7-9). -/
structure PassRun where
  qid   : Nat
  tag   : Nat
  anv   : BitVec 4
  fmt   : Nat
  abase : Nat
  astride : Nat
  wstride : Nat
  wbase : Nat
  wslab : Nat
  len   : Nat
  start : Nat
  count : Nat
  chain : Bool
  pc    : Nat
  base  : Nat            -- elements completed before a restore re-issued the pass (POS, R135)
  deriving DecidableEq, Repr

/-- An entry of an issue queue: the instruction with the g operands it read at issue (R176). -/
structure QEntry where
  qid   : Nat
  op    : Nat
  f     : Fields
  pc    : Nat
  ctx   : CtxId
  off   : Bool                 -- predicated off (R182)
  ga    : Word64
  gb    : Word64
  gc    : Word64
  gd    : Word64
  started : Bool
  finished : Bool              -- its effect is complete; INSTRUCTION_COMPLETE may retire it
  high  : List (Nat × Nat)     -- per destination, the highest sequence number used (R292)
  awaits : Nat                 -- replies, local parts and anvils still outstanding
  ecc    : Bool                -- an uncorrectable error stands in what it will read
  buf    : List (Nat × List Byte)   -- data received so far, by its place in the transfer
  begun  : BitVec 4            -- anvils that have started an anvil operation
  ended  : BitVec 4            -- anvils that have completed it
  pos    : Nat                 -- elements completed before a restore re-issued the pass (R135)
  hold   : Bool := false        -- FLOOR_MODE when the entry was issued (R78)
  failed : Option (Nat × Bool) := none   -- a fault met under a quench, raised after it (R211): code, residue
  deriving DecidableEq, Repr

structure LoopEntry where
  count : Nat
  start : Nat
  stop  : Nat
  deriving DecidableEq, Repr

/-- A WAIT held on a counter, in the order of arrival (R186). -/
structure Held where
  place   : WaitPlace
  counter : Nat
  n       : Nat
  since   : Nat
  quenched : Nat               -- ns of quench that do not count (R187)
  sigen   : Bool
  sigc    : Nat
  pc      : Nat
  ctx     : CtxId := 0
  deriving DecidableEq, Repr

/-- Status of a context, as CTX0 and CTX1 of CORE_SEQSTAT report it. -/
inductive CtxStat where
  | noTask | running | held | atYield | saving | restoring | aborting
  deriving DecidableEq, Repr

/-- What a held context waits for at the sequencer. -/
inductive SeqHold where
  | none
  | wait
  | fence (mask : BitVec 4) (sigen : Bool) (sigc : Nat)
  | done (sigen : Bool) (sigc : Nat)
  deriving DecidableEq, Repr

structure Ctx where
  stat    : CtxStat
  hold    : SeqHold
  pc      : Nat
  loops   : List LoopEntry
  partDone : Bool
  yieldNow : Bool              -- stands at a YIELD.NOW
  live    : Word64             -- live-register mask of the YIELD
  mons    : List (Nat × Nat × Nat)   -- monitor records named since the last VMARK: address, layer, role
  placed  : List (Nat × Nat × Nat) := []   -- records that drains in progress count into and have not yet named (R199)
  deriving DecidableEq, Repr

/-- A task as a dispatcher queues it: its copy of the record (Table 8-6). -/
structure Task where
  record : List Word64
  entry  : Option Nat            -- index in the schedule list
  mbox   : Option Nat
  slot   : Option Nat            -- hearth save slot (R136), as 256 * hearth + slot
  fails  : Nat                   -- faulted attempts so far (R141)
  lastCore : Option Nat
  parts  : BitVec 2              -- parts still to run (R148)
  moved  : Bool := false         -- re-executed on another core than the one it failed on (R141)
  kept   : List (List QEntry) := []   -- of a saved task, per lane, its entries as they were issued (R135, R176)
  mons   : List (List (Nat × Nat × Nat)) := []   -- of a saved task, per context, Ctx.mons
  deriving DecidableEq, Repr

/-- How a task left its core. -/
inductive TaskEnd where
  | preempted (voluntary : Bool)
  | program
  | hardware (code : Nat) (residue : Bool)
  deriving DecidableEq, Repr

structure Core where
  g      : List Word64
  p      : BitVec 8
  sc     : List Word32
  v      : List VReg
  anvils : List Anvil
  ctx0   : Ctx
  ctx1   : Ctx
  anv0   : List QEntry
  anv1   : List QEntry
  vec    : List QEntry
  tongs  : List QEntry
  fab    : List QEntry
  pass0  : Option PassRun
  pass1  : Option PassRun
  heldWaits : List Held
  task   : Option Task
  ended  : Option TaskEnd
  endedParts : BitVec 2          -- parts the ended task has left to run again
  preq   : Option Nat            -- local time of the dispatcher request that is pending
  nextQid : Nat
  resTimes : List Nat            -- local times of residue faults (R378)
  reFails : Nat                  -- successive re-executions on this core ended by residue faults (R378)
  retireDue : Option Nat         -- retirement cause, waiting for the core to hold no task
  veGrant : Bool                 -- a start of the vector engine is granted and not yet used (R385)
  upd    : List (Nat × List Word64)  -- step record offset, the update descriptor its VUMU read (log 22)
  deriving DecidableEq, Repr

/-! ## Hearths, memory and crucibles -/

/-- A line resident in a slice, most recently used first in the hearth's list (R252). -/
structure SliceLine where
  line  : Nat
  dirty : Bool
  deriving DecidableEq, Repr

structure Replay where
  src   : Nat
  epoch : Nat
  tag   : Nat
  recorded : Bool
  status : Nat
  result : Word64
  time  : Nat
  deriving DecidableEq, Repr

/-- A schedule entry whose tasks a dispatcher has released (R220). -/
structure EntryRun where
  idx    : Nat
  left   : Nat
  failed : Bool
  deriving DecidableEq, Repr

structure Hearth where
  ready   : List Task
  replay  : List Replay
  slice   : List SliceLine
  wbuf    : List Nat
  walk    : Nat
  out     : List EntryRun
  heldSince : Option Nat
  stalled : Bool
  slots   : List Nat
  hotRefresh : Bool
  lastRefresh : Nat
  recentred : List (Nat × Nat)   -- channel, local time of the last re-centring
  scrubbed : Nat
  deriving DecidableEq, Repr

structure Region where
  pair   : Nat
  closed : Bool
  alloc  : Bool
  policy : Bool
  busy   : Bool
  deriving DecidableEq, Repr

structure MemCtl where
  regions : List Region
  poison  : List Nat                       -- poisoned line addresses, ascending
  margins : List (Nat × MarginResult)
  rerun   : Option Nat                     -- channel queued
  rerunning : Option Nat
  ceHour  : List (Nat × Nat)               -- stack, local time of each correctable error of the last hour
  ceReported : List Nat
  wiped   : Bool                           -- the zeroing of Table 9-5 step 7 has been made
  deriving DecidableEq, Repr

/-- What the last access of a local agent answered. -/
inductive Answer where
  | none
  | value (v : Word32)
  | data (ws : List Word64)
  | done
  | unassigned
  | poison
  | refused
  | protect
  /-- The access is held while its channel is margined again (R264); it is served when it is made after the rerun. -/
  | held
  deriving DecidableEq, Repr

/-! ## Strikers, weld, trim -/

/-- Commands a striker takes, in the precedence of R27 after a quench. -/
inductive DomCmd where
  | off | test | on | window
  deriving DecidableEq, Repr

structure Domain where
  target   : Option DomCmd      -- transition in progress
  pending  : List DomCmd
  held     : List DomCmd        -- held under R26, each reported once
  clearing : Bool
  window   : Option Bool        -- a window is open: true when forced or within a self-test
  lastWindow : Nat
  high     : Nat                -- successive sweeps whose smallest slack was 15 or more
  code     : Nat
  exhausted : Bool
  testing  : Bool
  deriving DecidableEq, Repr

structure WeldDir where
  fails : Nat
  retries : Nat
  lastWindow : Nat
  high  : Nat
  code  : Nat
  exhausted : Bool
  deriving DecidableEq, Repr

structure Weld where
  up    : Bool
  failed : Bool
  dir0  : WeldDir
  dir1  : WeldDir
  deriving DecidableEq, Repr

/-! ## Event recorder -/

structure Rec where
  src  : Nat
  typ  : Nat
  time : Nat
  body : List Word64
  deriving DecidableEq, Repr

structure Recorder where
  ring    : List (Nat × Word64)     -- word index, ascending; unlisted words are zero
  bad     : List Nat                -- word indices holding an uncorrectable error
  head    : Nat                     -- byte offset
  tail    : Nat
  seq     : Nat
  anchored : Option Nat             -- local time of the last anchor
  dropped : Nat
  dropDue : Bool
  thawDue : Bool
  damaged : Nat
  frozen  : Option Nat              -- local time of the freeze
  hold    : List Rec
  waiting : List Rec
  moveHead : Bool
  deriving DecidableEq, Repr

/-! ## Fabric -/

/-- Who a request or RoCEv2 operation belongs to, and so what completes with it. -/
inductive Owner where
  | insn (core : CoreId) (q : Queue) (qid : Nat)
  | coll (group : Nat)
  | mirror (ring jseq : Nat)
  | doneMark (ring jseq : Nat)
  | commit
  | copy
  /-- Data read from a member replaces the lines of the row at a local address (R377). -/
  | fetch (row : Nat)
  /-- A snapshot's stream to storage (R324). -/
  | stream
  | line
  | beat
  deriving DecidableEq, Repr

structure TxReq where
  seq   : Nat
  frame : YlpFrame
  owner : Owner
  sentAt : Nat
  firstAt : Nat
  dst   : Nat                  -- place of a READ's data in the transfer, or a local address
  skip  : Nat                  -- bytes of the first line before the data
  len   : Nat
  replied : Bool
  deriving DecidableEq, Repr

/-- What a source holds of a destination (R281, R287, R289, R295). -/
structure TxDst where
  node   : Nat
  next   : Nat
  acked  : Nat                 -- every request below this number is acknowledged
  unacked : List TxReq
  replies : List TxReq := []   -- acknowledged, with the reply still to come
  syn    : Bool := true        -- the next request is the first of the epoch
  waiting : List (YlpFrame × Owner × Nat × Nat × Nat)
  path   : Nat
  failed : BitVec 6
  fails  : Nat
  busy   : Option (Nat × Nat)  -- sequence number and local time of a BUSY
  want   : List (Nat × Nat) := []    -- paths that ring lanes ask for, the earliest first: group, path (R310)
  unreach : Bool
  retire : List Nat
  retireAt : Option Nat
  lastSent : Nat
  advAt  : Nat                 -- local time of the last advance, or of the first request outstanding
  deriving DecidableEq, Repr

/-- A request taken and not completed: where it arrived, and what it holds of the ingress buffer (R270, R288). -/
structure OpenReq where
  seq    : Nat
  op     : Nat
  status : Nat
  port   : PortId
  pcp    : Nat
  bytes  : Nat
  deriving DecidableEq, Repr

structure RxSrc where
  node   : Nat
  epoch  : Nat
  expect : Nat
  acked  : Nat                 -- every request below this number has completed
  open_  : List OpenReq
  done_  : List Nat            -- completed out of order
  lapsed : List Nat            -- refused requests whose refusal entry is gone (R283)
  port   : PortId
  count  : Nat                 -- completions since the last ACK reply
  due    : Option Nat          -- local time of the advance not yet acknowledged
  deriving DecidableEq, Repr

structure Refused where
  node   : Nat
  epoch  : Nat
  seq    : Nat
  status : Nat
  time   : Nat
  deriving DecidableEq, Repr

structure Peer where
  node  : Nat
  epoch : Nat
  port  : PortId
  slot  : Nat
  deriving DecidableEq, Repr

structure Ylp where
  members : List (Nat × Nat)      -- node, epoch, ascending by node
  peers   : List Peer
  rx      : List RxSrc
  tx      : List TxDst
  refused : List Refused
  nextTag : Nat
  replayPeak : Nat
  ingressCap : Nat                -- bytes of a port's ingress buffer for one priority (R270, log entry 107)
  probed  : List (Nat × Nat)      -- port, the destination its last PROBE went to (R291)
  probeAt : Nat                   -- local time of the last PROBEs
  deriving DecidableEq, Repr

inductive RoceKind where
  | write | read | send
  deriving DecidableEq, Repr

structure RoceOp where
  psn   : Nat
  kind  : RoceKind
  owner : Owner
  bytes : Nat
  local_ : Nat                   -- local address a read fills
  remote : Nat
  data  : List Byte              -- payload of a write or send, for retransmission
  pkts  : Nat                    -- PSNs the operation takes
  got   : Nat := 0               -- response packets taken
  deriving DecidableEq, Repr

structure Conn where
  index : Nat
  entry : List Word64
  error : Bool
  port  : PortId
  spsn  : Nat
  epsn  : Nat
  rate  : Rat                    -- share of the port rate
  lastCut : Option Nat
  lastCnp : Option Nat
  lastUp : Nat
  ops   : List RoceOp
  waitq : List RoceOp            -- behind 16 outstanding reads (Table 10-8)
  retries : Nat
  sentAt : Nat
  wrPtr : Nat                    -- address the next Middle or Last packet writes
  wrLeft : Nat                   -- bytes that the message in progress still brings
  deriving DecidableEq, Repr

/-- What a RoCEv2 packet that leaves carries behind its headers (Table 10-8): the part of its message, the remote address, the key
and the length of the message where it starts one, and its data. -/
inductive RoceBody where
  | write (part : RocePart) (va rkey len : Nat) (data : List Byte)
  | readRequest (va rkey len : Nat)
  | readResponse (part : RocePart) (data : List Byte)
  | send (data : List Byte)
  | ack
  | nak (code : Nat)
  | cnp
  deriving DecidableEq, Repr

/-- The headers of a RoCEv2 packet (Table 10-9): UDP goes to port 4791, and ECN is ECT(0). -/
structure RoceHead where
  eth   : Eth
  lip   : Nat
  rip   : Nat
  dscp  : Nat
  udpSrc : Nat
  dqpn  : Nat
  deriving DecidableEq, Repr

/-- What leaves the block, in order: the model's own log of its outputs. -/
inductive Out where
  | ylp (port : PortId) (f : YlpFrame)
  | roce (port : PortId) (head : RoceHead) (psn : Nat) (body : RoceBody)
  | pfc (port : PortId) (prio : Nat) (pause : Bool)
  | peer (port : PortId) (node epoch : Nat)
  | avs (code : Nat)
  | flowReq (tray tenths : Nat)
  deriving DecidableEq, Repr

structure PortSt where
  paused   : BitVec 8            -- priorities that the partner has paused
  testing  : Bool
  pausing  : BitVec 8 := 0       -- priorities that this port has paused at its partner (R270)
  held     : List (Nat × Out) := []    -- what waits behind a pause, with its priority
  deriving DecidableEq, Repr

/-! ## Collectives -/

inductive CollOp where
  | barrier | reduceScatter | allGather | allReduce | broadcast | stepEnd | snapshot
  deriving DecidableEq, Repr

/-- A control line with its data, for a slot of a relation (Tables 11-2, 11-3). -/
structure OutLine where
  rel   : Nat                    -- the sender's relation
  rank  : Nat                    -- the receiver
  slot  : Nat                    -- first slot of the relation at the receiver
  slots : Nat
  line  : List Word64
  data  : List Byte
  deriving DecidableEq, Repr

structure Inst where
  group  : Nat
  num    : Nat
  op     : CollOp
  desc   : List Word64
  core   : CoreId
  qid    : Nat
  own    : Bool                  -- the member's own arrival
  kids   : List Nat              -- ranks of children that arrived (or are done)
  phase  : Nat                   -- snapshot pass
  got    : List (Nat × Nat)      -- lane (or 0 for a tree), chunks taken
  work   : List Word64           -- step-end payload combined so far
  ident  : Word64                -- snapshot identifier
  since  : Nat                   -- local time of the last progress
  stalled : Bool
  deriving DecidableEq, Repr

structure Group where
  index : Nat
  gen   : Nat
  rank  : Nat
  nodes : List Nat
  conns : List Nat
  stage : Nat
  nextInst : Nat
  outq  : List OutLine           -- lines that wait for credit (R311)
  sent  : List (Nat × Nat)       -- 65536 * relation + receiver, slots written
  returned : List (Nat × Nat)    -- the same key, slots returned
  taken : List (Nat × Nat)       -- 65536 * the sender's relation + sender, slots returned to it
  last  : Option Inst            -- the instance that released last
  aborted : List (Nat × Nat)     -- instance aborted before it started here, fault code
  failed : List Nat := []        -- instances that failed or were abandoned here
  lastGen : Nat := 0             -- generation under which the last instance released
  later : Option Inst := none    -- instance set aside while the one before it runs again (R326)
  deriving DecidableEq, Repr

structure ResetRun where
  group : Nat
  kids  : List Nat
  own   : Bool                   -- the member has carried it out; false while only asked for
  deriving DecidableEq, Repr

/-- A snapshot area on its way to storage (R324). -/
structure Stream where
  conn   : Nat
  area   : Nat
  remote : Nat
  len    : Nat
  step   : Nat
  ident  : Word64
  sent   : Nat                   -- bytes handed to the connection
  deriving DecidableEq, Repr

structure Coll where
  groups : List Group
  insts  : List Inst
  stream : Option Stream
  reset  : Option ResetRun
  capturing : Bool
  lost   : List (Nat × Bool) := []   -- members unreachable by their connection, and whether reported (R307)
  deriving DecidableEq, Repr

/-! ## Work intake -/

inductive JState where
  | accepted | running | done
  deriving DecidableEq, Repr

structure JEntry where
  jseq   : Nat
  ring   : Nat
  st     : JState
  status : Nat
  seq    : Nat
  accTime : Nat
  doneStep : Option Nat
  detail : Nat
  item   : List Word64
  mirrored : Bool
  marked : Bool                  -- the Done mark has been sent
  markAcked : Bool               -- the mirror holds the Done mark
  fin : Bool                     -- its point of completion is reached (Table 12-5)
  posted : Bool                  -- its completion record is posted
  cslot  : Option Nat            -- CSEQ of its completion record
  deriving DecidableEq, Repr

structure Ring where
  index  : Nat
  entry  : List Word64
  stopped : Bool
  pseq   : Nat
  ccons  : Nat
  acc    : Nat
  doneTo : Nat
  cseq   : Nat
  next   : Nat                   -- next sequence number to journal
  waitAt : Option (Nat × Nat)    -- slot not yet valid, and when PSEQ first covered it
  unreported : Nat
  firstAt : Nat
  covered : List (Nat × Nat) := []   -- PSEQ as written, and when (R335)
  deriving DecidableEq, Repr

structure Intake where
  rings   : List Ring
  journal : List JEntry
  jseq    : Nat
  heldRecs : List (Nat × List Word64)
  taken   : List (Nat × Nat × Nat × Nat)   -- failed node, ring, ACC_SEQ, DONE_SEQ
  bells   : List (Nat × Bool × Word64) := []   -- doorbell writes that a quench holds: ring, word 1, value (R341)
  deriving DecidableEq, Repr

structure Mailbox where
  owner  : Nat
  since  : Nat
  fullAt : Option Nat
  quenched : Nat
  deriving DecidableEq, Repr

/-! ## The job and its training step -/

inductive JobStat where
  | running | heldWiden | heldRatio | halted | ending
  deriving DecidableEq, Repr

/-- The pith set that a layer's descriptor holds, and the step it was formed for (R98). -/
structure PithSet where
  layer : Nat
  step  : Nat
  chans : List Nat
  deriving DecidableEq, Repr

structure Job where
  desc  : List Word64
  stat  : JobStat
  step  : Nat
  item  : Option (Nat × Nat)               -- ring and journal number of the JOB_START
  endItem : Option (Nat × Nat)
  fwdWide : List Nat
  agWide  : List Nat
  clean  : List (Nat × Nat × Nat)          -- layer, role, consecutive clean steps
  vector : List Byte                       -- decided widening vector
  dramRes : Nat
  csRes  : Nat
  ratio  : Bool
  widenDue : Bool                          -- the decision widens at least one role
  relItem : Option (Nat × Nat)
  stepEnd : Nat                            -- step-end action in progress, 0 for none
  skipUpdate : Bool
  started : Bool
  idleRep : Bool
  payload : List Word64
  peaks  : List (Nat × Nat)                -- channel peak tables: 4096 * layer + channel, level
  piths  : List PithSet
  vecAt  : Nat                             -- local address of the widening vector (R111)
  inputs : List (List Word64)              -- layer input records of the step end (Table 7-28)
  deriving DecidableEq, Repr

/-! ## Survival -/

structure Ward where
  node  : Nat
  slot  : Nat
  base  : Nat
  len   : Nat
  refetch : List Nat             -- poisoned lines of the ward's rows, for its next commit (Table 13-9)
  fps   : List (Nat × Nat)       -- the same of each of its rows (R373)
  deriving DecidableEq, Repr

structure Change where
  mgen    : Nat
  removed : List Nat
  added   : List Nat
  kids    : List Nat
  sentAt  : Nat
  resumed : Bool
  deriving DecidableEq, Repr

structure Surv where
  plan    : List Word64          -- the record as armed
  partner : Option (Nat × Nat)   -- node, candidate index
  copying : Bool
  wards   : List Ward
  adopts  : List Nat
  heard   : List (Nat × Nat)
  change  : Option Change
  reports : List (Nat × Bool)    -- node, removed
  commitStep : Option Nat        -- commit sent and not yet acknowledged by the partner
  durable : Bool
  lastCommit : Nat
  leave   : Bool
  notices : List (List Word64)
  lines   : List (Nat × Nat)     -- relation or 9 + node, last SEQ taken
  removedAt : List (Nat × Nat)   -- removed ward, local time of its last frame
  haltSeen : Bool
  rereads : List (Nat × Nat)
  failedRows : List Nat          -- rows whose refetch or re-read failed, for the smith
  later   : List Nat             -- own rows whose refetch waits for the commit in progress (R377)
  commitDue : Option Nat         -- step that is updated and not yet committed
  baseStep : Nat                 -- step that the next job starts from (R376)
  sent    : List (Nat × Nat)     -- relation or 9 + node, last SEQ sent
  sendq   : List (Nat × List Byte)   -- lines behind an unacknowledged one
  refusals : List Nat            -- candidates that refused the ward
  fps     : List (Nat × Nat)     -- fingerprint of each master row as recorded at its last commit (R373)
  missing : List Nat             -- places of this replica that are not filled (R367)
  idleUntil : Option Nat         -- step at which the replica leaves the idle state
  dueCursors : List Nat := []    -- cursor records of the step that is updated and not yet committed (R360)
  turned  : List Nat := []       -- nodes whose ward this device has refused (R356)
  recopy  : Bool := false        -- the partner has turned away a write of the seed copy
  badStream : Option Nat := none -- the stream that the last refused restore or promotion names (R241)
  places  : List (Nat × Nat × Nat) := []   -- group, rank and lost device, where another stands in (R366)
  fills   : List (Nat × Nat × Nat) := []   -- group, rank and joined device, from the next step boundary (R381)
  deriving DecidableEq, Repr

/-! ## Power, heat, start and trust -/

inductive GrantReq where
  | up (core : CoreId) (anvils : BitVec 4)
  | down (core : CoreId) (anvil : AnvilId)
  | reverse (core : CoreId) (anvil : AnvilId)
  | vector (core : CoreId)
  deriving DecidableEq, Repr

structure Forecast where
  level : Nat
  opens : Nat
  closes : Nat
  deriving DecidableEq, Repr

structure Power where
  samples : List (Nat × Nat)     -- local time, W
  grants  : List GrantReq
  charges : List (Nat × Bool × Nat)   -- local time, upward, milliamperes
  dither  : Option Nat
  idleSince : Option Nat
  parked  : List Nat
  offDoms : List Nat
  parkedFull : List (Nat × Nat)  -- domain, local time at which all eight were parked
  pTherm  : Rat
  avsFails : Nat
  avsDead : Bool
  excursion : Option Nat
  ladderV : Nat
  floored : Bool                 -- the request goes to VFLOOR (R389)
  vAt     : Nat                  -- local time of the last change of the request
  hotPace : Bool
  paceAt  : Nat                  -- local time of the last change of k (R386)
  forecasts : List Forecast
  weight  : Rat                  -- correction of the VCORE part of the estimate (R384)
  rawAmps : Nat                  -- VCORE current of the last estimate, before the correction
  lastFlow : Nat                 -- local time of the last flow request
  rot     : List (Nat × Nat)     -- per half: next domain of the rotation, local time of the last start (R406)
  selfRefresh : List (Nat × Nat) -- hearth-channel awake during a quench, last access
  overSince : Option Nat := none -- from when P_fast may exceed CAP, with the error of R384
  ladderAt : Option Nat := none  -- local time of the last ladder step
  allowAt : Option Nat := none   -- local time of the last step of P_therm
  deriving DecidableEq, Repr

structure Therm where
  up    : Bool
  ext   : Int
  cand  : Int
  valid : Bool
  hot   : Nat                    -- 10 ms samples above 85 °C not yet an hour
  lowSince : Option Nat
  okSince : Option Nat
  smbFails : Nat
  lost  : Bool                   -- sensing is lost (R395)
  flow  : Nat                    -- the flow last read, in 1/10 %
  quench : Option Nat            -- local time of the declaration
  inSelfRefresh : Bool
  left  : Bool
  wearDirty : Bool
  wearAt : Option Nat
  lifeDone : Bool
  trip  : Bool
  cycleAt : Option Nat := none   -- local time of the last sample of R404
  deriving DecidableEq, Repr

structure Fuses where
  minSvn : Nat
  pcount : Nat
  authSets : List (List Byte)
  deriving DecidableEq, Repr

structure Boot where
  flash : List (Nat × Byte)      -- unlisted bytes are erased, 0xFF
  fuses : Fuses
  latch : Option (List Byte)
  anchor : List Byte
  rst   : Bool
  pg    : BitVec 5
  running : Bool                 -- the start sequence runs or has completed
  stuck : Bool
  step  : Nat
  meas  : List (List Byte)
  startCount : Nat
  prot  : List Byte
  auths : List (List Byte)
  debug : Nat
  slotBusy : Option (Nat × Bool) -- address of the image being written, SETPREF
  raise : Option Nat
  trimDirty : Bool
  trimAt : Option Nat
  retireCauses : List (Nat × Nat)
  retireDirty : Bool
  spreadAt : Option Nat
  admitAt : Option Nat
  portRetryAt : Option Nat
  brown : Option Nat
  answerOk : Bool                -- a report has been sent under the present epoch (R426)
  watchAt : Nat := 0             -- local time from which the watchdog can count (R432)
  deriving DecidableEq, Repr

structure Pins where
  svcReq   : Bool                -- svc_req_n asserted
  thermTrip : Bool               -- therm_trip_n asserted
  deriving DecidableEq, Repr

structure State where
  time   : TimeUnit
  regs   : List (Nat × Word32)
  mem    : List Host.Cell
  cores  : List Core
  hearths : List Hearth
  memctl : MemCtl
  answer : Answer
  domains : List Domain
  weld   : Weld
  slacks : List (Nat × Nat × Nat)    -- replica, slack, local time of the sweep
  recorder : Recorder
  ylp    : Ylp
  conns  : List Conn
  ports  : List PortSt
  egress : List Out
  coll   : Coll
  intake : Intake
  mbx    : List Mailbox
  job    : Option Job
  surv   : Surv
  power  : Power
  therm  : Therm
  boot   : Boot
  pins   : Pins
  queuedTests : List (Option PortId)   -- queued port tests and margin reruns (none) of R408
  free   : Nat                         -- draws of Config.freeWord taken so far
  pending : List Instr
  deriving DecidableEq, Repr

/-! ## Reset -/

def VReg.clear : VReg := ⟨List.replicate 256 0, 0, false, false⟩

def AccSet.cleared : AccSet :=
  ⟨.empty, 0, false, List.replicate 2048 0, List.replicate 2048 0, List.replicate 2048 false,
   List.replicate 32 none, List.replicate 64 none⟩

def Anvil.reset : Anvil := ⟨.cleared, .cleared, .idle, none, none, false, none⟩

def Ctx.reset : Ctx := ⟨.noTask, .none, 0, [], false, false, 0, [], []⟩

def Core.reset : Core :=
  { g := List.replicate 32 0, p := 0, sc := List.replicate 16 0, v := List.replicate 64 .clear
    anvils := List.replicate 4 .reset, ctx0 := .reset, ctx1 := .reset
    anv0 := [], anv1 := [], vec := [], tongs := [], fab := [], pass0 := none, pass1 := none
    heldWaits := [], task := none, ended := none, endedParts := 0, preq := none, nextQid := 0
    resTimes := [], reFails := 0, retireDue := none, veGrant := false, upd := [] }

def Hearth.reset : Hearth :=
  { ready := [], replay := [], slice := [], wbuf := [], walk := 0, out := [], heldSince := none
    stalled := false, slots := [], hotRefresh := false, lastRefresh := 0, recentred := []
    scrubbed := 0 }

def Domain.reset (u : Nat) : Domain :=
  { target := none, pending := [], held := [], clearing := false, window := none, lastWindow := 0
    high := 0, code := Config.factoryCode u, exhausted := false, testing := false }

def WeldDir.reset (u : Nat) : WeldDir :=
  { fails := 0, retries := 0, lastWindow := 0, high := 0, code := Config.factoryCode u
    exhausted := false }

def Recorder.reset : Recorder :=
  { ring := [], bad := [], head := 0, tail := 0, seq := 0, anchored := none, dropped := 0
    dropDue := false, thawDue := false, damaged := 0, frozen := none, hold := [], waiting := []
    moveHead := false }

def Boot.reset : Boot :=
  { flash := [], fuses := ⟨0, 0, []⟩, latch := none, anchor := [], rst := false, pg := 0b11111
    running := true, stuck := false, step := 2, meas := [], startCount := 0, prot := [], auths := []
    debug := 0, slotBusy := none, raise := none, trimDirty := false, trimAt := none
    retireCauses := [], retireDirty := false, spreadAt := none, admitAt := none, portRetryAt := none
    brown := none, answerOk := false }

/-- The block right after a reset: every management register at its reset value, every domain Off
(Table 1-11), the recorder empty (R437), local time 0 (R53), and the start sequence at step 2
(CFG_BOOT, Table 15-9). -/
def State.reset : State :=
  { time := ⟨0, 0, 0, false⟩
    regs := [], mem := []
    cores := List.replicate 128 .reset
    hearths := List.replicate 16 .reset
    memctl := ⟨[], [], [], none, none, [], [], false⟩
    answer := .none
    domains := (List.range 16).map .reset
    weld := ⟨false, false, .reset 16, .reset 17⟩
    slacks := []
    recorder := .reset
    ylp := { members := [], peers := [], rx := [], tx := [], refused := [], nextTag := 0, replayPeak := 0
             ingressCap := Config.ingressSize, probed := [], probeAt := 0 }
    conns := [], ports := List.replicate 8 { paused := 0, testing := false }
    egress := []
    coll := { groups := [], insts := [], stream := none, reset := none, capturing := false }
    intake := ⟨[], [], 0, [], [], []⟩
    mbx := List.replicate 32 ⟨0, 0, none, 0⟩
    job := none
    surv :=
      { plan := [], partner := none, copying := false, wards := [], adopts := [], heard := [], change := none
        reports := [], commitStep := none, durable := false, lastCommit := 0, leave := false, notices := []
        lines := [], removedAt := [], haltSeen := false, rereads := [], failedRows := [], later := []
        commitDue := none, baseStep := 0, sent := [], sendq := [], refusals := []
        fps := [], missing := [], idleUntil := none }
    power :=
      { samples := [], grants := [], charges := [], dither := none, idleSince := some 0, parked := [], offDoms := []
        parkedFull := [], pTherm := 1350, avsFails := 0, avsDead := false, excursion := none, ladderV := 30
        floored := false, vAt := 0, hotPace := false, paceAt := 0, forecasts := [], weight := 1, rawAmps := 0
        lastFlow := 0, rot := [(0, 0), (0, 0)], selfRefresh := [] }
    therm :=
      { up := true, ext := 0, cand := 0, valid := false, hot := 0, lowSince := none, okSince := none, smbFails := 0
        lost := false, flow := 0, quench := none, inSelfRefresh := false, left := false, wearDirty := false
        wearAt := none, lifeDone := false, trip := false }
    boot := .reset
    pins := ⟨false, false⟩
    queuedTests := []
    free := 0
    pending := [] }

end Sys2Proof.Machine
end

