-- ==== Sys2Proof/Machine/Ops.lean ====
section
/-! DEFINITION. The operations every family shares: management registers, local time, records,
memory with its refusals and its poison, the slices, core status, the seed stream and the free
values. -/

namespace Sys2Proof.Machine

/-! ## Management registers (R13, R14) -/

/-- The descriptors of the block of Table 1-7 that an address lies in. -/
def blockOf (a : Nat) : List RegDesc :=
  if a < 0x10000 then devRegs
  else if a < 0x20000 then cfgRegs
  else if a < 0x30000 then truRegs
  else if a < 0x40000 then mbxRegs
  else if a < 0x50000 then evrRegs
  else if a < 0x60000 then pwrRegs
  else if a < 0x70000 then prtRegs
  else if a < 0x78000 then fabRegs
  else if a < 0x80000 then colRegs
  else if a < 0x90000 then memRegs
  else if a < 0x100000 then hchRegs
  else if a < 0x200000 then coreRegs
  else if a < 0x300000 then survRegs
  else wrkRegs

def RegDesc.covers (d : RegDesc) (a : Nat) : Bool :=
  d.base ≤ a && (a - d.base) % d.stride = 0 && (a - d.base) / d.stride < d.count

/-- The register at an address; an unassigned address has none. -/
def regAt (a : Nat) : Option RegDesc := (blockOf a).find? (·.covers a)

def fieldReset (v : Nat) (f : RegField) : Nat := putBits f.hi f.lo v f.reset

/-- The value a register has after reset, from its table. CORE_IDENT carries its core index
(Table 7-17) and the serial number is fused (Table 15-10). -/
def regReset (a : Nat) : Word32 :=
  if a = TRU_SERIAL_LO then BitVec.ofNat 32 (Config.serial.toNat % 2 ^ 32)
  else if a = TRU_SERIAL_HI then BitVec.ofNat 32 (Config.serial.toNat / 2 ^ 32)
  else if 0x100024 ≤ a ∧ a < 0x180000 ∧ (a - 0x100024) % 0x1000 = 0 then
    BitVec.ofNat 32 ((a - 0x100024) / 0x1000)
  else match regAt a with
    | some d => BitVec.ofNat 32 (d.fields.foldl fieldReset 0)
    | none => 0

/-- The value held at a register address. -/
def getR (s : State) (a : Nat) : Word32 := (assocGet a s.regs).getD (regReset a)

/-- A register takes a value; the list stays sparse. -/
def setR (s : State) (a : Nat) (v : Word32) : State :=
  { s with regs := sparseSet (regReset a) a v s.regs }

def getF (s : State) (a : Nat) (f : Fld) : Nat := f.get (getR s a)

def putF (s : State) (a : Nat) (f : Fld) (x : Nat) : State := setR s a (f.put (getR s a) x)

/-- A field holds 1 in a nonzero bit. -/
def flag (s : State) (a : Nat) (f : Fld) : Bool := getF s a f != 0

/-- A counter field counts and saturates at the greatest value it holds. -/
def satF (s : State) (a : Nat) (f : Fld) (n : Nat) : State :=
  putF s a f (satAdd f.cap (getF s a f) n)

/-- A 64-bit value held by a low and a high register. -/
def getPair (s : State) (lo hi : Nat) : Nat := (getR s lo).toNat + 2 ^ 32 * (getR s hi).toNat

def setPair (s : State) (lo hi v : Nat) : State :=
  setR (setR s lo (BitVec.ofNat 32 v)) hi (BitVec.ofNat 32 (v / 2 ^ 32))

/-! ## Local time, free values -/

def State.now (s : State) : Nat := s.time.ns

/-- The next free value: the draw is an uninterpreted constant of the configuration. -/
def drawFree (s : State) : Word64 × State :=
  (Config.freeWord s.free, { s with free := s.free + 1 })

/-! ## Records (R437, R441, R460) -/

/-- Sources of Table 16-2 that lie in half 1. -/
def srcHalf1 (src : Nat) : Bool :=
  (64 ≤ src && src < 128) || (0x88 ≤ src && src < 0x90) || src = 0x91 || src = 0x94
    || (0x9C ≤ src && src < 0xA0)

def srcCore (i : Nat) : Nat := i
def srcHearth (h : Nat) : Nat := 0x80 + h
def srcStriker (h : Nat) : Nat := 0x90 + h
def srcSmith : Nat := 0x92
def srcEngine (h : Nat) : Nat := 0x93 + h
def srcIntake : Nat := 0x95
def srcSurvival : Nat := 0x96
def srcBellows : Nat := 0x97
def srcPort (p : Nat) : Nat := 0x98 + p
def srcRecorder : Nat := 0xA0
def srcWeld : Nat := 0xA1

/-- Local time at a source: half 1 reads its copy (R54). -/
def srcTime (s : State) (src : Nat) : Nat := if srcHalf1 src then s.time.half1 else s.time.ns

/-- A source makes a record. Records of half 1 are lost while the weld is failed (R437); a source
with four records waiting drops the new one (R441). -/
def makeRecord (s : State) (src typ : Nat) (body : List Word64) : State :=
  if srcHalf1 src && s.weld.failed then s
  else if 4 ≤ (s.recorder.waiting.filter (·.src = src)).length then
    { s with recorder := { s.recorder with
        dropped := satAdd 0xFFFFFFFF s.recorder.dropped 1, dropDue := true } }
  else { s with recorder := { s.recorder with
        waiting := s.recorder.waiting ++ [⟨src, typ, srcTime s src, body⟩] } }

/-! ## Pins and device status -/

/-- SVC_REQ is set and svc_req_n asserted (R379, R380). -/
def requestService (s : State) : State :=
  { putF s DEV_STATUS DEV_STATUS_SVC_REQ 1 with pins := { s.pins with svcReq := true } }

/-- What leaves the block is appended to the log of outputs. -/
def emit (s : State) (o : Out) : State := { s with egress := s.egress ++ [o] }

/-! ## Cores, hearths and domains -/

def coreOf (h c : Nat) : Nat := 8 * h + c
def hearthOf (i : Nat) : Nat := i / 8
/-- The control domain of core `i`, as 8 * half + d (R23). -/
def domOf (i : Nat) : Nat := 8 * (i / 64) + i % 8
/-- Core `8h + d` for hearth `h`, of domain `u`: the eight cores of the domain. -/
def domCores (u : Nat) : List Nat := (List.range 8).map fun k => 64 * (u / 8) + 8 * k + u % 8

/-- Codes of DEV_DOM_STATE (Table 1-11). -/
def domOn : Nat := 0
def domLeaving : Nat := 1
def domOff : Nat := 2
def domTest : Nat := 3

def domState (s : State) (u : Nat) : Nat := (getR s DEV_DOM_STATE).toNat / 2 ^ (2 * u) % 4

def setDomState (s : State) (u st : Nat) : State :=
  setR s DEV_DOM_STATE (BitVec.ofNat 32 (putBits (2 * u + 1) (2 * u) (getR s DEV_DOM_STATE).toNat st))

def coreRetired (s : State) (i : Nat) : Bool :=
  (getR s (DEV_CORE_RETIRED (i / 32))).toNat.testBit (i % 32)

/-- R29. -/
def inService (s : State) (i : Nat) : Bool := domState s (domOf i) = domOn && !coreRetired s i

def hearthCoreIds (h : Nat) : List Nat := (List.range 8).map (coreOf h)

def hearthInService (s : State) (h : Nat) : Bool := (hearthCoreIds h).any (inService s)

def coreAt (s : State) (i : Nat) : Core := s.cores.getD i .reset
def setCore (s : State) (i : Nat) (c : Core) : State := { s with cores := s.cores.set i c }
def modCore (s : State) (i : Nat) (f : Core → Core) : State := setCore s i (f (coreAt s i))

def hearthAt (s : State) (h : Nat) : Hearth := s.hearths.getD h .reset
def setHearth (s : State) (h : Nat) (x : Hearth) : State := { s with hearths := s.hearths.set h x }
def modHearth (s : State) (h : Nat) (f : Hearth → Hearth) : State := setHearth s h (f (hearthAt s h))

def domainAt (s : State) (u : Nat) : Domain := s.domains.getD u (.reset u)
def setDomain (s : State) (u : Nat) (d : Domain) : State := { s with domains := s.domains.set u d }

/-- A quench stands (R397). -/
def quenched (s : State) : Bool := s.therm.quench.isSome

def fenced (s : State) : Bool := flag s SURV_STATUS SURV_STATUS_FENCED
def halted (s : State) : Bool := flag s SURV_STATUS SURV_STATUS_HALTED
def joined (s : State) : Bool := flag s FAB_NODE FAB_NODE_JOINED

/-! ## Memory (R244 to R250) -/

abbrev Memory := List Host.Cell

/-- An unlisted byte reads zero: step 7 of Table 9-5 writes every line as zero and R253 clears every
core store. -/
def memDefault : Byte := 0

/-- The canonical form: addresses strictly rising and no listed byte equal to an unlisted one. -/
def Memory.wf (m : Memory) : Bool := risingKeys m && m.all fun c => c.2 != memDefault

def memGet (m : Memory) (a : Nat) : Byte := (assocGet a m).getD memDefault
def memSet (m : Memory) (a : Nat) (v : Byte) : Memory := sparseSet memDefault a v m

def memSetAll : Memory → Nat → List Byte → Memory
  | m, _, [] => m
  | m, a, b :: bs => memSetAll (memSet m a b) (a + 1) bs

def memGetAll (m : Memory) : Nat → Nat → List Byte
  | _, 0 => []
  | a, n + 1 => memGet m a :: memGetAll m (a + 1) n

def readByte (s : State) (a : Nat) : Byte := memGet s.mem a
def readBytes (s : State) (a n : Nat) : List Byte := memGetAll s.mem a n
def readWord (s : State) (a : Nat) : Word64 := w64 (ofLE (readBytes s a 8))
def readWords (s : State) (a n : Nat) : List Word64 := (List.range n).map fun i => readWord s (a + 8 * i)
def writeBytes (s : State) (a : Nat) (bs : List Byte) : State := { s with mem := memSetAll s.mem a bs }
def writeWord (s : State) (a : Nat) (v : Word64) : State := writeBytes s a (leBytes 8 v.toNat)
def writeWords (s : State) (a : Nat) (ws : List Word64) : State := writeBytes s a (bytesOfWords ws)
/-- A range of bytes becomes zero. -/
def zeroBytes (s : State) (a n : Nat) : State :=
  { s with mem := s.mem.filter fun c => !(a ≤ c.1 && c.1 < a + n) }

def dramTop : Nat := 2 ^ 40
def windowBase : Nat := 0x100000000000
def windowSize : Nat := 0x200000
def csBase (i : Nat) : Nat := windowBase + windowSize * i
def isDram (a : Nat) : Bool := a < dramTop
def isWindow (a : Nat) : Bool := windowBase ≤ a && a < windowBase + 128 * windowSize
def windowCore (a : Nat) : Nat := (a - windowBase) / windowSize

/-- R246. -/
def pairOf (a : Nat) : Nat := a / 2 ^ 21 % 2 ^ 18

def Region.dflt (p : Nat) : Region := ⟨p, false, true, false, false⟩
def regionAt (s : State) (p : Nat) : Region :=
  (s.memctl.regions.find? (·.pair = p)).getD (.dflt p)
def setRegion (s : State) (r : Region) : State :=
  { s with memctl := { s.memctl with
      regions := (if r = .dflt r.pair then [] else [r]) ++ s.memctl.regions.filter (·.pair != r.pair) } }

/-- R247: the hearth within the half. -/
def homeJ (a : Nat) : Nat := (a / 2 ^ 7 % 8) ^^^ (a / 2 ^ 21 % 8)

/-- R247, for a policy. -/
def homeUnder (policy : Bool) (a : Nat) : Nat :=
  8 * (if policy then (a / 2 ^ 39 % 2) ^^^ (a / 2 ^ 10 % 2) else a / 2 ^ 39 % 2) + homeJ a

def hlOffset (a : Nat) : Nat := a / 2 ^ 10 % 2 ^ 29 * 2 ^ 7 + a % 2 ^ 7
def hlLine (a : Nat) : Nat := hlOffset a / 2 ^ 7
def hChannel (a : Nat) : Nat := (hlLine a % 128) ^^^ (hlLine a / 128 % 128)

/-- The home hearth of a DRAM address; a window is served at its core's hearth (R253). -/
def homeOf (s : State) (a : Nat) : Nat :=
  if isWindow a then hearthOf (windowCore a) else homeUnder (regionAt s (pairOf a)).policy a

/-- The stack that holds a DRAM address (Table 1-2). -/
def stackOf (s : State) (a : Nat) : Nat := homeOf s a / 2

/-- A closed pair that a DRAM range touches (R248). -/
def rangeClosed (s : State) (a n : Nat) : Bool :=
  s.memctl.regions.any fun r => r.closed &&
    (List.range ((a + n - 1) / 2 ^ 21 + 1 - a / 2 ^ 21)).any fun k => (a / 2 ^ 21 + k) % 2 ^ 18 = r.pair

/-- R253: a window refuses while its core is Off, in Test or retired; the clear of a domain that was
switched On comes before any access. -/
def windowOpen (s : State) (i : Nat) : Bool :=
  !(domainAt s (domOf i)).clearing && (domState s (domOf i) = domOn || domState s (domOf i) = domLeaving) && !coreRetired s i

/-- Every byte of a range is DRAM of an open pair, or every byte lies in open windows (R244). -/
def assigned (s : State) (a n : Nat) : Bool :=
  if isDram a then a + n ≤ dramTop && !rangeClosed s a n
  else isWindow a && isWindow (a + n - 1) &&
    (List.range (windowCore (a + n - 1) + 1 - windowCore a)).all fun k =>
      windowOpen s (windowCore a + k)

/-- How an access ended. -/
inductive Acc where
  | ok | unassigned | poison
  deriving DecidableEq, Repr

def Acc.worse : Acc → Acc → Acc
  | .unassigned, _ => .unassigned
  | _, .unassigned => .unassigned
  | .poison, _ => .poison
  | .ok, b => b

def lineBase (a : Nat) : Nat := a / 128 * 128
def poisoned (s : State) (a : Nat) : Bool := s.memctl.poison.contains (lineBase a)
def clearPoison (s : State) (a : Nat) : State :=
  { s with memctl := { s.memctl with poison := s.memctl.poison.filter (· != lineBase a) } }

/-! ### Slices (R252) -/

def sliceSet (a : Nat) : Nat := hlLine a % 16384

/-- The way that a full set gives up: the last, and so least recently used, of its lines. -/
def lruVictim (set : Nat) (ls : List SliceLine) : Option SliceLine :=
  if 16 ≤ (ls.filter fun l => sliceSet l.line = set).length then
    (ls.filter fun l => sliceSet l.line = set).getLast?
  else none

def installLine (h : Hearth) (line : Nat) (dirty : Bool) : Hearth :=
  match lruVictim (sliceSet line) h.slice with
  | some v => { h with
      slice := ⟨line, dirty⟩ :: h.slice.filter (·.line != v.line)
      wbuf := if v.dirty then (v.line :: h.wbuf).take 64 else h.wbuf }
  | none => { h with slice := ⟨line, dirty⟩ :: h.slice }

/-- An access to a line at its home: a present line becomes the most recently used; an absent one is
installed when `alloc` holds. -/
def touchHome (h : Hearth) (line : Nat) (write alloc : Bool) : Hearth :=
  match h.slice.find? (·.line = line) with
  | some l => { h with slice := ⟨line, l.dirty || write⟩ :: h.slice.filter (·.line != line) }
  | none => if alloc then installLine h line write else h

def touchLine (s : State) (line : Nat) (write force : Bool) : State :=
  if isDram line then
    modHearth s (homeOf s line) fun h =>
      touchHome h line write (force || (regionAt s (pairOf line)).alloc)
  else s

/-! ### Accesses -/

/-- The pieces of a transfer, one per line, in ascending address order (R250). -/
def lineChunks : Nat → Nat → List Byte → List (Nat × List Byte)
  | 0, _, _ => []
  | k + 1, a, bs =>
    if bs.isEmpty then []
    else (a, bs.take (128 - a % 128)) ::
      lineChunks k (a + (128 - a % 128)) (bs.drop (128 - a % 128))

/-- One piece of a write at its home: a partial write of a poisoned line is not applied, a whole-line
write clears the poison (R256). -/
def writeChunk (p : State × Acc) (c : Nat × List Byte) : State × Acc :=
  if poisoned p.1 c.1 && c.2.length < 128 then (p.1, p.2.worse .poison)
  else (touchLine (writeBytes (clearPoison p.1 c.1) c.1 c.2) (lineBase c.1) true false, p.2)

/-- A write by any agent: nothing is written when any byte of it is unassigned (R244). -/
def memWrite (s : State) (a : Nat) (bs : List Byte) : State × Acc :=
  if bs.isEmpty then (s, .ok)
  else if !assigned s a bs.length then (s, .unassigned)
  else if isDram a then (lineChunks (bs.length / 128 + 2) a bs).foldl writeChunk (s, .ok)
  else (writeBytes s a bs, .ok)

def linesOf (a n : Nat) : List Nat :=
  (List.range ((a + n - 1) / 128 + 1 - a / 128)).map fun k => (a / 128 + k) * 128

/-- An engine's read of a range: a present line becomes the most recently used, and an absent one is installed where its
pair allocates (R249, R252). -/
def touchRange (s : State) (a n : Nat) : State :=
  if n != 0 && isDram a then (linesOf a n).foldl (fun t l => touchLine t l false false) s else s

/-- Stack channel of a DRAM address, as MEM_MRG_SEL numbers it (R247, Table 1-2). -/
def channelOf (s : State) (a : Nat) : Nat := 128 * homeOf s a + hChannel a

/-- R264: a line of the range lies in the channel that is being margined again; the access is held. -/
def channelHeld (s : State) (a n : Nat) : Bool := match s.memctl.rerunning with
  | none => false
  | some c => isDram a && (linesOf a n).any fun l => channelOf s l = c

/-- No range lies in a closed pair, outside memory, or in a channel that is margined again. -/
def allOpen (s : State) (rs : List (Nat × Nat)) : Bool :=
  rs.all fun r => r.2 = 0 || (assigned s r.1 r.2 && !channelHeld s r.1 r.2)

/-- The reads pass through the slices of their homes. -/
def touchReads (s : State) (rs : List (Nat × Nat)) : State := rs.foldl (fun t r => touchRange t r.1 r.2) s

/-- A read by any agent, with the content serialised before it (R249); a poisoned line reports. -/
def memRead (s : State) (a n : Nat) : State × Acc × List Byte :=
  if n = 0 then (s, .ok, [])
  else if !assigned s a n then (s, .unassigned, [])
  else if isDram a then
    ((linesOf a n).foldl (fun t l => touchLine t l false false) s,
      if (linesOf a n).any (poisoned s) then .poison else .ok, readBytes s a n)
  else (s, .ok, readBytes s a n)

/-- R256: the line is poisoned, counted and recorded. -/
def poisonLine (s : State) (a : Nat) : State :=
  let s1 := { s with memctl := { s.memctl with
    poison := lineBase a :: s.memctl.poison.filter (· != lineBase a) } }
  let s2 := satF s1 MEM_UECNT MEM_UECNT_POISONED 1
  let s3 := setPair s2 MEM_UEADDR_LO MEM_UEADDR_HI (lineBase a % 2 ^ 48)
  makeRecord s3 (srcHearth (homeOf s a)) 0x182 [w64 (lineBase a)]

/-! ## Seed streams (R238) -/

def rotl64 (x n : Nat) : Nat := (x * 2 ^ n) % 2 ^ 64 + x % 2 ^ 64 / 2 ^ (64 - n)

/-- One round of R238; the state is (a, b, c). -/
def streamRound (t : Nat × Nat × Nat) (i : Nat) : Nat × Nat × Nat :=
  let a := (t.1 + t.2.1) % 2 ^ 64
  let c := rotl64 (t.2.2 ^^^ a) 32
  let b := (t.2.1 + c) % 2 ^ 64
  let a := rotl64 (a ^^^ b) 24
  let a := (a + c) % 2 ^ 64
  let b := rotl64 (b ^^^ a) 16
  (a, b, (c + i * 0xD6E8FEB86659FD93) % 2 ^ 64)

def stream (j k p : Nat) : Nat :=
  let t := [1, 2, 3, 4, 5, 6].foldl streamRound
    (j % 2 ^ 64, (k ^^^ 0x9E3779B97F4A7C15) % 2 ^ 64, p % 2 ^ 64)
  t.1 ^^^ t.2.1 ^^^ t.2.2

/-! ## CRC-32C (R276) -/

def crcBit (c : Nat) : Nat := if c % 2 = 1 then (c / 2) ^^^ 0x82F63B78 else c / 2

def crcByte (c : Nat) (b : Byte) : Nat :=
  (crcBit ∘ crcBit ∘ crcBit ∘ crcBit ∘ crcBit ∘ crcBit ∘ crcBit ∘ crcBit) (c ^^^ b.toNat)

/-- CRC-32C of a byte sequence, register all ones at the start and complemented at the end. -/
def crc32c (bs : List Byte) : Nat := bs.foldl crcByte 0xFFFFFFFF ^^^ 0xFFFFFFFF

end Sys2Proof.Machine
end

