-- ==== Sys2Proof/Machine/Clock.lean ====
section
/-! DEFINITION. Local time on an idle beat (R53, R54). -/

namespace Sys2Proof.Machine

/-- Nanoseconds that the reference cycle at a phase adds: 6, 6, 7, 6, 7 (R53). -/
def cycleNs (phase : Nat) : Nat := if phase % 5 = 2 || phase % 5 = 4 then 7 else 6

/-- One reference cycle on the counter of base die 0 and on the copy of base die 1, which adds the same
(R53, R54). -/
def tick (t : TimeUnit) : TimeUnit :=
  { t with ns := (t.ns + cycleNs t.phase) % 2 ^ 64, half1 := (t.half1 + cycleNs t.phase) % 2 ^ 64
           phase := (t.phase + 1) % 5 }

/-- What the block does with no command waiting: a reference cycle passes (log entry 2). -/
def idle (s : State) : State := { s with time := tick s.time }

end Sys2Proof.Machine
end

