-- ==== Sys2Proof/Machine/Flags.lean ====
section
/-! DEFINITION. The numeric status flags and saturating counters of a core (R75 to R78, R93, R133,
R150, R153, R171), each raised where a rule says. -/

namespace Sys2Proof.Machine

/-- Sticky bits of CORE_NUMSTAT (R78). -/
def raiseForced (s : State) (i : Nat) : State := putF s (CORE_NUMSTAT i) CORE_NUMSTAT_FORCED 1
def raiseFlushed (s : State) (i : Nat) : State := putF s (CORE_NUMSTAT i) CORE_NUMSTAT_FLUSHED 1

def floorMode (s : State) (i : Nat) : Bool := flag s (CORE_NUMCTL i) CORE_NUMCTL_FLOOR_MODE

/-- R59: void codes read are counted; when the count leaves 0 the reader writes one void-read
record, with the local address of the read, or 0. -/
def countVoids (s : State) (i n addr : Nat) : State :=
  if n = 0 then s
  else
    let t := satF s (CORE_VOIDCNT i) CORE_VOIDCNT_VOID_READS n
    if getF s (CORE_VOIDCNT i) CORE_VOIDCNT_VOID_READS = 0 then
      makeRecord t (srcCore i) 0x100 [w64 addr]
    else t

def countVsat (s : State) (i n : Nat) : State := satF s (CORE_VSATCNT i) CORE_VSATCNT_VSAT n
def countQsat (s : State) (i n : Nat) : State := satF s (CORE_QSATCNT i) CORE_QSATCNT_SAT n
def countQceil (s : State) (i n : Nat) : State := satF s (CORE_QCEILCNT i) CORE_QCEILCNT_CEIL n
def countQzero (s : State) (i n : Nat) : State := satF s (CORE_QZEROCNT i) CORE_QZEROCNT_ZERO n
def countFosat (s : State) (i n : Nat) : State := satF s (CORE_FOSATCNT i) CORE_FOSATCNT_FOSAT n
def countUpdClamp (s : State) (i n : Nat) : State := satF s (CORE_UPDCLAMP i) CORE_UPDCLAMP_CLAMPED n
def countTileSat (s : State) (i n : Nat) : State := satF s (CORE_TILESAT i) CORE_TILESAT_SATTILES n

/-- R261: void codes met by a crucible; one record when the count leaves 0. -/
def countCrucibleVoids (s : State) (h n addr : Nat) : State :=
  if n = 0 then s
  else
    let t := satF s (HCH_CRUC h) HCH_CRUC_VOID n
    if getF s (HCH_CRUC h) HCH_CRUC_VOID = 0 then makeRecord t (srcHearth h) 0x100 [w64 addr] else t

end Sys2Proof.Machine
end

