-- ==== Sys2Proof/Machine/Crucible.lean ====
section
/-! DEFINITION. The crucible of a home hearth (R259 to R261): atomics on one 8-byte word and element-wise
reductions of lines. -/

namespace Sys2Proof.Machine

/-- The word an atomic writes, from the old value, the operand and the comparand (R260). -/
def atomicResult (op : Nat) (old x cmp : Word64) : Word64 :=
  match op with
  | 0 => old + x
  | 1 => old &&& x
  | 2 => old ||| x
  | 3 => old ^^^ x
  | 4 => if old.toInt < x.toInt then x else old
  | 5 => if x.toInt < old.toInt then x else old
  | 6 => if old.toNat < x.toNat then x else old
  | 7 => if x.toNat < old.toNat then x else old
  | 8 => x
  | 9 => if old = cmp then x else old
  | _ => old

/-- How an operation of a crucible ended: the statuses of Table 10-6 that it can meet. -/
inductive CrucAcc where
  | ok (old : Word64)
  | poison
  | unassigned
  | window
  deriving DecidableEq, Repr

/-- An atomic at the home of its line; a window has no crucible (R253), a poisoned line refuses
(R256), and the line is installed (R252). -/
def atomicAt (s : State) (a op : Nat) (x cmp : Word64) : State × CrucAcc :=
  if isWindow a then (s, .window)
  else if !assigned s a 8 then (s, .unassigned)
  else if poisoned s a then (satF s (HCH_CRUC (homeOf s a)) HCH_CRUC_REFUSED 1, .poison)
  else
    (touchLine (writeWord s a (atomicResult op (readWord s a) x cmp)) (lineBase a) true true,
      .ok (readWord s a))

/-- One element of a saturating signed add on `n` bits: a void code counts as the negative bound. -/
def satAddElem (n : Nat) (x y : Nat) : Nat × Nat :=
  let lo := 2 ^ (n - 1)
  let fix := fun v : Nat => if v % 2 ^ n = lo then -((lo : Int) - 1) else sext n v
  (wrapBits n (max (-((lo : Int) - 1)) (min ((lo : Int) - 1) (fix x + fix y))),
    (if x % 2 ^ n = lo then 1 else 0) + (if y % 2 ^ n = lo then 1 else 0))

def maxElem32 (x y : Nat) : Nat × Nat :=
  let lo := 2 ^ 31
  let fix := fun v : Nat => if v % 2 ^ 32 = lo then -((lo : Int) - 1) else sext 32 v
  (wrapBits 32 (max (fix x) (fix y)),
    (if x % 2 ^ 32 = lo then 1 else 0) + (if y % 2 ^ 32 = lo then 1 else 0))

/-- Element-wise combination of two words in elements of `n` bits, `k` of them, with the void codes
counted. -/
def combineElems (f : Nat → Nat → Nat × Nat) (n : Nat) : Nat → Nat → Nat → Nat × Nat
  | 0, _, _ => (0, 0)
  | k + 1, x, y =>
    let (v, c) := f (x % 2 ^ n) (y % 2 ^ n)
    let (r, d) := combineElems f n k (x / 2 ^ n) (y / 2 ^ n)
    (v + 2 ^ n * r, c + d)

/-- One 8-byte word of a reduction (R261) and the void codes read in it. -/
def reduceWord (op : Nat) (x y : Word64) : Word64 × Nat :=
  let r := match op with
    | 0 => combineElems (satAddElem 32) 32 2 x.toNat y.toNat
    | 1 => combineElems (satAddElem 64) 64 1 x.toNat y.toNat
    | 2 => combineElems (fun a b => (max a b, 0)) 8 8 x.toNat y.toNat
    | 3 => ((x ||| y).toNat, 0)
    | _ => combineElems maxElem32 32 2 x.toNat y.toNat
  (w64 r.1, r.2)

def reduceWords (op : Nat) : List Word64 → List Word64 → List Word64 × Nat
  | x :: xs, y :: ys =>
    let r := reduceWord op x y
    let t := reduceWords op xs ys
    (r.1 :: t.1, r.2 + t.2)
  | _, _ => ([], 0)

/-- A reduction of words that lie in one line, as one operation of its home (R261). -/
def reduceLine (s : State) (a op : Nat) (ws : List Word64) : State × CrucAcc :=
  if ws.isEmpty then (s, .ok 0)
  else if isWindow a then (s, .window)
  else if !assigned s a (8 * ws.length) then (s, .unassigned)
  else if poisoned s a then (satF s (HCH_CRUC (homeOf s a)) HCH_CRUC_REFUSED 1, .poison)
  else
    let r := reduceWords op (readWords s a ws.length) ws
    (touchLine (countCrucibleVoids (writeWords s a r.1) (homeOf s a) r.2 a) (lineBase a) true true, .ok 0)

def CrucAcc.worse : CrucAcc → CrucAcc → CrucAcc
  | .ok _, b => b
  | a, _ => a

/-- A reduction of several lines, each its own operation, in ascending address order. -/
def reduceLines (op : Nat) : List (Nat × List Word64) → State × CrucAcc → State × CrucAcc
  | [], p => p
  | c :: cs, p =>
    let r := reduceLine p.1 c.1 op c.2
    reduceLines op cs (r.1, p.2.worse r.2)

/-- The words of a reduction, cut at line boundaries. -/
def wordChunks : Nat → Nat → List Word64 → List (Nat × List Word64)
  | 0, _, _ => []
  | k + 1, a, ws =>
    if ws.isEmpty then []
    else (a, ws.take ((128 - a % 128) / 8)) ::
      wordChunks k (a + (128 - a % 128)) (ws.drop ((128 - a % 128) / 8))

def reduceAt (s : State) (a op : Nat) (ws : List Word64) : State × CrucAcc :=
  reduceLines op (wordChunks (ws.length / 16 + 2) a ws) (s, .ok 0)

end Sys2Proof.Machine
end

