-- ==== Sys2Proof/Machine/Faults.lean ====
section
/-! DEFINITION. The parts of a core (contexts, queues, partitions), the fault codes of Table 7-16 and the
fault abort of R140, R204 and R205, one shared operation. A fault is a state of the device: the task
is abandoned, the fault recorded and the task returned with its outcome. -/

namespace Sys2Proof.Machine

/-! ## Contexts and queues -/

def Core.ctx (c : Core) (k : CtxId) : Ctx := if k = 0 then c.ctx0 else c.ctx1
def Core.setCtx (c : Core) (k : CtxId) (x : Ctx) : Core :=
  if k = 0 then { c with ctx0 := x } else { c with ctx1 := x }

def Core.queue (c : Core) : Queue → List QEntry
  | .anv0 => c.anv0
  | .anv1 => c.anv1
  | .vec => c.vec
  | .tongs => c.tongs
  | .fab => c.fab

def Core.setQueue (c : Core) (q : Queue) (l : List QEntry) : Core :=
  match q with
  | .anv0 => { c with anv0 := l }
  | .anv1 => { c with anv1 := l }
  | .vec => { c with vec := l }
  | .tongs => { c with tongs := l }
  | .fab => { c with fab := l }

def isSplit (s : State) (i : Nat) : Bool := flag s (CORE_TILECTL i) CORE_TILECTL_SPLIT

/-- Entries of a queue (Table 7-1). -/
def queueSize (split : Bool) : Queue → Nat
  | .anv0 => if split then 8 else 16
  | .anv1 => if split then 8 else 0
  | .vec => 16
  | .tongs => 32
  | .fab => 32

/-- QUEUE codes of CORE_FAULT (Table 7-22). -/
def queueCode : Queue → Nat
  | .anv0 => 1
  | .anv1 => 2
  | .vec => 3
  | .tongs => 4
  | .fab => 5

/-- The order of service on one beat (R186). -/
def placeRank : WaitPlace → Nat
  | .seq _ => 0
  | .inQueue q => queueCode q

/-- The anvils of the partition of a context (R140, R146). -/
def partition (split : Bool) (k : CtxId) : List Nat :=
  if split then (if k = 0 then [0, 1] else [2, 3]) else [0, 1, 2, 3]

def Core.anvil (c : Core) (a : Nat) : Anvil := c.anvils.getD a .reset
def Core.setAnvil (c : Core) (a : Nat) (x : Anvil) : Core := { c with anvils := c.anvils.set a x }

/-! ## Ramps (R129, R130) -/

/-- An anvil with no pass to feed asks for its ramp-down; a ramp-up in progress is given up (R136). -/
def rampDownReq (r : Ramp) : Ramp :=
  match r with
  | .full => .waitDown
  | .up k => .stop k
  | .waitRev k => .stop k
  | .waitUp => .idle
  | r => r

/-- A pass arrives for the anvil (R130): a ramp-down that waits for its grant is withdrawn, and one in progress holds its
stage until its reversal is granted. -/
def passArrives (r : Ramp) : Ramp :=
  match r with
  | .waitDown => .full
  | .down k => .waitRev (7 - k)
  | .stop k => .waitRev k
  | r => r

/-! ## Fault codes (Table 7-16) -/

def faultIllegal : Nat := 0x01
def faultRegAccess : Nat := 0x02
def faultTileState : Nat := 0x03
def faultAddress : Nat := 0x04
def faultAlign : Nat := 0x05
def faultFormat : Nat := 0x06
def faultScale : Nat := 0x07
def faultWaitTimeout : Nat := 0x08
def faultCounter : Nat := 0x09
def faultLoopStack : Nat := 0x0A
def faultFabric : Nat := 0x0B
def faultProtection : Nat := 0x0C
def faultPoison : Nat := 0x0D
def faultTile : Nat := 0x0E
def faultCsRead : Nat := 0x0F

def isHardwareFault (code : Nat) : Bool := code = 0x0D || code = 0x0E || code = 0x0F

/-- A context of a task is abandoned, finished or absent: it issues nothing more. -/
def Ctx.over (x : Ctx) : Bool := x.partDone || x.stat = .noTask || x.stat = .aborting

/-- How the task left, when a part faults after another has ended: a program outcome fails the task
whatever the other part met. -/
def mergeEnd (old : Option TaskEnd) (new : TaskEnd) : TaskEnd :=
  match old with
  | some .program => .program
  | _ => new

def clearPartition (c : Core) (as : List Nat) (poison : Bool := false) : Core :=
  as.foldl (fun c a => c.setAnvil a
    { (c.anvil a) with active := .cleared, shadow := .cleared, drain := none, load := none
                       poison := poison, lastPass := none
                       ramp := rampDownReq (c.anvil a).ramp }) c

/-- The waits of a context are no longer held; those of the other keep their places. -/
def dropHeld (c : Core) (k : CtxId) : Core := { c with heldWaits := c.heldWaits.filter (·.ctx != k) }

def discardEntries (c : Core) (k : CtxId) : Core :=
  { c with anv0 := c.anv0.filter (·.ctx != k), anv1 := c.anv1.filter (·.ctx != k)
           vec := c.vec.filter (·.ctx != k), tongs := c.tongs.filter (·.ctx != k)
           fab := c.fab.filter (·.ctx != k) }

/-- The other context of a split task: a save or restore in progress is discarded with its part (R141, R145), and a context
that stood at a yield point goes on. -/
def abortOther (c : Core) (o : CtxId) : Core :=
  if (c.ctx o).stat = .saving || (c.ctx o).stat = .restoring then
    let c := clearPartition (discardEntries (dropHeld c o) o) (partition true o) true
    let c := c.setCtx o { (c.ctx o) with stat := .aborting, hold := .none, yieldNow := false, mons := [], placed := [] }
    { c with endedParts := c.endedParts ||| BitVec.ofNat 2 (2 ^ o.val), pass0 := none, pass1 := none }
  else if (c.ctx o).stat = .atYield then c.setCtx o { (c.ctx o) with stat := .running, yieldNow := false }
  else c

/-- The core side of an abort: sets cleared, entries discarded, no further issue (R140, R204). -/
def abortCore (split : Bool) (c : Core) (k : CtxId) (code : Nat) (residue : Bool) : Core :=
  let c := dropHeld c k
  let c := discardEntries c k
  let c := clearPartition c (partition split k) true
  let c := if split ∧ k = 1 then { c with pass1 := none }
    else if split then { c with pass0 := none }
    else { c with pass0 := none, pass1 := none }
  let c := c.setCtx k { (c.ctx k) with stat := .aborting, hold := .none, yieldNow := false, mons := [], placed := [] }
  let c := if split then abortOther c (if k = 0 then 1 else 0) else c
  { c with
    ended := some (mergeEnd c.ended (if isHardwareFault code then .hardware code residue else .program))
    endedParts := if isHardwareFault code then c.endedParts ||| BitVec.ofNat 2 (2 ^ k.val) else c.endedParts
    preq := none }

/-- R204, R205: only the first fault of an abort is recorded; the context's partition is cleared, the
fault recorded in CORE_FAULT, CORE_FAULTPC and CORE_FAULTCNT, and a fault record written. -/
def faultAbort (s : State) (i : Nat) (k : CtxId) (queue code pc : Nat) (precise : Bool)
    (residue : Bool := false) : State :=
  if ((coreAt s i).ctx k).over then s
  else
    let s := modCore s i fun c => abortCore (isSplit s i) c k code residue
    let s := putF s (CORE_FAULT i) CORE_FAULT_PRECISE (if precise then 1 else 0)
    let s := putF s (CORE_FAULT i) CORE_FAULT_CTX k.val
    let s := putF s (CORE_FAULT i) CORE_FAULT_QUEUE queue
    let s := putF s (CORE_FAULT i) CORE_FAULT_CODE code
    let s := putF s (CORE_FAULTPC i) CORE_FAULTPC_PC pc
    let s := satF s (CORE_FAULTCNT i)
      (if isHardwareFault code then CORE_FAULTCNT_HARDWARE else CORE_FAULTCNT_PROGRAM) 1
    makeRecord s (srcCore i) 0x10A
      [w64 (getR s (CORE_FAULT i)).toNat, w64 (getR s (CORE_FAULTPC i)).toNat]

def setEntry (s : State) (i : Nat) (q : Queue) (qid : Nat) (f : QEntry → QEntry) : State :=
  modCore s i fun c => c.setQueue q ((c.queue q).map fun e => if e.qid = qid then f e else e)

/-- A fault found by an entry of a queue after issue; it is not precise. Under a quench every queue pauses (R211): the
fault is raised when the quench ends. -/
def entryFault (s : State) (i : Nat) (q : Queue) (e : QEntry) (code : Nat) (residue : Bool := false) : State :=
  if quenched s then setEntry s i q e.qid fun x => { x with failed := some (x.failed.getD (code, residue)) }
  else faultAbort s i e.ctx (queueCode q) code e.pc false residue

def allQueues : List Queue := [.anv0, .anv1, .vec, .tongs, .fab]

/-- The faults that a quench held back are raised, entry by entry. -/
def raiseFailed (s : State) (i : Nat) : State :=
  (allQueues.flatMap fun q => ((coreAt s i).queue q).map fun e => (q, e)).foldl (fun t p => match p.2.failed with
    | some f => faultAbort t i p.2.ctx (queueCode p.1) f.1 p.2.pc false f.2
    | none => t) s

/-- CAUSE of CORE_TILEFAULT (Table 5-19): the location registers of a tile fault. -/
def setTileFault (s : State) (i part col row anvil cause : Nat) : State :=
  let s := putF s (CORE_TILEFAULT i) CORE_TILEFAULT_PART part
  let s := putF s (CORE_TILEFAULT i) CORE_TILEFAULT_COL col
  let s := putF s (CORE_TILEFAULT i) CORE_TILEFAULT_ROW row
  let s := putF s (CORE_TILEFAULT i) CORE_TILEFAULT_ANVIL anvil
  putF s (CORE_TILEFAULT i) CORE_TILEFAULT_CAUSE cause

/-- CS_UE of the hearth of a core (Table 9-3). -/
def countCsUe (s : State) (i : Nat) : State := satF s (HCH_SUE (hearthOf i)) HCH_SUE_CS_UE 1

/-- An uncorrectable error of a core-store word that an entry's own core reads, other than an operand, a header or a save
slot: the tile fault with CAUSE 4 (R140, Table 9-3). -/
def coreStoreFault (s : State) (i : Nat) (q : Queue) (e : QEntry) (part anvil : Nat) : State :=
  entryFault (setTileFault (countCsUe s i) i part 0 0 anvil 4) i q e faultTile

end Sys2Proof.Machine
end

