-- ==== Sys2Proof/Machine/Tx.lean ====
section
/-! DEFINITION. What the device sends (R276 to R302): YLP frames and their check, requests numbered per
destination with their window, paths and retransmission, replies, RoCEv2 operations, and what the completion
of a request means to its owner. -/

namespace Sys2Proof.Machine

/-! ## YLP frames (Tables 10-3, 10-4) -/

def ylpReq : Nat := 0
def ylpRep : Nat := 1
def opRead : Nat := 0x01
def opWrite : Nat := 0x02
def opWriteMasked : Nat := 0x03
def opAtomic : Nat := 0x04
def opReduce : Nat := 0x05
def opFence : Nat := 0x06
def opProbe : Nat := 0x07
def opReadData : Nat := 0x81
def opAck : Nat := 0x82
def opAtomicResult : Nat := 0x84
def opProbeAck : Nat := 0x87
def opBusy : Nat := 0x88
def opRetire : Nat := 0x89
def opRefuse : Nat := 0x8A

/-- STATUS codes (Table 10-6). -/
def stOk : Nat := 0
def stPoison : Nat := 1
def stUnassigned : Nat := 2
def stProtect : Nat := 3
def stWindow : Nat := 4
def stBusy : Nat := 5
def stNosync : Nat := 6
def stMalformed : Nat := 7

/-- The 40 header bytes in the order sent, network byte order (Table 10-4). -/
def ylpHeader (f : YlpFrame) : List Byte :=
  beBytes 4 (f.ver.toNat * 2 ^ 28 + f.kind.toNat * 2 ^ 24 + f.op.toNat * 2 ^ 16 + f.epoch.toNat * 2 ^ 8 + f.flags.toNat)
    ++ beBytes 4 (f.src.toNat * 2 ^ 16 + f.dst.toNat)
    ++ beBytes 4 (f.seq.toNat * 2 ^ 8 + f.lines.toNat)
    ++ beBytes 4 (f.ack.toNat * 2 ^ 8 + f.status.toNat * 2 ^ 4 + f.subop.toNat)
    ++ beBytes 8 (f.addr.toNat * 2 ^ 16 + f.mask.toNat)
    ++ beBytes 4 (f.tag.toNat * 2 ^ 8 + f.rcount.toNat * 2 ^ 6)
    ++ beBytes 4 (f.rtag0.toNat * 2 ^ 8) ++ beBytes 4 (f.rtag1.toNat * 2 ^ 8) ++ beBytes 4 0

def icrcOf (f : YlpFrame) : BitVec 32 := BitVec.ofNat 32 (crc32c (ylpHeader f ++ f.payload))
def sealFrame (f : YlpFrame) : YlpFrame := { f with icrc := icrcOf f }

def ownNode (s : State) : Nat := getF s FAB_NODE FAB_NODE_NODE
def ownEpoch (s : State) : Nat := getF s FAB_NODE FAB_NODE_EPOCH

/-- A frame of this device with nothing set but its origin and destination. -/
def blankFrame (s : State) (node kind op : Nat) : YlpFrame :=
  { ver := 1, kind := BitVec.ofNat 4 kind, op := BitVec.ofNat 8 op, epoch := BitVec.ofNat 8 (ownEpoch s)
    flags := 0, src := BitVec.ofNat 16 (ownNode s), dst := BitVec.ofNat 16 node, seq := 0, lines := 0, ack := 0
    status := 0, subop := 0, addr := 0, mask := 0, tag := 0, rcount := 0, rtag0 := 0, rtag1 := 0
    payload := [], icrc := 0 }

/-! ## What leaves a port (R270, R274) -/

/-- The MAC address of port `p` of a node: MAC_HI, the node number, the port. FAB_NODE reads 0xFFFF before the device joins, which
is the placeholder of R274. -/
def portMac (s : State) (node p : Nat) : BitVec 48 :=
  BitVec.ofNat 48 (getF s FAB_MAC FAB_MAC_MAC_HI * 2 ^ 24 + node * 2 ^ 8 + p)

def portAt (s : State) (p : Nat) : PortSt := s.ports.getD p { paused := 0, testing := false }
def setPort (s : State) (p : Nat) (x : PortSt) : State := { s with ports := s.ports.set p x }

/-- The partner has paused priority `q` of the port. -/
def pausedAt (s : State) (p q : Nat) : Bool := (portAt s p).paused.getLsbD q

/-- Something leaves on a port, or waits behind a pause of its priority. -/
def portEmit (s : State) (p q : Nat) (o : Out) : State :=
  if pausedAt s p q then setPort s p { (portAt s p) with held := (portAt s p).held ++ [(q, o)] } else emit s o

/-- The Ethernet part of a YLP frame: the destination's port of the same number, the tag and the EtherType of FAB_CTL
(Table 10-3). -/
def ylpEth (s : State) (node p : Nat) : Eth :=
  { dst := portMac s node p, src := portMac s (ownNode s) p, tags := 1
    pcp := BitVec.ofNat 3 (getF s FAB_CTL FAB_CTL_YLP_PCP), vid := 0, etype := BitVec.ofNat 16 (getF s FAB_CTL FAB_CTL_ETYPE) }

/-! ## Serial arithmetic modulo 2^24 (R281) -/

def seqAdd (a n : Nat) : Nat := (a + n) % 2 ^ 24
def seqDiff (a b : Nat) : Int := sext 24 ((a + 2 ^ 24 - b % 2 ^ 24) % 2 ^ 24)

/-! ## Membership, ports and paths (R275, R287) -/

def isMember (s : State) (node : Nat) : Bool := (assocGet node s.ylp.members).isSome
/-- LINK_UP, and not in near-end loopback (Table 10-10); after a thermal trip no port sends or takes a frame
(R403). -/
def portUpNow (s : State) (p : Nat) : Bool :=
  !s.therm.trip && flag s (PRT_STATUS p) PRT_STATUS_LINK_UP && !flag s (PRT_CTL p) PRT_CTL_LOOP

def peerOf (s : State) (node : Nat) : Option Peer := s.ylp.peers.find? (·.node = node)

def pathPort (s : State) (node path : Nat) : Option Nat :=
  if path = 0 then (peerOf s node).map (·.port.val) else some (path + 2)

/-- Path 0 for a tray peer, else ((SRC xor DST) mod 5) + 1. -/
def startPath (s : State) (node : Nat) : Nat :=
  if (peerOf s node).isSome then 0 else (ownNode s ^^^ node) % 5 + 1

/-- The paths of a destination in the order they are tried. -/
def pathOrder (s : State) (node : Nat) : List Nat :=
  if (peerOf s node).isSome then [0, 1, 2, 3, 4, 5]
  else (List.range 5).map fun k => (startPath s node - 1 + k) % 5 + 1

def pathUsable (s : State) (node : Nat) (failed : BitVec 6) (path : Nat) : Bool :=
  !failed.toNat.testBit path && (match pathPort s node path with
    | some p => portUpNow s p
    | none => false)

/-- The next usable path after the present one, in cyclic order. -/
def nextPath (s : State) (d : TxDst) : Option Nat :=
  let o := pathOrder s d.node
  let k := o.idxOf d.path
  ((o.drop (k + 1) ++ o.take (k + 1)).find? (pathUsable s d.node d.failed))

def newDst (s : State) (node : Nat) : TxDst :=
  { node := node, next := 0, acked := 0, unacked := [], waiting := []
    path := ((pathOrder s node).find? (pathUsable s node 0)).getD (startPath s node)
    failed := 0, fails := 0, busy := none, unreach := false, retire := [], retireAt := none, lastSent := s.now, advAt := s.now }

/-- The path that a destination returns to: that of the earliest ring lane that asks, or its starting path (R291, R310). -/
def homePath (s : State) (d : TxDst) : Nat := (d.want.head?.map (·.2)).getD (startPath s d.node)

def dstAt (s : State) (node : Nat) : TxDst := (s.ylp.tx.find? (·.node = node)).getD (newDst s node)
def setDst (s : State) (d : TxDst) : State :=
  { s with ylp := { s.ylp with tx := s.ylp.tx.filter (·.node != d.node) ++ [d] } }

def rxAt (s : State) (node : Nat) : Option RxSrc := s.ylp.rx.find? (·.node = node)
def setRx (s : State) (r : RxSrc) : State :=
  { s with ylp := { s.ylp with rx := s.ylp.rx.filter (·.node != r.node) ++ [r] } }

/-- ACK of a frame to a node: the highest sequence number below which everything has completed (R284). -/
def ackField (s : State) (node : Nat) : BitVec 24 := match rxAt s node with
  | some r => BitVec.ofNat 24 ((r.acked + 2 ^ 24 - 1) % 2 ^ 24)
  | none => BitVec.ofNat 24 (2 ^ 24 - 1)

/-- A frame leaves on a port, if the port carries traffic and the device is not fenced (R364). -/
def sendFrame (s : State) (port : Nat) (f : YlpFrame) : State :=
  if h : port < 8 then
    if portUpNow s port && joined s && !fenced s then
      let s := { s with ylp := { s.ylp with
        tx := updWhere (fun d => d.node = f.dst.toNat) (fun d => { d with lastSent := s.now }) s.ylp.tx } }
      portEmit s port (getF s FAB_CTL FAB_CTL_YLP_PCP) (.ylp ⟨port, h⟩ (sealFrame { f with
        ack := ackField s f.dst.toNat, eth := ylpEth s f.dst.toNat port }))
    else s
  else s

/-- A request leaves on the present path of its destination. -/
def sendOn (s : State) (d : TxDst) (f : YlpFrame) : State :=
  match pathPort s d.node d.path with
  | some p => sendFrame s p f
  | none => s

/-- Up to two tags ride on the next request (R295). -/
def withTags (d : TxDst) (f : YlpFrame) : YlpFrame :=
  { f with
    rcount := BitVec.ofNat 2 (min 2 d.retire.length)
    rtag0 := BitVec.ofNat 24 (d.retire.getD 0 0), rtag1 := BitVec.ofNat 24 (d.retire.getD 1 0) }

/-- WIN of R281; values above 1,024 are taken as 1,024. -/
def winSize (s : State) : Nat := min 1024 (getF s FAB_WIN FAB_WIN_WIN)

/-- An entry notes the highest sequence number it used towards a destination (R292). -/
def noteHigh (s : State) (o : Owner) (node seq : Nat) : State :=
  match o with
  | .insn i q qid => modCore s i.val fun c => c.setQueue q ((c.queue q).map fun e =>
      if e.qid = qid then { e with high := assocSet node seq e.high } else e)
  | _ => s

/-- The next request to a destination is numbered and sent; the first of an epoch carries SYN (R281). -/
def sendNumbered (s : State) (d : TxDst) (f : YlpFrame) (o : Owner) (dst skip len : Nat) : State :=
  let g := withTags d { f with
    seq := BitVec.ofNat 24 d.next
    flags := if d.syn then 1 else 0 }
  let r : TxReq := ⟨d.next, g, o, s.now, s.now, dst, skip, len, false⟩
  let d := { d with next := seqAdd d.next 1, syn := false, unacked := d.unacked ++ [r], retire := d.retire.drop 2
                    retireAt := if (d.retire.drop 2).isEmpty then none else some s.now, lastSent := s.now
                    advAt := if d.unacked.isEmpty then s.now else d.advAt }
  noteHigh (sendOn (setDst s d) d g) o d.node r.seq

/-- Requests that waited leave as the window opens. -/
def drainWaiting : Nat → State → Nat → State
  | 0, s, _ => s
  | n + 1, s, node =>
    let d := dstAt s node
    match d.waiting with
    | [] => s
    | w :: rest =>
      if d.busy.isNone && d.unacked.length < winSize s then
        drainWaiting n (sendNumbered s { d with waiting := rest } w.1 w.2.1 w.2.2.1 w.2.2.2.1 w.2.2.2.2) node
      else s

/-! ## Replies (R288) -/

/-- A reply leaves on the port its request arrived on; the ACK it carries is then no longer owed. -/
def sendReply (s : State) (port : Nat) (f : YlpFrame) : State :=
  let s := sendFrame s port f
  match rxAt s f.dst.toNat with
  | some r => if r.port.val = port then setRx s { r with due := none, count := 0 } else s
  | none => s

def replyFrame (s : State) (to_ : YlpFrame) (op status : Nat) : YlpFrame :=
  { blankFrame s to_.src.toNat ylpRep op with seq := to_.seq, status := BitVec.ofNat 4 status }

/-! ## Completion at the source -/

/-- What an outstanding reply, acknowledgement or local part means to an entry: it completes when none is
left (R292). -/
def entryPart (s : State) (i : Nat) (q : Queue) (qid : Nat) : State :=
  modCore s i fun c => c.setQueue q ((c.queue q).map fun e =>
    if e.qid = qid then { e with awaits := e.awaits - 1 } else e)

def entryOf (s : State) (i : Nat) (q : Queue) (qid : Nat) : Option QEntry :=
  ((coreAt s i).queue q).find? (·.qid = qid)

def modJournal (s : State) (jseq : Nat) (f : JEntry → JEntry) : State :=
  { s with intake := { s.intake with journal := updWhere (fun j => j.jseq = jseq) f s.intake.journal } }

/-- The outcome of a status at the source (Table 10-6). -/
def statusFault (st : Nat) : Option Nat :=
  match st with
  | 0 => none
  | 1 => some faultPoison
  | 3 => some faultProtection
  | _ => some faultFabric

/-- A request of an owner is over, with a fault or without. -/
def ownerDone (s : State) (o : Owner) (fault : Option Nat) : State :=
  match o, fault with
  | .insn i q qid, none => entryPart s i.val q qid
  | .insn i q qid, some code => match entryOf s i.val q qid with
    | some e => entryFault s i.val q e code
    | none => s
  | .mirror _ j, none => modJournal s j fun x => { x with mirrored := true }
  | .doneMark _ j, none => modJournal s j fun x => { x with markAcked := true }
  | .commit, none => { s with surv := { s.surv with durable := true } }
  | .copy, some _ => { s with surv := { s.surv with copying := false, refusals := match s.surv.partner with
      | some p => p.2 :: s.surv.refusals.filter (· != p.2)
      | none => s.surv.refusals } }
  | .commit, some _ => { s with surv := { s.surv with recopy := true } }
  | .mirror _ _, some _ => { s with surv := { s.surv with recopy := true } }
  | .doneMark _ _, some _ => { s with surv := { s.surv with recopy := true } }
  | .fetch row, some _ => { s with surv := { s.surv with failedRows := s.surv.failedRows ++ [row] } }
  | .stream, some _ => { s with coll := { s.coll with stream := s.coll.stream.map fun t => { t with sent := 0 } } }
  | _, _ => s

/-- What stands with a destination, in SEQ order: what awaits its reply only, and what is not acknowledged. -/
def TxDst.standing (d : TxDst) : List TxReq := d.replies ++ d.unacked

/-- Owners of everything that stands with a destination or waits for its window. -/
def TxDst.owners (d : TxDst) : List Owner := d.standing.map (·.owner) ++ d.waiting.map (·.2.1)

/-- R290: every outstanding instruction to the destination completes with the fabric fault and its sequence
state is discarded. -/
def unreachable (s : State) (node : Nat) : State :=
  let d := dstAt s node
  let s := setDst s { newDst s node with unreach := true, failed := d.failed, path := d.path }
  let s := satF s FAB_CNT2 FAB_CNT2_UNREACH 1
  d.owners.foldl (fun s o => ownerDone s o (some faultFabric)) s

def hasPath (s : State) (d : TxDst) : Bool := (pathOrder s d.node).any (pathUsable s d.node d.failed)

/-- A request with no path to its destination: the destination is unreachable, or is still so. -/
def refuseNoPath (s : State) (d : TxDst) (f : YlpFrame) (o : Owner) : State :=
  if d.unreach then ownerDone s o (some faultFabric)
  else unreachable (setDst s { d with waiting := d.waiting ++ [(f, o, 0, 0, 0)] }) d.node

/-- A request enters the sequence of its destination, or waits for the window (R281, R286); with no usable path the
destination is unreachable (R290). -/
def sendRequest (s : State) (node : Nat) (f : YlpFrame) (o : Owner) (dst skip len : Nat) : State :=
  let d := dstAt s node
  if !hasPath s d then refuseNoPath s d f o
  else if d.waiting.isEmpty && d.busy.isNone && d.unacked.length < winSize s then
    sendNumbered s d f o dst skip len
  else setDst s { d with waiting := d.waiting ++ [(f, o, dst, skip, len)] }

def needsReply (f : YlpFrame) : Bool := f.op.toNat = opRead || f.op.toNat = opAtomic

def reqAcked (acked : Nat) (r : TxReq) : Bool := seqDiff acked r.seq > 0

/-- A request is over once it is acknowledged and its reply, where it awaits one, has arrived. -/
def reqOver (acked : Nat) (r : TxReq) : Bool := reqAcked acked r && (r.replied || !needsReply r.frame)

/-- What stands is sorted by an acknowledgement: what awaits its reply only, and what is not acknowledged. -/
def sortStanding (d : TxDst) : TxDst :=
  { d with replies := d.standing.filter fun r => reqAcked d.acked r && !reqOver d.acked r
           unacked := d.unacked.filter fun r => !reqAcked d.acked r }

/-- The acknowledgement of a destination advances (R284, R289): requests complete, failures are forgotten, the
window opens and, with nothing outstanding, the destination returns to its starting path (R291) or takes
the path of a ring lane (R310). -/
def takeAck (s : State) (node ack : Nat) : State :=
  match s.ylp.tx.find? (·.node = node) with
  | none => s
  | some d =>
    let up := seqAdd ack 1
    let adv := seqDiff up d.acked > 0 && seqDiff d.next up ≥ 0
    let d := if adv then { d with acked := up, fails := 0, unreach := false, advAt := s.now } else d
    let fin := d.standing.filter (reqOver d.acked)
    let d := sortStanding d
    let home := homePath s d
    let d := if d.unacked.isEmpty && pathUsable s node d.failed home then { d with path := home } else d
    let s := fin.foldl (fun s r => ownerDone s r.owner none) (setDst s d)
    drainWaiting (d.waiting.length) s node

/-- The first reply for a sequence number marks its request (R283). -/
def markReplied (s : State) (node seq : Nat) : State :=
  let mark := updWhere (fun r : TxReq => r.seq = seq) fun r => { r with replied := true }
  match s.ylp.tx.find? (·.node = node) with
  | none => s
  | some d => setDst s { d with replies := mark d.replies, unacked := mark d.unacked }

def dropRequest (s : State) (node seq : Nat) : State :=
  match s.ylp.tx.find? (·.node = node) with
  | none => s
  | some d => setDst s { d with
      replies := d.replies.filter fun r => r.seq != seq, unacked := d.unacked.filter fun r => r.seq != seq }

def resent (lowest : Option Nat) (r : TxReq) : Bool := match lowest with
  | some q => seqDiff r.seq q ≥ 0
  | none => true

/-- An atomic whose tag has been retired is not sent again (R295). -/
def sentAgain (d : TxDst) (r : TxReq) : Bool :=
  !(r.replied && r.frame.op.toNat = opAtomic && !d.retire.contains r.frame.tag.toNat)

/-- Every unacknowledged request is sent again, in SEQ order, with RETX (R289). -/
def resendAll (s : State) (node : Nat) (lowest : Option Nat) : State :=
  let d := dstAt s node
  let mark := fun r : TxReq =>
    if resent lowest r && sentAgain d r then
      { r with sentAt := s.now, frame := { r.frame with flags := r.frame.flags ||| 2 } }
    else r
  let d := { d with lastSent := s.now, unacked := d.unacked.map mark }
  (d.unacked.filter fun r => resent lowest r && sentAgain d r).foldl (fun s r =>
    satF (sendOn s d r.frame) FAB_CNT0 FAB_CNT0_RETX 1) (setDst s d)

/-- A failed path: the destination moves to its next usable path, or is unreachable (R289). -/
def movePath (s : State) (node : Nat) : State :=
  let d := dstAt s node
  let d := { d with failed := d.failed ||| BitVec.ofNat 6 (2 ^ d.path), fails := 0 }
  let s := satF s FAB_CNT1 FAB_CNT1_REROUTES 1
  match nextPath s d with
  | some p => resendAll (setDst s { d with path := p }) node none
  | none => unreachable (setDst s d) node

/-! ## Requests of a transfer (R280) -/

/-- Word mask of the bytes from `lo` to `hi` of a line, 8-byte words. -/
def wordMask (lo hi : Nat) : Nat := 2 ^ (hi / 8) - 2 ^ (lo / 8)

/-- Pieces of a transfer: partial lines one by one, whole lines in runs of up to eight. -/
def ylpPieces : Nat → Nat → Nat → List (Nat × Nat)
  | 0, _, _ => []
  | k + 1, a, n =>
    if n = 0 then []
    else if a % 128 != 0 || n < 128 then
      (a, min n (128 - a % 128)) :: ylpPieces k (a + min n (128 - a % 128)) (n - min n (128 - a % 128))
    else
      (a, min 1024 (n / 128 * 128)) :: ylpPieces k (a + min 1024 (n / 128 * 128)) (n - min 1024 (n / 128 * 128))

def ylpPieceList (a n : Nat) : List (Nat × Nat) := ylpPieces (n / 1024 + 20) a n

/-- A write of bytes to a node: WRITE for whole lines, WRITE_MASKED for a partial one. -/
def writeFrame (s : State) (node a : Nat) (bs : List Byte) : YlpFrame :=
  if a % 128 = 0 && bs.length % 128 = 0 then
    { blankFrame s node ylpReq opWrite with
      lines := BitVec.ofNat 8 (bs.length / 128), addr := BitVec.ofNat 48 a, payload := bs }
  else
    { blankFrame s node ylpReq opWriteMasked with
      lines := 1, addr := BitVec.ofNat 48 (lineBase a)
      mask := BitVec.ofNat 16 (wordMask (a % 128) (a % 128 + bs.length))
      payload := List.replicate (a % 128) 0 ++ bs ++ List.replicate (128 - a % 128 - bs.length) 0 }

/-- Requests that write bytes at a node, all of one owner. -/
def sendWrites (s : State) (node a : Nat) (bs : List Byte) (o : Owner) : State :=
  (ylpPieceList a bs.length).foldl (fun s p =>
    sendRequest s node (writeFrame s node p.1 ((bs.drop (p.1 - a)).take p.2)) o 0 0 0) s

def readFrame (s : State) (node a lines : Nat) : YlpFrame :=
  { blankFrame s node ylpReq opRead with lines := BitVec.ofNat 8 lines, addr := BitVec.ofNat 48 a }

/-- Lines that a piece of a read covers. -/
def pieceLines (p : Nat × Nat) : Nat := (p.1 + p.2 - 1) / 128 + 1 - p.1 / 128

/-- READ requests for bytes of a node; each piece goes to its place from `dst` on. -/
def sendReads (s : State) (node a n : Nat) (o : Owner) (dst : Nat) : State :=
  (ylpPieceList a n).foldl (fun s p =>
    sendRequest s node (readFrame s node (lineBase p.1) (pieceLines p)) o (dst + (p.1 - a)) (p.1 % 128) p.2) s

/-- Data received for an entry. -/
def noteData (s : State) (i : Nat) (q : Queue) (qid dst : Nat) (bs : List Byte) : State :=
  modCore s i fun c => c.setQueue q ((c.queue q).map fun e =>
    if e.qid = qid then { e with buf := assocSet dst bs e.buf } else e)

/-! ## RoCEv2 (R298 to R302) -/

def connAt (s : State) (idx : Nat) : Option Conn := s.conns.find? (·.index = idx)
def setConn (s : State) (c : Conn) : State :=
  { s with conns := s.conns.map fun d => if d.index = c.index then c else d }

def connMtu (c : Conn) : Nat := 1024 * 2 ^ wfield c.entry 0 61 60
def connRkey (c : Conn) : Nat := wfield c.entry 1 31 0
def connQpn (idx : Nat) : Nat := 0x100 + idx

/-- The headers of what the connection sends: to its next hop, at ROCE_PCP (R269, Table 10-9). -/
def roceHead (s : State) (c : Conn) : RoceHead :=
  { eth := { dst := BitVec.ofNat 48 (wfield c.entry 2 63 16), src := portMac s (ownNode s) c.port.val, tags := 1
             pcp := BitVec.ofNat 3 (getF s FAB_CTL FAB_CTL_ROCE_PCP), vid := 0
             etype := if wfield c.entry 0 62 62 = 1 then 0x86DD else 0x0800 }
    rip := wfield c.entry 4 63 0 + wfield c.entry 5 63 0 * 2 ^ 64, lip := wfield c.entry 6 63 0 + wfield c.entry 7 63 0 * 2 ^ 64
    dscp := wfield c.entry 0 59 54, udpSrc := wfield c.entry 2 15 0, dqpn := wfield c.entry 0 47 24 }

/-- A packet leaves on the port of the connection. -/
def rocePacketOut (s : State) (c : Conn) (psn : Nat) (b : RoceBody) : State :=
  if portUpNow s c.port.val && joined s && !fenced s then
    portEmit s c.port.val (getF s FAB_CTL FAB_CTL_ROCE_PCP) (.roce c.port (roceHead s c) psn b)
  else s

def msgPart (k n : Nat) : RocePart :=
  if n ≤ 1 then .only else if k = 0 then .first else if k + 1 = n then .last else .middle

/-- Data in pieces of the path MTU. -/
def mtuPiece (c : Conn) (bs : List Byte) (k : Nat) : List Byte := (bs.drop (k * connMtu c)).take (connMtu c)

/-- The packets of an operation with their PSNs: a write in pieces of the path MTU, the others in one. -/
def rocePackets (c : Conn) (o : RoceOp) : List (Nat × RoceBody) := match o.kind with
  | .send => [(o.psn, .send o.data)]
  | .read => [(o.psn, .readRequest o.remote (connRkey c) o.bytes)]
  | .write => (List.range o.pkts).map fun k =>
      (seqAdd o.psn k, .write (msgPart k o.pkts) o.remote (connRkey c) o.bytes (mtuPiece c o.data k))

def roceEmit (s : State) (c : Conn) (o : RoceOp) : State :=
  (rocePackets c o).foldl (fun t p => rocePacketOut t c p.1 p.2) s

def rocePkts (c : Conn) (kind : RoceKind) (n : Nat) : Nat :=
  match kind with
  | .send => 1
  | _ => max 1 ((n + connMtu c - 1) / connMtu c)

/-- An operation takes its PSNs and is sent; behind 16 outstanding reads it waits (Table 10-8). -/
def roceIssue (s : State) (c : Conn) (o : RoceOp) : State :=
  let full := o.kind = .read && 16 ≤ (c.ops.filter (·.kind = .read)).length
  if full || !c.waitq.isEmpty then setConn s { c with waitq := c.waitq ++ [o] }
  else
    let o := { o with psn := c.spsn, pkts := rocePkts c o.kind o.bytes }
    let c := { c with spsn := seqAdd c.spsn o.pkts, ops := c.ops ++ [o]
                      sentAt := if c.ops.isEmpty then s.now else c.sentAt }
    roceEmit (setConn s c) c o

/-- A message on a connection: false when the connection is not active. -/
def roceSendOn (s : State) (idx : Nat) (o : RoceOp) : State × Bool :=
  match connAt s idx with
  | some c => if c.error then (s, false) else (roceIssue s c o, true)
  | none => (s, false)

/-- A node is unreachable to the collectives engines (R307). -/
def loseMember (s : State) (node : Nat) : State :=
  if s.coll.lost.any (·.1 = node) then s else { s with coll := { s.coll with lost := s.coll.lost ++ [(node, false)] } }

/-- The members that the active groups reach by a connection. -/
def connMembers (s : State) (idx : Nat) : List Nat :=
  ((s.coll.groups.flatMap fun g => g.nodes.zip g.conns).filter (·.2 = idx)).map (·.1)

/-- A connection in error completes everything on it with the fabric fault (R302). -/
def connectionError (s : State) (c : Conn) : State :=
  let owners := (c.ops ++ c.waitq).map (·.owner)
  let s := setConn s { c with error := true, ops := [], waitq := [] }
  let s := makeRecord s (srcPort c.port.val) 0x203 [w64 c.index]
  let s := (connMembers s c.index).foldl loseMember s
  owners.foldl (fun s o => ownerDone s o (some faultFabric)) s

end Sys2Proof.Machine
end

