-- ==== Sys2Proof/Machine/Groups.lean ====
section
/-! DEFINITION. Groups and the carrier of the collectives and survival engines (R307 to R309): members,
the tree of radix 8, and a write into the memory of a member. -/

namespace Sys2Proof.Machine

def groupAt (s : State) (idx : Nat) : Option Group := s.coll.groups.find? (·.index = idx)
def setGroupEntry (s : State) (g : Group) : State :=
  { s with coll := { s.coll with groups := s.coll.groups.filter (·.index != g.index) ++ [g] } }

def Group.size (g : Group) : Nat := g.nodes.length
def Group.node (g : Group) (rank : Nat) : Nat := g.nodes.getD rank 0
def Group.conn (g : Group) (rank : Nat) : Nat := g.conns.getD rank 0xFFFF

/-! ## The tree (R309) -/

def treeParent (rank : Nat) : Nat := (rank - 1) / 8

def treeChildren (n rank : Nat) : List Nat :=
  ((List.range 8).map fun k => 8 * rank + 1 + k).filter (· < n)

/-- The relation by which a member knows another: 0 its parent, 1 to 8 its children. -/
def treeRelation (rank other : Nat) : Nat :=
  if 0 < rank && other = treeParent rank then 0 else (other - 1) % 8 + 1

/-! ## The carrier (R307) -/

/-- A message of RDMA WRITE with no local part. -/
def rdmaWrite (o : Owner) (remote : Nat) (bs : List Byte) : RoceOp :=
  { psn := 0, kind := .write, owner := o, bytes := bs.length, local_ := 0, remote := remote, data := bs, pkts := 1 }

def rdmaSend (o : Owner) (bs : List Byte) : RoceOp :=
  { psn := 0, kind := .send, owner := o, bytes := bs.length, local_ := 0, remote := 0, data := bs, pkts := 1 }

/-- Bytes are written at an address of a member: in this device's own memory, as YLP WRITE requests to a
member of its memory domain, and as an RDMA WRITE on the connection of the group entry otherwise; a connection that is not
active makes its member unreachable. -/
def carry (s : State) (g : Group) (rank a : Nat) (bs : List Byte) (o : Owner) : State :=
  if rank = g.rank then ownerDone (memWrite s a bs).1 o none
  else if g.conn rank = 0xFFFF then sendWrites s (g.node rank) a bs o
  else
    let r := roceSendOn s (g.conn rank) (rdmaWrite o a bs)
    if r.2 then r.1 else loseMember r.1 (g.node rank)

/-- The rank of a node in a group. -/
def Group.rankOf (g : Group) (node : Nat) : Option Nat :=
  if g.nodes.contains node then some (g.nodes.idxOf node) else none

end Sys2Proof.Machine
end

