-- ==== Sys2Proof/Machine/Posting.lean ====
section
/-! DEFINITION. What the device posts to the job controller (R344, R345, R374), the survival lines it sends
(R362), and the stops that many rules share: a self-fence (R364), a service request (R379), a wedge
(R380). -/

namespace Sys2Proof.Machine

/-! ## Completion records (R344, R345) -/

def ringOf (s : State) (r : Nat) : Option Ring := s.intake.rings.find? (·.index = r)
def setRing (s : State) (r : Ring) : State :=
  { s with intake := { s.intake with rings := s.intake.rings.map fun x => if x.index = r.index then r else x } }

def Ring.slots (r : Ring) : Nat := 2 ^ (wfield r.entry 0 47 44 + 6)
def Ring.cslots (r : Ring) : Nat := 2 ^ (wfield r.entry 0 43 40 + 6)
def Ring.conn (r : Ring) : Nat := wfield r.entry 0 39 30
def Ring.base (r : Ring) : Nat := (r.entry.getD 1 0).toNat
def Ring.doorbell (r : Ring) : Nat := (r.entry.getD 2 0).toNat
def Ring.cbase (r : Ring) : Nat := (r.entry.getD 3 0).toNat
def Ring.firstSeq (r : Ring) : Nat := (r.entry.getD 4 0).toNat

/-- The first word of a record or notice: TYPE, NODE and the bits a type adds. -/
def headWord (s : State) (typ extra : Nat) : Word64 := w64 (typ * 2 ^ 48 + ownNode s * 2 ^ 32 + extra)

/-- A record of 64 bytes. -/
def padWords (n : Nat) (ws : List Word64) : List Word64 := ws.take n ++ List.replicate (n - ws.length) 0

/-- The 128-byte completion slot of a record. -/
def slotBytes (ws : List Word64) (cseq ring : Nat) : List Byte :=
  bytesOfWords (padWords 16 (padWords 8 ws ++ [w64 cseq, w64 ring]))

/-- A completion record of an item notes the slot it took, for R341. -/
def noteSlot (s : State) (ring : Nat) (ws : List Word64) (cseq : Nat) : State :=
  if wfield ws 0 63 48 = 0x0402 then
    { s with intake := { s.intake with journal := s.intake.journal.map fun j =>
        if j.ring = ring && j.seq = (ws.getD 1 0).toNat && j.cslot.isNone && j.st = .done then
          { j with cslot := some cseq } else j } }
  else s

def ringFull (r : Ring) : Bool := r.cslots ≤ r.cseq - r.ccons

/-- The record leaves by RDMA WRITE on the ring's connection and CSEQ of the doorbell line moves on; false
when the connection is not active. -/
def postNow (s : State) (r : Ring) (ws : List Word64) : State × Bool :=
  let p := roceSendOn s r.conn
    (rdmaWrite .line (r.cbase + 128 * (r.cseq % r.cslots)) (slotBytes ws r.cseq r.index))
  if p.2 then
    let t := setRing p.1 { r with cseq := r.cseq + 1 }
    (noteSlot (writeWord t (r.doorbell + 80) (w64 (r.cseq + 1))) r.index ws r.cseq, true)
  else (s, false)

def holdRecord (s : State) (ring : Nat) (ws : List Word64) : State :=
  putF { s with intake := { s.intake with heldRecs := s.intake.heldRecs ++ [(ring, ws)] } }
    WRK_STATUS WRK_STATUS_HELD_RECORDS 1

/-- A record goes to a ring, or is held while the ring has no free slot (R344). A fenced device posts nothing
(R364). -/
def postTo (s : State) (ring : Nat) (ws : List Word64) : State :=
  if fenced s then s
  else match ringOf s ring with
    | none => holdRecord s ring ws
    | some r =>
      if ringFull r || s.intake.heldRecs.any (·.1 = ring) then holdRecord s ring ws
      else
        let p := postNow s r ws
        if p.2 then p.1 else holdRecord s ring ws

/-- Records that are not of an item go to ring EVRING. -/
def postRecord (s : State) (ws : List Word64) : State := postTo s (getF s WRK_CTL WRK_CTL_EVRING) ws

/-- Held records of a ring leave while it has free slots. -/
def releaseHeld : Nat → State → Nat → State
  | 0, s, _ => s
  | n + 1, s, ring =>
    match ringOf s ring, s.intake.heldRecs.find? (·.1 = ring) with
    | some r, some h =>
      if ringFull r || fenced s then s
      else
        let p := postNow s r h.2
        if p.2 then
          let rest := p.1.intake.heldRecs.erase h
          let t := { p.1 with intake := { p.1.intake with heldRecs := rest } }
          releaseHeld n (if rest.isEmpty then putF t WRK_STATUS WRK_STATUS_HELD_RECORDS 0 else t) ring
        else s
    | _, _ => s

/-! ## Notices (R374) -/

def noticeConn (s : State) : Nat := wfield s.surv.plan 0 15 6

/-- Waiting notices leave in order while the connection of the plan is active. -/
def sendNotices : Nat → State → State
  | 0, s => s
  | n + 1, s =>
    match s.surv.notices with
    | [] => s
    | x :: rest =>
      if fenced s || s.surv.plan.isEmpty then s
      else
        let p := roceSendOn s (noticeConn s) (rdmaSend .line (bytesOfWords (padWords 8 x)))
        if p.2 then sendNotices n { p.1 with surv := { p.1.surv with notices := rest } } else s

/-- A notice is sent, or kept to be retried every millisecond. -/
def postNotice (s : State) (typ : Nat) (ws : List Word64) : State :=
  let t := { s with surv := { s.surv with notices := s.surv.notices ++ [headWord s typ 0 :: ws] } }
  sendNotices t.surv.notices.length t

def jobStep (s : State) : Nat := match s.job with
  | some j => j.step
  | none => 0

/-! ## Survival lines (R362, Table 13-5) -/

def survGroup (s : State) : Option Group := groupAt s (wfield s.surv.plan 0 31 16)
def survArea (s : State) : Nat := (s.surv.plan.getD 1 0).toNat

def kLoss : Nat := 1
def kChange : Nat := 2
def kConfirm : Nat := 3
def kResume : Nat := 4
def kHalt : Nat := 5
def kJoin : Nat := 6

/-- The bytes of a survival line. -/
def survBytes (s : State) (kind reason seq mgen : Nat) (removed added : List Nat) : List Byte :=
  let b := bytesOfWords [w64 (0x0E10 * 2 ^ 48 + kind * 2 ^ 40 + removed.length * 2 ^ 36 + added.length * 2 ^ 32
      + ownNode s * 2 ^ 16 + reason * 2 ^ 8), w64 (seq * 2 ^ 32 + mgen % 2 ^ 32), w64 (jobStep s)]
    ++ ((removed ++ added).take 16).flatMap (leBytes 2)
  let b := b ++ List.replicate (0x7C - b.length) 0
  b ++ leBytes 4 (crc32c b)

def survMgen (s : State) : Nat := (getR s SURV_MGEN).toNat

/-- SEQ of the next line on a relation (0 to 8) or to the inbox of a node (9 + node). -/
def nextSurvSeq (s : State) (key : Nat) : Nat := (assocGet key s.surv.sent).getD 0 + 1

def noteSurvSent (s : State) (key seq : Nat) : State :=
  { s with surv := { s.surv with sent := assocSet key seq s.surv.sent } }

/-- The receiver of a relation line has acknowledged the last SEQ (log entry 30). -/
def relationFree (s : State) (q : Nat) : Bool :=
  (readWord s (survArea s + 0x1000 + 0x80 * q)).toNat = (assocGet q s.surv.sent).getD 0

/-- A line to the inbox of a member. -/
def sendInbox (s : State) (rank kind reason : Nat) (removed added : List Nat) : State :=
  match survGroup s with
  | none => s
  | some g =>
    let key := 9 + g.node rank
    let seq := nextSurvSeq s key
    noteSurvSent (carry s g rank (survArea s + 0x100000 + 0x80 * ownNode s)
      (survBytes s kind reason seq (survMgen s) removed added) .line) key seq

/-- A line to a tree neighbour; it waits behind one that is not acknowledged. -/
def sendRelation (s : State) (rank kind reason mgen : Nat) (removed added : List Nat) : State :=
  match survGroup s with
  | none => s
  | some g =>
    let q := treeRelation g.rank rank
    let seq := nextSurvSeq s q
    let bs := survBytes s kind reason seq mgen removed added
    if relationFree s q && !s.surv.sendq.any (·.1 = q) then
      noteSurvSent (carry s g rank (survArea s + 0x80 * treeRelation rank g.rank) bs .line) q seq
    else
      { s with surv := { s.surv with
          sendq := s.surv.sendq ++ [(q, bs)], sent := assocSet q seq s.surv.sent } }

/-- The rank a tree relation names. -/
def relationRank (g : Group) (q : Nat) : Nat := if q = 0 then treeParent g.rank else 8 * g.rank + q

/-- A waiting relation line leaves once its predecessor is acknowledged. -/
def drainSurvLines : Nat → State → State
  | 0, s => s
  | n + 1, s =>
    match survGroup s, s.surv.sendq with
    | some g, (q, bs) :: rest =>
      let seq := ofLE ((bs.drop 12).take 4)
      if (readWord s (survArea s + 0x1000 + 0x80 * q)).toNat + 1 = seq then
        drainSurvLines n (carry { s with surv := { s.surv with sendq := rest } } g (relationRank g q)
          (survArea s + 0x80 * treeRelation (relationRank g q) g.rank) bs .line)
      else s
    | _, _ => s

/-- R365: the coordinator is the member of lowest rank. -/
def isCoordinator (s : State) : Bool := match survGroup s with
  | some g => g.rank = 0
  | none => false

/-! ## Fence, service request and wedge -/

/-- R364: FENCED is set and clears only on a full reset. -/
def selfFence (s : State) : State := putF s SURV_STATUS SURV_STATUS_FENCED 1

def retiredCount (s : State) : Nat := ((List.range 128).filter (coreRetired s)).length

/-- R379, R380: the request stands in SURV_STATUS, DEV_STATUS and on the pin. -/
def serviceStanding (s : State) : State := requestService (putF s SURV_STATUS SURV_STATUS_SVC 1)

/-- R379: the service-request notice is posted. -/
def serviceNotice (s : State) : State :=
  postNotice s 0x0503 [w64 (getR s SURV_STATUS).toNat, w64 (retiredCount s)]

/-- R379: a LOSS line that names this device, then the fence. -/
def leaveJob (s : State) : State := selfFence (sendInbox s 0 kLoss 3 [ownNode s] [])

def wedgeCause (cause unit row : Nat) : Word64 := w64 (cause + unit * 2 ^ 8 + row % 2 ^ 48 * 2 ^ 16)

/-- R380: the device reports itself wedged, fences itself and asks for service. -/
def wedge (s : State) (cause unit row : Nat) : State :=
  if flag s DEV_STATUS DEV_STATUS_WEDGED then s
  else
    let s := makeRecord s srcSmith 0x087 [wedgeCause cause unit row]
    selfFence (serviceStanding (putF s DEV_STATUS DEV_STATUS_WEDGED 1))

/-- R34: the weld is failed and the device wedges. -/
def failWeld (s : State) (dir cause : Nat) : State :=
  let s := makeRecord s srcWeld 0x088 [w64 (dir + cause * 2 ^ 8)]
  let s := { s with weld := { s.weld with up := false, failed := true } }
  wedge (putF s DEV_STATUS DEV_STATUS_WELD_UP 0) 2 dir 0

end Sys2Proof.Machine
end

