-- ==== Sys2Proof/Machine/Flash.lean ====
section
/-! DEFINITION. The configuration flash (R416, R417): erased bytes, and the record areas with two copies
each. -/

namespace Sys2Proof.Machine

def flashGet (s : State) (a : Nat) : Byte := (assocGet a s.boot.flash).getD 0xFF

def flashBytes (s : State) (a n : Nat) : List Byte := (List.range n).map fun i => flashGet s (a + i)

def flashPut : List (Nat × Byte) → Nat → List Byte → List (Nat × Byte)
  | m, _, [] => m
  | m, a, b :: bs => flashPut (sparseSet 0xFF a b m) (a + 1) bs

def flashWrite (s : State) (a : Nat) (bs : List Byte) : State :=
  { s with boot := { s.boot with flash := flashPut s.boot.flash a bs } }

def flashErase (s : State) (a n : Nat) : State :=
  { s with boot := { s.boot with flash := s.boot.flash.filter fun c => !(a ≤ c.1 && c.1 < a + n) } }

/-! ## Areas (Table 15-2) and records (Table 15-11) -/

def slotBase (b : Bool) : Nat := if b then 0x1C00000 else 0
def slotLen : Nat := 0x1C00000
def areaBoot : Nat := 0x3800000
def areaProt : Nat := 0x3820000
def areaSite : Nat := 0x3840000
def areaTrim : Nat := 0x3860000
def areaWear : Nat := 0x3880000
def areaRetire : Nat := 0x38A0000
def areaTrip : Nat := 0x38C0000
def areaStart : Nat := 0x38E0000

/-- TYPE and LEN of the record of an area. -/
def areaShape (area : Nat) : Nat × Nat :=
  if area = areaBoot then (0x0F02, 8)
  else if area = areaProt then (0x0F10, 20283)
  else if area = areaSite then (0x0F30, 4883)
  else if area = areaTrim then (0x0F03, 24)
  else if area = areaWear then (0x0F04, 40)
  else if area = areaRetire then (0x0F05, 144)
  else if area = areaTrip then (0x0F06, 24)
  else (0x0F07, 40)

/-- A copy whose header and CRC are good: its SEQ and body. -/
def readCopy (s : State) (area k : Nat) : Option (Nat × List Byte) :=
  let a := area + 0x10000 * k
  let h := flashBytes s a 12
  let body := flashBytes s (a + 16) (areaShape area).2
  if fieldLE h 0 2 = (areaShape area).1 && fieldLE h 8 4 = (areaShape area).2
      && ofLE (flashBytes s (a + 12) 4) = crc32c (h ++ body) then
    some (fieldLE h 4 4, body)
  else none

/-- SEQ `x` is newer than `y` in serial arithmetic modulo 2^32. -/
def seqNewer (x y : Nat) : Bool := sext 32 ((x + 2 ^ 32 - y % 2 ^ 32) % 2 ^ 32) > 0

/-- The copy that the device reads: its number, SEQ and body. -/
def bestCopy (s : State) (area : Nat) : Option (Nat × Nat × List Byte) :=
  match readCopy s area 0, readCopy s area 1 with
  | some a, some b => if seqNewer b.1 a.1 then some (1, b) else some (0, a)
  | some a, none => some (0, a)
  | none, some b => some (1, b)
  | none, none => none

def readRecord (s : State) (area : Nat) : Option (List Byte) := (bestCopy s area).map fun c => c.2.2

/-- A record is written over the other copy, with SEQ + 1. -/
def writeRecord (s : State) (area : Nat) (body : List Byte) : State :=
  let k := match bestCopy s area with
    | some c => 1 - c.1
    | none => 0
  let seq := match bestCopy s area with
    | some c => (c.2.1 + 1) % 2 ^ 32
    | none => 1
  let a := area + 0x10000 * k
  let h := leBytes 2 (areaShape area).1 ++ leBytes 2 0 ++ leBytes 4 seq ++ leBytes 4 body.length
  flashWrite (flashErase s a 0x10000) a (h ++ leBytes 4 (crc32c (h ++ body)) ++ body)

/-! ## Bodies of the small records -/

def padTo (n : Nat) (bs : List Byte) : List Byte := bs.take n ++ List.replicate (n - bs.length) 0

/-- The cores retired since the record was last cleared, and their causes. -/
def retireBody (s : State) : List Byte :=
  let cause := fun i => (assocGet i s.boot.retireCauses).getD 0
  let bits := (List.range 16).map fun k =>
    BitVec.ofNat 8 ((List.range 8).map fun n => if cause (8 * k + n) = 0 then 0 else 2 ^ n).sum
  bits ++ (List.range 128).map fun i => BitVec.ofNat 8 (cause i)

/-- The retirement record waits while a slot is being programmed (R422). -/
def saveRetirement (s : State) : State :=
  if s.boot.slotBusy.isSome then { s with boot := { s.boot with retireDirty := true } }
  else writeRecord { s with boot := { s.boot with retireDirty := false } } areaRetire (retireBody s)

def trimBody (s : State) : List Byte :=
  padTo 24 ((List.range 16).map (fun u => BitVec.ofNat 8 (domainAt s u).code)
    ++ [BitVec.ofNat 8 s.weld.dir0.code, BitVec.ofNat 8 s.weld.dir1.code])

end Sys2Proof.Machine
end

