-- ==== Sys2Proof/Machine/Formats.lean ====
section
/-! DEFINITION. Number formats, rows and their layouts (R58 to R73), rows read as codes with the void codes
counted (R59), rows written, and the exact conversions (R79, R80). -/

namespace Sys2Proof.Machine

/-! ## Formats (Tables 3-1, 3-4, 3-6) -/

def fmtValid (f : Nat) : Bool := (1 ≤ f && f ≤ 8) || f = 0x10 || f = 0x20 || f = 0x30
def isNarrow (f : Nat) : Bool := 1 ≤ f && f ≤ 8
def isWide (f : Nat) : Bool := f = 0x10 || f = 0x20 || f = 0x30
def wideBytes (f : Nat) : Nat := if f = 0x10 then 2 else if f = 0x20 then 4 else 6
/-- Code width in bits: FMT 0x10, 0x20 and 0x30 name 16, 32 and 48 bits. -/
def codeBits (f : Nat) : Nat := if f = 0x10 then 16 else if f = 0x20 then 32 else if f = 0x30 then 48 else f
def laneAllowed (f : Nat) : Bool := f = 3 || f = 5 || f = 6 || f = 7
/-- The largest code M of a format. -/
def maxCode (f : Nat) : Int := if f = 1 then 1 else 2 ^ (codeBits f - 1) - 1

/-- Field width and elements per word of a narrow payload (Table 3-4, R72). -/
def packing (f : Nat) (lane : Bool) : Nat × Nat :=
  if lane then (if f = 3 then (4, 16) else (8, 8))
  else match f with
    | 1 => (1, 64)
    | 2 => (2, 32)
    | 3 => (3, 21)
    | 4 => (4, 16)
    | 5 => (5, 12)
    | 6 => (6, 10)
    | 7 => (7, 9)
    | _ => (8, 8)

def ceilDiv (a b : Nat) : Nat := (a + b - 1) / b

def payloadWords (f : Nat) (lane : Bool) (n : Nat) : Nat :=
  if isNarrow f then ceilDiv n (packing f lane).2 else ceilDiv (n * wideBytes f) 8

def headerWords (f n : Nat) : Nat := if isNarrow f then ceilDiv (ceilDiv n 32) 16 else 0

/-- Bytes of a row (R73). -/
def rowSize (f : Nat) (lane : Bool) (n : Nat) : Nat := 8 * payloadWords f lane n + 8 * headerWords f n + 8

/-! ## Trailer (Table 3-5) -/

structure Trailer where
  lane : Bool
  raw  : Bool
  len  : Nat
  fmt  : Nat
  exp  : Int
  deriving DecidableEq, Repr

def decodeTrailer (w : Nat) : Trailer :=
  ⟨bitsOf 29 29 w = 1, bitsOf 28 28 w = 1, bitsOf 27 16 w + 1, bitsOf 15 8 w, sext 8 w⟩

def encodeTrailer (t : Trailer) : Nat :=
  (if t.lane then 2 ^ 29 else 0) + (if t.raw then 2 ^ 28 else 0) + (t.len - 1) % 4096 * 2 ^ 16
    + t.fmt % 256 * 2 ^ 8 + wrapBits 8 t.exp

/-- R70: the trailer is that of a row of format `f`, `n` elements and the expected layout. -/
def trailerOk (t : Trailer) (f n : Nat) (lane : Bool) : Bool :=
  fmtValid t.fmt && t.fmt = f && t.len = n && !(t.raw && t.fmt != 0x30)
    && !(t.lane && !laneAllowed t.fmt) && t.lane = lane

/-! ## Rows read -/

/-- A row as its readers use it: codes with every void code replaced, block steps (7 for a zero block),
and the count of void codes read. -/
structure RowVal where
  fmt   : Nat
  exp   : Int
  raw   : Bool
  codes : List Int
  steps : List Nat
  clips : List Bool
  voids : Nat
  deriving DecidableEq, Repr

/-- `k` fields of `w` bits of a payload word, from bit 0. -/
def wordFields (w : Nat) : Nat → Nat → List Nat
  | 0, _ => []
  | k + 1, v => v % 2 ^ w :: wordFields w k (v / 2 ^ w)

/-- The value of a code field, and 1 for a void code (R58 to R60). -/
def codeValue (f v : Nat) : Int × Nat :=
  if f = 1 then (if v % 2 = 1 then -1 else 1, 0)
  else if v % 2 ^ codeBits f = 2 ^ (codeBits f - 1) then (-(2 ^ (codeBits f - 1) - 1), 1)
  else (sext (codeBits f) v, 0)

def headersOf (bs : List Byte) (f : Nat) (lane : Bool) (n : Nat) : List Nat :=
  ((List.range (headerWords f n)).flatMap fun j =>
    wordFields 4 16 (fieldLE bs (8 * payloadWords f lane n + 8 * j) 8)).take (ceilDiv n 32)

def narrowFields (bs : List Byte) (f : Nat) (lane : Bool) (n : Nat) : List Nat :=
  ((List.range (payloadWords f lane n)).flatMap fun j =>
    wordFields (packing f lane).1 (packing f lane).2 (fieldLE bs (8 * j) 8)).take n

def wideFields (bs : List Byte) (f n : Nat) : List Nat :=
  (List.range n).map fun i => fieldLE bs (wideBytes f * i) (wideBytes f)

/-- The codes of a row in `bs`, whose trailer is `t`. Zero rows and zero blocks are ignored (R64). -/
def decodeRow (bs : List Byte) (t : Trailer) : RowVal :=
  if t.exp = -128 then
    ⟨t.fmt, t.exp, t.raw, List.replicate t.len 0,
      List.replicate (if isNarrow t.fmt then ceilDiv t.len 32 else 0) 7,
      List.replicate (if isNarrow t.fmt then ceilDiv t.len 32 else 0) false, 0⟩
  else if isNarrow t.fmt then
    let hs := headersOf bs t.fmt t.lane t.len
    let vs := ((narrowFields bs t.fmt t.lane t.len).zipIdx).map fun p =>
      if hs.getD (p.2 / 32) 0 % 8 = 7 then ((0, 0) : Int × Nat) else codeValue t.fmt p.1
    ⟨t.fmt, t.exp, t.raw, vs.map (·.1), hs.map (· % 8), hs.map (fun h => h / 8 = 1 && h % 8 != 7),
      (vs.map (·.2)).sum⟩
  else
    let vs := (wideFields bs t.fmt t.len).map (codeValue t.fmt)
    ⟨t.fmt, t.exp, t.raw, vs.map (·.1), [], [], (vs.map (·.2)).sum⟩

/-- A row of core `i` at offset `off`: none when R70 refuses it. A raw row is refused unless `raw` asks for
one, and a reader of raw rows refuses any other (R84). -/
def readRow (s : State) (i off f n : Nat) (lane raw : Bool) : Option RowVal :=
  let bs := readBytes s (csBase i + off) (rowSize f lane n)
  let t := decodeTrailer (fieldLE bs (rowSize f lane n - 8) 8)
  if trailerOk t f n lane && t.raw = raw then some (decodeRow bs t) else none

/-! ## Rows written -/

def packFields (w : Nat) : List Nat → Nat
  | [] => 0
  | v :: vs => v % 2 ^ w + 2 ^ w * packFields w vs

/-- Groups of `k`. -/
def groupsOf {α : Type} (k : Nat) : Nat → List α → List (List α)
  | 0, _ => []
  | m + 1, l => l.take k :: groupsOf k m (l.drop k)

/-- The field a code is stored in: Q1 by its sign, all others in two's complement of the field width. -/
def codeField (f : Nat) (w : Nat) (q : Int) : Nat :=
  if f = 1 then (if q < 0 then 1 else 0) else wrapBits w q

/-- Bytes of a row: payload, headers and trailer (R66 to R72). A zero row is all zero but its trailer. -/
def encodeRow (f : Nat) (lane : Bool) (exp : Int) (codes : List Int) (steps : List Nat)
    (clips : List Bool) : List Byte :=
  let n := codes.length
  let tr := leBytes 8 (encodeTrailer ⟨lane, false, n, f, exp⟩)
  if exp = -128 then List.replicate (rowSize f lane n - 8) 0 ++ tr
  else if isNarrow f then
    let w := (packing f lane).1
    let k := (packing f lane).2
    let fs := (codes.zipIdx).map fun p => if steps.getD (p.2 / 32) 0 = 7 then 0 else codeField f w p.1
    let hs := (steps.zip clips).map fun p => (if p.2 && p.1 != 7 then 8 else 0) + p.1
    (groupsOf k (payloadWords f lane n) fs).flatMap (fun g => leBytes 8 (packFields w g))
      ++ (groupsOf 16 (headerWords f n) hs).flatMap (fun g => leBytes 8 (packFields 4 g)) ++ tr
  else
    let body := codes.flatMap fun q => leBytes (wideBytes f) (wrapBits (8 * wideBytes f) q)
    body ++ List.replicate (8 * payloadWords f false n - body.length) 0 ++ tr

/-- A raw Q48 row (R84). -/
def encodeRawRow (exp : Int) (codes : List Int) : List Byte :=
  let n := codes.length
  let body := codes.flatMap fun q => leBytes 6 (wrapBits 48 q)
  body ++ List.replicate (8 * payloadWords 0x30 false n - body.length) 0
    ++ leBytes 8 (encodeTrailer ⟨false, true, n, 0x30, exp⟩)

/-! ## Narrow to wide (R80) -/

def maxStep (steps : List Nat) : Nat := (steps.filter (· != 7)).foldl max 0

/-- Exponent and codes of a narrow row as a wide row; a zero row has exponent -128. -/
def widenRow (r : RowVal) : Int × List Int :=
  if r.exp = -128 || r.steps.all (· = 7) then (-128, r.codes.map fun _ => 0)
  else
    let e2 := max (r.exp - maxStep r.steps) (-127)
    (e2, (r.codes.zipIdx).map fun p =>
      if r.steps.getD (p.2 / 32) 0 = 7 then 0
      else shiftRne p.1 (r.exp - r.steps.getD (p.2 / 32) 0 - e2))

/-- Codes and scale of any row that is not raw, as a wide row. -/
def wideValue (r : RowVal) : Int × List Int :=
  if isNarrow r.fmt then widenRow r else (r.exp, r.codes)

end Sys2Proof.Machine
end

