-- ==== Sys2Proof/Machine/Quant.lean ====
section
/-! DEFINITION. The quantiser (R87 to R98): fitting, given scales, Q1, block steps, the counts of
Table 4-1 and the monitor records of R99 to R106. -/

namespace Sys2Proof.Machine

/-- How a fitted scale meets the floor (R75 to R77). -/
inductive FloorRule where
  | flush | hold
  deriving DecidableEq, Repr

/-- The outcome of a quantisation: the row and what Table 4-1 counts. -/
structure Quant where
  exp    : Int
  codes  : List Int
  steps  : List Nat
  clips  : List Bool
  sats   : List Bool
  zeroed : List Bool
  ceil   : Bool
  flush  : Bool
  deriving DecidableEq, Repr

def maxMag (xs : List Int) : Nat := xs.foldl (fun m x => max m x.natAbs) 0

/-- The smallest E with rne(m * 2^(x - E)) at most M, for a code of `n` bits (R88). -/
def fitExp (n m : Nat) (x : Int) : Int :=
  let e0 := x + (Nat.log2 m : Int) - ((n : Int) - 2)
  if shiftRne m (x - e0) ≤ 2 ^ (n - 1) - 1 then e0 else e0 + 1

/-- `sat` of R87, with its mark. -/
def satCode (m q : Int) : Int × Bool :=
  if m < q then (m, true) else if q < -m then (-m, true) else (q, false)

/-- The step of a block (R89): the largest that fits, 0 when none does. -/
def pickStep (m : Int) (mb : Nat) (x e : Int) : Nat → Nat
  | 0 => 0
  | s + 1 => if shiftRne mb (x - e + (s + 1 : Nat)) ≤ m then s + 1 else pickStep m mb x e s

/-- One block under R89: step, clip mark and codes with their saturation marks. -/
def quantBlock (f : Nat) (x e : Int) (xs : List Int) : Nat × Bool × List (Int × Bool) :=
  if maxMag xs = 0 then (7, false, xs.map fun _ => (0, false))
  else
    let s := pickStep (maxCode f) (maxMag xs) x e 6
    let qs := xs.map fun v => satCode (maxCode f) (shiftRne v (x - e + s))
    if qs.all (fun q => q.1 = 0) then (7, false, qs)
    else (s, qs.any (·.2), qs)

/-- The exponent nearest the mean magnitude of a Q1 block, ties upward, on inputs of exponent `x`
(R90): a >= 1.5 * 2^f exactly when 2 * sum >= 3 * count * 2^(f - x). -/
def q1BlockExp (x : Int) (xs : List Int) : Int :=
  let t := (xs.map Int.natAbs).sum
  let n := xs.length
  let f0 : Int := (Nat.log2 t : Int) - (Nat.log2 n : Int)
  let le := fun (k : Int) => if 0 ≤ k then n * 2 ^ k.toNat ≤ t else n ≤ t * 2 ^ (-k).toNat
  let f := if le f0 then f0 else f0 - 1
  let up := if 0 ≤ f then 3 * n * 2 ^ f.toNat ≤ 2 * t else 3 * n ≤ 2 * t * 2 ^ (-f).toNat
  (if up then f + 1 else f) + x

def blocksOf (xs : List Int) : List (List Int) := groupsOf 32 (ceilDiv xs.length 32) xs

def clampStep (k : Int) : Nat := (max 0 (min 6 k)).toNat

/-- A row of zeros of `n` elements, with the given zeroed marks. -/
def zeroQuant (f : Nat) (zs : List Bool) (flush : Bool) : Quant :=
  let n := zs.length
  let nb := if isNarrow f then ceilDiv n 32 else 0
  ⟨-128, List.replicate n 0, List.replicate nb 7, List.replicate nb false, List.replicate n false, zs,
    false, flush⟩

/-- Codes under an exponent that is settled: wide codes, narrow blocks, or Q1 signs (R88 to R91). -/
def encodeUnder (f : Nat) (x e : Int) (xs : List Int) (ceil : Bool) : Quant :=
  if isWide f then
    let qs := xs.map fun v => satCode (maxCode f) (shiftRne v (x - e))
    ⟨e, qs.map (·.1), [], [], qs.map (·.2), (xs.zip qs).map fun p => p.1 != 0 && p.2.1 = 0, ceil, false⟩
  else if f = 1 then
    let ss := (blocksOf xs).map fun b => if maxMag b = 0 then 7 else clampStep (e - q1BlockExp x b)
    ⟨e, (xs.zipIdx).map fun p => if ss.getD (p.2 / 32) 7 = 7 then 0 else if 0 ≤ p.1 then 1 else -1,
      ss, ss.map fun _ => false, xs.map fun _ => false, xs.map fun _ => false, ceil, false⟩
  else
    let bs := (blocksOf xs).map (quantBlock f x e)
    let qs := bs.flatMap (·.2.2)
    ⟨e, qs.map (·.1), bs.map (·.1), bs.map (·.2.1), qs.map (·.2),
      (xs.zip qs).map fun p => p.1 != 0 && p.2.1 = 0, ceil, false⟩

/-- The exponent a fit asks for, before ceiling and floor; none for a zero row. -/
def wantedExp (f : Nat) (x : Int) (xs : List Int) : Option Int :=
  if maxMag xs = 0 then none
  else if f = 1 then
    (((blocksOf xs).filter fun b => maxMag b != 0).map (q1BlockExp x)).max?
  else some (fitExp (codeBits f) (maxMag xs) x)

/-- A fit (R88, R90) of inputs `xs * 2^x`. A flushed Q1 element is never counted as zeroed. -/
def quantFit (f : Nat) (floor : FloorRule) (x : Int) (xs : List Int) : Quant :=
  match wantedExp f x xs with
  | none => zeroQuant f (xs.map fun _ => false) false
  | some e =>
    if 127 < e then encodeUnder f x 127 xs true
    else if e < -127 then
      match floor with
      | .flush => zeroQuant f (xs.map fun v => v != 0 && f != 1) true
      | .hold => encodeUnder f x (-127) xs false
    else encodeUnder f x e xs false

/-- A given scale (R91). -/
def quantGiven (f : Nat) (e x : Int) (xs : List Int) : Quant :=
  if maxMag xs = 0 then zeroQuant f (xs.map fun _ => false) false else encodeUnder f x e xs false

def countTrue (l : List Bool) : Nat := (l.filter id).length

def Quant.row (q : Quant) (f : Nat) (lane : Bool) : List Byte :=
  encodeRow f lane q.exp q.codes q.steps q.clips

/-- The core registers of Table 4-1; the record of a ceiling names the layer and role (R93). -/
def countQuant (s : State) (i : Nat) (q : Quant) (layer role : Nat) : State :=
  let s := countQsat s i (countTrue q.sats)
  let s := countQzero s i (countTrue q.zeroed)
  let s := if q.ceil then
      let t := countQceil s i 1
      if getF s (CORE_QCEILCNT i) CORE_QCEILCNT_CEIL = 0 then
        makeRecord t (srcCore i) 0x101 [w64 (layer % 1024 + 1024 * (role % 16))]
      else t
    else s
  if q.flush then raiseFlushed s i else s

def floorOf (hold : Bool) : FloorRule := if hold then .hold else .flush

/-- The rule for a quantisation that the core issues now (R76, R78). -/
def floorRule (s : State) (i : Nat) : FloorRule := floorOf (floorMode s i)

/-! ## Layer control words (R105) -/

def jobWord (s : State) (k : Nat) : Nat := match s.job with
  | some j => (j.desc.getD k 0).toNat
  | none => 0

def jobSeed (s : State) : Nat := jobWord s 1
def jobLayers (s : State) : Nat := bitsOf 63 48 (jobWord s 4)
def layerEntry (s : State) (l : Nat) : Nat := jobWord s 5 + 64 * l

/-- The control word of a layer; the all-zero word where R105 gives none. -/
def controlWord (s : State) (l : Nat) : Nat :=
  if s.job.isSome && l < jobLayers s then (readWord s (layerEntry s l)).toNat else 0

/-- Address of the list block of a control word, none for LIST 0xFFFF or no control word. -/
def listBlock (s : State) (l : Nat) : Option Nat :=
  if s.job.isSome && l < jobLayers s && bitsOf 15 0 (controlWord s l) != 0xFFFF then
    some (jobWord s 15 + 640 * bitsOf 15 0 (controlWord s l))
  else none

/-- The valid channels of entries of Table 4-5 at an address, `n` of them at most. -/
def chanEntries (s : State) (a n : Nat) : List Nat :=
  (((List.range n).map fun k => ofLE (readBytes s (a + 2 * k) 2)).takeWhile (fun e => e / 2 ^ 15 = 1)).map
    (· % 4096)

/-- R94: contiguous, strictly ascending and below the row length. -/
def pithValid (s : State) (a len : Nat) : Bool :=
  let es := (List.range 64).map fun k => ofLE (readBytes s (a + 2 * k) 2)
  let vs := chanEntries s a 64
  (es.drop vs.length).all (fun e => e / 2 ^ 15 = 0) && vs.all (· < len)
    && (vs.zip (vs.drop 1)).all fun p => p.1 < p.2

def namedPith (s : State) (l : Nat) : List Nat := match listBlock s l with
  | some a => chanEntries s a 64
  | none => []

def namedMonitors (s : State) (l : Nat) : List Nat := match listBlock s l with
  | some a => chanEntries s (a + 128) 256
  | none => []

/-! ## Pith selection (R98) -/

def peakGet (j : Job) (l c : Nat) : Nat := (assocGet (4096 * l + c) j.peaks).getD 0

/-- The level of a channel: clamp(floor(log2 |x|) + 128, 1, 255). -/
def peakLevel (v x : Int) : Nat :=
  (max 1 (min 255 ((Nat.log2 v.natAbs : Int) + x + 128))).toNat

def raisePeaks (j : Job) (l : Nat) (x : Int) (xs : List Int) : Job :=
  { j with peaks := ((xs.zipIdx).filter fun p => p.1 != 0).foldl (fun t p =>
      assocSet (4096 * l + p.2) (max (peakLevel p.1 x) ((assocGet (4096 * l + p.2) t).getD 0)) t) j.peaks }

def insertBy {α : Type} (lt : α → α → Bool) (x : α) : List α → List α
  | [] => [x]
  | y :: ys => if lt x y then x :: y :: ys else y :: insertBy lt x ys

def sortBy {α : Type} (lt : α → α → Bool) (l : List α) : List α := l.foldr (insertBy lt) []

/-- `select_pith` of R98 from the levels (channel, level), the named channels, PITH_MAX and PITH_GAP. -/
def selectPith (levels : List (Nat × Nat)) (named : List Nat) (maxN gap : Nat) : List Nat :=
  if levels.isEmpty then sortBy (fun a b => a < b) named
  else
    let sorted := sortBy (fun a b => decide (a < b)) (levels.map (·.2))
    let med := sorted.getD ((sorted.length - 1) / 2) 0
    let cand := sortBy (fun a b => decide (a.2 > b.2) || (a.2 = b.2 && decide (a.1 < b.1)))
      (levels.filter fun p => decide (med + gap + 2 ≤ p.2) && !named.contains p.1)
    sortBy (fun a b => a < b) (named ++ (cand.take (maxN - named.length)).map (·.1))

/-- The pith set of a layer under its PITH_MODE (R97), formed once in a step from the peak table, which is
then cleared. -/
def formPith (s : State) (l : Nat) : State × List Nat :=
  let cw := controlWord s l
  match s.job with
  | none => (s, [])
  | some j =>
    match j.piths.find? (fun p => p.layer = l && p.step = j.step) with
    | some p => (s, p.chans)
    | none =>
      let mode := bitsOf 59 58 cw
      let named := if mode = 1 || mode = 3 then namedPith s l else []
      let levels := (j.peaks.filter fun p => p.1 / 4096 = l).map fun p => (p.1 % 4096, p.2)
      let set := if mode = 0 then [] else if mode = 1 then named
        else selectPith levels named (bitsOf 57 51 cw) (bitsOf 50 48 cw)
      ({ s with job := some { j with
          piths := ⟨l, j.step, set⟩ :: j.piths.filter (fun p => p.layer != l)
          peaks := if mode = 2 || mode = 3 then j.peaks.filter (fun p => p.1 / 4096 != l) else j.peaks } },
        set)

/-- A pith descriptor line (Table 4-5). -/
def pithLine (chans : List Nat) : List Byte :=
  (chans.take 64).flatMap (fun c => leBytes 2 (2 ^ 15 + c % 4096))
    ++ List.replicate (128 - 2 * (chans.take 64).length) 0

/-! ## Monitor records (R99 to R103) -/

/-- A field of a monitor record at core `i`, offset `a`: word `w`, bits `hi` to `lo`. -/
def monGet (s : State) (i a w hi lo : Nat) : Nat :=
  bitsOf hi lo (readWord s (csBase i + a + 8 * w)).toNat

def monPut (s : State) (i a w hi lo x : Nat) : State :=
  writeWord s (csBase i + a + 8 * w)
    (w64 (putBits hi lo (readWord s (csBase i + a + 8 * w)).toNat x))

/-- A saturating addition to an unsigned field. -/
def monAdd (s : State) (i a w hi lo n : Nat) : State :=
  monPut s i a w hi lo (satAdd (2 ^ (hi + 1 - lo) - 1) (monGet s i a w hi lo) n)

def monEntries (s : State) (i a : Nat) : Nat := min 256 (monGet s i a 4 54 46)

/-- R100: the channels of a record: the pith set for roles 0 and 1, then the named list, none twice. -/
def monitorList (role : Nat) (pith named : List Nat) : List (Nat × Bool) :=
  let ps := if role = 0 || role = 1 then pith else []
  ps.map (fun c => (c, true)) ++
    ((named.foldl (fun acc c => if acc.contains c then acc else acc ++ [c]) ps).drop ps.length).map
      fun c => (c, false)

/-- Entries placed with zero counts; those beyond 256 are dropped and reported once (R100). -/
def placeEntries (s : State) (i a layer role : Nat) (l : List (Nat × Bool)) : State :=
  let kept := l.take 256
  let s := writeWords s (csBase i + a + 64) (kept.map fun p => w64 (p.1 % 4096 + (if p.2 then 2 ^ 15 else 0)))
  let s := monPut s i a 4 54 46 kept.length
  if 256 < l.length then
    makeRecord s (srcCore i) 0x102
      [w64 (layer % 1024 + 1024 * (role % 16) + 2 ^ 16 * ((l.length - 256) % 2 ^ 16))]
  else s

/-- R101: the counts of an entry, halved before an addition that would pass 65,535. -/
def bumpEntry (w : Nat) (nz sat zr : Nat) : Nat :=
  let z := bitsOf 63 48 w
  let t := bitsOf 47 32 w
  let n := bitsOf 31 16 w
  let big := 65535 < z + zr || 65535 < t + sat || 65535 < n + nz
  let h := fun v : Nat => if big then v / 2 else v
  (h z + zr) * 2 ^ 48 + (h t + sat) * 2 ^ 32 + (h n + nz) * 2 ^ 16 + w % 2 ^ 16

/-- One count for each entry, from the channel of the entry and whether it is a pith entry. -/
def bumpEntries (s : State) (i a : Nat) (f : Nat → Bool → Option (Nat × Nat × Nat)) : State :=
  (List.range (monEntries s i a)).foldl (fun s k =>
    let ad := csBase i + a + 64 + 8 * k
    let w := (readWord s ad).toNat
    match f (w % 4096) (bitsOf 15 15 w = 1) with
    | some (nz, sat, zr) => writeWord s ad (w64 (bumpEntry w nz sat zr))
    | none => s) s

/-- The level of R103, none for a row that has no level. -/
def rowLevel (x : Int) (xs : List Int) : Option Int :=
  let q := quantFit 0x10 .hold x xs
  let t := (q.codes.map fun c => c.natAbs * c.natAbs).sum
  if t = 0 then none else some ((Nat.log2 t : Int) + 2 * q.exp)

def addLevel (s : State) (i a : Nat) (lv : Int) : State :=
  let rows := monGet s i a 2 31 16
  let sum := sext 32 (monGet s i a 2 63 32) + lv
  let top := if rows = 0 then lv else max (sext 16 (monGet s i a 2 15 0)) lv
  let s := monPut s i a 2 63 32 (wrapBits 32 sum)
  let s := monPut s i a 2 15 0 (wrapBits 16 top)
  monAdd s i a 2 31 16 1

end Sys2Proof.Machine
end

