-- ==== Sys2Proof/Machine/Domains.lean ====
section
/-! DEFINITION. Control domains: switching, self-test and core retirement (R24 to R32, R378, R379, R402,
R406, R407). -/

namespace Sys2Proof.Machine

/-! ## What a domain needs to leave -/

def coreHoldsTask (s : State) (i : Nat) : Bool := (coreAt s i).task.isSome || (coreAt s i).ended.isSome

def domainIdle (s : State) (u : Nat) : Bool := (domCores u).all fun i => !coreHoldsTask s i

/-- No anvil of the domain is active. -/
def domainAnvilsIdle (s : State) (u : Nat) : Bool :=
  (domCores u).all fun i => (coreAt s i).anvils.all fun a => a.ramp = .idle

def hearthsOfHalf (half : Nat) : List Nat := (List.range 8).map (8 * half + ·)

/-- R26: without the domain, some hearth of its half that has a core in service would have none. -/
def wouldStrand (s : State) (u : Nat) : Bool :=
  (hearthsOfHalf (u / 8)).any fun h =>
    hearthInService s h && (hearthCoreIds h).all fun i => !inService s i || domOf i = u

/-- One self-test at a time in a half (R27); a forced window counts as one (R48). -/
def testRuns (s : State) (half : Nat) : Bool :=
  (List.range 8).any fun d =>
    let x := domainAt s (8 * half + d)
    x.testing || x.target = some .test || x.target = some .window || domState s (8 * half + d) = domTest

/-- A measurement window counts as a transition for the commands that arrive in it (log entry 172). -/
def inTransition (s : State) (u : Nat) : Bool :=
  (domainAt s u).target.isSome || (domainAt s u).clearing || (domainAt s u).window.isSome || domState s u = domTest

def modDomain (s : State) (u : Nat) (f : Domain → Domain) : State := setDomain s u (f (domainAt s u))

def addPending (s : State) (u : Nat) (c : DomCmd) : State :=
  modDomain s u fun d => { d with pending := if d.pending.contains c then d.pending else d.pending ++ [c] }

/-! ## Starting a transition -/

/-- A request that R26 holds; its record is written once while it is held. -/
def holdCmd (s : State) (u : Nat) (c : DomCmd) : State :=
  if (domainAt s u).held.contains c then s
  else
    makeRecord (modDomain s u fun d => { d with held := d.held ++ [c] }) (srcStriker (u / 8)) 0x080
      [w64 (u + (if c = .off then 0 else 2 ^ 8))]

/-- The domain goes Leaving, towards Off or Test. -/
def beginLeaving (s : State) (u : Nat) (c : DomCmd) : State :=
  modDomain (setDomState s u domLeaving) u fun d => { d with target := some c }

def enterTest (s : State) (u : Nat) (c : DomCmd) : State :=
  modDomain (setDomState s u domTest) u fun d =>
    { d with target := none, testing := c = .test, window := some true }

/-- The domain is On; its core stores are cleared before a task or an access reaches them (R253). -/
def beginOn (s : State) (u : Nat) : State :=
  modDomain (setDomState s u domOn) u fun d =>
    { d with target := none, testing := false, window := none, clearing := true }

/-- A command with no transition in progress in its domain. -/
def startCmd (s : State) (u : Nat) (c : DomCmd) : State :=
  match c with
  | .on => if domState s u = domOff then beginOn s u else s
  | .off =>
    if domState s u != domOn then s
    else if wouldStrand s u then holdCmd s u .off
    else beginLeaving s u .off
  | c =>
    if testRuns s (u / 8) then addPending s u c
    else if domState s u = domOff then (if c = .test then enterTest s u .test else s)
    else if domState s u != domOn then s
    else if wouldStrand s u then holdCmd s u c
    else beginLeaving s u c

/-- R27: a command waits while a transition is in progress. -/
def domCommand (s : State) (u : Nat) (c : DomCmd) : State :=
  if inTransition s u || quenched s then addPending s u c else startCmd s u c

/-- Precedence of R27 after a quench. -/
def cmdRank : DomCmd → Nat
  | .off => 0
  | .test => 1
  | .window => 1
  | .on => 2

/-- Commands in their order of precedence; those of one rank keep their order of arrival. -/
def byRank (l : List DomCmd) : List DomCmd :=
  l.filter (cmdRank · = 0) ++ l.filter (cmdRank · = 1) ++ l.filter (cmdRank · = 2)

/-- Commands are taken in turn until one starts a transition or goes on waiting. A command that finds nothing to
do, such as switching off a domain that is Off, makes way for the next. -/
def takeCmds (u : Nat) : List DomCmd → State → State
  | [], s => s
  | c :: cs, s =>
    if inTransition s u || quenched s then s
    else
      let t := startCmd (modDomain s u fun d => { d with pending := d.pending.erase c }) u c
      if (domainAt t u).pending.contains c then t else takeCmds u cs t

/-- The pending commands of a domain whose transition is over (R27). -/
def takePending (s : State) (u : Nat) : State := takeCmds u (byRank (domainAt s u).pending) s

/-- Commands that R26 held join the pending ones when a domain of the half returns to service, and all are taken in
their order of precedence; tests that waited for the one test of the half are taken with them. -/
def retryDomain (s : State) (u : Nat) : State :=
  if wouldStrand s u || quenched s then takePending s u
  else
    takePending (modDomain s u fun d => { d with held := [], pending := d.held.filter (!d.pending.contains ·) ++ d.pending }) u

def retryHalf (s : State) (half : Nat) : State :=
  ((List.range 8).map (8 * half + ·)).foldl retryDomain s

/-! ## Retirement (R378, R379, R32) -/

def queueMoveTarget (s : State) (h : Nat) : Option Nat :=
  if hearthInService s (h ^^^ 1) then some (h ^^^ 1)
  else (hearthsOfHalf (h / 8)).find? (hearthInService s)

/-- R32: the ready queue of a hearth left with no core in service moves; with no hearth in service in the
half the device is wedged. -/
def moveReady (s : State) (h : Nat) : State :=
  if hearthInService s h then s
  else match queueMoveTarget s h with
    | some k =>
      let ts := (hearthAt s h).ready
      modHearth (modHearth s h fun x => { x with ready := [] }) k fun x => { x with ready := x.ready ++ ts }
    | none => wedge s 1 h 0

/-- A threshold of R379; 129 to 255 are taken as 128. -/
def threshold (x : Nat) : Nat := min 128 x

def retireThresholds (s : State) : State :=
  let n := retiredCount s
  let s := if n = threshold (getF s SURV_CTL SURV_CTL_SVC_CORES) then serviceNotice (serviceStanding s) else s
  if n = threshold (getF s SURV_CTL SURV_CTL_EVICT_CORES) then { s with surv := { s.surv with leave := true } }
  else s

/-- The core leaves service: its bit, DEGRADED, the retirement record of the flash and of the recorder. -/
def retireCore (s : State) (i cause : Nat) : State :=
  if coreRetired s i then s
  else
    let a := DEV_CORE_RETIRED (i / 32)
    let s := setR s a (getR s a ||| BitVec.ofNat 32 (2 ^ (i % 32)))
    let s := putF s DEV_STATUS DEV_STATUS_DEGRADED 1
    let s := putF s SURV_CNT2 SURV_CNT2_RETIRED (retiredCount s)
    let s := { s with boot := { s.boot with retireCauses := assocSet i cause s.boot.retireCauses } }
    let s := modCore s i fun c => { c with retireDue := none }
    let s := makeRecord (saveRetirement s) srcSmith 0x086 [w64 (i + cause * 2 ^ 8)]
    moveReady (retireThresholds s) (hearthOf i)

/-- R378: retirement is due, and takes effect on the beat the core holds no task. -/
def dueRetire (s : State) (i cause : Nat) : State :=
  modCore s i fun c => { c with retireDue := c.retireDue.or (some cause) }

/-! ## The commands -/

/-- R28, R390: switching off for a power cap. -/
def execDomainSwitchOff (dom : DomId) (s : State) : Host.Outcome State Fault Refusal :=
  .next (domCommand s dom.val .off)

/-- R406: a self-test. -/
def execDomainSelfTestStart (dom : DomId) (s : State) : Host.Outcome State Fault Refusal :=
  .next (domCommand s dom.val .test)

/-- R27: switching on. -/
def execDomainSwitchOn (dom : DomId) (s : State) : Host.Outcome State Fault Refusal :=
  .next (domCommand s dom.val .on)

/-- The second stage of R28; a domain in Leaving completes its leaving after a quench (R402). -/
def domainLeft (s : State) (u : Nat) : State :=
  if domState s u != domLeaving || !domainIdle s u || quenched s then s
  else match (domainAt s u).target with
    | some .off => takePending (modDomain (setDomState s u domOff) u fun d => { d with target := none }) u
    | some c => enterTest s u c
    | none => s

def execDomainLeft (dom : DomId) (s : State) : Host.Outcome State Fault Refusal :=
  .next (domainLeft s dom.val)

/-- R221: the program image of the job stands at offset 0 of a core store. -/
def loadImage (s : State) (i : Nat) : State :=
  if s.job.isNone || coreRetired s i then s
  else
    let r := memRead s (jobWord s 8) (bitsOf 63 32 (jobWord s 9))
    writeBytes r.1 (csBase i) r.2.2

/-- R253: the core stores of the domain are zero, with valid check bits; a core that returns receives the image. -/
def clearDone (s : State) (u : Nat) : State :=
  if !(domainAt s u).clearing then s
  else
    let s := (domCores u).foldl (fun s i => zeroBytes s (csBase i) windowSize) s
    let s := (domCores u).foldl loadImage s
    retryHalf (modDomain s u fun d => { d with clearing := false }) (u / 8)

def execCoreStoreClearDone (dom : DomId) (s : State) : Host.Outcome State Fault Refusal :=
  .next (clearDone s dom.val)

/-- Part codes of record 0x085: 1 anvil, 2 vector, 3 core store, 4 sequencer. -/
def selfTestFail (u : Nat) (s : State) (f : HearthId × Fin 4) : State :=
  let i := 64 * (u / 8) + 8 * (f.1.val % 8) + u % 8
  let s := satF s PWR_TEST PWR_TEST_FAILS 1
  let s := makeRecord s (srcStriker (u / 8)) 0x085 [w64 (i + (f.2.val + 1) * 2 ^ 8)]
  retireCore s i 4

/-- R406, R407: the tests end, failing cores are retired and the domain is switched On. -/
def selfTestComplete (s : State) (u : Nat) (failed : List (HearthId × Fin 4)) : State :=
  let d := domainAt s u
  if domState s u != domTest || !d.testing || d.window.isSome || quenched s then s
  else
    let s := failed.foldl (selfTestFail u) s
    beginOn (putF s PWR_TEST PWR_TEST_LASTDOM u) u

def execDomainSelfTestComplete (dom : DomId) (failed : List (HearthId × Fin 4)) (s : State) :
    Host.Outcome State Fault Refusal :=
  .next (selfTestComplete s dom.val failed)

/-- R378: the beat on which a core due for retirement holds no task. -/
def coreRetireNow (s : State) (i : Nat) : State :=
  match (coreAt s i).retireDue with
  | some cause => if coreHoldsTask s i then s else retireCore s i cause
  | none => s

def execCoreRetire (core : CoreId) (s : State) : Host.Outcome State Fault Refusal :=
  .next (coreRetireNow s core.val)

end Sys2Proof.Machine
end

