-- ==== Sys2Proof/Machine/Operands.lean ====
section
/-! DEFINITION. How an instruction issues (R172 to R183): the fields it uses, the registers a context names
(R177), the predicate, the program counter with the loop stack (R190), signal counters (R183, R186) and
entry into a queue. -/

namespace Sys2Proof

/-- Bits of MOD under the numbering of the tables, 110 to 104. -/
def Fields.modBits (f : Fields) (hi lo : Nat) : Nat := Machine.bitsOf (hi - 104) (lo - 104) f.mod.toNat
def Fields.subBits (f : Fields) (hi lo : Nat) : Nat := Machine.bitsOf hi lo f.sub.toNat
def Fields.immBits (f : Fields) (hi lo : Nat) : Nat := Machine.bitsOf hi lo f.imm.toNat

end Sys2Proof

namespace Sys2Proof.Machine

/-! ## Fields an instruction uses (R181) -/

inductive RegUse where
  | none | g | v | p
  /-- A p register as destination: p0 is illegal (R175). -/
  | pd
  deriving DecidableEq, Repr

/-- The bits of MOD, SUB and IMM that an instruction uses, and what its register fields name. -/
structure Shape where
  mod : Nat := 0
  sub : Nat := 0
  imm : Nat := 0
  d : RegUse := .none
  a : RegUse := .none
  b : RegUse := .none
  c : RegUse := .none
  deriving DecidableEq, Repr

/-- Bits `hi` to `lo` set. -/
def maskBits (hi lo : Nat) : Nat := 2 ^ (hi + 1) - 2 ^ lo

def imm64 : Nat := 2 ^ 64 - 1

/-- A register field is in range for the register it names; an unused field must be 0. -/
def regFieldOk (split : Bool) (u : RegUse) (n : Nat) : Bool :=
  match u with
  | .none => n = 0
  | .g => n < (if split then 16 else 32)
  | .v => n < (if split then 32 else 64)
  | .p => n < (if split then 4 else 8)
  | .pd => n < (if split then 4 else 8) && n != 0

def onlyBits (v mask : Nat) : Bool := v &&& mask = v

/-- The words were read without error, only bits that the instruction uses are set, and every register is in range. -/
def fieldsOk (split : Bool) (sh : Shape) (f : Fields) : Bool :=
  !f.fetchBad && onlyBits f.mod.toNat sh.mod && onlyBits f.sub.toNat sh.sub && onlyBits f.imm.toNat sh.imm
    && regFieldOk split sh.d f.d.toNat && regFieldOk split sh.a f.a.toNat
    && regFieldOk split sh.b f.b.toNat && regFieldOk split sh.c f.c.toNat
    && regFieldOk split .p f.pred.toNat && (!split || f.sigc.toNat < 8)

/-- A mask of MOD bits under the same numbering. -/
def modMask (hi lo : Nat) : Nat := maskBits (hi - 104) (lo - 104)

/-! ## Registers of a context (R175, R177) -/

def physG (split : Bool) (k : CtxId) (n : Nat) : Nat := if split then 16 * k.val + n else n
def physV (split : Bool) (k : CtxId) (n : Nat) : Nat := if split then 32 * k.val + n else n
def physP (split : Bool) (k : CtxId) (n : Nat) : Nat := if split then 4 * k.val + n else n
def physSc (split : Bool) (k : CtxId) (n : Nat) : Nat := if split then 8 * k.val + n else n

/-- g0 reads as 0. -/
def readG (s : State) (i : Nat) (k : CtxId) (n : Nat) : Word64 :=
  if n = 0 then 0 else (coreAt s i).g.getD (physG (isSplit s i) k n) 0

/-- A write to g0 is discarded. -/
def writeG (s : State) (i : Nat) (k : CtxId) (n : Nat) (v : Word64) : State :=
  if n = 0 then s
  else modCore s i fun c => { c with g := c.g.set (physG (isSplit s i) k n) v }

/-- p0 reads as 1. -/
def readP (s : State) (i : Nat) (k : CtxId) (n : Nat) : Bool :=
  if n = 0 then true else (coreAt s i).p.toNat.testBit (physP (isSplit s i) k n)

def writeP (s : State) (i : Nat) (k : CtxId) (n : Nat) (v : Bool) : State :=
  modCore s i fun c => { c with
    p := BitVec.ofNat 8 (putBits (physP (isSplit s i) k n) (physP (isSplit s i) k n) c.p.toNat
      (if v then 1 else 0)) }

def readSc (s : State) (i n : Nat) : Nat := ((coreAt s i).sc.getD n 0).toNat
def writeSc (s : State) (i n v : Nat) : State :=
  modCore s i fun c => { c with sc := c.sc.set n (BitVec.ofNat 32 v) }

/-! ## Signal counters (R183, R186) -/

/-- An addition to a counter; one that would pass 0xFFFF_FFFF raises the counter fault and leaves the
counter unchanged. -/
def addCounter (s : State) (i : Nat) (k : CtxId) (n add queue pc : Nat) (precise : Bool) : State :=
  if 0xFFFFFFFF < readSc s i n + add then faultAbort s i k queue faultCounter pc precise
  else writeSc s i n (readSc s i n + add)

/-- Completion of an instruction signals when SIGEN is 1 (R183). -/
def signalDone (s : State) (i : Nat) (k : CtxId) (sigen : Bool) (sigc queue pc : Nat) : State :=
  if sigen then addCounter s i k (physSc (isSplit s i) k sigc) 1 queue pc false else s

/-! ## Program counters and loops (R190) -/

def ctxAt (s : State) (i : Nat) (k : CtxId) : Ctx := (coreAt s i).ctx k
def setCtxAt (s : State) (i : Nat) (k : CtxId) (x : Ctx) : State := modCore s i (·.setCtx k x)

/-- After the instruction at `pc` issues without a taken branch: every innermost loop that ends there is
decremented, popped at 0, and its body entered again otherwise. Entries stand innermost first. -/
def loopStep (pc : Nat) : List LoopEntry → Nat × List LoopEntry
  | [] => ((pc + 16) % 2 ^ 21, [])
  | e :: rest =>
    if e.stop = pc then
      if e.count - 1 = 0 then loopStep pc rest
      else (e.start, { e with count := e.count - 1 } :: rest)
    else ((pc + 16) % 2 ^ 21, e :: rest)

def advance (s : State) (i : Nat) (k : CtxId) : State :=
  let x := ctxAt s i k
  let r := loopStep x.pc x.loops
  setCtxAt s i k { x with pc := r.1, loops := r.2 }

/-- A taken branch pops every entry whose body does not contain the target. -/
def branchTo (s : State) (i : Nat) (k : CtxId) (target : Nat) : State :=
  let x := ctxAt s i k
  setCtxAt s i k { x with
    pc := target, loops := x.loops.filter fun e => e.start ≤ target && target ≤ e.stop }

/-! ## Issue -/

/-- A context issues while it runs, is held at nothing and no quench stands (R172, R188, R211). -/
def canIssue (s : State) (i : Nat) (k : CtxId) : Bool :=
  (ctxAt s i k).stat = .running && (ctxAt s i k).hold = .none && !quenched s
    && (k = 0 || isSplit s i)

def predicate (s : State) (i : Nat) (k : CtxId) (f : Fields) : Bool :=
  readP s i k f.pred.toNat != f.pneg

def opVmovg : Nat := 0x4E
def opFatom : Nat := 0xA3

/-- g registers whose write by an entry is outstanding (R176): VMOVG in the vector queue and FATOM in the
fabric queue; LDG, RDTIME and RDREG write at issue in this model. -/
def pendingG (s : State) (i : Nat) (k : CtxId) : List Nat :=
  (((coreAt s i).vec.filter fun e => e.op = opVmovg && !e.finished && !e.off && e.ctx = k)
    ++ ((coreAt s i).fab.filter fun e => e.op = opFatom && !e.finished && !e.off && e.ctx = k)).map
      fun e => e.f.d.toNat

/-- An instruction that names a g register with a write outstanding waits at issue. -/
def gHazard (s : State) (i : Nat) (k : CtxId) (sh : Shape) (f : Fields) : Bool :=
  let p := (pendingG s i k).filter (· != 0)
  (sh.d = .g && p.contains f.d.toNat) || (sh.a = .g && p.contains f.a.toNat)
    || (sh.b = .g && p.contains f.b.toNat) || (sh.c = .g && p.contains f.c.toNat)

/-- A fault raised at issue: precise, QUEUE 0. -/
def issueFault (s : State) (i : Nat) (k : CtxId) (code : Nat) : State :=
  faultAbort s i k 0 code (ctxAt s i k).pc true

/-- A control instruction completes at issue: it signals and the program counter moves on. -/
def completeCtl (s : State) (i : Nat) (k : CtxId) (f : Fields) : State :=
  signalDone (advance s i k) i k f.sigen f.sigc.toNat 0 (ctxAt s i k).pc

/-- The fault of an instruction that is not legal, or whose words could not be read (Table 9-3). -/
def badFault (f : Fields) : Nat := if f.fetchBad then faultCsRead else faultIllegal

/-- Issue of a control instruction (R181, R182): illegal fields fault; a false predicate completes it with
no effect; an outstanding g write holds it; else `body` is its effect. -/
def issueCtl (s : State) (i : Nat) (k : CtxId) (f : Fields) (sh : Shape) (legal : Bool)
    (body : State → State) : State :=
  if !canIssue s i k then s
  else if !(fieldsOk (isSplit s i) sh f && legal) then issueFault s i k (badFault f)
  else if !predicate s i k f then completeCtl s i k f
  else if gHazard s i k sh f then s
  else body s

/-- A queue entry as it is formed at issue, its g operands read (R176). -/
def newEntry (s : State) (i : Nat) (k : CtxId) (op : Nat) (f : Fields) (off : Bool)
    (ecc : Bool := false) : QEntry :=
  { qid := (coreAt s i).nextQid, op := op, f := f, pc := (ctxAt s i k).pc, ctx := k, off := off
    ga := readG s i k f.a.toNat, gb := readG s i k f.b.toNat, gc := readG s i k f.c.toNat
    gd := readG s i k f.d.toNat, started := false, finished := false, high := [], awaits := 0, ecc := ecc || f.dataBad, buf := []
    begun := 0, ended := 0, pos := 0, hold := floorMode s i }

def enqueue (s : State) (i : Nat) (k : CtxId) (q : Queue) (e : QEntry) : State :=
  advance (modCore s i fun c =>
    { c.setQueue q (c.queue q ++ [e]) with nextQid := c.nextQid + 1 }) i k

/-- Issue of an instruction into a queue. `check` names the fault found at issue, if any; it is not
evaluated under a false predicate, when the entry is empty (R182). -/
def issueQ (s : State) (i : Nat) (k : CtxId) (q : Queue) (op : Nat) (f : Fields) (sh : Shape)
    (legal : Bool) (check : QEntry → Option Nat) (ecc : Bool := false) : State :=
  if !canIssue s i k then s
  else if !(fieldsOk (isSplit s i) sh f && legal) then issueFault s i k (badFault f)
  else if queueSize (isSplit s i) q ≤ ((coreAt s i).queue q).length then s
  else if !predicate s i k f then enqueue s i k q (newEntry s i k op f true)
  else if gHazard s i k sh f then s
  else match check (newEntry s i k op f false) with
    | some code => issueFault s i k code
    | none => enqueue s i k q (newEntry s i k op f false ecc)

/-- The lane of a context (R177). -/
def laneOf (s : State) (i : Nat) (k : CtxId) : Queue :=
  if isSplit s i && k = 1 then .anv1 else .anv0

/-! ## Operands of moves (R200, R459) -/

def csSize : Nat := 0x200000

/-- An offset and length that stay inside core store. -/
def csRangeOk (off len : Nat) : Bool := off + len ≤ csSize

/-- The first fault of a core-store operand address that must be aligned. -/
def csCheck (off len al : Nat) : Option Nat :=
  if off % al != 0 then some faultAlign
  else if !csRangeOk off len then some faultAddress
  else none

def firstFault : List (Option Nat) → Option Nat
  | [] => none
  | some c :: _ => some c
  | none :: rest => firstFault rest

/-- A fault when a condition holds. -/
def faultIf (b : Bool) (code : Nat) : Option Nat := if b then some code else none

end Sys2Proof.Machine
end

