-- ==== Sys2Proof/Machine/MovesRun.lean ====
section
/-! DEFINITION. The move instructions as the tongs run them (R200, R201): places, row words, layouts,
and transfers to and from other nodes (R280). -/

namespace Sys2Proof.Machine

/-! ## Places (Table 7-13) -/

/-- Where an address lies: in core store, in the device's own memory, or at another node. -/
inductive Place where
  | cs (off : Nat)
  | mem (a : Nat)
  | node (n a : Nat)
  deriving DecidableEq, Repr

def placeOf (s : State) (space : Nat) (v : Word64) : Place :=
  if space = 1 then .cs v.toNat
  else if space = 0 then .mem v.toNat
  else if v.toNat / 2 ^ 48 = ownNode s then .mem (v.toNat % 2 ^ 48)
  else .node (v.toNat / 2 ^ 48) (v.toNat % 2 ^ 48)

/-- The address fault of a range that leaves its space (R200). -/
def spaceBad (space : Nat) (v : Word64) (n : Nat) : Bool :=
  if space = 1 then !csRangeOk v.toNat n
  else if space = 0 then 2 ^ 48 < v.toNat + n
  else 2 ^ 48 < v.toNat % 2 ^ 48 + n

def Place.add : Place → Nat → Place
  | .cs a, n => .cs (a + n)
  | .mem a, n => .mem (a + n)
  | .node k a, n => .node k (a + n)

/-- R273: YLP reaches nodes of the device's own domain only. -/
def nodeReachable (s : State) (n : Nat) : Bool := n / 2 ^ 12 = ownNode s / 2 ^ 12

def accFault : Acc → Option Nat
  | .ok => none
  | .unassigned => some faultAddress
  | .poison => some faultPoison

/-- A read of the core's own side of a transfer. -/
def readPlace (s : State) (i : Nat) (p : Place) (n : Nat) : State × Option Nat × List Byte :=
  match p with
  | .cs off => (s, none, readBytes s (csBase i + off) n)
  | .mem a => let r := memRead s a n; (r.1, accFault r.2.1, r.2.2)
  | .node _ _ => (s, some faultFabric, [])

def writePlace (s : State) (i : Nat) (p : Place) (bs : List Byte) : State × Option Nat :=
  match p with
  | .cs off => (writeBytes s (csBase i + off) bs, none)
  | .mem a => let r := memWrite s a bs; (r.1, accFault r.2)
  | .node _ _ => (s, some faultFabric)

/-! ## Entries -/

/-- The entry awaits so many parts. -/
def setAwaits (s : State) (i : Nat) (q : Queue) (qid n : Nat) : State :=
  setEntry s i q qid fun e => { e with awaits := n }

def insnOwner (i : Nat) (q : Queue) (qid : Nat) : Owner :=
  if h : i < 128 then .insn ⟨i, h⟩ q qid else .line

/-- The data an entry has received, in order of its place. -/
def entryData (e : QEntry) : List Byte := e.buf.flatMap (·.2)

/-! ## Row words of moves (R201) -/

structure MoveWord where
  bytes : Nat
  rows  : Nat
  deriving DecidableEq, Repr

def moveWordOf (v : Word64) : MoveWord := ⟨bitsOf 31 0 v.toNat, bitsOf 47 32 v.toNat⟩

def moveWordBad (v : Word64) : Bool :=
  let w := moveWordOf v
  bitsOf 63 48 v.toNat != 0 || w.bytes = 0 || w.bytes % 8 != 0 || w.rows = 0

def mcopyLayout (f : Fields) : Nat := f.modBits 110 109
def mcopySrcSpace (f : Fields) : Nat := f.modBits 108 107
def mcopyDstSpace (f : Fields) : Nat := f.modBits 106 105
def srcStride (f : Fields) : Nat := f.immBits 63 32
def dstStride (f : Fields) : Nat := f.immBits 31 0

/-- MCOPY copies from [gA] to [gB], as every two-address instruction of Tables 7-14 and 7-15 does (log entry
32). -/
def mcopyLegal (f : Fields) : Bool :=
  mcopyLayout f != 3 && mcopySrcSpace f != 3 && mcopyDstSpace f != 3
    && !(mcopySrcSpace f = 2 && mcopyDstSpace f = 2)
    && (mcopyLayout f != 1 || mcopyDstSpace f = 1) && (mcopyLayout f != 2 || mcopySrcSpace f = 1)

/-- Bytes from the first byte of the first row to the last byte of the last. -/
def spanOf (w : MoveWord) (stride : Nat) : Nat := (w.rows - 1) * stride + w.bytes

/-- Alignment of a side: 8 bytes, and 128 bytes with whole lines per row for a global side. -/
def sideMisaligned (space : Nat) (v : Word64) (w : MoveWord) (stride : Nat) : Bool :=
  v.toNat % 8 != 0 || stride % 8 != 0
    || (space = 2 && (v.toNat % 128 != 0 || w.bytes % 128 != 0))

/-- The faults of MCOPY found at issue. -/
def mcopyCheck (e : QEntry) : Option Nat :=
  let w := moveWordOf e.gc
  firstFault [
    faultIf (moveWordBad e.gc) faultFormat,
    faultIf (sideMisaligned (mcopySrcSpace e.f) e.ga w (srcStride e.f)
      || sideMisaligned (mcopyDstSpace e.f) e.gb w (dstStride e.f)) faultAlign,
    faultIf (spaceBad (mcopySrcSpace e.f) e.ga (spanOf w (srcStride e.f))
      || spaceBad (mcopyDstSpace e.f) e.gb (if mcopyLayout e.f = 0 then spanOf w (dstStride e.f) else 8))
      faultAddress]

/-! ## Layout conversion (R72) -/

/-- A row in the other layout: codes sign-extended into, or cut from, the wider field; headers unchanged. -/
def convertRow (bs : List Byte) (t : Trailer) (lane : Bool) : List Byte :=
  let hs := headersOf bs t.fmt t.lane t.len
  let fs := (narrowFields bs t.fmt t.lane t.len).zipIdx.map fun p =>
    if t.exp = -128 || hs.getD (p.2 / 32) 0 % 8 = 7 then 0
    else wrapBits (packing t.fmt lane).1 (sext t.fmt p.1)
  let hs := if t.exp = -128 then hs.map fun _ => 0 else hs
  (groupsOf (packing t.fmt lane).2 (payloadWords t.fmt lane t.len) fs).flatMap
      (fun g => leBytes 8 (packFields (packing t.fmt lane).1 g))
    ++ (groupsOf 16 (headerWords t.fmt t.len) hs).flatMap (fun g => leBytes 8 (packFields 4 g))
    ++ leBytes 8 (encodeTrailer { t with lane := lane })

/-- A source row under LAYOUT 1 or 2: none when R70 refuses it. -/
def layoutRow (bs : List Byte) (layout : Nat) : Option (List Byte) :=
  let t := decodeTrailer (ofLE (bs.drop (bs.length - 8)))
  if !fmtValid t.fmt || (t.raw && t.fmt != 0x30) || (t.lane && !laneAllowed t.fmt)
      || rowSize t.fmt t.lane t.len != bs.length then none
  else if !laneAllowed t.fmt || t.lane = (layout = 1) then some bs
  else some (convertRow bs t (layout = 1))

/-! ## MCOPY -/

/-- One row of a copy, read whole before it is written; the fault found, if any. -/
def copyRow (i : Nat) (f : Fields) (dst : Place) (bs : List Byte) (s : State) : State × Option Nat :=
  if mcopyLayout f = 0 then writePlace s i dst bs
  else match layoutRow bs (mcopyLayout f) with
    | none => (s, some faultFormat)
    | some r =>
      if dstStride f < r.length then (s, some faultFormat)
      else match dst with
        | .cs off => if csRangeOk off r.length then writePlace s i dst r else (s, some faultAddress)
        | d => writePlace s i d r

/-- Rows in ascending order, from the core's own side. -/
def copyRows (i : Nat) (f : Fields) (bytes : Nat) (src dst : Place) :
    Nat → Nat → State → State × Option Nat
  | 0, _, s => (s, none)
  | k + 1, r, s =>
    let p := readPlace s i (src.add (r * srcStride f)) bytes
    match p.2.1 with
    | some c => (p.1, some c)
    | none =>
      let w := copyRow i f (dst.add (r * dstStride f)) p.2.2 p.1
      match w.2 with
      | some c => (w.1, some c)
      | none => copyRows i f bytes src dst k (r + 1) w.1

/-- Rows from data that another node sent. -/
def placeRows (i : Nat) (f : Fields) (bytes : Nat) (dst : Place) :
    Nat → Nat → List Byte → State → State × Option Nat
  | 0, _, _, s => (s, none)
  | k + 1, r, bs, s =>
    let w := copyRow i f (dst.add (r * dstStride f)) (bs.take bytes) s
    match w.2 with
    | some c => (w.1, some c)
    | none => placeRows i f bytes dst k (r + 1) (bs.drop bytes) w.1

/-- Rows to another node: each row read, converted and sent. -/
def sendRows (i : Nat) (f : Fields) (bytes : Nat) (src : Place) (n a : Nat) (o : Owner) :
    Nat → Nat → State → State × Option Nat
  | 0, _, s => (s, none)
  | k + 1, r, s =>
    let p := readPlace s i (src.add (r * srcStride f)) bytes
    match p.2.1 with
    | some c => (p.1, some c)
    | none =>
      let row := if mcopyLayout f = 0 then some p.2.2 else layoutRow p.2.2 (mcopyLayout f)
      match row with
      | none => (p.1, some faultFormat)
      | some bs =>
        if mcopyLayout f != 0 && dstStride f < bs.length then (p.1, some faultFormat)
        else if a + r * dstStride f + bs.length > 2 ^ 48 then (p.1, some faultAddress)
        else
          let m := (ylpPieceList (a + r * dstStride f) bs.length).length
          let t := match o with
            | .insn i q qid => setEntry p.1 i.val q qid fun e => { e with awaits := e.awaits + m }
            | _ => p.1
          sendRows i f bytes src n a o k (r + 1) (sendWrites t n (a + r * dstStride f) bs o)

def fetchRows (s : State) (n a stride bytes : Nat) (o : Owner) (rows : Nat) : State :=
  (List.range rows).foldl (fun s r => sendReads s n (a + r * stride) bytes o (r * bytes)) s

def endEntry (s : State) (i : Nat) (q : Queue) (e : QEntry) (fault : Option Nat) : State :=
  match fault with
  | some c => entryFault s i q e c
  | none => s

def runMcopy (s : State) (i : Nat) (e : QEntry) : State :=
  let w := moveWordOf e.gc
  let src := placeOf s (mcopySrcSpace e.f) e.ga
  let dst := placeOf s (mcopyDstSpace e.f) e.gb
  match src, dst with
  | .node n a, _ =>
    if !nodeReachable s n then entryFault s i .tongs e faultFabric
    else
      let pieces := (List.range w.rows).map fun r => (ylpPieceList (a + r * srcStride e.f) w.bytes).length
      fetchRows (setAwaits s i .tongs e.qid pieces.sum) n a (srcStride e.f) w.bytes
        (insnOwner i .tongs e.qid) w.rows
  | _, .node n a =>
    if !nodeReachable s n then entryFault s i .tongs e faultFabric
    else
      let p := sendRows i e.f w.bytes src n a (insnOwner i .tongs e.qid) w.rows 0 s
      endEntry p.1 i .tongs e p.2
  | _, _ =>
    let p := copyRows i e.f w.bytes src dst w.rows 0 s
    endEntry p.1 i .tongs e p.2

/-- The rows another node sent are written. -/
def finishMcopy (s : State) (i : Nat) (e : QEntry) : State :=
  match placeOf s (mcopySrcSpace e.f) e.ga with
  | .node _ _ =>
    let w := moveWordOf e.gc
    let p := placeRows i e.f w.bytes (placeOf s (mcopyDstSpace e.f) e.gb) w.rows 0 (entryData e) s
    endEntry p.1 i .tongs e p.2
  | _ => s

/-! ## MFILL -/

def mfillCheck (e : QEntry) : Option Nat :=
  let w := moveWordOf e.gc
  let sp := e.f.modBits 106 105
  firstFault [
    faultIf (moveWordBad e.gc) faultFormat,
    faultIf (e.gb.toNat % 8 != 0) faultAlign,
    faultIf (spaceBad sp e.gb (w.rows * w.bytes)) faultAddress]

def patternBytes (v : Word64) (n : Nat) : List Byte :=
  (List.replicate (n / 8) (leBytes 8 v.toNat)).flatten

def runMfill (s : State) (i : Nat) (e : QEntry) : State :=
  let w := moveWordOf e.gc
  let bs := patternBytes e.f.imm (w.rows * w.bytes)
  match placeOf s (e.f.modBits 106 105) e.gb with
  | .node n a =>
    if !nodeReachable s n then entryFault s i .tongs e faultFabric
    else
      sendWrites (setAwaits s i .tongs e.qid (ylpPieceList a bs.length).length) n a bs
        (insnOwner i .tongs e.qid)
  | p =>
    let r := writePlace s i p bs
    endEntry r.1 i .tongs e r.2

end Sys2Proof.Machine
end

