-- ==== Sys2Proof/Machine/Lanes.lean ====
section
/-! DEFINITION. Vector registers as codes (R151), groups as rows (R154), alignment and saturation (R152,
R153), square-sum pairs (R157, R158) and activation tables (R160, R161). -/

namespace Sys2Proof.Machine

/-! ## Registers -/

def vregAt (s : State) (i n : Nat) : VReg := (coreAt s i).v.getD n .clear
def setVreg (s : State) (i n : Nat) (r : VReg) : State :=
  modCore s i fun c => { c with v := c.v.set n r }

/-- The codes of a register: 256 of 32 bits, or 128 pairs of 64 bits, the even lane low (R151). -/
def VReg.codes (r : VReg) : List Int :=
  if r.w then (groupsOf 2 128 r.lanes).map fun p =>
    sext 64 ((p.getD 0 0).toNat + 2 ^ 32 * (p.getD 1 0).toNat)
  else r.lanes.map fun l => sext 32 l.toNat

def lanesOf (w : Bool) (cs : List Int) : List Word32 :=
  if w then cs.flatMap fun c =>
    [BitVec.ofNat 32 (wrapBits 64 c), BitVec.ofNat 32 (wrapBits 64 c / 2 ^ 32)]
  else cs.map fun c => BitVec.ofNat 32 (wrapBits 32 c)

def mkVreg (w : Bool) (x : Int) (raw : Bool) (cs : List Int) : VReg := ⟨lanesOf w cs, x, w, raw⟩

/-- Codes of a register with its first ones replaced; the lanes beyond keep their bits. -/
def putCodes (r : VReg) (w : Bool) (x : Int) (cs : List Int) : VReg :=
  ⟨lanesOf w cs ++ r.lanes.drop (lanesOf w cs).length, x, w, false⟩

def perReg (w : Bool) : Nat := if w then 128 else 256

def xRangeOk (x : Int) : Bool := -2048 ≤ x && x ≤ 2047

/-- R152: the code and 1 when it clamped. -/
def clampCode (w : Bool) (c : Int) : Int × Nat :=
  let m : Int := if w then 2 ^ 63 - 1 else 2 ^ 31 - 1
  if m < c then (m, 1) else if c < -m then (-m, 1) else (c, 0)

def clampAll (w : Bool) (cs : List Int) : List Int × Nat :=
  let rs := cs.map (clampCode w)
  (rs.map (·.1), (rs.map (·.2)).sum)

/-- Codes brought to a smaller or equal exponent: an exact left shift that saturates (R153). -/
def alignTo (w : Bool) (x tgt : Int) (cs : List Int) : List Int × Nat :=
  if tgt < x then clampAll w (cs.map fun c => c * 2 ^ (x - tgt).toNat) else (cs, 0)

/-- Rescale to any exponent (R153): right with rounding to nearest even, left exactly and saturating. -/
def rescale (w : Bool) (x tgt : Int) (cs : List Int) : List Int × Nat :=
  clampAll w (cs.map fun c => shiftRne c (x - tgt))

/-! ## Groups -/

/-- NREG of a vector instruction: SUB 79:74 plus 1. -/
def nregOf (f : Fields) : Nat := f.subBits 15 10 + 1

/-- A group stays inside v0 to v63, or v0 to v31 of a context (R195). -/
def groupFits (split : Bool) (n len : Nat) : Bool := n + len ≤ (if split then 32 else 64)

/-- The registers of a group. -/
def group (s : State) (i : Nat) (k : CtxId) (n len : Nat) : List VReg :=
  (List.range len).map fun j => vregAt s i (physV (isSplit s i) k n + j)

def setGroup (s : State) (i : Nat) (k : CtxId) (n : Nat) (rs : List VReg) : State :=
  (rs.zipIdx).foldl (fun s p => setVreg s i (physV (isSplit s i) k n + p.2) p.1) s

/-- A group read as one row (R154): its W, smallest X and codes, and the codes clamped by alignment; none
where the registers differ in W, or any is raw. -/
structure GroupRow where
  w : Bool
  x : Int
  codes : List Int
  clamped : Nat
  deriving DecidableEq, Repr

def groupRow (rs : List VReg) : Option GroupRow :=
  match rs with
  | [] => none
  | r :: _ =>
    if rs.any (fun t => t.w != r.w || t.raw) then none
    else
      let x := rs.foldl (fun m t => min m t.x) r.x
      let ps := rs.map fun t => alignTo t.w t.x x t.codes
      some ⟨r.w, x, ps.flatMap (·.1), (ps.map (·.2)).sum⟩

/-! ## Lane operations -/

/-- One register of a lane operation: none raises the format fault. -/
abbrev LaneRes := Option (VReg × Nat)

/-- Two operands aligned to the smaller exponent, combined code by code and clamped. -/
def laneBin (f : Int → Int → Int) (a b : VReg) : LaneRes :=
  if a.raw || b.raw || a.w != b.w then none
  else
    let x := min a.x b.x
    let ca := alignTo a.w a.x x a.codes
    let cb := alignTo b.w b.x x b.codes
    let r := clampAll a.w ((ca.1.zip cb.1).map fun p => f p.1 p.2)
    some (mkVreg a.w x false r.1, ca.2 + cb.2 + r.2)

/-- The exact comparison of R153. -/
def laneCmp (cond : Nat) (a b : VReg) : LaneRes :=
  if a.raw || b.raw || a.w != b.w then none
  else
    let x := min a.x b.x
    let t := fun (p : Int × Int) =>
      let u := p.1 * 2 ^ (a.x - x).toNat
      let v := p.2 * 2 ^ (b.x - x).toNat
      match cond with
      | 0 => decide (u = v)
      | 1 => decide (u ≠ v)
      | 2 => decide (u < v)
      | _ => decide (v ≤ u)
    some (mkVreg a.w 0 false ((a.codes.zip b.codes).map fun p => if t p then 1 else 0), 0)

def laneSel (a b c : VReg) : LaneRes :=
  if a.raw || b.raw || c.raw || a.w != b.w || a.w != c.w then none
  else
    let x := min a.x b.x
    let ca := alignTo a.w a.x x a.codes
    let cb := alignTo b.w b.x x b.codes
    some (mkVreg a.w x false (((ca.1.zip cb.1).zip c.codes).map fun p =>
      if p.2 != 0 then p.1.1 else p.1.2), ca.2 + cb.2)

def laneUn (f : Int → Int) (a : VReg) : LaneRes :=
  if a.raw then none else some (mkVreg a.w a.x false (a.codes.map f), 0)

/-- VSHL: the exponent moves, the codes stay. -/
def laneShl (k : Int) (a : VReg) : LaneRes :=
  if a.raw || !xRangeOk (a.x + k) then none else some ({ a with x := a.x + k }, 0)

def laneResc (tgt : Int) (a : VReg) : LaneRes :=
  if a.raw then none
  else
    let r := rescale a.w a.x tgt a.codes
    some (mkVreg a.w tgt false r.1, r.2)

/-- Raw add (R84): raw groups of equal exponent, saturating at the Q48 bound. -/
def laneRawAdd (a b : VReg) : LaneRes :=
  if !(a.raw && b.raw) || a.x != b.x || a.w != b.w then none
  else
    let m : Int := 2 ^ 47 - 1
    let qs := (a.codes.zip b.codes).map fun p => satCode m (p.1 + p.2)
    some (mkVreg a.w a.x true (qs.map (·.1)), countTrue (qs.map (·.2)))

/-- Results of a group, none as soon as one register faults. -/
def allSome {α : Type} : List (Option α) → Option (List α)
  | [] => some []
  | none :: _ => none
  | some a :: rest => match allSome rest with
    | some l => some (a :: l)
    | none => none

/-- A group operation: nothing is written when a register faults. -/
def writeLanes (s : State) (i : Nat) (e : QEntry) (rs : List LaneRes) : State :=
  match allSome rs with
  | none => entryFault s i .vec e faultFormat
  | some l => countVsat (setGroup s i e.ctx e.f.d.toNat (l.map (·.1))) i (l.map (·.2)).sum

def groupA (s : State) (i : Nat) (e : QEntry) : List VReg := group s i e.ctx e.f.a.toNat (nregOf e.f)
def groupB (s : State) (i : Nat) (e : QEntry) : List VReg := group s i e.ctx e.f.b.toNat (nregOf e.f)
def groupC (s : State) (i : Nat) (e : QEntry) : List VReg := group s i e.ctx e.f.c.toNat (nregOf e.f)
def groupD (s : State) (i : Nat) (e : QEntry) : List VReg := group s i e.ctx e.f.d.toNat (nregOf e.f)

/-! ## Square-sum pairs (R157, R158) -/

/-- A non-negative S and its exponent F. -/
structure SqPair where
  sum : Nat
  ex  : Int
  deriving DecidableEq, Repr

def sumSquares (cs : List Int) : Nat := (cs.map fun c => c.natAbs * c.natAbs).sum

def squareSum (x : Int) (cs : List Int) : SqPair :=
  if cs.all (fun c => c.natAbs < 2 ^ 16) then ⟨sumSquares cs, 2 * x⟩
  else
    let q := quantFit 0x10 .hold x cs
    ⟨sumSquares q.codes, 2 * q.exp⟩

/-- The smallest right shift at which a sum, rounded to nearest even, is below 2^63. -/
def fitShift (t : Nat) : Nat :=
  let k := Nat.log2 t - 62
  if rne t k < 2 ^ 63 then k else k + 1

/-- R158, and whether the combination rounded. -/
def combinePairs (p q : SqPair) : SqPair × Bool :=
  if p.sum = 0 ∧ q.sum = 0 then (⟨0, 0⟩, false)
  else if p.sum = 0 then (q, false)
  else if q.sum = 0 then (p, false)
  else
    let lo := if p.ex ≤ q.ex then p else q
    let hi := if p.ex ≤ q.ex then q else p
    let d := (hi.ex - lo.ex).toNat
    let t := lo.sum + hi.sum * 2 ^ d
    if d ≤ 62 ∧ t < 2 ^ 63 then (⟨t, lo.ex⟩, false)
    else (⟨(rne t (fitShift t)).toNat, lo.ex + fitShift t⟩, true)

/-- The level of a pair with a positive sum (R159). -/
def pairLevel (p : SqPair) : Int := (Nat.log2 p.sum : Int) + p.ex

/-! ## Activation tables (R160, R161) -/

structure Segment where
  b : Int
  c : Int
  m : Int
  deriving DecidableEq, Repr

structure ActTable where
  texp : Int
  sexp : Int
  segs : List Segment
  deriving DecidableEq, Repr

/-- The table at an offset of core store; none raises the format fault. -/
def readTable (s : State) (i off : Nat) : Option ActTable :=
  let bs := readBytes s (csBase i + off) 2112
  let segs := (List.range 64).map fun k => (⟨sext 48 (fieldLE bs (64 + 32 * k) 6),
    sext 48 (fieldLE bs (72 + 32 * k) 6), sext 32 (fieldLE bs (80 + 32 * k) 4)⟩ : Segment)
  let se := sext 8 (fieldLE bs 4 1)
  if fieldLE bs 0 2 = 0x0AC7 && -47 ≤ se && se ≤ 0
      && ((segs.drop 1).zip (segs.drop 2)).all (fun p => p.1.b < p.2.b) then
    some ⟨sext 16 (fieldLE bs 2 2), se, segs⟩
  else none

/-- The segment of an input: the last whose breakpoint it reaches, or the first. -/
def segmentOf (segs : List Segment) (x : Int) : Segment :=
  (((segs.drop 1).filter fun g => g.b ≤ x).getLast?).getD (segs.getD 0 ⟨0, 0, 0⟩)

/-- y in units of 2^TEXP, saturated at the Q48 bound. -/
def evalTable (t : ActTable) (x : Int) : Int × Bool :=
  let g := segmentOf t.segs x
  satCode (2 ^ 47 - 1) (g.c + shiftRne (g.m * (x - g.b)) t.sexp)

/-- VACT on one register: rescaled to TEXP, evaluated, clamped to its width. -/
def laneAct (t : ActTable) (a : VReg) : LaneRes :=
  if a.raw || !xRangeOk t.texp then none
  else
    let r := rescale a.w a.x t.texp a.codes
    let ys := r.1.map (evalTable t)
    let zs := ys.map fun y => (clampCode a.w y.1, y.2)
    some (mkVreg a.w t.texp false (zs.map (·.1.1)),
      r.2 + countTrue (zs.map fun z => z.2 || z.1.2 = 1))

end Sys2Proof.Machine
end

