-- ==== Sys2Proof/Machine/VectorRun.lean ====
section
/-! DEFINITION. What each vector and convert instruction does when its entry starts (Table 7-10): one
definition per opcode, over the lane operations. A fault leaves the destination unchanged. -/

namespace Sys2Proof.Machine

def zipLanes (f : VReg → VReg → LaneRes) (as bs : List VReg) : List LaneRes :=
  (as.zip bs).map fun p => f p.1 p.2

def runVadd (s : State) (i : Nat) (e : QEntry) : State :=
  writeLanes s i e (zipLanes (laneBin (· + ·)) (groupA s i e) (groupB s i e))

def runVsub (s : State) (i : Nat) (e : QEntry) : State :=
  writeLanes s i e (zipLanes (laneBin (· - ·)) (groupA s i e) (groupB s i e))

def runVmin (s : State) (i : Nat) (e : QEntry) : State :=
  writeLanes s i e (zipLanes (laneBin min) (groupA s i e) (groupB s i e))

def runVmax (s : State) (i : Nat) (e : QEntry) : State :=
  writeLanes s i e (zipLanes (laneBin max) (groupA s i e) (groupB s i e))

/-- The two registers of products of one pair of operand registers (R153). -/
def laneMul (a b : VReg) : Option (VReg × VReg) :=
  if a.raw || b.raw || a.w || b.w || !xRangeOk (a.x + b.x) then none
  else
    let ps := (a.codes.zip b.codes).map fun p => p.1 * p.2
    some (mkVreg true (a.x + b.x) false (ps.take 128), mkVreg true (a.x + b.x) false (ps.drop 128))

/-- VMUL writes a W = 1 group of twice the registers. -/
def runVmul (s : State) (i : Nat) (e : QEntry) : State :=
  match allSome (((groupA s i e).zip (groupB s i e)).map fun p => laneMul p.1 p.2) with
  | none => entryFault s i .vec e faultFormat
  | some l => setGroup s i e.ctx e.f.d.toNat (l.flatMap fun p => [p.1, p.2])

def runVcmp (s : State) (i : Nat) (e : QEntry) : State :=
  writeLanes s i e (zipLanes (laneCmp (e.f.modBits 110 107)) (groupA s i e) (groupB s i e))

def runVsel (s : State) (i : Nat) (e : QEntry) : State :=
  writeLanes s i e (((groupA s i e).zip ((groupB s i e).zip (groupC s i e))).map fun p =>
    laneSel p.1 p.2.1 p.2.2)

def runVabs (s : State) (i : Nat) (e : QEntry) : State :=
  writeLanes s i e ((groupA s i e).map (laneUn fun c => (c.natAbs : Int)))

def runVneg (s : State) (i : Nat) (e : QEntry) : State :=
  writeLanes s i e ((groupA s i e).map (laneUn fun c => -c))

def runVshl (s : State) (i : Nat) (e : QEntry) : State :=
  writeLanes s i e ((groupA s i e).map (laneShl (sext 12 (e.f.immBits 11 0))))

def runVrsh (s : State) (i : Nat) (e : QEntry) : State :=
  writeLanes s i e ((groupA s i e).map (laneUn fun c => rne c (e.f.immBits 5 0)))

/-- VRESC with WCHG: a W = 0 group becomes W = 1 in twice the registers, and the other way round in
half of them, saturating. -/
def widenResc (tgt : Int) (r : VReg) : List VReg × Nat :=
  let c := rescale true r.x tgt r.codes
  ([mkVreg true tgt false (c.1.take 128), mkVreg true tgt false (c.1.drop 128)], c.2)

def narrowResc (tgt : Int) (p : List VReg) : VReg × Nat :=
  let cs := p.map fun r => rescale false r.x tgt r.codes
  (mkVreg false tgt false (cs.flatMap (·.1)), (cs.map (·.2)).sum)

def runVresc (s : State) (i : Nat) (e : QEntry) : State :=
  let rs := groupA s i e
  let tgt := sext 12 (e.f.immBits 11 0)
  if e.f.modBits 104 104 = 0 then writeLanes s i e (rs.map (laneResc tgt))
  else if rs.any (·.raw) || rs.any (fun r => r.w != (rs.head?.map (·.w)).getD false) then
    entryFault s i .vec e faultFormat
  else if (rs.head?.map (·.w)).getD false then
    if nregOf e.f % 2 = 1 || !groupFits (isSplit s i) e.f.d.toNat (nregOf e.f / 2) then entryFault s i .vec e faultFormat
    else
      let ps := (groupsOf 2 (nregOf e.f / 2) rs).map (narrowResc tgt)
      countVsat (setGroup s i e.ctx e.f.d.toNat (ps.map (·.1))) i (ps.map (·.2)).sum
  else if !groupFits (isSplit s i) e.f.d.toNat (2 * nregOf e.f) then entryFault s i .vec e faultFormat
  else
    let ps := rs.map (widenResc tgt)
    countVsat (setGroup s i e.ctx e.f.d.toNat (ps.flatMap (·.1))) i (ps.map (·.2)).sum

def runVmov (s : State) (i : Nat) (e : QEntry) : State :=
  setGroup s i e.ctx e.f.d.toNat (groupA s i e)

def runVsplat (s : State) (i : Nat) (e : QEntry) : State :=
  let w := e.f.modBits 104 104 = 1
  let c := clampCode w e.ga.toInt
  let r := mkVreg w (sext 12 (e.f.immBits 11 0)) false (List.replicate (perReg w) c.1)
  countVsat (setGroup s i e.ctx e.f.d.toNat (List.replicate (nregOf e.f) r)) i
    (c.2 * perReg w * nregOf e.f)

/-- VMOVG reads one register; a pair index beyond the register, or a raw register, faults. -/
def runVmovg (s : State) (i : Nat) (e : QEntry) : State :=
  let r := vregAt s i (physV (isSplit s i) e.ctx e.f.a.toNat)
  let lane := e.f.immBits 7 0
  if r.raw || (r.w && 128 ≤ lane) then entryFault s i .vec e faultFormat
  else
    let v := if e.f.modBits 104 104 = 1 then r.x else r.codes.getD lane 0
    writeG s i e.ctx e.f.d.toNat (w64 (wrapBits 64 v))

def runVradd (s : State) (i : Nat) (e : QEntry) : State :=
  writeLanes s i e (zipLanes laneRawAdd (groupA s i e) (groupB s i e))

/-! ## Loads and stores -/

/-- The row word of R196. -/
structure RowWord where
  len  : Nat
  fmt  : Nat
  lane : Bool
  deriving DecidableEq, Repr

def rowWordOf (v : Word64) : RowWord :=
  ⟨bitsOf 11 0 v.toNat + 1, bitsOf 19 12 v.toNat, bitsOf 20 20 v.toNat = 1⟩

/-- The checks of R196 at issue; `st` is VST, which takes no lane layout. -/
def rowWordBad (v : Word64) (st : Bool) : Bool :=
  v.toNat / 2 ^ 21 != 0 || !fmtValid (rowWordOf v).fmt
    || ((rowWordOf v).lane && (st || !laneAllowed (rowWordOf v).fmt))

def addrOf (g : Word64) (f : Fields) : Nat := (g.toNat + f.imm.toNat) % 2 ^ 64

/-- A row in registers: `w`-wide codes in whole registers, zeros after the last element. -/
def fillGroup (w raw : Bool) (x : Int) (n : Nat) (cs : List Int) : List VReg :=
  let per := perReg w
  (groupsOf per n (cs ++ List.replicate (n * per - cs.length) 0)).map (mkVreg w x raw)

def runVld (s : State) (i : Nat) (e : QEntry) : State :=
  let rw := rowWordOf e.gc
  let off := addrOf e.ga e.f
  let bs := readBytes s (csBase i + off) (rowSize rw.fmt rw.lane rw.len)
  let t := decodeTrailer (fieldLE bs (rowSize rw.fmt rw.lane rw.len - 8) 8)
  if !trailerOk t rw.fmt rw.len rw.lane then entryFault s i .vec e faultFormat
  else
    let r := decodeRow bs t
    let v := wideValue r
    let x := if v.1 = -128 then -127 else v.1
    let s := countVoids s i r.voids (csBase i + off)
    setGroup s i e.ctx e.f.d.toNat (fillGroup (rw.fmt = 0x30) t.raw x (nregOf e.f) v.2)

/-- VST: the codes are copied where every one fits and the exponent can be written; any other store is a
fit under R88. -/
def runVst (s : State) (i : Nat) (e : QEntry) : State :=
  let rw := rowWordOf e.gc
  match groupRow (groupD s i e) with
  | none => entryFault s i .vec e faultFormat
  | some g =>
    let cs := g.codes.take rw.len
    let a := csBase i + addrOf e.ga e.f
    if g.codes.length < rw.len then entryFault s i .vec e faultFormat else
    let s := countVsat s i g.clamped
    if cs.all (fun c => (c.natAbs : Int) ≤ maxCode rw.fmt) && -127 ≤ g.x && g.x ≤ 127 then
      writeBytes s a (encodeRow rw.fmt false g.x cs [] [])
    else
      let q := quantFit rw.fmt (floorOf e.hold) g.x cs
      countQuant (writeBytes s a (q.row rw.fmt false)) i q 0 3

/-! ## Quantise and convert -/

/-- The quantise descriptor (Table 7-11). -/
structure QDesc where
  fmt : Nat
  given : Bool
  exp : Int
  role : Nat
  layer : Nat
  pith : Bool
  mon : Bool
  lane : Bool
  len : Nat
  dest : Nat
  pdesc : Nat
  side : Nat
  monAt : Nat
  deriving DecidableEq, Repr

def qdescOf (ws : List Word64) : QDesc :=
  { fmt := wfield ws 0 63 56, given := wfield ws 0 55 55 = 1, exp := sext 8 (wfield ws 0 54 47)
    role := wfield ws 0 46 43, layer := wfield ws 0 42 33, pith := wfield ws 0 32 32 = 1
    mon := wfield ws 0 31 31 = 1, lane := wfield ws 0 30 30 = 1, len := wfield ws 0 29 18 + 1
    dest := wfield ws 1 63 0, pdesc := wfield ws 2 63 0, side := wfield ws 3 63 0
    monAt := wfield ws 4 63 0 }

def qdescBad (ws : List Word64) (d : QDesc) : Bool :=
  !fmtValid d.fmt || d.fmt = 0x30 || (d.given && d.exp = -128) || 3 < d.role
    || (d.lane && !laneAllowed d.fmt) || wfield ws 0 17 0 != 0
    || wfield ws 5 63 0 != 0 || wfield ws 6 63 0 != 0 || wfield ws 7 63 0 != 0

/-- A context's list of the records named since its last mark, at most 256 (R199). -/
def trackMon (s : State) (i : Nat) (k : CtxId) (a layer role : Nat) : Option State :=
  let x := ctxAt s i k
  if x.mons.any (fun m => m.1 = a) then
    some (setCtxAt s i k { x with mons := x.mons.map fun m => if m.1 = a then (a, layer, role) else m })
  else if 256 ≤ x.mons.length then none
  else some (setCtxAt s i k { x with mons := x.mons ++ [(a, layer, role)] })

/-- The pith set of a layer as it stands under its PITH_MODE (R97): none, the named channels, or the set formed last, before
which a layer that adds named channels has those. -/
def layerPith (s : State) (l : Nat) : List Nat :=
  let named := if bitsOf 59 58 (controlWord s l) % 2 = 1 then namedPith s l else []
  if bitsOf 59 58 (controlWord s l) ≤ 1 then named
  else (s.job.bind fun j => (j.piths.find? fun p => p.layer = l).map (·.chans)).getD named

/-- A record is in use since the context's last mark: named, or counted into by a drain in progress. -/
def monKnown (x : Ctx) (a : Nat) : Bool := (x.mons ++ x.placed).any fun m => m.1 = a

/-- A record not named since the last mark has its entries placed (R100). -/
def nameMonitor (s : State) (i : Nat) (k : CtxId) (a layer role : Nat) (pith : List Nat) : Option State :=
  match trackMon s i k a layer role with
  | none => none
  | some t => some (if monKnown (ctxAt s i k) a then t
      else placeEntries t i a layer role (monitorList role pith (namedMonitors s layer)))

/-- A fused drain in progress counts into a record, which it names when it completes (R199). -/
def placeMonitor (s : State) (i : Nat) (k : CtxId) (a layer role : Nat) (pith : List Nat) : Option State :=
  let x := ctxAt s i k
  if monKnown x a then some s
  else if 256 ≤ x.mons.length + x.placed.length then none
  else some (placeEntries (setCtxAt s i k { x with placed := x.placed ++ [(a, layer, role)] }) i a layer role
    (monitorList role pith (namedMonitors s layer)))

def boolN (b : Bool) : Nat := if b then 1 else 0

/-- Counts of one quantisation into its monitor record (R92, R100, R101, R103). -/
def countMonitor (s : State) (i : Nat) (d : QDesc) (x : Int) (xs : List Int) (pith : List Nat)
    (q : Quant) (side : Option Quant) : State :=
  let a := d.monAt
  let ss := (side.map fun t => countTrue t.sats).getD 0
  let sz := (side.map fun t => countTrue t.zeroed).getD 0
  let s := monAdd s i a 0 31 0 (countTrue q.sats + ss)
  let s := monAdd s i a 0 63 32 (countTrue q.zeroed + sz)
  let s := monAdd s i a 1 63 32 1
  let s := monAdd s i a 1 31 16 (boolN q.ceil + boolN ((side.map (·.ceil)).getD false))
  let s := monAdd s i a 1 15 0 (boolN q.flush + boolN ((side.map (·.flush)).getD false))
  let s := bumpEntries s i a fun c p =>
    if xs.length ≤ c then none
    else if p then
      match pith.idxOf? c, side with
      | some k, some t => some (boolN (xs.getD c 0 != 0), boolN (t.sats.getD k false), boolN (t.zeroed.getD k false))
      | _, _ => some (boolN (xs.getD c 0 != 0), boolN (q.sats.getD c false), boolN (q.zeroed.getD c false))
    else some (boolN (xs.getD c 0 != 0), boolN (q.sats.getD c false), boolN (q.zeroed.getD c false))
  if bitsOf 34 34 (controlWord s d.layer) = 1 then
    match rowLevel x xs with
    | some lv => addLevel s i a lv
    | none => s
  else s

/-- The first weight quantisation of a layer whose device selects channels forms the step's set from the peaks, which it
clears; one that names a descriptor finds the set in it (R98). -/
def openPith (s : State) (i : Nat) (d : QDesc) : State :=
  if d.role = 1 && 2 ≤ bitsOf 59 58 (controlWord s d.layer) then
    let r := formPith s d.layer
    if d.pith then writeBytes r.1 (csBase i + d.pdesc) (pithLine r.2) else r.1
  else s

/-- A forward-activation quantisation fills the channel peak table (R98). -/
def fillPeaks (s : State) (d : QDesc) (x : Int) (xs : List Int) : State :=
  let mode := bitsOf 59 58 (controlWord s d.layer)
  match s.job with
  | some j => if d.role = 0 && (mode = 2 || mode = 3) then { s with job := some (raisePeaks j d.layer x xs) } else s
  | none => s

/-- The quantisation itself, once every check has passed. -/
def quantiseRow (s : State) (i : Nat) (fr : FloorRule) (d : QDesc) (x : Int) (xs : List Int) (pith : List Nat) : State :=
  let main := (xs.zipIdx).map fun p => if pith.contains p.2 then 0 else p.1
  let q := if d.given then quantGiven d.fmt d.exp x main else quantFit d.fmt fr x main
  let side := if pith.isEmpty then none else some (quantFit 0x10 fr x (pith.map fun c => xs.getD c 0))
  let s := fillPeaks s d x xs
  let s := countQuant (writeBytes s (csBase i + d.dest) (q.row d.fmt d.lane)) i q d.layer d.role
  let s := match side with
    | some t => countQuant (writeBytes s (csBase i + d.side) (t.row 0x10 false)) i t d.layer d.role
    | none => s
  if d.mon then countMonitor s i d x xs pith q side else s

def runVqnt (s : State) (i : Nat) (e : QEntry) : State :=
  let ws := readWords s (csBase i + addrOf e.ga e.f) 8
  let d := qdescOf ws
  match groupRow (groupD s i e) with
  | none => entryFault s i .vec e faultFormat
  | some g =>
    if qdescBad ws d || g.codes.length < d.len then entryFault s i .vec e faultFormat
    else if d.dest % 8 != 0 then entryFault s i .vec e faultAlign
    else if !csRangeOk d.dest (rowSize d.fmt d.lane d.len) || (d.pith && !csRangeOk d.pdesc 128)
        || (d.mon && !csRangeOk d.monAt 2112) then entryFault s i .vec e faultAddress
    else
      let s1 := openPith s i d
      let pith := if d.pith then chanEntries s1 (csBase i + d.pdesc) 64 else []
      if d.pith && !pithValid s1 (csBase i + d.pdesc) d.len then entryFault s i .vec e faultFormat
      else if d.fmt = 1 && !pith.isEmpty then entryFault s i .vec e faultFormat
      else if !pith.isEmpty && !csRangeOk d.side (rowSize 0x10 false pith.length) then
        entryFault s i .vec e faultAddress
      else
        let named := if d.mon then
            nameMonitor s1 i e.ctx d.monAt d.layer d.role (if d.pith then pith else layerPith s1 d.layer)
          else some s1
        match named with
        | none => entryFault s i .vec e faultFormat
        | some s2 => quantiseRow (countVsat s2 i g.clamped) i (floorOf e.hold) d g.x (g.codes.take d.len) pith

/-- Whether VCVT makes this conversion: an exact class of Table 3-11, or R80. -/
def cvtClass (src tgt : Nat) : Bool :=
  (isNarrow src && isNarrow tgt && src < tgt) || (isNarrow src && isWide tgt)
    || (isWide src && isWide tgt && src < tgt)

def cvtTarget (f : Fields) : Nat := f.subBits 9 2

def runVcvt (s : State) (i : Nat) (e : QEntry) : State :=
  let rw := rowWordOf e.gc
  let tgt := cvtTarget e.f
  match readRow s i e.ga.toNat rw.fmt rw.len rw.lane false with
  | none => entryFault s i .vec e faultFormat
  | some r =>
    let out := if isNarrow tgt then
        encodeRow tgt (e.f.modBits 104 104 = 1) r.exp r.codes r.steps r.clips
      else encodeRow tgt false (wideValue r).1 (wideValue r).2 [] []
    countVoids (writeBytes s (csBase i + e.gb.toNat) out) i r.voids (csBase i + e.ga.toNat)

/-! ## Reductions -/

/-- The destination register takes its first codes anew and keeps its other lanes. -/
def putResult (s : State) (i : Nat) (e : QEntry) (w : Bool) (x : Int) (cs : List Int) : State :=
  let n := physV (isSplit s i) e.ctx e.f.d.toNat
  setVreg s i n (putCodes (vregAt s i n) w x cs)

def runVrsum (s : State) (i : Nat) (e : QEntry) : State :=
  match groupRow (groupA s i e) with
  | none => entryFault s i .vec e faultFormat
  | some g =>
    let c := clampCode true g.codes.sum
    countVsat (putResult s i e true g.x [c.1]) i (g.clamped + c.2)

def runVrmax (s : State) (i : Nat) (e : QEntry) : State :=
  match groupRow (groupA s i e) with
  | none => entryFault s i .vec e faultFormat
  | some g => countVsat (putResult s i e g.w g.x [(maxMag g.codes : Int)]) i g.clamped

def runVrcnt (s : State) (i : Nat) (e : QEntry) : State :=
  match groupRow (groupA s i e) with
  | none => entryFault s i .vec e faultFormat
  | some g =>
    countVsat (putResult s i e false 0 [((g.codes.filter (· != 0)).length : Int)]) i g.clamped

def runVrssq (s : State) (i : Nat) (e : QEntry) : State :=
  match groupRow (groupA s i e) with
  | none => entryFault s i .vec e faultFormat
  | some g =>
    let p := squareSum g.x g.codes
    countVsat (putResult s i e true 0 [(p.sum : Int), p.ex]) i g.clamped

/-- The pair a register holds as VRSSQ writes it. -/
def pairOfReg (r : VReg) : SqPair :=
  ⟨wrapBits 64 (r.codes.getD 0 0), sext 16 (wrapBits 16 (r.codes.getD 1 0))⟩

def runVsqadd (s : State) (i : Nat) (e : QEntry) : State :=
  let as := groupA s i e
  let bs := groupB s i e
  if (as ++ bs).any (fun r => r.raw || !r.w) then entryFault s i .vec e faultFormat
  else
    let rs := (as.zip bs).map fun p => combinePairs (pairOfReg p.1) (pairOfReg p.2)
    let ds := ((groupD s i e).zip rs).map fun p => putCodes p.1 true 0 [(p.2.1.sum : Int), p.2.1.ex]
    let s := setGroup s i e.ctx e.f.d.toNat ds
    if rs.any (·.2) then putF s (CORE_UPDSTAT i) CORE_UPDSTAT_INEXACT 1 else s

def runVact (s : State) (i : Nat) (e : QEntry) : State :=
  match readTable s i (addrOf e.gb e.f) with
  | none => entryFault s i .vec e faultFormat
  | some t => writeLanes s i e ((groupA s i e).map (laneAct t))

/-! ## Gradients, draws and the step-end mark -/

/-- The smallest length at which a Q16 row's trailer describes itself, up to `cap` elements (R226 names no
length; DEDUCED, log entry 20). -/
def bufferLen (s : State) (i off cap : Nat) : Option Nat :=
  ((List.range cap).map (· + 1)).find? fun n =>
    csRangeOk off (rowSize 0x10 false n) &&
    trailerOk (decodeTrailer (readWord s (csBase i + off + rowSize 0x10 false n - 8)).toNat) 0x10 n false

/-- The smallest E with m * 2^x at most 32767 * 2^E (R226: exact, no rounding). -/
def gaccExp (m : Nat) (x : Int) : Int :=
  let e0 := x + (Nat.log2 m : Int) - 14
  let ok := if x ≤ e0 then (m : Int) ≤ 32767 * 2 ^ (e0 - x).toNat else (m : Int) * 2 ^ (x - e0).toNat ≤ 32767
  if ok then e0 else e0 + 1

/-- One element of R226: floor, then up with the probability of its fraction. -/
def gaccElem (x e : Int) (u : Nat) (v : Int) : Int :=
  if e ≤ x then v * 2 ^ (x - e).toNat
  else
    let k := (e - x).toNat
    v / (2 ^ k : Nat) + (if ((u : Int) * (2 ^ k : Nat) < (v % (2 ^ k : Nat)) * 2 ^ 64) then 1 else 0)

def runVgacc (s : State) (i : Nat) (e : QEntry) : State :=
  match groupRow (groupA s i e) with
  | none => entryFault s i .vec e faultFormat
  | some g =>
    match bufferLen s i e.gb.toNat g.codes.length with
    | none => entryFault s i .vec e faultFormat
    | some n =>
      match readRow s i e.gb.toNat 0x10 n false false with
      | none => entryFault s i .vec e faultFormat
      | some r =>
        let a := csBase i + e.gb.toNat
        let eb := if r.exp = -128 then g.x else r.exp
        let x := min eb g.x
        let sums := ((r.codes.zip (g.codes.take n)).map fun p =>
          p.1 * 2 ^ (eb - x).toNat + p.2 * 2 ^ (g.x - x).toNat)
        let s := countVoids (countVsat s i g.clamped) i r.voids a
        if maxMag sums = 0 then writeBytes s a ((zeroQuant 0x10 (sums.map fun _ => false) false).row 0x10 false)
        else
          let want := gaccExp (maxMag sums) x
          if want < -127 then
            raiseForced (writeBytes s a ((zeroQuant 0x10 (sums.map fun _ => false) false).row 0x10 false)) i
          else
            let ex := min want 127
            let qs := (sums.zipIdx).map fun p =>
              satCode 32767 (gaccElem x ex (stream (jobSeed s) e.gc.toNat p.2) p.1)
            let s := writeBytes s a (encodeRow 0x10 false ex (qs.map (·.1)) [] [])
            let s := countQsat s i (countTrue (qs.map (·.2)))
            if 127 < want then
              countQuant s i ⟨ex, [], [], [], [], [], true, false⟩ (bitsOf 27 18 e.gc.toNat) 3
            else s

def runVrand (s : State) (i : Nat) (e : QEntry) : State :=
  let x := sext 12 (e.f.immBits 11 0)
  let seed := jobSeed s
  setGroup s i e.ctx e.f.d.toNat ((List.range (nregOf e.f)).map fun r =>
    mkVreg false x false ((List.range 256).map fun l =>
      ((stream seed e.ga.toNat ((e.gb.toNat + 256 * r + l) % 2 ^ 64) / 2 ^ 33 : Nat) : Int)))

/-- R102. -/
def crosses (satShift zeroShift w : Nat) : Bool :=
  256 ≤ bitsOf 31 16 w &&
    ((satShift != 0 && bitsOf 31 16 w < bitsOf 47 32 w * 2 ^ satShift)
      || (zeroShift != 0 && bitsOf 31 16 w < bitsOf 63 48 w * 2 ^ zeroShift))

def monFlag (s : State) (i a bit : Nat) : State := monPut s i a 3 bit bit 1

/-- R104 for one record: the fold into the reference, and whether it jumped. -/
def normWatch (s : State) (i a layer role : Nat) : State × Bool :=
  let cw := controlWord s layer
  let rows := monGet s i a 2 31 16
  if rows = 0 then (s, false)
  else
    let curMean := (16 * sext 32 (monGet s i a 2 63 32)) / (rows : Int)
    let curTop := 16 * sext 16 (monGet s i a 2 15 0)
    let refMean := sext 16 (monGet s i a 3 63 48)
    let refTop := sext 16 (monGet s i a 3 47 32)
    let steps := monGet s i a 3 31 16
    let topT := bitsOf 47 44 cw
    let meanT := bitsOf 43 40 cw
    let jump := steps != 0 && decide (4 * bitsOf 39 36 cw < steps) &&
      ((topT != 0 && decide (16 * (topT : Int) < curTop - refTop))
        || (meanT != 0 && decide (16 * meanT < (curMean - refMean).natAbs)))
    let s := if jump then
        makeRecord (monFlag s i a 1) (srcCore i) 0x103 [w64 (layer % 1024 + 1024 * (role % 16)),
          w64 (wrapBits 16 curMean + 2 ^ 16 * wrapBits 16 refMean + 2 ^ 32 * wrapBits 16 curTop
            + 2 ^ 48 * wrapBits 16 refTop)]
      else s
    let newMean := if steps = 0 then curMean else refMean + (curMean - refMean) / 8
    let newTop := if steps = 0 then curTop else refTop + (curTop - refTop) / 8
    let s := monPut s i a 3 63 48 (wrapBits 16 newMean)
    let s := monPut s i a 3 47 32 (wrapBits 16 newTop)
    (monAdd s i a 3 31 16 1, jump)

/-- The role of a layer is at its widest, or its widening is disabled (R106). -/
def voteSuppressed (s : State) (layer role : Nat) : Bool :=
  let cw := controlWord s layer
  match s.job with
  | none => true
  | some j =>
    if role = 2 then bitsOf 18 18 cw = 0 || bitsOf 25 24 cw = 1 || j.agWide.contains layer
    else bitsOf 19 19 cw = 0 || bitsOf 23 20 cw = 8 || j.fwdWide.contains layer

/-- R104 and R106 for one record; the vote bit it sets, if any. -/
def markRecord (s : State) (i : Nat) (m : Nat × Nat × Nat) : State × Option Nat :=
  let a := m.1
  let cw := controlWord s m.2.1
  let crossed := (List.range (monEntries s i a)).any fun k =>
    crosses (bitsOf 33 30 cw) (bitsOf 29 26 cw) (readWord s (csBase i + a + 64 + 8 * k)).toNat
  let ceil := monGet s i a 1 31 16 != 0
  let s := if crossed then monFlag s i a 0 else s
  let nw := normWatch s i a m.2.1 m.2.2
  let s := if ceil then monFlag nw.1 i a 2 else nw.1
  let wants := m.2.2 != 3 && (crossed || (nw.2 && bitsOf 35 35 cw = 1))
  let sup := voteSuppressed s m.2.1 m.2.2
  let s := if wants && sup then monFlag s i a 3 else s
  let s := writeWords s (csBase i + a) [0, 0, 0]
  let s := (List.range (monEntries s i a)).foldl (fun s k =>
    let ad := csBase i + a + 64 + 8 * k
    writeWord s ad (w64 ((readWord s ad).toNat % 2 ^ 16))) s
  (s, if wants && !sup then some (2 * m.2.1 + (if m.2.2 = 2 then 1 else 0)) else none)

def markAll (i : Nat) : List (Nat × Nat × Nat) → State × List Nat → State × List Nat
  | [], p => p
  | m :: ms, p =>
    let r := markRecord p.1 i m
    markAll i ms (r.1, match r.2 with
      | some b => b :: p.2
      | none => p.2)

/-- The 32 words of a vote: the bits set. -/
def voteWords (bits : List Nat) : List Word64 :=
  (List.range 32).map fun k => w64 ((bits.filter fun b => b / 64 = k).foldl (fun v b => v ||| 2 ^ (b % 64)) 0)

/-- VMARK (R199): every record named since the last mark, then the vote is ORed through the home crucible. -/
def runVmark (s : State) (i : Nat) (e : QEntry) : State :=
  let x := ctxAt s i e.ctx
  let r := markAll i x.mons (setCtxAt s i e.ctx { x with mons := [] }, [])
  let o := reduceAt r.1 e.ga.toNat 3 (voteWords r.2)
  match o.2 with
  | .ok _ => o.1
  | .poison => entryFault o.1 i .vec e faultPoison
  | _ => entryFault o.1 i .vec e faultAddress

end Sys2Proof.Machine
end

