-- ==== Sys2Proof/Machine/Anvil.lean ====
section
/-! DEFINITION. The anvils of a core (R113 to R133): the scoreboard's projected state, sets as rows and save
slots hold them, the descriptor and the products of a pass, and the order of operations of a lane. -/

namespace Sys2Proof.Machine

/-! ## Fields of tile instructions (R192) -/

def opAzero : Nat := 0x20
def opAload : Nat := 0x21
def opAswap : Nat := 0x22
def opAmac : Nat := 0x23
def opAdrain : Nat := 0x24

def anvMask (f : Fields) : Nat := f.modBits 110 107
def anvList (m : Nat) : List Nat := (List.range 4).filter m.testBit

/-- The tag used: (TAG + gC[7:0]) mod 256. -/
def tagOf (e : QEntry) : Nat := (e.f.subBits 15 8 + e.gc.toNat % 256) % 256
def fillTag (e : QEntry) : Nat := (e.f.immBits 63 56 + e.gc.toNat % 256) % 256
def fillKind (f : Fields) : Nat := f.subBits 7 6
def amacFmt (f : Fields) : Nat := f.subBits 7 0
def amacChain (f : Fields) : Bool := f.modBits 106 106 = 1
def aloadSlot (f : Fields) : Bool := f.modBits 106 106 = 1
def aloadStride (f : Fields) : Nat := f.immBits 63 40
def adrainDest (f : Fields) : Nat := f.modBits 106 105
def adrainStride (f : Fields) : Nat := f.immBits 55 32

/-! ## The projected state (R120, Table 5-5) -/

/-- Tags and states of the two sets of an anvil. -/
structure Proj where
  act : Option Nat
  sh : Option (Bool × Nat)     -- true: Finished, false: Prepared
  deriving DecidableEq, Repr

def projNow (x : Anvil) : Proj :=
  { act := if x.active.st = .running then some x.active.tag else none
    sh := match x.shadow.st with
      | .prepared => some (false, x.shadow.tag)
      | .finished => some (true, x.shadow.tag)
      | _ => none }

/-- The projected state after an operation. -/
def projOp (p : Proj) (e : QEntry) : Proj :=
  if e.op = opAzero || e.op = opAload then { p with sh := some (false, tagOf e) }
  else if e.op = opAswap then
    { act := match p.sh with
        | some (false, t) => some t
        | _ => none
      sh := p.act.map fun t => (true, t) }
  else if e.op = opAdrain then
    { p with sh := if fillKind e.f = 0 then none else some (false, fillTag e) }
  else p

def isTile (e : QEntry) : Bool := opAzero ≤ e.op && e.op ≤ opAdrain

/-- What the operation does to the sets of the anvil stands in them already: a swap that has begun, a drain whose rows have
all left (Table 5-7). -/
def acted (x : Anvil) (a : Nat) (e : QEntry) : Bool :=
  e.begun.toNat.testBit a && (e.op = opAswap || (e.op = opAdrain && match x.drain with
    | some d => d.qid != e.qid || d.left = 0
    | none => true))

/-- The sets once every earlier operation of the lane has completed on the anvil (R120). -/
def projected (s : State) (i a : Nat) (lane : Queue) : Proj :=
  let x := (coreAt s i).anvil a
  (((coreAt s i).queue lane).filter fun e =>
    !e.off && isTile e && (anvMask e.f).testBit a && !e.ended.toNat.testBit a && !acted x a e).foldl projOp (projNow x)

def tagLive (p : Proj) (u : Nat) : Bool := p.act = some u || (p.sh.map (·.2)) = some u

/-- Validity of an operation on one anvil. -/
def opValid (x : Anvil) (p : Proj) (e : QEntry) : Bool :=
  if e.op = opAzero || e.op = opAload then p.sh.isNone && !tagLive p (tagOf e)
  else if e.op = opAswap then (p.sh.map (·.1)) != some true && (p.act.isSome || p.sh.isSome)
  else if e.op = opAmac then
    p.act = some (tagOf e) && (!amacChain e.f || x.lastPass = some (tagOf e))
  else
    p.sh = some (true, tagOf e) &&
      (fillKind e.f = 0 || (fillTag e != tagOf e && p.act != some (fillTag e)))

/-- The tile-state check at issue: every named anvil lies in the partition and takes the operation. -/
def tileCheck (s : State) (i : Nat) (k : CtxId) (e : QEntry) : Option Nat :=
  if (anvList (anvMask e.f)).all fun a => (partition (isSplit s i) k).contains a
      && opValid ((coreAt s i).anvil a) (projected s i a (laneOf s i k)) e then none
  else some faultTileState

/-! ## Sets in core store (R84, R138) -/

def rawRowSize : Nat := rowSize 0x30 false 64

/-- A raw row of 64 accumulators: exponent, codes and void codes; none raises the format fault. -/
def readRawRow (s : State) (i off : Nat) : Option RowVal := readRow s i off 0x30 64 false true

def resOf (v : Int) : BitVec 3 := BitVec.ofNat 3 (v % 7).toNat

/-- A set loaded from 32 raw rows, from row 0. -/
def setOfRows (tag : Nat) (rows : List RowVal) : AccSet :=
  let cs := rows.flatMap (·.codes)
  { st := .prepared, tag := tag, zeroed := false, acc := cs.map fun v => BitVec.ofInt 48 v
    res := cs.map resOf, sat := List.replicate 2048 false
    ea := rows.map fun r => if r.exp = -128 then none else some r.exp
    eb := List.replicate 64 none }

/-- A set loaded from a save slot (Table 5-12). -/
def setOfSlot (s : State) (i off tag : Nat) : AccSet :=
  let bs := readBytes s (csBase i + off) 12672
  let vs := (List.range 2048).map fun c => sext 48 (fieldLE bs (0x180 * (c / 64) + 6 * (c % 64)) 6)
  let bit := fun (o k : Nat) => (fieldLE bs (o + k / 8) 1).testBit (k % 8)
  { st := .prepared, tag := tag, zeroed := false, acc := vs.map fun v => BitVec.ofInt 48 v
    res := vs.map resOf, sat := (List.range 2048).map fun c => bit 0x3000 c
    ea := (List.range 32).map fun r => if bit 0x3160 r then some (sext 8 (fieldLE bs (0x3100 + r) 1)) else none
    eb := (List.range 64).map fun j => if bit 0x3168 j then some (sext 8 (fieldLE bs (0x3120 + j) 1)) else none }

def bitBytes (n : Nat) (bs : List Bool) : List Byte :=
  leBytes n (bs.zipIdx.foldl (fun v p => if p.1 then v + 2 ^ p.2 else v) 0)

/-- A set as a save slot holds it. -/
def slotOfSet (x : AccSet) : List Byte :=
  x.acc.flatMap (fun v => leBytes 6 v.toNat) ++ bitBytes 256 x.sat
    ++ x.ea.map (fun e => BitVec.ofNat 8 (wrapBits 8 (e.getD 0)))
    ++ x.eb.map (fun e => BitVec.ofNat 8 (wrapBits 8 (e.getD 0)))
    ++ bitBytes 4 (x.ea.map (·.isSome)) ++ leBytes 4 0 ++ bitBytes 8 (x.eb.map (·.isSome)) ++ List.replicate 16 0

def zeroSet (tag : Nat) : AccSet := { AccSet.cleared with st := .prepared, tag := tag, zeroed := true }

/-- Row r of a raw drain (R127). -/
def rawRowBytes (x : AccSet) (r : Nat) : List Byte :=
  encodeRawRow ((x.ea.getD r none).getD (-128)) (((x.acc.drop (64 * r)).take 64).map (·.toInt))

/-- The source of a load or fill, for an anvil. -/
inductive LoadSrc where
  | rows (addr stride : Nat)
  | slot (addr : Nat)
  deriving DecidableEq, Repr

/-- The set a load brings, with the void codes read. -/
def loadSet (s : State) (i a tag : Nat) : LoadSrc → Option (AccSet × Nat)
  | .slot addr => some (setOfSlot s i (addr + a * 0x3180) tag, 0)
  | .rows addr stride =>
    (allSome ((List.range 32).map fun r => readRawRow s i (addr + (32 * a + r) * stride))).map fun rs =>
      (setOfRows tag rs, (rs.map (·.voids)).sum)

/-! ## Passes (R115, R116, R193) -/

/-- Lanes per segment (Table 5-2). -/
def segLanes (fmt : Nat) : Nat :=
  if fmt = 1 then 64 else if fmt = 2 then 32 else if fmt = 3 || fmt = 4 then 16
  else if fmt = 0x10 then 2 else 8

structure PassDesc where
  abase : Nat
  astride : Nat
  wstride : Nat
  wbase : Nat
  wslab : Nat
  len : Nat
  start : Nat
  count : Nat
  deriving DecidableEq, Repr

def passDescOf (ws : List Word64) : PassDesc :=
  { abase := wfield ws 0 63 0, astride := wfield ws 1 63 32, wstride := wfield ws 1 31 0
    wbase := wfield ws 2 63 0, wslab := wfield ws 3 63 32, len := wfield ws 4 63 52 + 1
    start := wfield ws 4 51 39, count := wfield ws 4 38 26 }

/-- The fault of a pass descriptor, if any. -/
def passDescFault (ws : List Word64) (fmt : Nat) : Option Nat :=
  let d := passDescOf ws
  firstFault [
    faultIf (d.abase % 8 != 0 || d.astride % 8 != 0 || d.wstride % 8 != 0 || d.wbase % 8 != 0
      || d.wslab % 8 != 0 || d.start % segLanes fmt != 0) faultAlign,
    faultIf (wfield ws 3 31 0 != 0 || wfield ws 4 25 0 != 0
      || (List.range 3).any (fun k => wfield ws (5 + k) 63 0 != 0)
      || d.count = 0 || 4096 < d.count || d.len < d.start + d.count) faultFormat]

/-- Rows of a pass: 32 activation rows, and 64 weight rows for an anvil. -/
def actRow (d : PassDesc) (r : Nat) : Nat := d.abase + r * d.astride
def wgtRow (d : PassDesc) (a j : Nat) : Nat := d.wbase + a * d.wslab + j * d.wstride

def passRows (s : State) (i fmt : Nat) (d : PassDesc) (offs : List Nat) : Option (List RowVal) :=
  allSome (offs.map fun o => readRow s i o fmt d.len (laneAllowed fmt) false)

def rowsFit (fmt : Nat) (d : PassDesc) (offs : List Nat) : Bool :=
  offs.all fun o => csRangeOk o (rowSize fmt (laneAllowed fmt) d.len)

/-- A row is a zero row (Table 3-2). -/
def isZeroRow (r : RowVal) : Bool := r.exp = -128

/-- The scale check of R83 against latched exponents. -/
def scaleOk (latched : List (Option Int)) (rows : List RowVal) : Bool :=
  (latched.zip rows).all fun p => isZeroRow p.2 || p.1 = none || p.1 = some p.2.exp

def latch (latched : List (Option Int)) (rows : List RowVal) : List (Option Int) :=
  (latched.zip rows).map fun p => if isZeroRow p.2 then p.1 else some (p.1.getD p.2.exp)

/-- One product of R81 and its residue (R132); a block of step 7 gives nothing. -/
def product (a b : RowVal) (e : Nat) : Int × Nat :=
  let sa := if isNarrow a.fmt then a.steps.getD (e / 32) 7 else 0
  let sb := if isNarrow b.fmt then b.steps.getD (e / 32) 7 else 0
  if sa = 7 || sb = 7 || isZeroRow a || isZeroRow b then (0, 0)
  else
    let qa := a.codes.getD e 0
    let qb := b.codes.getD e 0
    (qa * qb * 2 ^ (12 - (sa + sb)), ((qa % 7) * (qb % 7) * 2 ^ ((12 - sa - sb) % 3) % 7).toNat)

/-- One segment: the exact sum of its lane products, and the sum of their residues. -/
def segment (a b : RowVal) (es : List Nat) : Int × Nat :=
  es.foldl (fun t e => (t.1 + (product a b e).1, (t.2 + (product a b e).2) % 7)) (0, 0)

structure Cell where
  acc : Int
  res : Nat
  sat : Bool
  deriving DecidableEq, Repr

/-- One addition into an accumulator (R117, R133). -/
def addSegment (c : Cell) (p : Int × Nat) : Cell :=
  let m : Int := 2 ^ 47 - 1
  let v := satCode m (c.acc + p.1)
  ⟨v.1, (c.res + p.2) % 7, c.sat || v.2⟩

/-- The segments of elements `start` to `start + count - 1`. -/
def passSegments (fmt start count : Nat) : List (List Nat) :=
  groupsOf (segLanes fmt) (ceilDiv count (segLanes fmt)) ((List.range count).map (start + ·))

def cellAt (x : AccSet) (c : Nat) : Cell :=
  ⟨(x.acc.getD c 0).toInt, (x.res.getD c 0).toNat, x.sat.getD c false⟩

/-- The products of a pass, added cell by cell, segment by segment. -/
def addPass (x : AccSet) (segs : List (List Nat)) (acts wgts : List RowVal) : AccSet :=
  let zero : RowVal := ⟨0x10, -128, false, [], [], [], 0⟩
  let cells := (List.range 2048).map fun c =>
    (segs.map (segment (acts.getD (c / 64) zero) (wgts.getD (c % 64) zero))).foldl addSegment (cellAt x c)
  { x with acc := cells.map (fun c => BitVec.ofInt 48 c.acc), res := cells.map (fun c => BitVec.ofNat 3 c.res)
           sat := cells.map (·.sat) }

/-- The rows of a running pass for an anvil. -/
def runDesc (p : PassRun) : PassDesc :=
  ⟨p.abase, p.astride, p.wstride, p.wbase, p.wslab, p.len, p.start, p.count⟩

/-- Void codes among elements `start` to `start + n - 1` of a row of `len` elements at `off`; a zero row and a zero block give
none (R59, R64). -/
def rowVoids (s : State) (i off fmt len start n : Nat) : Nat :=
  let bs := readBytes s (csBase i + off) (rowSize fmt (laneAllowed fmt) len)
  let t := decodeTrailer (fieldLE bs (rowSize fmt (laneAllowed fmt) len - 8) 8)
  let vs := if isNarrow fmt then narrowFields bs fmt (laneAllowed fmt) len else wideFields bs fmt len
  let hs := if isNarrow fmt then headersOf bs fmt (laneAllowed fmt) len else []
  if t.exp = -128 then 0
  else ((List.range n).map fun k =>
    if isNarrow fmt && hs.getD ((start + k) / 32) 0 % 8 = 7 then 0
    else (codeValue fmt (vs.getD (start + k) 0)).2).sum

/-- Void codes among the first `n` elements of a pass. -/
def passVoids (s : State) (i : Nat) (p : PassRun) (n : Nat) : Nat :=
  let d := runDesc p
  (((List.range 32).map (actRow d) ++ (anvList p.anv.toNat).flatMap fun a => (List.range 64).map (wgtRow d a)).map fun o =>
    rowVoids s i o p.fmt p.len p.start n).sum

/-- The first `n` elements of a pass are added into the active sets of its anvils. -/
def applyPass (s : State) (i : Nat) (p : PassRun) (n : Nat) : State :=
  let d := runDesc p
  let s := countVoids s i (passVoids s i p n) (csBase i + p.abase)
  let acts := (passRows s i p.fmt d ((List.range 32).map (actRow d))).getD []
  let segs := passSegments p.fmt p.start n
  (anvList p.anv.toNat).foldl (fun t a =>
    let wgts := (passRows s i p.fmt d ((List.range 64).map (wgtRow d a))).getD []
    modCore t i fun c => c.setAnvil a
      { (c.anvil a) with active := addPass (c.anvil a).active segs acts wgts }) s

/-! ## Lanes -/

/-- The first entry of a queue that has not started: every earlier one has. -/
def headEntry (s : State) (i : Nat) (q : Queue) : Option QEntry :=
  ((coreAt s i).queue q).find? fun e => !e.started

/-- An anvil operation has started on every anvil it names. -/
def allBegun (e : QEntry) : Bool := e.begun.toNat = anvMask e.f

def laneQueue (lane : CtxId) : Queue := if lane = 0 then .anv0 else .anv1

/-- The lane that an anvil belongs to. -/
def anvilLane (s : State) (i a : Nat) : Queue := if isSplit s i && 2 ≤ a then .anv1 else .anv0

/-- A save is in progress: entries that have not started stay as they are (R208). -/
def coreSaving (s : State) (i : Nat) : Bool :=
  (coreAt s i).ctx0.stat = .saving || (coreAt s i).ctx1.stat = .saving

/-- R134: while the core saves, a Finished instance drains as its own drain operation names. -/
def finishedDrain (s : State) (i a : Nat) : Option QEntry :=
  let x := (coreAt s i).anvil a
  if x.shadow.st = .finished then
    ((coreAt s i).queue (anvilLane s i a)).find? fun e =>
      e.op = opAdrain && !e.off && (anvMask e.f).testBit a && !e.begun.toNat.testBit a && tagOf e = x.shadow.tag
  else none

/-- The entries of a lane that may start: those before its first WAIT or SIGNAL. -/
def laneReach (s : State) (i : Nat) (q : Queue) : List QEntry :=
  ((coreAt s i).queue q).takeWhile fun e => e.off || isTile e

/-- The operation next to start on an anvil: the oldest that names it and has not begun there (R173). -/
def nextOn (s : State) (i a : Nat) : Option QEntry :=
  (laneReach s i (anvilLane s i a)).find? fun e => !e.off && (anvMask e.f).testBit a && !e.begun.toNat.testBit a

/-- The entry next to start on an anvil, of the given opcode. -/
def nextFor (s : State) (i a op : Nat) : Option QEntry :=
  if coreSaving s i then (if op = opAdrain then finishedDrain s i a else none)
  else (nextOn s i a).bind fun e => if e.op = op then some e else none

def setBit4 (b : BitVec 4) (a : Nat) : BitVec 4 := b ||| BitVec.ofNat 4 (2 ^ a)

/-- The operation starts on an anvil. -/
def beginAnvil (s : State) (i a : Nat) (e : QEntry) : State :=
  setEntry s i (anvilLane s i a) e.qid fun x =>
    { x with begun := setBit4 x.begun a, started := (setBit4 x.begun a).toNat = anvMask x.f }

/-- The operation completes on an anvil; it is finished when all its anvils are. -/
def endAnvil (s : State) (i a qid : Nat) : State :=
  setEntry s i (anvilLane s i a) qid fun x =>
    { x with ended := setBit4 x.ended a, finished := (setBit4 x.ended a).toNat = anvMask x.f }

def modAnvil (s : State) (i a : Nat) (f : Anvil → Anvil) : State :=
  modCore s i fun c => c.setAnvil a (f (c.anvil a))

def anvilAt (s : State) (i a : Nat) : Anvil := (coreAt s i).anvil a

def lanePass (s : State) (i : Nat) (lane : CtxId) : Option PassRun :=
  if lane = 0 then (coreAt s i).pass0 else (coreAt s i).pass1
def setLanePass (s : State) (i : Nat) (lane : CtxId) (p : Option PassRun) : State :=
  modCore s i fun c => if lane = 0 then { c with pass0 := p } else { c with pass1 := p }

/-- A pass of either lane runs on the anvil. -/
def passOn (s : State) (i a : Nat) : Bool :=
  ((coreAt s i).pass0.map (·.anv.toNat.testBit a)).getD false
    || ((coreAt s i).pass1.map (·.anv.toNat.testBit a)).getD false

/-- A core whose anvils may act: powered, and no quench (R144). -/
def anvilsLive (s : State) (i : Nat) : Bool := !quenched s && domState s (domOf i) ≤ domLeaving

end Sys2Proof.Machine
end

