-- ==== Sys2Proof/Machine/AnvilRun.lean ====
section
/-! DEFINITION. Anvil operations as they start and complete (R119 to R128), ramps and their grants (R129 to
R131, R385), residue faults (R125, R140) and the fused output stage (R162 to R165). -/

namespace Sys2Proof.Machine

/-! ## Grant requests (R131, R385) -/

/-- What the anvils of a core ask of the bellows. -/
def wantsOf (c : Core) (i : CoreId) : List GrantReq :=
  let up := (List.range 4).filter fun a => (c.anvil a).ramp = .waitUp
  (if up.isEmpty then [] else [.up i (BitVec.ofNat 4 (up.foldl (fun m a => m + 2 ^ a) 0))])
    ++ (List.range 4).flatMap fun a =>
      if h : a < 4 then
        (match (c.anvil a).ramp with
          | .waitDown => [.down i ⟨a, h⟩]
          | .stop _ => [.down i ⟨a, h⟩]
          | .waitRev _ => [.reverse i ⟨a, h⟩]
          | _ => [])
      else []

def grantCore : GrantReq → CoreId
  | .up c _ => c
  | .down c _ => c
  | .reverse c _ => c
  | .vector c => c

def isVector : GrantReq → Bool
  | .vector _ => true
  | _ => false

def dither (s : State) : Nat :=
  getF s FAB_NODE FAB_NODE_NODE * 0x9E37 % 2 ^ 16 * min 20 (getF s PWR_CTL PWR_CTL_DITHER) * 100 / 2 ^ 16

/-- R387: every anvil of the device has been idle for 2 µs. -/
def idleLong (s : State) : Bool := match s.power.idleSince with
  | some t => decide (2000 ≤ s.now - t)
  | none => false

/-- Requests join the queue of the bellows in order of arrival; the first, after an idle time, meets the start
dither. -/
def addGrants (s : State) (gs : List GrantReq) : State :=
  if gs.isEmpty then s
  else
    let first := s.power.grants.isEmpty && idleLong s
    { s with power := { s.power with
      grants := s.power.grants ++ gs, floored := false
      dither := if first then some (s.now + dither s) else s.power.dither } }

/-- Requests of a core join the queue of the bellows; withdrawn ones leave it. -/
def syncGrants (s : State) (i : CoreId) : State :=
  let w := wantsOf (coreAt s i.val) i
  let kept := s.power.grants.filter fun g => grantCore g != i || isVector g || w.contains g
  addGrants { s with power := { s.power with grants := kept } } (w.filter fun g => !kept.contains g)

/-! ## Ramps -/

/-- An anvil that a waiting pass names asks for its ramp, or withdraws its ramp-down (R130). -/
def rampUpReq (r : Ramp) : Ramp := if r = .idle then .waitUp else passArrives r

/-- A pass of the lane still to start, or running, names the anvil. -/
def passPending (s : State) (i a : Nat) : Bool :=
  passOn s i a || ((coreAt s i).queue (anvilLane s i a)).any fun e =>
    e.op = opAmac && !e.off && (anvMask e.f).testBit a && !e.started

/-- R130: an anvil with no pass to feed ramps down, and under a quench every anvil does (R144). -/
def settleRamp (s : State) (i a : Nat) : State :=
  if passPending s i a && !quenched s then s
  else modAnvil s i a fun x => { x with ramp := match x.ramp with
    | .full => .waitDown
    | .waitRev k => .stop k
    | r => r }

/-- No anvil of the device is at a level other than idle (R131). -/
def anvilsIdle (s : State) : Bool :=
  s.cores.all fun c => c.anvils.all fun a => a.ramp = .idle || a.ramp = .waitUp

/-- The time from which every anvil has been idle. -/
def noteIdle (s : State) : State :=
  if !anvilsIdle s then { s with power := { s.power with idleSince := none } }
  else { s with power := { s.power with idleSince := some (s.power.idleSince.getD s.now) } }

/-- RAMP_STAGE: eight beats later the ramp stands one stage further. -/
def rampStage (s : State) (i : CoreId) (a : Nat) : State :=
  let t := modAnvil s i.val a fun x => { x with ramp := match x.ramp with
    | .up k => if 6 ≤ k then .full else .up (k + 1)
    | .down k => if 6 ≤ k then .idle else .down (k + 1)
    | r => r }
  noteIdle (syncGrants (settleRamp t i.val a) i)

/-! ## Zero, load, swap -/

/-- Every row of the drain, if any, has been checked and handed on (Table 5-7). -/
def rowsOut (x : Anvil) : Bool := match x.drain with
  | some d => d.left = 0
  | none => true

def shadowFree (x : Anvil) : Bool := x.shadow.st = .empty && rowsOut x && x.load.isNone

def doZero (s : State) (i a : Nat) : State :=
  match nextFor s i a opAzero with
  | some e =>
    if !anvilsLive s i || !shadowFree (anvilAt s i a) then s
    else
      endAnvil (modAnvil (beginAnvil s i a e) i a fun x => { x with shadow := zeroSet (tagOf e) }) i a e.qid
  | none => s

def loadSrcOf (e : QEntry) : LoadSrc :=
  if aloadSlot e.f then .slot e.ga.toNat else .rows e.ga.toNat (aloadStride e.f)

/-- The part of a core that a partition is, for CORE_TILEFAULT. -/
def partOf (s : State) (i a : Nat) : Nat := if isSplit s i && 2 ≤ a then 1 else 0

/-- A tile fault found by an operation of an entry (R140). -/
def tileFault (s : State) (i a : Nat) (e : QEntry) (col row cause : Nat) (residue : Bool) : State :=
  entryFault (setTileFault s i (partOf s i a) col row a cause) i (anvilLane s i a) e faultTile residue

def loadCause (e : LoadSrc) : Nat := match e with
  | .slot _ => 3
  | .rows _ _ => 2

/-- LOAD starts: rows that are not raw rows give the format fault (R84). -/
def doLoad (s : State) (i a : Nat) (ecc : Bool) : State :=
  match nextFor s i a opAload with
  | some e =>
    if !anvilsLive s i || !shadowFree (anvilAt s i a) then s
    else if ecc then tileFault s i a e 0 0 (loadCause (loadSrcOf e)) false
    else if (loadSet s i a (tagOf e) (loadSrcOf e)).isNone then
      entryFault s i (anvilLane s i a) e faultFormat
    else modAnvil (beginAnvil s i a e) i a fun x => { x with load := some ⟨tagOf e, e.qid⟩ }
  | none => s

def doLoadComplete (s : State) (i a : Nat) : State :=
  match (anvilAt s i a).load with
  | none => s
  | some l =>
    if !anvilsLive s i then s
    else match entryOf s i (anvilLane s i a) l.qid with
      | none => modAnvil s i a fun x => { x with load := none }
      | some e => match loadSet s i a l.tag (loadSrcOf e) with
        | none => entryFault s i (anvilLane s i a) e faultFormat
        | some r =>
          countVoids (endAnvil (modAnvil s i a fun x => { x with shadow := r.1, load := none }) i a l.qid) i r.2
            (csBase i + e.ga.toNat)

/-- The roles of the two sets exchange (R119): the shadow becomes Running, the active set Finished. -/
def swapSets (x : Anvil) : Anvil :=
  { x with
    active := if x.shadow.st = .prepared then { x.shadow with st := .running } else .cleared
    shadow := if x.active.st = .running then { x.active with st := .finished } else .cleared }

def doSwap (s : State) (i a : Nat) : State :=
  match nextFor s i a opAswap with
  | some e =>
    let x := anvilAt s i a
    if !anvilsLive s i || passOn s i a || x.load.isSome || !rowsOut x || x.shadow.st = .finished then s
    else endAnvil (modAnvil (beginAnvil s i a e) i a swapSets) i a e.qid
  | none => s

/-! ## Passes -/

def rampsFull (s : State) (i m : Nat) : Bool := (anvList m).all fun a => (anvilAt s i a).ramp = .full

/-- Passes of a lane that no earlier operation of their anvils holds back. -/
def openPasses (s : State) (i : Nat) (lane : CtxId) : List QEntry :=
  (laneReach s i (laneQueue lane)).filter fun e => e.op = opAmac && !e.off && !e.started &&
    (anvList (anvMask e.f)).all fun a => (nextOn s i a).map (·.qid) = some e.qid

/-- The next pass of a lane: the oldest whose anvils are up, else the oldest. -/
def nextPass (s : State) (i : Nat) (lane : CtxId) : Option QEntry :=
  if coreSaving s i then none
  else ((openPasses s i lane).find? fun e => rampsFull s i (anvMask e.f)).or (openPasses s i lane).head?

def amacDesc (s : State) (i : Nat) (e : QEntry) : List Word64 :=
  readWords s (csBase i + addrOf e.ga e.f) 8

/-- The rows of the named anvils are in order: format and layout (R70, R72, R115), then scale (R83). -/
def passFault (s : State) (i : Nat) (e : QEntry) : Option Nat :=
  let ws := amacDesc s i e
  let d := passDescOf ws
  let fmt := amacFmt e.f
  let as := anvList (anvMask e.f)
  match passDescFault ws fmt with
  | some c => some c
  | none =>
    let offs := (List.range 32).map (actRow d) ++ as.flatMap fun a => (List.range 64).map (wgtRow d a)
    if !rowsFit fmt d offs then some faultAddress
    else match passRows s i fmt d ((List.range 32).map (actRow d)) with
      | none => some faultFormat
      | some acts =>
        let ws := as.map fun a => (a, passRows s i fmt d ((List.range 64).map (wgtRow d a)))
        if ws.any (·.2.isNone) then some faultFormat
        else if ws.all fun p =>
            scaleOk (anvilAt s i p.1).active.ea acts && scaleOk (anvilAt s i p.1).active.eb (p.2.getD []) then none
        else some faultScale

/-- The elements that a pass re-issued from POS still has to run (R135, R193). -/
def fromPos (d : PassDesc) (pos : Nat) : PassDesc := { d with start := d.start + pos, count := d.count - pos }

/-- The pass starts: exponents are latched and the lane is taken. -/
def startPass (s : State) (i : Nat) (lane : CtxId) (e : QEntry) : State :=
  let d := fromPos (passDescOf (amacDesc s i e)) e.pos
  let fmt := amacFmt e.f
  let as := anvList (anvMask e.f)
  let acts := (passRows s i fmt d ((List.range 32).map (actRow d))).getD []
  let s1 := as.foldl (fun t a =>
    let wgts := (passRows s i fmt d ((List.range 64).map (wgtRow d a))).getD []
    modAnvil t i a fun x =>
      { x with active := { x.active with ea := latch x.active.ea acts, eb := latch x.active.eb wgts } }) s
  let run : PassRun :=
    { qid := e.qid, tag := tagOf e, anv := BitVec.ofNat 4 (anvMask e.f), fmt := fmt, abase := d.abase
      astride := d.astride, wstride := d.wstride, wbase := d.wbase, wslab := d.wslab, len := d.len
      start := d.start, count := d.count, chain := amacChain e.f, pc := e.pc, base := e.pos }
  setEntry (setLanePass s1 i lane (some run)) i (laneQueue lane) e.qid fun x =>
    { x with begun := BitVec.ofNat 4 (anvMask x.f), started := true }

/-- The anvils of a pass ask for their ramp together (R131). -/
def askRamp (s : State) (i : CoreId) (m : Nat) : State :=
  syncGrants ((anvList m).foldl (fun t a => modAnvil t i.val a fun x => { x with ramp := rampUpReq x.ramp }) s) i

/-- MULTIPLY_ACCUMULATE: the pass next in its lane asks for its ramp; it starts once its anvils are up, its tag
is Running and every earlier pass of the lane has added its last product (R121). -/
def doPass (s : State) (i : CoreId) (lane : CtxId) (ecc : Bool) : State :=
  match nextPass s i.val lane with
  | none => s
  | some e =>
    if !anvilsLive s i.val then s
    else
      let s := askRamp s i (anvMask e.f)
      let ready := rampsFull s i.val (anvMask e.f) && (lanePass s i.val lane).isNone
        && (anvList (anvMask e.f)).all fun a =>
          (anvilAt s i.val a).active.st = .running && (anvilAt s i.val a).active.tag = tagOf e
      if !ready then s
      else if ecc then tileFault s i.val ((anvList (anvMask e.f)).headD 0) e 0 0 2 false
      else match passFault s i.val e with
        | some c => entryFault s i.val (laneQueue lane) e c
        | none => startPass s i.val lane e

/-- PASS_COMPLETE: every product is in its accumulator; an anvil without a further pass ramps down. -/
def passComplete (s : State) (i : CoreId) (lane : CtxId) : State :=
  match lanePass s i.val lane with
  | none => s
  | some p =>
    if !anvilsLive s i.val || coreSaving s i.val then s
    else if !rampsFull s i.val p.anv.toNat then askRamp s i p.anv.toNat
    else
      let s := setLanePass (applyPass s i.val p p.count) i.val lane none
      let s := setEntry s i.val (laneQueue lane) p.qid fun x => { x with ended := x.begun, finished := true }
      syncGrants ((anvList p.anv.toNat).foldl (fun t a => settleRamp t i.val a) s) i

/-! ## Drains (R124 to R127) -/

def drainDestOf (e : QEntry) : DrainDest :=
  if adrainDest e.f = 0 then .fused e.ga.toNat else .raw e.ga.toNat (adrainStride e.f)

def fillOf (e : QEntry) : Fill :=
  match fillKind e.f with
  | 0 => .none
  | 1 => .zero (fillTag e)
  | 2 => .rawRows (fillTag e) e.gb.toNat (adrainStride e.f)
  | _ => .slot (fillTag e) e.gb.toNat

/-- The set that a fill brings; none where its rows are not raw rows. -/
def fillSet (s : State) (i a : Nat) : Fill → Option (AccSet × Nat)
  | .none => some (.cleared, 0)
  | .zero t => some (zeroSet t, 0)
  | .rawRows t addr stride => loadSet s i a t (.rows addr stride)
  | .slot t addr => loadSet s i a t (.slot addr)

/-! ### The fused output descriptor (Table 6-3) -/

structure FusedDesc where
  ofmt : Nat
  oexp : Int
  len : Nat
  colblk : Nat
  act : Bool
  bias : Bool
  pith : Bool
  mon : Bool
  layer : Nat
  role : Nat
  dest : Nat
  stride : Nat
  pstride : Nat
  biasAt : Nat
  actAt : Nat
  pithAt : Nat
  pexpAt : Nat
  monAt : Nat
  deriving DecidableEq, Repr

def fusedDescOf (ws : List Word64) : FusedDesc :=
  { ofmt := wfield ws 0 63 56, oexp := sext 8 (wfield ws 0 55 48), len := wfield ws 0 47 36 + 1
    colblk := wfield ws 0 35 30, act := wfield ws 0 29 29 = 1, bias := wfield ws 0 28 28 = 1
    pith := wfield ws 0 27 27 = 1, mon := wfield ws 0 26 26 = 1, layer := wfield ws 0 25 16
    role := if wfield ws 0 15 15 = 1 then 3 else 0, dest := wfield ws 1 63 0, stride := wfield ws 2 63 32
    pstride := wfield ws 2 31 0, biasAt := wfield ws 3 63 0, actAt := wfield ws 4 63 0
    pithAt := wfield ws 5 63 0, pexpAt := wfield ws 6 63 0, monAt := wfield ws 7 63 0 }

def fusedLane (d : FusedDesc) : Bool := laneAllowed d.ofmt

/-- The fault of a fused output descriptor for the anvils of a drain. -/
def fusedFault (ws : List Word64) (as : List Nat) : Option Nat :=
  let d := fusedDescOf ws
  firstFault [
    faultIf (d.dest % 8 != 0 || d.stride % 8 != 0 || (d.pith && d.pstride % 8 != 0)) faultAlign,
    faultIf (!fmtValid d.ofmt || d.ofmt = 0x30 || d.oexp = -128 || d.len ≤ 64 * d.colblk
      || (d.pith && d.pstride = 0) || wfield ws 0 14 0 != 0) faultFormat,
    faultIf (!csRangeOk d.dest (31 * d.stride + rowSize d.ofmt (fusedLane d) d.len)
      || (d.bias && !csRangeOk d.biasAt (rowSize 0x20 false d.len)) || (d.act && !csRangeOk d.actAt 2112)
      || (d.pith && as.any fun a => !csRangeOk (d.pithAt + (32 * a + 31) * d.pstride) rawRowSize
        || !csRangeOk d.pexpAt (64 * (a + 1)))
      || (d.mon && !csRangeOk d.monAt 2112)) faultAddress]

/-- DRAIN starts once the swap that made the tile Finished has taken place. An uncorrectable error in its descriptor is
CAUSE 4, one in the rows or the slot of its fill CAUSE 2 or 3, the code of its FILL (R140). -/
def doDrain (s : State) (i a : Nat) (err : Option DrainRead) : State :=
  match nextFor s i a opAdrain with
  | none => s
  | some e =>
    let x := anvilAt s i a
    if !anvilsLive s i || x.drain.isSome || x.load.isSome || x.shadow.st != .finished || x.shadow.tag != tagOf e then s
    else
      let ws := if adrainDest e.f = 0 then readWords s (csBase i + e.ga.toNat) 8 else []
      let bad := if adrainDest e.f = 0 then fusedFault ws (anvList (anvMask e.f)) else none
      if err = some .descriptor && adrainDest e.f = 0 then coreStoreFault s i (anvilLane s i a) e (partOf s i a) a
      else match bad with
      | some c => entryFault s i (anvilLane s i a) e c
      | none =>
        if err = some .fill && 2 ≤ fillKind e.f then tileFault s i a e 0 0 (fillKind e.f) false
        else if (fillSet s i a (fillOf e)).isNone then entryFault s i (anvilLane s i a) e faultFormat
        else
          let run : DrainRun :=
            { tag := tagOf e, dest := drainDestOf e, fill := fillOf e, left := 32, qid := e.qid
              anySat := x.shadow.sat.any id, desc := ws, handed := [], set := x.shadow }
          modAnvil (beginAnvil s i a e) i a fun x => { x with drain := some run }

/-- A bit flipped in a value on the chain. -/
def upsetSet (x : AccSet) (r : Nat) (u : Upset) : AccSet :=
  let c := 64 * r + u.col.val
  { x with acc := x.acc.set c ((x.acc.getD c 0) ^^^ BitVec.ofNat 48 (2 ^ u.bit.val)) }

/-- The first column whose residue differs from the one that travelled with it (R125). -/
def residueMiss (x : AccSet) (r : Nat) : Option Nat :=
  (List.range 64).find? fun j =>
    let c := 64 * r + j
    !(x.sat.getD c false) && resOf (x.acc.getD c 0).toInt != x.res.getD c 0

def hourNs : Nat := 3600000000000

/-- R378: the RES_LIMIT-th residue fault within RES_WINDOW hours makes a retirement due. -/
def noteResidue (s : State) (i : Nat) : State :=
  let w := getF s SURV_RETIRE SURV_RETIRE_RES_WINDOW * hourNs
  let ts := s.now :: (coreAt s i).resTimes.filter fun t => s.now - t ≤ w
  let s := modCore s i fun c => { c with resTimes := ts }
  if getF s SURV_RETIRE SURV_RETIRE_RES_LIMIT ≤ ts.length then dueRetire s i 1 else s

/-- A residue mismatch is counted, recorded and kept for R378 (R125). -/
def reportResidue (s : State) (i a col row : Nat) : State :=
  let s := noteResidue (satF s (CORE_RESCNT i) CORE_RESCNT_MISMATCH 1) i
  let s := setTileFault s i (partOf s i a) col row a 1
  makeRecord s (srcCore i) 0x109 [w64 ((getR s (CORE_TILEFAULT i)).toNat % 2 ^ 18)]

/-- A residue fault: the mismatch is reported and the task abandoned (R125, R140). -/
def residueFault (s : State) (i a col row : Nat) (e : QEntry) : State :=
  tileFault (reportResidue s i a col row) i a e col row 1 true

/-- The row leaves: written raw, or handed on; after row 0 the shadow holds its fill. -/
def rowOut (s : State) (i a r : Nat) (d : DrainRun) : State :=
  let s := match d.dest with
    | .raw addr stride => writeBytes s (csBase i + addr + (32 * a + r) * stride) (rawRowBytes d.set r)
    | .fused _ => s
  let handed := match d.dest with
    | .raw _ _ => d.handed
    | .fused _ => d.handed ++ [r]
  let shadow := if r = 0 then (fillSet s i a d.fill).getD (.cleared, 0) else ((anvilAt s i a).shadow, 0)
  countVoids (modAnvil s i a fun x =>
    { x with shadow := shadow.1, drain := some { d with left := r, handed := handed } }) i shadow.2 0

/-- The entry of a drain has met a fault that a quench holds back. -/
def drainFailed (s : State) (i a : Nat) (d : DrainRun) : Bool :=
  ((entryOf s i (anvilLane s i a) d.qid).bind (·.failed)).isSome

def doDrainRow (s : State) (i a : Nat) (u : Option Upset) : State :=
  match (anvilAt s i a).drain with
  | none => s
  | some d =>
    if d.left = 0 || domState s (domOf i) > domLeaving || drainFailed s i a d then s
    else
      let r := d.left - 1
      let d := { d with set := match u with
        | some v => upsetSet d.set r v
        | none => d.set }
      match residueMiss d.set r, entryOf s i (anvilLane s i a) d.qid with
      | some col, some e => residueFault s i a col r e
      | _, _ => rowOut s i a r d

/-! ## The fused output stage (R163 to R165) -/

/-- Saturation at the Q48 bound, with its mark. -/
def sat48 (v : Int) : Int × Bool := satCode (2 ^ 47 - 1) v

/-- An exact addend, and a sum that saturates. -/
def addMark (p : Int × Bool) (v : Int) : Int × Bool := let r := sat48 (p.1 + v); (r.1, p.2 || r.2)

/-- The pith partial of a row: its codes and exponent, and the exponents of its columns. -/
structure PithPart where
  row : RowVal
  exps : List Int
  deriving DecidableEq, Repr

def pithPart (s : State) (i a r : Nat) (d : FusedDesc) : Option PithPart :=
  (readRawRow s i (d.pithAt + (32 * a + r) * d.pstride)).map fun v =>
    ⟨v, (List.range 64).map fun j => sext 8 (ofLE (readBytes s (csBase i + d.pexpAt + 64 * a + j) 1))⟩

/-- The parts that a row may need; none raises the format fault. -/
structure FusedParts where
  pith : Option PithPart
  bias : Option RowVal
  table : Option ActTable
  deriving DecidableEq, Repr

def optPart {α : Type} (on : Bool) (v : Option α) : Option (Option α) := if on then v.map some else some none

def fusedParts (s : State) (i a r : Nat) (d : FusedDesc) : Option FusedParts :=
  match optPart d.pith (pithPart s i a r d), optPart d.bias (readRow s i d.biasAt 0x20 d.len false false),
      optPart d.act (readTable s i d.actAt) with
  | some p, some b, some t => some ⟨p, b, t⟩
  | _, _, _ => none

/-- The intermediate z of column `j` of row `r` (R163), with its saturation mark. -/
def fusedZ (d : FusedDesc) (x : AccSet) (parts : FusedParts) (a r j : Nat) : Int × Bool :=
  let k := d.oexp - 12
  let c := 64 * r + j
  let main : Int × Bool := match x.ea.getD r none, x.eb.getD j none with
    | some ea, some eb => sat48 (shiftRne (x.acc.getD c 0).toInt (ea + eb - 12 - k))
    | _, _ => (0, false)
  let z := match parts.pith with
    | some p => if p.row.exp = -128 then main
      else addMark main (shiftRne (p.row.codes.getD j 0) (p.row.exp + p.exps.getD j 0 - 12 - k))
    | none => main
  let z := match parts.bias with
    | some b => if b.exp = -128 then z
      else addMark z (shiftRne (b.codes.getD (64 * (d.colblk + a) + j) 0) (b.exp - k))
    | none => z
  match parts.table with
  | some t =>
    let x := sat48 (shiftRne z.1 (k - t.texp))
    let y := evalTable t x.1
    let o := sat48 (shiftRne y.1 (t.texp - k))
    (o.1, z.2 || x.2 || y.2 || o.2)
  | none => z

/-- A piece of an output row: codes, steps and clips of its blocks, element marks. -/
structure Piece where
  codes : List Int
  steps : List Nat
  clips : List Bool
  sats : List Bool
  zeroed : List Bool
  deriving DecidableEq, Repr

/-- R164 on the columns of a piece below the row length. -/
def pieceOf (d : FusedDesc) (zs : List (Int × Bool)) (cellSat : List Bool) : Piece :=
  let k := d.oexp - 12
  let marks := (zs.zip cellSat).map fun p => p.1.2 || p.2
  let vs := zs.map (·.1)
  let q := encodeUnder d.ofmt k d.oexp vs false
  let sats := (q.sats.zip marks).map fun p => p.1 || p.2
  let clips := (q.steps.zipIdx).map fun p =>
    p.1 != 7 && ((sats.drop (32 * p.2)).take 32).any id
  { codes := q.codes, steps := q.steps, clips := clips, sats := sats, zeroed := q.zeroed }

/-- The payload of a piece, whole words. -/
def pieceBytes (d : FusedDesc) (p : Piece) : List Byte :=
  if isNarrow d.ofmt then
    let w := (packing d.ofmt (fusedLane d)).1
    let n := (packing d.ofmt (fusedLane d)).2
    let fs := p.codes.zipIdx.map fun c => if p.steps.getD (c.2 / 32) 7 = 7 then 0 else codeField d.ofmt w c.1
    (groupsOf n (ceilDiv fs.length n) fs).flatMap fun g => leBytes 8 (packFields w g)
  else
    let b := p.codes.flatMap fun q => leBytes (wideBytes d.ofmt) (wrapBits (8 * wideBytes d.ofmt) q)
    b ++ List.replicate (ceilDiv b.length 8 * 8 - b.length) 0

/-- The header nibbles of a piece's blocks, each written alone. -/
def writeNibble (s : State) (a : Nat) (high : Bool) (v : Nat) : State :=
  let old := (readByte s a).toNat
  writeBytes s a [BitVec.ofNat 8 (if high then old % 16 + 16 * v else old / 16 * 16 + v)]

def writeHeaders (s : State) (base : Nat) (d : FusedDesc) (c0 : Nat) (p : Piece) : State :=
  ((p.steps.zip p.clips).zipIdx).foldl (fun s q =>
    let b := c0 / 32 + q.2
    let v := if q.1.1 = 7 then 7 else (if q.1.2 then 8 else 0) + q.1.1
    writeNibble s (base + 8 * payloadWords d.ofmt (fusedLane d) d.len + b / 2) (b % 2 = 1) v) s

/-- Payload, header nibbles and trailer of a piece. -/
def writePiece (s : State) (i a r : Nat) (d : FusedDesc) (p : Piece) : State :=
  let base := csBase i + d.dest + r * d.stride
  let c0 := 64 * (d.colblk + a)
  let off := if isNarrow d.ofmt then 8 * (c0 / (packing d.ofmt (fusedLane d)).2) else wideBytes d.ofmt * c0
  let s := writeBytes s (base + off) (pieceBytes d p)
  let s := if isNarrow d.ofmt then writeHeaders s base d c0 p else s
  writeBytes s (base + rowSize d.ofmt (fusedLane d) d.len - 8)
    (leBytes 8 (encodeTrailer ⟨fusedLane d, false, d.len, d.ofmt, d.oexp⟩))

/-- R165: the counts of a piece in the core and in its monitor record. -/
def countPiece (s : State) (i : Nat) (e : QEntry) (a : Nat) (d : FusedDesc) (zs : List (Int × Bool)) (p : Piece) :
    State :=
  let s := countFosat s i (countTrue p.sats)
  if !d.mon then s
  else
    match placeMonitor s i e.ctx d.monAt d.layer d.role (layerPith s d.layer) with
    | none => entryFault s i (anvilLane s i a) e faultFormat
    | some s =>
      let s := monAdd s i d.monAt 0 31 0 (countTrue p.sats)
      let s := monAdd s i d.monAt 0 63 32 (countTrue p.zeroed)
      let c0 := 64 * (d.colblk + a)
      bumpEntries s i d.monAt fun c _ =>
        if c < c0 || c0 + p.codes.length ≤ c then none
        else some (boolN ((zs.getD (c - c0) (0, false)).1 != 0), boolN (p.sats.getD (c - c0) false),
          boolN (p.zeroed.getD (c - c0) false))

/-- Void codes of the columns that a piece of `n` columns reads, in the bias row and in the raw row of its pith partial
(R59). -/
def countFusedVoids (s : State) (i a r n : Nat) (d : FusedDesc) : State :=
  let p := d.pithAt + (32 * a + r) * d.pstride
  let s := if d.bias then countVoids s i (rowVoids s i d.biasAt 0x20 d.len (64 * (d.colblk + a)) n) (csBase i + d.biasAt)
    else s
  if d.pith then countVoids s i (rowVoids s i p 0x30 64 0 n) (csBase i + p) else s

/-- The fused stage reads core store for a row: its bias, table, pith partial or monitor record, or the word of a header
nibble (R257). -/
def fusedReads (d : FusedDesc) : Bool := d.bias || d.act || d.pith || d.mon || isNarrow d.ofmt

/-- FUSED_OUTPUT_ROW: the oldest row handed on is written. A piece beyond the row writes nothing, and a row of a poisoned set
is discarded (R140). -/
def doFusedRow (s : State) (i a : Nat) (ecc : Bool) : State :=
  match (anvilAt s i a).drain with
  | none => s
  | some d => match d.handed, entryOf s i (anvilLane s i a) d.qid with
    | r :: rest, some e =>
      let fd := fusedDescOf d.desc
      let s := modAnvil s i a fun x => { x with drain := some { d with handed := rest } }
      let c0 := 64 * (fd.colblk + a)
      if fd.len ≤ c0 || e.failed.isSome || (anvilAt s i a).poison then s
      else if ecc && fusedReads fd then coreStoreFault s i (anvilLane s i a) e (partOf s i a) a
      else match fusedParts s i a r fd with
        | none => entryFault s i (anvilLane s i a) e faultFormat
        | some parts =>
          let zs := (List.range (min 64 (fd.len - c0))).map (fusedZ fd d.set parts a r)
          let p := pieceOf fd zs ((d.set.sat.drop (64 * r)).take 64)
          countPiece (writePiece (countFusedVoids s i a r zs.length fd) i a r fd p) i e a fd zs p
    | _, _ => s

/-! ## Completion of a drain -/

/-- R77: an output row of a fused drain to Q16 that is sub-floor becomes a zero row. -/
def flushOut (i : Nat) (d : FusedDesc) (s : State) (r : Nat) : State :=
  match readRow s i (d.dest + r * d.stride) 0x10 d.len false false with
  | some v =>
    if v.exp = -127 && v.codes.all (fun q => q.natAbs < 16384) then
      raiseForced (writeBytes s (csBase i + d.dest + r * d.stride)
        ((zeroQuant 0x10 (v.codes.map fun _ => false) false).row 0x10 false)) i
    else s
  | none => s

/-- A fused drain is complete on all its anvils: the drain that wrote a row's last column flushes the row (log entry 173), and
the monitor record is named (R199). -/
def endFused (s : State) (i : Nat) (e : QEntry) (d : FusedDesc) : State :=
  let s := if d.ofmt = 0x10 && d.oexp = -127 && (anvList (anvMask e.f)).any (fun a => d.colblk + a = (d.len - 1) / 64) then
      (List.range 32).foldl (flushOut i d) s
    else s
  if d.mon then
    let t := (nameMonitor s i e.ctx d.monAt d.layer d.role (layerPith s d.layer)).getD s
    let x := ctxAt t i e.ctx
    setCtxAt t i e.ctx { x with placed := x.placed.filter fun m => m.1 != d.monAt }
  else s

/-- DRAIN_COMPLETE: row 0 has been handed on and the fused stage has written its last row; the tag is released
and a saturated tile counted (R127, R133, R174). -/
def doDrainComplete (s : State) (i a : Nat) : State :=
  match (anvilAt s i a).drain with
  | none => s
  | some d =>
    if d.left != 0 || !d.handed.isEmpty || drainFailed s i a d then s
    else
      let s := endAnvil (modAnvil (countTileSat s i (boolN d.anySat)) i a fun x => { x with drain := none }) i a d.qid
      match entryOf s i (anvilLane s i a) d.qid, d.dest with
      | some e, .fused _ => if e.finished then endFused s i e (fusedDescOf d.desc) else s
      | _, _ => s

end Sys2Proof.Machine
end

