-- ==== Sys2Proof/Machine/Sha3.lean ====
section
/-! DEFINITION. SHA3-512 of FIPS 202, which R418 names for every digest (log entry 31: the standard's
text is outside the spec). -/

namespace Sys2Proof.Machine

def rotl (x : Word64) (n : Nat) : Word64 := x.rotateLeft n

def lane (a : List Word64) (x y : Nat) : Word64 := a.getD (x % 5 + 5 * (y % 5)) 0

/-- Rotation offsets, for lane x + 5y. -/
def keccakRot : List Nat :=
  [0, 1, 62, 28, 27, 36, 44, 6, 55, 20, 3, 10, 43, 25, 39, 41, 45, 15, 21, 8, 18, 2, 61, 56, 14]

def keccakRc : List Word64 :=
  [0x0000000000000001, 0x0000000000008082, 0x800000000000808A, 0x8000000080008000,
   0x000000000000808B, 0x0000000080000001, 0x8000000080008081, 0x8000000000008009,
   0x000000000000008A, 0x0000000000000088, 0x0000000080008009, 0x000000008000000A]
  ++ [0x000000008000808B, 0x800000000000008B, 0x8000000000008089, 0x8000000000008003,
   0x8000000000008002, 0x8000000000000080, 0x000000000000800A, 0x800000008000000A,
   0x8000000080008081, 0x8000000000008080, 0x0000000080000001, 0x8000000080008008]

def thetaC (a : List Word64) (x : Nat) : Word64 :=
  lane a x 0 ^^^ lane a x 1 ^^^ lane a x 2 ^^^ lane a x 3 ^^^ lane a x 4

/-- One round: theta, rho and pi, chi, iota. -/
def keccakRound (a : List Word64) (rc : Word64) : List Word64 :=
  let c := (List.range 5).map (thetaC a)
  let d := (List.range 5).map fun x => c.getD ((x + 4) % 5) 0 ^^^ rotl (c.getD ((x + 1) % 5) 0) 1
  let t := (List.range 25).map fun i => a.getD i 0 ^^^ d.getD (i % 5) 0
  let b := (List.range 25).map fun i =>
    let x := i / 5
    let y := i % 5
    -- B[y, 2x + 3y] = rot(A[x, y]): the lane that lands at column y and row x
    let sx := (y + 3 * x) % 5
    let sy := y
    rotl (lane t sx sy) (keccakRot.getD (sx + 5 * sy) 0)
  (List.range 25).map fun i =>
    let x := i % 5
    let y := i / 5
    let v := lane b x y ^^^ (~~~ (lane b (x + 1) y) &&& lane b (x + 2) y)
    if i = 0 then v ^^^ rc else v

def keccakF (a : List Word64) : List Word64 := keccakRc.foldl keccakRound a

/-- The rate of SHA3-512 is 72 bytes. -/
def absorb : Nat → List Word64 → List Byte → List Word64
  | 0, a, _ => a
  | n + 1, a, bs =>
    let ws := wordsOf 9 bs
    absorb n (keccakF ((List.range 25).map fun i => a.getD i 0 ^^^ ws.getD i 0)) (bs.drop 72)

def shaPad (bs : List Byte) : List Byte :=
  let k := 72 - bs.length % 72
  if k = 1 then bs ++ [0x86] else bs ++ [0x06] ++ List.replicate (k - 2) 0 ++ [0x80]

def sha3 (bs : List Byte) : List Byte :=
  let p := shaPad bs
  bytesOfWords ((absorb (p.length / 72) (List.replicate 25 0) p).take 8)

end Sys2Proof.Machine
end

