-- ==== Sys2Proof/Machine/UpdateRun.lean ====
section
/-! DEFINITION. The update engine (R166 to R169, R198): the step multiplier of a layer and the move of one
master row. -/

namespace Sys2Proof.Machine

/-! ## rne24 (R167) -/

/-- A mantissa from 2^23 to 2^24 - 1 and an exponent. -/
structure M24 where
  m : Nat
  e : Int
  deriving DecidableEq, Repr

def scaleUp (a : Nat) (k : Int) : Nat := if 0 ≤ k then a * 2 ^ k.toNat else a
def scaleDen (b : Nat) (k : Int) : Nat := if 0 ≤ k then b else b * 2 ^ (-k).toNat

/-- rne24 of a / b * 2^x for positive a and b. -/
def rne24 (a b : Nat) (x : Int) : M24 :=
  let l : Int := (Nat.log2 a : Int) - (Nat.log2 b : Int)
  let k0 : Int := 24 - l
  let k := if 2 ^ 24 ≤ scaleUp a k0 / scaleDen b k0 then k0 - 1 else k0
  let m := (rneDiv (scaleUp a k) (scaleDen b k)).toNat
  if m = 2 ^ 24 then ⟨2 ^ 23, x - k + 1⟩ else ⟨m, x - k⟩

/-- Integer square root, one bit at a time from bit `n`. -/
def isqrtFrom (v : Nat) : Nat → Nat → Nat
  | 0, r => r
  | n + 1, r => isqrtFrom v n (if (r + 2 ^ n) * (r + 2 ^ n) ≤ v then r + 2 ^ n else r)

def isqrt (v : Nat) : Nat := isqrtFrom v (Nat.log2 v / 2 + 1) 0

/-- rne24 of the square root of a / b * 2^x for positive a and b, exact: the half-way point is compared with
the square. -/
def rne24Sqrt (a b : Nat) (x : Int) : M24 :=
  let a := if x % 2 = 0 then a else 2 * a
  let h := (x - x % 2) / 2
  let l : Int := (Nat.log2 a : Int) - (Nat.log2 b : Int)
  let k : Int := 27 - l / 2
  let num := scaleUp a (2 * k)
  let den := scaleDen b (2 * k)
  let t := isqrt (num / den)
  let j := Nat.log2 t - 23
  let q := t / 2 ^ j
  let half := (2 * q + 1) * 2 ^ (j - 1)
  let up := den * half * half < num || (den * half * half = num && q % 2 = 1)
  let m := if up then q + 1 else q
  if m = 2 ^ 24 then ⟨2 ^ 23, h - k + j + 1⟩ else ⟨m, h - k + j⟩

/-! ## VUMU (R167, R168) -/

/-- Inputs of a layer (Table 7-28) and its update descriptor (Table 6-5). -/
structure UmuIn where
  cq : Nat
  ce : Int
  n : Nat
  ewmax : Int
  sg : SqPair
  sw : SqPair
  nz : Nat
  elems : Nat
  rule : Nat
  boostMax : Nat
  ratioHold : Bool
  etaM : Nat
  etaE : Int
  rbLo : Int
  rbHi : Int
  deriving DecidableEq, Repr

def umuInOf (ws us : List Word64) : UmuIn :=
  { cq := wfield ws 0 47 32, ce := sext 8 (wfield ws 0 31 24), n := wfield ws 1 63 32
    ewmax := sext 8 (wfield ws 1 31 24)
    sg := ⟨wfield ws 2 63 0, sext 16 (wfield ws 3 63 48)⟩
    sw := ⟨wfield ws 4 63 0, sext 16 (wfield ws 5 63 48)⟩
    nz := wfield ws 6 63 0, elems := wfield ws 7 39 0
    rule := wfield us 0 63 62, boostMax := wfield us 0 61 58, ratioHold := wfield us 0 57 57 = 1
    etaM := wfield us 0 47 32, etaE := sext 8 (wfield us 0 31 24)
    rbLo := sext 16 (wfield us 1 63 48), rbHi := sext 16 (wfield us 1 47 32) }

/-- What R167 and R168 conclude for a layer. -/
structure UmuOut where
  mu : M24
  beta : Nat
  wanted : Int
  cap : Bool
  hi : Bool
  lo : Bool
  rho : Int
  noupd : Bool
  deriving DecidableEq, Repr

/-- A layer without an update (Table 7-12): MU_M is 0 and RHO is 0x7FFF where Sw is zero; the exponent, beta and any other
RHO are free values (log entry 21). -/
def noUpdate (u : UmuIn) (a : Word64) : UmuOut :=
  { mu := ⟨0, sext 16 a.toNat⟩, beta := a.toNat / 2 ^ 16 % 16, wanted := 0, cap := false, hi := false, lo := false
    rho := if u.sw.sum = 0 then 0x7FFF else sext 16 (a.toNat / 2 ^ 20), noupd := true }

def hasUpdate (u : UmuIn) : Bool := u.cq != 0 && u.etaM != 0 && u.n != 0 && u.sg.sum != 0

/-- The free values of the logarithms of 0 and of the division by a norm with no elements (log entry 21). -/
structure UmuFree where
  log : Int
  mu  : M24
  deriving DecidableEq, Repr

def umuMu (u : UmuIn) (z : UmuFree) : M24 :=
  let mu := rne24 (u.etaM * u.cq) u.n (u.etaE + u.ce)
  if u.rule != 2 then mu
  else if u.elems = 0 then z.mu
  else
    -- mu * sqrt(N / (S * 2^F)) = sqrt(mu^2 * N / (S * 2^F))
    rne24Sqrt (mu.m * mu.m * u.elems) u.sg.sum (2 * mu.e - u.sg.ex)

def log2Of (v : Nat) (z : UmuFree) : Int := if v = 0 then z.log else (Nat.log2 v : Int)

def umuCompute (u : UmuIn) (z : UmuFree) : UmuOut :=
  let mu := umuMu u z
  let l0 := (if u.rule != 1 then pairLevel u.sg else log2Of u.nz z) + 2 * (23 + mu.e)
  let t := (l0 - log2Of u.elems z) / 2
  let want := u.ewmax + 3 - t
  let beta := min (u.boostMax : Int) (max 0 want)
  let l := l0 + 2 * beta
  let rho := l - pairLevel u.sw
  let zero := u.sw.sum = 0
  { mu := ⟨mu.m, mu.e + beta⟩, beta := beta.toNat, wanted := want, cap := (u.boostMax : Int) < want
    hi := u.rbHi != 32767 && (zero || u.rbHi < rho), lo := !zero && u.rbLo != -32768 && rho < u.rbLo
    rho := if zero then 0x7FFF else rho, noupd := false }

/-- The step record (Table 7-12). -/
def stepRecord (o : UmuOut) (hold : Bool) : List Word64 :=
  [w64 (o.mu.m % 2 ^ 24 * 2 ^ 40 + wrapBits 16 o.mu.e * 2 ^ 24 + o.beta % 16 * 2 ^ 20 + boolN o.cap * 2 ^ 19
      + boolN o.hi * 2 ^ 18 + boolN o.lo * 2 ^ 17 + boolN o.noupd * 2 ^ 16 + boolN hold * 2 ^ 15),
    w64 (wrapBits 16 o.rho * 2 ^ 48)]

def freeUmu (a b : Word64) : UmuFree := ⟨sext 6 a.toNat, ⟨2 ^ 23 + b.toNat % 2 ^ 23, sext 16 (b.toNat / 2 ^ 23)⟩⟩

/-- The layer whose input record VUMU reads: the one that step-end action 7 wrote so, else a free value (log entry 21). -/
def inputLayer (s : State) (ws : List Word64) : Nat × State :=
  let d := drawFree s
  match (s.job.map (·.inputs)).bind (·.idxOf? ws) with
  | some l => (l, d.2)
  | none => (d.1.toNat % 1024, d.2)

/-- Status bits and records of a layer (R167, R168). -/
def umuRecords (s : State) (i : Nat) (ws : List Word64) (u : UmuIn) (o : UmuOut) : State :=
  let d := inputLayer s ws
  let layer := d.1
  let s := if o.cap then
      makeRecord (putF d.2 (CORE_UPDSTAT i) CORE_UPDSTAT_BOOST_CAP 1) (srcCore i) 0x106
        [w64 (layer + u.boostMax * 2 ^ 12 + wrapBits 16 o.wanted * 2 ^ 16)]
    else d.2
  let s := if o.hi then putF s (CORE_UPDSTAT i) CORE_UPDSTAT_BAND_HI 1 else s
  let s := if o.lo then putF s (CORE_UPDSTAT i) CORE_UPDSTAT_BAND_LO 1 else s
  if o.hi || o.lo then
    makeRecord s (srcCore i) 0x105 [w64 (layer + o.beta % 16 * 2 ^ 12 + wrapBits 16 o.rho * 2 ^ 16)]
  else s

/-- The update descriptor that VUMU read stands for the step record it wrote (log entry 22). -/
def rememberUpd (s : State) (i off : Nat) (us : List Word64) : State :=
  modCore s i fun c => { c with upd := (off, us) :: c.upd.filter (fun p => p.1 != off) }

def runVumu (s : State) (i : Nat) (e : QEntry) : State :=
  let ws := readWords s (csBase i + e.ga.toNat) 8
  let us := readWords s (csBase i + e.gb.toNat) 4
  if wfield ws 0 63 48 != 0x0A54 then entryFault s i .vec e faultFormat
  else
    let u := umuInOf ws us
    let s := rememberUpd s i e.gd.toNat us
    if !hasUpdate u then
      let a := drawFree s
      writeWords a.2 (csBase i + e.gd.toNat) (stepRecord (noUpdate u a.1) false)
    else
      let a := drawFree s
      let b := drawFree a.2
      let o := umuCompute u (freeUmu a.1 b.1)
      let s := umuRecords b.2 i ws u o
      writeWords s (csBase i + e.gd.toNat) (stepRecord o ((o.hi || o.lo) && u.ratioHold))

/-! ## VUPD (R169) -/

/-- The smallest length at which a row of format `f` describes itself (as `bufferLen`). -/
def selfLen (s : State) (i off f cap : Nat) : Option Nat :=
  ((List.range cap).map (· + 1)).find? fun n =>
    csRangeOk off (rowSize f false n) &&
    trailerOk (decodeTrailer (readWord s (csBase i + off + rowSize f false n - 8)).toNat) f n false

def signOf (q : Int) : Int := if q = 0 then 0 else if q < 0 then -1 else 1

/-- The update of one element in master units, exact, and whether UMAX clamped it. -/
def updElem (rule : Nat) (mu : M24) (eg ew : Int) (um : Nat) (ue : Int) (q : Int) : Int × Bool :=
  let d := if rule = 1 then shiftRne (-(mu.m * signOf q)) (mu.e - ew)
    else shiftRne (-(mu.m * q)) (mu.e + eg - ew)
  if um = 0 then (d, false)
  else
    let t := shiftFloor um (ue - ew)
    if t < d.natAbs then (signOf d * t, true) else (d, false)

def runVupd (s : State) (i : Nat) (e : QEntry) : State :=
  match selfLen s i e.ga.toNat 0x20 4096 with
  | none => entryFault s i .vec e faultFormat
  | some n =>
    let rec_ := readWords s (csBase i + e.gd.toNat) 2
    let zeroRow := (zeroQuant 0x20 (List.replicate n false) false).row 0x20 false
    if !csRangeOk e.gc.toNat (rowSize 0x20 false n) then entryFault s i .vec e faultAddress
    else if wfield rec_ 0 16 16 = 1 then writeBytes s (csBase i + e.gc.toNat) zeroRow
    else if !csRangeOk e.gb.toNat (rowSize 0x10 false n) then entryFault s i .vec e faultAddress
    else
      match readRow s i e.ga.toNat 0x20 n false false, readRow s i e.gb.toNat 0x10 n false false with
      | some w, some g =>
        let a := drawFree s
        let us := (((coreAt s i).upd.find? fun p => p.1 = e.gd.toNat).map (·.2)).getD
          [w64 (a.1.toNat % 3 * 2 ^ 62 + a.1.toNat / 4 % 2 ^ 24)]
        let ew := if w.exp = -128 then -127 else w.exp
        let mu : M24 := ⟨wfield rec_ 0 63 40, sext 16 (wfield rec_ 0 39 24)⟩
        let ds := g.codes.map fun q =>
          updElem (wfield us 0 63 62) mu g.exp ew (wfield us 0 23 8) (sext 8 (wfield us 0 7 0)) q
        let ws2 := (w.codes.zip ds).map fun p => p.1 + p.2.1
        let q := quantFit 0x20 .hold ew ws2
        let s := countVoids a.2 i (w.voids + g.voids) (csBase i + e.ga.toNat)
        let s := writeBytes s (csBase i + e.ga.toNat) (q.row 0x20 false)
        let s := writeBytes s (csBase i + e.gc.toNat) (encodeRow 0x20 false ew (ds.map fun d => (satCode (2 ^ 31 - 1) d.1).1) [] [])
        countUpdClamp s i (countTrue (ds.map (·.2)))
      | _, _ => entryFault s i .vec e faultFormat

end Sys2Proof.Machine
end

