-- ==== Sys2Proof/Machine/Clip.lean ====
section
/-! DEFINITION. The step-end payload (Table 11-6, Table 8-9): how entries combine (R231), and what the root
of the reduction computes from the combined totals (R232, R233, R319). -/

namespace Sys2Proof.Machine

/-- Words of the payload: header, six per layer, and the vote buffer in phase 0. -/
def payloadLen (layers phase : Nat) : Nat := if phase = 1 then 8 else 8 + 6 * layers + 32

def payPhase (ws : List Word64) : Nat := wfield ws 0 0 0
def payLayers (ws : List Word64) : Nat := wfield ws 0 47 32

/-- The six words of a layer's totals. -/
def payTotals (ws : List Word64) (l : Nat) : List Word64 := (ws.drop (8 + 6 * l)).take 6
def payVotes (ws : List Word64) : List Word64 := (ws.drop (8 + 6 * payLayers ws)).take 32

def pairAt (t : List Word64) (k : Nat) : SqPair := ⟨wfield t k 63 0, sext 16 (wfield t (k + 1) 63 48)⟩

/-- Two totals entries, field by field (R231). -/
def combineTotals (a b : List Word64) : List Word64 :=
  let sg := (combinePairs (pairAt a 0) (pairAt b 0)).1
  let sw := (combinePairs (pairAt a 2) (pairAt b 2)).1
  let ew := max (sext 8 (wfield a 1 47 40)) (sext 8 (wfield b 1 47 40))
  let n := max (wfield a 1 31 0) (wfield b 1 31 0)
  let nz := min (2 ^ 64 - 1) (wfield a 4 63 0 + wfield b 4 63 0)
  [w64 sg.sum, w64 (wrapBits 16 sg.ex * 2 ^ 48 + wrapBits 8 ew * 2 ^ 40 + n), w64 sw.sum,
    w64 (wrapBits 16 sw.ex * 2 ^ 48), w64 nz, 0]

def orWords : List Word64 → List Word64 → List Word64
  | a :: as, b :: bs => (a ||| b) :: orWords as bs
  | _, _ => []

/-- Two payloads of one phase: totals, votes and WHOLD. -/
def combinePayload (a b : List Word64) : List Word64 :=
  let h := [a.getD 0 0, a.getD 1 0, a.getD 2 0 ||| (b.getD 2 0 &&& w64 (2 ^ 38))] ++ (a.drop 3).take 5
  if payPhase a = 1 then h
  else h ++ ((List.range (payLayers a)).flatMap fun l => combineTotals (payTotals a l) (payTotals b l))
    ++ orWords (payVotes a) (payVotes b)

/-! ## The clip factor (R232) -/

/-- A value m * 2^e; zero when m is 0. -/
def addM24 (p q : M24) : M24 :=
  if p.m = 0 then q
  else if q.m = 0 then p
  else
    let x := min p.e q.e
    rne24 (p.m * 2 ^ (p.e - x).toNat + q.m * 2 ^ (q.e - x).toNat) 1 x

/-- G2: the squared norm of the mean gradient. -/
def gradNorm (ws : List Word64) : M24 :=
  (List.range (payLayers ws)).foldl (fun g l =>
    let t := payTotals ws l
    let p := pairAt t 0
    let n := wfield t 1 31 0
    if n = 0 || p.sum = 0 then g else addM24 g (rne24 p.sum (n * n) p.ex)) ⟨0, 0⟩

/-- a * 2^x <= b * 2^y for naturals. -/
def leScaled (a : Nat) (x : Int) (b : Nat) (y : Int) : Bool :=
  a * 2 ^ (x - min x y).toNat ≤ b * 2 ^ (y - min x y).toNat

/-- The square root of num / den to the nearest integer, ties to even. -/
def sqrtRne (num den : Nat) : Nat :=
  let t := isqrt (num / den)
  if (2 * t + 1) * (2 * t + 1) * den < 4 * num then t + 1
  else if (2 * t + 1) * (2 * t + 1) * den = 4 * num && t % 2 = 1 then t + 1
  else t

/-- sqrt(a / b * 2^x) * 2^(-e) to the nearest integer. -/
def sqrtAt (a b : Nat) (x e : Int) : Nat :=
  let k := x - 2 * e
  sqrtRne (scaleUp a k) (scaleDen b k)

/-- The clip factor: code and exponent. A fit below -127 gives 0. -/
def clipFactor (m : Nat) (e : Int) (g : M24) : Nat × Int :=
  if m = 0 || g.m = 0 || leScaled g.m g.e (m * m) (2 * e) then (16384, -14)
  else
    let x := 2 * e - g.e
    let l := ((Nat.log2 (m * m) : Int) - (Nat.log2 g.m : Int) + x) / 2
    let c := ((List.range 8).map fun k => l - 18 + (k : Int)).find? fun t => sqrtAt (m * m) g.m x t ≤ 32767
    match c with
    | some t => if t < -127 then (0, -127) else (sqrtAt (m * m) g.m x t, t)
    | none => (0, -127)

/-! ## Ratio holds (R233) -/

/-- The update descriptor of a layer, in its layer table entry. -/
def layerUpdate (s : State) (l : Nat) : List Word64 := readWords s (layerEntry s l + 16) 4

/-- The input of R167 at the root, from combined totals. -/
def rootUmu (s : State) (ws : List Word64) (c : Nat × Int) (l : Nat) : UmuIn :=
  let t := payTotals ws l
  let us := layerUpdate s l
  { cq := c.1, ce := c.2, n := wfield t 1 31 0, ewmax := sext 8 (wfield t 1 47 40), sg := pairAt t 0
    sw := pairAt t 2, nz := wfield t 4 63 0
    elems := bitsOf 39 0 (readWord s (layerEntry s l + 48)).toNat
    rule := wfield us 0 63 62, boostMax := wfield us 0 61 58, ratioHold := wfield us 0 57 57 = 1
    etaM := wfield us 0 47 32, etaE := sext 8 (wfield us 0 31 24)
    rbLo := sext 16 (wfield us 1 63 48), rbHi := sext 16 (wfield us 1 47 32) }

/-- The first layer with RATIO_HOLD that is out of its band. -/
def holdLayer (ws : List Word64) (c : Nat × Int) : List Nat → State → State × Option Nat
  | [], s => (s, none)
  | l :: ls, s =>
    let u := rootUmu s ws c l
    if u.ratioHold && hasUpdate u then
      let a := drawFree s
      let b := drawFree a.2
      let o := umuCompute u (freeUmu a.1 b.1)
      if o.hi || o.lo then (b.2, some l) else holdLayer ws c ls b.2
    else holdLayer ws c ls s

/-- The result header: the root completes word 2 (R319). -/
def finishPayload (s : State) (ws : List Word64) : State × List Word64 :=
  if payPhase ws = 1 then (s, ws)
  else
    let c := clipFactor (bitsOf 31 16 (jobWord s 12)) (sext 8 (bitsOf 15 8 (jobWord s 12))) (gradNorm ws)
    let h := holdLayer ws c (List.range (payLayers ws)) s
    let widen := (payVotes ws).any (· != 0)
    (h.1, (ws.take 2 ++ [w64 (c.1 * 2 ^ 48 + wrapBits 8 c.2 * 2 ^ 40 + boolN h.2.isSome * 2 ^ 39
      + bitsOf 38 38 (wfield ws 2 63 0) * 2 ^ 38 + boolN widen * 2 ^ 37 + h.2.getD 0 % 1024 * 2 ^ 27)])
      ++ ws.drop 3)

end Sys2Proof.Machine
end

