-- ==== Sys2Proof/Machine/Widen.lean ====
section
/-! DEFINITION. Widening (R107 to R109): the widths that a group decision gives, and the demand they make on
the reservations. -/

namespace Sys2Proof.Machine

/-- Fields of a layer table entry (Table 8-2). -/
def layerField (s : State) (l w hi lo : Nat) : Nat := bitsOf hi lo (readWord s (layerEntry s l + 8 * w)).toNat

def layerRowLen (s : State) (l : Nat) : Nat := layerField s l 1 19 8 + 1
def layerChunk (s : State) (l : Nat) : Nat := layerField s l 1 2 0
def layerRows (s : State) (l : Nat) : Nat := layerField s l 1 39 20

/-- Bit `k` of the 256-byte vector: forward 2l, activation gradient 2l + 1. -/
def voteBit (vec : List Byte) (k : Nat) : Bool := (vec.getD (k / 8) 0).toNat.testBit (k % 8)

/-- The widened layers of a role, and the clean steps counted for them. -/
structure Widths where
  fwd   : List Nat
  ag    : List Nat
  clean : List (Nat × Nat × Nat)
  deriving DecidableEq, Repr

def Widths.has (w : Widths) (l role : Nat) : Bool := if role = 0 then w.fwd.contains l else w.ag.contains l

def Widths.put (w : Widths) (l role : Nat) (on : Bool) : Widths :=
  let upd := fun (xs : List Nat) => xs.filter (· != l) ++ (if on then [l] else [])
  let cl := w.clean.filter fun c => !(c.1 = l && c.2.1 = role)
  if role = 0 then { w with fwd := upd w.fwd, clean := cl } else { w with ag := upd w.ag, clean := cl }

def Widths.count (w : Widths) (l role : Nat) : Nat :=
  ((w.clean.find? fun c => c.1 = l && c.2.1 = role).map (·.2.2)).getD 0

def Widths.setCount (w : Widths) (l role n : Nat) : Widths :=
  { w with clean := (l, role, n) :: w.clean.filter fun c => !(c.1 = l && c.2.1 = role) }

/-- One layer and role: the decision counts towards narrowing, the released vector widens (R108, R112). -/
def stepWidth (s : State) (decided released : List Byte) (w : Widths) (p : Nat × Nat) : Widths :=
  let after := bitsOf 63 60 (controlWord s p.1)
  if w.has p.1 p.2 then
    if voteBit decided (2 * p.1 + p.2) then w.setCount p.1 p.2 0
    else if after != 0 && 2 ^ (after + 3) ≤ w.count p.1 p.2 + 1 then w.put p.1 p.2 false
    else w.setCount p.1 p.2 (w.count p.1 p.2 + 1)
  else if voteBit released (2 * p.1 + p.2) then w.put p.1 p.2 true
  else w

def roleList (layers : Nat) : List (Nat × Nat) := (List.range layers).flatMap fun l => [(l, 0), (l, 1)]

def jobWidths (j : Job) : Widths := ⟨j.fwdWide, j.agWide, j.clean⟩

/-- The widths from the next step on. -/
def nextWidths (s : State) (j : Job) : Widths :=
  (roleList (jobLayers s)).foldl (stepWidth s (bytesOfWords (payVotes j.payload)) j.vector) (jobWidths j)

/-! ## Demand (R109) -/

def fwdGrowth (s : State) (l : Nat) : Nat :=
  let n := layerRowLen s l
  (layerField s l 1 63 40 + layerRows s l)
    * (rowSize 8 false n - rowSize (bitsOf 23 20 (controlWord s l)) false n)

def agGrowth (s : State) (l : Nat) : Nat :=
  let n := layerRowLen s l
  if bitsOf 25 24 (controlWord s l) = 1 then 0
  else layerField s l 6 63 40 * (rowSize 0x10 false n - rowSize 8 false n)

def maxOf (l : List Nat) : Nat := l.foldl max 0

def dramDemand (s : State) (w : Widths) : Nat := (w.fwd.map (fwdGrowth s)).sum + maxOf (w.ag.map (agGrowth s))

def csDemand (s : State) (w : Widths) : Nat :=
  max (maxOf (w.fwd.map fun l => layerField s l 7 63 32)) (maxOf (w.ag.map fun l => layerField s l 7 31 0))

def overReserve (s : State) (j : Job) : Bool :=
  let w := nextWidths s j
  j.dramRes < dramDemand s w || j.csRes < csDemand s w

/-- R109: the least reservations that a job needs, for one widening of each role. -/
def leastDram (s : State) : Nat :=
  let ls := List.range (jobLayers s)
  maxOf (ls.map (fwdGrowth s)) + maxOf (ls.map (agGrowth s))

def leastCs (s : State) : Nat :=
  let ls := List.range (jobLayers s)
  maxOf (ls.map fun l => layerField s l 7 63 32) + maxOf (ls.map fun l => layerField s l 7 31 0)

/-! ## The hold round (R110) -/

/-- The header that a member sends in the hold round (Table 11-6, PHASE 1); after a release its released vector follows (R112,
log entry 102). -/
def holdPayload (s : State) : List Word64 :=
  match s.job with
  | none => []
  | some j =>
    [w64 (0x0C63 * 2 ^ 48 + jobLayers s * 2 ^ 32 + 1), w64 j.step, w64 (boolN (overReserve s j) * 2 ^ 38)]
      ++ List.replicate 5 0 ++ (if j.relItem.isSome then wordsOf 32 (j.vector.take 256 ++ List.replicate (256 - j.vector.length) 0) else [])

end Sys2Proof.Machine
end

