-- ==== Sys2Proof/Machine/Coll.lean ====
section
/-! DEFINITION. The collectives engines (R305 to R321, R326, R327): control lines and credit, the tree, the
ring lanes, combination, and the life of an instance. -/

namespace Sys2Proof.Machine

/-! ## Counters and records -/

def kData : Nat := 1
def kArrive : Nat := 2
def kRelease : Nat := 3
def kReset : Nat := 4
def kDone : Nat := 5
def kAbort : Nat := 6

/-- The engine of the die that carries a ring lane's port, q + 3 (R310); tree chunks leave from die 1 on the
tie of R305. -/
def laneEngine (lane : Nat) : Nat := if lane = 0 then 0 else 1

/-- Void codes an engine reads (R314, R317). -/
def countCollVoids (s : State) (engine n a : Nat) : State :=
  if n = 0 then s
  else
    let t := satF s COL_CNT1 COL_CNT1_VOID n
    if getF s COL_CNT1 COL_CNT1_VOID = 0 then makeRecord t (srcEngine engine) 0x100 [w64 a] else t

/-- R306: a mismatch is counted and recorded. -/
def countMismatch (s : State) (group rank inst : Nat) : State :=
  makeRecord (satF s COL_CNT3 COL_CNT3_MISMATCH 1) (srcEngine 1) 0x280
    [w64 (group + rank * 2 ^ 16), w64 inst]

/-! ## The staging area (Table 11-2) -/

def slotData (g : Group) (slot : Nat) : Nat := g.stage + 0x10000 * slot
def slotLine (g : Group) (slot : Nat) : Nat := g.stage + 0x1C0000 + 0x80 * slot
def creditLine (g : Group) (rel : Nat) : Nat := g.stage + 0x1E0000 + 0x80 * rel

/-- The words of a control line (Table 11-3). -/
def ctrlWords (inst gen rank chunk len kind status value : Nat) : List Word64 :=
  [w64 (inst % 2 ^ 32 * 2 ^ 32 + gen * 2 ^ 16 + rank), w64 (chunk % 2 ^ 32 * 2 ^ 32 + len),
    w64 (kind * 2 ^ 56 + status * 2 ^ 48), w64 value]

/-- A control line as received. -/
structure CtrlLine where
  inst : Nat
  gen : Nat
  rank : Nat
  chunk : Nat
  len : Nat
  kind : Nat
  status : Nat
  value : Nat
  deriving DecidableEq, Repr

def readLine (s : State) (g : Group) (slot : Nat) : CtrlLine :=
  let ws := readWords s (slotLine g slot) 4
  ⟨wfield ws 0 63 32, wfield ws 0 31 16, wfield ws 0 15 0, wfield ws 1 63 32, wfield ws 1 31 0,
    wfield ws 2 63 56, wfield ws 2 55 48, wfield ws 3 63 0⟩

/-! ## Shapes (R309, R310, R321) -/

/-- A broadcast exchanges its root with rank 0. -/
def swapRank (root r : Nat) : Nat := if r = root then 0 else if r = 0 then root else r

def parentIn (root r : Nat) : Nat := swapRank root (treeParent (swapRank root r))
def childrenIn (n root r : Nat) : List Nat := (treeChildren n (swapRank root r)).map (swapRank root)
/-- Which child of its parent a member is, from 1. -/
def childNo (root r : Nat) : Nat := (swapRank root r - 1) % 8 + 1

/-- The strides t_0, t_1, … of the ring lanes. -/
def laneStrides (n : Nat) : List Nat :=
  if n ≤ 1 then [0] else ((List.range n).filter fun t => t ≠ 0 ∧ Nat.gcd t n = 1).take 5

def ringRel (lane : Nat) : Nat := if lane = 0 then 0 else 10 + lane

def Inst.root (x : Inst) : Nat := if x.op = .broadcast then wfield x.desc 0 27 12 else 0

def instOf (s : State) (idx : Nat) : Option Inst := s.coll.insts.find? (·.group = idx)
def setInst (s : State) (x : Inst) : State :=
  { s with coll := { s.coll with insts := s.coll.insts.filter (·.group != x.group) ++ [x] } }
def dropInst (s : State) (idx : Nat) : State :=
  { s with coll := { s.coll with insts := s.coll.insts.filter (·.group != idx) } }

def isRing (op : CollOp) : Bool := op = .reduceScatter || op = .allGather || op = .allReduce

/-- The instance that a line belongs to: the one in progress here, or the one that released last. -/
def lineInst (s : State) (g : Group) (l : CtrlLine) : Option Inst :=
  ((instOf s g.index).filter fun x => x.num = l.inst).or (g.last.filter fun x => x.num = l.inst)

/-! ## The die that a chunk leaves from (R20, R305) -/

def pathDie (path : Nat) : Nat := if path ≤ 1 then 0 else 1

def diePaths (s : State) (d : TxDst) (die : Nat) : List Nat :=
  (pathOrder s d.node).filter fun p => pathDie p = die && pathUsable s d.node d.failed p

/-- The die with more usable paths to the member; die 1 on a tie. -/
def chunkDie (s : State) (d : TxDst) : Nat := if (diePaths s d 1).length < (diePaths s d 0).length then 0 else 1

/-- The destination takes a path of that die, if it has another and nothing is unacknowledged (log entry 188). -/
def aimDie (s : State) (node : Nat) : State :=
  let d := dstAt s node
  if pathDie d.path = chunkDie s d || !d.unacked.isEmpty || !d.want.isEmpty then s
  else match (diePaths s d (chunkDie s d)).head? with
    | some p => setDst s { d with path := p }
    | none => s

/-! ## Credit and sending (R307, R311) -/

def tally (k : Nat) (l : List (Nat × Nat)) : Nat := (assocGet k l).getD 0

def relKey (rel rank : Nat) : Nat := 65536 * rel + rank

/-- Relations of ring lanes, whose chunks leave from the die of the lane's port (R310). -/
def laneRel (rel : Nat) : Bool := rel = 0 || 11 ≤ rel

/-- The slot's data first and its control line last. -/
def sendLine (s : State) (g : Group) (o : OutLine) (slot : Nat) : State :=
  let s := if laneRel o.rel || o.rank = g.rank || g.conn o.rank != 0xFFFF then s else aimDie s (g.node o.rank)
  let s := if o.data.isEmpty then s else carry s g o.rank (slotData g slot) o.data (.coll g.index)
  carry s g o.rank (slotLine g slot) (bytesOfWords (padWords 16 o.line)) (.coll g.index)

def hasCredit (g : Group) (o : OutLine) : Bool :=
  tally (relKey o.rel o.rank) g.sent - tally (relKey o.rel o.rank) g.returned < o.slots

/-- Lines that wait leave in order on each relation while it has credit. -/
def drainLines (idx : Nat) : List OutLine → List OutLine → State → State
  | [], kept, s => match groupAt s idx with
    | some g => setGroupEntry s { g with outq := kept }
    | none => s
  | o :: rest, kept, s => match groupAt s idx with
    | none => s
    | some g =>
      if kept.any (fun k => k.rel = o.rel && k.rank = o.rank) || !hasCredit g o then drainLines idx rest (kept ++ [o]) s
      else
        let n := tally (relKey o.rel o.rank) g.sent
        let t := setGroupEntry s { g with sent := assocSet (relKey o.rel o.rank) (n + 1) g.sent }
        drainLines idx rest kept (sendLine t g o (o.slot + n % o.slots))

def drainGroup (s : State) (idx : Nat) : State := match groupAt s idx with
  | some g => drainLines idx g.outq [] s
  | none => s

/-- A line joins the queue of its group. -/
def queueLine (s : State) (idx : Nat) (o : OutLine) : State := match groupAt s idx with
  | some g => setGroupEntry s { g with outq := g.outq ++ [o] }
  | none => s

/-- A control line on slot 27 of a member, which has one credit for it (relation 10). -/
def sendSlot27 (s : State) (g : Group) (rank inst kind status : Nat) : State :=
  drainGroup (queueLine s g.index ⟨10, rank, 27, 1, ctrlWords inst g.gen g.rank 0 0 kind status 0, []⟩) g.index

/-- A line to the parent, in the slots of this member's number. -/
def upLine (g : Group) (root inst kind value : Nat) (data : List Byte) (chunk : Nat) : OutLine :=
  ⟨1, parentIn root g.rank, 3 * (childNo root g.rank - 1), 3,
    ctrlWords inst g.gen g.rank chunk data.length kind 0 value, data⟩

/-- A line to a child. -/
def downLine (g : Group) (root child inst kind value : Nat) (data : List Byte) (chunk : Nat) : OutLine :=
  ⟨1 + childNo root child, child, 24, 3,
    ctrlWords inst g.gen g.rank chunk data.length kind 0 value, data⟩

def queueUp (s : State) (g : Group) (root inst kind value : Nat) (data : List Byte) : State :=
  drainGroup (queueLine s g.index (upLine g root inst kind value data 0)) g.index

def queueDown (s : State) (g : Group) (root inst kind value : Nat) (data : List Byte) (chunk : Nat) : State :=
  drainGroup ((childrenIn g.size root g.rank).foldl (fun s c =>
    queueLine s g.index (downLine g root c inst kind value data chunk)) s) g.index

/-- The sender's relation for a slot it wrote here, by the instance of its line; a line of an instance that is not known here is
taken as one of the tree of rank 0 (log entry 36). -/
def slotRelation (s : State) (g : Group) (slot : Nat) (l : CtrlLine) : Nat :=
  let x := lineInst s g l
  if slot = 27 then 10
  else if slot < 20 && (x.map (isRing ·.op)).getD false then ringRel (slot / 4)
  else if 24 ≤ slot then 1 + childNo ((x.map (·.root)).getD 0) g.rank
  else 1

/-- A consumed slot is returned: the cumulative count goes to the sender's credit line (R311). -/
def returnCredit (s : State) (g : Group) (rel sender : Nat) : State :=
  match groupAt s g.index with
  | none => s
  | some h =>
    let n := tally (relKey rel sender) h.taken + 1
    let t := setGroupEntry s { h with taken := assocSet (relKey rel sender) n h.taken }
    if sender < g.size then
      carry t g sender (creditLine g rel) (leBytes 8 n ++ List.replicate 120 0) (.coll g.index)
    else t

/-! ## The end of an instance -/

/-- No ring lane of the group's instance asks for a path any longer. -/
def freePaths (s : State) (idx : Nat) : State :=
  { s with ylp := { s.ylp with tx := s.ylp.tx.map fun d => { d with want := d.want.filter (·.1 != idx) } } }

def endInst (s : State) (g : Group) (x : Inst) : State :=
  let s := dropInst s g.index
  let s := if isRing x.op then freePaths s g.index else s
  match groupAt s g.index with
  | some h => setGroupEntry s { h with last := some x, lastGen := h.gen }
  | none => s

/-- An instance is over here without a result: its waiting lines are withdrawn, but for those of slot 27. -/
def withdrawInst (s : State) (g : Group) (x : Inst) : State :=
  let s := endInst s g x
  match groupAt s g.index with
  | some h => setGroupEntry s { h with
      outq := h.outq.filter (·.rel = 10), last := none, failed := x.num :: h.failed.filter (· != x.num) }
  | none => s

/-- A snapshot that ends leaves nothing open. -/
def closeSnap (s : State) (x : Inst) : State :=
  if x.op = .snapshot then
    { putF s COL_STATUS COL_STATUS_SNAP_OPEN 0 with coll := { s.coll with capturing := false } }
  else s

/-- The instance completes locally: its instruction has nothing more to await. -/
def completeInst (s : State) (g : Group) (x : Inst) : State :=
  let s := if x.op = .snapshot then putF s COL_STATUS COL_STATUS_SNAP_OPEN 0 else s
  ownerDone (endInst s g x) (.insn x.core .fab x.qid) none

/-- The instance fails here with a fault code. -/
def failInst (s : State) (g : Group) (x : Inst) (code : Nat) : State :=
  let s := closeSnap (withdrawInst s g x) x
  let s := if code = faultPoison then satF s COL_CNT2 COL_CNT2_POISON 1 else s
  ownerDone s (.insn x.core .fab x.qid) (some code)

/-- ABORT goes to the root, and from the root to its children (R327). -/
def spreadAbort (s : State) (g : Group) (inst code : Nat) : State :=
  if g.rank = 0 then (childrenIn g.size 0 0).foldl (fun s c => sendSlot27 s g c inst kAbort code) s
  else sendSlot27 s g 0 inst kAbort code

/-- The fault that a member's failure gives the others: data poison is the same for all (R327), as is a snapshot plan (R323); any
other ends their instructions with the fabric fault (R306, R312). -/
def abortStatus (x : Inst) (code : Nat) : Nat :=
  if code = faultPoison || (x.op = .snapshot && code = faultFormat) then code else faultFabric

def abortInst (s : State) (g : Group) (x : Inst) (code : Nat) : State :=
  failInst (spreadAbort s g x.num (abortStatus x code)) g x code

/-- A mismatch seen here fails the instance on every member (R306). -/
def mismatchInst (s : State) (g : Group) (x : Inst) (rank : Nat) : State :=
  abortInst (countMismatch s g.index rank x.num) g x faultFabric

/-! ## Combination (R314 to R317) -/

/-- What combining counted. -/
structure CombCount where
  rescales : Nat := 0
  flushed : Nat := 0
  ceil : Nat := 0
  voids : Nat := 0
  inexact : Bool := false
  deriving DecidableEq, Repr

def CombCount.add (a b : CombCount) : CombCount :=
  ⟨a.rescales + b.rescales, a.flushed + b.flushed, a.ceil + b.ceil, a.voids + b.voids, a.inexact || b.inexact⟩

def applyCounts (s : State) (engine a : Nat) (c : CombCount) : State :=
  let s := satF s COL_CNT0 COL_CNT0_RESCALES c.rescales
  let s := satF s COL_CNT1 COL_CNT1_FLUSHED c.flushed
  let s := satF s COL_CNT2 COL_CNT2_CEIL c.ceil
  let s := if c.inexact then putF s COL_STATUS COL_STATUS_INEXACT 1 else s
  countCollVoids s engine c.voids a

/-- Sub-floor under R75, the case of an encoded row. -/
def rowSubFloor (r : RowVal) : Bool := r.exp = -127 && r.codes.all fun q => q.natAbs < 16384

/-- A row as R314 takes it: a sub-floor row is a zero row. -/
def flushRow (r : RowVal) : RowVal × Nat :=
  if rowSubFloor r then ({ r with exp := -128, codes := r.codes.map fun _ => 0 }, 1) else (r, 0)

def zeroRowBytes (n : Nat) : List Byte := encodeRow 0x10 false (-128) (List.replicate n 0) [] []

/-- `combine` of R314 for the rows `a` and `b`, of job seed `j` under key `k`. -/
def combineRows (j k : Nat) (a b : RowVal) : List Byte × CombCount :=
  let fa := flushRow a
  let fb := flushRow b
  let x := if fa.1.exp = -128 then fb.1.exp else if fb.1.exp = -128 then fa.1.exp else min fa.1.exp fb.1.exp
  let up := fun (r : RowVal) (q : Int) => if r.exp = -128 then (0 : Int) else q * 2 ^ (r.exp - x).toNat
  let sums := (fa.1.codes.zip fb.1.codes).map fun p => up fa.1 p.1 + up fb.1 p.2
  let c : CombCount := { flushed := fa.2 + fb.2, voids := a.voids + b.voids }
  if maxMag sums = 0 then (zeroRowBytes sums.length, c)
  else
    let want := gaccExp (maxMag sums) x
    if want < -127 then (zeroRowBytes sums.length, { c with flushed := c.flushed + 1 })
    else
      let e := min want 127
      let qs := sums.zipIdx.map fun p => (satCode 32767 (gaccElem x e (stream j k p.2) p.1)).1
      let rs := if x < e then (sums.filter fun (v : Int) => v % ((2 ^ (e - x).toNat : Nat) : Int) != 0).length else 0
      (encodeRow 0x10 false e qs [] [],
        { c with rescales := rs, ceil := if 127 < want then 1 else 0 })

/-- The key word of R315. -/
def combineKey (desc : List Word64) (rank row : Nat) : Nat :=
  wfield desc 5 63 44 * 2 ^ 44 + rank % 2 ^ 16 * 2 ^ 28 + wfield desc 5 43 34 * 2 ^ 18
    + row % 2 ^ 16 * 4 + 1

def rowOf (bs : List Byte) (n : Nat) : Option RowVal :=
  let t := decodeTrailer (ofLE (bs.drop (bs.length - 8)))
  if trailerOk t 0x10 n false then some (decodeRow bs t) else none

/-- A square-sum pair of DTYPE 2, in 16 bytes. -/
def pairOfBytes (bs : List Byte) : SqPair := ⟨fieldLE bs 0 8, sext 16 (fieldLE bs 8 2)⟩
def pairBytes (p : SqPair) : List Byte := leBytes 8 p.sum ++ leBytes 2 (wrapBits 16 p.ex) ++ List.replicate 6 0

/-- One unit combined, by data type (Table 11-5); none for a row that is not a Q16 row (R70). -/
def combineUnit (j : Nat) (desc : List Word64) (rank unit : Nat) (own arr : List Byte) :
    Option (List Byte × CombCount) :=
  match wfield desc 0 31 28 with
  | 0 =>
    let n := wfield desc 0 11 0 + 1
    match rowOf own n, rowOf arr n with
    | some a, some b => some (combineRows j (combineKey desc rank unit) a b)
    | _, _ => none
  | 1 =>
    let r := satAddElem 64 (ofLE own) (ofLE arr)
    some (leBytes 8 r.1, { voids := r.2 })
  | 2 =>
    let r := combinePairs (pairOfBytes own) (pairOfBytes arr)
    some (pairBytes r.1, { inexact := r.2 })
  | _ => some ((own.zip arr).map fun p => p.1 ||| p.2, {})

/-- Units of a chunk, own first. -/
def combineUnits (j : Nat) (desc : List Word64) (rank : Nat) :
    List (Nat × List Byte × List Byte) → Option (List (List Byte) × CombCount)
  | [] => some ([], {})
  | u :: us =>
    match combineUnit j desc rank u.1 u.2.1 u.2.2, combineUnits j desc rank us with
    | some a, some b => some (a.1 :: b.1, a.2.add b.2)
    | _, _ => none

/-! ## The division of a ring operation (R310, R313) -/

def dtypeOf (desc : List Word64) : Nat := wfield desc 0 31 28
def descSrc (desc : List Word64) : Nat := wfield desc 2 63 0
def descDst (desc : List Word64) : Nat := wfield desc 3 63 0
def descCnt (desc : List Word64) : Nat := wfield desc 4 63 0

/-- Bytes of a unit: a row, an 8-byte word, or a pair. -/
def unitBytes (desc : List Word64) : Nat :=
  match dtypeOf desc with
  | 0 => rowSize 0x10 false (wfield desc 0 11 0 + 1)
  | 2 => 16
  | _ => 8

def unitCount (desc : List Word64) : Nat :=
  if dtypeOf desc = 0 then wfield desc 1 63 32 else wfield desc 1 31 0 / unitBytes desc

/-- The units that a rank owns. -/
def ownLo (r n k : Nat) : Nat := k * r / max 1 n

/-- Units of a rank's range that travel in a lane. -/
def laneBlock (desc : List Word64) (n lanes lane k : Nat) : List Nat :=
  let lo := ownLo (unitCount desc) n k
  let hi := ownLo (unitCount desc) n (k + 1)
  ((List.range (hi - lo)).map (lo + ·)).filter fun x => x % lanes = lane

def chunkUnits (desc : List Word64) : Nat := max 1 (65536 / unitBytes desc)

/-- Chunks of a block; an empty block still sends one line. -/
def blockChunks (desc : List Word64) (n lanes lane k : Nat) : List (List Nat) :=
  let b := laneBlock desc n lanes lane k
  groupsOf (chunkUnits desc) (max 1 (ceilDiv b.length (chunkUnits desc))) b

/-- Hops of the reduce-scatter and of the all-gather part. -/
def rsHops (op : CollOp) (n : Nat) : Nat := if op = .allGather then 0 else n - 1
def agHops (op : CollOp) (n : Nat) : Nat := if op = .reduceScatter then 0 else n - 1

/-- The block that rank `r` sends at hop `h` of a lane of stride `t`. -/
def sentBlock (op : CollOp) (n t r h : Nat) : Nat :=
  let back := if h < rsHops op n then h + 1 else h - rsHops op n
  (r + n * t - back * t % n) % n

/-- Chunks that rank `r` sends in a lane before hop `h`. -/
def chunksBefore (op : CollOp) (desc : List Word64) (n lanes lane t r h : Nat) : Nat :=
  ((List.range h).map fun k => (blockChunks desc n lanes lane (sentBlock op n t r k)).length).sum

/-- The hop and the position in its block of a chunk index. -/
def findHop (count : Nat → Nat) : Nat → Nat → Nat → Option (Nat × Nat)
  | 0, _, _ => none
  | k + 1, h, idx => if idx < count h then some (h, idx) else findHop count k (h + 1) (idx - count h)

/-! ## Data of an instance -/

/-- TAINT of the layer whose buffer is the source: the buffer goes as zero rows with a count of 0 (R228). -/
def tainted (s : State) (desc : List Word64) : Bool :=
  s.job.isSome && dtypeOf desc = 0 &&
    (let a := jobWord s 10 + 16 * wfield desc 5 43 34
     bitsOf 31 31 (readWord s a).toNat = 1 && (readWord s (a + 8)).toNat = descSrc desc)

/-- This member's count (R316). -/
def ownCount (s : State) (desc : List Word64) : State × Acc × Nat :=
  if dtypeOf desc != 0 || tainted s desc then (s, .ok, 0)
  else
    let r := memRead s (descCnt desc) 4
    (r.1, r.2.1, ofLE r.2.2)

/-- A sub-floor Q16 row is sent and taken as a zero row (R77); the number of such rows. -/
def flushUnit (desc : List Word64) (bs : List Byte) : List Byte × Nat :=
  if dtypeOf desc != 0 then (bs, 0)
  else match rowOf bs (wfield desc 0 11 0 + 1) with
    | some r => if rowSubFloor r then (zeroRowBytes (wfield desc 0 11 0 + 1), 1) else (bs, 0)
    | none => (bs, 0)

def flushUnits (desc : List Word64) (us : List (List Byte)) : List (List Byte) × Nat :=
  let fs := us.map (flushUnit desc)
  (fs.map (·.1), (fs.map (·.2)).sum)

def countFlushed (s : State) (n : Nat) : State := satF s COL_CNT1 COL_CNT1_FLUSHED n

/-- Units read at an address each. -/
def readUnits (s : State) (n : Nat) : List Nat → State × Acc × List (List Byte)
  | [] => (s, .ok, [])
  | a :: as =>
    let r := memRead s a n
    let t := readUnits r.1 n as
    (t.1, r.2.1.worse t.2.1, r.2.2 :: t.2.2)

def writeUnits (s : State) : List (Nat × List Byte) → State × Acc
  | [] => (s, .ok)
  | p :: ps =>
    let r := memWrite s p.1 p.2
    let t := writeUnits r.1 ps
    (t.1, r.2.worse t.2)

/-- Own input units of a reduce-scatter. -/
def ownUnits (s : State) (desc : List Word64) (us : List Nat) : State × Acc × List (List Byte) :=
  if tainted s desc then (s, .ok, us.map fun _ => zeroRowBytes (wfield desc 0 11 0 + 1))
  else readUnits s (unitBytes desc) (us.map fun x => descSrc desc + unitBytes desc * x)

def accCode : Acc → Nat
  | .poison => faultPoison
  | _ => faultAddress

/-! ## Ring operations -/

/-- A chunk leaves on a lane. -/
def laneLine (g : Group) (x : Inst) (lane chunk value : Nat) (data : List Byte) : OutLine :=
  let t := (laneStrides g.size).getD lane 0
  ⟨ringRel lane, (g.rank + t) % max 1 g.size, 4 * lane, 4,
    ctrlWords x.num g.gen g.rank chunk data.length kData 0 value, data⟩

def queueChunk (s : State) (g : Group) (x : Inst) (lane h c value : Nat) (data : List Byte) : State :=
  let ts := laneStrides g.size
  let idx := chunksBefore x.op x.desc g.size ts.length lane (ts.getD lane 0) g.rank h + c
  drainGroup (queueLine s g.index (laneLine g x lane idx value data)) g.index

/-- Where the own block stands at the end of the reduce-scatter: compact at DST, or at its place in the whole
tensor for an all-reduce. -/
def ownDst (g : Group) (x : Inst) (u : Nat) : Nat :=
  if x.op = .reduceScatter then
    descDst x.desc + unitBytes x.desc * (u - ownLo (unitCount x.desc) g.size g.rank)
  else descDst x.desc + unitBytes x.desc * u

/-- Where the own block of an all-gather stands before it: compact at SRC. -/
def ownSrc (g : Group) (x : Inst) (u : Nat) : Nat :=
  descSrc x.desc + unitBytes x.desc * (u - ownLo (unitCount x.desc) g.size g.rank)

def writeCount (s : State) (x : Inst) (v : Nat) : State :=
  if dtypeOf x.desc = 0 && x.op != .allGather then
    (memWrite s (descCnt x.desc + 4) (leBytes 4 (min (2 ^ 32 - 1) v))).1
  else s

/-- Chunks that a member receives in a lane over the whole instance. -/
def laneTotal (g : Group) (x : Inst) (lane : Nat) : Nat :=
  let ts := laneStrides g.size
  let t := ts.getD lane 0
  chunksBefore x.op x.desc g.size ts.length lane t ((g.rank + g.size * t - t) % max 1 g.size)
    (rsHops x.op g.size + agHops x.op g.size)

/-- A ring instance is over when every lane has taken all its chunks and no chunk waits to leave. -/
def ringOver (s : State) (g : Group) (x : Inst) : Bool :=
  (List.range (laneStrides g.size).length).all (fun q => tally q x.got = laneTotal g x q)
    && ((groupAt s g.index).map fun h => h.outq.all (·.rel = 10)).getD true

def ringCheck (s : State) (idx : Nat) : State :=
  match groupAt s idx, instOf s idx with
  | some g, some x => if isRing x.op && ringOver s g x then completeInst s g x else s
  | _, _ => s

/-- The chunks of one block leave one after another. -/
def sendBlock (g : Group) (x : Inst) (lane h value : Nat) : List (Nat × List (List Byte)) → State → State
  | [], s => s
  | c :: cs, s => sendBlock g x lane h value cs (queueChunk s g x lane h c.1 value c.2.flatten)

/-- Units leave on a lane in their chunks, sub-floor rows as zero rows. -/
def sendUnits (g : Group) (x : Inst) (lane n cnt : Nat) (us : List (List Byte)) (s : State) : State :=
  let f := flushUnits x.desc us
  sendBlock g x lane 0 cnt ((groupsOf (chunkUnits x.desc) n f.1).zipIdx.map fun (q : List (List Byte) × Nat) => (q.2, q.1)) (countFlushed s f.2)

/-- The first hop of a lane: the block one stride back for a reduce-scatter, the own block for an
all-gather. -/
def startLane (g : Group) (x : Inst) (cnt lane : Nat) (p : State × Acc) : State × Acc :=
  let ts := laneStrides g.size
  let cs := blockChunks x.desc g.size ts.length lane (sentBlock x.op g.size (ts.getD lane 0) g.rank 0)
  if x.op = .allGather then
    let r := readUnits p.1 (unitBytes x.desc) (cs.flatten.map (ownSrc g x))
    let us := if g.size ≤ 1 then r.2.2 else (flushUnits x.desc r.2.2).1
    let w := writeUnits r.1 ((cs.flatten.map fun u => descDst x.desc + unitBytes x.desc * u).zip us)
    let acc := p.2.worse (r.2.1.worse w.2)
    if g.size ≤ 1 || acc != .ok then (w.1, acc) else (sendUnits g x lane cs.length cnt r.2.2 w.1, acc)
  else
    let r := ownUnits p.1 x.desc cs.flatten
    let acc := p.2.worse r.2.1
    if acc != .ok then (r.1, acc)
    else if g.size ≤ 1 then
      let w := writeUnits r.1 ((cs.flatten.map (ownDst g x)).zip r.2.2)
      (writeCount w.1 x cnt, acc.worse w.2)
    else (sendUnits g x lane cs.length cnt r.2.2 r.1, acc)

/-- R310: the lane's successor takes path q + 1, or path 0 when it is a tray peer, once nothing to it is
unacknowledged; an earlier instance keeps its path. -/
def wantPath (g : Group) (lane : Nat) (s : State) : State :=
  let rank := (g.rank + (laneStrides g.size).getD lane 0) % max 1 g.size
  if rank = g.rank || g.conn rank != 0xFFFF then s
  else
    let node := g.node rank
    let d := dstAt s node
    let p := if (peerOf s node).isSome then 0 else lane + 1
    let d := { d with want := d.want.filter (fun (q : Nat × Nat) => q.1 != g.index) ++ [(g.index, p)] }
    setDst s { d with
      path := if d.unacked.isEmpty && pathUsable s node d.failed (homePath s d) then homePath s d else d.path }

def startRing (s : State) (g : Group) (x : Inst) : State :=
  let lanes := List.range (laneStrides g.size).length
  let s := lanes.foldl (fun s q => wantPath g q s) s
  let c := ownCount s x.desc
  let r := lanes.foldl (fun p q => startLane g x c.2.2 q p) (c.1, c.2.1)
  if r.2 != .ok then abortInst r.1 g x (accCode r.2) else ringCheck r.1 g.index

/-- Progress of an instance. -/
def touchInst (s : State) (x : Inst) : State := setInst s { x with since := s.now, stalled := false }

/-- A chunk of a reduce-scatter hop is combined and sent on, or stands finished at its owner (R313, R314). -/
def reduceChunk (s : State) (g : Group) (x : Inst) (lane h c value : Nat) (us : List Nat)
    (arr : List (List Byte)) (slotAddr : Nat) : State :=
  let n := ownCount s x.desc
  let o := ownUnits n.1 x.desc us
  if n.2.1.worse o.2.1 != .ok then abortInst o.1 g x (accCode (n.2.1.worse o.2.1))
  else match combineUnits (jobSeed s) x.desc g.rank (us.zip (o.2.2.zip arr)) with
    | none => abortInst o.1 g x faultFormat
    | some r =>
      let s := applyCounts o.1 (laneEngine lane) slotAddr r.2
      let v := min (2 ^ 32 - 1) (value + n.2.2)
      if h + 1 < rsHops x.op g.size then queueChunk s g x lane (h + 1) c v r.1.flatten
      else
        let w := writeUnits s ((us.map (ownDst g x)).zip r.1)
        if w.2 != .ok then abortInst w.1 g x (accCode w.2)
        else
          let s := writeCount w.1 x v
          if x.op = .allReduce then queueChunk s g x lane (h + 1) c v r.1.flatten else s

/-- A chunk of an all-gather hop is stored and passed on. -/
def gatherChunk (s : State) (g : Group) (x : Inst) (lane h c value : Nat) (us : List Nat)
    (arr : List (List Byte)) : State :=
  let f := flushUnits x.desc arr
  let w := writeUnits (countFlushed s f.2) ((us.map fun u => descDst x.desc + unitBytes x.desc * u).zip f.1)
  if w.2 != .ok then abortInst w.1 g x (accCode w.2)
  else if h + 1 < rsHops x.op g.size + agHops x.op g.size then
    queueChunk w.1 g x lane (h + 1) c value f.1.flatten
  else w.1

/-- A DATA line on a ring lane. -/
def ringData (s : State) (g : Group) (x : Inst) (slot : Nat) (l : CtrlLine) : State :=
  let lane := slot / 4
  let ts := laneStrides g.size
  let t := ts.getD lane 0
  let pred := (g.rank + g.size * t - t) % max 1 g.size
  let idx := tally lane x.got
  let count := fun h => (blockChunks x.desc g.size ts.length lane (sentBlock x.op g.size t pred h)).length
  match findHop count (rsHops x.op g.size + agHops x.op g.size) 0 idx with
  | none => mismatchInst s g x l.rank
  | some (h, c) =>
    let us := (blockChunks x.desc g.size ts.length lane (sentBlock x.op g.size t pred h)).getD c []
    if ts.length ≤ lane || l.rank != pred || l.chunk != idx || l.len != unitBytes x.desc * us.length then
      mismatchInst s g x l.rank
    else
      let r := memRead s (slotData g slot) l.len
      if r.2.1 = .poison then abortInst r.1 g x faultPoison
      else
        let y := { x with got := assocSet lane (idx + 1) x.got, since := s.now, stalled := false }
        let arr := groupsOf (unitBytes x.desc) us.length r.2.2
        let s := setInst r.1 y
        let s := if h < rsHops x.op g.size then
            reduceChunk s g y lane h c l.value us arr (slotData g slot)
          else gatherChunk s g y lane h c l.value us arr
        ringCheck (returnCredit s g (ringRel lane) l.rank) g.index

/-! ## Barrier (R320) -/

def awaitedKids (g : Group) (x : Inst) : List Nat :=
  (childrenIn g.size x.root g.rank).filter fun c => !x.kids.contains c

/-- A barrier, or the release of a snapshot pass, at a member whose subtree has arrived. -/
def barrierUp (s : State) (g : Group) (x : Inst) : State :=
  if !x.own || !(awaitedKids g x).isEmpty then s
  else if g.rank = 0 then completeInst (queueDown s g 0 x.num kRelease 0 [] 0) g x
  else queueUp s g 0 x.num kArrive 0 []

/-! ## Broadcast (R321) -/

def bcastBytes (desc : List Word64) : Nat := wfield desc 1 31 0
def bcastChunks (desc : List Word64) : Nat := ceilDiv (bcastBytes desc) 65536
def bcastLen (desc : List Word64) (c : Nat) : Nat := min 65536 (bcastBytes desc - 65536 * c)

/-- The root is over when every child has returned credit for its last chunk; another member once its last chunk
has been stored and forwarded. -/
def bcastOver (s : State) (g : Group) (x : Inst) : Bool :=
  match groupAt s g.index with
  | none => true
  | some h =>
    h.outq.all (·.rel = 10) &&
      (if g.rank = x.root then
        (childrenIn g.size x.root g.rank).all fun c =>
          tally (relKey (1 + childNo x.root c) c) h.returned = tally (relKey (1 + childNo x.root c) c) h.sent
      else tally 0 x.got = bcastChunks x.desc)

def bcastCheck (s : State) (idx : Nat) : State :=
  match groupAt s idx, instOf s idx with
  | some g, some x => if x.op = .broadcast && bcastOver s g x then completeInst s g x else s
  | _, _ => s

def bcastSend (g : Group) (x : Inst) (bs : List Byte) : Nat → Nat → State → State
  | 0, _, s => s
  | k + 1, c, s => bcastSend g x bs k (c + 1)
      (queueDown s g x.root x.num kData 0 ((bs.drop (65536 * c)).take 65536) c)

def startBcast (s : State) (g : Group) (x : Inst) : State :=
  if g.rank != x.root then s
  else
    let r := memRead s (descSrc x.desc) (bcastBytes x.desc)
    if r.2.1 != .ok then abortInst r.1 g x (accCode r.2.1)
    else
      let w := memWrite r.1 (descDst x.desc) r.2.2
      if w.2 != .ok then abortInst w.1 g x (accCode w.2)
      else bcastCheck (bcastSend g x r.2.2 (bcastChunks x.desc) 0 w.1) g.index

def bcastData (s : State) (g : Group) (x : Inst) (slot : Nat) (l : CtrlLine) : State :=
  let c := tally 0 x.got
  if slot < 24 || l.rank != parentIn x.root g.rank || l.chunk != c || bcastChunks x.desc ≤ c
      || l.len != bcastLen x.desc c then mismatchInst s g x l.rank
  else
    let r := memRead s (slotData g slot) l.len
    if r.2.1 = .poison then abortInst r.1 g x faultPoison
    else
      let w := memWrite r.1 (descDst x.desc + 65536 * c) r.2.2
      if w.2 != .ok then abortInst w.1 g x (accCode w.2)
      else
        let s := setInst w.1 { x with got := assocSet 0 (c + 1) x.got, since := s.now, stalled := false }
        let s := queueDown s g x.root x.num kData 0 r.2.2 c
        bcastCheck (returnCredit s g (1 + childNo x.root g.rank) l.rank) g.index

/-! ## Step-end reduction (R318, R319) -/

/-- Words of a payload of the phase; the hold round that a release starts again carries the released vector behind its header
(R112, log entry 102). -/
def payWords (s : State) (phase : Nat) : Nat :=
  if phase = 1 && (s.job.bind (·.relItem)).isSome then 8 + 32 else payloadLen (jobLayers s) phase

/-- Rows of a layer that this member owns (R235). -/
def ownsLayer (s : State) (l : Nat) : Bool :=
  let d := bitsOf 31 16 (jobWord s 3) + 1
  let k := bitsOf 15 0 (jobWord s 3)
  ownLo (layerRows s l) d k < ownLo (layerRows s l) d (k + 1)

/-- The entry of a layer of which the member owns no rows: S, n and NZ 0, EWMAX -128; the exponents of its pairs stand as they
are in the payload (R231, Table 8-9). -/
def emptyEntry (ws : List Word64) : List Word64 :=
  [0, w64 (wfield ws 1 63 48 * 2 ^ 48 + 128 * 2 ^ 40), 0, w64 (wfield ws 3 63 48 * 2 ^ 48), 0, 0]

/-- The totals that a member contributes (R231). -/
def ownTotals (s : State) (ws : List Word64) : List Word64 :=
  ws.take 8 ++ ((List.range (payLayers ws)).flatMap fun l =>
    let t := (ws.drop (8 + 6 * l)).take 6
    if ownsLayer s l then t else emptyEntry t) ++ ws.drop (8 + 6 * payLayers ws)

def payloadBad (s : State) (ws : List Word64) : Bool :=
  wfield ws 0 63 48 != 0x0C63 || payLayers ws != jobLayers s

/-- The result that a job keeps: that of the totals round, with WHOLD of the hold round put in. -/
def takeResult (j : Job) (ws : List Word64) : Job :=
  if payPhase ws = 1 then
    { j with stepEnd := 3
             payload := j.payload.set 2 (w64 (putBits 38 38 (j.payload.getD 2 0).toNat (wfield ws 2 38 38)))
             vector := if ws.length = 40 then bytesOfWords (ws.drop 8) else j.vector }
  else { j with payload := ws, stepEnd := 2 }

/-- The header of a hold round's result, as it went down the tree. -/
def holdResult (j : Job) : List Word64 :=
  [w64 (putBits 0 0 (j.payload.getD 0 0).toNat 1), j.payload.getD 1 0, w64 (wfield j.payload 2 38 38 * 2 ^ 38)]
    ++ List.replicate 5 0

/-- The result at a member: written at DST, kept for STEP_END_RESULT, and sent down. -/
def stepEndDeliver (s : State) (g : Group) (x : Inst) (ws : List Word64) : State :=
  let w := if x.desc.isEmpty then (s, .ok) else memWrite s (descDst x.desc) (bytesOfWords ws)
  if w.2 != .ok then abortInst w.1 g x (accCode w.2)
  else
    let s := match w.1.job with
      | some j => { w.1 with job := some (takeResult j ws) }
      | none => w.1
    completeInst (queueDown s g 0 x.num kData 0 (bytesOfWords ws) 0) g x

def stepEndUp (s : State) (g : Group) (x : Inst) : State :=
  if !x.own || !(awaitedKids g x).isEmpty then s
  else if g.rank = 0 then
    let r := finishPayload s x.work
    stepEndDeliver r.1 g x r.2
  else queueUp s g 0 x.num kData 0 (bytesOfWords x.work)

/-- A hold round is issued by the device itself, with no descriptor (R319). -/
def startHold (s : State) (g : Group) (x : Inst) : State :=
  let ws := holdPayload s
  let y := { x with own := true, work := if x.work.isEmpty then ws else combinePayload ws x.work }
  stepEndUp (setInst s y) g y

def startStepEnd (s : State) (g : Group) (x : Inst) : State :=
  if x.desc.isEmpty then startHold s g x else
  let h := memRead s (descSrc x.desc) 8
  let w0 := wordsOf 1 h.2.2
  if h.2.1 != .ok then abortInst h.1 g x (accCode h.2.1)
  else if payloadBad h.1 w0 then abortInst h.1 g x faultFormat
  else
    let n := payloadLen (payLayers w0) (payPhase w0)
    let r := memRead h.1 (descSrc x.desc) (8 * n)
    if r.2.1 != .ok then abortInst r.1 g x (accCode r.2.1)
    else
      let ws := if payPhase w0 = 0 then ownTotals r.1 (wordsOf n r.2.2) else wordsOf n r.2.2
      let y := { x with own := true, work := if x.work.isEmpty then ws else combinePayload ws x.work }
      stepEndUp (setInst r.1 y) g y

def stepEndData (s : State) (g : Group) (x : Inst) (slot : Nat) (l : CtrlLine) : State :=
  let r := memRead s (slotData g slot) l.len
  let ws := wordsOf (l.len / 8) r.2.2
  if r.2.1 = .poison then abortInst r.1 g x faultPoison
  else if l.len != 8 * payWords s (payPhase ws) || l.chunk != 0 then mismatchInst r.1 g x l.rank
  else if payloadBad s ws then abortInst r.1 g x faultFormat
  else if 24 ≤ slot then
    if l.rank != treeParent g.rank || g.rank = 0 then mismatchInst r.1 g x l.rank
    else stepEndDeliver (returnCredit r.1 g (1 + childNo 0 g.rank) l.rank) g x ws
  else if !(awaitedKids g x).contains l.rank then mismatchInst r.1 g x l.rank
  else
    let y := { x with kids := x.kids ++ [l.rank], since := s.now, stalled := false
                      work := if x.work.isEmpty then ws else combinePayload x.work ws }
    stepEndUp (setInst (returnCredit r.1 g 1 l.rank) y) g y

/-! ## Snapshot (R322 to R324) -/

def snapPlan (s : State) : Nat := (getPair s COL_SNAP_BASE_LO COL_SNAP_BASE_HI)
def snapWord (s : State) (k : Nat) : Nat := (readWord s (snapPlan s + 8 * k)).toNat
def snapRegions (s : State) : List (Nat × Nat) :=
  (List.range (bitsOf 47 32 (snapWord s 0))).map fun r => (snapWord s (8 + 2 * r), snapWord s (9 + 2 * r))

def cursorLines (s : State) : List Nat :=
  (List.range (bitsOf 63 59 (jobWord s 14))).map fun k => jobWord s 13 + 256 + 128 * k

def journalBase (s : State) : Nat := getPair s WRK_JBASE_LO WRK_JBASE_HI
/-- WRK_JSLOTS: values 9 to 15 are taken as 8. -/
def jslots (s : State) : Nat := 2 ^ (min 8 (getF s WRK_JSLOTS WRK_JSLOTS_LOG) + 8)
def journalBytes (s : State) : Nat := jslots s * 512

/-- Everything captured: the regions, then the cursor records, then the work journal (log entry 37). -/
def snapPieces (s : State) : List (Nat × Nat) :=
  snapRegions s ++ (cursorLines s).map (fun a => (a, 128)) ++ [(journalBase s, journalBytes s)]

def snapLen (s : State) : Nat := ((snapPieces s).map (·.2)).sum

/-- A plan that violates Table 11-7, or an area too small. -/
def snapBad (s : State) : Bool :=
  let w := snapWord s 0
  let c := bitsOf 31 16 w
  bitsOf 63 48 w != 0x0C64 || bitsOf 47 32 w = 0 || 252 < bitsOf 47 32 w || (1023 < c && c != 0xFFFF)
    || bitsOf 15 0 w != 0 || snapWord s 1 % 128 != 0
    || (List.range 4).any (fun k => snapWord s (4 + k) != 0)
    || (snapRegions s).any (fun r => r.1 % 128 != 0 || r.2 % 128 != 0) || snapWord s 2 < 128 + snapLen s

/-- No fabric instruction of the device awaits anything (R323). -/
def fabricFenced (s : State) : Bool :=
  let mine := fun (o : Owner) => match o with
    | .insn _ _ _ => true
    | _ => false
  (s.ylp.tx.all fun d => d.standing.all (fun r => !mine r.owner) && d.waiting.all fun w => !mine w.2.1)
    && s.conns.all fun c => (c.ops ++ c.waitq).all fun o => !mine o.owner

end Sys2Proof.Machine
end

