-- ==== Sys2Proof/Machine/FabricRun.lean ====
section
/-! DEFINITION. The fabric instructions but for collectives, as the fabric queue runs them (R202, R280,
Table 10-8): FPUT, FGET, FSEND, FATOM, FRED and FGATH. -/

namespace Sys2Proof.Machine

def fabVia (f : Fields) : Bool := f.modBits 104 104 = 1
def fabSpace (f : Fields) : Nat := f.modBits 106 105
def fabConn (f : Fields) : Nat := f.subBits 15 0
def fabLen (f : Fields) : Nat := f.immBits 31 0

/-- FPUT and FGET: the local side is space 0 or 1, and a YLP transfer leaves SUB 0. -/
def putLegal (f : Fields) : Bool := fabSpace f ≤ 1 && (fabVia f || f.sub = 0)

/-- Sizes of a RoCEv2 WRITE or READ (Table 10-8). -/
def roceLenBad (n : Nat) : Bool := n = 0 || 2 ^ 31 < n

/-- The faults of FPUT and FGET found at issue; `loc` is the local address and `rem` the remote one. -/
def putCheck (e : QEntry) (loc rem : Word64) : Option Nat :=
  if fabVia e.f then firstFault [
    faultIf (roceLenBad (fabLen e.f)) faultFormat,
    faultIf (loc.toNat % 8 != 0) faultAlign,
    faultIf (spaceBad (fabSpace e.f) loc (fabLen e.f)) faultAddress]
  else firstFault [
    faultIf (loc.toNat % 8 != 0 || rem.toNat % 8 != 0 || fabLen e.f % 8 != 0) faultAlign,
    faultIf (spaceBad (fabSpace e.f) loc (fabLen e.f) || spaceBad 2 rem (fabLen e.f)) faultAddress]

/-- Data on its way to another node by YLP. -/
def sendToNode (s : State) (i : Nat) (q : Queue) (e : QEntry) (n a : Nat) (bs : List Byte) : State :=
  if !nodeReachable s n then entryFault s i q e faultFabric
  else sendWrites (setAwaits s i q e.qid (ylpPieceList a bs.length).length) n a bs (insnOwner i q e.qid)

/-- A RoCEv2 operation of an entry; a connection that is not active gives the fabric fault. -/
def roceEntry (s : State) (i : Nat) (e : QEntry) (o : RoceOp) : State :=
  let p := roceSendOn (setAwaits s i .fab e.qid 1) (fabConn e.f) o
  if p.2 then p.1 else entryFault s i .fab e faultFabric

def runFput (s : State) (i : Nat) (e : QEntry) : State :=
  let r := readPlace s i (placeOf s (fabSpace e.f) e.ga) (fabLen e.f)
  match r.2.1 with
  | some c => entryFault r.1 i .fab e c
  | none =>
    if fabVia e.f then roceEntry r.1 i e (rdmaWrite (insnOwner i .fab e.qid) e.gb.toNat r.2.2)
    else match placeOf s 2 e.gb with
      | .node n a => sendToNode r.1 i .fab e n a r.2.2
      | p => let w := writePlace r.1 i p r.2.2; endEntry w.1 i .fab e w.2

def runFget (s : State) (i : Nat) (e : QEntry) : State :=
  let n := fabLen e.f
  if fabVia e.f then
    roceEntry s i e { psn := 0, kind := .read, owner := insnOwner i .fab e.qid, bytes := n, local_ := 0,
                      remote := e.gb.toNat, data := [], pkts := 1 }
  else match placeOf s 2 e.gb with
    | .node k a =>
      if !nodeReachable s k then entryFault s i .fab e faultFabric
      else
        sendReads (setAwaits s i .fab e.qid (ylpPieceList a n).length) k a n (insnOwner i .fab e.qid) 0
    | p =>
      let r := readPlace s i p n
      match r.2.1 with
      | some c => entryFault r.1 i .fab e c
      | none => noteData r.1 i .fab e.qid 0 r.2.2

/-- The data is in the destination when FGET completes (Table 7-2). -/
def finishFget (s : State) (i : Nat) (e : QEntry) : State :=
  let w := writePlace s i (placeOf s (fabSpace e.f) e.ga) ((entryData e).take (fabLen e.f))
  endEntry w.1 i .fab e w.2

def fsendCheck (e : QEntry) : Option Nat :=
  firstFault [
    faultIf (fabLen e.f = 0 || 256 < fabLen e.f) faultFormat,
    csCheck e.ga.toNat (fabLen e.f) 8]

/-- FSEND takes its message from core store (log entry 33). -/
def runFsend (s : State) (i : Nat) (e : QEntry) : State :=
  roceEntry s i e (rdmaSend (insnOwner i .fab e.qid) (readBytes s (csBase i + e.ga.toNat) (fabLen e.f)))

/-! ## Atomics (R260, R293) -/

def fatomLegal (f : Fields) : Bool := f.modBits 110 107 ≤ 9 && (fabSpace f = 0 || fabSpace f = 2)

def fatomCheck (e : QEntry) : Option Nat :=
  firstFault [
    faultIf (e.ga.toNat % 8 != 0) faultAlign,
    faultIf (spaceBad (fabSpace e.f) e.ga 8) faultAddress]

def takeTag (s : State) : Nat × State :=
  (s.ylp.nextTag, { s with ylp := { s.ylp with nextTag := (s.ylp.nextTag + 1) % 2 ^ 24 } })

/-- Operand and comparand in network byte order (R12, Table 10-5). -/
def atomicFrame (s : State) (n a op tag : Nat) (x cmp : Word64) : YlpFrame :=
  { blankFrame s n ylpReq opAtomic with
    subop := BitVec.ofNat 4 op, addr := BitVec.ofNat 48 a, tag := BitVec.ofNat 24 tag
    payload := beBytes 8 x.toNat ++ beBytes 8 cmp.toNat }

/-- The local outcome of a crucible operation. -/
def crucFault : CrucAcc → Option Nat
  | .ok _ => none
  | .poison => some faultPoison
  | .unassigned => some faultAddress
  | .window => some faultAddress

def runFatom (s : State) (i : Nat) (e : QEntry) : State :=
  match placeOf s (fabSpace e.f) e.ga with
  | .node n a =>
    if !nodeReachable s n then entryFault s i .fab e faultFabric
    else
      let t := takeTag s
      sendRequest (setAwaits t.2 i .fab e.qid 1) n (atomicFrame s n a (e.f.modBits 110 107) t.1 e.gb e.gc)
        (insnOwner i .fab e.qid) 0 0 8
  | .mem a =>
    let r := atomicAt s a (e.f.modBits 110 107) e.gb e.gc
    match r.2 with
    | .ok old => noteData r.1 i .fab e.qid 0 (beBytes 8 old.toNat)
    | x => endEntry r.1 i .fab e (crucFault x)
  | .cs _ => entryFault s i .fab e faultAddress

/-- gD takes the old value. -/
def finishFatom (s : State) (i : Nat) (e : QEntry) : State :=
  writeG s i e.ctx e.f.d.toNat (w64 (ofBE (entryData e)))

/-! ## Reductions (R261, R280) -/

def fredLegal (f : Fields) : Bool := f.modBits 110 107 ≤ 4 && (fabSpace f = 0 || fabSpace f = 2)

def fredCheck (e : QEntry) : Option Nat :=
  firstFault [
    faultIf (e.ga.toNat % 8 != 0 || e.gb.toNat % 8 != 0 || fabLen e.f % 8 != 0) faultAlign,
    faultIf (!csRangeOk e.ga.toNat (fabLen e.f) || spaceBad (fabSpace e.f) e.gb (fabLen e.f)) faultAddress]

/-- The element that leaves a reduction unchanged, for the words of a line that FRED does not name (log entry
34). -/
def reduceIdentity (op : Nat) : Word64 := if op = 4 then 0x8000000180000001 else 0

def reduceFrame (s : State) (n op : Nat) (c : Nat × List Word64) : YlpFrame :=
  let before := c.1 % 128 / 8
  let z := reduceIdentity op
  { blankFrame s n ylpReq opReduce with
    subop := BitVec.ofNat 4 op, lines := 1, addr := BitVec.ofNat 48 (lineBase c.1)
    payload := bytesOfWords (List.replicate before z ++ c.2 ++ List.replicate (16 - before - c.2.length) z) }

def runFred (s : State) (i : Nat) (e : QEntry) : State :=
  let op := e.f.modBits 110 107
  let ws := readWords s (csBase i + e.ga.toNat) (fabLen e.f / 8)
  match placeOf s (fabSpace e.f) e.gb with
  | .node n a =>
    if !nodeReachable s n then entryFault s i .fab e faultFabric
    else
      let cs := wordChunks (ws.length / 16 + 2) a ws
      cs.foldl (fun s c => sendRequest s n (reduceFrame s n op c) (insnOwner i .fab e.qid) 0 0 0)
        (setAwaits s i .fab e.qid cs.length)
  | .mem a => let r := reduceAt s a op ws; endEntry r.1 i .fab e (crucFault r.2)
  | .cs _ => entryFault s i .fab e faultAddress

/-! ## Gather -/

def fgathN (f : Fields) : Nat := f.immBits 12 0

def fgathCheck (e : QEntry) : Option Nat :=
  firstFault [
    faultIf (fgathN e.f = 0 || 4096 < fgathN e.f) faultFormat,
    csCheck e.ga.toNat (8 * fgathN e.f) 8, csCheck e.gb.toNat (128 * fgathN e.f) 8]

/-- One entry of the list: a local line is read at once, a line of another node asked for. -/
def gatherOne (i : Nat) (qid : Nat) (s : State × Option Nat) (k : Nat) (v : Word64) : State × Option Nat :=
  match s.2 with
  | some c => (s.1, some c)
  | none =>
    if v.toNat % 128 != 0 then (s.1, some faultAlign)
    else match placeOf s.1 2 v with
      | .node n a =>
        if !nodeReachable s.1 n then (s.1, some faultFabric)
        else
          let t := setEntry s.1 i .fab qid fun e => { e with awaits := e.awaits + 1 }
          (sendRequest t n (readFrame t n a 1) (insnOwner i .fab qid) (128 * k) 0 128, none)
      | p =>
        let r := readPlace s.1 i p 128
        match r.2.1 with
        | some c => (r.1, some c)
        | none => (noteData r.1 i .fab qid (128 * k) r.2.2, none)

def gatherList (i : Nat) (qid : Nat) : List (Word64 × Nat) → State × Option Nat → State × Option Nat
  | [], p => p
  | v :: rest, p => gatherList i qid rest (gatherOne i qid p v.2 v.1)

def runFgath (s : State) (i : Nat) (e : QEntry) : State :=
  let vs := readWords s (csBase i + e.ga.toNat) (fgathN e.f)
  let p := gatherList i e.qid vs.zipIdx (s, none)
  endEntry p.1 i .fab e p.2

def finishFgath (s : State) (i : Nat) (e : QEntry) : State :=
  writeBytes s (csBase i + e.gb.toNat) (entryData e)

end Sys2Proof.Machine
end

