-- ==== Sys2Proof/Machine/CollRun.lean ====
section
/-! DEFINITION. Instances of the collectives engines from their start by an instruction (R306, R312) through
the lines that arrive for them to a restart (R326), and the groups they run on (R308). -/

namespace Sys2Proof.Machine

/-! ## Snapshot passes (R323) -/

def readPieces (s : State) : List (Nat × Nat) → State × Acc × List Byte
  | [] => (s, .ok, [])
  | p :: ps =>
    let r := memRead s p.1 p.2
    let t := readPieces r.1 ps
    (t.1, r.2.1.worse t.2.1, r.2.2 ++ t.2.2)

/-- The snapshot area header (Table 11-8). -/
def snapHeader (s : State) (g : Group) (ident : Word64) (data : List Byte) : List Byte :=
  leBytes 8 (0x0C65 * 2 ^ 48 + ownNode s * 2 ^ 32 + ownEpoch s * 2 ^ 24 + g.gen)
    ++ leBytes 8 ident.toNat ++ leBytes 8 (jobStep s) ++ leBytes 8 data.length
    ++ List.replicate 32 0 ++ sha3 data

/-- The capture: everything named is copied and the header written; the intake holds its appends until
CAPTURE_COMPLETE. -/
def beginCapture (s : State) (g : Group) (x : Inst) : State :=
  let r := readPieces s (snapPieces s)
  if r.2.1 != .ok then abortInst r.1 g x (accCode r.2.1)
  else
    let w := memWrite r.1 (snapWord s 1) (snapHeader s g x.ident r.2.2 ++ r.2.2)
    if w.2 != .ok then abortInst w.1 g x (accCode w.2)
    else
      setInst { w.1 with coll := { w.1.coll with capturing := true } }
        { x with phase := 1, own := false, kids := [], since := s.now, stalled := false }

/-- Bytes of the area in one RDMA WRITE (log entry 57). -/
def streamPiece : Nat := 65536

/-- R324: the next piece of the area leaves when its connection has nothing else to do; a connection that is not active, or is in
error, leaves the stream waiting. -/
def pumpStream (s : State) : State :=
  match s.coll.stream with
  | none => s
  | some t => match (connAt s t.conn).filter fun c => !c.error && c.ops.isEmpty && c.waitq.isEmpty && t.sent < t.len with
    | none => s
    | some c =>
      let n := min streamPiece (t.len - t.sent)
      let r := memRead s (t.area + t.sent) n
      roceIssue { r.1 with coll := { r.1.coll with stream := some { t with sent := t.sent + n } } } c
        (rdmaWrite .stream (t.remote + t.sent) r.2.2)

/-- R324: the area is streamed to storage after the release. -/
def startStream (s : State) (x : Inst) : State :=
  let conn := bitsOf 31 16 (snapWord s 0)
  if conn = 0xFFFF then s
  else
    let t : Stream := ⟨conn, snapWord s 1, snapWord s 3, 128 + snapLen s, jobStep s, x.ident, 0⟩
    pumpStream (putF { s with coll := { s.coll with stream := some t } } COL_STATUS COL_STATUS_STREAMING 1)

def finishSnap (s : State) (g : Group) (x : Inst) : State :=
  completeInst (startStream (queueDown s g 0 x.num kRelease 2 [] 0) x) g x

/-- A pass moves on once this member and its children have arrived, or are done. -/
def snapUp (s : State) (g : Group) (x : Inst) : State :=
  if !x.own || !(awaitedKids g x).isEmpty then s
  else if g.rank = 0 then
    if x.phase = 0 then beginCapture (queueDown s g 0 x.num kRelease 1 [] 0) g x
    else finishSnap s g x
  else queueUp s g 0 x.num (if x.phase = 0 then kArrive else kDone) 0 []

/-- The arrival of this member, once the device's fabric instructions are fenced. -/
def snapFence (s : State) (g : Group) (x : Inst) : State :=
  if x.op = .snapshot && x.phase = 0 && !x.own && fabricFenced s then
    snapUp (setInst s { x with own := true }) g { x with own := true }
  else s

def pollOne (s : State) (x : Inst) : State := match groupAt s x.group, instOf s x.group with
  | some g, some y => if y.op = .snapshot then snapFence s g y else if isRing y.op then ringCheck s x.group
      else bcastCheck s x.group
  | _, _ => s

/-- Instances that waited for a request or for credit look again, and the stream. -/
def pollColl (s : State) : State := pumpStream (s.coll.insts.foldl pollOne s)

/-! ## The descriptor (Tables 11-4, 11-5) -/

def dtypeAllowed (op : CollOp) (d : Nat) : Bool :=
  match op with
  | .reduceScatter => d = 0 || d = 1
  | .allGather => d = 0 || d = 4
  | .allReduce => d ≤ 3
  | .broadcast => d = 4
  | _ => true

def descBad (g : Group) (op : CollOp) (ws : List Word64) : Bool :=
  let d := dtypeOf ws
  let bytes := wfield ws 1 31 0
  wfield ws 0 63 48 != 0x0C62 || wfield ws 0 47 32 != g.index || wfield ws 5 33 0 != 0
    || wfield ws 6 63 0 != 0 || wfield ws 7 63 0 != 0
    || (op != .stepEnd &&
      (!dtypeAllowed op d || 4 < d
        || (if op = .broadcast then g.size ≤ wfield ws 0 27 12 else wfield ws 0 27 12 != 0)
        || (if d = 0 then bytes != 0
            else wfield ws 0 11 0 != 0 || wfield ws 1 63 32 != 0 || descCnt ws != 0 || bytes = 0
              || bytes % (if d = 2 then 16 else 8) != 0)))

/-! ## Start of an instance -/

def fcollOp (f : Fields) : CollOp :=
  match f.modBits 110 107 with
  | 0 => .reduceScatter
  | 1 => .allGather
  | 2 => .allReduce
  | 3 => .broadcast
  | _ => .stepEnd

def opFbar : Nat := 0xA6
def opFcoll : Nat := 0xA7
def opFsnap : Nat := 0xA8

def collOpOf (e : QEntry) : CollOp :=
  if e.op = opFbar then .barrier else if e.op = opFsnap then .snapshot else fcollOp e.f

/-- The descriptor stands in core store (log entry 33). -/
def collDesc (s : State) (i : Nat) (e : QEntry) : List Word64 :=
  if e.op = opFcoll then readWords s (csBase i + e.ga.toNat) 8 else []

def collGroup (s : State) (i : Nat) (e : QEntry) : Nat :=
  if e.op = opFcoll then wfield (collDesc s i e) 0 47 32 else fabConn e.f

/-- Sixteen instances run (R305). -/
def enginesFull (s : State) : Bool := 16 ≤ s.coll.insts.length

/-- R305, R306, R324: the instruction waits at the head of the fabric queue. -/
def collWaits (s : State) (i : Nat) (e : QEntry) : Bool :=
  enginesFull s || (instOf s (collGroup s i e)).isSome || ((groupAt s (collGroup s i e)).bind (·.later)).isSome
    || (e.op = opFsnap && (s.coll.stream.isSome || flag s COL_STATUS COL_STATUS_SNAP_OPEN))

def startBarrier (s : State) (g : Group) (x : Inst) : State :=
  barrierUp (setInst s { x with own := true }) g { x with own := true }

def startSnap (s : State) (g : Group) (x : Inst) : State :=
  if snapBad s then abortInst s g x faultFormat
  else snapFence (putF s COL_STATUS COL_STATUS_SNAP_OPEN 1) g x

/-- What an instance does first, at its start and at a restart. -/
def runInst (s : State) (g : Group) (x : Inst) : State :=
  match x.op with
  | .barrier => startBarrier s g x
  | .snapshot => startSnap s g x
  | .broadcast => startBcast s g x
  | .stepEnd => startStepEnd s g x
  | _ => startRing s g x

/-- An instance from its start. -/
def freshInst (s : State) (x : Inst) : Inst :=
  { x with own := false, kids := [], phase := 0, got := [], work := [], since := s.now, stalled := false }

def newInst (s : State) (g : Group) (i : CoreId) (e : QEntry) : Inst :=
  { group := g.index, num := g.nextInst, op := collOpOf e, desc := collDesc s i.val e, core := i, qid := e.qid
    own := false, kids := [], phase := 0, got := [], work := [], ident := e.ga, since := s.now, stalled := false }

/-- A collective instruction reaches the engines (R306). An inactive group gives the fabric fault; an instance
that a member has already aborted fails at once. -/
def runColl (s : State) (i : CoreId) (e : QEntry) : State :=
  match groupAt s (collGroup s i.val e) with
  | none => entryFault s i.val .fab e faultFabric
  | some g =>
    let x := newInst s g i e
    let h := { g with nextInst := (g.nextInst + 1) % 2 ^ 32, aborted := g.aborted.filter (fun p => p.1 != g.nextInst) }
    let s := setInst (setAwaits (setGroupEntry s h) i.val .fab e.qid 1) x
    match assocGet g.nextInst g.aborted with
    | some code => failInst s h x code
    | none =>
      if (x.op != .barrier && x.op != .snapshot) && descBad g x.op x.desc then abortInst s h x faultFormat
      else runInst s h x

/-! ## Lines that arrive -/

/-- A line that has no further use: its slot goes back. -/
def discardLine (s : State) (g : Group) (slot : Nat) (l : CtrlLine) : State :=
  returnCredit s g (slotRelation s g slot l) l.rank

/-- A child that runs an instance which has released here already takes the release from this member
(R326); a parent that captures again takes the snapshot of this member as done. -/
def releaseAgain (s : State) (g : Group) (x : Inst) (l : CtrlLine) : State :=
  let again := fun (kind value : Nat) (data : List Byte) =>
    drainGroup (queueLine s g.index (downLine g 0 l.rank x.num kind value data 0)) g.index
  if x.op = .snapshot && l.kind = kRelease && l.value = 1 then queueUp s g 0 x.num kDone 0 []
  else if !(childrenIn g.size 0 g.rank).contains l.rank then s
  else match x.op with
    | .barrier => again kRelease 0 []
    | .snapshot => again kRelease 2 []
    | .stepEnd => again kData 0 (bytesOfWords (((s.job).map fun j => if x.desc.isEmpty then holdResult j else j.payload).getD []))
    | _ => s

/-- How a line stands to this member. -/
inductive LineCase where
  | none_                                   -- no such group, or the line is of another kind
  | drop (g : Group)                        -- discarded, its slot returned
  | bad (g : Group)                         -- an unassigned KIND
  | early                                   -- of an instance not started here
  | old (g : Group)                         -- of an instance that is over here
  | mine (g : Group) (x : Inst)
  | other (g : Group) (x : Inst)            -- mismatch of the instance number
  deriving DecidableEq, Repr

def lineCase (s : State) (idx slot kind : Nat) : LineCase :=
  match groupAt s idx with
  | none => .none_
  | some g =>
    let l := readLine s g slot
    if l.kind = 0 || 6 < l.kind then .bad g
    else if l.kind != kind then .none_
    else if l.gen != g.gen then .drop g
    else match instOf s idx with
      | some x =>
        if l.inst = x.num then .mine g x
        else if l.inst = g.nextInst || g.later.map (·.num) = some l.inst then .early
        else if (lineInst s g l).isSome || g.failed.contains l.inst then .old g
        else .other g x
      | none => if l.inst < g.nextInst then .old g else .early

/-- A ring instance that is over here runs again for a member that restarts it under a newer generation (R326): the instance in
progress is set aside, and no instruction waits for the repetition. -/
def runAgain (s : State) (g : Group) (x : Inst) : State :=
  let y := { freshInst s x with qid := 2 ^ 64 }
  let h := { g with later := (instOf s g.index).or g.later }
  runInst (setInst (setGroupEntry s h) y) h y

/-- The line is one of a ring that runs again: it is of the last instance here, which was over before the generation rose. -/
def ringRestarts (g : Group) (x : Inst) (l : CtrlLine) : Bool :=
  isRing x.op && x.num = l.inst && g.lastGen != g.gen && l.kind = kData

/-- A line of an instance that is over here. -/
def oldLine (s : State) (g : Group) (slot : Nat) (l : CtrlLine) (f : Group → Inst → CtrlLine → State → State) : State :=
  match g.last with
  | none => discardLine s g slot l
  | some x =>
    if ringRestarts g x l then
      let t := runAgain s g x
      match groupAt t g.index, (instOf t g.index).filter fun y => y.num = l.inst with
      | some h, some y => f h y l t
      | _, _ => t
    else
      let t := discardLine s g slot l
      if x.num = l.inst then releaseAgain t g x l else t

/-- The instance that was set aside starts again once the one before it is over. -/
def resumeOne (s : State) (g : Group) : State := match groupAt s g.index, instOf s g.index with
  | some h, none => match h.later with
    | some y =>
      let h := { h with later := none }
      runInst (setInst (setGroupEntry s h) (freshInst s y)) h (freshInst s y)
    | none => s
  | _, _ => s

def resumeLater (s : State) : State := s.coll.groups.foldl resumeOne s

/-- The line of a slot, as its group reads it. -/
def lineRange (s : State) (idx slot : Nat) : List (Nat × Nat) := match groupAt s idx with
  | some g => [(slotLine g slot, 32)]
  | none => []

/-- The common part of every line; `f` handles a line of the instance in progress. -/
def takeLine (s : State) (idx slot kind : Nat) (f : Group → Inst → CtrlLine → State → State) : State :=
  resumeLater <| match lineCase s idx slot kind with
    | .none_ => s
    | .early => s
    | .bad g =>
      let l := readLine s g slot
      discardLine (satF s COL_CNT3 COL_CNT3_MISMATCH 1) g slot l
    | .drop g => discardLine s g slot (readLine s g slot)
    | .old g => oldLine s g slot (readLine s g slot) f
    | .mine g x => f g x (readLine s g slot) s
    | .other g x => mismatchInst s g x (readLine s g slot).rank

def onData (slot : Nat) (g : Group) (x : Inst) (l : CtrlLine) (s : State) : State :=
  match x.op with
  | .broadcast => bcastData s g x slot l
  | .stepEnd => stepEndData s g x slot l
  | .barrier => mismatchInst s g x l.rank
  | .snapshot => mismatchInst s g x l.rank
  | _ => if 20 ≤ slot then mismatchInst s g x l.rank else ringData s g x slot l

/-- A child has arrived, or is done. -/
def kidIn (s : State) (g : Group) (x : Inst) (l : CtrlLine) : State × Inst :=
  let y := { x with kids := x.kids ++ [l.rank], since := s.now, stalled := false }
  (setInst (returnCredit s g 1 l.rank) y, y)

def onArrive (g : Group) (x : Inst) (l : CtrlLine) (s : State) : State :=
  if !(awaitedKids g x).contains l.rank then mismatchInst s g x l.rank
  else
    let r := kidIn s g x l
    if x.op = .barrier then barrierUp r.1 g r.2
    else if x.op = .snapshot && x.phase = 0 then
      if r.2.own then snapUp r.1 g r.2 else snapFence r.1 g r.2
    else mismatchInst s g x l.rank

def onRelease (g : Group) (x : Inst) (l : CtrlLine) (s : State) : State :=
  if g.rank = 0 || l.rank != treeParent g.rank then mismatchInst s g x l.rank
  else
    let s := returnCredit s g (1 + childNo 0 g.rank) l.rank
    if x.op = .barrier then completeInst (queueDown s g 0 x.num kRelease 0 [] 0) g x
    else if x.op = .snapshot && l.value = 1 && x.phase = 0 && x.own then
      beginCapture (queueDown s g 0 x.num kRelease 1 [] 0) g x
    else if x.op = .snapshot && l.value = 2 && (x.phase = 1 || x.phase = 0) then finishSnap s g x
    else mismatchInst s g x l.rank

def onDone (g : Group) (x : Inst) (l : CtrlLine) (s : State) : State :=
  if x.op = .snapshot && x.phase = 1 && (awaitedKids g x).contains l.rank then
    let r := kidIn s g x l
    snapUp r.1 g r.2
  else mismatchInst s g x l.rank

/-- CAPTURE_COMPLETE: the copy is finished. -/
def captureComplete (s : State) (idx : Nat) : State :=
  match groupAt s idx, instOf s idx with
  | some g, some x =>
    if x.op = .snapshot && x.phase = 1 && !x.own && s.coll.capturing && !quenched s then
      let y := { x with own := true, since := s.now }
      snapUp (setInst { s with coll := { s.coll with capturing := false } } y) g y
    else s
  | _, _ => s

/-- ABORT goes on to the children: the root floods it and every other member passes it on (R327). -/
def floodAbort (s : State) (g : Group) (l : CtrlLine) : State :=
  (childrenIn g.size 0 g.rank).foldl (fun t c => sendSlot27 t g c l.inst kAbort l.status) s

/-- An instance that has not started here fails when its instruction reaches the engines. -/
def noteAborted (s : State) (g : Group) (l : CtrlLine) : State := match groupAt s g.index with
  | some h => setGroupEntry s { h with aborted := assocSet l.inst l.status h.aborted }
  | none => s

/-- ABORT (R327), of the instance in progress here, of one to come, or of one that is over here. -/
def onAbort (s : State) (g : Group) (l : CtrlLine) : State :=
  let s := returnCredit s g 10 l.rank
  if (assocGet l.inst g.aborted).isSome then s
  else match (instOf s g.index).filter fun x => x.num = l.inst with
    | some x => failInst (floodAbort s g l) g x l.status
    | none => if l.inst = g.nextInst then noteAborted (floodAbort s g l) g l else floodAbort s g l

def takeAbort (s : State) (idx slot : Nat) : State :=
  match groupAt s idx with
  | none => s
  | some g =>
    let l := readLine s g slot
    if l.kind = 0 || 6 < l.kind then discardLine (satF s COL_CNT3 COL_CNT3_MISMATCH 1) g slot l
    else if l.kind != kAbort then s
    else if l.gen != g.gen then discardLine s g slot l
    else onAbort s g l

/-! ## Credit (R311) -/

/-- The receivers whose count a credit line of the relation can be: more than they have returned, and no more than was sent to
them. A relation that has led to several members is credited to the first of them (log entry 36). -/
def creditPeers (g : Group) (rel n : Nat) : List Nat :=
  (g.sent.filter fun p => p.1 / 65536 = rel && tally p.1 g.returned < n && n ≤ p.2).map (·.1 % 65536)

/-- The count in a credit line is taken, and waiting lines leave. -/
def takeCredit (s : State) (idx rel : Nat) : State :=
  match groupAt s idx with
  | none => s
  | some g =>
    if quenched s then s
    else
      let n := (readWord s (creditLine g rel)).toNat
      match (creditPeers g rel n).head? with
      | none => s
      | some r =>
        let s := setGroupEntry s { g with returned := assocSet (relKey rel r) n g.returned }
        resumeLater (pollColl (drainGroup s idx))

/-! ## Stall (R328) -/

def awaitedRanks (g : Group) (x : Inst) : List Nat :=
  if isRing x.op then
    let ts := laneStrides g.size
    (((List.range ts.length).filter fun q => tally q x.got != laneTotal g x q).map fun q =>
      (g.rank + g.size * ts.getD q 0 - ts.getD q 0) % max 1 g.size).dedup
  else if x.op = .broadcast then
    if g.rank = x.root then childrenIn g.size x.root g.rank else [parentIn x.root g.rank]
  else if (awaitedKids g x).isEmpty then (if g.rank = 0 then [] else [treeParent g.rank])
  else awaitedKids g x

def collStall (s : State) (idx : Nat) : State :=
  match groupAt s idx, instOf s idx with
  | some g, some x =>
    let lim := getF s COL_CTL COL_CTL_STALL_MS
    if lim = 0 || x.stalled || quenched s || s.now - x.since < lim * 1000000 then s
    else
      let rs := awaitedRanks g x
      let s := setInst s { x with stalled := true }
      let s := satF s COL_CNT3 COL_CNT3_STALLS 1
      let s := makeRecord s (srcEngine 1) 0x281 [w64 (idx + rs.headD 0 * 2 ^ 16 + rs.length * 2 ^ 32), w64 x.num]
      postRecord s [headWord s 0x0406 0, w64 (idx * 2 ^ 48 + x.num), w64 (rs.headD 0), w64 rs.length]
  | _, _ => s

/-! ## The group table (R308) -/

def u16List (s : State) (a n : Nat) : List Nat := (List.range n).map fun k => ofLE (readBytes s (a + 2 * k) 2)

/-- The entry as the table gives it: its words, members and connections. -/
structure GroupEntry where
  words : List Word64
  nodes : List Nat
  conns : List Nat
  deriving DecidableEq, Repr

def groupTable (s : State) (idx : Nat) : Nat := getPair s COL_GRP_BASE_LO COL_GRP_BASE_HI + 64 * idx

def readGroupEntry (s : State) (idx : Nat) : GroupEntry :=
  let ws := readWords s (groupTable s idx) 8
  let n := wfield ws 0 31 15
  if n ≤ 65536 then ⟨ws, u16List s (wfield ws 2 63 0) n, u16List s (wfield ws 3 63 0) n⟩ else ⟨ws, [], []⟩

/-- The reason of a refusal in the order of R308, from 1; 0 for none. -/
def groupReason (s : State) (e : GroupEntry) : Nat :=
  let n := wfield e.words 0 31 15
  let rank := wfield e.words 1 63 48
  if wfield e.words 0 63 48 != 0x0C61 || wfield e.words 0 14 0 != 0 || n = 0 || 65536 < n || n ≤ rank
      || wfield e.words 1 47 0 != 0 || wfield e.words 4 20 0 != 0
      || (List.range 3).any (fun k => wfield e.words (5 + k) 63 0 != 0)
      || e.conns.any (fun c => 1023 < c && c != 0xFFFF) then 1
  else if e.nodes.getD rank 0 != ownNode s then 2
  else if (e.nodes.zip e.conns).any (fun p => !nodeReachable s p.1 && p.2 = 0xFFFF) then 3
  else if (e.nodes.zip e.conns).any (fun p => nodeReachable s p.1 && p.2 != 0xFFFF) then 4
  else 0

def Group.ofEntry (idx : Nat) (e : GroupEntry) : Group :=
  { index := idx, gen := wfield e.words 0 47 32, rank := wfield e.words 1 63 48, nodes := e.nodes
    conns := e.conns, stage := wfield e.words 4 63 0, nextInst := 0, outq := [], sent := [], returned := []
    taken := [], last := none, aborted := [] }

def groupAct (s : State) (idx : Nat) : State :=
  if (groupAt s idx).isSome then s
  else
    let e := readGroupEntry s idx
    let r := groupReason s e
    if r = 0 then setGroupEntry s (Group.ofEntry idx e)
    else makeRecord s srcSmith 0x282 [w64 (idx + r * 2 ^ 8)]

def groupDeact (s : State) (idx : Nat) : State :=
  let t := match groupAt s idx, instOf s idx with
    | some g, some x => failInst s g x faultFabric
    | _, _ => s
  { t with coll := { t.coll with groups := t.coll.groups.filter (·.index != idx) } }

/-- What a member gave to a step-end reduction. -/
def givenPayload (s : State) (x : Inst) : List Word64 :=
  if x.desc.isEmpty then holdPayload s
  else
    let w0 := readWords s (descSrc x.desc) 1
    let ws := readWords s (descSrc x.desc) (payloadLen (payLayers w0) (payPhase w0))
    if payPhase w0 = 0 then ownTotals s ws else ws

/-- R326: an instance that has released here is complete everywhere: the member tells its new parent that it has arrived, and
sends the data of a broadcast to its new children. A ring runs again when a line of it comes (`runAgain`). -/
def offerLast (s : State) (g : Group) : State :=
  match g.last with
  | none => s
  | some x =>
    if x.op = .broadcast then
      let r := memRead s (descDst x.desc) (bcastBytes x.desc)
      if r.2.1 = .ok then bcastSend g x r.2.2 (bcastChunks x.desc) 0 r.1 else s
    else if isRing x.op || g.rank = 0 then s
    else if x.op = .stepEnd then queueUp s g 0 x.num kData 0 (bytesOfWords (givenPayload s x))
    else queueUp s g 0 x.num kArrive 0 []

/-- R326: an instance that has not released restarts over the new membership, with the same number. -/
def restartInst (s : State) (g : Group) : State :=
  let g := { g with outq := [], sent := [], returned := [], taken := [] }
  let s := offerLast (setGroupEntry s g) g
  match groupAt s g.index, instOf s g.index with
  | some g, some x =>
    let y := freshInst s x
    let s := satF s COL_CNT2 COL_CNT2_RESTARTS 1
    runInst (setInst { s with coll := { s.coll with capturing := s.coll.capturing && x.op != .snapshot } } y) g y
  | _, _ => s

end Sys2Proof.Machine
end

