-- ==== Sys2Proof/Machine/Pump.lean ====
section
/-! DEFINITION. The five queues of a core as they start and complete their entries (R172 to R174, R183, R186 to
R188): which entry starts, what it runs, and what its completion does. -/

namespace Sys2Proof.Machine

/-! ## What an entry runs -/

/-- Vector instructions that read core store: VLD, VQNT, VCVT, VACT, VUMU, VUPD, VGACC and VMARK. -/
def vecReads (op : Nat) : Bool := [0x50, 0x52, 0x53, 0x59, 0x5A, 0x5B, 0x5C, 0x5E].contains op

def runVec (s : State) (i : Nat) (e : QEntry) : State :=
  if e.ecc && vecReads e.op then coreStoreFault s i .vec e (if isSplit s i then e.ctx.val else 0) 0
  else match e.op with
  | 0x40 => runVadd s i e
  | 0x41 => runVsub s i e
  | 0x42 => runVmul s i e
  | 0x43 => runVmin s i e
  | 0x44 => runVmax s i e
  | 0x45 => runVcmp s i e
  | 0x46 => runVsel s i e
  | 0x47 => runVabs s i e
  | 0x48 => runVneg s i e
  | 0x49 => runVshl s i e
  | 0x4A => runVrsh s i e
  | 0x4B => runVresc s i e
  | 0x4C => runVmov s i e
  | 0x4D => runVsplat s i e
  | 0x4E => runVmovg s i e
  | 0x4F => runVradd s i e
  | 0x50 => runVld s i e
  | 0x51 => runVst s i e
  | 0x52 => runVqnt s i e
  | 0x53 => runVcvt s i e
  | 0x54 => runVrsum s i e
  | 0x55 => runVrmax s i e
  | 0x56 => runVrcnt s i e
  | 0x57 => runVrssq s i e
  | 0x58 => runVsqadd s i e
  | 0x59 => runVact s i e
  | 0x5A => runVumu s i e
  | 0x5B => runVupd s i e
  | 0x5C => runVgacc s i e
  | 0x5D => runVrand s i e
  | 0x5E => runVmark s i e
  | _ => s

def opMcopy : Nat := 0x80
def opMfill : Nat := 0x81

def runTongs (s : State) (i : Nat) (e : QEntry) : State :=
  if e.op = opMcopy then runMcopy s i e else runMfill s i e

def opFput : Nat := 0xA0
def opFget : Nat := 0xA1
def opFsend : Nat := 0xA2
def opFred : Nat := 0xA4
def opFgath : Nat := 0xA5

def runFab (s : State) (i : CoreId) (e : QEntry) : State :=
  match e.op with
  | 0xA0 => runFput s i.val e
  | 0xA1 => runFget s i.val e
  | 0xA2 => runFsend s i.val e
  | 0xA3 => runFatom s i.val e
  | 0xA4 => runFred s i.val e
  | 0xA5 => runFgath s i.val e
  | _ => runColl s i e

/-- The place that an entry of the tongs or fabric queue reads on its own device, if any. -/
def entrySource (s : State) (e : QEntry) : Option Place :=
  if e.op = opMcopy then some (placeOf s (mcopySrcSpace e.f) e.ga)
  else if e.op = opFput then some (placeOf s (fabSpace e.f) e.ga)
  else if e.op = opFget then (if fabVia e.f then none else some (placeOf s 2 e.gb))
  else if e.op = opFsend || e.op = opFred || e.op = opFgath || e.op = opFcoll then some (.cs e.ga.toNat)
  else none

/-- Table 9-3: an uncorrectable error in core store that an entry reads, in space 1 or through a window (R253). -/
def sourceFault (s : State) (i : Nat) (q : Queue) (e : QEntry) : Option State :=
  if !e.ecc then none
  else match entrySource s e with
    | some (.cs _) => some (coreStoreFault s i q e (if isSplit s i then e.ctx.val else 0) 0)
    | some (.mem a) => if isWindow a then some (entryFault (countCsUe s (windowCore a)) i q e faultPoison) else none
    | _ => none

/-- What remains when the last reply has come. -/
def finishEntry (s : State) (i : Nat) (e : QEntry) : State :=
  if e.off then s
  else if e.op = opMcopy then finishMcopy s i e
  else if e.op = opFget then finishFget s i e
  else if e.op = opFatom then finishFatom s i e
  else if e.op = opFgath then finishFgath s i e
  else s

/-! ## What holds an entry -/

def opSignal : Nat := 0x0F
def opWait : Nat := 0x10

/-- An entry whose data is still to be written to core store, when it completes: a later entry of its queue waits, so that
core store is in order within one queue (R173). -/
def writesLater (e : QEntry) : Bool :=
  e.started && !e.off &&
    (e.op = opFgath || (e.op = opFget && fabSpace e.f = 1)
      || (e.op = opMcopy && mcopyDstSpace e.f = 1 && (0 < e.awaits || !e.buf.isEmpty)))

/-- The member an entry's request addresses. -/
def entryTarget (s : State) (e : QEntry) : Option Nat :=
  let node := fun (p : Place) => match p with
    | .node n _ => some n
    | _ => none
  if e.op = opMcopy then (node (placeOf s (mcopySrcSpace e.f) e.ga)).or (node (placeOf s (mcopyDstSpace e.f) e.gb))
  else if e.op = opMfill then node (placeOf s (e.f.modBits 106 105) e.gb)
  else if e.op = opFput || e.op = opFget then (if fabVia e.f then none else node (placeOf s 2 e.gb))
  else if e.op = opFatom then node (placeOf s (fabSpace e.f) e.ga)
  else if e.op = opFred then node (placeOf s (fabSpace e.f) e.gb)
  else none

/-- R323: from a snapshot's arrival to its release, a new request to a member of the group is held. -/
def snapHolds (s : State) (e : QEntry) : Bool :=
  flag s COL_STATUS COL_STATUS_SNAP_OPEN && s.coll.insts.any fun x =>
    x.op = .snapshot && match groupAt s x.group, entryTarget s e with
      | some g, some n => g.nodes.contains n
      | some g, none => e.op = opFsend || ((e.op = opFput || e.op = opFget) && fabVia e.f && g.conns.contains (fabConn e.f))
          || e.op = opFgath
      | none, _ => false

def fabHeld (s : State) (i : Nat) (e : QEntry) : Bool :=
  if opFbar ≤ e.op then collWaits s i e else snapHolds s e

/-! ## Starting entries -/

def removeEntry (s : State) (i : Nat) (q : Queue) (qid : Nat) : State :=
  modCore s i fun c => c.setQueue q ((c.queue q).filter fun e => e.qid != qid)

def entrySignal (s : State) (i : Nat) (q : Queue) (e : QEntry) : State :=
  signalDone s i e.ctx e.f.sigen e.f.sigc.toNat (queueCode q) e.pc

def markStarted (s : State) (i : Nat) (q : Queue) (qid : Nat) (fin : Bool) : State :=
  setEntry s i q qid fun e => { e with started := true, finished := fin }

def sigCounter (f : Fields) : Nat := f.subBits 7 4
def sigAmount (f : Fields) : Nat := f.immBits 31 0

/-- A WAIT that reached its head is held in the order of arrival (R186). -/
def holdWait (s : State) (i : Nat) (k : CtxId) (place : WaitPlace) (counter n : Nat) (sigen : Bool) (sigc pc : Nat) :
    State :=
  modCore s i fun c => { c with
    heldWaits := c.heldWaits ++ [⟨place, counter, n, s.now, 0, sigen, sigc, pc, k⟩] }

def waitHeld (s : State) (i : Nat) (place : WaitPlace) : Bool := (coreAt s i).heldWaits.any (·.place = place)

/-- The vector engine runs, or may start (R385). -/
def veMay (s : State) (i : Nat) : Bool := (coreAt s i).veGrant || (coreAt s i).vec.any fun e => e.started && !e.off

/-- An idle vector engine asks for the grant of its start. -/
def askVector (s : State) (i : CoreId) : State :=
  if s.power.grants.contains (.vector i) then s else addGrants s [.vector i]

/-- R230, R359: VUMU and VUPD of a task of the schedule wait from the result of the reduction until action 7, and in it
while a full copy runs, so that no master moves under a hold or a copy. -/
def updateHeld (s : State) (i : Nat) (e : QEntry) : Bool :=
  (e.op = 0x5A || e.op = 0x5B) && (((coreAt s i).task.bind (·.entry)).isSome) && match s.job with
    | some j => (2 ≤ j.stepEnd && j.stepEnd ≤ 6) || (j.stepEnd = 7 && s.surv.copying)
    | none => false

/-- DRAM that an entry of the tongs or fabric queue reads or writes on its own device, by address and length. -/
def entryRanges (s : State) (e : QEntry) : List (Nat × Nat) :=
  let at_ := fun (p : Place) (n : Nat) => match p with
    | .mem a => [(a, n)]
    | _ => []
  let w := moveWordOf e.gc
  if e.op = opMcopy then
    at_ (placeOf s (mcopySrcSpace e.f) e.ga) (spanOf w (srcStride e.f))
      ++ at_ (placeOf s (mcopyDstSpace e.f) e.gb) (spanOf w (dstStride e.f))
  else if e.op = opMfill then at_ (placeOf s (e.f.modBits 106 105) e.gb) (w.rows * w.bytes)
  else if e.op = opFput then
    at_ (placeOf s (fabSpace e.f) e.ga) (fabLen e.f)
      ++ (if fabVia e.f then [] else at_ (placeOf s 2 e.gb) (fabLen e.f))
  else if e.op = opFget then
    at_ (placeOf s (fabSpace e.f) e.ga) (fabLen e.f)
      ++ (if fabVia e.f then [] else at_ (placeOf s 2 e.gb) (fabLen e.f))
  else if e.op = opFatom then at_ (placeOf s (fabSpace e.f) e.ga) 8
  else if e.op = opFred then at_ (placeOf s (fabSpace e.f) e.gb) (fabLen e.f)
  else []

/-- R264: the entry would reach a line whose channel is being margined again. -/
def rangeHeld (s : State) (e : QEntry) : Bool :=
  s.memctl.rerunning.isSome && (entryRanges s e).any fun r => channelHeld s r.1 r.2

/-- The next entry of a queue starts, if nothing holds it; the flag tells whether another may follow. -/
def startNext (s : State) (i : CoreId) (q : Queue) : State × Bool :=
  match headEntry s i.val q with
  | none => (s, false)
  | some e =>
    if quenched s || (coreSaving s i.val && (q = .anv0 || q = .anv1)) then (s, false)
    else if e.off then (markStarted s i.val q e.qid true, true)
    else if e.op = opSignal then
      let n := physSc (isSplit s i.val) e.ctx (sigCounter e.f)
      if 0xFFFFFFFF < readSc s i.val n + sigAmount e.f then (entryFault s i.val q e faultCounter, false)
      else (entrySignal (removeEntry (writeSc s i.val n (readSc s i.val n + sigAmount e.f)) i.val q e.qid) i.val q e, true)
    else if e.op = opWait then
      if sigAmount e.f = 0 then (entrySignal (removeEntry s i.val q e.qid) i.val q e, true)
      else if waitHeld s i.val (.inQueue q) then (s, false)
      else
        (holdWait s i.val e.ctx (.inQueue q) (physSc (isSplit s i.val) e.ctx (sigCounter e.f)) (sigAmount e.f)
          e.f.sigen e.f.sigc.toNat e.pc, false)
    else if isTile e then (s, false)
    else if ((coreAt s i.val).queue q).any writesLater then (s, false)
    else match q with
      | .vec =>
        if updateHeld s i.val e then (s, false)
        else if veMay s i.val then
          (runVec (modCore (markStarted s i.val q e.qid true) i.val fun c => { c with veGrant := false }) i.val e, true)
        else (askVector s i, false)
      | .tongs => if rangeHeld s e || snapHolds s e then (s, false)
        else match sourceFault s i.val q e with
        | some t => (t, false)
        | none => (runTongs (markStarted s i.val q e.qid false) i.val e, true)
      | .fab => if fabHeld s i.val e || rangeHeld s e then (s, false)
        else match sourceFault s i.val q e with
          | some t => (t, false)
          | none => (runFab (markStarted s i.val q e.qid false) i e, true)
      | _ => (s, false)

def pumpN (i : CoreId) (q : Queue) : Nat → State → State
  | 0, s => s
  | n + 1, s =>
    let r := startNext s i q
    if r.2 then pumpN i q n r.1 else r.1

def pumpQueue (s : State) (i : CoreId) (q : Queue) : State :=
  pumpN i q ((coreAt s i.val).queue q).length s

def pumpCore (s : State) (i : CoreId) : State := allQueues.foldl (fun t q => pumpQueue t i q) s

def coreIds : List CoreId := List.finRange 128

/-- Every queue with requests to other members looks again, after a collective instance has gone. -/
def pumpFabrics (s : State) : State := coreIds.foldl (fun t i => pumpQueue (pumpQueue t i .fab) i .tongs) s

def pumpAll (s : State) : State := coreIds.foldl pumpCore s

/-! ## Completion (R174, R183) -/

/-- The entry has done everything its class asks. -/
def entryOver (e : QEntry) : Bool :=
  e.started && (e.off || (if isTile e then e.finished else e.awaits = 0))

/-- The oldest entry that may complete: a predicated-off one only at the head of its queue (R182). -/
def oldestOver (l : List QEntry) : Option QEntry :=
  if (l.head?.map entryOver).getD false then l.head? else l.find? fun e => entryOver e && !e.off

/-- The oldest entry that is over completes: its last effect is made, it leaves and signals. -/
def completeOldest (s : State) (i : CoreId) (q : Queue) : State :=
  match oldestOver ((coreAt s i.val).queue q) with
  | none => s
  | some e =>
    let t := finishEntry s i.val e
    if (entryOf t i.val q e.qid).isNone then t
    else entrySignal (removeEntry t i.val q e.qid) i.val q e

def instructionComplete (s : State) (i : CoreId) (q : Queue) : State :=
  if quenched s then s else pumpFabrics (pumpQueue (pollColl (completeOldest s i q)) i q)

def execInstructionComplete (core : CoreId) (q : Queue) (s : State) : Host.Outcome State Fault Refusal :=
  .next (instructionComplete s core q)

/-! ## Anvil events, each followed by the entries it frees -/

def lanesPump (s : State) (i : CoreId) : State := pumpQueue (pumpQueue s i .anv0) i .anv1

def execZero (core : CoreId) (anvil : AnvilId) (s : State) : Host.Outcome State Fault Refusal :=
  .next (lanesPump (doZero s core.val anvil.val) core)

def execLoad (core : CoreId) (anvil : AnvilId) (eccErr : Bool) (s : State) : Host.Outcome State Fault Refusal :=
  .next (lanesPump (doLoad s core.val anvil.val eccErr) core)

def execLoadComplete (core : CoreId) (anvil : AnvilId) (s : State) : Host.Outcome State Fault Refusal :=
  .next (lanesPump (doLoadComplete s core.val anvil.val) core)

def execSwap (core : CoreId) (anvil : AnvilId) (s : State) : Host.Outcome State Fault Refusal :=
  .next (lanesPump (doSwap s core.val anvil.val) core)

def execMultiplyAccumulate (core : CoreId) (lane : CtxId) (eccErr : Bool) (s : State) :
    Host.Outcome State Fault Refusal :=
  .next (lanesPump (doPass s core lane eccErr) core)

def execPassComplete (core : CoreId) (lane : CtxId) (s : State) : Host.Outcome State Fault Refusal :=
  .next (passComplete s core lane)

def execRampStage (core : CoreId) (anvil : AnvilId) (s : State) : Host.Outcome State Fault Refusal :=
  .next (rampStage s core anvil.val)

def execDrain (core : CoreId) (start : DrainStart) (s : State) :
    Host.Outcome State Fault Refusal :=
  .next (lanesPump (doDrain s core.val start.anvil.val start.eccErr) core)

def execDrainRow (core : CoreId) (anvil : AnvilId) (upset : Option Upset) (s : State) :
    Host.Outcome State Fault Refusal :=
  .next (doDrainRow s core.val anvil.val upset)

def execDrainComplete (core : CoreId) (anvil : AnvilId) (s : State) : Host.Outcome State Fault Refusal :=
  .next (doDrainComplete s core.val anvil.val)

def execFusedOutputRow (core : CoreId) (row : RowRead) (s : State) :
    Host.Outcome State Fault Refusal :=
  .next (doFusedRow s core.val row.anvil.val row.eccErr)

/-! ## Held WAITs (R186, R187) -/

/-- The WAIT is the first of those held on its counter. -/
def firstHeld (c : Core) (h : Held) : Bool := (c.heldWaits.find? (·.counter = h.counter)) = some h

def dropWait (s : State) (i : Nat) (h : Held) : State :=
  modCore s i fun c => { c with heldWaits := c.heldWaits.erase h }

/-- The WAIT releases: n is subtracted and the instruction completes. -/
def waitRelease (s : State) (i : CoreId) (place : WaitPlace) : State :=
  match (coreAt s i.val).heldWaits.find? (·.place = place) with
  | none => s
  | some h =>
    if quenched s || !firstHeld (coreAt s i.val) h || readSc s i.val h.counter < h.n then s
    else
      let k := h.ctx
      let s := dropWait (writeSc s i.val h.counter (readSc s i.val h.counter - h.n)) i.val h
      match place with
      | .seq k =>
        let s := setCtxAt s i.val k { (ctxAt s i.val k) with hold := .none, stat := .running }
        signalDone (advance s i.val k) i.val k h.sigen h.sigc 0 h.pc
      | .inQueue q =>
        let s := match headEntry s i.val q with
          | some e => removeEntry s i.val q e.qid
          | none => s
        pumpQueue (signalDone s i.val k h.sigen h.sigc (queueCode q) h.pc) i q

def execWaitRelease (core : CoreId) (at_ : WaitPlace) (s : State) : Host.Outcome State Fault Refusal :=
  .next (waitRelease s core at_)

/-- R187: WAIT_LIM in milliseconds, 0 for no limit; time under a quench does not count. -/
def waitTimeout (s : State) (i : CoreId) (place : WaitPlace) : State :=
  match (coreAt s i.val).heldWaits.find? (·.place = place) with
  | none => s
  | some h =>
    let lim := getF s (CORE_SEQCTL i) CORE_SEQCTL_WAIT_LIM
    if quenched s || lim = 0 || s.now - h.since - h.quenched ≤ lim * 1000000 then s
    else match place with
      | .seq k => faultAbort s i.val k 0 faultWaitTimeout h.pc true
      | .inQueue q => faultAbort s i.val h.ctx (queueCode q) faultWaitTimeout h.pc false

def execWaitTimeout (core : CoreId) (at_ : WaitPlace) (s : State) : Host.Outcome State Fault Refusal :=
  .next (waitTimeout s core at_)

/-! ## FENCE and DONE (R188, R189) -/

/-- No instruction of the context is left in the queues of a mask. -/
def fenceOpen (s : State) (i : Nat) (k : CtxId) (mask : Nat) : Bool :=
  let clear := fun (q : Queue) => ((coreAt s i).queue q).all fun e => e.ctx != k
  (!mask.testBit 0 || (clear .anv0 && clear .anv1)) && (!mask.testBit 1 || clear .vec)
    && (!mask.testBit 2 || clear .tongs) && (!mask.testBit 3 || clear .fab)

def fenceRelease (s : State) (i : Nat) (k : CtxId) : State :=
  match (ctxAt s i k).hold with
  | .fence mask sigen sigc =>
    if quenched s || !fenceOpen s i k mask.toNat then s
    else
      let pc := (ctxAt s i k).pc
      let s := setCtxAt s i k { (ctxAt s i k) with hold := .none, stat := .running }
      signalDone (advance s i k) i k sigen sigc 0 pc
  | _ => s

def execFenceRelease (core : CoreId) (ctx : CtxId) (s : State) : Host.Outcome State Fault Refusal :=
  .next (fenceRelease s core.val ctx)

end Sys2Proof.Machine
end

