-- ==== Sys2Proof/Machine/Perms.lean ====
section
/-! DEFINITION. The protection record in force (R427): its words, the management permissions of an agent, and
the mailbox permissions. -/

namespace Sys2Proof.Machine

/-- An 8-byte word of the protection record in force; with none in force it reads zero. -/
def protWord (s : State) (off : Nat) : Nat := fieldLE s.boot.prot off 8

/-- On-chip agents (Table 12-10). -/
def isAgent (a : Nat) : Bool := (1 ≤ a && a ≤ 6) || (0x10 ≤ a && a ≤ 0x1F)

def agentSmith : Nat := 1

/-- The block of Table 1-7 that an address lies in, in table order. -/
def blockIndex (a : Nat) : Nat :=
  if a < 0x10000 then 0
  else if a < 0x20000 then 1
  else if a < 0x30000 then 2
  else if a < 0x40000 then 3
  else if a < 0x50000 then 4
  else if a < 0x60000 then 5
  else if a < 0x70000 then 6
  else if a < 0x80000 then 7
  else if a < 0x90000 then 8
  else if a < 0x100000 then 9
  else if a < 0x200000 then 10
  else if a < 0x300000 then 11
  else 12

/-- MGMT_PERM of a block: 0 smith only, 1 on-chip read, 2 and remote read, 3 and remote write. -/
def mgmtPerm (s : State) (a : Nat) : Nat := protWord s 0x48 / 2 ^ (2 * blockIndex a) % 4

/-- While the device is absent nobody reads or writes (R412). The smith reads everything; the mailbox block serves every on-chip sender, by its own permissions
(R347; log entry 40). -/
def mayRead (s : State) (agent a : Nat) : Bool :=
  s.boot.running && isAgent agent && (agent = agentSmith || blockIndex a = 3 || 1 ≤ mgmtPerm s a)

/-- An on-chip agent other than the smith writes where a remote one may (log entry 40). -/
def mayWrite (s : State) (agent a : Nat) : Bool :=
  s.boot.running && isAgent agent && (agent = agentSmith || blockIndex a = 3 || mgmtPerm s a = 3)

/-- MBX_PERM: bit 0 admits on-chip senders, bit 1 fabric senders. -/
def mbxPerm (s : State) (m : Nat) : Nat := protWord s 0x40 / 2 ^ (2 * m) % 4
def mbxOnChip (s : State) (m : Nat) : Bool := mbxPerm s m % 2 = 1
def mbxFabric (s : State) (m : Nat) : Bool := 2 ≤ mbxPerm s m

end Sys2Proof.Machine
end

