-- ==== Sys2Proof/Machine/Recorder.lean ====
section
/-! DEFINITION. The event recorder (R437 to R445): the ring of 4 MiB in blocks of 256 bytes, anchors, pads,
the freeze with its hold buffer, and damaged blocks. -/

namespace Sys2Proof.Machine

def ringBytes : Nat := 0x400000
def ringWord (rc : Recorder) (i : Nat) : Word64 := (assocGet i rc.ring).getD 0

/-- One ring word is written whole, which clears any error in it (R257). -/
def Recorder.putWord (rc : Recorder) (i : Nat) (w : Word64) : Recorder :=
  { rc with ring := sparseSet 0 i w rc.ring, bad := rc.bad.filter (· != i) }

def Recorder.putWords : Recorder → Nat → List Word64 → Recorder
  | rc, _, [] => rc
  | rc, i, w :: ws => (rc.putWord i w).putWords (i + 1) ws

/-- Table 16-1. -/
def headerWord (words typ src seq time : Nat) : Word64 :=
  w64 ((words - 1) % 32 * 2 ^ 59 + typ % 2 ^ 11 * 2 ^ 48 + src % 256 * 2 ^ 40 + seq % 256 * 2 ^ 32
    + time / 16 % 2 ^ 32)

def blockLeft (rc : Recorder) : Nat := 256 - rc.head % 256

/-- At the start of the oldest block of a full ring, that block is given up (R442). -/
def Recorder.evict (rc : Recorder) : Recorder × Bool :=
  if rc.head % 256 = 0 && rc.head = rc.tail && rc.anchored.isSome then
    ({ rc with tail := (rc.tail + 256) % ringBytes }, true)
  else (rc, false)

/-- The rest of the block becomes one pad record when a record does not fit in it (R438). -/
def Recorder.pad (rc : Recorder) (words now : Nat) : Recorder :=
  if blockLeft rc < 8 * words then
    { rc.putWords (rc.head / 8)
        (headerWord (blockLeft rc / 8) 0 srcRecorder 0 now :: List.replicate (blockLeft rc / 8 - 1) 0) with
      head := (rc.head + blockLeft rc) % ringBytes }
  else rc

/-- One record is written, and numbered. -/
def placeRec (s : State) (src typ time : Nat) (body : List Word64) : State :=
  let n := body.length + 1
  let p := (s.recorder.pad n s.now).evict
  let rc := p.1.putWords (p.1.head / 8) (headerWord n typ src p.1.seq time :: body)
  let s := { s with recorder := { rc with
    head := (rc.head + 8 * n) % ringBytes, seq := (rc.seq + 1) % 2 ^ 64 } }
  if p.2 then putF s EVR_STATUS EVR_STATUS_WRAPPED 1 else s

/-- Bits of an anchor's cause, from bit 32: reset, time, thaw, drop (Table 16-3). -/
def anchorCause (rc : Recorder) (now : Nat) : Nat :=
  (match rc.anchored with
    | none => 1
    | some t => if t / 2 ^ 36 = now / 2 ^ 36 then 0 else 2)
    + (if rc.thawDue then 4 else 0) + (if rc.dropDue then 8 else 0)

/-- R439: an anchor is written where one is due. -/
def anchorIfDue (s : State) : State :=
  let c := anchorCause s.recorder s.now
  if c = 0 then s
  else
    let t := placeRec s srcRecorder 0x001 s.now
      [w64 s.now, w64 s.recorder.seq, w64 (s.recorder.dropped + c * 2 ^ 32)]
    { t with recorder := { t.recorder with anchored := some s.now, thawDue := false, dropDue := false } }

def writeRec (s : State) (r : Rec) : State :=
  placeRec (anchorIfDue s) r.src r.typ r.time r.body

def holdBytes (l : List Rec) : Nat := (l.map fun r => 8 * (r.body.length + 1)).sum

/-- While the ring is frozen a record goes to the hold buffer of 64 KiB, or is dropped (R443). -/
def holdRec (s : State) (r : Rec) : State :=
  if 0x10000 < holdBytes (s.recorder.hold ++ [r]) then
    putF { s with recorder := { s.recorder with
      dropped := satAdd 0xFFFFFFFF s.recorder.dropped 1, dropDue := true } }
      EVR_STATUS EVR_STATUS_HOLD_FULL 1
  else { s with recorder := { s.recorder with hold := s.recorder.hold ++ [r] } }

/-- The oldest waiting record reaches the ring, or the hold buffer. -/
def eventRecord (s : State) : State :=
  match s.recorder.waiting with
  | [] => s
  | r :: rest =>
    let t := { s with recorder := { s.recorder with waiting := rest } }
    if t.recorder.frozen.isSome then holdRec t r else writeRec t r

def execEventRecord (s : State) : Host.Outcome State Fault Refusal := .next (eventRecord s)

def freezeRing (s : State) : State :=
  if s.recorder.frozen.isSome then s
  else putF { s with recorder := { s.recorder with frozen := some s.now } } EVR_STATUS EVR_STATUS_FROZEN 1

def nextBlock (rc : Recorder) : Nat := (rc.head / 256 * 256 + 256) % ringBytes

/-- Recording resumes: the move of R444, an anchor, then the hold buffer. -/
def thawRing (s : State) : State :=
  if s.recorder.frozen.isNone then s
  else
    let rc := s.recorder
    let h := rc.hold
    let s := { s with recorder := { rc with
      frozen := none, hold := [], thawDue := true, moveHead := false
      head := if rc.moveHead then nextBlock rc else rc.head } }
    let s := putF (putF s EVR_STATUS EVR_STATUS_FROZEN 0) EVR_STATUS EVR_STATUS_HOLD_FULL 0
    h.foldl writeRec (anchorIfDue s)

/-- EVR_CTL bits FREEZE and THAW; a write that sets both is ignored (R443). -/
def evrControl (s : State) (freeze thaw : Bool) : State :=
  if freeze && thaw then s
  else if freeze then freezeRing s
  else if thaw then thawRing s
  else s

def freeze (s : State) (agent : Nat) : State :=
  if mayWrite s agent EVR_CTL then evrControl s true false else s

def execFreeze (agent : BitVec 8) (s : State) : Host.Outcome State Fault Refusal :=
  .next (freeze s agent.toNat)

def thaw (s : State) (agent : Nat) : State :=
  if mayWrite s agent EVR_CTL then evrControl s false true else s

def execThaw (agent : BitVec 8) (s : State) : Host.Outcome State Fault Refusal :=
  .next (thaw s agent.toNat)

def freezeExpiry (s : State) : State :=
  match s.recorder.frozen with
  | none => s
  | some t =>
    if s.now - t < min 30000 (getF s EVR_CTL EVR_CTL_FREEZE_LIM) * 1000000 then s
    else putF (thawRing s) EVR_STATUS EVR_STATUS_TIMED_OUT 1

def execFreezeLimitExpiry (s : State) : Host.Outcome State Fault Refusal := .next (freezeExpiry s)

/-- R444: the block of an uncorrectable word becomes one damaged-block record. -/
def damageBlock (s : State) (word : Nat) : State :=
  let rc := s.recorder
  let b := word / 32
  let rc1 := rc.putWords (32 * b) (headerWord 32 0x002 srcRecorder 0 s.now :: List.replicate 31 0)
  let rc2 := { rc1 with damaged := satAdd 255 rc.damaged 1 }
  let hit := rc.head % 256 != 0 && rc.head / 256 = b
  { s with recorder :=
    if !hit then rc2
    else if rc.frozen.isSome then { rc2 with moveHead := true }
    else { rc2 with head := nextBlock rc } }

/-- R445: window word `w` holds the ring bytes at CURSOR + 4w. A word with an uncorrectable error reads 0, and
its block is replaced. -/
def windowWord (s : State) (w : Nat) : State × Word32 :=
  let off := (4 * getF s EVR_CURSOR EVR_CURSOR_OFFSET + 4 * w) % ringBytes
  if s.recorder.bad.contains (off / 8) then (damageBlock s (off / 8), 0)
  else (s, BitVec.ofNat 32 ((ringWord s.recorder (off / 8)).toNat / 2 ^ (8 * (off % 8))))

/-- The read meets an error that stands in the word when `eccErr` says so. -/
def evrWindowRead (s : State) (agent w : Nat) (eccErr : Bool) : State :=
  if !mayRead s agent (EVR_WINDOW w) then { s with answer := .value 0 } else
  let off := (4 * getF s EVR_CURSOR EVR_CURSOR_OFFSET + 4 * w) % ringBytes
  let s := if eccErr then { s with recorder := { s.recorder with
    bad := off / 8 :: s.recorder.bad.filter (· != off / 8) } } else s
  let r := windowWord s w
  { r.1 with answer := .value r.2 }

def execEvrWindowRead (agent : BitVec 8) (w : BitVec 10) (eccErr : Bool) (s : State) :
    Host.Outcome State Fault Refusal :=
  .next (evrWindowRead s agent.toNat w.toNat eccErr)

end Sys2Proof.Machine
end

