-- ==== Sys2Proof/Machine/Mailbox.lean ====
section
/-! DEFINITION. Mailboxes (R346 to R352): the lock, the data window, delivery to the smith or to a task,
timeouts; and the ready queue that a mailbox task enters. -/

namespace Sys2Proof.Machine

/-! ## Ready queues (R31, R32, R221) -/

/-- A task record with MB and STEP written (R221). -/
def stampRecord (ws : List Word64) (mb : Nat) (stepWord : Word64) : List Word64 :=
  (ws.set 0 (w64 (putBits 15 0 (ws.getD 0 0).toNat mb))).set 1 stepWord

def newTask (ws : List Word64) (entry mbox : Option Nat) : Task :=
  { record := ws, entry := entry, mbox := mbox, slot := none, fails := 0, lastCore := none
    parts := if wfield ws 0 47 47 = 1 then 3 else 1 }

def taskHearth (ws : List Word64) : Nat := wfield ws 0 46 43

/-- The hearth whose queue a task of hearth `h` enters: that of R32 when every core of `h` is retired. -/
def queueHome (s : State) (h : Nat) : Nat :=
  if (hearthCoreIds h).all (coreRetired s) then (queueMoveTarget s h).getD h else h

def queueTail (s : State) (h : Nat) (t : Task) : State :=
  modHearth s (queueHome s h) fun x => { x with ready := x.ready ++ [t] }

def queueHead (s : State) (h : Nat) (t : Task) : State :=
  modHearth s (queueHome s h) fun x => { x with ready := t :: x.ready }

/-! ## Mailboxes -/

def mbxAt (s : State) (m : Nat) : Mailbox := s.mbx.getD m ⟨0, 0, none, 0⟩
def setMbx (s : State) (m : Nat) (x : Mailbox) : State := { s with mbx := s.mbx.set m x }

/-- Mailbox 0 always has the smith as its receiver (R350). -/
def smithReceives (s : State) (m : Nat) : Bool := m = 0 || getF s (MBX_CFG m) MBX_CFG_RKIND = 1
def taskReceives (s : State) (m : Nat) : Bool := m != 0 && getF s (MBX_CFG m) MBX_CFG_RKIND = 2

def mbxTask (s : State) (m : Nat) : Nat := getPair s (MBX_TASK_LO m) (MBX_TASK_HI m)

/-- Hearth of the task record that a mailbox names. -/
def mbxHearth (s : State) (m : Nat) : Nat := taskHearth (readWords s (mbxTask s m) 1)

/-- R350. -/
def receiverDead (s : State) (m : Nat) : Bool :=
  if smithReceives s m then
    s.boot.step ≤ 4 || !flag s CFG_COMMIT CFG_COMMIT_COMMITTED || flag s DEV_STATUS DEV_STATUS_WEDGED
  else if taskReceives s m then
    !hearthInService s (mbxHearth s m) && (queueMoveTarget s (mbxHearth s m)).isNone
  else true

/-- The record of R347 and R427. -/
def mailboxRefused (s : State) (m who : Nat) : State :=
  makeRecord s srcSmith 0x302 [w64 (m + who % 2 ^ 24 * 2 ^ 24)]

/-- R347: a read of a free lock takes it. -/
def lockRead (s : State) (agent m : Nat) : State × Word32 :=
  if (mbxAt s m).owner = 0 then
    (setMbx s m { (mbxAt s m) with owner := agent, since := s.now, quenched := 0 }, 0)
  else (s, BitVec.ofNat 32 (mbxAt s m).owner)

def mbxLockRead (s : State) (agent m : Nat) : State :=
  if isAgent agent then
    let r := lockRead s agent m
    { r.1 with answer := .value r.2 }
  else s

def execMbxLockRead (agent : BitVec 8) (m : Fin 32) (s : State) : Host.Outcome State Fault Refusal :=
  .next (mbxLockRead s agent.toNat m.val)

def freeLock (s : State) (m : Nat) : State := setMbx s m { (mbxAt s m) with owner := 0 }

def mbxLockWrite (s : State) (agent m v : Nat) : State :=
  if isAgent agent && (mbxAt s m).owner = agent && v % 256 = agent then freeLock s m else s

def execMbxLockWrite (agent : BitVec 8) (m : Fin 32) (val : Word32) (s : State) :
    Host.Outcome State Fault Refusal :=
  .next (mbxLockWrite s agent.toNat m.val val.toNat)

def mbxWindowWrite (s : State) (agent m w : Nat) (v : Word32) : State :=
  if !isAgent agent then s
  else if (mbxAt s m).owner = agent then setR s (MBX_DATA (64 * m + w)) v
  else mailboxRefused s m agent

def execMbxWindowWrite (agent : BitVec 8) (m : Fin 32) (w : Fin 64) (val : Word32) (s : State) :
    Host.Outcome State Fault Refusal :=
  .next (mbxWindowWrite s agent.toNat m.val w.val val)

/-! ### Delivery (R348) -/

def windowBytes (s : State) (m : Nat) : List Byte :=
  (List.range 64).flatMap fun w => leBytes 4 (getR s (MBX_DATA (64 * m + w))).toNat

def setWindow (s : State) (m : Nat) (bs : List Byte) : State :=
  (List.range 64).foldl (fun t w => setR t (MBX_DATA (64 * m + w)) (BitVec.ofNat 32 (fieldLE bs (4 * w) 4))) s

/-- The lowest-numbered Off domain of a half. -/
def lowestOff (s : State) (half : Nat) : Option Nat :=
  ((List.range 8).map (8 * half + ·)).find? fun u => domState s u = domOff

/-- R348: a hearth with no core in service because its domains are Off wakes one. -/
def wakeHearth (s : State) (h : Nat) : State :=
  if hearthInService s h || (hearthCoreIds h).all (coreRetired s) then s
  else match lowestOff s (h / 8) with
    | some u => domCommand s u .on
    | none => s

def deliverTask (s : State) (m : Nat) (senderWord : Word64) : State :=
  let r := memRead s (mbxTask s m) 64
  let t := (memWrite r.1 (mbxTask s m + 0x40) (windowBytes s m)).1
  let ws := stampRecord (wordsOf 8 r.2.2) m senderWord
  wakeHearth (queueTail t (taskHearth ws) (newTask ws none (some m))) (taskHearth ws)

/-- Delivery sets FULL and stamps the sender word. -/
def deliver (s : State) (m : Nat) (senderWord : Word64) : State :=
  let s := setPair s (MBX_SENDER_LO m) (MBX_SENDER_HI m) senderWord.toNat
  let s := setMbx s m { (mbxAt s m) with fullAt := some s.now }
  if taskReceives s m then deliverTask s m senderWord else s

/-- Table 12-11, for an on-chip agent. -/
def agentWord (agent : Nat) : Word64 := w64 agent

def postMessage (s : State) (agent m : Nat) : State :=
  if !isAgent agent then s
  else if m = 0 || !mbxOnChip s m || (mbxAt s m).owner != agent then mailboxRefused s m agent
  else if (mbxAt s m).fullAt.isSome then putF s (MBX_STAT m) MBX_STAT_REFUSED 1
  else if receiverDead s m then
    putF (putF s (MBX_STAT m) MBX_STAT_TIMEOUT 1) (MBX_STAT m) MBX_STAT_TO_AGENT agent
  else freeLock (deliver s m (agentWord agent)) m

def execPost (agent : BitVec 8) (m : Fin 32) (s : State) : Host.Outcome State Fault Refusal :=
  .next (postMessage s agent.toNat m.val)

/-- Taking clears FULL (R349). -/
def clearFull (s : State) (m : Nat) : State := setMbx s m { (mbxAt s m) with fullAt := none }

def takeMessage (s : State) (agent m : Nat) : State :=
  if agent = agentSmith && smithReceives s m then clearFull s m else s

def execTake (agent : BitVec 8) (m : Fin 32) (s : State) : Host.Outcome State Fault Refusal :=
  .next (takeMessage s agent.toNat m.val)

/-! ### Timeouts (R347, R351) -/

def mbxLimit (s : State) : Nat := getF s MBX_TIMEOUT MBX_TIMEOUT_LIMIT * 1000

def lockTimeout (s : State) (m : Nat) : State :=
  let x := mbxAt s m
  if quenched s || x.owner = 0 || s.now - x.since - x.quenched < mbxLimit s then s
  else
    let t := putF (setWindow (freeLock s m) m []) (MBX_STAT m) MBX_STAT_LOCK_TO 1
    mailboxRefused t m x.owner

def execMbxLockTimeout (m : Fin 32) (s : State) : Host.Outcome State Fault Refusal :=
  .next (lockTimeout s m.val)

/-- A queued task of mailbox `m` that has not started: neither saved nor queued again after a fault. -/
def unstartedOf (m : Nat) (x : Task) : Bool := x.mbox = some m && x.fails = 0 && x.slot.isNone

/-- A mailbox task that has not started leaves its queue. -/
def dequeueMailbox (s : State) (m : Nat) : State :=
  { s with hearths := s.hearths.map fun h => { h with ready := h.ready.filter fun x => !unstartedOf m x } }

def senderOf (s : State) (m : Nat) : Nat := getPair s (MBX_SENDER_LO m) (MBX_SENDER_HI m)

def messageTimeout (s : State) (m : Nat) : State :=
  match (mbxAt s m).fullAt with
  | none => s
  | some t =>
    if s.now - t < mbxLimit s then s
    else
      let w := senderOf s m
      let s := clearFull (dequeueMailbox s m) m
      if bitsOf 63 62 w = 0 then
        putF (putF s (MBX_STAT m) MBX_STAT_TIMEOUT 1) (MBX_STAT m) MBX_STAT_TO_AGENT (w % 256)
      else postRecord s [headWord s 0x0409 0, w64 m, w64 w]

def execMbxMessageTimeout (m : Fin 32) (s : State) : Host.Outcome State Fault Refusal :=
  .next (messageTimeout s m.val)

end Sys2Proof.Machine
end

