-- ==== Sys2Proof/Machine/Registers.lean ====
section
/-! DEFINITION. Management reads (R13, R14): the fields that are views of other state, and the clear of an RC
field. -/

namespace Sys2Proof.Machine

/-- A word made of fields: high bit, low bit, value. -/
def viewFields (v : Nat) : List (Nat × Nat × Nat) → Nat
  | [] => v
  | (hi, lo, x) :: rest => viewFields (putBits hi lo v x) rest

/-! ## Core control block -/

def ctxCode : CtxStat → Nat
  | .noTask => 0
  | .running => 1
  | .held => 2
  | .atYield => 3
  | .saving => 4
  | .restoring => 5
  | .aborting => 6

def bit (b : Bool) : Nat := if b then 1 else 0

def viewSeqstat (s : State) (i : Nat) : Nat :=
  viewFields 0 [(7, 7, bit (coreAt s i).preq.isSome), (6, 6, bit (isSplit s i && (coreAt s i).task.isSome)),
    (5, 3, if isSplit s i then ctxCode (coreAt s i).ctx1.stat else 0), (2, 0, ctxCode (coreAt s i).ctx0.stat)]

def viewQocc (s : State) (i : Nat) : Nat :=
  let c := coreAt s i
  viewFields 0 [(31, 26, c.fab.length), (25, 20, c.tongs.length), (19, 15, c.vec.length),
    (14, 10, if isSplit s i then c.anv1.length else 0), (9, 5, c.anv0.length)]

/-- Activity in eighths (Table 5-16). -/
def rampLevel : Ramp → Nat
  | .idle => 0
  | .waitUp => 0
  | .up k => k + 1
  | .full => 8
  | .waitDown => 8
  | .down k => 8 - k
  | .waitRev k => k + 1
  | .stop k => k + 1

def shadowCode (x : Anvil) : Nat :=
  if x.load.isSome || !rowsOut x then 3
  else match x.shadow.st with
    | .prepared => 1
    | .finished => 2
    | _ => 0

def viewAnvil (x : Anvil) : Nat :=
  64 * shadowCode x + 32 * bit (x.active.st = .running) + 16 * bit x.poison + rampLevel x.ramp

def viewAnvstat (s : State) (i : Nat) : Nat :=
  viewFields 0 ((List.range 4).map fun a => (8 * a + 7, 8 * a, viewAnvil ((coreAt s i).anvil a)))

def viewIdent (s : State) (i : Nat) : Nat :=
  viewFields i [(31, 16, if joined s then getF s FAB_NODE FAB_NODE_NODE else 0), (15, 15, bit (joined s))]

def coreView (s : State) (i off : Nat) (v : Nat) : Nat :=
  if off = 0x004 then viewSeqstat s i
  else if off = 0x008 then (coreAt s i).ctx0.pc / 16 * 16
  else if off = 0x00C then (coreAt s i).ctx1.pc / 16 * 16
  else if off = 0x01C then viewQocc s i
  else if off = 0x024 then viewIdent s i
  else if off = 0x068 then viewAnvstat s i
  else v

/-! ## Device, memory and fabric views -/

def viewAvail (s : State) (k : Nat) : Nat :=
  viewFields 0 ((List.range 8).map fun j =>
    (4 * j + 3, 4 * j, ((hearthCoreIds (8 * k + j)).filter (inService s)).length))

/-- R263. -/
def marginPass (m : MarginResult) : Bool :=
  20 ≤ m.rdW.toNat && 16 ≤ m.rdH.toNat && 18 ≤ m.wrW.toNat && 14 ≤ m.wrH.toNat

/-- MEM_MRG_RES of a result; a value outside its range is never returned (R265). -/
def marginRes (m : MarginResult) : Nat :=
  viewFields 0 [(31, 24, min 64 m.rdW.toNat), (23, 16, min 101 m.rdH.toNat), (15, 8, min 64 m.wrW.toNat),
    (7, 0, min 101 m.wrH.toNat)]

def marginCtr (m : MarginResult) : Nat :=
  viewFields 0 [(31, 31, bit (marginPass m)), (30, 24, m.rdDly.toNat), (23, 17, m.wrDly.toNat),
    (16, 10, min 100 m.rdVref.toNat), (9, 3, min 100 m.wrVref.toNat), (2, 0, min 2 m.attempts.toNat)]

def selMargin (s : State) : Option MarginResult :=
  assocGet (getF s MEM_MRG_SEL MEM_MRG_SEL_CHAN) s.memctl.margins

/-- Both read 0 before training completes (R265). -/
def viewMargin (s : State) (f : MarginResult → Nat) : Nat :=
  if flag s MEM_STATUS MEM_STATUS_TRAINED || flag s MEM_STATUS MEM_STATUS_TRAIN_FAIL then match selMargin s with
    | some m => f m
    | none => 0
  else 0

def viewRegion (s : State) : Nat :=
  let r := regionAt s (getF s MEM_RGN_SEL MEM_RGN_SEL_PAIR)
  viewFields 0 [(4, 4, bit r.busy), (3, 2, bit r.closed), (1, 1, bit r.alloc), (0, 0, bit r.policy)]

def memView (s : State) (a : Nat) (v : Nat) : Nat :=
  if a = MEM_STATUS then
    viewFields v [(4, 4, bit (s.memctl.regions.any (·.busy))),
      (3, 3, bit (s.memctl.rerun.isSome || s.memctl.rerunning.isSome))]
  else if a = MEM_RGN then viewRegion s
  else if a = MEM_MRG_RES then viewMargin s marginRes
  else if a = MEM_MRG_CTR then viewMargin s marginCtr
  else v

/-- The node of an endpoint of the own memory domain (R273). -/
def domainNode (s : State) (endpoint : Nat) : Nat := ownNode s / 4096 * 4096 + endpoint

/-- Before the device has joined no destination has a path, and CUR reads its reset value. -/
def viewPath (s : State) : Nat :=
  let d := dstAt s (domainNode s (getF s FAB_PATH_SEL FAB_PATH_SEL_ENDPOINT))
  viewFields 0 [(31, 31, bit d.unreach), (30, 25, d.failed.toNat), (24, 22, if joined s then d.path else 0)]

def connState (s : State) (idx : Nat) : Nat := match connAt s idx with
  | some c => if c.error then 2 else 1
  | none => 0

def grpState (s : State) (idx : Nat) : Nat :=
  if (groupAt s idx).isNone then 0 else if s.coll.insts.any (·.group = idx) then 2 else 1

def ringState (s : State) (r : Nat) : Nat := match ringOf s r with
  | some x => if x.stopped then 2 else 1
  | none => 0

def fabView (s : State) (a : Nat) (v : Nat) : Nat :=
  if a = FAB_PATH then viewPath s
  else if a = FAB_REPLAY then putBits 12 0 v (min 4096 s.ylp.replayPeak)
  else if a = FAB_CONN_CTL then putBits 11 10 v (connState s (getF s FAB_CONN_CTL FAB_CONN_CTL_INDEX))
  else if a = COL_GRP_CTL then putBits 11 10 v (grpState s (getF s COL_GRP_CTL COL_GRP_CTL_INDEX))
  else if a = COL_STATUS then
    viewFields v [(26, 22, min 16 s.coll.insts.length), (1, 1, bit s.coll.reset.isSome)]
  else v

/-! ## Power, trust and recorder views -/

def viewSlack (s : State) : Nat :=
  let r := getF s THM_SLK_SEL THM_SLK_SEL_REPLICA
  match s.slacks.find? (·.1 = r) with
  | some (_, slack, t) =>
    if r < 576 then viewFields 0 [(20, 16, slack), (15, 0, min 0xFFFF ((s.now - t) / 1000000000))] else 0
  | none => 0

def viewTrim (s : State) (half : Nat) : Nat :=
  viewFields 0 ((List.range 8).map fun d => (4 * d + 3, 4 * d, (domainAt s (8 * half + d)).code))

def powerView (s : State) (a : Nat) (v : Nat) : Nat :=
  if a = PWR_STATUS then viewFields v [(23, 17, s.power.parked.length), (0, 0, bit (quenched s))]
  else if a = PWR_TEST then putBits 18 18 v (bit (!s.queuedTests.isEmpty))
  else if a = THM_QCTL then putBits 30 30 v (bit (quenched s))
  else if a = THM_TRIM 0 then viewTrim s 0
  else if a = THM_TRIM 1 then viewTrim s 1
  else if a = THM_TRIMW then viewFields 0 [(7, 4, s.weld.dir1.code), (3, 0, s.weld.dir0.code)]
  else if a = THM_SLK then viewSlack s
  else v

def viewMeas (s : State) : Nat :=
  if s.boot.step < 4 then 0
  else fieldLE (s.boot.meas.getD (getF s TRU_MEAS_SEL TRU_MEAS_SEL_MEAS) [])
    (4 * getF s TRU_MEAS_SEL TRU_MEAS_SEL_WORD) 4

def viewTrust (s : State) : Nat :=
  viewFields 0 [(31, 31, bit (0 < s.boot.fuses.pcount)), (30, 29, s.boot.debug), (28, 26, s.boot.auths.length),
    (25, 21, s.boot.fuses.authSets.length), (11, 0, s.boot.fuses.pcount)]

def trustView (s : State) (a : Nat) (v : Nat) : Nat :=
  if a = TRU_STATE then viewTrust s
  else if a = TRU_MEAS then viewMeas s
  else v

def recorderView (s : State) (a : Nat) (v : Nat) : Nat :=
  if a = EVR_HEAD then s.recorder.head
  else if a = EVR_TAIL then s.recorder.tail
  else if a = EVR_SEQ_LO then s.recorder.seq
  else if a = EVR_SEQ_HI then s.recorder.seq / 2 ^ 32
  else if a = EVR_LOSS then viewFields 0 [(31, 8, min 0xFFFFFF s.recorder.dropped), (7, 0, s.recorder.damaged)]
  else v

/-- LOCKED and FULL of a mailbox. -/
def mailboxView (s : State) (a : Nat) (v : Nat) : Nat :=
  if a < 0x30400 && a % 0x20 = 4 then
    let x := mbxAt s ((a - 0x30000) / 0x20)
    viewFields v [(1, 1, bit (x.owner != 0)), (0, 0, bit x.fullAt.isSome)]
  else v

def survView (s : State) (a : Nat) (v : Nat) : Nat :=
  if a = SURV_STATUS then viewFields v [(19, 16, s.surv.adopts.length), (15, 12, s.surv.wards.length)]
  else if a = SURV_CNT2 then putBits 7 0 v (retiredCount s)
  else v

def intakeView (s : State) (a : Nat) (v : Nat) : Nat :=
  if a = WRK_RING_CTL then putBits 5 4 v (ringState s (getF s WRK_RING_CTL WRK_RING_CTL_INDEX))
  else if a = WRK_STATUS then
    s.intake.rings.foldl (fun v r => putBits (16 + r.index) (16 + r.index) v (bit r.stopped)) v
  else v

def hearthView (s : State) (a : Nat) (v : Nat) : Nat :=
  if (a - 0x90000) % 0x100 = 0x18 then
    putBits 15 8 v (hearthAt s ((a - 0x90000) / 0x100)).slots.length
  else v

/-- The value a register returns: what it holds, with its views put in. -/
def regView (s : State) (a : Nat) : Word32 :=
  let v := (getR s a).toNat
  BitVec.ofNat 32 (match blockIndex a with
    | 0 => if a = DEV_HEARTH_AVAIL 0 then viewAvail s 0 else if a = DEV_HEARTH_AVAIL 1 then viewAvail s 1 else v
    | 1 => if a = CFG_BOOT then putBits 31 28 v s.boot.step
      else if a = CFG_MINSVN then s.boot.fuses.minSvn else v
    | 2 => trustView s a v
    | 3 => mailboxView s a v
    | 4 => recorderView s a v
    | 5 => powerView s a v
    | 7 => fabView s a v
    | 8 => memView s a v
    | 9 => hearthView s a v
    | 10 => coreView s ((a - 0x100000) / 0x1000) (a % 0x1000) v
    | 11 => survView s a v
    | 12 => intakeView s a v
    | _ => v)

/-! ## A management read -/

def clearField (v : Nat) (f : RegField) : Nat := if f.acc = .rc then putBits f.hi f.lo v f.reset else v

/-- Every RC field of a register takes its reset value. -/
def clearRC (s : State) (a : Nat) : State :=
  let s := if a = FAB_REPLAY then { s with ylp := { s.ylp with replayPeak := 0 } } else s
  match regAt a with
  | some d =>
    if d.fields.any (·.acc = .rc) then setR s a (BitVec.ofNat 32 (d.fields.foldl clearField (getR s a).toNat)) else s
  | none => s

def isWindowReg (a : Nat) : Bool := 0x41000 ≤ a && a < 0x42000 && a % 4 = 0
def isLockReg (a : Nat) : Bool := 0x30000 ≤ a && a < 0x30400 && a % 0x20 = 8

/-- A read by an agent: an unassigned address reads 0 (R14), a mailbox lock and the recorder's window act as
their descriptions say, an RC field clears (R13). -/
def mgmtRead (s : State) (agent a : Nat) : State × Word32 :=
  if (regAt a).isNone then (s, 0)
  else if isLockReg a then lockRead s agent ((a - 0x30000) / 0x20)
  else if isWindowReg a then windowWord s ((a - 0x41000) / 4)
  else (clearRC s a, regView s a)

def readClear (s : State) (agent a : Nat) : State :=
  if !mayRead s agent a then { s with answer := .value 0 }
  else
    let r := mgmtRead s agent a
    { r.1 with answer := .value r.2 }

def execReadClearRegister (agent : BitVec 8) (addr : Word32) (s : State) : Host.Outcome State Fault Refusal :=
  .next (readClear s agent.toNat addr.toNat)

end Sys2Proof.Machine
end

