-- ==== Sys2Proof/Machine/CoreControl.lean ====
section
/-! DEFINITION. The control instructions at issue (R186 to R191, Table 7-7), yield points (R206, R208, R210) and
the completion of DONE. -/

namespace Sys2Proof.Machine

def opYield : Nat := 0x12

/-- The 16-byte aligned address of an instruction that a branch or LOOP names (R180). -/
def targetCheck (t : Nat) : Option Nat := csCheck t 16 16

/-- Issue with a fault found in the operands, else the effect. -/
def orFault (s : State) (i : Nat) (k : CtxId) (f : Option Nat) (t : State) : State := match f with
  | some code => issueFault s i k code
  | none => t

/-! ## Branches and loops (R189, R190) -/

def issueNop (s : State) (i : Nat) (k : CtxId) (f : Fields) : State :=
  issueCtl s i k f {} true fun s => completeCtl s i k f

def execNop (core : CoreId) (ctx : CtxId) (f : Fields) (s : State) : Host.Outcome State Fault Refusal :=
  .next (issueNop s core.val ctx f)

/-- A taken branch completes: it signals from its own address. -/
def takeBranch (s : State) (i : Nat) (k : CtxId) (f : Fields) (target : Nat) : State :=
  signalDone (branchTo s i k target) i k f.sigen f.sigc.toNat 0 (ctxAt s i k).pc

def brTarget (f : Fields) : Nat := f.immBits 20 0

def issueBr (s : State) (i : Nat) (k : CtxId) (f : Fields) : State :=
  issueCtl s i k f { imm := maskBits 20 0 } true fun s =>
    orFault s i k (targetCheck (brTarget f)) (takeBranch s i k f (brTarget f))

def execBr (core : CoreId) (ctx : CtxId) (f : Fields) (s : State) : Host.Outcome State Fault Refusal :=
  .next (issueBr s core.val ctx f)

def issueBri (s : State) (i : Nat) (k : CtxId) (f : Fields) : State :=
  issueCtl s i k f { imm := imm64, a := .g } true fun s =>
    let t := addrOf (readG s i k f.a.toNat) f
    orFault s i k (targetCheck t) (takeBranch s i k f t)

def execBri (core : CoreId) (ctx : CtxId) (f : Fields) (s : State) : Host.Outcome State Fault Refusal :=
  .next (issueBri s core.val ctx f)

/-- gD takes the address of the next instruction. -/
def issueBrl (s : State) (i : Nat) (k : CtxId) (f : Fields) : State :=
  issueCtl s i k f { imm := maskBits 20 0, d := .g } true fun s =>
    orFault s i k (targetCheck (brTarget f))
      (takeBranch (writeG s i k f.d.toNat (w64 ((ctxAt s i k).pc + 16))) i k f (brTarget f))

def execBrl (core : CoreId) (ctx : CtxId) (f : Fields) (s : State) : Host.Outcome State Fault Refusal :=
  .next (issueBrl s core.val ctx f)

/-- Entries of the loop stack of a context. -/
def loopDepth (s : State) (i : Nat) : Nat := if isSplit s i then 2 else 4

/-- R190: an end below the body start is illegal. -/
def loopLegal (s : State) (i : Nat) (k : CtxId) (f : Fields) : Bool := (ctxAt s i k).pc + 16 ≤ brTarget f

def pushLoop (s : State) (i : Nat) (k : CtxId) (f : Fields) (n : Nat) : State :=
  let x := ctxAt s i k
  setCtxAt s i k { x with pc := (x.pc + 16) % 2 ^ 21, loops := ⟨n, x.pc + 16, brTarget f⟩ :: x.loops }

/-- A count of 0 pushes nothing and moves the program counter past the body; the stack stays as it is. -/
def skipLoop (s : State) (i : Nat) (k : CtxId) (f : Fields) : State :=
  signalDone (setCtxAt s i k { (ctxAt s i k) with pc := (brTarget f + 16) % 2 ^ 21 }) i k f.sigen f.sigc.toNat 0
    (ctxAt s i k).pc

def issueLoop (s : State) (i : Nat) (k : CtxId) (f : Fields) : State :=
  issueCtl s i k f { imm := maskBits 20 0, a := .g } (loopLegal s i k f) fun s =>
    let n := (readG s i k f.a.toNat).toNat
    orFault s i k (targetCheck (brTarget f))
      (if n = 0 then skipLoop s i k f
      else if loopDepth s i ≤ (ctxAt s i k).loops.length then issueFault s i k faultLoopStack
      else signalDone (pushLoop s i k f n) i k f.sigen f.sigc.toNat 0 (ctxAt s i k).pc)

def execLoop (core : CoreId) (ctx : CtxId) (f : Fields) (s : State) : Host.Outcome State Fault Refusal :=
  .next (issueLoop s core.val ctx f)

/-! ## Predicates, immediates and arithmetic -/

def ctlCode (f : Fields) : Nat := f.modBits 110 107
def immSel (f : Fields) : Bool := f.modBits 106 106 = 1

/-- The second operand: IMM replaces gB when IMMSEL is 1. -/
def secondOperand (s : State) (i : Nat) (k : CtxId) (f : Fields) : Word64 :=
  if immSel f then f.imm else readG s i k f.b.toNat

def compareG (code : Nat) (a b : Word64) : Bool :=
  match code with
  | 0 => a = b
  | 1 => a != b
  | 2 => a.toInt < b.toInt
  | 3 => b.toInt ≤ a.toInt
  | 4 => a.toNat < b.toNat
  | _ => b.toNat ≤ a.toNat

/-- With IMMSEL the B field is unused; without it IMM is. -/
def immShape (f : Fields) (d : RegUse) : Shape :=
  { mod := modMask 110 106, imm := if immSel f then imm64 else 0, d := d, a := .g
    b := if immSel f then .none else .g }

def issueSetp (s : State) (i : Nat) (k : CtxId) (f : Fields) : State :=
  issueCtl s i k f (immShape f .pd) (ctlCode f ≤ 5) fun s =>
    completeCtl (writeP s i k f.d.toNat
      (compareG (ctlCode f) (readG s i k f.a.toNat) (secondOperand s i k f))) i k f

def execSetp (core : CoreId) (ctx : CtxId) (f : Fields) (s : State) : Host.Outcome State Fault Refusal :=
  .next (issueSetp s core.val ctx f)

def logicP (code : Nat) (a b : Bool) : Bool :=
  match code with
  | 0 => a && b
  | 1 => a || b
  | 2 => a != b
  | _ => a && !b

def issuePlog (s : State) (i : Nat) (k : CtxId) (f : Fields) : State :=
  issueCtl s i k f { mod := modMask 110 107, d := .pd, a := .p, b := .p } (ctlCode f ≤ 3) fun s =>
    completeCtl (writeP s i k f.d.toNat
      (logicP (ctlCode f) (readP s i k f.a.toNat) (readP s i k f.b.toNat))) i k f

def execPlog (core : CoreId) (ctx : CtxId) (f : Fields) (s : State) : Host.Outcome State Fault Refusal :=
  .next (issuePlog s core.val ctx f)

def issueMovi (s : State) (i : Nat) (k : CtxId) (f : Fields) : State :=
  issueCtl s i k f { imm := imm64, d := .g } true fun s =>
    completeCtl (writeG s i k f.d.toNat f.imm) i k f

def execMovi (core : CoreId) (ctx : CtxId) (f : Fields) (s : State) : Host.Outcome State Fault Refusal :=
  .next (issueMovi s core.val ctx f)

/-- ALU, modulo 2^64; a shift uses the low 6 bits of its count. -/
def aluG (code : Nat) (a b : Word64) : Word64 :=
  match code with
  | 0 => a + b
  | 1 => a - b
  | 2 => a &&& b
  | 3 => a ||| b
  | 4 => a ^^^ b
  | 5 => a <<< (b.toNat % 64)
  | 6 => a >>> (b.toNat % 64)
  | 7 => a.sshiftRight (b.toNat % 64)
  | 8 => a * b
  | 9 => if a.toInt ≤ b.toInt then a else b
  | 10 => if a.toInt ≤ b.toInt then b else a
  | 11 => if a.toNat ≤ b.toNat then a else b
  | _ => if a.toNat ≤ b.toNat then b else a

def issueAlu (s : State) (i : Nat) (k : CtxId) (f : Fields) : State :=
  issueCtl s i k f (immShape f .g) (ctlCode f ≤ 12) fun s =>
    completeCtl (writeG s i k f.d.toNat
      (aluG (ctlCode f) (readG s i k f.a.toNat) (secondOperand s i k f))) i k f

def execAlu (core : CoreId) (ctx : CtxId) (f : Fields) (s : State) : Host.Outcome State Fault Refusal :=
  .next (issueAlu s core.val ctx f)

/-! ## Core store, time and registers (R189, R191) -/

/-- An uncorrectable error in the word raises fault 0x0F (Table 9-3). -/
def issueLdg (s : State) (i : Nat) (k : CtxId) (f : Fields) (ecc : Bool) : State :=
  issueCtl s i k f { imm := imm64, d := .g, a := .g } true fun s =>
    let a := addrOf (readG s i k f.a.toNat) f
    orFault s i k (firstFault [csCheck a 8 8, faultIf ecc faultCsRead])
      (completeCtl (writeG s i k f.d.toNat (readWord s (csBase i + a))) i k f)

def execLdg (core : CoreId) (ctx : CtxId) (f : Fields) (eccErr : Bool) (s : State) :
    Host.Outcome State Fault Refusal :=
  .next (issueLdg s core.val ctx f eccErr)

def issueStg (s : State) (i : Nat) (k : CtxId) (f : Fields) : State :=
  issueCtl s i k f { imm := imm64, a := .g, b := .g } true fun s =>
    let a := addrOf (readG s i k f.a.toNat) f
    orFault s i k (csCheck a 8 8)
      (completeCtl (writeWord s (csBase i + a) (readG s i k f.b.toNat)) i k f)

def execStg (core : CoreId) (ctx : CtxId) (f : Fields) (s : State) : Host.Outcome State Fault Refusal :=
  .next (issueStg s core.val ctx f)

/-- The local time of the core's half (R53, R54). -/
def coreTime (s : State) (i : Nat) : Nat := srcTime s (srcCore i)

def issueRdtime (s : State) (i : Nat) (k : CtxId) (f : Fields) : State :=
  issueCtl s i k f { d := .g } true fun s =>
    completeCtl (writeG s i k f.d.toNat (w64 (coreTime s i))) i k f

def execRdtime (core : CoreId) (ctx : CtxId) (f : Fields) (s : State) : Host.Outcome State Fault Refusal :=
  .next (issueRdtime s core.val ctx f)

def regOffset (f : Fields) : Nat := f.immBits 11 0
def blockBase (i : Nat) : Nat := 0x100000 + 0x1000 * i

/-- R191: a read of the core's own control block, as a management read; no lock lies in that block. -/
def issueRdreg (s : State) (i : Nat) (k : CtxId) (f : Fields) : State :=
  issueCtl s i k f { imm := maskBits 11 0, d := .g } true fun s =>
    orFault s i k (faultIf (regOffset f % 4 != 0) faultAlign)
      (let r := mgmtRead s 0 (blockBase i + regOffset f)
       completeCtl (writeG r.1 i k f.d.toNat (w64 r.2.toNat)) i k f)

def execRdreg (core : CoreId) (ctx : CtxId) (f : Fields) (s : State) : Host.Outcome State Fault Refusal :=
  .next (issueRdreg s core.val ctx f)

/-- Bits of a RW1C register that stay set. -/
def keepBits (s : State) (a v : Nat) : Word32 := getR s a &&& ~~~(BitVec.ofNat 32 v)

/-- The three registers that WRREG writes. -/
def wrregWrite (s : State) (i off v : Nat) : State :=
  if off = 0x040 then putF s (CORE_NUMCTL i) CORE_NUMCTL_FLOOR_MODE v
  else setR s (blockBase i + off) (keepBits s (blockBase i + off) v)

def wrregCheck (f : Fields) : Option Nat :=
  let off := regOffset f
  firstFault [faultIf (off % 4 != 0) faultAlign,
    faultIf (off != 0x040 && off != 0x044 && off != 0x08C) faultRegAccess]

def issueWrreg (s : State) (i : Nat) (k : CtxId) (f : Fields) : State :=
  issueCtl s i k f { imm := maskBits 11 0, b := .g } true fun s =>
    orFault s i k (wrregCheck f)
      (completeCtl (wrregWrite s i (regOffset f) (readG s i k f.b.toNat).toNat) i k f)

def execWrreg (core : CoreId) (ctx : CtxId) (f : Fields) (s : State) : Host.Outcome State Fault Refusal :=
  .next (issueWrreg s core.val ctx f)

/-! ## Signals, waits and fences (R186 to R189) -/

def sigQueue (f : Fields) : Nat := f.subBits 15 13

def sigShape : Shape := { sub := maskBits 15 13 + maskBits 7 4, imm := maskBits 31 0 }

/-- QUEUE is 0 to 4, and in split mode a counter of the context is sc0 to sc7. -/
def sigLegal (s : State) (i : Nat) (f : Fields) : Bool :=
  sigQueue f ≤ 4 && (!isSplit s i || sigCounter f < 8)

/-- The queue that a QUEUE sub-field of 1 to 4 names. -/
def sigTarget (s : State) (i : Nat) (k : CtxId) (f : Fields) : Queue :=
  match sigQueue f with
  | 1 => laneOf s i k
  | 2 => .vec
  | 3 => .tongs
  | _ => .fab

/-- SIGNAL for QUEUE 0: the counter fault leaves the counter as it was and nothing signals. -/
def signalNow (s : State) (i : Nat) (k : CtxId) (f : Fields) : State :=
  let n := physSc (isSplit s i) k (sigCounter f)
  if 0xFFFFFFFF < readSc s i n + sigAmount f then issueFault s i k faultCounter
  else completeCtl (writeSc s i n (readSc s i n + sigAmount f)) i k f

def issueSignal (s : State) (i : CoreId) (k : CtxId) (f : Fields) : State :=
  if sigQueue f = 0 then issueCtl s i.val k f sigShape (sigLegal s i.val f) fun s => signalNow s i.val k f
  else
    pumpQueue (issueQ s i.val k (sigTarget s i.val k f) opSignal f sigShape (sigLegal s i.val f) fun _ => none) i
      (sigTarget s i.val k f)

def execSignal (core : CoreId) (ctx : CtxId) (f : Fields) (s : State) : Host.Outcome State Fault Refusal :=
  .next (issueSignal s core ctx f)

/-- A WAIT of QUEUE 0 holds the sequencer until WAIT_RELEASE. -/
def waitNow (s : State) (i : Nat) (k : CtxId) (f : Fields) : State :=
  if sigAmount f = 0 then completeCtl s i k f
  else
    holdWait (setCtxAt s i k { (ctxAt s i k) with hold := .wait, stat := .held }) i k (.seq k)
      (physSc (isSplit s i) k (sigCounter f)) (sigAmount f) f.sigen f.sigc.toNat (ctxAt s i k).pc

def issueWait (s : State) (i : CoreId) (k : CtxId) (f : Fields) : State :=
  if sigQueue f = 0 then issueCtl s i.val k f sigShape (sigLegal s i.val f) fun s => waitNow s i.val k f
  else
    pumpQueue (issueQ s i.val k (sigTarget s i.val k f) opWait f sigShape (sigLegal s i.val f) fun _ => none) i
      (sigTarget s i.val k f)

def execWait (core : CoreId) (ctx : CtxId) (f : Fields) (s : State) : Host.Outcome State Fault Refusal :=
  .next (issueWait s core ctx f)

/-- FENCE holds the sequencer until FENCE_RELEASE; a mask of 0 is illegal (R188). -/
def issueFence (s : State) (i : Nat) (k : CtxId) (f : Fields) : State :=
  issueCtl s i k f { mod := modMask 110 107 } (ctlCode f != 0) fun s =>
    setCtxAt s i k { (ctxAt s i k) with
      hold := .fence (BitVec.ofNat 4 (ctlCode f)) f.sigen f.sigc.toNat, stat := .held }

def execFence (core : CoreId) (ctx : CtxId) (f : Fields) (s : State) : Host.Outcome State Fault Refusal :=
  .next (issueFence s core.val ctx f)

def issueDone (s : State) (i : Nat) (k : CtxId) (f : Fields) : State :=
  issueCtl s i k f {} true fun s =>
    setCtxAt s i k { (ctxAt s i k) with hold := .done f.sigen f.sigc.toNat, stat := .held }

def execDone (core : CoreId) (ctx : CtxId) (f : Fields) (s : State) : Host.Outcome State Fault Refusal :=
  .next (issueDone s core.val ctx f)

/-- A program-note record (Table 16-4). -/
def noteRecord (s : State) (i : Nat) (k : CtxId) (f : Fields) : State :=
  makeRecord s (srcCore i) 0x10C [w64 f.sub.toNat, readG s i k f.a.toNat, readG s i k f.b.toNat,
    w64 (ctxAt s i k).pc]

def issueNote (s : State) (i : Nat) (k : CtxId) (f : Fields) : State :=
  issueCtl s i k f { sub := maskBits 15 0, a := .g, b := .g } true fun s =>
    completeCtl (noteRecord s i k f) i k f

def execNote (core : CoreId) (ctx : CtxId) (f : Fields) (s : State) : Host.Outcome State Fault Refusal :=
  .next (issueNote s core.val ctx f)

/-! ## Yield points (R206, R208, R210) -/

def saveLen : Nat := 101888
def seqSaveLen : Nat := 66560
def saveOff (s : State) (i : Nat) : Nat := 128 * getF s (CORE_SAVEBASE i) CORE_SAVEBASE_BASE
def seqSaveOff (s : State) (i : Nat) : Nat := 128 * getF s (CORE_SEQSAVE i) CORE_SEQSAVE_BASE

/-- R208: the record does not fit, or overlaps the anvil save area. -/
def seqSaveBad (s : State) (i : Nat) : Bool :=
  let a := saveOff s i
  let q := seqSaveOff s i
  csSize < q + seqSaveLen || (q < a + saveLen && a < q + seqSaveLen)

/-- The lowest-numbered free hearth save slot (R136). -/
def freeSlot (s : State) (h : Nat) : Option Nat :=
  (List.range (getF s (HCH_SPOOL_N h) HCH_SPOOL_N_SLOTS)).find? fun k => !(hearthAt s h).slots.contains k

/-- What makes a core finish its task instead of saving it: cause and BASE of record 0x108. -/
def saveObstacle (s : State) (i : Nat) : Option (Nat × Nat) :=
  if csSize < saveOff s i + saveLen then some (0, getF s (CORE_SAVEBASE i) CORE_SAVEBASE_BASE)
  else if seqSaveBad s i then some (1, getF s (CORE_SEQSAVE i) CORE_SEQSAVE_BASE)
  else if (freeSlot s (hearthOf i)).isNone then some (2, 0)
  else none

def ctxIds : List CtxId := [0, 1]

/-- The contexts of the task that a core runs. -/
def liveCtxs (s : State) (i : Nat) : List CtxId :=
  ctxIds.filter fun k => (k = 0 || isSplit s i) && !(ctxAt s i k).partDone && (ctxAt s i k).stat != .noTask

/-- Contexts at a yield point go on: the request, if any, is withdrawn (R207). -/
def resumeYields (s : State) (i : Nat) : State :=
  modCore (ctxIds.foldl (fun t k =>
    if (ctxAt t i k).stat = .atYield then
      setCtxAt t i k { (ctxAt t i k) with stat := .running, yieldNow := false }
    else t) s) i fun c => { c with preq := none }

/-- The pre-emption is taken: every context saves, and the task holds its slot, named with its hearth. -/
def beginSave (s : State) (i slot : Nat) : State :=
  let s := ctxIds.foldl (fun t k =>
    if (ctxAt t i k).stat = .atYield then setCtxAt t i k { (ctxAt t i k) with stat := .saving } else t) s
  let s := modCore s i fun c => { c with task := c.task.map fun t => { t with slot := some (256 * hearthOf i + slot) } }
  modHearth s (hearthOf i) fun h => { h with slots := h.slots ++ [slot] }

/-- R210: every context stands at a yield point or has completed its part; without a request, at YIELD.NOW. -/
def yieldReady (s : State) (i : Nat) : Bool :=
  let ks := liveCtxs s i
  !ks.isEmpty && ks.all fun k => (ctxAt s i k).stat = .atYield
    && ((coreAt s i).preq.isSome || (ctxAt s i k).yieldNow)

/-- A pre-emption is taken, or the obstacles of R136, R139 and R208 make the core finish the task. -/
def settleYield (s : State) (i : Nat) : State :=
  if !yieldReady s i then s
  else match saveObstacle s i, freeSlot s (hearthOf i) with
    | none, some slot => beginSave s i slot
    | some o, _ => resumeYields (makeRecord s (srcCore i) 0x108 [w64 (o.1 + o.2 * 2 ^ 16)]) i
    | none, none => s

def yieldMode (f : Fields) (now : Bool) : Fields :=
  { f with mod := BitVec.ofNat 7 (putBits 0 0 f.mod.toNat (bit now)) }

/-- In split mode IMM 63:32 is reserved. -/
def yieldShape (split : Bool) : Shape := { mod := modMask 104 104, imm := if split then maskBits 31 0 else imm64 }

/-- The context stands at its yield point, with the program counter at RESUME; a task of which a part has faulted is
not saved (R145). -/
def standAtYield (s : State) (i : Nat) (k : CtxId) (f : Fields) (now : Bool) : State :=
  let s := completeCtl s i k f
  if (ctxAt s i k).over || (coreAt s i).ended.isSome then s
  else
    settleYield (setCtxAt s i k { (ctxAt s i k) with stat := .atYield, yieldNow := now, live := f.imm }) i

def issueYieldIf (s : State) (i : Nat) (k : CtxId) (f : Fields) : State :=
  issueCtl s i k (yieldMode f false) (yieldShape (isSplit s i)) true fun s =>
    if (coreAt s i).preq.isSome then standAtYield s i k f false else completeCtl s i k f

def execYieldIf (core : CoreId) (ctx : CtxId) (f : Fields) (s : State) : Host.Outcome State Fault Refusal :=
  .next (issueYieldIf s core.val ctx f)

def issueYieldNow (s : State) (i : Nat) (k : CtxId) (f : Fields) : State :=
  issueCtl s i k (yieldMode f true) (yieldShape (isSplit s i)) true fun s => standAtYield s i k f true

def execYieldNow (core : CoreId) (ctx : CtxId) (f : Fields) (s : State) : Host.Outcome State Fault Refusal :=
  .next (issueYieldNow s core.val ctx f)

/-- DONE releases: the context has completed its part, and TASK_COMPLETE reports it (R189). -/
def doneRelease (s : State) (i : Nat) (k : CtxId) : State :=
  match (ctxAt s i k).hold with
  | .done sigen sigc =>
    if quenched s || !fenceOpen s i k 15 then s
    else
      let s := signalDone s i k sigen sigc 0 (ctxAt s i k).pc
      if (ctxAt s i k).over then s
      else settleYield (setCtxAt s i k { (ctxAt s i k) with hold := .none, stat := .noTask, partDone := true }) i
  | _ => s

def execDoneRelease (core : CoreId) (ctx : CtxId) (s : State) : Host.Outcome State Fault Refusal :=
  .next (doneRelease s core.val ctx)

end Sys2Proof.Machine
end

