-- ==== Sys2Proof/Machine/CoreTile.lean ====
section
/-! DEFINITION. The tile instructions at issue (R192, Table 7-8): the fields of each, the addresses formed from g
registers and IMM, and the check against the projected state (R120). -/

namespace Sys2Proof.Machine

/-- ANV with at least one anvil, and the TAG with gC. -/
def anvLegal (f : Fields) : Bool := anvMask f != 0

def tagMask : Nat := maskBits 15 8

/-- Row 31 of the highest anvil of raw rows at `base` stays inside core store. -/
def rawRowsCheck (m base stride : Nat) : Option Nat :=
  firstFault [faultIf (base % 8 != 0 || stride % 8 != 0) faultAlign,
    faultIf ((anvList m).any fun a => !csRangeOk (base + (32 * a + 31) * stride) rawRowSize) faultAddress]

def slotsCheck (m base : Nat) : Option Nat :=
  firstFault [faultIf (base % 128 != 0) faultAlign,
    faultIf ((anvList m).any fun a => !csRangeOk (base + a * 0x3180) 12672) faultAddress]

/-- An anvil entry waits for its events; the lane's empty entries and signals move on. -/
def issueTile (s : State) (i : CoreId) (k : CtxId) (op : Nat) (f : Fields) (sh : Shape) (legal : Bool)
    (check : QEntry → Option Nat) : State :=
  pumpQueue (issueQ s i.val k (laneOf s i.val k) op f sh (legal && anvLegal f) fun e =>
    firstFault [check e, tileCheck s i.val k e]) i (laneOf s i.val k)

def azeroShape : Shape := { mod := modMask 110 107, sub := tagMask, c := .g }

def issueAzero (s : State) (i : CoreId) (k : CtxId) (f : Fields) : State :=
  issueTile s i k opAzero f azeroShape true fun _ => none

def execAzero (core : CoreId) (ctx : CtxId) (f : Fields) (s : State) : Host.Outcome State Fault Refusal :=
  .next (issueAzero s core ctx f)

def aloadShape : Shape :=
  { mod := modMask 110 106, sub := tagMask, imm := maskBits 63 40, a := .g, c := .g }

def aloadCheck (e : QEntry) : Option Nat :=
  if aloadSlot e.f then slotsCheck (anvMask e.f) e.ga.toNat
  else rawRowsCheck (anvMask e.f) e.ga.toNat (aloadStride e.f)

def issueAload (s : State) (i : CoreId) (k : CtxId) (f : Fields) : State :=
  issueTile s i k opAload f aloadShape true aloadCheck

def execAload (core : CoreId) (ctx : CtxId) (f : Fields) (s : State) : Host.Outcome State Fault Refusal :=
  .next (issueAload s core ctx f)

def aswapShape : Shape := { mod := modMask 110 107 }

def issueAswap (s : State) (i : CoreId) (k : CtxId) (f : Fields) : State :=
  issueTile s i k opAswap f aswapShape true fun _ => none

def execAswap (core : CoreId) (ctx : CtxId) (f : Fields) (s : State) : Host.Outcome State Fault Refusal :=
  .next (issueAswap s core ctx f)

def amacShape : Shape :=
  { mod := modMask 110 106, sub := tagMask + maskBits 7 0, imm := imm64, a := .g, c := .g }

/-- FMT is Q1 to Q8 or Q16. -/
def amacLegal (f : Fields) : Bool := isNarrow (amacFmt f) || amacFmt f = 0x10

def amacCheck (e : QEntry) : Option Nat := csCheck (addrOf e.ga e.f) 64 64

/-- A pass arrives for each anvil that it names: its tag is that of the last pass issued (R121), and a ramp-down stops
(R130). -/
def notePass (s : State) (i : CoreId) (e : QEntry) : State :=
  syncGrants ((anvList (anvMask e.f)).foldl (fun t a => modAnvil t i.val a fun x =>
    { x with lastPass := some (tagOf e), ramp := passArrives x.ramp }) s) i

/-- The pass that the issue of `f` put at the end of the lane, if it did. -/
def newPass (s t : State) (i : Nat) (q : Queue) : Option QEntry :=
  ((coreAt t i).queue q).find? fun e => e.qid = (coreAt s i).nextQid && e.op = opAmac && !e.off

def issueAmac (s : State) (i : CoreId) (k : CtxId) (f : Fields) : State :=
  let t := issueTile s i k opAmac f amacShape (amacLegal f) amacCheck
  match newPass s t i.val (laneOf s i.val k) with
  | some e => notePass t i e
  | none => t

def execAmac (core : CoreId) (ctx : CtxId) (f : Fields) (s : State) : Host.Outcome State Fault Refusal :=
  .next (issueAmac s core ctx f)

/-- gB is read by a fill load alone. -/
def adrainShape (f : Fields) : Shape :=
  { mod := modMask 110 105, sub := tagMask + maskBits 7 6, imm := maskBits 63 32, a := .g
    b := if 2 ≤ fillKind f then .g else .none, c := .g }

def adrainFillCheck (e : QEntry) : Option Nat :=
  match fillKind e.f with
  | 2 => rawRowsCheck (anvMask e.f) e.gb.toNat (adrainStride e.f)
  | 3 => slotsCheck (anvMask e.f) e.gb.toNat
  | _ => none

def adrainCheck (e : QEntry) : Option Nat :=
  firstFault [
    if adrainDest e.f = 0 then csCheck e.ga.toNat 64 8
    else rawRowsCheck (anvMask e.f) e.ga.toNat (adrainStride e.f),
    adrainFillCheck e]

def issueAdrain (s : State) (i : CoreId) (k : CtxId) (f : Fields) : State :=
  issueTile s i k opAdrain f (adrainShape f) (adrainDest f ≤ 1) adrainCheck

def execAdrain (core : CoreId) (ctx : CtxId) (f : Fields) (s : State) : Host.Outcome State Fault Refusal :=
  .next (issueAdrain s core ctx f)

end Sys2Proof.Machine
end

