-- ==== Sys2Proof/Machine/CoreVector.lean ====
section
/-! DEFINITION. The vector and convert instructions at issue (R195, R196, Table 7-10): the fields of each, the
checks on fields and g values, and the entry of the vector queue, which the lane operations of
`Machine/VectorRun.lean` run. -/

namespace Sys2Proof.Machine

def nregMask : Nat := maskBits 15 10

def lane3 : Shape := { sub := nregMask, d := .v, a := .v, b := .v }
def lane2 : Shape := { sub := nregMask, d := .v, a := .v }
def rowShape : Shape := { sub := nregMask, imm := imm64, d := .v, a := .g, c := .g }

/-- Groups that run past the registers of the context raise the format fault (R195). -/
def groupsCheck (s : State) (i : Nat) (f : Fields) (gs : List (BitVec 6 × Nat)) : Option Nat :=
  faultIf (gs.any fun g => !groupFits (isSplit s i) g.1.toNat (g.2 * nregOf f)) faultFormat

/-- Elements that NREG registers hold for a format. -/
def groupCap (f : Fields) (fmt : Nat) : Nat := nregOf f * perReg (fmt = 0x30)

/-- A row in core store: alignment, then range. -/
def rowCheck (off fmt len : Nat) (lane : Bool) : Option Nat := csCheck off (rowSize fmt lane len) 8

def vldCheck (s : State) (i : Nat) (e : QEntry) : Option Nat :=
  let rw := rowWordOf e.gc
  firstFault [groupsCheck s i e.f [(e.f.d, 1)],
    faultIf (rowWordBad e.gc false || groupCap e.f rw.fmt < rw.len) faultFormat,
    rowCheck (addrOf e.ga e.f) rw.fmt rw.len rw.lane]

/-- The target of VST is Q16, Q32 or Q48. -/
def vstCheck (s : State) (i : Nat) (e : QEntry) : Option Nat :=
  let rw := rowWordOf e.gc
  firstFault [groupsCheck s i e.f [(e.f.d, 1)], faultIf (rowWordBad e.gc true || !isWide rw.fmt) faultFormat,
    rowCheck (addrOf e.ga e.f) rw.fmt rw.len false]

def vqntCheck (s : State) (i : Nat) (e : QEntry) : Option Nat :=
  firstFault [groupsCheck s i e.f [(e.f.d, 1)], csCheck (addrOf e.ga e.f) 64 8]

def vcvtCheck (e : QEntry) : Option Nat :=
  let rw := rowWordOf e.gc
  let lane := e.f.modBits 104 104 = 1
  let tgt := cvtTarget e.f
  firstFault [
    faultIf (rowWordBad e.gc false || !cvtClass rw.fmt tgt || (lane && !laneAllowed tgt)) faultFormat,
    rowCheck e.ga.toNat rw.fmt rw.len rw.lane, rowCheck e.gb.toNat tgt rw.len lane]

def vactCheck (s : State) (i : Nat) (e : QEntry) : Option Nat :=
  firstFault [groupsCheck s i e.f [(e.f.a, 1), (e.f.d, 1)], csCheck (addrOf e.gb e.f) 2112 8]

def vumuCheck (e : QEntry) : Option Nat :=
  firstFault [csCheck e.gd.toNat 16 8, csCheck e.ga.toNat 64 8, csCheck e.gb.toNat 32 8]

def vupdCheck (e : QEntry) : Option Nat :=
  firstFault [csCheck e.ga.toNat 8 8, csCheck e.gb.toNat 8 8, csCheck e.gc.toNat 8 8, csCheck e.gd.toNat 16 8]

/-- The key has PURPOSE 0 (R226). -/
def vgaccCheck (s : State) (i : Nat) (e : QEntry) : Option Nat :=
  firstFault [groupsCheck s i e.f [(e.f.a, 1)], faultIf (e.gc.toNat % 4 != 0) faultFormat,
    csCheck e.gb.toNat 8 8]

/-- The vote buffer is local memory (R199). -/
def vmarkCheck (e : QEntry) : Option Nat :=
  firstFault [faultIf (e.ga.toNat % 8 != 0) faultAlign, faultIf (2 ^ 48 ≤ e.ga.toNat + 255) faultAddress]

/-- An entry of the vector queue; it runs when it starts. -/
def issueVec (s : State) (i : CoreId) (k : CtxId) (op : Nat) (f : Fields) (sh : Shape) (legal : Bool)
    (check : QEntry → Option Nat) (ecc : Bool := false) : State :=
  pumpQueue (issueQ s i.val k .vec op f sh legal check ecc) i .vec

def issueVadd (s : State) (i : CoreId) (k : CtxId) (f : Fields) : State :=
  issueVec s i k 0x40 f lane3 true (fun _ => groupsCheck s i.val f [(f.a, 1), (f.b, 1), (f.d, 1)])

def execVadd (core : CoreId) (ctx : CtxId) (f : Fields) (s : State) :
    Host.Outcome State Fault Refusal :=
  .next (issueVadd s core ctx f)

def issueVsub (s : State) (i : CoreId) (k : CtxId) (f : Fields) : State :=
  issueVec s i k 0x41 f lane3 true (fun _ => groupsCheck s i.val f [(f.a, 1), (f.b, 1), (f.d, 1)])

def execVsub (core : CoreId) (ctx : CtxId) (f : Fields) (s : State) :
    Host.Outcome State Fault Refusal :=
  .next (issueVsub s core ctx f)

def issueVmul (s : State) (i : CoreId) (k : CtxId) (f : Fields) : State :=
  issueVec s i k 0x42 f lane3 true (fun _ => groupsCheck s i.val f [(f.a, 1), (f.b, 1), (f.d, 2)])

def execVmul (core : CoreId) (ctx : CtxId) (f : Fields) (s : State) :
    Host.Outcome State Fault Refusal :=
  .next (issueVmul s core ctx f)

def issueVmin (s : State) (i : CoreId) (k : CtxId) (f : Fields) : State :=
  issueVec s i k 0x43 f lane3 true (fun _ => groupsCheck s i.val f [(f.a, 1), (f.b, 1), (f.d, 1)])

def execVmin (core : CoreId) (ctx : CtxId) (f : Fields) (s : State) :
    Host.Outcome State Fault Refusal :=
  .next (issueVmin s core ctx f)

def issueVmax (s : State) (i : CoreId) (k : CtxId) (f : Fields) : State :=
  issueVec s i k 0x44 f lane3 true (fun _ => groupsCheck s i.val f [(f.a, 1), (f.b, 1), (f.d, 1)])

def execVmax (core : CoreId) (ctx : CtxId) (f : Fields) (s : State) :
    Host.Outcome State Fault Refusal :=
  .next (issueVmax s core ctx f)

def issueVcmp (s : State) (i : CoreId) (k : CtxId) (f : Fields) : State :=
  issueVec s i k 0x45 f { lane3 with mod := modMask 110 107 } (f.modBits 110 107 ≤ 3) (fun _ => groupsCheck s i.val f [(f.a, 1), (f.b, 1), (f.d, 1)])

def execVcmp (core : CoreId) (ctx : CtxId) (f : Fields) (s : State) :
    Host.Outcome State Fault Refusal :=
  .next (issueVcmp s core ctx f)

def issueVsel (s : State) (i : CoreId) (k : CtxId) (f : Fields) : State :=
  issueVec s i k 0x46 f { lane3 with c := .v } true (fun _ => groupsCheck s i.val f [(f.a, 1), (f.b, 1), (f.c, 1), (f.d, 1)])

def execVsel (core : CoreId) (ctx : CtxId) (f : Fields) (s : State) :
    Host.Outcome State Fault Refusal :=
  .next (issueVsel s core ctx f)

def issueVabs (s : State) (i : CoreId) (k : CtxId) (f : Fields) : State :=
  issueVec s i k 0x47 f lane2 true (fun _ => groupsCheck s i.val f [(f.a, 1), (f.d, 1)])

def execVabs (core : CoreId) (ctx : CtxId) (f : Fields) (s : State) :
    Host.Outcome State Fault Refusal :=
  .next (issueVabs s core ctx f)

def issueVneg (s : State) (i : CoreId) (k : CtxId) (f : Fields) : State :=
  issueVec s i k 0x48 f lane2 true (fun _ => groupsCheck s i.val f [(f.a, 1), (f.d, 1)])

def execVneg (core : CoreId) (ctx : CtxId) (f : Fields) (s : State) :
    Host.Outcome State Fault Refusal :=
  .next (issueVneg s core ctx f)

def issueVshl (s : State) (i : CoreId) (k : CtxId) (f : Fields) : State :=
  issueVec s i k 0x49 f { lane2 with imm := maskBits 11 0 } true (fun _ => groupsCheck s i.val f [(f.a, 1), (f.d, 1)])

def execVshl (core : CoreId) (ctx : CtxId) (f : Fields) (s : State) :
    Host.Outcome State Fault Refusal :=
  .next (issueVshl s core ctx f)

def issueVrsh (s : State) (i : CoreId) (k : CtxId) (f : Fields) : State :=
  issueVec s i k 0x4A f { lane2 with imm := maskBits 5 0 } true (fun _ => groupsCheck s i.val f [(f.a, 1), (f.d, 1)])

def execVrsh (core : CoreId) (ctx : CtxId) (f : Fields) (s : State) :
    Host.Outcome State Fault Refusal :=
  .next (issueVrsh s core ctx f)

def issueVresc (s : State) (i : CoreId) (k : CtxId) (f : Fields) : State :=
  issueVec s i k 0x4B f { lane2 with mod := modMask 104 104, imm := maskBits 11 0 } true (fun _ => groupsCheck s i.val f (if f.modBits 104 104 = 1 then [(f.a, 1)] else [(f.a, 1), (f.d, 1)]))

def execVresc (core : CoreId) (ctx : CtxId) (f : Fields) (s : State) :
    Host.Outcome State Fault Refusal :=
  .next (issueVresc s core ctx f)

def issueVmov (s : State) (i : CoreId) (k : CtxId) (f : Fields) : State :=
  issueVec s i k 0x4C f lane2 true (fun _ => groupsCheck s i.val f [(f.a, 1), (f.d, 1)])

def execVmov (core : CoreId) (ctx : CtxId) (f : Fields) (s : State) :
    Host.Outcome State Fault Refusal :=
  .next (issueVmov s core ctx f)

def issueVsplat (s : State) (i : CoreId) (k : CtxId) (f : Fields) : State :=
  issueVec s i k 0x4D f { mod := modMask 104 104, sub := nregMask, imm := maskBits 11 0, d := .v, a := .g } true (fun _ => groupsCheck s i.val f [(f.d, 1)])

def execVsplat (core : CoreId) (ctx : CtxId) (f : Fields) (s : State) :
    Host.Outcome State Fault Refusal :=
  .next (issueVsplat s core ctx f)

def issueVmovg (s : State) (i : CoreId) (k : CtxId) (f : Fields) : State :=
  issueVec s i k 0x4E f { mod := modMask 104 104, imm := maskBits 7 0, d := .g, a := .v } true (fun _ => none)

def execVmovg (core : CoreId) (ctx : CtxId) (f : Fields) (s : State) :
    Host.Outcome State Fault Refusal :=
  .next (issueVmovg s core ctx f)

def issueVradd (s : State) (i : CoreId) (k : CtxId) (f : Fields) : State :=
  issueVec s i k 0x4F f lane3 true (fun _ => groupsCheck s i.val f [(f.a, 1), (f.b, 1), (f.d, 1)])

def execVradd (core : CoreId) (ctx : CtxId) (f : Fields) (s : State) :
    Host.Outcome State Fault Refusal :=
  .next (issueVradd s core ctx f)

def issueVld (s : State) (i : CoreId) (k : CtxId) (f : Fields) (ecc : Bool) : State :=
  issueVec s i k 0x50 f rowShape true (fun e => vldCheck s i.val e) ecc

def execVld (core : CoreId) (ctx : CtxId) (f : Fields) (eccErr : Bool) (s : State) :
    Host.Outcome State Fault Refusal :=
  .next (issueVld s core ctx f eccErr)

def issueVst (s : State) (i : CoreId) (k : CtxId) (f : Fields) : State :=
  issueVec s i k 0x51 f rowShape true (fun e => vstCheck s i.val e)

def execVst (core : CoreId) (ctx : CtxId) (f : Fields) (s : State) :
    Host.Outcome State Fault Refusal :=
  .next (issueVst s core ctx f)

def issueVqnt (s : State) (i : CoreId) (k : CtxId) (f : Fields) : State :=
  issueVec s i k 0x52 f { sub := nregMask, imm := imm64, d := .v, a := .g } true (fun e => vqntCheck s i.val e)

def execVqnt (core : CoreId) (ctx : CtxId) (f : Fields) (s : State) :
    Host.Outcome State Fault Refusal :=
  .next (issueVqnt s core ctx f)

def issueVcvt (s : State) (i : CoreId) (k : CtxId) (f : Fields) : State :=
  issueVec s i k 0x53 f { mod := modMask 104 104, sub := maskBits 9 2, a := .g, b := .g, c := .g } true (fun e => vcvtCheck e)

def execVcvt (core : CoreId) (ctx : CtxId) (f : Fields) (s : State) :
    Host.Outcome State Fault Refusal :=
  .next (issueVcvt s core ctx f)

def issueVrsum (s : State) (i : CoreId) (k : CtxId) (f : Fields) : State :=
  issueVec s i k 0x54 f lane2 true (fun _ => groupsCheck s i.val f [(f.a, 1)])

def execVrsum (core : CoreId) (ctx : CtxId) (f : Fields) (s : State) :
    Host.Outcome State Fault Refusal :=
  .next (issueVrsum s core ctx f)

def issueVrmax (s : State) (i : CoreId) (k : CtxId) (f : Fields) : State :=
  issueVec s i k 0x55 f lane2 true (fun _ => groupsCheck s i.val f [(f.a, 1)])

def execVrmax (core : CoreId) (ctx : CtxId) (f : Fields) (s : State) :
    Host.Outcome State Fault Refusal :=
  .next (issueVrmax s core ctx f)

def issueVrcnt (s : State) (i : CoreId) (k : CtxId) (f : Fields) : State :=
  issueVec s i k 0x56 f lane2 true (fun _ => groupsCheck s i.val f [(f.a, 1)])

def execVrcnt (core : CoreId) (ctx : CtxId) (f : Fields) (s : State) :
    Host.Outcome State Fault Refusal :=
  .next (issueVrcnt s core ctx f)

def issueVrssq (s : State) (i : CoreId) (k : CtxId) (f : Fields) : State :=
  issueVec s i k 0x57 f lane2 true (fun _ => groupsCheck s i.val f [(f.a, 1)])

def execVrssq (core : CoreId) (ctx : CtxId) (f : Fields) (s : State) :
    Host.Outcome State Fault Refusal :=
  .next (issueVrssq s core ctx f)

def issueVsqadd (s : State) (i : CoreId) (k : CtxId) (f : Fields) : State :=
  issueVec s i k 0x58 f lane3 true (fun _ => groupsCheck s i.val f [(f.a, 1), (f.b, 1), (f.d, 1)])

def execVsqadd (core : CoreId) (ctx : CtxId) (f : Fields) (s : State) :
    Host.Outcome State Fault Refusal :=
  .next (issueVsqadd s core ctx f)

def issueVact (s : State) (i : CoreId) (k : CtxId) (f : Fields) : State :=
  issueVec s i k 0x59 f { sub := nregMask, imm := imm64, d := .v, a := .v, b := .g } true (fun e => vactCheck s i.val e)

def execVact (core : CoreId) (ctx : CtxId) (f : Fields) (s : State) :
    Host.Outcome State Fault Refusal :=
  .next (issueVact s core ctx f)

def issueVumu (s : State) (i : CoreId) (k : CtxId) (f : Fields) : State :=
  issueVec s i k 0x5A f { d := .g, a := .g, b := .g } true (fun e => vumuCheck e)

def execVumu (core : CoreId) (ctx : CtxId) (f : Fields) (s : State) :
    Host.Outcome State Fault Refusal :=
  .next (issueVumu s core ctx f)

def issueVupd (s : State) (i : CoreId) (k : CtxId) (f : Fields) : State :=
  issueVec s i k 0x5B f { d := .g, a := .g, b := .g, c := .g } true (fun e => vupdCheck e)

def execVupd (core : CoreId) (ctx : CtxId) (f : Fields) (s : State) :
    Host.Outcome State Fault Refusal :=
  .next (issueVupd s core ctx f)

def issueVgacc (s : State) (i : CoreId) (k : CtxId) (f : Fields) : State :=
  issueVec s i k 0x5C f { sub := nregMask, a := .v, b := .g, c := .g } true (fun e => vgaccCheck s i.val e)

def execVgacc (core : CoreId) (ctx : CtxId) (f : Fields) (s : State) :
    Host.Outcome State Fault Refusal :=
  .next (issueVgacc s core ctx f)

def issueVrand (s : State) (i : CoreId) (k : CtxId) (f : Fields) : State :=
  issueVec s i k 0x5D f { sub := nregMask, imm := maskBits 11 0, d := .v, a := .g, b := .g } true (fun _ => groupsCheck s i.val f [(f.d, 1)])

def execVrand (core : CoreId) (ctx : CtxId) (f : Fields) (s : State) :
    Host.Outcome State Fault Refusal :=
  .next (issueVrand s core ctx f)

def issueVmark (s : State) (i : CoreId) (k : CtxId) (f : Fields) : State :=
  issueVec s i k 0x5E f { a := .g } true (fun e => vmarkCheck e)

def execVmark (core : CoreId) (ctx : CtxId) (f : Fields) (s : State) :
    Host.Outcome State Fault Refusal :=
  .next (issueVmark s core ctx f)

end Sys2Proof.Machine
end

