-- ==== Sys2Proof/Machine/CoreMove.lean ====
section
/-! DEFINITION. The move, fabric and collective instructions at issue (R200 to R202, Tables 7-14 and 7-15). -/

namespace Sys2Proof.Machine

def issueTongs (s : State) (i : CoreId) (k : CtxId) (op : Nat) (f : Fields) (sh : Shape) (legal : Bool)
    (check : QEntry → Option Nat) : State :=
  pumpQueue (issueQ s i.val k .tongs op f sh legal check) i .tongs

def issueMcopy (s : State) (i : CoreId) (k : CtxId) (f : Fields) : State :=
  issueTongs s i k opMcopy f { mod := modMask 110 105, imm := imm64, a := .g, b := .g, c := .g } (mcopyLegal f)
    mcopyCheck

def execMcopy (core : CoreId) (ctx : CtxId) (f : Fields) (s : State) : Host.Outcome State Fault Refusal :=
  .next (issueMcopy s core ctx f)

def issueMfill (s : State) (i : CoreId) (k : CtxId) (f : Fields) : State :=
  issueTongs s i k opMfill f { mod := modMask 106 105, imm := imm64, b := .g, c := .g } (f.modBits 106 105 != 3)
    mfillCheck

def execMfill (core : CoreId) (ctx : CtxId) (f : Fields) (s : State) : Host.Outcome State Fault Refusal :=
  .next (issueMfill s core ctx f)

def issueFab (s : State) (i : CoreId) (k : CtxId) (op : Nat) (f : Fields) (sh : Shape) (legal : Bool)
    (check : QEntry → Option Nat) : State :=
  pumpQueue (issueQ s i.val k .fab op f sh legal check) i .fab

def putShape : Shape := { mod := modMask 106 104, sub := maskBits 15 0, imm := maskBits 31 0, a := .g, b := .g }

def issueFput (s : State) (i : CoreId) (k : CtxId) (f : Fields) : State :=
  issueFab s i k opFput f putShape (putLegal f) fun e => putCheck e e.ga e.gb

def execFput (core : CoreId) (ctx : CtxId) (f : Fields) (s : State) : Host.Outcome State Fault Refusal :=
  .next (issueFput s core ctx f)

def issueFget (s : State) (i : CoreId) (k : CtxId) (f : Fields) : State :=
  issueFab s i k opFget f putShape (putLegal f) fun e => putCheck e e.ga e.gb

def execFget (core : CoreId) (ctx : CtxId) (f : Fields) (s : State) : Host.Outcome State Fault Refusal :=
  .next (issueFget s core ctx f)

def issueFsend (s : State) (i : CoreId) (k : CtxId) (f : Fields) : State :=
  issueFab s i k opFsend f { sub := maskBits 15 0, imm := maskBits 31 0, a := .g } true fsendCheck

def execFsend (core : CoreId) (ctx : CtxId) (f : Fields) (s : State) : Host.Outcome State Fault Refusal :=
  .next (issueFsend s core ctx f)

def issueFatom (s : State) (i : CoreId) (k : CtxId) (f : Fields) : State :=
  issueFab s i k opFatom f { mod := modMask 110 105, d := .g, a := .g, b := .g, c := .g } (fatomLegal f) fatomCheck

def execFatom (core : CoreId) (ctx : CtxId) (f : Fields) (s : State) : Host.Outcome State Fault Refusal :=
  .next (issueFatom s core ctx f)

def issueFred (s : State) (i : CoreId) (k : CtxId) (f : Fields) : State :=
  issueFab s i k opFred f { mod := modMask 110 105, imm := maskBits 31 0, a := .g, b := .g } (fredLegal f) fredCheck

def execFred (core : CoreId) (ctx : CtxId) (f : Fields) (s : State) : Host.Outcome State Fault Refusal :=
  .next (issueFred s core ctx f)

def issueFgath (s : State) (i : CoreId) (k : CtxId) (f : Fields) : State :=
  issueFab s i k opFgath f { imm := maskBits 12 0, a := .g, b := .g } true fgathCheck

def execFgath (core : CoreId) (ctx : CtxId) (f : Fields) (s : State) : Host.Outcome State Fault Refusal :=
  .next (issueFgath s core ctx f)

/-! ## Collectives: the entry starts an instance when the group is free (R304 to R306) -/

def issueFbar (s : State) (i : CoreId) (k : CtxId) (f : Fields) : State :=
  issueFab s i k opFbar f { sub := maskBits 15 0 } true fun _ => none

def execFbar (core : CoreId) (ctx : CtxId) (f : Fields) (s : State) : Host.Outcome State Fault Refusal :=
  .next (issueFbar s core ctx f)

/-- The constructor fixes the operation in MOD 110:107. -/
def fcollFields (f : Fields) (op : Nat) : Fields := { f with mod := BitVec.ofNat 7 (putBits 6 3 f.mod.toNat op) }

def issueFcoll (s : State) (i : CoreId) (k : CtxId) (op : Nat) (f : Fields) : State :=
  issueFab s i k opFcoll (fcollFields f op) { mod := modMask 110 107, a := .g } true fun e => csCheck e.ga.toNat 64 8

def execFcollReduceScatter (core : CoreId) (ctx : CtxId) (f : Fields) (s : State) :
    Host.Outcome State Fault Refusal :=
  .next (issueFcoll s core ctx 0 f)

def execFcollAllGather (core : CoreId) (ctx : CtxId) (f : Fields) (s : State) :
    Host.Outcome State Fault Refusal :=
  .next (issueFcoll s core ctx 1 f)

def execFcollAllReduce (core : CoreId) (ctx : CtxId) (f : Fields) (s : State) :
    Host.Outcome State Fault Refusal :=
  .next (issueFcoll s core ctx 2 f)

def execFcollBroadcast (core : CoreId) (ctx : CtxId) (f : Fields) (s : State) :
    Host.Outcome State Fault Refusal :=
  .next (issueFcoll s core ctx 3 f)

def execFcollStepEnd (core : CoreId) (ctx : CtxId) (f : Fields) (s : State) :
    Host.Outcome State Fault Refusal :=
  .next (issueFcoll s core ctx 4 f)

def issueFsnap (s : State) (i : CoreId) (k : CtxId) (f : Fields) : State :=
  issueFab s i k opFsnap f { sub := maskBits 15 0, a := .g } true fun _ => none

def execFsnap (core : CoreId) (ctx : CtxId) (f : Fields) (s : State) : Host.Outcome State Fault Refusal :=
  .next (issueFsnap s core ctx f)

end Sys2Proof.Machine
end

