-- ==== Sys2Proof/Machine/Extents.lean ====
section
/-! DEFINITION. The survival plan (R355 to R358): extents and their rows, fingerprints, the choice of a partner,
the full copy, the halt, and the smith's refetch of poisoned lines (R377). -/

namespace Sys2Proof.Machine

/-! ## Survival records (Table 13-2) -/

/-- The extents of a record: kind, address and length. -/
def recExtents (ws : List Word64) : List (Nat × Nat × Nat) :=
  ((List.range 8).map fun x => (wfield ws (12 + 2 * x) 63 62, wfield ws (12 + 2 * x) 47 0,
    wfield ws (13 + 2 * x) 63 0)).filter fun e => e.1 != 0

def kMaster : Nat := 1
def kStatic : Nat := 2
def kScratch : Nat := 3

/-- Address and length of the extents of a kind. -/
def extentsOf (ws : List Word64) (kind : Nat) : List (Nat × Nat) :=
  ((recExtents ws).filter (·.1 = kind)).map (·.2)

def inExtents (es : List (Nat × Nat)) (a : Nat) : Bool := es.any fun e => e.1 ≤ a && a < e.1 + e.2

structure Cand where
  idx  : Nat
  node : Nat
  tray : Nat
  slot : Nat
  deriving DecidableEq, Repr

/-- The candidates of a record, in order. -/
def candidates (ws : List Word64) : List Cand :=
  ((List.range 4).filter fun c => wfield ws (4 + 2 * c) 63 63 = 1).map fun c =>
    ⟨c, wfield ws (4 + 2 * c) 47 32, wfield ws (4 + 2 * c) 31 16, wfield ws (5 + 2 * c) 63 0⟩

def planTray (ws : List Word64) : Nat := wfield ws 0 47 32
def planDelta (ws : List Word64) : Nat := wfield ws 28 63 0
def planWardBase (ws : List Word64) : Nat := wfield ws 2 63 0
def planWardLen (ws : List Word64) : Nat := wfield ws 3 63 48 * 2 ^ 20
def planMaxWards (ws : List Word64) : Nat := wfield ws 3 47 44

/-! ## Master rows and fingerprints -/

/-- The length of the Q32 row that describes itself at an address, at most `cap` elements (log entry 20). -/
def rowLenAt (s : State) (a : Nat) : Option Nat :=
  ((List.range 4096).map (· + 1)).find? fun n =>
    trailerOk (decodeTrailer (readWord s (a + rowSize 0x20 false n - 8)).toNat) 0x20 n false

/-- The rows of a master extent, one after another from its base: address and size. -/
def rowsFrom (s : State) (stop : Nat) : Nat → Nat → List (Nat × Nat)
  | 0, _ => []
  | k + 1, a =>
    if stop ≤ a then []
    else match rowLenAt s a with
      | some n =>
        if a + rowSize 0x20 false n ≤ stop then (a, rowSize 0x20 false n) :: rowsFrom s stop k (a + rowSize 0x20 false n)
        else []
      | none => []

def masterRows (s : State) (es : List (Nat × Nat)) : List (Nat × Nat) :=
  es.flatMap fun e => rowsFrom s (e.1 + e.2) (e.2 / 16 + 1) e.1

/-- Offset of an address within the master extents, laid end to end. -/
def masterOffset : List (Nat × Nat) → Nat → Nat
  | [], _ => 0
  | e :: es, a => if e.1 ≤ a && a < e.1 + e.2 then a - e.1 else e.2 + masterOffset es a

/-- R358. -/
def fpWords (ws : List Word64) : Nat :=
  (ws.zipIdx).foldl (fun h p => stream h p.1.toNat p.2) 0x0E0F

def fpRow (s : State) (r : Nat × Nat) : Nat := fpWords (readWords s r.1 (r.2 / 8))

/-! ## Journal entries (R339, R341, Table 12-7) -/

def journalAddr (s : State) (jseq : Nat) : Nat := journalBase s + 512 * (jseq % jslots s)
def mirrorBase (s : State) : Nat := getPair s WRK_MIRROR_LO WRK_MIRROR_HI
def mirrorAddr (s : State) (jseq : Nat) : Nat := mirrorBase s + 512 * (jseq % jslots s)

def jstateCode : JState → Nat
  | .accepted => 1
  | .running => 2
  | .done => 3

/-- The 512 bytes of an entry. -/
def journalEntry (j : JEntry) : List Byte :=
  let h := bytesOfWords (padWords 15 [
      w64 (0x0D03 * 2 ^ 48 + j.ring % 16 * 2 ^ 44 + jstateCode j.st * 2 ^ 42
        + (if j.st = .done then j.status else 0) * 2 ^ 34),
      w64 j.jseq, w64 j.seq, w64 j.accTime,
      w64 (j.doneStep.getD 0xFFFFFFFFFFFFFFFF), w64 (j.detail * 2 ^ 8)]) ++ leBytes 4 0
  let body := bytesOfWords (padWords 48 j.item)
  h ++ leBytes 4 (crc32c (h ++ body)) ++ body

def storeEntry (s : State) (j : JEntry) : State := (memWrite s (journalAddr s j.jseq) (journalEntry j)).1

def entryAt (s : State) (jseq : Nat) : Option JEntry := s.intake.journal.find? (·.jseq = jseq)

/-- An entry changes in the journal and in its lines in memory. -/
def setJournal (s : State) (j : JEntry) : State :=
  storeEntry { s with intake := { s.intake with
    journal := s.intake.journal.map fun x => if x.jseq = j.jseq then j else x } } j

def partnerNode (s : State) : Nat := getF s WRK_PARTNER WRK_PARTNER_NODE
def partnerValid (s : State) : Bool := flag s WRK_PARTNER WRK_PARTNER_VALID

/-- The lines of an entry go to the mirror at the partner. -/
def sendMirror (s : State) (j : JEntry) (o : Owner) : State :=
  if partnerValid s then sendWrites s (partnerNode s) (mirrorAddr s j.jseq) (journalEntry j) o else s

/-! ## The halt (R375, Table 13-8) -/

def haltDiverged : Nat := 1
def haltShardLost : Nat := 2
def haltCursor : Nat := 3

/-- The device stands at a step boundary: no entry of the step is released. -/
def atBoundary (s : State) : Bool := match s.job with
  | none => true
  | some j => j.stepEnd = 0 && s.hearths.all fun h => h.walk = 0 && h.out.isEmpty

/-- A member that was told to halt stops at its next step boundary. -/
def settleHalt (s : State) : State :=
  if s.surv.haltSeen && atBoundary s && !halted s then
    let t := putF s SURV_STATUS SURV_STATUS_HALTED 1
    { t with job := t.job.map fun j => { j with stat := .halted } }
  else s

def survChildren (s : State) : List Nat := match survGroup s with
  | some g => treeChildren g.size g.rank
  | none => []

/-- HALT travels down the tree. -/
def floodHalt (s : State) (reason : Nat) : State :=
  let s := (survChildren s).foldl (fun t c => sendRelation t c kHalt reason (survMgen t) [] []) s
  settleHalt { s with surv := { s.surv with haltSeen := true } }

/-- The detecting device: HALT to the coordinator and the halt notice. -/
def haltJob (s : State) (reason node row : Nat) : State :=
  let s := if isCoordinator s then floodHalt s reason else sendInbox s 0 kHalt reason [] []
  postNotice s 0x0502 [w64 reason, w64 (jobStep s), w64 node, w64 row]

/-! ## The partner (R357) -/

def repairing (s : State) : State :=
  putF (putF s SURV_STATUS SURV_STATUS_REPAIRING 1) WRK_STATUS WRK_STATUS_PARTNER_DOWN 1

/-- No partner is named while none holds a complete copy (R342, R355). -/
def clearPartner (s : State) : State := setR (setR s SURV_PARTNER 0) WRK_PARTNER 0

def groupNodes (s : State) : List Nat := match survGroup s with
  | some g => g.nodes
  | none => []

def candOk (s : State) (c : Cand) : Bool :=
  (groupNodes s).contains c.node && !(dstAt s c.node).unreach && !s.surv.refusals.contains c.idx

/-- The ward header line (Table 13-3). -/
def wardHeader (s : State) (st commit : Nat) : List Byte :=
  bytesOfWords (padWords 16 [w64 (0x0E02 * 2 ^ 48 + ownNode s * 2 ^ 32 + ownEpoch s * 2 ^ 24 + st), w64 commit])

def wardFilling : Nat := 1
def wardCurrent : Nat := 2
def wardPromoted : Nat := 3

def slotCommit : Nat := 0x80
def slotMirror : Nat := 0x100000
def slotFp : Nat := 0x2100000
def slotDelta : Nat := 0x3100000

/-- Ranges of memory go to the same addresses at a node. -/
def sendRanges (s : State) (node : Nat) (o : Owner) (rs : List (Nat × Nat)) : State :=
  rs.foldl (fun t r => sendWrites (touchRange t r.1 r.2) node r.1 (readBytes t r.1 r.2) o) s

/-- Fingerprints of rows, in a table of 8 bytes each. -/
def sendFps (s : State) (node at_ : Nat) (o : Owner) (rows : List (Nat × Nat)) : State :=
  sendWrites s node at_ (rows.flatMap fun r => leBytes 8 (fpRow s r)) o

/-- Steps 1 to 4 of R359, to the ward slot of the partner. -/
def startCopy (s : State) (node slot : Nat) : State :=
  let p := s.surv.plan
  let s := sendWrites s node slot (wardHeader s wardFilling s.surv.lastCommit) .copy
  let s := sendRanges s node .copy (extentsOf p kStatic ++ extentsOf p kMaster)
  let s := sendFps s node (slot + slotFp) .copy (masterRows s (extentsOf p kMaster))
  let s := s.intake.journal.foldl (fun t j =>
    sendWrites t node (slot + slotMirror + 512 * (j.jseq % jslots t)) (journalEntry j) .copy) s
  { s with surv := { s.surv with copying := true } }

/-- The masters that a copy takes stand after the last step updated: no commit of it remains to be made. -/
def copyStep (s : State) : State :=
  { s with surv := { s.surv with
      lastCommit := s.surv.commitDue.getD s.surv.lastCommit, commitDue := none, commitStep := none, durable := true } }

/-- The first candidate that qualifies becomes the partner and receives a full copy; without one the device
repairs. -/
def choosePartner (s : State) : State :=
  let s := clearPartner (repairing s)
  let p := s.surv.plan
  match (candidates p).find? fun c =>
      candOk s c && (extentsOf p kStatic ++ extentsOf p kMaster).all fun r => assigned s r.1 r.2 with
  | some c => startCopy (copyStep { s with surv := { s.surv with partner := some (c.node, c.idx) } }) c.node c.slot
  | none =>
    makeRecord { s with surv := { s.surv with partner := none, copying := false } } srcSurvival 0x382 []

def partnerSlot (s : State) : Nat := match s.surv.partner with
  | some p => ((candidates s.surv.plan).find? (·.idx = p.2)).elim 0 (·.slot)
  | none => 0

/-- R342: while the partner is unreachable, acceptance is suspended. -/
def settlePartner (s : State) : State :=
  if partnerValid s then putF s WRK_STATUS WRK_STATUS_PARTNER_DOWN (bit (dstAt s (partnerNode s)).unreach) else s

/-- A copy that its candidate turned away restarts at the next one (R356, R371); a partner that has turned away a write of the
seed copy takes a new one (Table 13-9, log entry 193). -/
def settleCopy (s : State) : State :=
  let s := settlePartner s
  match s.surv.partner with
  | some p =>
    let t := { s with surv := { s.surv with recopy := false } }
    if s.surv.refusals.contains p.2 || (s.surv.recopy && !(dstAt s p.1).unreach) then choosePartner t else t
  | none => s

/-! ## Refetch (R377, Table 13-9) -/

/-- Whole lines that cover a range. -/
def coverLines (a n : Nat) : Nat × Nat := (lineBase a, (a + n + 127) / 128 * 128 - lineBase a)

/-- Lines of a node replace the local lines of a range that is kept at the same address. -/
def refetch (s : State) (node a n : Nat) : State :=
  let r := coverLines a n
  sendReads (satF s SURV_CNT2 SURV_CNT2_REFETCH 1) node r.1 r.2 (.fetch a) r.1

/-- From the seed copy, or a halt when no partner holds it. -/
def refetchSeed (s : State) (a n : Nat) : State := match s.surv.partner with
  | some p => if (dstAt s p.1).unreach then haltJob s haltShardLost (ownNode s) a else refetch s p.1 a n
  | none => haltJob s haltShardLost (ownNode s) a

/-- A row of the commit in progress waits until the commit has been applied. -/
def refetchRow (s : State) (r : Nat × Nat) : State :=
  if s.surv.commitStep.isSome then
    { s with surv := { s.surv with later := s.surv.later.filter (· != r.1) ++ [r.1] } }
  else refetchSeed s r.1 r.2

def touches (a : Nat) (r : Nat × Nat) : Bool := r.1 < lineBase a + 128 && lineBase a < r.1 + r.2

def refetchMirror (s : State) (a : Nat) : State :=
  let k := (lineBase a - journalBase s) / 512
  if partnerValid s then
    sendReads (satF s SURV_CNT2 SURV_CNT2_REFETCH 1) (partnerNode s) (mirrorBase s + 512 * k) 512
      (.fetch (journalBase s + 512 * k)) (journalBase s + 512 * k)
  else haltJob s haltShardLost (ownNode s) a

def wardOf (s : State) (a : Nat) : Option Ward := s.surv.wards.find? fun w => w.base ≤ a && a < w.base + w.len

def wardSlotOf (s : State) (a : Nat) : Option Ward :=
  s.surv.wards.find? fun w => w.slot ≤ a && a < w.slot + planWardLen s.surv.plan

def setWard (s : State) (w : Ward) : State :=
  { s with surv := { s.surv with wards := updWhere (fun x => x.node = w.node) (fun _ => w) s.surv.wards } }

/-- The smith's action on a poisoned line, by its address. -/
def smithPoison (s : State) (a : Nat) : State :=
  let p := s.surv.plan
  if inExtents (extentsOf p kMaster) a then
    ((masterRows s (extentsOf p kMaster)).filter (touches a)).foldl refetchRow s
  else if inExtents (extentsOf p kStatic) a then refetchSeed s (lineBase a) 128
  else if journalBase s ≤ a && a < journalBase s + journalBytes s && s.intake.journal != [] then refetchMirror s a
  else match wardOf s a, wardSlotOf s a with
    | some w, _ => setWard s { w with refetch := lineBase a :: w.refetch.filter (· != lineBase a) }
    | none, some w => writeWord s w.slot (w64 ((readWord s w.slot).toNat / 4 * 4))
    | none, none => s

/-- R256: a line that fails is poisoned and the smith acts on it. -/
def poisonAndReport (s : State) (a : Nat) : State := smithPoison (poisonLine s a) a

end Sys2Proof.Machine
end

