-- ==== Sys2Proof/Machine/Items.lean ====
section
/-! DEFINITION. Work items in the journal (R336, R338, R340): kinds, their reserved fields, and how an item
reaches its point of completion. -/

namespace Sys2Proof.Machine

def itemKind (j : JEntry) : Nat := wfield j.item 0 47 40

def kJobStart : Nat := 1
def kWidenRelease : Nat := 2
def kRatioRelease : Nat := 3
def kJobReset : Nat := 4
def kJobEnd : Nat := 5
def kNop : Nat := 6

/-- Table 12-6. -/
def stRejected : Nat := 1
def stBadKind : Nat := 2
def stNoJob : Nat := 3
def stNotHeld : Nat := 4
def stIgnored : Nat := 5
def stHeldAgain : Nat := 6
def stJobActive : Nat := 7

def zeroFrom (ws : List Word64) (k : Nat) : Bool := (ws.drop k).all (· = 0)

/-- The body's reserved bytes, by kind (Table 12-5). -/
def bodyReserved (ws : List Word64) (kind : Nat) : Bool :=
  if kind = kJobStart then zeroFrom ws 40
  else if kind = kWidenRelease then wfield ws 10 31 2 = 0 && zeroFrom ws 12
  else if kind = kRatioRelease then wfield ws 9 63 2 = 0 && zeroFrom ws 10
  else if kind = kJobReset then wfield ws 8 63 16 = 0 && zeroFrom ws 9
  else zeroFrom ws 8

/-- An unassigned KIND, or a reserved byte that is not 0. -/
def itemBad (ws : List Word64) : Bool :=
  let kind := wfield ws 0 47 40
  kind = 0 || 6 < kind || wfield ws 0 39 0 != 0 || ((ws.drop 4).take 3).any (· != 0) || wfield ws 7 63 32 != 0
    || !bodyReserved ws kind

/-- The item that runs on a ring (R340). -/
def runningItem (s : State) (ring : Nat) : Option JEntry :=
  s.intake.journal.find? fun j => j.ring = ring && j.st = .running

/-- The running item of a ring, when it is sound, of a kind, and not yet at its point of completion. -/
def itemOf (s : State) (ring kind : Nat) : Option JEntry :=
  (runningItem s ring).filter fun j => itemKind j = kind && !j.fin && !itemBad j.item

/-- An item that changed the job's state: its mark rides on a commit. -/
def changesJob (j : JEntry) : Bool :=
  1 ≤ itemKind j && itemKind j ≤ 5 && (j.status = 0 || j.status = stHeldAgain)

/-- The point of completion of an item, with its status, its detail and the step of its effect. -/
def finishItem (s : State) (jseq status detail : Nat) (step : Nat) : State :=
  match entryAt s jseq with
  | none => s
  | some j =>
    if j.fin then s else
    let k := { j with fin := true, status := status, detail := detail }
    setJournal s { k with doneStep := if changesJob k then some step else none }

def finishIf (s : State) (x : Option (Nat × Nat)) (status step : Nat) : State := match x with
  | some p => finishItem s p.2 status 0 step
  | none => s

end Sys2Proof.Machine
end

