-- ==== Sys2Proof/Machine/StepEnd.lean ====
section
/-! DEFINITION. The step end (R230): the result of the reduction, the hold round (R110, R111), the ratio hold
(R168), the updates of action 7, and the end of the step in action 8. -/

namespace Sys2Proof.Machine

def modJob (s : State) (f : Job → Job) : State := { s with job := s.job.map f }

/-! ## What a step leaves clear (R225, R230) -/

/-- The gradient buffer of a layer: zero rows, and a header that names the step it serves and is clear otherwise
(Table 8-8). -/
def clearGrad (step : Nat) (s : State) (l : Nat) : State :=
  let a := jobWord s 10 + 16 * l
  let rows := (readWord s (a + 8)).toNat
  let row := zeroRowBytes (layerRowLen s l)
  let s := (memWrite s a (leBytes 8 (step % 2 ^ 32 * 2 ^ 32))).1
  (memWrite s rows ((List.replicate (layerRows s l) row).flatten)).1

def clearGrads (s : State) (step : Nat) : State := (List.range (jobLayers s)).foldl (clearGrad step) s

def jobChunks (s : State) : Nat := bitsOf 47 45 (jobWord s 3) + 1
def jobMbs (s : State) : Nat := bitsOf 31 16 (jobWord s 2)

/-- The phase descriptor of a kind and chunk (Table 8-5). -/
def phaseDesc (s : State) (kind chunk : Nat) : List Word64 := readWords s (jobWord s 7 + 32 * (8 * kind + chunk)) 4

def clearArrival (s : State) (p : Nat × Nat) : State :=
  (memWrite s (wfield (phaseDesc s p.1 p.2) 2 63 0) (List.replicate (8 * jobMbs s) 0)).1

/-- Every phase that has arrival words. -/
def phasePairs (s : State) : List (Nat × Nat) :=
  (List.range (jobChunks s)).flatMap fun c => [(0, c), (1, c)]

def clearArrivals (s : State) : State := (phasePairs s).foldl clearArrival s

/-! ## The end of the step (action 8) -/

/-- JOB_END reaches its point of completion when the current step has finished (R338). -/
def settleEnd (s : State) : State :=
  match s.job with
  | some j =>
    if j.stat = .ending && atBoundary s then
      finishIf s j.endItem 0 (match s.surv.commitDue with
        | some k => k
        | none => s.surv.lastCommit)
    else s
  | none => s

/-- A replica whose places are filled leaves the idle state at a step boundary (R367, R381). -/
def leaveIdle (s : State) : State := match s.surv.idleUntil with
  | some k => if k ≤ jobStep s then
      { putF s SURV_STATUS SURV_STATUS_IDLE 0 with surv := { s.surv with idleUntil := none } } else s
  | none => s

/-! ### Places in a group that joined devices take (R381) -/

/-- The entry in DRAM is rewritten. -/
def storeGroup (s : State) (g : Group) : State :=
  let a := groupTable s g.index
  let ws := readWords s a 4
  let s := writeWord s a (w64 (0x0C61 * 2 ^ 48 + g.gen * 2 ^ 32 + g.size * 2 ^ 15))
  let s := writeWord s (a + 8) (w64 (g.rank * 2 ^ 48))
  let s := writeBytes s (wfield ws 2 63 0) (g.nodes.flatMap (leBytes 2))
  writeBytes s (wfield ws 3 63 0) (g.conns.flatMap (leBytes 2))

def connFor (s : State) (node old : Nat) : Nat := if nodeReachable s node then 0xFFFF else old

/-- A joined device takes its place in a group, which is reactivated with GEN raised by 1. -/
def fillPlace (s : State) (p : Nat × Nat × Nat) : State := match groupAt s p.1 with
  | none => s
  | some g =>
    let h := { g with gen := (g.gen + 1) % 2 ^ 16, nodes := g.nodes.set p.2.1 p.2.2
                      conns := g.conns.set p.2.1 (connFor s p.2.2 (g.conn p.2.1)) }
    storeGroup (setGroupEntry s h) h

def fillPlaces (s : State) : State := s.surv.fills.foldl fillPlace { s with surv := { s.surv with fills := [] } }

/-- The gradient buffers, headers and arrival words are clear, the widths of the next step stand and the step
number rises by 1. -/
def advanceStep (s : State) : State :=
  match s.job with
  | none => s
  | some j =>
    let w := nextWidths s j
    let s := clearArrivals (clearGrads s (j.step + 1))
    let s := { s with
      job := some { j with
        step := j.step + 1, stepEnd := 0, fwdWide := w.fwd, agWide := w.ag, clean := w.clean
        skipUpdate := false, ratio := false, widenDue := false, relItem := none, payload := [], vector := [] }
      hearths := s.hearths.map fun h => { h with walk := 0, out := [], heldSince := some s.now, stalled := false }
      surv := { s.surv with commitDue := some j.step, dueCursors := cursorLines s } }
    settleEnd (settleHalt (leaveIdle (fillPlaces s)))

/-- No task of the step-end entry is left. -/
def stepTasksOver (s : State) : Bool := s.hearths.all fun h => h.out.all fun e => e.left = 0

/-- The step ends once action 7 is complete on every hearth. -/
def settleStep (s : State) : State :=
  match s.job with
  | some j => if j.stepEnd = 7 && stepTasksOver s then advanceStep s else s
  | none => s

/-! ## Action 7 -/

/-- A layer input record (Table 7-28); an update that is skipped has c = 0. -/
def layerInput (s : State) (j : Job) (l : Nat) : List Word64 :=
  let t := payTotals j.payload l
  let cq := if j.skipUpdate then 0 else wfield j.payload 2 63 48
  [w64 (0x0A54 * 2 ^ 48 + cq * 2 ^ 32 + wfield j.payload 2 47 40 * 2 ^ 24),
    w64 (wfield t 1 31 0 * 2 ^ 32 + wfield t 1 47 40 * 2 ^ 24),
    t.getD 0 0, w64 (wfield t 1 63 48 * 2 ^ 48), t.getD 2 0, w64 (wfield t 3 63 48 * 2 ^ 48), t.getD 4 0,
    w64 (layerField s l 6 39 0)]

/-- The layer input records of the step, in memory (R198; log entry 44). -/
def writeInputs (s : State) (j : Job) : State :=
  (List.range (jobLayers s)).foldl (fun t l =>
    (memWrite t (Config.layerInputAt j.desc l) (bytesOfWords (layerInput s j l))).1) s

/-- Action 7: one input record for each layer is written and the updates begin. -/
def proceedStep (s : State) : State :=
  match s.job with
  | none => s
  | some j =>
    settleStep ({ writeInputs s j with job := some { j with
      stat := if j.stat = .ending || j.endItem.isSome then .ending else .running
      stepEnd := 7, inputs := (List.range (jobLayers s)).map (layerInput s j) } })

/-! ## The ratio hold (R168) -/

/-- What VUMU finds for a layer (log entry 21). -/
def layerOutcome (s : State) (ws : List Word64) (l : Nat) : State × UmuOut :=
  let c := (wfield ws 2 63 48, sext 8 (wfield ws 2 47 40))
  let a := drawFree s
  let b := drawFree a.2
  (b.2, umuCompute (rootUmu s ws c l) (freeUmu a.1 b.1))

def outOfBand (s : State) (ws : List Word64) (l : Nat) : Bool :=
  let u := rootUmu s ws (wfield ws 2 63 48, sext 8 (wfield ws 2 47 40)) l
  let o := (layerOutcome s ws l).2
  u.ratioHold && hasUpdate u && (o.hi || o.lo)

/-- The ratio-hold record: the layer, its level, the band, and the number of such layers. -/
def ratioRecord (s : State) (j : Job) (l : Nat) : State :=
  let r := layerOutcome s j.payload l
  let us := layerUpdate s l
  let n := ((List.range (jobLayers s)).filter (outOfBand s j.payload)).length
  postRecord r.1 [headWord s 0x0420 0, w64 j.step, w64 l, w64 (wrapBits 64 r.2.rho),
    w64 (wrapBits 32 (sext 16 (wfield us 1 63 48)) * 2 ^ 32 + wrapBits 32 (sext 16 (wfield us 1 47 32))),
    w64 (n * 2 ^ 48)]

def holdRatio (s : State) : State :=
  match s.job with
  | none => s
  | some j =>
    let l := wfield j.payload 2 36 27
    let s := modJob s fun j => { j with stat := .heldRatio, stepEnd := 6 }
    if ownsLayer s l then ratioRecord s j l else s

/-- Action 6, after the hold round: a ratio hold stands, or the updates begin. -/
def passHold (s : State) : State :=
  match s.job with
  | some j => if j.ratio then holdRatio s else proceedStep s
  | none => s

/-! ## The hold round (R110 to R112) -/

/-- The device's own instance of the hold round; no instruction waits on it. -/
def holdInst (s : State) (g : Group) : Inst :=
  { group := g.index, num := g.nextInst, op := .stepEnd, desc := [], core := 0, qid := 2 ^ 64
    own := false, kids := [], phase := 0, got := [], work := [], ident := 0, since := s.now, stalled := false }

def startHoldRound (s : State) (g : Group) : State :=
  let x := holdInst s g
  let h := { g with nextInst := (g.nextInst + 1) % 2 ^ 32, aborted := g.aborted.filter (fun p => p.1 != g.nextInst) }
  startHold (setInst (setGroupEntry (modJob s fun j => { j with stepEnd := 4 }) h) x) h x

/-- Table 4-9. -/
def heldRecord (s : State) (j : Job) : List Word64 :=
  let w := nextWidths s j
  [headWord s 0x0410 0, w64 j.step, w64 (dramDemand s w), w64 j.dramRes,
    w64 (csDemand s w * 2 ^ 32 + j.csRes), w64 (w.fwd.length * 2 ^ 48 + w.ag.length * 2 ^ 32), w64 j.vecAt, 0]

/-- The step is held: a member over its reservation records and posts it. -/
def holdWiden (s : State) : State :=
  match s.job with
  | none => s
  | some j =>
    let s := finishIf s j.relItem stHeldAgain j.step
    let s := modJob s fun j => { j with stat := .heldWiden, stepEnd := 5, relItem := none }
    if overReserve s j then
      postRecord (makeRecord s srcSmith 0x104 (heldRecord s j)) (heldRecord s j)
    else s

/-! ## The commands -/

def jobGroup (s : State) : Nat := bitsOf 15 0 (jobWord s 4)

/-- Address of the vote buffer in the payload that the last instance delivered. -/
def deliveredVotes (g : Group) (ws : List Word64) : Nat := match g.last with
  | some x => descDst x.desc + 8 * (8 + 6 * payLayers ws)
  | none => 0

/-- The result stands; action 7 waits while a full copy runs (R359). -/
def stepEndResult (s : State) (idx : Nat) : State :=
  match s.job, groupAt s idx with
  | some j, some g =>
    if j.stepEnd != 2 || idx != jobGroup s || quenched s || s.surv.copying || (instOf s idx).isSome
        || (wfield j.payload 2 37 37 = 1 && enginesFull s) then s
    else
      let ws := j.payload
      let s := modJob s fun j => { j with
        vector := bytesOfWords (payVotes ws), vecAt := deliveredVotes g ws
        ratio := wfield ws 2 39 39 = 1, widenDue := wfield ws 2 37 37 = 1 }
      if wfield ws 2 37 37 = 1 then startHoldRound s g else passHold s
  | _, _ => s

def execStepEndResult (group : BitVec 10) (s : State) : Host.Outcome State Fault Refusal :=
  .next (stepEndResult s group.toNat)

/-- The hold round has decided. -/
def holdRoundResult (s : State) (idx : Nat) : State :=
  match s.job with
  | none => s
  | some j =>
    if j.stepEnd != 3 || idx != jobGroup s || quenched s || s.surv.copying then s
    else if wfield j.payload 2 38 38 = 1 then holdWiden s
    else
      let s := finishIf s j.relItem 0 j.step
      passHold (modJob s fun j => { j with relItem := none, widenDue := false })

def execHoldRoundResult (group : BitVec 10) (s : State) : Host.Outcome State Fault Refusal :=
  .next (holdRoundResult s group.toNat)

end Sys2Proof.Machine
end

