-- ==== Sys2Proof/Machine/Tasks.lean ====
section
/-! DEFINITION. Tasks on cores: dispatch (R30, R178, R221), completion, return and re-execution (R31, R141, R148,
R204, R206, R378), dispatcher requests (R207), split mode (R149). -/

namespace Sys2Proof.Machine

/-! ## Bookkeeping of schedule entries -/

/-- A task of an entry is over; the entry is kept at the hearth whose dispatcher released it. -/
def entryTaskOver (s : State) (t : Task) (failed : Bool) : State :=
  match t.entry with
  | none => s
  | some idx => modHearth s (taskHearth t.record) fun h => { h with
      out := updWhere (fun e => e.idx = idx) (fun e => ⟨e.idx, e.left - 1, e.failed || failed⟩) h.out }

/-- The task-failed record (Table 12-9) and the failure of its entry (R223). -/
def failTask (s : State) (i : Nat) (t : Task) (code pc : Nat) : State :=
  settleStep (entryTaskOver (postRecord s [headWord s 0x0404 0, t.record.getD 1 0,
    w64 (i * 2 ^ 57 + code * 2 ^ 48 + pc % 2 ^ 21)]) t true)

/-! ## Dispatch (R30) -/

def coreFree (s : State) (i : Nat) : Bool :=
  inService s i && !s.therm.trip && !coreHoldsTask s i && (coreAt s i).retireDue.isNone && !s.power.parked.contains i
    && !(domainAt s (domOf i)).clearing && (domainAt s (domOf i)).window.isNone

/-- R325, R364, R375: no task starts during a reset, after a fence or after a halt. -/
def dispatchOpen (s : State) : Bool :=
  !quenched s && !fenced s && !halted s && s.coll.reset.isNone && match s.job with
    | some j => j.stat != .halted
    | none => true

/-- R110, R168: while the step is held, no task of its schedule starts; a mailbox's task does. -/
def taskOpen (s : State) (t : Task) : Bool := match s.job with
  | some j => t.entry.isNone || j.stat = .running || j.stat = .ending
  | none => true

/-- R141: the first re-execution goes to the same core while it is in service, the next to another. A saved task resumes
on any core (R136). -/
def coreTakes (s : State) (t : Task) (i : Nat) : Bool :=
  coreFree s i && taskOpen s t && match t.lastCore with
    | none => true
    | some c => t.slot.isSome || t.fails = 0 || (if t.fails = 1 && inService s c then i = c else i != c)

def coreFor (s : State) (h : Nat) (t : Task) : Option Nat := (hearthCoreIds h).find? (coreTakes s t)

/-- The oldest ready task that a free core takes. -/
def nextTask (s : State) (h : Nat) : Option (Task × Nat) :=
  (hearthAt s h).ready.findSome? fun t => (coreFor s h t).map fun i => (t, i)

/-- The task-record offset of a core (R221). -/
def recordOff (s : State) (i : Nat) : Nat := min (saveOff s i) (seqSaveOff s i) - 64

def taskSplit (t : Task) : Bool := wfield t.record 0 47 47 = 1

def setSplit (s : State) (i : Nat) (v : Bool) : State := putF s (CORE_TILECTL i) CORE_TILECTL_SPLIT (bit v)

/-- A context as a dispatcher starts it (R178); a part that is not to run is done already (R148). -/
def startCtx (t : Task) (part : Nat) : Ctx :=
  if t.parts.toNat.testBit part then
    { Ctx.reset with stat := .running, pc := wfield t.record (2 + 2 * part) 20 0 / 16 * 16 }
  else { Ctx.reset with partDone := true }

/-- g1 and g2 of a context; every other register starts at 0. -/
def startG (s : State) (i off : Nat) (split : Bool) : List Word64 :=
  let id := w64 (viewIdent s i)
  if split then
    (((((List.replicate 32 0).set 1 (w64 (off + 0x10))).set 2 id).set 17 (w64 (off + 0x20))).set 18 id)
  else ((List.replicate 32 0).set 1 (w64 off)).set 2 id

/-- A task starts from its record. -/
def startFresh (s : State) (i : Nat) (t : Task) : State :=
  let off := recordOff s i
  let g := startG s i off (taskSplit t)
  modCore s i fun c => { c with
    g := g, p := 0, sc := List.replicate 16 0, v := List.replicate 64 .clear
    ctx0 := startCtx t 0, ctx1 := if taskSplit t then startCtx t 1 else .reset
    task := some t, ended := none, endedParts := 0, preq := none, upd := [], heldWaits := [] }

/-- A saved task waits for TASK_RESTORE on its core. -/
def startRestore (s : State) (i : Nat) (t : Task) : State :=
  modCore s i fun c => { c with
    ctx0 := { Ctx.reset with stat := .restoring }
    ctx1 := if taskSplit t then { Ctx.reset with stat := .restoring } else .reset
    task := some t, ended := none, endedParts := 0, preq := none, upd := [], heldWaits := [] }

/-- A re-execution that goes to another core than the one the task failed on is its last (R141). -/
def noteMoved (i : Nat) (t : Task) : Task :=
  if t.slot.isNone && 0 < t.fails && t.lastCore != some i then { t with moved := true } else t

def giveTask (s : State) (i : Nat) (t : Task) : State :=
  let t := noteMoved i t
  let s := setSplit s i (taskSplit t)
  let s := writeWords s (csBase i + recordOff s i) (padWords 8 t.record)
  let s := match t.mbox with
    | some m => if unstartedOf m t then clearFull s m else s
    | none => s
  if t.slot.isSome then startRestore s i t else startFresh s i t

def taskDispatch (s : State) (h : Nat) : State :=
  if !dispatchOpen s then s
  else match nextTask s h with
    | none => s
    | some (t, i) =>
      let s := modHearth s h fun x => { x with ready := x.ready.erase t }
      if wfield t.record 0 63 48 != 0x0A53 then failTask s i t 0 0 else giveTask s i t

def execTaskDispatch (h : HearthId) (s : State) : Host.Outcome State Fault Refusal := .next (taskDispatch s h.val)

/-! ## Completion (R30, R148) -/

/-- The core holds no task; its anvils know no last pass and no poisoned set. -/
def clearTask (s : State) (i : Nat) : State :=
  modCore s i fun c => { c with
    anvils := c.anvils.map fun x => { x with lastPass := none, poison := false }, heldWaits := [], task := none, ended := none, endedParts := 0, preq := none, upd := [], ctx0 := .reset, ctx1 := .reset }

/-- A re-execution that completes ends the run of failures of R378. -/
def noteReexec (s : State) (i : Nat) (t : Task) : State :=
  if 0 < t.fails then modCore s i fun c => { c with reFails := 0 } else s

def taskComplete (s : State) (i : Nat) (k : CtxId) : State :=
  match (coreAt s i).task with
  | none => s
  | some t =>
    if quenched s || !(ctxAt s i k).partDone || !t.parts.toNat.testBit k.val then s
    else
      let t := { t with parts := t.parts &&& ~~~(BitVec.ofNat 2 (2 ^ k.val)) }
      let s := modCore s i fun c => { c with task := some t }
      if t.parts = 0 then settleStep (clearTask (entryTaskOver (noteReexec s i t) t false) i) else s

def execTaskComplete (core : CoreId) (ctx : CtxId) (s : State) : Host.Outcome State Fault Refusal :=
  .next (taskComplete s core.val ctx)

/-! ## Return -/

/-- A save slot is free again. -/
def dropSlot (s : State) (t : Task) : State := match t.slot with
  | some k => modHearth s (k / 256) fun h => { h with slots := h.slots.filter (· != k % 256) }
  | none => s

/-- R378: two successive re-executions ended by residue faults retire the core. -/
def noteReFail (s : State) (i : Nat) (t : Task) (residue : Bool) : State :=
  if t.fails = 0 || !residue then s
  else
    let s := modCore s i fun c => { c with reFails := c.reFails + 1 }
    if 2 ≤ (coreAt s i).reFails then dueRetire s i 3 else s

def otherCore (s : State) (i : Nat) : Bool :=
  (hearthCoreIds (hearthOf i)).any fun c => c != i && inService s c

/-- A task abandoned on a hardware fault: poison drops its micro-batch; any other fault re-executes it, until the fault of
a re-execution on another core, or the lack of one, ends it (R141). -/
def returnFaulted (s : State) (i : Nat) (t : Task) (code : Nat) (residue : Bool) : State :=
  let pc := getF s (CORE_FAULTPC i) CORE_FAULTPC_PC
  let parts := if taskSplit t then (coreAt s i).endedParts else 1
  let s := noteReFail (dropSlot s t) i t residue
  let t' := { t with slot := none, fails := t.fails + 1, lastCore := some i, parts := parts, kept := [], mons := [] }
  let s := clearTask s i
  if code = faultPoison || t.moved || ((2 ≤ t'.fails || !inService s i) && !otherCore s i) then failTask s i t code pc
  else queueHead s (hearthOf i) t'

def returnFailed (s : State) (i : Nat) (t : Task) : State :=
  let code := getF s (CORE_FAULT i) CORE_FAULT_CODE
  let pc := getF s (CORE_FAULTPC i) CORE_FAULTPC_PC
  failTask (clearTask (dropSlot s t) i) i t code pc

/-- Every context of the task is over: nothing of it runs on. -/
def contextsOver (s : State) (i : Nat) : Bool :=
  (ctxAt s i 0).over && (!isSplit s i || (ctxAt s i 1).over)

def taskReturn (s : State) (i : Nat) : State :=
  match (coreAt s i).task, (coreAt s i).ended with
  | some t, some e =>
    if quenched s || !contextsOver s i then s
    else match e with
      | .preempted true => queueTail (clearTask s i) (hearthOf i) t
      | .preempted false => queueHead (clearTask s i) (hearthOf i) t
      | .program => returnFailed s i t
      | .hardware code residue => returnFaulted s i t code residue
  | _, _ => s

def execTaskReturn (core : CoreId) (s : State) : Host.Outcome State Fault Refusal := .next (taskReturn s core.val)

/-! ## Dispatcher requests (R143, R145, R206, R207) -/

/-- The contexts at a YIELD.IF go on; the request is withdrawn. -/
def resumeIfs (s : State) (i : Nat) : State :=
  modCore (ctxIds.foldl (fun t k =>
    if (ctxAt t i k).stat = .atYield && !(ctxAt t i k).yieldNow then
      setCtxAt t i k { (ctxAt t i k) with stat := .running }
    else t) s) i fun c => { c with preq := none }

/-- The program counter of the context that has not reached a yield point. -/
def runningPc (s : State) (i : Nat) : Nat :=
  match (liveCtxs s i).find? fun k => (ctxAt s i k).stat != .atYield with
  | some k => (ctxAt s i k).pc
  | none => (ctxAt s i 0).pc

def giveUpRequest (s : State) (i : Nat) : State :=
  let s := satF (makeRecord s (srcCore i) 0x10B [w64 (runningPc s i)]) (CORE_FAULTCNT i) CORE_FAULTCNT_YIELDTO 1
  resumeIfs s i

def yieldWait (s : State) (i : Nat) : Nat := getF s (CORE_SEQCTL i) CORE_SEQCTL_YIELD_WAIT * 1000

/-- The dispatcher of a domain that leaves asks for the task, under LEAVE_POLICY 1; a request during an abort or a
save is discarded. -/
def dispatcherRequest (s : State) (i : Nat) : State :=
  let c := coreAt s i
  if quenched s || c.task.isNone || c.ended.isSome || c.preq.isSome || coreSaving s i
      || domState s (domOf i) != domLeaving || !flag s (CORE_TILECTL i) CORE_TILECTL_LEAVE_POLICY
      || (liveCtxs s i).isEmpty then s
  else
    let s := settleYield (modCore s i fun c => { c with preq := some s.now }) i
    if yieldWait s i = 0 && !coreSaving s i && (coreAt s i).preq.isSome then giveUpRequest s i else s

def execDispatcherRequest (core : CoreId) (s : State) : Host.Outcome State Fault Refusal :=
  .next (dispatcherRequest s core.val)

def yieldTimeout (s : State) (i : Nat) : State :=
  match (coreAt s i).preq with
  | none => s
  | some t => if quenched s || coreSaving s i || s.now - t < yieldWait s i then s else giveUpRequest s i

def execYieldTimeout (core : CoreId) (s : State) : Host.Outcome State Fault Refusal :=
  .next (yieldTimeout s core.val)

/-! ## Split mode (R149) -/

def tagsLive (s : State) (i : Nat) : Bool :=
  (coreAt s i).anvils.any fun x => x.active.st != .empty || x.shadow.st != .empty || x.drain.isSome || x.load.isSome

def splitWrite (s : State) (i : Nat) (v : Bool) : State :=
  if tagsLive s i then makeRecord s srcSmith 0x107 [] else setSplit s i v

def execSplitWrite (core : CoreId) (val : Bool) (s : State) : Host.Outcome State Fault Refusal :=
  .next (splitWrite s core.val val)

end Sys2Proof.Machine
end

