-- ==== Sys2Proof/Machine/Save.lean ====
section
/-! DEFINITION. The save at a yield point and its restore (R134 to R138, R208, R209, Tables 5-11, 5-12, 7-17). -/

namespace Sys2Proof.Machine

/-! ## Instruction words (Table 7-4) -/

def insnHigh (op : Nat) (f : Fields) : Nat :=
  viewFields 0 [(63, 56, op), (55, 55, bit f.pneg), (54, 52, f.pred.toNat), (51, 51, bit f.sigen),
    (50, 47, f.sigc.toNat), (46, 40, f.mod.toNat), (39, 34, f.d.toNat), (33, 28, f.a.toNat),
    (27, 22, f.b.toNat), (21, 16, f.c.toNat), (15, 0, f.sub.toNat)]

/-- Two little-endian words, bits 63:0 at the lower address (R180). -/
def insnWords (op : Nat) (f : Fields) : List Word64 := [f.imm, w64 (insnHigh op f)]

def insnOp (w : Word64) : Nat := bitsOf 63 56 w.toNat

def insnFields (lo hi : Word64) : Fields :=
  let n := hi.toNat
  { pneg := bitsOf 55 55 n = 1, pred := BitVec.ofNat 3 (bitsOf 54 52 n), sigen := bitsOf 51 51 n = 1
    sigc := BitVec.ofNat 4 (bitsOf 50 47 n), mod := BitVec.ofNat 7 (bitsOf 46 40 n)
    d := BitVec.ofNat 6 (bitsOf 39 34 n), a := BitVec.ofNat 6 (bitsOf 33 28 n), b := BitVec.ofNat 6 (bitsOf 27 22 n)
    c := BitVec.ofNat 6 (bitsOf 21 16 n), sub := BitVec.ofNat 16 (bitsOf 15 0 n), imm := lo }

/-! ## Save -/

def lanes2 : List CtxId := [0, 1]

/-- The pass of a lane stops after `fed` segments; one that has fed all of them is complete (R134). -/
def stopPass (fed : List Nat) (i : Nat) (s : State) (lane : CtxId) : State :=
  match lanePass s i lane with
  | none => s
  | some p =>
    let n := min p.count (fed.getD lane.val 0 * segLanes p.fmt)
    let s := applyPass s i p n
    if n = p.count then
      setEntry (setLanePass s i lane none) i (laneQueue lane) p.qid fun x => { x with ended := x.begun, finished := true }
    else setLanePass s i lane (some { p with base := p.base + n })

/-- Entries of a lane that have finished leave and signal before the save. -/
def retireLane (i : CoreId) (s : State) (lane : CtxId) : State :=
  (List.range ((coreAt s i.val).queue (laneQueue lane)).length).foldl (fun t _ => completeOldest t i (laneQueue lane)) s

/-- The interrupted pass of an anvil: FMT, POS, CHAIN and the address of its instruction. -/
structure Interrupted where
  fmt : Nat
  pos : Nat
  chain : Bool
  pc : Nat
  deriving DecidableEq, Repr

/-- A pass of the lane whose anvils are in their ramp-up; it counts as interrupted at POS 0. -/
def rampingPass (s : State) (i : Nat) (lane : CtxId) : Option QEntry :=
  (openPasses s i lane).find? fun e => (anvList (anvMask e.f)).any fun a => match (anvilAt s i a).ramp with
    | .up _ => true
    | _ => false

def interruptedOn (s : State) (i a : Nat) : Option Interrupted :=
  let lane : CtxId := if isSplit s i && 2 ≤ a then 1 else 0
  match lanePass s i lane, rampingPass s i lane with
  | some p, _ => if p.anv.toNat.testBit a then some ⟨p.fmt, p.base, p.chain, p.pc⟩ else none
  | none, some e =>
    if (anvMask e.f).testBit a then some ⟨amacFmt e.f, e.pos, amacChain e.f, e.pc⟩ else none
  | none, none => none

/-- Table 5-11. -/
def progressWords (s : State) (i a : Nat) : List Word64 :=
  let x := anvilAt s i a
  let sst := if x.shadow.st = .prepared then (if x.shadow.zeroed then 2 else 1) else 0
  let w0 := viewFields 0 [(63, 48, 0x0A51), (47, 40, x.active.tag), (39, 32, x.shadow.tag), (31, 30, sst),
    (29, 29, bit (x.active.st = .running)), (28, 28, bit (isSplit s i)), (27, 26, a)]
  match interruptedOn s i a with
  | some p => [w64 w0, w64 (viewFields 0 [(63, 56, p.fmt), (55, 43, p.pos), (42, 42, bit p.chain)]), w64 p.pc]
  | none => [w64 w0, 0, w64 (2 ^ 64 - 1)]

/-- The area of an anvil: progress record, slot A, slot B. -/
def saveAnvil (i : Nat) (s : State) (a : Nat) : State :=
  let at_ := csBase i + saveOff s i + a * 0x6380
  let x := anvilAt s i a
  let s := writeWords s at_ (padWords 16 (progressWords s i a))
  let s := if x.active.st = .running then writeBytes s (at_ + 0x80) (slotOfSet x.active) else s
  if x.shadow.st = .prepared && !x.shadow.zeroed then writeBytes s (at_ + 0x3200) (slotOfSet x.shadow) else s

/-- Entries of a lane that had not started; one that has acted on some of its anvils keeps the others. -/
def savedEntries (s : State) (i : Nat) (lane : CtxId) : List QEntry :=
  let ramping := (rampingPass s i lane).map (·.qid)
  ((coreAt s i).queue (laneQueue lane)).filter fun e => !e.started && some e.qid != ramping

def savedWords (e : QEntry) : List Word64 :=
  let m := e.f.mod.toNat
  let f := if isTile e then { e.f with mod := BitVec.ofNat 7 (putBits 6 3 m (anvMask e.f - e.begun.toNat)) } else e.f
  insnWords e.op f

def loopWords (e : LoopEntry) : List Word64 := [w64 e.count, w64 (viewFields 0 [(20, 0, e.start), (52, 32, e.stop)])]

/-- Loop stack entries 0 to 3, the outermost loop of a context first. -/
def loopArea (s : State) (i : Nat) : List Word64 :=
  let l0 := (ctxAt s i 0).loops.reverse.flatMap loopWords
  let l1 := (ctxAt s i 1).loops.reverse.flatMap loopWords
  if isSplit s i then padWords 4 l0 ++ padWords 4 l1 else padWords 8 l0

/-- Live registers, in physical numbering. -/
def liveMask (s : State) (i : Nat) : Nat :=
  if isSplit s i then
    (if (ctxAt s i 0).partDone then 0 else (ctxAt s i 0).live.toNat % 2 ^ 32)
      + (if (ctxAt s i 1).partDone then 0 else (ctxAt s i 1).live.toNat % 2 ^ 32 * 2 ^ 32)
  else (ctxAt s i 0).live.toNat

def regInfo (r : VReg) : Nat :=
  viewFields 0 [(11, 0, wrapBits 12 r.x), (12, 12, bit r.w), (13, 13, bit r.raw)]

def seqHeader (s : State) (i : Nat) : Nat :=
  let c := coreAt s i
  viewFields 0 [(63, 48, 0x0A52), (47, 43, (savedEntries s i 0).length), (42, 38, (savedEntries s i 1).length),
    (37, 35, c.ctx0.loops.length), (34, 33, if isSplit s i then c.ctx1.loops.length else 0),
    (32, 32, bit (isSplit s i)), (31, 24, c.p.toNat ||| (if isSplit s i then 0x11 else 1)),
    (1, 1, bit (isSplit s i && c.ctx1.partDone)), (0, 0, bit c.ctx0.partDone)]

/-- Bytes 0x0000 to 0x03FF of Table 7-17. -/
def seqBytes (s : State) (i : Nat) : List Byte :=
  let c := coreAt s i
  let l1 := (savedEntries s i 1).flatMap savedWords
  let head := [w64 (seqHeader s i), w64 (liveMask s i), w64 c.ctx0.pc, w64 (if isSplit s i then c.ctx1.pc else 0), 0, 0, 0, 0]
  bytesOfWords (head ++ padWords 32 c.g ++ loopArea s i)
    ++ padTo 64 (c.sc.flatMap fun v => leBytes 4 v.toNat)
    ++ bytesOfWords (if isSplit s i then padWords 16 ((savedEntries s i 0).flatMap savedWords) ++ padWords 16 l1
        else padWords 32 ((savedEntries s i 0).flatMap savedWords))
    ++ padTo 128 (c.v.flatMap fun r => leBytes 2 (regInfo r)) ++ List.replicate 192 0

/-- The sequencer save record: only live registers are written. -/
def saveSeq (s : State) (i : Nat) : State :=
  let at_ := csBase i + seqSaveOff s i
  let live := liveMask s i
  let vs := (coreAt s i).v.zipIdx
  vs.foldl (fun t p =>
    if live.testBit p.2 then writeBytes t (at_ + 0x400 + 1024 * p.2) (p.1.lanes.flatMap fun v => leBytes 4 v.toNat)
    else t) (writeBytes s at_ (seqBytes s i))

def slotAddr (s : State) (k : Nat) : Nat :=
  getPair s (HCH_SPOOL_LO (k / 256)) (HCH_SPOOL_HI (k / 256)) + 0x29200 * (k % 256)

/-- R136: both records are copied to the hearth save slot. -/
def copyToSlot (s : State) (i k : Nat) : State :=
  let a := readBytes s (csBase i + saveOff s i) saveLen
  let q := readBytes s (csBase i + seqSaveOff s i) seqSaveLen
  (memWrite s (slotAddr s k) (a ++ q)).1

/-- The entries of a lane that a restore brings back, the interrupted pass first (R135, R209). -/
def keptEntries (s : State) (i : Nat) (lane : CtxId) : List QEntry :=
  (match lanePass s i lane with
    | some p => entryOf s i (laneQueue lane) p.qid
    | none => rampingPass s i lane).toList ++ savedEntries s i lane

/-- The core holds nothing of the task any more; the task keeps what its entries were at issue (log entry 43). -/
def leaveCore (s : State) (i : CoreId) (voluntary : Bool) : State :=
  let kept := lanes2.map (keptEntries s i.val)
  let mons := lanes2.map fun k => (ctxAt s i.val k).mons
  syncGrants (modCore s i.val fun c =>
    { clearPartition c [0, 1, 2, 3] with
      anv0 := [], anv1 := [], pass0 := none, pass1 := none, ctx0 := .reset, ctx1 := .reset, heldWaits := []
      task := c.task.map fun t => { t with kept := kept, mons := mons }
      ended := some (.preempted voluntary), preq := none }) i

/-- The set that a slot takes: a Prepared one that was loaded, in slot B; the Running one, in slot A (R134). -/
def slotSet (x : Anvil) (slotB : Bool) : Option AccSet :=
  if slotB then (if x.shadow.st = .prepared && !x.shadow.zeroed then some x.shadow else none)
  else if x.active.st = .running then some x.active else none

/-- A bit flipped in a value on its way to a slot. -/
def upsetSlot (s : State) (i : Nat) (u : SaveUpset) : State :=
  modAnvil s i u.anvil.val fun x =>
    if (slotSet x u.slotB).isNone then x
    else if u.slotB then { x with shadow := upsetSet x.shadow u.row.val u.at_ }
    else { x with active := upsetSet x.active u.row.val u.at_ }

/-- Column and row of the first mismatch of a drained set, from row 31. -/
def setMiss (x : AccSet) : Option (Nat × Nat) :=
  (List.range 32).reverse.findSome? fun r => (residueMiss x r).map fun c => (c, r)

/-- Anvil, column and row of the first mismatch of a save; slot B drains before slot A. -/
def saveMiss (s : State) (i : Nat) : Option (Nat × Nat × Nat) :=
  (List.range 4).findSome? fun a =>
    (((slotSet (anvilAt s i a) true).bind setMiss).or ((slotSet (anvilAt s i a) false).bind setMiss)).map fun p => (a, p)

/-- A residue fault of a save discards it (R125, R141); it names the program counter of its context (log entry 174). -/
def saveResidue (s : State) (i a col row : Nat) : State :=
  let k : CtxId := if isSplit s i && 2 ≤ a then 1 else 0
  faultAbort (reportResidue s i a col row) i k (queueCode (anvilLane s i a)) faultTile (ctxAt s i k).pc false true

/-- Every condition of R134 and R208 before the sets leave. -/
def saveReady (s : State) (i : Nat) : Bool :=
  let c := coreAt s i
  coreSaving s i && !quenched s && c.vec.isEmpty && c.tongs.isEmpty && c.fab.isEmpty
    && c.anvils.all fun x => x.load.isNone && x.drain.isNone && x.shadow.st != .finished

def saveComplete (s : State) (i : CoreId) (fed : List Nat) (upset : Option SaveUpset) : State :=
  match (coreAt s i.val).task.bind (·.slot) with
  | none => s
  | some k =>
    if !saveReady s i.val then s
    else
      let s := lanes2.foldl (stopPass fed i.val) s
      let s := lanes2.foldl (retireLane i) s
      let s := (upset.map (upsetSlot s i.val)).getD s
      match saveMiss s i.val with
      | some m => saveResidue s i.val m.1 m.2.1 m.2.2
      | none =>
        let s := (List.range 4).foldl (saveAnvil i.val) s
        let s := copyToSlot (saveSeq s i.val) i.val k
        leaveCore s i (coreAt s i.val).preq.isNone

def execSaveComplete (core : CoreId) (report : SaveReport) (s : State) :
    Host.Outcome State Fault Refusal :=
  .next (saveComplete s core report.fed report.upset)

/-! ## Restore -/

/-- A progress record that a restore refuses. -/
def progressBad (ws : List Word64) : Bool :=
  wfield ws 0 63 48 != 0x0A51 || wfield ws 0 31 30 = 3 || 4096 < wfield ws 1 55 43

def progressAt (s : State) (i a : Nat) : List Word64 := readWords s (csBase i + saveOff s i + a * 0x6380) 3

/-- The sets of an anvil as its area holds them (R137); the swap makes slot A the Running instance. -/
def restoreAnvil (i : Nat) (s : State) (a : Nat) : State :=
  let off := saveOff s i + a * 0x6380
  let ws := progressAt s i a
  let active : AccSet := if wfield ws 0 29 29 = 1 then
      { setOfSlot s i (off + 0x80) (wfield ws 0 47 40) with st := .running } else .cleared
  let shadow : AccSet := match wfield ws 0 31 30 with
    | 1 => setOfSlot s i (off + 0x3200) (wfield ws 0 39 32)
    | 2 => zeroSet (wfield ws 0 39 32)
    | _ => .cleared
  modAnvil s i a fun x => { x with
    active := active, shadow := shadow
    lastPass := if wfield ws 0 29 29 = 1 then some (wfield ws 0 47 40) else none }

/-- An instruction re-enters its lane. Its g operands, predicate and address are those of its issue, which the task has kept
(R176, R182); without them it is formed anew, its address a free value (log entry 43). -/
def reenter (i : Nat) (k : CtxId) (old : Option QEntry) (pos : Nat) (s : State) (lo hi : Word64) : State :=
  let d := drawFree s
  let s := if old.isSome then s else d.2
  let f := insnFields lo hi
  let new := newEntry s i k (insnOp hi) f (!predicate s i k f)
  let e := match old with
    | some x => { new with pc := x.pc, off := x.off, ga := x.ga, gb := x.gb, gc := x.gc, gd := x.gd, pos := pos }
    | none => { new with pc := d.1.toNat % 2 ^ 17 * 16, pos := pos }
  modCore s i fun c => { c.setQueue (laneQueue k) (c.queue (laneQueue k) ++ [e]) with nextQid := c.nextQid + 1 }

/-- The anvil whose record names the interrupted pass of a lane. -/
def interruptedRecord (s : State) (i : Nat) (lane : CtxId) : Option (List Word64) :=
  let as := if isSplit s i then partition true lane else if lane = 0 then [0, 1, 2, 3] else []
  (as.map (progressAt s i)).find? fun ws => wfield ws 2 63 0 != 2 ^ 64 - 1

/-- The interrupted pass, whose address its record gives; its words are read there. -/
def reissue (i : Nat) (s : State) (lane : CtxId) (old : Option QEntry) (ws : List Word64) : State :=
  let pc := wfield ws 2 20 0 / 16 * 16
  let lo := readWord s (csBase i + pc)
  let hi := readWord s (csBase i + pc + 8)
  let f := insnFields lo hi
  let new := newEntry s i lane (insnOp hi) f (!predicate s i lane f)
  reenter i lane (some { old.getD new with pc := pc }) (wfield ws 1 55 43) s lo hi

/-- The interrupted pass is re-issued from POS, then the saved entries follow (R135, R209). -/
def restoreLane (i : Nat) (s : State) (lane : CtxId) : State :=
  let at_ := csBase i + seqSaveOff s i
  let old := (((coreAt s i).task.map (·.kept)).getD []).getD lane.val []
  let int := interruptedRecord s i lane
  let rest := if int.isSome then old.drop 1 else old
  let s := match int with
    | some ws => reissue i s lane old.head? ws
    | none => s
  let h := readWords s at_ 1
  let n := if lane = 0 then wfield h 0 47 43 else wfield h 0 42 38
  (List.range n).foldl (fun t j =>
    let a := at_ + 0x1C0 + 16 * (8 * lane.val + j)
    reenter i lane rest[j]? 0 t (readWord t a) (readWord t (a + 8))) s

def restoreReg (s : State) (at_ live n : Nat) : VReg :=
  if live.testBit n then
    let v := fieldLE (readBytes s (at_ + 0x2C0 + 2 * n) 2) 0 2
    ⟨(List.range 256).map fun l => BitVec.ofNat 32 (ofLE (readBytes s (at_ + 0x400 + 1024 * n + 4 * l) 4)),
      sext 12 (bitsOf 11 0 v), bitsOf 12 12 v = 1, bitsOf 13 13 v = 1⟩
  else .clear

def restoreLoops (s : State) (at_ first n : Nat) : List LoopEntry :=
  ((List.range n).map fun j =>
    let ws := readWords s (at_ + 0x140 + 16 * (first + j)) 2
    (⟨wfield ws 0 63 0, wfield ws 1 20 0 / 16 * 16, wfield ws 1 52 32 / 16 * 16⟩ : LoopEntry)).reverse

/-- A context resumes at RESUME, unless its part was done; the records it had named stay named (R199). -/
def restoreCtx (done : Bool) (pc : Nat) (loops : List LoopEntry) (mons : List (Nat × Nat × Nat)) : Ctx :=
  if done then { Ctx.reset with partDone := true }
  else { Ctx.reset with stat := .running, pc := pc / 16 * 16, loops := loops, mons := mons }

/-- Registers, loop stacks, counters and contexts of the sequencer save record. -/
def restoreSeq (s : State) (i : Nat) : State :=
  let at_ := csBase i + seqSaveOff s i
  let ws := readWords s at_ 4
  let live := wfield ws 1 63 0
  let split := isSplit s i
  let mons := fun (k : Nat) => (((coreAt s i).task.map (·.mons)).getD []).getD k []
  modCore s i fun c => { c with
    g := readWords s (at_ + 0x40) 32, p := BitVec.ofNat 8 (wfield ws 0 31 24)
    sc := (List.range 16).map fun n => BitVec.ofNat 32 (ofLE (readBytes s (at_ + 0x180 + 4 * n) 4))
    v := (List.range 64).map (restoreReg s at_ live)
    ctx0 := restoreCtx (wfield ws 0 0 0 = 1) (wfield ws 2 20 0) (restoreLoops s at_ 0 (wfield ws 0 37 35)) (mons 0)
    ctx1 := if split then restoreCtx (wfield ws 0 1 1 = 1) (wfield ws 3 20 0)
        (restoreLoops s at_ 2 (wfield ws 0 34 33)) (mons 1) else .reset }

/-- What a restore finds wrong: the record types, SSTATE and POS (Tables 5-11, 7-17), or save areas of the
receiving core that do not hold the records. -/
def restoreFault (s : State) (i : Nat) : Option Nat :=
  firstFault [
    faultIf (wfield (readWords s (csBase i + seqSaveOff s i) 1) 0 63 48 != 0x0A52) faultFormat,
    faultIf ((List.range 4).any fun a => progressBad (progressAt s i a)) faultFormat,
    faultIf ((lanes2.any fun l => match interruptedRecord s i l with
      | some ws => insnOp (readWord s (csBase i + wfield ws 2 20 0 / 16 * 16 + 8)) != opAmac
      | none => false)) faultIllegal]

/-- The slot stands in the core's own save areas, and is free again. -/
def copyFromSlot (s : State) (i : Nat) (t : Task) (bs : List Byte) : State :=
  let s := writeBytes s (csBase i + saveOff s i) (bs.take saveLen)
  let s := writeBytes s (csBase i + seqSaveOff s i) (bs.drop saveLen)
  modCore (dropSlot s t) i fun c => { c with task := some { t with slot := none } }

/-- An uncorrectable error of the save areas is CAUSE 3 (Table 5-19). -/
def restoreTask (s : State) (i : CoreId) (ecc : Bool) : State :=
  if ecc then faultAbort (setTileFault s i.val 0 0 0 0 3) i.val 0 0 faultTile 0 false
  else match restoreFault s i.val with
  | some code => faultAbort s i.val 0 0 code 0 false
  | none =>
    let s := restoreSeq s i.val
    let s := (List.range 4).foldl (restoreAnvil i.val) s
    let s := lanes2.foldl (restoreLane i.val) s
    lanesPump (modCore s i.val fun c => { c with task := c.task.map fun t => { t with kept := [], mons := [] } }) i

def taskRestore (s : State) (i : CoreId) (ecc : Bool) : State :=
  match (coreAt s i.val).task with
  | none => s
  | some t => match t.slot with
    | none => s
    | some k =>
      if quenched s || (coreAt s i.val).ctx0.stat != .restoring then s
      else
        let r := memRead s (slotAddr s k) (saveLen + seqSaveLen)
        if csSize < saveOff s i.val + saveLen || seqSaveBad s i.val then faultAbort (dropSlot s t) i.val 0 0 faultAddress 0 false
        else match r.2.1 with
          | .poison => faultAbort r.1 i.val 0 0 faultPoison 0 false
          | .unassigned => faultAbort r.1 i.val 0 0 faultAddress 0 false
          | .ok => restoreTask (copyFromSlot r.1 i.val t r.2.2) i ecc

def execTaskRestore (record : CoreRead) (s : State) : Host.Outcome State Fault Refusal :=
  .next (taskRestore s record.core record.eccErr)

end Sys2Proof.Machine
end

