-- ==== Sys2Proof/Machine/Schedule.lean ====
section
/-! DEFINITION. The schedule of a step (R217 to R224, R228, R234, R236, R361, R366, R367): what a hearth's
dispatcher releases, skips and completes, and the release of the step-end entry. -/

namespace Sys2Proof.Machine

/-! ## Entries (Table 8-4) -/

def schedCount (s : State) : Nat := bitsOf 31 0 (readWord s (jobWord s 6)).toNat
def schedEntry (s : State) (k : Nat) : Nat := ofLE (readBytes s (jobWord s 6 + 8 + 4 * k) 4)

def entryKind (e : Nat) : Nat := bitsOf 31 30 e
def entryChunk (e : Nat) : Nat := bitsOf 29 27 e
def entryMb (e : Nat) : Nat := bitsOf 15 0 e

def entryDesc (s : State) (e : Nat) : List Word64 := phaseDesc s (entryKind e) (entryChunk e)
def arrivalAddr (s : State) (e : Nat) : Nat := wfield (entryDesc s e) 2 63 0 + 8 * entryMb e
def arrivalWord (s : State) (e : Nat) : Word64 := readWord s (arrivalAddr s e)

def dropSet (w : Word64) : Bool := bitsOf 63 63 w.toNat = 1

/-- R367. -/
def replicaIdle (s : State) : Bool := flag s SURV_STATUS SURV_STATUS_IDLE

/-- The entry is skipped (R220, R367). -/
def skips (s : State) (e : Nat) : Bool := dropSet (arrivalWord s e) || replicaIdle s

/-- The arrivals that make the phase ready are in. -/
def arrived (s : State) (e : Nat) : Bool :=
  wfield (entryDesc s e) 1 31 0 ≤ bitsOf 31 0 (arrivalWord s e).toNat

/-! ## What a step waits for -/

/-- The first entry of a step: the commit of the last step is durable, no change is in flight, a partner holds
a current copy, and the job is not ending (R361, R366, R370, R338). -/
def stepOpen (s : State) : Bool :=
  !atBoundary s ||
    ((s.job.map fun j => j.stat != .ending).getD false && s.surv.change.isNone && !s.surv.haltSeen
      && (s.surv.plan.isEmpty ||
        (s.surv.commitDue.isNone && (s.surv.commitStep.isNone || s.surv.durable) && !s.surv.copying
          && partnerValid s)))

def dpGroup (s : State) : Nat := bitsOf 47 32 (jobWord s 4)

/-- A descriptor of an all-gather of a layer of chunk `c` over the data-parallel group. -/
def gathersChunk (s : State) (c : Nat) (desc : List Word64) : Bool :=
  wfield desc 0 47 32 = dpGroup s && layerChunk s (wfield desc 5 43 34) = c

/-- An all-gather of the chunk that a core has issued and that has not reached the engines. -/
def gatherQueued (s : State) (c i : Nat) : Bool :=
  (coreAt s i).fab.any fun e =>
    !e.started && !e.off && e.op = opFcoll && fcollOp e.f = .allGather && gathersChunk s c (collDesc s i e)

/-- No all-gather of working rows of chunk `c` is in progress on the data-parallel group or waits for the engines, and no
row is being read again (R236, R372; log entry 45). -/
def rowsArrived (s : State) (c : Nat) : Bool :=
  s.surv.rereads.isEmpty
    && (match instOf s (dpGroup s) with
      | some x => x.op != .allGather || !gathersChunk s c x.desc
      | none => true)
    && (List.range 128).all fun i => !gatherQueued s c i

/-! ## What the dispatcher reads (R244, R248, R249, R252) -/

/-- Address of the phase descriptor of an entry (Table 8-5). -/
def descAddr (s : State) (e : Nat) : Nat := jobWord s 7 + 32 * (8 * entryKind e + entryChunk e)

/-- The count of the list, its entry `k`, the descriptor of the entry and its arrival word. -/
def entryReads (s : State) (k : Nat) : List (Nat × Nat) :=
  let e := schedEntry s k
  [(jobWord s 6, 8), (jobWord s 6 + 8 + 4 * k, 4), (descAddr s e, 32), (arrivalAddr s e, 8)]

/-- The task records of a phase. -/
def recordReads (d : List Word64) : List (Nat × Nat) := [(wfield d 0 63 0, 64 * wfield d 1 63 32)]

/-- The dispatcher of a hearth stands at entry `k` of the list. -/
def standsAt (s : State) (h : Nat) : Option Nat :=
  let k := (hearthAt s h).walk
  if s.job.isSome && k < schedCount s && dispatchOpen s && stepOpen s then some k else none

/-- It stands at an entry of a phase, which it can read: an access that is refused leaves the entry held (log
entry 184). -/
def atPhase (s : State) (h : Nat) : Option Nat :=
  (standsAt s h).filter fun k => entryKind (schedEntry s k) ≤ 1 && allOpen s (entryReads s k)

/-! ## Tasks of a phase (R220, R221) -/

/-- The task records of a phase. -/
def phaseTasks (s : State) (d : List Word64) : List (List Word64) :=
  (List.range (wfield d 1 63 32)).map fun k => readWords s (wfield d 0 63 0 + 64 * k) 8

def hearthTasks (s : State) (d : List Word64) (h : Nat) : List (List Word64) :=
  (phaseTasks s d).filter fun ws => taskHearth ws = h

/-- The hearth queues its tasks of entry `k`, with MB and STEP written into each copy. -/
def queueTasks (s : State) (h k mb : Nat) (tasks : List (List Word64)) : State :=
  let s := tasks.foldl (fun t ws =>
    queueTail t h (newTask (stampRecord ws mb (w64 (jobStep t))) (some k) none)) s
  modHearth s h fun x => { x with out := x.out ++ [⟨k, tasks.length, false⟩] }

/-- The dispatcher moves on in the list. -/
def walkOn (s : State) (h : Nat) : State :=
  modHearth s h fun x => { x with walk := x.walk + 1, heldSince := some s.now, stalled := false }

/-- The first release of a job completes its JOB_START (Table 12-5). -/
def noteStarted (s : State) : State := match s.job with
  | some j =>
    if j.started then s
    else modJob (finishIf s j.item 0 j.step) fun j => { j with started := true }
  | none => s

def outstanding (s : State) (h : Nat) : Nat := ((hearthAt s h).out.filter fun e => e.left != 0).length

/-- The arrivals are in, with the working rows of a forward entry (R236), and the task records can be read. -/
def phaseReady (s : State) (e : Nat) : Bool :=
  arrived s e && (entryKind e != 0 || rowsArrived s (entryChunk e)) && allOpen s (recordReads (entryDesc s e))

def phaseRelease (s : State) (h : Nat) : State :=
  match atPhase s h with
  | none => s
  | some k =>
    let e := schedEntry s k
    if skips s e || !phaseReady s e || 2 ≤ outstanding s h then s
    else
      let t := touchReads (noteStarted s) (entryReads s k ++ recordReads (entryDesc s e))
      walkOn (queueTasks t h k (entryMb e) (hearthTasks s (entryDesc s e) h)) h

def execPhaseRelease (h : HearthId) (s : State) : Host.Outcome State Fault Refusal := .next (phaseRelease s h.val)

/-! ## DROP (R220, R223) -/

def dropBit : Word64 := w64 (2 ^ 63)

/-- DROP is ORed into the word of the consuming phase, through the crucible of its home. -/
def dropNext (s : State) (e : Nat) : State :=
  let nxt := (entryDesc s e).getD 3 0
  if nxt = 0 then s
  else match placeOf s 2 (w64 (nxt.toNat + 8 * entryMb e)) with
    | .node n a =>
      let t := takeTag s
      sendRequest t.2 n (atomicFrame s n a 2 t.1 dropBit 0) .line 0 0 8
    | .mem a => (atomicAt s a 2 dropBit 0).1
    | .cs _ => s

def phaseSkip (s : State) (h : Nat) : State :=
  match atPhase s h with
  | none => s
  | some k =>
    let e := schedEntry s k
    if skips s e then walkOn (dropNext (touchReads (noteStarted s) (entryReads s k)) e) h else s

def execPhaseSkip (h : HearthId) (s : State) : Host.Outcome State Fault Refusal := .next (phaseSkip s h.val)

/-! ## The end of an entry -/

def runOf (x : Hearth) (k : Nat) : Option EntryRun := x.out.find? (·.idx = k)

/-- Every hearth has passed the entry, and no task of it is left anywhere. -/
def entryTasksOver (s : State) (k : Nat) : Bool :=
  s.hearths.all fun x => k < x.walk && ((runOf x k).map fun e => e.left == 0).getD true

/-- A hearth has skipped the entry, and another has released it: the micro-batch is no completed one (R228). -/
def entrySkipped (s : State) (k : Nat) : Bool := s.hearths.any fun x => k < x.walk && (runOf x k).isNone

def entryFailed (s : State) (k : Nat) : Bool :=
  s.hearths.any fun x => ((runOf x k).map (·.failed)).getD false

def dropRun (s : State) (k : Nat) : State :=
  { s with hearths := s.hearths.map fun x => { x with out := x.out.filter (·.idx != k) } }

/-- The oldest entry of a hearth whose tasks are over on the whole device, failed or not as asked. -/
def overEntry (s : State) (h : Nat) (failed : Bool) (p : Nat → Bool) : Option Nat :=
  ((hearthAt s h).out.map (·.idx)).find? fun k => entryTasksOver s k && entryFailed s k == failed && p (schedEntry s k)

def gradHeader (s : State) (l : Nat) : Nat := jobWord s 10 + 16 * l

def chunkLayers (s : State) (c : Nat) : List Nat := (List.range (jobLayers s)).filter fun l => layerChunk s l = c

/-- COUNT of a layer's header rises by 1 (Table 8-8). -/
def countLayer (s : State) (l : Nat) : State :=
  let v := (readWord s (gradHeader s l)).toNat
  (memWrite s (gradHeader s l) (leBytes 8 (putBits 15 0 v (satAdd 0xFFFF (bitsOf 15 0 v) 1)))).1

def taintLayer (s : State) (l : Nat) : State :=
  (memWrite s (gradHeader s l) (leBytes 8 (putBits 31 31 (readWord s (gradHeader s l)).toNat 1))).1

def backwardComplete (s : State) (h : Nat) : State :=
  if s.job.isNone || quenched s then s
  else match overEntry s h false (fun e => entryKind e = 1) with
    | none => s
    | some k =>
      dropRun (if entrySkipped s k then s else (chunkLayers s (entryChunk (schedEntry s k))).foldl countLayer s) k

def execBackwardEntryComplete (h : HearthId) (s : State) : Host.Outcome State Fault Refusal :=
  .next (backwardComplete s h.val)

/-- R223. -/
def phaseFail (s : State) (h : Nat) : State :=
  if s.job.isNone || quenched s then s
  else match overEntry s h true (fun e => entryKind e ≤ 1) with
    | none => s
    | some k =>
      let e := schedEntry s k
      let s := dropNext s e
      dropRun (if entryKind e = 1 then (chunkLayers s (entryChunk e)).foldl taintLayer s else s) k

def execPhaseFail (h : HearthId) (s : State) : Host.Outcome State Fault Refusal := .next (phaseFail s h.val)

/-! ## A stalled schedule (R224) -/

def jobRank (s : State) : Nat := bitsOf 55 48 (jobWord s 3)

/-- The dispatcher holds entry `k`: a phase that is not ready, or the step end before its release (R220, R236). -/
def holds (s : State) (k : Nat) : Bool :=
  let e := schedEntry s k
  if entryKind e ≤ 1 then !allOpen s (entryReads s k) || (!skips s e && !phaseReady s e)
  else (s.job.map fun j => j.stepEnd == 0).getD false

def scheduleStall (s : State) (h : Nat) : State :=
  let x := hearthAt s h
  let lim := bitsOf 31 0 (jobWord s 14)
  match standsAt s h, x.heldSince with
  | some k, some t =>
    let e := schedEntry s k
    if x.stalled || lim = 0 || !holds s k || s.now - t < lim * 1000000 then s
    else
      let ws := [w64 (jobRank s), w64 e, arrivalWord s e]
      let s := modHearth s h fun x => { x with stalled := true }
      postRecord (makeRecord s (srcHearth h) 0x283 ws) (headWord s 0x0405 0 :: ws)
  | _, _ => s

def execScheduleStall (h : HearthId) (s : State) : Host.Outcome State Fault Refusal :=
  .next (scheduleStall s h.val)

/-! ## The step-end entry (R220, R230, R369) -/

/-- Every hearth has completed or skipped every entry before the last. -/
def earlierOver (s : State) : Bool :=
  s.hearths.all fun x => x.walk + 1 = schedCount s
    && x.out.all fun e => e.left = 0 && !e.failed && entryKind (schedEntry s e.idx) = 0

/-- The lowest 8-byte word of a range whose bits 63 to 32 hold a value (log entry 46). -/
def findRecord (s : State) (base len tag : Nat) : Option Nat :=
  ((List.range (len / 8)).map (base + 8 * ·)).find? fun a => bitsOf 63 32 (readWord s a).toNat = tag

/-- The job descriptor of an adopted shard, in the static extents of its window. -/
def wardJob (s : State) (w : Ward) : Option Nat := findRecord s w.base w.len (0x0B10 * 2 ^ 16 + 1)

/-- The KIND 2 phase of an adopted shard. -/
def wardStepEnd (s : State) (w : Ward) : List (List Word64) := match wardJob s w with
  | some a => phaseTasks s (readWords s ((readWord s (a + 56)).toNat + 32 * 16) 4)
  | none => []

def adoptedTasks (s : State) : List (List Word64) :=
  (s.surv.wards.filter fun w => s.surv.adopts.contains w.node).flatMap (wardStepEnd s)

def stepEndRelease (s : State) : State :=
  match s.job with
  | none => s
  | some j =>
    let k := schedCount s - 1
    let reads := [(jobWord s 7 + 32 * 16, 32)] ++ recordReads (phaseDesc s 2 0)
    if j.stepEnd != 0 || !dispatchOpen s || !stepOpen s || !earlierOver s || entryKind (schedEntry s k) != 2
        || !allOpen s reads then s
    else
      let tasks := phaseTasks s (phaseDesc s 2 0) ++ adoptedTasks s
      let s := modJob (touchReads (noteStarted s) reads) fun j => { j with stepEnd := 1 }
      (List.range 16).foldl (fun t h =>
        walkOn (queueTasks t h k 0 (tasks.filter fun ws => taskHearth ws = h)) h) s

def execStepEndRelease (s : State) : Host.Outcome State Fault Refusal := .next (stepEndRelease s)

end Sys2Proof.Machine
end

