-- ==== Sys2Proof/Machine/Ctrl.lean ====
section
/-! DEFINITION. Control lines as the engines take them (R306 to R327), and the job-wide reset (R325). -/

namespace Sys2Proof.Machine

/-! ## What a reset does at a member (R325) -/

/-- A task of the job, and not of a mailbox. -/
def jobTask (t : Task) : Bool := t.entry.isSome

/-- A fabric instruction of the job completes with the fabric fault, which its context records. -/
def failFabrics (s : State) (i : Nat) (k : CtxId) : State :=
  match (coreAt s i).fab.find? (·.ctx = k) with
  | some e => faultAbort s i k (queueCode .fab) faultFabric e.pc false
  | none => s

/-- A task on a core is abandoned: nothing of it runs on and no outcome is reported. -/
def abandonCore (s : State) (i : Nat) : State :=
  match (coreAt s i).task with
  | none => s
  | some t =>
    if !jobTask t then s
    else
      let sp := isSplit s i
      let s := failFabrics (failFabrics s i 0) i 1
      let s := modCore s i fun c =>
        let c := abortCore sp c 0 faultFabric false
        if sp then abortCore sp c 1 faultFabric false else c
      clearTask (dropSlot s t) i

/-- The tasks of the job in a ready queue are abandoned, with their save slots. -/
def abandonReady (s : State) (h : Nat) : State :=
  let ts := (hearthAt s h).ready.filter jobTask
  let s := ts.foldl dropSlot s
  modHearth s h fun x => { x with ready := x.ready.filter (!jobTask ·), walk := 0, out := [], stalled := false }

def abandonTasks (s : State) : State :=
  (List.range 16).foldl abandonReady ((List.range 128).foldl abandonCore s)

/-- An instance whose instruction is gone, or that the device issued itself. -/
def instOrphan (s : State) (x : Inst) : Bool := (entryOf s x.core.val .fab x.qid).isNone

/-- The instance is abandoned, with the lines that wait for credit and an open snapshot. -/
def abandonInst (s : State) (x : Inst) : State :=
  match groupAt s x.group with
  | none => dropInst s x.group
  | some g =>
    closeSnap (withdrawInst s g x) x

/-- The job stands at the start of its current step. -/
def rewindJob (s : State) : State :=
  let s := match s.job with
    | some j => finishIf s j.relItem stIgnored j.step
    | none => s
  modJob s fun j => { j with
    stat := if j.stat = .heldWiden || j.stat = .heldRatio then .running else j.stat
    stepEnd := 0, skipUpdate := false, ratio := false, widenDue := false, relItem := none, payload := []
    vector := [] }

/-- Steps 1 to 4 of R325. -/
def resetMember (s : State) (group : Nat) : State :=
  let s := abandonTasks s
  let s := (s.coll.insts.filter fun x => x.group = group || instOrphan s x).foldl abandonInst s
  if s.job.isSome then clearArrivals (clearGrads (rewindJob s) (jobStep s)) else s

/-! ## The reset over the tree -/

/-- INST of the lines of a reset (log entry 51). -/
def resetInst : Nat := 0xFFFFFFFF

/-- The items of this device that asked for the reset of a group complete when it has released. -/
def resetItems (s : State) (group : Nat) : List JEntry :=
  s.intake.journal.filter fun j =>
    j.st = .running && itemKind j = kJobReset && !j.fin && wfield j.item 8 15 0 = group

/-- The reset has released at this member: the step restarts. -/
def resetReleased (s : State) (g : Group) : State :=
  let s := queueDown s g 0 resetInst kRelease 0 []  0
  let s := { s with coll := { s.coll with reset := none }
                    hearths := s.hearths.map fun h => { h with heldSince := some s.now } }
  settleEnd (settleHalt ((resetItems s g.index).foldl (fun t j => finishItem t j.jseq 0 0 (jobStep t)) s))

/-- DONE leaves once the children are done; the root releases. -/
def resetUp (s : State) (g : Group) : State :=
  match s.coll.reset with
  | none => s
  | some r =>
    if !r.own || (childrenIn g.size 0 g.rank).any (!r.kids.contains ·) then s
    else if g.rank = 0 then resetReleased s g
    else queueUp s g 0 resetInst kDone 0 []

def startReset (s : State) (g : Group) : State :=
  let s := { s with coll := { s.coll with reset := some ⟨g.index, [], true⟩ } }
  let s := resetMember s g.index
  let s := (childrenIn g.size 0 g.rank).foldl (fun t c => sendSlot27 t g c resetInst kReset 0) s
  resetUp s g

/-- A reset is asked for here, by an item or by the smith: RESET goes to rank 0. -/
def requestReset (s : State) (g : Group) : State :=
  if s.coll.reset.isSome then s
  else if g.rank = 0 then startReset s g
  else sendSlot27 { s with coll := { s.coll with reset := some ⟨g.index, [], false⟩ } } g 0 resetInst kReset 0

def resetRuns (s : State) : Bool := match s.coll.reset with
  | some r => r.own
  | none => false

def takeReset (s : State) (idx slot : Nat) : State :=
  match groupAt s idx with
  | none => s
  | some g =>
    let l := readLine s g slot
    if l.kind = 0 || 6 < l.kind then discardLine (satF s COL_CNT3 COL_CNT3_MISMATCH 1) g slot l
    else if l.kind != kReset then s
    else if l.gen != g.gen then discardLine s g slot l
    else
      let t := returnCredit s g 10 l.rank
      if resetRuns s || !(g.rank = 0 || l.rank = treeParent g.rank) then t else startReset t g

/-- A line of the reset that runs here. -/
def resetLine (s : State) (idx slot kind : Nat) : Option (Group × CtrlLine) :=
  match groupAt s idx, s.coll.reset with
  | some g, some r =>
    let l := readLine s g slot
    if r.group = idx && r.own && l.kind = kind && l.gen = g.gen && l.inst = resetInst then some (g, l)
    else none
  | _, _ => none

def resetDone (s : State) (g : Group) (l : CtrlLine) : State :=
  let t := returnCredit s g 1 l.rank
  match t.coll.reset with
  | none => t
  | some r =>
    if !(childrenIn g.size 0 g.rank).contains l.rank || r.kids.contains l.rank then t
    else resetUp { t with coll := { t.coll with reset := some { r with kids := r.kids ++ [l.rank] } } } g

def resetRelease (s : State) (g : Group) (l : CtrlLine) : State :=
  let t := returnCredit s g (1 + childNo 0 g.rank) l.rank
  if g.rank != 0 && l.rank = treeParent g.rank then resetReleased t g else t

/-! ## The commands; each is followed by what waited for the engines -/

/-- A line is taken, and what waited for the engines follows. In a quench, and where the collectives cannot read the line, it is
left where it stands (R211, log entry 184). -/
def atLine (s : State) (idx slot : Nat) (f : State → State) : State :=
  if quenched s || !allOpen s (lineRange s idx slot) then s
  else pumpFabrics (f (touchReads s (lineRange s idx slot)))

def ctrlData (s : State) (idx slot : Nat) : State := atLine s idx slot fun t => takeLine t idx slot kData (onData slot)

def execCtrlData (group : BitVec 10) (slot : Fin 28) (s : State) : Host.Outcome State Fault Refusal :=
  .next (ctrlData s group.toNat slot.val)

def ctrlArrive (s : State) (idx slot : Nat) : State := atLine s idx slot fun t => takeLine t idx slot kArrive onArrive

def execCtrlArrive (group : BitVec 10) (slot : Fin 28) (s : State) : Host.Outcome State Fault Refusal :=
  .next (ctrlArrive s group.toNat slot.val)

def ctrlRelease (s : State) (idx slot : Nat) : State :=
  atLine s idx slot fun t => match resetLine t idx slot kRelease with
    | some p => resetRelease t p.1 p.2
    | none => takeLine t idx slot kRelease onRelease

def execCtrlRelease (group : BitVec 10) (slot : Fin 28) (s : State) : Host.Outcome State Fault Refusal :=
  .next (ctrlRelease s group.toNat slot.val)

def execCtrlReset (group : BitVec 10) (slot : Fin 28) (s : State) : Host.Outcome State Fault Refusal :=
  .next (atLine s group.toNat slot.val fun t => takeReset t group.toNat slot.val)

def ctrlDone (s : State) (idx slot : Nat) : State :=
  atLine s idx slot fun t => match resetLine t idx slot kDone with
    | some p => resetDone t p.1 p.2
    | none => takeLine t idx slot kDone onDone

def execCtrlDone (group : BitVec 10) (slot : Fin 28) (s : State) : Host.Outcome State Fault Refusal :=
  .next (ctrlDone s group.toNat slot.val)

def execCtrlAbort (group : BitVec 10) (slot : Fin 28) (s : State) : Host.Outcome State Fault Refusal :=
  .next (atLine s group.toNat slot.val fun t => takeAbort t group.toNat slot.val)

def execCreditReturn (group : BitVec 10) (rel : Fin 15) (s : State) : Host.Outcome State Fault Refusal :=
  .next (pumpFabrics (takeCredit s group.toNat rel.val))

def execCollectiveStall (group : BitVec 10) (s : State) : Host.Outcome State Fault Refusal :=
  .next (collStall s group.toNat)

/-! ## Groups (R308) -/

/-- A write of ACT or DEACT carries INDEX with it. -/
def writeGroupIndex (s : State) (idx : Nat) : State := putF s COL_GRP_CTL COL_GRP_CTL_INDEX idx

def grpActBy (s : State) (agent idx : Nat) : State :=
  if mayWrite s agent COL_GRP_CTL then groupAct (writeGroupIndex s idx) idx else s

def execGrpAct (agent : BitVec 8) (index : BitVec 10) (s : State) : Host.Outcome State Fault Refusal :=
  .next (grpActBy s agent.toNat index.toNat)

def grpDeactBy (s : State) (agent idx : Nat) : State :=
  if mayWrite s agent COL_GRP_CTL then pumpFabrics (groupDeact (writeGroupIndex s idx) idx) else s

def execGrpDeact (agent : BitVec 8) (index : BitVec 10) (s : State) : Host.Outcome State Fault Refusal :=
  .next (grpDeactBy s agent.toNat index.toNat)

/-! ## The stream of a snapshot (R324) -/

def streamLeft (s : State) : Bool := s.conns.any fun c => (c.ops ++ c.waitq).any fun o => o.owner = .stream

def streamComplete (s : State) : State :=
  match s.coll.stream with
  | none => s
  | some st =>
    if st.sent < st.len || streamLeft s then s
    else
      let s := putF { s with coll := { s.coll with stream := none } } COL_STATUS COL_STATUS_STREAMING 0
      pumpFabrics (postRecord s [headWord s 0x0407 0, st.ident, w64 st.step, w64 st.len])

def execSnapshotStreamComplete (s : State) : Host.Outcome State Fault Refusal := .next (streamComplete s)

end Sys2Proof.Machine
end

