-- ==== Sys2Proof/Machine/Jobs.lean ====
section
/-! DEFINITION. What work items do to the job (R215, R338, Table 12-5): the validation of a job descriptor, the
start and end of a job, the releases of held steps and the reset. -/

namespace Sys2Proof.Machine

/-! ## Descriptor validation (R213 to R219, Table 8-3) -/

def jobM (s : State) : Nat := jobMbs s
def jobP (s : State) : Nat := bitsOf 63 56 (jobWord s 3)
def jobD (s : State) : Nat := bitsOf 31 16 (jobWord s 3) + 1

def headBad (s : State) : Bool :=
  jobWord s 0 != 0x0B10 * 2 ^ 48 + 2 ^ 32 || bitsOf 15 0 (jobWord s 2) != 0 || bitsOf 44 32 (jobWord s 3) != 0
    || bitsOf 31 0 (jobWord s 9) != 0 || bitsOf 7 0 (jobWord s 12) != 0 || bitsOf 58 32 (jobWord s 14) != 0
    || (List.range 16).any fun k => jobWord s (16 + k) != 0

def seqLenBad (s : State) : Bool :=
  let n := bitsOf 63 32 (jobWord s 2)
  n = 0 || 1048576 < n

def geometryBad (s : State) : Bool :=
  let m := jobM s
  let p := jobP s
  m = 0 || 4096 < m || p = 0 || 65536 < jobD s || jobLayers s = 0 || 1024 < jobLayers s
    || p ≤ bitsOf 55 48 (jobWord s 3) || jobD s ≤ bitsOf 15 0 (jobWord s 3)
    || 65536 < jobD s * m || 65536 < jobD s * p || (1 < jobChunks s && m % p != 0)

/-- R105, Table 4-8. -/
def controlBad (s : State) (l : Nat) : Bool :=
  let w := controlWord s l
  64 < bitsOf 57 51 w || 2 ≤ bitsOf 25 24 w || bitsOf 23 20 w = 0 || 8 < bitsOf 23 20 w || bitsOf 17 16 w != 0

/-- R166, Table 6-5. -/
def updateDescBad (s : State) (l : Nat) : Bool :=
  let ws := layerUpdate s l
  wfield ws 0 63 62 = 3 || wfield ws 0 56 48 != 0 || sext 16 (wfield ws 1 47 32) < sext 16 (wfield ws 1 63 48)
    || wfield ws 1 31 0 != 0 || wfield ws 2 63 0 != 0 || wfield ws 3 63 0 != 0

/-- The monitor entries of a list block stand one after another from entry 0. -/
def monitorsBad (s : State) (a : Nat) : Bool :=
  let es := (List.range 256).map fun k => ofLE (readBytes s (a + 128 + 2 * k) 2)
  (es.drop (chanEntries s (a + 128) 256).length).any fun e => e / 2 ^ 15 = 1

/-- Named channels over PITH_MAX (R97), or a list block that fails (R105). -/
def listBad (s : State) (l : Nat) : Bool := match listBlock s l with
  | none => false
  | some a =>
    bitsOf 57 51 (controlWord s l) < (namedPith s l).length
      || !pithValid s a (layerRowLen s l) || monitorsBad s a

/-- The entry of a list, with its place among the others checked (R218). -/
def phaseEntryBad (s : State) (e : Nat) : Bool :=
  1 < entryKind e || jobChunks s ≤ entryChunk e || bitsOf 26 16 e != 0 || jobM s ≤ entryMb e

/-- Every backward entry stands after its forward entry. -/
def ordered : List Nat → List Nat → Bool
  | _, [] => true
  | seen, e :: es => (entryKind e = 0 || seen.contains (e - 2 ^ 30)) && ordered (e :: seen) es

def scheduleBad (s : State) : Bool :=
  let n := schedCount s
  let es := (List.range (n - 1)).map (schedEntry s)
  n != 2 * jobChunks s * jobM s + 1 || es.any (phaseEntryBad s) || !decide es.Nodup || !ordered [] es
    || schedEntry s (n - 1) != 2 * 2 ^ 30

/-- A phase descriptor of Table 8-5. -/
def phaseBad (s : State) (p : Nat × Nat) : Bool :=
  let d := phaseDesc s p.1 p.2
  wfield d 0 5 0 != 0 || wfield d 1 63 32 = 0 || 65535 < wfield d 1 63 32

def phaseTableBad (s : State) : Bool := (phasePairs s ++ [(2, 0)]).any (phaseBad s)

/-- R240. -/
def cursorEntryBad (s : State) (k : Nat) : Bool :=
  let a := jobWord s 13 + 16 * k
  let rate := (readWord s (a + 8)).toNat
  (readWord s a).toNat % 4 != 3 || rate = 0 || 65535 < rate

def cursorBad (s : State) : Bool :=
  let n := bitsOf 63 59 (jobWord s 14)
  16 < n || (n != 0 && jobWord s 13 % 128 != 0) || (List.range n).any (cursorEntryBad s)

def progBad (s : State) : Bool :=
  (List.range 128).any fun i => recordOff s i < bitsOf 63 32 (jobWord s 9)

/-- CHUNK, and the length that the list block's monitor entries name (log entry 53). -/
def layerShapeBad (s : State) (l : Nat) : Bool :=
  jobChunks s ≤ layerChunk s l || (namedMonitors s l).any (layerRowLen s l ≤ ·)

def firstLayer (s : State) (p : Nat → Bool) : Option Nat := (List.range (jobLayers s)).find? p

/-- The first failing check: its reason and layer (R215). -/
def rejectReason (s : State) : Option (Nat × Nat) :=
  if headBad s then some (1, 0)
  else if seqLenBad s then some (2, 0)
  else if geometryBad s then some (3, 0)
  else match firstLayer s (controlBad s) with
  | some l => some (4, l)
  | none => match firstLayer s (updateDescBad s) with
  | some l => some (5, l)
  | none => match firstLayer s (listBad s) with
  | some l => some (6, l)
  | none =>
    if jobWord s 11 < leastDram s || bitsOf 63 32 (jobWord s 12) < leastCs s then some (7, 0)
    else if scheduleBad s || phaseTableBad s then some (8, 0)
    else if cursorBad s then some (9, 0)
    else if progBad s then some (10, 0)
    else (firstLayer s (layerShapeBad s)).map fun l => (11, l)

/-! ## JOB_START -/

/-- The job that an item starts, with the descriptor in its body. -/
def newJob (s : State) (ring : Nat) (e : JEntry) : Job :=
  let d := (e.item.drop 8).take 32
  { desc := d, stat := .running, step := s.surv.baseStep, item := some (ring, e.jseq), endItem := none, fwdWide := []
    agWide := [], clean := [], vector := [], dramRes := (d.getD 11 0).toNat, csRes := wfield d 12 63 32
    ratio := false, widenDue := false, relItem := none, stepEnd := 0, skipUpdate := false, started := false
    idleRep := false, payload := [], peaks := [], piths := [], vecAt := 0, inputs := [] }

/-- A device that starts a job tells the coordinator (R381; log entry 54). -/
def sendJoin (s : State) : State :=
  if flag s SURV_STATUS SURV_STATUS_ARMED && !isCoordinator s then sendInbox s 0 kJoin 0 [] [ownNode s] else s

/-- The job is accepted: images, gradient buffers and arrival words are made ready (R221, R225). -/
def acceptJob (s : State) : State :=
  let s := ((List.range 128).filter (inService s)).foldl loadImage s
  let s := clearArrivals (clearGrads s (jobStep s))
  sendJoin { s with
    hearths := s.hearths.map fun h => { h with walk := 0, out := [], heldSince := some s.now, stalled := false }
    surv := { s.surv with baseStep := 0 } }

def startJob (s : State) (ring : Nat) (e : JEntry) : State :=
  if s.job.isSome then finishItem s e.jseq stJobActive 0 0
  else
    let t := { s with job := some (newJob s ring e) }
    match rejectReason t with
    | some (code, l) => finishItem s e.jseq stRejected (code * 2 ^ 8 + l % 1024 * 2 ^ 16) 0
    | none => acceptJob t

def jobStart (s : State) (ring : Nat) : State := match itemOf s ring kJobStart with
  | some e => if quenched s || s.job.any (fun j => j.item = some (ring, e.jseq)) then s else startJob s ring e
  | none => s

def execJobStart (ring : Fin 16) (s : State) : Host.Outcome State Fault Refusal := .next (jobStart s ring.val)

/-! ## Releases (R112, R168) -/

/-- The item of a kind that runs on a ring, with the job it acts on; without one it completes with NOJOB. -/
def withJob (s : State) (ring kind : Nat) (f : JEntry → Job → State) : State :=
  match itemOf s ring kind, s.job with
  | some e, some j => if quenched s then s else f e j
  | some e, none => if quenched s then s else finishItem s e.jseq stNoJob 0 0
  | none, _ => s

/-- An item with a MODE or ACTION that Table 12-5 does not give. -/
def ignoreRelease (s : State) (e : JEntry) (kind mode : Nat) : State :=
  makeRecord (finishItem s e.jseq stIgnored 0 0) srcIntake 0x10D [w64 (kind + mode * 2 ^ 8)]

/-- The vector that a release leaves, under its MODE. -/
def releasedVector (s : State) (j : Job) (mode mask : Nat) : List Byte :=
  let v := bytesOfWords (payVotes j.payload)
  if mode = 0 then v
  else if mode = 1 then (v.zip (readBytes s mask 256)).map fun p => p.1 &&& p.2
  else v.map fun _ => 0

def widenRelease (s : State) (ring : Nat) : State := withJob s ring kWidenRelease fun e j =>
  let mode := wfield e.item 10 1 0
  if j.relItem = some (ring, e.jseq) then s
  else if j.stat != .heldWiden || wfield e.item 8 63 0 != j.step then finishItem s e.jseq stNotHeld 0 0
  else if mode = 3 then ignoreRelease s e kWidenRelease mode
  else if enginesFull s then s
  else match groupAt s (jobGroup s) with
    | none => s
    | some g =>
      startHoldRound (modJob s fun j => { j with
        dramRes := wfield e.item 9 63 0, csRes := wfield e.item 10 63 32, relItem := some (ring, e.jseq)
        vector := releasedVector s j mode (wfield e.item 11 63 0) }) g

def execWidenRelease (ring : Fin 16) (s : State) : Host.Outcome State Fault Refusal :=
  .next (widenRelease s ring.val)

/-- R168; while a full copy runs, action 7 is held and the item waits (R359). -/
def ratioRelease (s : State) (ring : Nat) : State := withJob s ring kRatioRelease fun e j =>
  let action := wfield e.item 9 1 0
  if j.stat != .heldRatio || wfield e.item 8 63 0 != j.step then finishItem s e.jseq stNotHeld 0 0
  else if s.surv.copying then s
  else if 2 ≤ action then ignoreRelease s e kRatioRelease action
  else proceedStep (modJob (finishItem s e.jseq 0 0 j.step) fun j => { j with skipUpdate := action = 1 })

def execRatioRelease (ring : Fin 16) (s : State) : Host.Outcome State Fault Refusal :=
  .next (ratioRelease s ring.val)

/-! ## Reset and end -/

/-- A reset of a group that is not active has no member here to reset (log entry 52). -/
def jobReset (s : State) (ring : Nat) : State := withJob s ring kJobReset fun e _ =>
  match groupAt s (wfield e.item 8 15 0) with
  | none => finishItem s e.jseq stIgnored 0 0
  | some g => pumpFabrics (requestReset s g)

def execJobReset (ring : Fin 16) (s : State) : Host.Outcome State Fault Refusal := .next (jobReset s ring.val)

def endStat (st : JobStat) : JobStat := if st = .running then .ending else st

/-- JOB_END: the current step finishes and no other starts; a halted job ends where it stands. -/
def jobEnd (s : State) (ring : Nat) : State := withJob s ring kJobEnd fun e j =>
  if j.endItem.isSome then s
  else if j.stat = .halted then finishItem (modJob s fun j => { j with endItem := some (ring, e.jseq) }) e.jseq 0 0 s.surv.lastCommit
  else settleEnd (modJob s fun j => { j with endItem := some (ring, e.jseq), stat := endStat j.stat })

def execJobEnd (ring : Fin 16) (s : State) : Host.Outcome State Fault Refusal := .next (jobEnd s ring.val)

def workNop (s : State) (ring : Nat) : State := match itemOf s ring kNop with
  | some e => if quenched s then s else finishItem s e.jseq 0 0 0
  | none => s

def execWorkNop (ring : Fin 16) (s : State) : Host.Outcome State Fault Refusal := .next (workNop s ring.val)

def badkindItem (s : State) (ring : Nat) : State := match runningItem s ring with
  | some e => if quenched s || e.fin || !itemBad e.item then s else finishItem s e.jseq stBadKind 0 0
  | none => s

def execBadkindItem (ring : Fin 16) (s : State) : Host.Outcome State Fault Refusal :=
  .next (badkindItem s ring.val)

end Sys2Proof.Machine
end

