-- ==== Sys2Proof/Machine/Lines.lean ====
section
/-! DEFINITION. Bonded memory (R242 to R266): line reads and writes at the home, DRAM errors, the crucible,
core-store windows, refresh and scrubbing, region pairs and their migration, margins and training. -/

namespace Sys2Proof.Machine

def answering (s : State) (x : Answer) : State := { s with answer := x }

/-! ## Slices and DRAM (R252, R255, R257) -/

def sliceLine (s : State) (a : Nat) : Option SliceLine :=
  (hearthAt s (homeOf s a)).slice.find? (·.line = lineBase a)

def dropLine (s : State) (a : Nat) : State :=
  modHearth s (homeOf s a) fun h => { h with slice := h.slice.filter (·.line != lineBase a) }

/-- A slice word read with `bits` in error (R257, Table 9-3): one is corrected; more discard a clean line, and
poison a dirty one. -/
def sliceError (s : State) (a bits : Nat) : State :=
  match sliceLine s a with
  | none => s
  | some l =>
    let h := homeOf s a
    if bits = 0 then s
    else if bits = 1 then satF s (HCH_SCE h) HCH_SCE_SLICE_CE 1
    else if l.dirty then poisonAndReport (satF s (HCH_SUE h) HCH_SUE_SLICE_POISON 1) a
    else dropLine (satF s (HCH_SUE h) HCH_SUE_SLICE_REFETCH 1) a

/-- Correctable errors of a stack in the last hour (R255). -/
def ceCount (s : State) (k : Nat) : Nat := (s.memctl.ceHour.filter (·.1 = k)).length

/-- A corrected symbol of a stack: the count, and one rate record while the hour's count stands over the
threshold (log entry 50). -/
def countCorrected (s : State) (a : Nat) : State :=
  let k := stackOf s a
  let s := satF s (MEM_CECNT k) MEM_CECNT_CE 1
  let s := { s with memctl := { s.memctl with
    ceHour := (k, s.now) :: s.memctl.ceHour.filter fun e => s.now - e.2 < hourNs } }
  let rate := getF s MEM_CTL MEM_CTL_CE_RATE
  if rate = 0 then s
  else if ceCount s k ≤ 16 * rate then
    { s with memctl := { s.memctl with ceReported := s.memctl.ceReported.filter (· != k) } }
  else if s.memctl.ceReported.contains k then s
  else
    makeRecord { s with memctl := { s.memctl with ceReported := k :: s.memctl.ceReported } }
      (srcHearth (2 * k)) 0x181 [w64 (k + ceCount s k * 2 ^ 32)]

/-- What the code of R254 finds in a codeword. -/
inductive CodeResult where
  | clean | corrected | uncorrectable
  deriving DecidableEq, Repr

/-- R254: one symbol in error is corrected and more are not; the line index, which the check symbols cover, makes a line of
another location fail, and reserved metadata that is not 0 after correction makes the line uncorrectable. What the code finds
in a codeword with more than two symbols in error is not stated: it is taken as uncorrectable (log entry 185). -/
def codeResult (bad reserved : Nat) (elsewhere : Bool) : CodeResult :=
  if elsewhere || reserved != 0 || 2 ≤ bad then .uncorrectable else if bad = 1 then .corrected else .clean

/-- R255: how a DRAM read ends. -/
def dramRead (s : State) (a : Nat) (r : ReadResult) : State :=
  match r with
  | .clean => s
  | .corrected => countCorrected s a
  | .uncorrectable true => satF s MEM_UECNT MEM_UECNT_RETRIED 1
  | .uncorrectable false => poisonAndReport s a
  | .symbols bad reserved elsewhere retryOk => match codeResult bad reserved.toNat elsewhere with
    | .clean => s
    | .corrected => countCorrected s a
    | .uncorrectable => if retryOk then satF s MEM_UECNT MEM_UECNT_RETRIED 1 else poisonAndReport s a

/-- R399: during a quench the channel of a miss is awake from its last access. -/
def wakeChannel (s : State) (a : Nat) : State :=
  if s.therm.inSelfRefresh then
    { s with power := { s.power with
        selfRefresh := assocSet (128 * homeOf s a + hChannel a) s.now s.power.selfRefresh } }
  else s

/-- Data of an absent line comes from DRAM, is checked, and is installed under R252. -/
def missFill (s : State) (a : Nat) (r : ReadResult) : State :=
  if !isDram a || (sliceLine s a).isSome || channelHeld s a 1 then s
  else touchLine (dramRead (wakeChannel s a) a r) (lineBase a) false false

def execSliceMissFill (addr : BitVec 48) (result : ReadResult) (s : State) : Host.Outcome State Fault Refusal :=
  .next (missFill s addr.toNat result)

/-! ## Accesses (R244, R249, R250, R253) -/

/-- A local agent meets the address fault, a port its refusal. -/
def turnedAway (agent : Agent) : Answer := match agent with
  | .fabric _ => .refused
  | _ => .unassigned

def accAnswer (c : Acc) (ws : List Word64) : Answer := match c with
  | .ok => .data ws
  | .unassigned => .unassigned
  | .poison => .poison

/-- Words of a line from an address to its end, at most `n`. -/
def wordsInLine (a n : Nat) : Nat := min n ((128 - a % 128) / 8)

def lineRead (s : State) (a n bits : Nat) : State :=
  if !isDram a || !assigned s a 8 then answering s .unassigned
  else if channelHeld s a 1 then answering s .held
  else
    let r := memRead (sliceError s a bits) a (8 * wordsInLine a n)
    answering r.1 (accAnswer r.2.1 (wordsOf (wordsInLine a n) r.2.2))

def execLineRead (_agent : Agent) (addr : BitVec 48) (words : Nat) (badBits : Nat) (s : State) :
    Host.Outcome State Fault Refusal :=
  .next (lineRead s addr.toNat words badBits)

/-- Masked words of a line, each written whole. -/
def writeMasked (s : State) (a mask : Nat) (ws : List Word64) : State :=
  (List.range 16).foldl (fun t k => if mask.testBit k then writeWord t (a + 8 * k) (ws.getD k 0) else t) s

/-- A write at the home of a line: whole, or of the words of a mask (R249, R256). -/
def lineWrite (s : State) (a mask : Nat) (ws : List Word64) : State :=
  let b := lineBase a
  if !isDram a || !assigned s b 128 then answering s .unassigned
  else if channelHeld s a 1 then answering s .held
  else if mask % 65536 = 0xFFFF then answering (memWrite s b (bytesOfWords (padWords 16 ws))).1 .done
  else if poisoned s b then answering s .poison
  else answering (touchLine (writeMasked s b mask ws) b true false) .done

def execLineWrite (_agent : Agent) (addr : BitVec 48) (mask : BitVec 16) (data : List Word64) (s : State) :
    Host.Outcome State Fault Refusal :=
  .next (lineWrite s addr.toNat mask.toNat data)

def crucAnswer (c : CrucAcc) : Answer := match c with
  | .ok v => .data [v]
  | .poison => .poison
  | .unassigned => .unassigned
  | .window => .unassigned

/-- R260. An operation code that Table 7-15 does not assign, or a misaligned word, is turned away. -/
def crucibleAtomic (s : State) (op a : Nat) (x cmp : Word64) : State :=
  if 9 < op || a % 8 != 0 then answering s .refused
  else if channelHeld s a 8 then answering s .held
  else
    let r := atomicAt s a op x cmp
    answering r.1 (crucAnswer r.2)

def execCrucibleAtomic (_agent : Agent) (op : BitVec 4) (addr : BitVec 48) (operand comparand : Word64)
    (s : State) : Host.Outcome State Fault Refusal :=
  .next (crucibleAtomic s op.toNat addr.toNat operand comparand)

def reduceAnswer (c : CrucAcc) : Answer := match c with
  | .ok _ => .done
  | c => crucAnswer c

/-- R261. -/
def crucibleReduction (s : State) (op a : Nat) (ws : List Word64) : State :=
  if 4 < op || a % 8 != 0 then answering s .refused
  else if channelHeld s a (8 * ws.length) then answering s .held
  else
    let r := reduceAt s a op ws
    answering r.1 (reduceAnswer r.2)

def execCrucibleReduction (_agent : Agent) (op : BitVec 4) (addr : BitVec 48) (data : List Word64) (s : State) :
    Host.Outcome State Fault Refusal :=
  .next (crucibleReduction s op.toNat addr.toNat data)

/-- R253, and the window row of Table 9-3. -/
def windowAccess (s : State) (agent : Agent) (a : Nat) (acc : WinAccess) (eccErr : Bool) : State :=
  let shut := answering s (turnedAway agent)
  if !isWindow a || a % 8 != 0 then shut
  else match acc with
    | .atomic => shut
    | .read n =>
      let r := memRead s a (8 * n)
      if r.2.1 != .ok then shut
      else if eccErr then
        answering (satF s (HCH_SUE (hearthOf (windowCore a))) HCH_SUE_CS_UE 1) .poison
      else answering r.1 (.data (wordsOf n r.2.2))
    | .write ws =>
      let r := memWrite s a (bytesOfWords ws)
      if r.2 != .ok then shut else answering r.1 .done

def execWindowAccess (agent : Agent) (addr : BitVec 48) (access : WinAccess) (eccErr : Bool) (s : State) :
    Host.Outcome State Fault Refusal :=
  .next (windowAccess s agent addr.toNat access eccErr)

/-! ## Refresh and scrubbing (R243, R258) -/

def refresh (s : State) (h : Nat) (hot : Bool) : State :=
  modHearth s h fun x => { x with hotRefresh := hot, lastRefresh := s.now }

def execRefresh (h : HearthId) (hot : Bool) (s : State) : Host.Outcome State Fault Refusal :=
  .next (refresh s h.val hot)

def strobeRecentre (s : State) (h chan : Nat) : State :=
  modHearth s h fun x => { x with recentred := assocSet chan s.now x.recentred }

def execStrobeRecentre (h : HearthId) (chan : BitVec 7) (s : State) : Host.Outcome State Fault Refusal :=
  .next (strobeRecentre s h.val chan.toNat)

/-- A patrol read of a DRAM line is an ordinary read; a corrected copy changes no content, so a write that raced
it changes nothing here. -/
def scrubDram (s : State) (a : Nat) (r : ReadResult) : State :=
  if getF s MEM_CTL MEM_CTL_SCRUB_HRS = 0 || !isDram a || channelHeld s a 1 then s
  else
    let s := modHearth s (homeOf s a) fun h => { h with scrubbed := h.scrubbed + 1 }
    touchLine (missFill s a r) (lineBase a) false false

def scrubCoreStore (s : State) (i bits : Nat) : State :=
  if inService s i && bits = 1 then satF s (HCH_SCE (hearthOf i)) HCH_SCE_CS_CE 1 else s

def scrubRead (s : State) (t : ScrubTarget) : State := match t with
  | .dram a r _ => scrubDram s a.toNat r
  | .slice h line bits => if homeOf s line.toNat = h.val then sliceError s line.toNat bits else s
  | .coreStore i _ bits => scrubCoreStore s i.val bits
  | .ring word bits => if 2 ≤ bits then damageBlock s word.toNat else s

def execScrubRead (t : ScrubTarget) (s : State) : Host.Outcome State Fault Refusal := .next (scrubRead s t)

/-! ## Region pairs (R246, R248) -/

def regionSel (s : State) : Nat := getF s MEM_RGN_SEL MEM_RGN_SEL_PAIR

/-- A write to MEM_RGN, taken field by field; the values name the bits of Table 9-8. -/
def regionRefused (r : Region) (st : Nat) (policy : Bool) : Bool :=
  let stWrite := st != bit r.closed
  let polWrite := policy != r.policy
  2 ≤ st || (polWrite && (!r.closed || r.busy || stWrite)) || (stWrite && r.busy)

def regionWrite (s : State) (w : Nat) : State :=
  let r := regionAt s (regionSel s)
  let st := bitsOf 3 2 w
  let policy := w.testBit 0
  if regionRefused r st policy then
    makeRecord s srcSmith 0x180 [w64 (regionSel s + w % 2 ^ 32 * 2 ^ 32)]
  else
    setRegion s { r with
      closed := st = 1, alloc := w.testBit 1, policy := policy, busy := r.busy || policy != r.policy }

/-- The word that carries the current value of every field but those given. -/
def regionWord (r : Region) (st : Nat) (alloc policy : Bool) : Nat :=
  viewFields 0 [(4, 4, bit r.busy), (3, 2, st), (1, 1, bit alloc), (0, 0, bit policy)]

def regionCommand (s : State) (agent : Nat) (f : Region → Nat) : State :=
  if mayWrite s agent MEM_RGN then regionWrite s (f (regionAt s (regionSel s))) else s

def execMemRgnClose (agent : BitVec 8) (s : State) : Host.Outcome State Fault Refusal :=
  .next (regionCommand s agent.toNat fun r => regionWord r 1 r.alloc r.policy)

def execMemRgnOpen (agent : BitVec 8) (s : State) : Host.Outcome State Fault Refusal :=
  .next (regionCommand s agent.toNat fun r => regionWord r 0 r.alloc r.policy)

def execMemRgnPolicy (agent : BitVec 8) (policy : Bool) (s : State) : Host.Outcome State Fault Refusal :=
  .next (regionCommand s agent.toNat fun r => regionWord r (bit r.closed) r.alloc policy)

def execMemRgnAlloc (agent : BitVec 8) (alloc : Bool) (s : State) : Host.Outcome State Fault Refusal :=
  .next (regionCommand s agent.toNat fun r => regionWord r (bit r.closed) alloc r.policy)

/-- Every line of the pair stands at its new home, its content unchanged; no old home keeps a copy. -/
def migrationComplete (s : State) (p : Nat) : State :=
  let r := regionAt s p
  if r.busy then
    let s := setRegion s { r with busy := false }
    { s with hearths := s.hearths.map fun h => { h with slice := h.slice.filter fun l => pairOf l.line != p } }
  else s

def execMigrationComplete (pair : BitVec 18) (s : State) : Host.Outcome State Fault Refusal :=
  .next (migrationComplete s pair.toNat)

/-! ## Margins (R262 to R264) -/

/-- A test of R408 is running. -/
def testOn (s : State) : Bool := s.memctl.rerunning.isSome || s.ports.any (·.testing)

def mrgStart (s : State) : State :=
  if s.memctl.rerun.isSome || s.memctl.rerunning.isSome then s
  else
    let s := { s with memctl := { s.memctl with rerun := some (getF s MEM_MRG_SEL MEM_MRG_SEL_CHAN) } }
    if s.job.isSome then { s with queuedTests := s.queuedTests ++ [none] } else s

def mrgStartBy (s : State) (agent : Nat) : State := if mayWrite s agent MEM_MRG_CTL then mrgStart s else s

def execMrgStart (agent : BitVec 8) (s : State) : Host.Outcome State Fault Refusal :=
  .next (mrgStartBy s agent.toNat)

def startRerun (s : State) : State :=
  { s with memctl := { s.memctl with rerun := none, rerunning := s.memctl.rerun }
           queuedTests := s.queuedTests.erase none }

/-- The rerun begins: at once without a job, else as the first queued test at a step boundary (R408). -/
def marginRerun (s : State) : State :=
  if s.memctl.rerun.isNone || testOn s || quenched s then s
  else if s.job.isNone || (atBoundary s && s.queuedTests.head? = some none) then startRerun s
  else s

def execMarginRerun (s : State) : Host.Outcome State Fault Refusal := .next (marginRerun s)

/-- The hearth that drives channel 256k + n (Table 1-2). -/
def channelHearth (c : Nat) : Nat := 2 * (c / 256) + c % 256 / 128

def marginRecord (s : State) (typ c : Nat) (m : MarginResult) : State :=
  makeRecord s (srcHearth (channelHearth c)) typ [w64 (c + marginRes m * 2 ^ 32)]

/-- The result moves the centres only when it passes; ATTEMPTS tells of the start. -/
def mergeMargin (old : Option MarginResult) (m : MarginResult) : MarginResult :=
  let o := old.getD ⟨0, 0, 0, 0, 0, 0, 0, 0, 0⟩
  if marginPass m then { m with attempts := o.attempts }
  else { o with rdW := m.rdW, rdH := m.rdH, wrW := m.wrW, wrH := m.wrH }

def marginRerunComplete (s : State) (m : MarginResult) : State :=
  match s.memctl.rerunning with
  | none => s
  | some c =>
    let s := { s with memctl := { s.memctl with
      rerunning := none, margins := assocSet c (mergeMargin (assocGet c s.memctl.margins) m) s.memctl.margins } }
    if marginPass m then s else requestService (marginRecord s 0x184 c m)

def execMarginRerunComplete (result : MarginResult) (s : State) : Host.Outcome State Fault Refusal :=
  .next (marginRerunComplete s result)

/-- Step 7 of Table 9-5: every line zero with a valid code, every slice clear. -/
def wipeDram (s : State) : State :=
  { s with
    mem := s.mem.filter fun c => !isDram c.1
    hearths := s.hearths.map fun h => { h with slice := [], wbuf := [] }
    memctl := { s.memctl with poison := [], wiped := true } }

/-- Training ends with a result for each of the 2,048 channels. -/
def trainingComplete (s : State) (rs : List MarginResult) : State :=
  if !flag s MEM_STATUS MEM_STATUS_TRAINING || rs.length != 2048 then s
  else
    let cs := rs.zipIdx.map fun p => (p.2, p.1)
    let bad := cs.filter fun p => !marginPass p.2
    let s := putF s MEM_STATUS MEM_STATUS_TRAINING 0
    let s := { s with memctl := { s.memctl with margins := cs } }
    if bad.isEmpty then wipeDram (putF s MEM_STATUS MEM_STATUS_TRAINED 1)
    else
      let s := bad.foldl (fun t p => marginRecord t 0x183 p.1 p.2) (putF s MEM_STATUS MEM_STATUS_TRAIN_FAIL 1)
      requestService { s with boot := { s.boot with stuck := true } }

def execDramTrainingComplete (results : List MarginResult) (s : State) : Host.Outcome State Fault Refusal :=
  .next (trainingComplete s results)

end Sys2Proof.Machine
end

