-- ==== Sys2Proof/Machine/Intake.lean ====
section
/-! DEFINITION. The work intake engine (R331 to R343): rings and doorbells, the reading of slots, acceptance
through the mirror, the running of items one at a time, and their completion. -/

namespace Sys2Proof.Machine

/-! ## Sequence numbers modulo 2^64 -/

def seqBefore (a b : Nat) : Bool := sext 64 ((b + 2 ^ 64 - a % 2 ^ 64) % 2 ^ 64) > 0
def seqNext (a : Nat) : Nat := (a + 1) % 2 ^ 64

/-! ## Holds -/

/-- What holds every step of R339: a quench, a fence, ENABLE, no partner (R341, R342, R364). -/
def intakeHeld (s : State) : Bool :=
  quenched s || fenced s || !flag s WRK_CTL WRK_CTL_ENABLE || !partnerValid s
    || flag s WRK_STATUS WRK_STATUS_PARTNER_DOWN

/-- The entry that the next journal number would take is in use (R341). -/
def journalFull (s : State) : Bool := s.intake.journal.any fun j => j.jseq % jslots s = s.intake.jseq % jslots s

def noteFull (s : State) : State := putF s WRK_STATUS WRK_STATUS_JFULL (bit (journalFull s))

/-! ## Slots (R335, R336) -/

def ringSlot (r : Ring) (k : Nat) : Nat := r.base + 384 * (k % r.slots)

inductive SlotCase where
  | item (ws : List Word64)
  | notYet
  | bad
  deriving DecidableEq, Repr

/-- Bytes 0x000 to 0x037 and 0x040 to 0x17F. -/
def checkBytes (bs : List Byte) : List Byte := bs.take 56 ++ bs.drop 64

/-- Table 12-3. -/
def slotCase (s : State) (r : Ring) (k : Nat) : SlotCase :=
  let bs := readBytes s (ringSlot r k) 384
  let ws := wordsOf 48 bs
  let typ := wfield ws 0 63 48
  let sq := wfield ws 1 63 0
  let good := wfield ws 7 31 0 = crc32c (checkBytes bs) && (linesOf (ringSlot r k) 384).all (!poisoned s ·)
  if sq = k && typ = 0x0D01 && good then .item ws
  else if typ = 0 || sq = (k + 2 ^ 64 - r.slots) % 2 ^ 64 || (sq = k && !good) then .notYet
  else .bad

/-- Steps 2 and 3 of R339. -/
def journalItem (s : State) (r : Ring) (ws : List Word64) : State :=
  let j : JEntry :=
    { jseq := s.intake.jseq, ring := r.index, st := .accepted, status := 0, seq := wfield ws 1 63 0, accTime := s.now
      doneStep := none, detail := 0, item := ws, mirrored := false, marked := false, markAcked := false, fin := false
      posted := false, cslot := none }
  let s := { s with intake := { s.intake with jseq := s.intake.jseq + 1, journal := s.intake.journal ++ [j] } }
  let s := setRing s { r with next := seqNext r.next, waitAt := none }
  noteFull (sendMirror (storeEntry s j) j (.mirror r.index j.jseq))

/-- R335: the ring stops at k. -/
def stopRing (s : State) (r : Ring) (k : Nat) : State :=
  let s := setRing s { r with stopped := true, waitAt := none }
  let s := satF s WRK_CNT WRK_CNT_STOPS 1
  postTo (makeRecord s srcIntake 0x301 [w64 (r.index + k % 2 ^ 56 * 2 ^ 8)]) r.index [headWord s 0x0403 0, w64 k]

/-- When a PSEQ write first covered `k`. -/
def coveredAt (s : State) (r : Ring) (k : Nat) : Nat := ((r.covered.find? fun c => seqBefore k c.1).map (·.2)).getD s.now

/-- The engine notes a slot that is not yet written, and since when it is covered. -/
def noteWait (s : State) (r : Ring) (k : Nat) : State := setRing s { r with waitAt := some (k, coveredAt s r k) }

/-- Slots from `next` up to PSEQ - 1 are read in order while nothing holds the engine; during a capture an item waits to be
journalled (R341). -/
def readSlots (idx : Nat) : Nat → State → State
  | 0, s => s
  | n + 1, s => match ringOf s idx with
    | none => s
    | some r =>
      if r.stopped || !seqBefore r.next r.pseq || intakeHeld s || 1024 ≤ s.intake.heldRecs.length then s
      else if journalFull s then noteFull s
      else match slotCase s r r.next with
        | .item ws => if s.coll.capturing then s else readSlots idx n (journalItem s r ws)
        | .notYet => noteWait s r r.next
        | .bad => stopRing s r r.next

def pumpRing (s : State) (idx : Nat) : State := match ringOf s idx with
  | some r => readSlots idx (r.slots + 1) s
  | none => s

/-- Every ring looks again, after what held the engine has passed. -/
def pumpIntake (s : State) : State := (s.intake.rings.map (·.index)).foldl pumpRing (noteFull s)

/-! ## Doorbells (R332, R333) -/

def postAccepted (s : State) (r : Ring) : State :=
  postTo (setRing s { r with unreported := 0 }) r.index [headWord s 0x0401 0, w64 r.acc]

/-- PSEQ written at or below ACC_SEQ asks for the acceptance record again (R339). -/
def reportAgain (s : State) (r : Ring) (v : Nat) : State := if seqBefore r.acc v then s else postAccepted s r

/-- PSEQ as the write leaves it, with the time at which it covers its items; a stopped ring starts afresh at its item. -/
def Ring.withPseq (r : Ring) (v now : Nat) : Ring :=
  let old := if r.stopped then [] else r.covered.filter fun c => seqBefore r.next c.1
  { r with pseq := v, stopped := false, covered := if old.any (fun c => c.1 = v) then old else old ++ [(v, now)] }

/-- The engine takes a write of PSEQ; one that lowers it is ignored (R333). -/
def takePseq (s : State) (idx : Nat) (v : Word64) : State := match ringOf s idx with
  | none => s
  | some r =>
    if seqBefore v.toNat r.pseq then reportAgain s r v.toNat
    else
      let r := r.withPseq v.toNat s.now
      pumpRing (reportAgain (setRing s r) r v.toNat) idx

/-- A doorbell word is written; its home reports it, and a quench holds the report (R333, R341). -/
def ringBell (s : State) (idx : Nat) (word : Bool) (v : Word64) (f : State → State) : State := match ringOf s idx with
  | none => s
  | some r =>
    let w := memWrite s (r.doorbell + (if word then 8 else 0)) (leBytes 8 v.toNat)
    if w.2 != .ok then w.1
    else if quenched s then { w.1 with intake := { w.1.intake with bells := w.1.intake.bells ++ [(idx, word, v)] } }
    else f w.1

def doorbellPseq (s : State) (idx : Nat) (v : Word64) : State := ringBell s idx false v fun t => takePseq t idx v

def execDoorbellPseqWrite (ring : Fin 16) (pseq : Word64) (s : State) : Host.Outcome State Fault Refusal :=
  .next (doorbellPseq s ring.val pseq)

/-- The local entry reads free (Table 12-7). -/
def freeEntry (s : State) (j : JEntry) : State :=
  let s := (memWrite s (journalAddr s j.jseq) (leBytes 8 0)).1
  { s with intake := { s.intake with journal := s.intake.journal.filter (·.jseq != j.jseq) } }

/-- Done, and its completion record consumed (R341). -/
def entryFreed (r : Ring) (j : JEntry) : Bool :=
  j.ring = r.index && j.st = .done && j.posted && match j.cslot with
    | some c => c < r.ccons
    | none => false

def freeEntries (s : State) (r : Ring) : State := (s.intake.journal.filter (entryFreed r)).foldl freeEntry s

/-- The engine takes a write of CCONS. -/
def takeCcons (s : State) (idx : Nat) (v : Word64) : State := match ringOf s idx with
  | none => s
  | some r =>
    if v.toNat < r.ccons then s
    else
      let r := { r with ccons := v.toNat }
      pumpIntake (freeEntries (releaseHeld (s.intake.heldRecs.length) (setRing s r) idx) r)

def doorbellCcons (s : State) (idx : Nat) (v : Word64) : State := ringBell s idx true v fun t => takeCcons t idx v

/-- The doorbell writes that a quench held are taken in their order. -/
def releaseBells (s : State) : State :=
  s.intake.bells.foldl (fun t b => if b.2.1 then takeCcons t b.1 b.2.2 else takePseq t b.1 b.2.2)
    { s with intake := { s.intake with bells := [] } }

def execDoorbellCconsWrite (ring : Fin 16) (ccons : Word64) (s : State) : Host.Outcome State Fault Refusal :=
  .next (doorbellCcons s ring.val ccons)

/-- R335: the slot is read once more, and the ring stops when it is still not valid. -/
def itemWaitExpiry (s : State) (idx : Nat) : State := match ringOf s idx with
  | none => s
  | some r => match r.waitAt with
    | none => s
    | some w =>
      if r.stopped || intakeHeld s || s.now - w.2 < getF s WRK_CTL WRK_CTL_ITEM_WAIT * 1000 then s
      else if w.1 = r.next && slotCase s r r.next = .notYet then stopRing s r r.next
      else pumpRing s idx

def execItemWaitExpiry (ring : Fin 16) (s : State) : Host.Outcome State Fault Refusal :=
  .next (itemWaitExpiry s ring.val)

/-! ## Acceptance (R337, R339) -/

/-- The forecast of an item, at acceptance. -/
def takeForecast (s : State) (ws : List Word64) : State :=
  if wfield ws 3 63 63 = 0 then s
  else
    let t := s.now + wfield ws 3 55 32 * 1000
    { s with power := { s.power with forecasts := s.power.forecasts ++
      [⟨min 100 (wfield ws 3 62 56), t, t + wfield ws 3 31 0 * 1000⟩] } }

/-- The item that the ring accepts next. -/
def acceptee (s : State) (r : Ring) : Option JEntry :=
  s.intake.journal.find? fun j => j.ring = r.index && j.seq = r.acc && j.st = .accepted

/-- The mirror of item k is acknowledged, and every item before it is accepted. -/
def itemAccepted (s : State) (idx : Nat) : State := match ringOf s idx with
  | none => s
  | some r => match acceptee s r with
    | none => s
    | some j =>
      if intakeHeld s || !j.mirrored then s
      else
        let r := { r with acc := seqNext r.acc, unreported := r.unreported + 1
                          firstAt := if r.unreported = 0 then s.now else r.firstAt }
        let s := satF (setRing s r) WRK_CNT WRK_CNT_ACCEPTED 1
        let s := takeForecast (writeWord s (r.doorbell + 64) (w64 r.acc)) j.item
        if 16 ≤ r.unreported then postAccepted s r else s

def execItemAccepted (ring : Fin 16) (s : State) : Host.Outcome State Fault Refusal :=
  .next (itemAccepted s ring.val)

def acceptanceTimer (s : State) (idx : Nat) : State := match ringOf s idx with
  | none => s
  | some r => if r.unreported = 0 || quenched s || s.now - r.firstAt < 2000 then s else postAccepted s r

def execAcceptanceRecordTimer (ring : Fin 16) (s : State) : Host.Outcome State Fault Refusal :=
  .next (acceptanceTimer s ring.val)

/-! ## Items run one at a time (R340) -/

/-- The first item of a ring that is not Done. -/
def frontItem (s : State) (idx : Nat) : Option JEntry :=
  s.intake.journal.find? fun j => j.ring = idx && j.st != .done

def itemStart (s : State) (idx : Nat) : State := match ringOf s idx, frontItem s idx with
  | some r, some j =>
    if quenched s || fenced s || j.st != .accepted || !seqBefore j.seq r.acc then s
    else setJournal s { j with st := .running }
  | _, _ => s

def execItemStart (ring : Fin 16) (s : State) : Host.Outcome State Fault Refusal := .next (itemStart s ring.val)

/-- The Done mark of an item that changed nothing is mirrored on its own. -/
def sendMark (s : State) (j : JEntry) : State :=
  if j.doneStep.isNone && j.st = .done && !j.marked && partnerValid s then
    sendMirror (setJournal s { j with marked := true }) j (.doneMark j.ring j.jseq)
  else s

/-- A job leaves the device, and with it any halt, when its JOB_END completes (R338). -/
def jobLeaves (s : State) (ring jseq : Nat) : State :=
  if (s.job.bind (·.endItem)) = some (ring, jseq) then
    putF { s with job := none, surv := { s.surv with haltSeen := false } } SURV_STATUS SURV_STATUS_HALTED 0
  else s

/-- An item at its point of completion is Done, and DONE_SEQ moves past it. -/
def itemDone (s : State) (idx : Nat) : State := match ringOf s idx, runningItem s idx with
  | some r, some j =>
    if quenched s || !j.fin then s
    else
      let k := { j with st := .done }
      let s := setRing (setJournal s k) { r with doneTo := seqNext j.seq }
      jobLeaves (sendMark (writeWord s (r.doorbell + 72) (w64 (seqNext j.seq))) k) j.ring j.jseq
  | _, _ => s

def execItemDone (ring : Fin 16) (s : State) : Host.Outcome State Fault Refusal := .next (itemDone s ring.val)

/-- Record 0x0402. -/
def completionRecord (s : State) (j : JEntry) : List Word64 :=
  [headWord s 0x0402 0, w64 j.seq, j.item.getD 2 0, w64 (j.status * 2 ^ 56 + j.detail % 2 ^ 56)]

/-- The completion record is posted only after the mirror of the Done mark is acknowledged. -/
def doneMirrored (s : State) (idx : Nat) : State :=
  match s.intake.journal.find? (fun j => j.ring = idx && j.st = .done && !j.posted) with
  | none => s
  | some j =>
    if quenched s || fenced s || !j.markAcked then s
    else
      postTo (modJournal s j.jseq fun x => { x with posted := true }) idx (completionRecord s j)

def execDoneMarkMirrored (ring : Fin 16) (s : State) : Host.Outcome State Fault Refusal :=
  .next (doneMirrored s ring.val)

/-! ## Rings (R331, R343) -/

/-- Key of a taken item in the journal until an ACT names its ring. -/
def takenKey (node ring : Nat) : Nat := 16 + 16 * node + ring

def ringEntry (s : State) (idx : Nat) : List Word64 :=
  readWords s (getPair s WRK_RING_BASE_LO WRK_RING_BASE_HI + 64 * idx) 8

/-- A taken ring continues where the mirror stood. -/
def takenOf (s : State) (ws : List Word64) : Option (Nat × Nat × Nat × Nat) :=
  s.intake.taken.find? fun t => t.1 = wfield ws 5 47 32 && t.2.1 = wfield ws 5 3 0

def takeBad (s : State) (ws : List Word64) : Bool :=
  wfield ws 5 63 63 = 1 && match takenOf s ws with
    | some t => t.2.2.1 != wfield ws 4 63 0
    | none => true

def ringEntryBad (s : State) (ws : List Word64) : Bool :=
  wfield ws 0 63 48 != 0x0D02 || 9 < wfield ws 0 47 44 || 9 < wfield ws 0 43 40 || wfield ws 0 29 0 != 0
    || wfield ws 1 6 0 != 0 || wfield ws 2 6 0 != 0 || wfield ws 3 6 0 != 0 || wfield ws 5 62 48 != 0
    || wfield ws 5 31 4 != 0 || wfield ws 6 63 0 != 0 || wfield ws 7 63 0 != 0 || takeBad s ws

/-- The slot area or the doorbell line lies outside DRAM, or the two overlap. -/
def ringAddrBad (r : Ring) : Bool :=
  dramTop < r.base + 384 * r.slots || dramTop < r.doorbell + 128
    || (r.base < r.doorbell + 128 && r.doorbell < r.base + 384 * r.slots)

def connActive (s : State) (idx : Nat) : Bool := match connAt s idx with
  | some c => !c.error
  | none => false

def Ring.ofEntry (idx : Nat) (ws : List Word64) : Ring :=
  let k := wfield ws 4 63 0
  { index := idx, entry := ws, stopped := false, pseq := k, ccons := 0, acc := k, doneTo := k, cseq := 0, next := k
    waitAt := none, unreported := 0, firstAt := 0 }

/-- The reason of a refusal (record 0x300); 0 for none. -/
def ringReason (s : State) (idx : Nat) (ws : List Word64) : Nat :=
  if ringEntryBad s ws then 1
  else if !connActive s (Ring.ofEntry idx ws).conn then 2
  else if ringAddrBad (Ring.ofEntry idx ws) then 3
  else 0

def ringRefused (s : State) (idx reason : Nat) : State :=
  makeRecord s srcSmith 0x300 [w64 (idx + reason * 2 ^ 8)]

/-- The taken items of a failed ring become items of the new one, before its own. -/
def adoptItems (s : State) (idx : Nat) (t : Nat × Nat × Nat × Nat) : State :=
  let js := s.intake.journal.filter (·.ring = takenKey t.1 t.2.1)
  let s := js.foldl (fun s j => sendMirror (setJournal s { j with ring := idx }) { j with ring := idx } .line) s
  { s with intake := { s.intake with taken := s.intake.taken.filter (· != t) } }

/-- The device's words of the doorbell line as the ring starts. -/
def writeDoorbell (s : State) (r : Ring) : State :=
  writeWords s (r.doorbell + 64) [w64 r.acc, w64 r.doneTo, w64 r.cseq]

def activateRing (s : State) (idx : Nat) (ws : List Word64) : State :=
  let r := Ring.ofEntry idx ws
  let t := if wfield ws 5 63 63 = 1 then takenOf s ws else none
  let r := { r with doneTo := (t.map (·.2.2.2)).getD r.doneTo }
  let s := { s with intake := { s.intake with rings := s.intake.rings ++ [r] } }
  let s := writeDoorbell s r
  let s := match t with
    | some x => adoptItems s idx x
    | none => s
  releaseHeld s.intake.heldRecs.length s idx

def ringAct (s : State) (idx : Nat) : State :=
  if (ringOf s idx).isSome then s
  else
    let ws := ringEntry s idx
    let k := ringReason s idx ws
    if k = 0 then activateRing s idx ws else ringRefused s idx k

/-- A write of ACT or DEACT carries INDEX with it. -/
def writeRingIndex (s : State) (idx : Nat) : State := putF s WRK_RING_CTL WRK_RING_CTL_INDEX idx

def ringActBy (s : State) (agent idx : Nat) : State :=
  if mayWrite s agent WRK_RING_CTL then ringAct (writeRingIndex s idx) idx else s

def execRingAct (agent : BitVec 8) (ring : Fin 16) (s : State) : Host.Outcome State Fault Refusal :=
  .next (ringActBy s agent.toNat ring.val)

/-- A DEACT ends a ring whose items are all Done; what the journal still holds of it is freed. -/
def ringDeact (s : State) (idx : Nat) : State := match ringOf s idx with
  | none => s
  | some _ =>
    let js := s.intake.journal.filter (·.ring = idx)
    if js.any (·.st != .done) then ringRefused s idx 4
    else
      let s := noteFull ((js.filter (·.posted)).foldl freeEntry s)
      { s with intake := { s.intake with rings := s.intake.rings.filter (·.index != idx) } }

def ringDeactBy (s : State) (agent idx : Nat) : State :=
  if mayWrite s agent WRK_RING_CTL then ringDeact (writeRingIndex s idx) idx else s

def execRingDeact (agent : BitVec 8) (ring : Fin 16) (s : State) : Host.Outcome State Fault Refusal :=
  .next (ringDeactBy s agent.toNat ring.val)

end Sys2Proof.Machine
end

