-- ==== Sys2Proof/Machine/Ports.lean ====
section
/-! DEFINITION. Watched nodes and the report of a loss (R363), and the ports of the fabric (R267 to R271). -/

namespace Sys2Proof.Machine

/-! ## Detecting a loss (R363) -/

/-- The partner, the wards and the tray peers, as long as they are members. -/
def watched (s : State) (node : Nat) : Bool :=
  isMember s node && ((s.surv.partner.map (·.1)) = some node || s.surv.wards.any (·.node = node) || s.ylp.peers.any (·.node = node))

/-- A frame of a node that is lost or removed: its lease counts from the last of them (R368). -/
def lateFrame (s : State) (node : Nat) : State :=
  if (assocGet node s.surv.removedAt).isSome then
    { s with surv := { s.surv with removedAt := assocSet node s.now s.surv.removedAt } }
  else s

/-- Any YLP frame of a watched node is a heartbeat; a node declared unreachable stays declared until it is
re-synchronised. -/
def heardFrom (s : State) (node : Nat) : State :=
  let s := lateFrame s node
  if watched s node && !(dstAt s node).unreach then { s with surv := { s.surv with heard := assocSet node s.now s.surv.heard } } else s

/-- Members that this device has declared lost. -/
def lostKnown (s : State) : List Nat := (s.surv.removedAt.map (·.1)).filter fun n => (groupNodes s).contains n

/-- The member that takes reports: the lowest rank that is not lost (R365). -/
def reportRank (s : State) (lost : Nat) : Nat := match survGroup s with
  | some g => ((List.range g.size).find? fun r => !(lost :: lostKnown s).contains (g.node r)).getD 0
  | none => 0

/-- The subjects of a LOSS line; a new coordinator learns of every loss known here. -/
def lossSubjects (s : State) (lost : Nat) : List Nat :=
  if reportRank s lost = 0 then [lost] else (lost :: (lostKnown s).filter (· != lost)).take 15

/-- A watched node is declared lost once: a record, the count, and a LOSS line. -/
def declareLoss (s : State) (node reason : Nat) : State :=
  if fenced s || !watched s node || (assocGet node s.surv.heard).isNone || (survGroup s).isNone then s
  else
    let s := { s with surv := { s.surv with
      heard := assocErase node s.surv.heard
      removedAt := assocSet node ((assocGet node s.surv.heard).getD s.now) s.surv.removedAt } }
    let s := satF s SURV_CNT0 SURV_CNT0_LOSSES 1
    let s := makeRecord s srcSurvival 0x383 [w64 (node + reason * 2 ^ 16)]
    sendInbox s (reportRank s node) kLoss reason (lossSubjects s node) []

/-- A member whose connection is in error is reported once (R307). -/
def reportLost (s : State) (p : Nat × Bool) : State :=
  if p.2 || fenced s || (survGroup s).isNone then s
  else
    let s := { s with coll := { s.coll with lost := assocSet p.1 true (assocErase p.1 s.coll.lost) } }
    let s := satF s SURV_CNT0 SURV_CNT0_LOSSES 1
    let s := makeRecord s srcSurvival 0x383 [w64 (p.1 + 2 * 2 ^ 16)]
    sendInbox s (reportRank s p.1) kLoss 2 (lossSubjects s p.1) []

/-- Nodes that the source has just declared unreachable are reported. -/
def reportUnreached (s : State) : State :=
  s.coll.lost.foldl reportLost ((s.ylp.tx.filter (·.unreach)).foldl (fun t d => declareLoss t d.node 2) s)

/-- A row whose data could not be read: a working row is lost after two re-reads (R372), any other row at once
(R377). -/
def rowFailed (s : State) (row : Nat) : State :=
  match assocGet row s.surv.rereads with
  | some k => if 2 ≤ k then wedge s 3 (homeOf s row) row else s
  | none => haltJob s haltShardLost (ownNode s) row

def settleRows (s : State) : State :=
  s.surv.failedRows.foldl rowFailed { s with surv := { s.surv with failedRows := [] } }

/-! ## Priority flow control (R270) -/

/-- Bytes of the ingress buffer that hold requests not completed, of a port and a priority (log entry 107). -/
def ingressFill (s : State) (p q : Nat) : Nat :=
  ((s.ylp.rx.flatMap (·.open_)).filter fun o => o.port.val = p && o.pcp = q).foldl (fun n o => n + o.bytes) 0

def setPausing (s : State) (p q : Nat) (on : Bool) : State :=
  let b := BitVec.ofNat 8 (2 ^ q)
  setPort s p { (portAt s p) with
    pausing := if on then (portAt s p).pausing ||| b else (portAt s p).pausing &&& ~~~b }

/-- An enabled priority is paused past three quarters of its buffer, and released below one half. -/
def settlePause (p : PortId) (s : State) (q : Nat) : State :=
  let n := ingressFill s p.val q
  let on := (portAt s p.val).pausing.getLsbD q
  if !(getF s (PRT_CTL p.val) PRT_CTL_PFC_EN).testBit q || !portUpNow s p.val || fenced s then s
  else if !on && 3 * s.ylp.ingressCap < 4 * n then emit (setPausing s p.val q true) (.pfc p q true)
  else if on && 2 * n < s.ylp.ingressCap then emit (setPausing s p.val q false) (.pfc p q false)
  else s

def settlePauses (s : State) : State :=
  (List.finRange 8).foldl (fun t p => if getF s (PRT_CTL p.val) PRT_CTL_PFC_EN = 0 then t
    else (List.range 8).foldl (settlePause p) t) s

/-- What waited behind a pause leaves, in order. -/
def flushHeld (s : State) (p : Nat) : State :=
  let x := portAt s p
  let go := if portUpNow s p && !fenced s then x.held.filter fun h => !x.paused.getLsbD h.1 else []
  go.foldl (fun t h => emit t h.2) (setPort s p { x with held := x.held.filter fun h => x.paused.getLsbD h.1 })

/-- What waited for the fabric looks again after an event of the line protocol or of a connection: the copy, the
rows read from other nodes, the collectives, the fabric queues. -/
def settleFabric (s : State) : State :=
  pumpFabrics (pollColl (settleRows (settleCopy (reportUnreached (settlePauses s)))))

/-! ## Ports (R268, R303) -/

/-- Ports 3 to 7 in the cyclic order of R302, after a port. -/
def portsAfter (p : PortId) : List PortId :=
  match p with
  | 3 => [4, 5, 6, 7]
  | 4 => [5, 6, 7, 3]
  | 5 => [6, 7, 3, 4]
  | 6 => [7, 3, 4, 5]
  | 7 => [3, 4, 5, 6]
  | _ => []

/-- R302: the next port in cyclic order; the first of them that is up, if any is. -/
def nextConnPort (s : State) (p : PortId) : PortId :=
  ((portsAfter p).find? fun q => portUpNow s q.val).getD ((portsAfter p).headD p)

def moveConn (s : State) (p : PortId) (c : Conn) : Conn := if c.port = p then { c with port := nextConnPort s p } else c

/-- The path of a destination that uses a port. -/
def portPath (s : State) (node p : Nat) : Option Nat :=
  if 3 ≤ p then some (p - 2)
  else if pathPort s node 0 = some p then some 0
  else none

/-- A port down fails its path for every destination; those on it move, and resend at once (R289). -/
def failPortPath (p : Nat) (s : State) (node : Nat) : State :=
  match portPath s node p with
  | none => s
  | some k =>
    let d := dstAt s node
    if d.path = k then movePath s node
    else setDst s { d with failed := d.failed ||| BitVec.ofNat 6 (2 ^ k) }

/-- Every node that the device can have a path to: the members and the destinations it holds. -/
def pathNodes (s : State) : List Nat :=
  ((s.ylp.members.map (·.1) ++ s.ylp.tx.map (·.node)).filter (· != ownNode s)).eraseDups

/-- LINK_UP goes from 1 to 0. -/
def takePortDown (s : State) (p : PortId) (lanes : Nat) : State :=
  if !flag s (PRT_STATUS p.val) PRT_STATUS_LINK_UP then s
  else
    let s := makeRecord s (srcPort p.val) 0x200 [w64 (getR s (PRT_STATUS p.val)).toNat]
    let s := satF s (PRT_LINKDN p.val) PRT_LINKDN_DOWN 1
    let s := setR s (PRT_STATUS p.val) (BitVec.ofNat 32 (lanes % 16 * 16))
    let s := setPort s p.val { (portAt s p.val) with paused := 0, pausing := 0, held := [] }
    let s := { s with conns := s.conns.map (moveConn s p) }
    settleFabric ((pathNodes s).foldl (failPortPath p.val) s)

def portEnable (s : State) (p : Nat) : State := putF s (PRT_CTL p) PRT_CTL_ENABLE 1

def execPortEnable (port : PortId) (s : State) : Host.Outcome State Fault Refusal := .next (portEnable s port.val)

def portDisable (s : State) (p : PortId) : State := takePortDown (putF s (PRT_CTL p.val) PRT_CTL_ENABLE 0) p 0

def execPortDisable (port : PortId) (s : State) : Host.Outcome State Fault Refusal := .next (portDisable s port)

/-- All four lanes train and lock. -/
def portTrained (s : State) (p : Nat) : State :=
  if !flag s (PRT_CTL p) PRT_CTL_ENABLE || flag s (PRT_STATUS p) PRT_STATUS_LINK_UP then s
  else
    let s := putF s (PRT_STATUS p) PRT_STATUS_LANE_OK 15
    let s := putF s (PRT_STATUS p) PRT_STATUS_FEC_LOCK 1
    let s := putF s (PRT_STATUS p) PRT_STATUS_AN_DONE (getF s (PRT_CTL p) PRT_CTL_AN_EN)
    putF s (PRT_STATUS p) PRT_STATUS_LINK_UP 1

/-- The partner offers the selected PMD on four lanes with RS-FEC, and auto-negotiates where AN_EN asks for it (R267). -/
def offerTaken (s : State) (p : Nat) (o : LinkOffer) : Bool :=
  (if flag s (PRT_CTL p) PRT_CTL_MEDIA then o.cr4 else o.kr4) && o.lanes = 4 && o.rsFec && (o.an || !flag s (PRT_CTL p) PRT_CTL_AN_EN)

/-- The port comes up with a partner that offers its options; a port test ends with it (R408). -/
def portUp (s : State) (p : Nat) (o : LinkOffer) : State :=
  let s := setPort s p { (portAt s p) with testing := false }
  if offerTaken s p o then portTrained s p else s

def execPortUp (link : LinkUp) (s : State) : Host.Outcome State Fault Refusal :=
  .next (portUp s link.port.val link.offer)

def execPortDown (port : PortId) (lanesOk : BitVec 4) (s : State) : Host.Outcome State Fault Refusal :=
  .next (takePortDown s port lanesOk.toNat)

/-! ## Discards and flow control (R269 to R271) -/

def filterFrame (s : State) (p : Nat) : State := satF s (PRT_RXDISC p) PRT_RXDISC_FILTERED 1

/-- The address of IEEE 802.1Qbb. -/
def pfcMac : BitVec 48 := 0x0180C2000001

/-- R269, Table 10-1: a frame for this port, tagged once, of a size that the MAC takes. -/
def ethTaken (s : State) (p : Nat) (e : Eth) (bytes : Nat) : Bool :=
  (e.dst = portMac s (ownNode s) p || e.dst = pfcMac) && e.tags = 1 && 64 ≤ bytes && bytes ≤ 4200

/-- The EtherType sends the frame to YLP, to RoCEv2 or to priority flow control; PAUSE, opcode 1, is none of these. -/
def ethSorted (s : State) (e : Eth) (sel : Nat) : Bool :=
  e.etype.toNat = getF s FAB_CTL FAB_CTL_ETYPE || ((e.etype = 0x0800 || e.etype = 0x86DD) && sel = 4791)
    || (e.etype = 0x8808 && sel = 0x0101)

/-- A down port receives nothing; a frame that a protocol takes comes by the row of that protocol. -/
def frameFiltered (s : State) (p : Nat) (c : FilterCause) : State :=
  if !portUpNow s p then s
  else match c with
    | .badFcs => satF s (PRT_RXDISC p) PRT_RXDISC_BADFCS 1
    | .badCodeword => satF (satF s (PRT_FECUNC p) PRT_FECUNC_UNCORRECTED 1) (PRT_RXDISC p) PRT_RXDISC_BADFCS 1
    | .corrected n => satF s (PRT_FECCOR p) PRT_FECCOR_CORRECTED n
    | .frame e n sel => if ethTaken s p e n && ethSorted s e sel.toNat then s else filterFrame s p

def execFrameFiltered (port : PortId) (cause : FilterCause) (s : State) : Host.Outcome State Fault Refusal :=
  .next (frameFiltered s port.val cause)

/-- The partner pauses or releases a priority; one that PFC_EN does not enable is not obeyed. -/
def pfcFrame (s : State) (p prio : Nat) (pause : Bool) : State :=
  if !portUpNow s p || !(getF s (PRT_CTL p) PRT_CTL_PFC_EN).testBit prio then s
  else
    let b := (portAt s p).paused
    let b := if pause then b ||| BitVec.ofNat 8 (2 ^ prio) else b &&& ~~~BitVec.ofNat 8 (2 ^ prio)
    flushHeld (putF (setPort s p { (portAt s p) with paused := b }) (PRT_STATUS p) PRT_STATUS_PAUSED (if b = 0 then 0 else 1)) p

def execPfcFrame (port : PortId) (prio : BitVec 3) (pause : Bool) (s : State) :
    Host.Outcome State Fault Refusal :=
  .next (pfcFrame s port.val prio.toNat pause)

end Sys2Proof.Machine
end

