-- ==== Sys2Proof/Machine/Ylp.lean ====
section
/-! DEFINITION. The line protocol (R275 to R296): the receiver's procedure, refusals and duplicates, completion
at the homes and acknowledgement, the replies at the source, and the timers of both sides. -/

namespace Sys2Proof.Machine

/-! ## What a receiver accepts (R275, R276, R278) -/

/-- The difference of epochs, modulo 256: newer from 1 to 127. -/
def epochNewer (a b : Nat) : Bool := 1 ≤ (a + 256 - b % 256) % 256 && (a + 256 - b % 256) % 256 ≤ 127

/-- An epoch that is neither the member's nor newer. -/
def epochOlder (a b : Nat) : Bool := a % 256 != b % 256 && !epochNewer a b

def isRequestOp (op : Nat) : Bool := (1 ≤ op && op ≤ 7) || op = opRetire
def isReplyOp (op : Nat) : Bool :=
  op = opReadData || op = opAck || op = opAtomicResult || op = opProbeAck || op = opBusy || op = opRefuse

/-- Bytes that a request carries (Table 10-5). -/
def requestBytes (f : YlpFrame) : Nat :=
  let op := f.op.toNat
  if op = opWrite then 128 * f.lines.toNat
  else if op = opWriteMasked || op = opReduce then 128
  else if op = opAtomic then 16
  else 0

def linesBad (f : YlpFrame) : Bool :=
  let op := f.op.toNat
  let n := f.lines.toNat
  if op = opAtomic || op = opFence then n != 0
  else if op = opRead || op = opWrite then n = 0 || 8 < n
  else if op = opWriteMasked || op = opReduce then n != 1
  else 8 < n

def subopBad (f : YlpFrame) : Bool :=
  (f.op.toNat = opAtomic && 9 < f.subop.toNat) || (f.op.toNat = opReduce && 4 < f.subop.toNat)

/-- R278. -/
def requestMalformed (f : YlpFrame) : Bool :=
  !isRequestOp f.op.toNat || linesBad f || f.payload.length != requestBytes f
    || f.addr.toNat % (if f.op.toNat = opAtomic then 8 else 128) != 0
    || (f.op.toNat = opWriteMasked && f.mask = 0) || subopBad f || f.rcount = 3

/-- Length that a reply's operation gives its payload; any lines for READ_DATA. -/
def replyLengthBad (f : YlpFrame) : Bool :=
  if f.op.toNat = opReadData then f.payload.length != 128 * f.lines.toNat
  else if f.op.toNat = opAtomicResult then f.payload.length != 16
  else f.payload.length != 0

/-- Discards that draw no answer; before it joins, the device takes no frame (R274, R275). -/
def frameDropped (s : State) (f : YlpFrame) : Bool :=
  !joined s || f.ver != 1 || 1 < f.kind.toNat || f.dst.toNat != ownNode s
    || (match assocGet f.src.toNat s.ylp.members with
        | some e => epochOlder f.epoch.toNat e
        | none => true)
    || (f.kind = 0 && (f.op.toNat = opProbe || f.op.toNat = opRetire) && requestMalformed f)
    || (f.kind = 1 && (!isReplyOp f.op.toNat || replyLengthBad f))

/-! ## Replay tables (R293 to R296) -/

def replayKey (f : YlpFrame) (r : Replay) : Bool :=
  r.src = f.src.toNat && r.epoch = f.epoch.toNat && r.tag = f.tag.toNat

def dropReplay (p : Replay → Bool) (s : State) : State :=
  { s with hearths := s.hearths.map fun h => { h with replay := h.replay.filter fun r => !p r } }

/-- Tags that a source retires. -/
def retireTags (s : State) (f : YlpFrame) : State :=
  let tags := [f.rtag0.toNat, f.rtag1.toNat].take f.rcount.toNat
  if tags.isEmpty then s
  else dropReplay (fun r => r.src = f.src.toNat && r.epoch = f.epoch.toNat && tags.contains r.tag) s

def notePeak (s : State) (n : Nat) : State := { s with ylp := { s.ylp with replayPeak := max n s.ylp.replayPeak } }

/-- The receiving port reserves an entry; one that stands under the same key gives way (R293). -/
def reserveReplay (s : State) (h : Nat) (f : YlpFrame) : Option State :=
  let rest := (hearthAt s h).replay.filter fun r => !replayKey f r
  if 4096 ≤ rest.length then none
  else
    let e : Replay := ⟨f.src.toNat, f.epoch.toNat, f.tag.toNat, false, 0, 0, s.now⟩
    some (notePeak (modHearth s h fun x => { x with replay := rest ++ [e] }) (rest.length + 1))

def recordReplay (s : State) (h : Nat) (f : YlpFrame) (status : Nat) (v : Word64) : State :=
  modHearth s h fun x => { x with
    replay := updWhere (replayKey f) (fun r => { r with recorded := true, status := status, result := v, time := s.now }) x.replay }

/-! ## The refusal record (R283) -/

def refusalOf (s : State) (f : YlpFrame) : Option Refused :=
  s.ylp.refused.find? fun r => r.node = f.src.toNat && r.epoch = f.epoch.toNat && r.seq = f.seq.toNat

/-- A refused request whose entry goes is remembered as such: a duplicate of it is not answered. -/
def lapse (s : State) (r : Refused) : State := match rxAt s r.node with
  | some x => if x.epoch = r.epoch then setRx s { x with lapsed := r.seq :: x.lapsed.filter (· != r.seq) } else s
  | none => s

def addRefusal (s : State) (r : Refused) : State :=
  if 4096 ≤ s.ylp.refused.length then
    match s.ylp.refused with
    | [] => s
    | old :: rest => lapse { s with ylp := { s.ylp with refused := rest ++ [r] } } old
  else { s with ylp := { s.ylp with refused := s.ylp.refused ++ [r] } }

def noteRefusal (s : State) (f : YlpFrame) (status : Nat) : State :=
  addRefusal s ⟨f.src.toNat, f.epoch.toNat, f.seq.toNat, status, s.now⟩

def refuseReply (s : State) (port : Nat) (f : YlpFrame) (status : Nat) : State :=
  sendReply s port (replyFrame s f opRefuse status)

/-! ## The checks before the home (R279, R427) -/

/-- Bytes that a request names. -/
def requestSpan (f : YlpFrame) : Nat :=
  let op := f.op.toNat
  if op = opAtomic then 8
  else if op = opFence then 0
  else 128 * f.lines.toNat

/-- A window of the protection set-up with YLP set covers the request with its access: an atomic needs both. -/
def winCovers (s : State) (f : YlpFrame) (w : Nat) : Bool :=
  let o := 0x80 + 32 * w
  let base := bitsOf 47 0 (protWord s o)
  let flags := protWord s (o + 16) / 2 ^ 32
  let op := f.op.toNat
  flags.testBit 2 && (flags.testBit 0 || !(op = opRead || op = opAtomic)) && (flags.testBit 1 || op = opRead)
    && base ≤ f.addr.toNat && f.addr.toNat + requestSpan f ≤ base + bitsOf 47 0 (protWord s (o + 8))

/-- A write into a ward slot that its owner may not make: the ward is refused (R356), or its slot is empty, and the first write
of a full copy is that of the header (Table 13-9, log entry 193). -/
def wardShut (s : State) (f : YlpFrame) : Bool :=
  let a := f.addr.toNat
  let p := s.surv.plan
  (f.op.toNat = opWrite || f.op.toNat = opWriteMasked) &&
    ((s.surv.turned.contains f.src.toNat && planWardBase p ≤ a && a < planWardBase p + planMaxWards p * planWardLen p)
      || s.surv.wards.any fun w => w.slot + 128 ≤ a && a < w.slot + planWardLen p && (readWord s w.slot).toNat % 4 = 0)

/-- PROTECT, UNASSIGNED or WINDOW, or 0. -/
def refusedStatus (s : State) (f : YlpFrame) : Nat :=
  let a := f.addr.toNat
  let n := requestSpan f
  if f.op.toNat = opFence then 0
  else if !(List.range 16).any (winCovers s f) || wardShut s f then stProtect
  else if !(isDram a && a + n ≤ dramTop) && !(isWindow a && isWindow (a + n - 1)) then stUnassigned
  else if isDram a then (if rangeClosed s a n then stUnassigned else 0)
  else if f.op.toNat = opAtomic || f.op.toNat = opReduce || !assigned s a n then stWindow
  else 0

/-! ## Effects at the homes (R250, R256, R260, R261) -/

/-- The data of a read line by line; a poisoned line gives free values. -/
def readLines : Nat → Nat → State → State × List Byte × Bool
  | 0, _, s => (s, [], false)
  | k + 1, a, s =>
    if poisoned s a then
      let bs := bytesOfWords ((List.range 16).map fun i => Config.freeWord (s.free + i))
      let r := readLines k (a + 128) { s with free := s.free + 16 }
      (r.1, bs ++ r.2.1, true)
    else
      let m := memRead s a 128
      let r := readLines k (a + 128) m.1
      (r.1, m.2.2 ++ r.2.1, r.2.2)

/-- READ_DATA, with POISON when a line of it is poisoned. -/
def answerRead (s : State) (port : Nat) (f : YlpFrame) : State :=
  let r := readLines f.lines.toNat f.addr.toNat s
  sendReply r.1 port { replyFrame r.1 f opReadData (if r.2.2 then stPoison else stOk) with
    lines := f.lines, payload := r.2.1 }

/-- Words of a partial line; on a poisoned line nothing is written. -/
def applyMasked (s : State) (f : YlpFrame) : State × Nat :=
  if isDram f.addr.toNat && poisoned s f.addr.toNat then (s, stPoison)
  else (touchLine (writeMasked s f.addr.toNat f.mask.toNat (wordsOf 16 f.payload)) f.addr.toNat true false, stOk)

def crucStatus (c : CrucAcc) : Nat := match c with
  | .ok _ => stOk
  | .poison => stPoison
  | .unassigned => stUnassigned
  | .window => stWindow

/-- The old value in network byte order (R12, Table 10-5). -/
def atomicReply (s : State) (port : Nat) (f : YlpFrame) (status : Nat) (v : Word64) : State :=
  sendReply s port { replyFrame s f opAtomicResult status with
    tag := f.tag, payload := beBytes 8 v.toNat ++ List.replicate 8 0 }

/-- A word of an ATOMIC's payload, in network byte order. -/
def frameWord (f : YlpFrame) (off : Nat) : Word64 := w64 (ofBE ((f.payload.drop off).take 8))

/-- R294, for an atomic that is not a duplicate. -/
def applyAtomic (s : State) (port : Nat) (f : YlpFrame) : State × Nat :=
  let h := homeOf s f.addr.toNat
  let r := atomicAt s f.addr.toNat f.subop.toNat (frameWord f 0) (frameWord f 8)
  match r.2 with
  | .ok old => (atomicReply (recordReplay r.1 h f stOk old) port f stOk old, stOk)
  | x => (atomicReply (recordReplay r.1 h f (crucStatus x) 0) port f (crucStatus x) 0, crucStatus x)

/-- A request passes to its homes. -/
def applyRequest (s : State) (port : Nat) (f : YlpFrame) : State × Nat :=
  match f.op.toNat with
  | 0x01 => (answerRead s port f, stOk)
  | 0x02 => ((memWrite s f.addr.toNat f.payload).1, stOk)
  | 0x03 => applyMasked s f
  | 0x04 => applyAtomic s port f
  | 0x05 =>
    let r := reduceAt s f.addr.toNat f.subop.toNat (wordsOf 16 f.payload)
    (r.1, crucStatus r.2)
  | _ => (s, stOk)

/-! ## The receiver (R282 to R284) -/

/-- Requests below this point have completed: completions out of order are folded in. -/
def foldDone : Nat → RxSrc → RxSrc
  | 0, r => r
  | n + 1, r =>
    if r.done_.contains r.acked then
      foldDone n { r with acked := seqAdd r.acked 1, done_ := r.done_.filter (· != r.acked) }
    else r

/-- A request completes; the acknowledgement advances when it is the next. -/
def completeSeq (s : State) (r : RxSrc) (seq : Nat) : RxSrc :=
  let r := { r with open_ := r.open_.filter (·.seq != seq), done_ := r.done_ ++ [seq] }
  let t := foldDone r.done_.length r
  if t.acked = r.acked then t
  else { t with count := t.count + (t.acked + 2 ^ 24 - r.acked) % 2 ^ 24
                due := match t.due with
                  | some d => some d
                  | none => some s.now }

def ackReply (s : State) (port node : Nat) : State :=
  sendReply s port (blankFrame s node ylpRep opAck)

/-- After 16 completions the acknowledgement leaves at once. -/
def ackIfMany (s : State) (node : Nat) : State := match rxAt s node with
  | some r => if 16 ≤ r.count then ackReply s r.port.val node else s
  | none => s

/-- A request is over at the homes; one that failed is refused on the port it arrived on, and remembered (R283, R288). -/
def finishRequest (s : State) (r : RxSrc) (o : OpenReq) : State :=
  let s := setRx s (completeSeq s r o.seq)
  let s :=
    if o.status = 0 then s
    else
      let f : YlpFrame := { blankFrame s (ownNode s) ylpReq o.op with
        src := BitVec.ofNat 16 r.node, epoch := BitVec.ofNat 8 r.epoch, seq := BitVec.ofNat 24 o.seq }
      refuseReply (noteRefusal s f o.status) o.port.val f o.status
  settlePauses (ackIfMany s r.node)

def homeCompletion (s : State) (node seq : Nat) : State :=
  match rxAt s node with
  | none => s
  | some r => match r.open_.find? (·.seq = seq) with
    | some o => finishRequest s r o
    | none => s

def execHomeCompletion (node : BitVec 16) (seq : BitVec 24) (s : State) : Host.Outcome State Fault Refusal :=
  .next (homeCompletion s node.toNat seq.toNat)

/-- A duplicate of a request already taken (R283, R294). -/
def duplicate (s : State) (r : RxSrc) (port : Nat) (f : YlpFrame) : State :=
  let s := satF s FAB_CNT1 FAB_CNT1_DUPS 1
  match refusalOf s f with
  | some x => refuseReply s port f x.status
  | none =>
    if r.lapsed.contains f.seq.toNat then s
    else if f.op.toNat = opRead then answerRead s port f
    else if f.op.toNat = opAtomic then
      match (hearthAt s (homeOf s f.addr.toNat)).replay.find? (replayKey f) with
      | some e =>
        if e.recorded then atomicReply (satF s FAB_CNT3 FAB_CNT3_REPLAY_HITS 1) port f e.status e.result else s
      | none => s
    else if r.open_.any (·.seq = f.seq.toNat) then s
    else ackReply s port r.node

/-- The request is taken: EXPECT moves past it. -/
def takeSeq (r : RxSrc) (seq : Nat) : RxSrc :=
  { r with expect := seqAdd seq 1, lapsed := r.lapsed.filter (· != seq) }

/-- Refused when it is taken: no home sees it, and it is complete. -/
def refuseTaken (s : State) (r : RxSrc) (port : Nat) (f : YlpFrame) (status : Nat) : State :=
  let s := setRx s (completeSeq s (takeSeq r f.seq.toNat) f.seq.toNat)
  ackIfMany (refuseReply (noteRefusal s f status) port f status) r.node

/-- A write or a reduction is complete when its lines are at their homes; a read once it is answered, an atomic once its result is
recorded, a FENCE at once (R284). -/
def completesLater (f : YlpFrame) : Bool :=
  f.op.toNat = opWrite || f.op.toNat = opWriteMasked || f.op.toNat = opReduce

/-- Bytes of a YLP frame on the wire (Table 10-3). -/
def frameBytes (f : YlpFrame) : Nat := 66 + f.payload.length

/-- The ingress buffer of the frame's priority has no room for it. -/
def ingressFull (s : State) (port : PortId) (f : YlpFrame) : Bool :=
  s.ylp.ingressCap < ingressFill s port.val f.eth.pcp.toNat + frameBytes f

/-- Taken and passed to its homes. The acknowledgement of a request that completes with its reply rides on it. -/
def acceptRequest (s : State) (r : RxSrc) (port : PortId) (f : YlpFrame) : State :=
  let seq := f.seq.toNat
  let t := takeSeq r seq
  if completesLater f then
    let a := applyRequest s port.val f
    setRx a.1 { t with open_ := t.open_ ++ [⟨seq, f.op.toNat, a.2, port, f.eth.pcp.toNat, frameBytes f⟩] }
  else
    let s := (applyRequest (setRx s (completeSeq s t seq)) port.val f).1
    if f.op.toNat = opFence then ackReply s port.val r.node else ackIfMany s r.node

/-- The request is not taken (R286). -/
def busyReply (s : State) (port : PortId) (f : YlpFrame) : State :=
  sendReply (satF s FAB_CNT2 FAB_CNT2_BUSY_SENT 1) port.val (replyFrame s f opBusy stBusy)

/-- A request in its place in the sequence. -/
def takeRequest (s : State) (r : RxSrc) (port : PortId) (f : YlpFrame) : State :=
  if requestMalformed f then refuseTaken s r port.val f stMalformed
  else
    let st := refusedStatus s f
    if st != 0 then refuseTaken s r port.val f st
    else if ingressFull s port f then busyReply s port f
    else if f.op.toNat = opAtomic then
      match reserveReplay s (homeOf s f.addr.toNat) f with
      | some t => acceptRequest t r port f
      | none => busyReply s port f
    else acceptRequest s r port f

/-- State for a source that starts an epoch with SYN; its older replay and refusal entries go (R283, R296). -/
def startEpoch (s : State) (port : PortId) (f : YlpFrame) : State × RxSrc :=
  let n := f.src.toNat
  let s := dropReplay (fun r => r.src = n && epochNewer f.epoch.toNat r.epoch) s
  let s := { s with ylp := { s.ylp with refused := s.ylp.refused.filter fun r => r.node != n } }
  let r : RxSrc := { node := n, epoch := f.epoch.toNat, expect := f.seq.toNat, acked := f.seq.toNat, open_ := []
                     done_ := [], lapsed := [], port := port, count := 0, due := none }
  (setRx s r, r)

def sequenced (s : State) (r : RxSrc) (port : PortId) (f : YlpFrame) : State :=
  let r := { r with port := port }
  let s := setRx s r
  let d := seqDiff f.seq.toNat r.expect
  if d < 0 then duplicate s r port.val f
  else if 0 < d then satF s FAB_CNT4 FAB_CNT4_GAPS 1
  else takeRequest s r port f

/-- receive(f) of R282. -/
def receiveRequest (s : State) (port : PortId) (f : YlpFrame) : State :=
  match (rxAt s f.src.toNat).filter fun r => !epochNewer f.epoch.toNat r.epoch with
  | some r => if f.epoch.toNat = r.epoch then sequenced s r port f else s
  | none =>
    if !f.flags.toNat.testBit 0 then refuseReply s port.val f stNosync
    else
      let p := startEpoch s port f
      sequenced p.1 p.2 port f

/-! ## Frames as they arrive -/

/-- The port takes the frame, and its EtherType is that of YLP (R269). -/
def ylpTaken (s : State) (p : Nat) (f : YlpFrame) : Bool :=
  ethTaken s p f.eth (frameBytes f) && f.eth.etype.toNat = getF s FAB_CTL FAB_CTL_ETYPE

/-- What every frame goes through: the port's own checks, its ICRC, its header and its source; a frame accepted is a
heartbeat, and carries an acknowledgement. -/
def frameIn (s : State) (port : PortId) (f : YlpFrame) (take : State → State) : State :=
  if !portUpNow s port.val then s
  else if !ylpTaken s port.val f then filterFrame s port.val
  else if f.icrc != icrcOf f then satF s FAB_CNT4 FAB_CNT4_ICRC_BAD 1
  else if frameDropped s f then filterFrame (lateFrame s f.src.toNat) port.val
  else settleFabric (take (takeAck (heardFrom s f.src.toNat) f.src.toNat f.ack.toNat))

/-- A request with its retire tags (R295). A malformed one is answered without them. -/
def requestIn (s : State) (port : PortId) (f : YlpFrame) : State :=
  receiveRequest (if requestMalformed f then s else retireTags s f) port f

/-- A frame of one row of the table: another operation is not this command. -/
def ylpRequest (s : State) (op : Nat) (port : PortId) (f : YlpFrame) : State :=
  if f.op.toNat = op then frameIn s port f fun t => requestIn t port f else s

/-- An operation that Table 10-5 does not give reaches the receiver by the row of READ. -/
def ylpReadIn (s : State) (port : PortId) (f : YlpFrame) : State :=
  if f.op.toNat = opRead || (f.kind = 0 && !isRequestOp f.op.toNat) then
    frameIn s port f fun t => requestIn t port f
  else s

def execYlpRead (port : PortId) (f : YlpFrame) (s : State) : Host.Outcome State Fault Refusal :=
  .next (ylpReadIn s port f)

def execYlpWrite (port : PortId) (f : YlpFrame) (s : State) : Host.Outcome State Fault Refusal :=
  .next (ylpRequest s opWrite port f)

def execYlpWriteMasked (port : PortId) (f : YlpFrame) (s : State) : Host.Outcome State Fault Refusal :=
  .next (ylpRequest s opWriteMasked port f)

def execYlpAtomic (port : PortId) (f : YlpFrame) (s : State) : Host.Outcome State Fault Refusal :=
  .next (ylpRequest s opAtomic port f)

def execYlpReduce (port : PortId) (f : YlpFrame) (s : State) : Host.Outcome State Fault Refusal :=
  .next (ylpRequest s opReduce port f)

def execYlpFence (port : PortId) (f : YlpFrame) (s : State) : Host.Outcome State Fault Refusal :=
  .next (ylpRequest s opFence port f)

/-- A PROBE carries no sequence number and is answered on its port (R288, R291). -/
def ylpProbeIn (s : State) (port : PortId) (f : YlpFrame) : State :=
  if f.op.toNat = opProbe then
    frameIn s port f fun t => sendReply (retireTags t f) port.val (replyFrame t f opProbeAck stOk)
  else s

def execYlpProbe (port : PortId) (f : YlpFrame) (s : State) : Host.Outcome State Fault Refusal :=
  .next (ylpProbeIn s port f)

def ylpRetireIn (s : State) (port : PortId) (f : YlpFrame) : State :=
  if f.op.toNat = opRetire then frameIn s port f fun t => retireTags t f else s

def execYlpRetire (port : PortId) (f : YlpFrame) (s : State) : Host.Outcome State Fault Refusal :=
  .next (ylpRetireIn s port f)

/-! ## Replies at the source (R279, R282, R283) -/

def requestAt (s : State) (node seq : Nat) : Option TxReq :=
  (s.ylp.tx.find? (·.node = node)).bind fun d => d.standing.find? fun r => r.seq = seq

/-- STATUS as the source takes it: 8 to 15 are MALFORMED. -/
def takenStatus (f : YlpFrame) : Nat := if 8 ≤ f.status.toNat then stMalformed else f.status.toNat

/-- Requests of a node that an acknowledgement and a reply complete are looked at again. -/
def sweepNode (s : State) (node : Nat) : State := match s.ylp.tx.find? (·.node = node) with
  | some d => takeAck s node ((d.acked + 2 ^ 24 - 1) % 2 ^ 24)
  | none => s

/-- A request ends with a status other than OK. -/
def failRequest (s : State) (node : Nat) (r : TxReq) (status : Nat) : State :=
  ownerDone (dropRequest s node r.seq) r.owner (statusFault status)

/-- Everything outstanding to a node ends with the fabric fault, and its sequence starts again from 0 with SYN
(R282). -/
def resync (s : State) (node : Nat) : State :=
  let d := dstAt s node
  d.owners.foldl (fun t o => ownerDone t o (some faultFabric))
    (setDst s { newDst s node with path := d.path, failed := d.failed })

/-- The source stops sending, and will retransmit from this request after BUSY_WAIT (R286). -/
def markBusy (s : State) (f : YlpFrame) : State :=
  setDst s { (dstAt s f.src.toNat) with busy := some (f.seq.toNat, s.now) }

/-- A reply with a status other than OK: retransmission, a new sequence, or the outcome of Table 10-6. -/
def takeStatus (s : State) (f : YlpFrame) (r : TxReq) : State :=
  if takenStatus f = stBusy then markBusy s f
  else if takenStatus f = stNosync then resync s f.src.toNat
  else failRequest s f.src.toNat r (takenStatus f)

/-- Whole-line data at a local address for the engines, or in the buffer of an entry. -/
def storeReply (s : State) (r : TxReq) (bs : List Byte) : State :=
  match r.owner with
  | .insn i q qid => noteData s i.val q qid r.dst ((bs.drop r.skip).take r.len)
  | .fetch _ => (memWrite s r.dst bs).1
  | _ => s

/-- The first READ_DATA of a request is taken. -/
def takeReadData (s : State) (f : YlpFrame) : State :=
  match requestAt s f.src.toNat f.seq.toNat with
  | none => s
  | some r =>
    if r.replied || r.frame.op.toNat != opRead then s
    else if takenStatus f != 0 then takeStatus s f r
    else if f.lines != r.frame.lines then failRequest s f.src.toNat r stMalformed
    else sweepNode (markReplied (storeReply s r f.payload) f.src.toNat f.seq.toNat) f.src.toNat

/-- The tag of a result is retired with the next request, or after 2 µs. -/
def queueRetire (s : State) (node tag : Nat) : State := match s.ylp.tx.find? (·.node = node) with
  | some d => setDst s { d with retire := d.retire ++ [tag], retireAt := match d.retireAt with
      | some t => some t
      | none => some s.now }
  | none => s

/-- The first ATOMIC_RESULT of a request. -/
def takeAtomicResult (s : State) (f : YlpFrame) : State :=
  match requestAt s f.src.toNat f.seq.toNat with
  | none => s
  | some r =>
    if r.replied || r.frame.op.toNat != opAtomic || f.tag != r.frame.tag then s
    else if takenStatus f = stBusy || takenStatus f = stNosync then takeStatus s f r
    else
      let s := queueRetire s f.src.toNat f.tag.toNat
      if takenStatus f != 0 then failRequest s f.src.toNat r (takenStatus f)
      else sweepNode (markReplied (storeReply s r f.payload) f.src.toNat f.seq.toNat) f.src.toNat

def takeRefuse (s : State) (f : YlpFrame) : State :=
  match requestAt s f.src.toNat f.seq.toNat with
  | none => s
  | some r =>
    if takenStatus f = stNosync then resync s f.src.toNat
    else if r.replied then s
    else if takenStatus f = 0 then failRequest s f.src.toNat r stMalformed
    else takeStatus s f r

def takeBusy (s : State) (f : YlpFrame) : State :=
  match requestAt s f.src.toNat f.seq.toNat with
  | none => s
  | some _ => markBusy s f

/-- The path of the port is usable again for the node that answers (R291). -/
def takeProbeAck (s : State) (port : PortId) (f : YlpFrame) : State :=
  match s.ylp.tx.find? (·.node = f.src.toNat), portPath s f.src.toNat port.val with
  | some d, some k =>
    let d := { d with failed := d.failed &&& ~~~BitVec.ofNat 6 (2 ^ k) }
    let home := homePath s d
    setDst s (if d.unacked.isEmpty && pathUsable s d.node d.failed home then { d with path := home } else d)
  | _, _ => s

def ylpReply (s : State) (op : Nat) (port : PortId) (f : YlpFrame) (take : State → State) : State :=
  if f.op.toNat = op && f.kind != 0 then frameIn s port f take else s

def execYlpReadData (port : PortId) (f : YlpFrame) (s : State) : Host.Outcome State Fault Refusal :=
  .next (ylpReply s opReadData port f fun t => takeReadData t f)

/-- Any reply that Table 10-5 does not give reaches the device by the row of ACK, which discards it. -/
def ylpAckIn (s : State) (port : PortId) (f : YlpFrame) : State :=
  if f.kind != 0 && (f.op.toNat = opAck || !isReplyOp f.op.toNat) then frameIn s port f id else s

def execYlpAck (port : PortId) (f : YlpFrame) (s : State) : Host.Outcome State Fault Refusal :=
  .next (ylpAckIn s port f)

def execYlpAtomicResult (port : PortId) (f : YlpFrame) (s : State) : Host.Outcome State Fault Refusal :=
  .next (ylpReply s opAtomicResult port f fun t => takeAtomicResult t f)

def execYlpProbeAck (port : PortId) (f : YlpFrame) (s : State) : Host.Outcome State Fault Refusal :=
  .next (ylpReply s opProbeAck port f fun t => takeProbeAck t port f)

def execYlpBusy (port : PortId) (f : YlpFrame) (s : State) : Host.Outcome State Fault Refusal :=
  .next (ylpReply s opBusy port f fun t => takeBusy t f)

def execYlpRefuse (port : PortId) (f : YlpFrame) (s : State) : Host.Outcome State Fault Refusal :=
  .next (ylpReply s opRefuse port f fun t => takeRefuse t f)

/-! ## Timers -/

/-- ACK_DELAY, in units of 10 ns, after an advance that nothing carried (R284). -/
def ackDelay (s : State) (node : Nat) : State :=
  match rxAt s node with
  | none => s
  | some r => match r.due with
    | none => s
    | some t => if s.now - t < 10 * getF s FAB_WIN FAB_WIN_ACK_DELAY then s else ackReply s r.port.val node

def execAckDelayExpiry (node : BitVec 16) (s : State) : Host.Outcome State Fault Refusal :=
  .next (ackDelay s node.toNat)

def busyWait (s : State) (node : Nat) : State :=
  match (dstAt s node).busy with
  | none => s
  | some b =>
    if s.now - b.2 < 1000 * getF s FAB_WIN FAB_WIN_BUSY_WAIT then s
    else
      let s := resendAll (setDst s { (dstAt s node) with busy := none }) node (some b.1)
      drainWaiting (dstAt s node).waiting.length s node

def execBusyWaitExpiry (node : BitVec 16) (s : State) : Host.Outcome State Fault Refusal :=
  .next (busyWait s node.toNat)

/-- RTO in ns (R289). -/
def rto (s : State) (path : Nat) : Nat :=
  1000 * (if path = 0 then getF s FAB_TMR FAB_TMR_RTO_DIR else getF s FAB_TMR FAB_TMR_RTO_SW)

def retransmit (s : State) (node : Nat) : State :=
  let d := dstAt s node
  match d.unacked with
  | [] => s
  | r :: _ =>
    if d.busy.isSome || s.now - r.sentAt < rto s d.path then s
    else if getF s FAB_TMR FAB_TMR_PATH_FAILS ≤ d.fails + 1 then settleFabric (movePath s node)
    else resendAll (setDst s { d with fails := d.fails + 1 }) node none

def execRetransmissionTimeout (node : BitVec 16) (s : State) : Host.Outcome State Fault Refusal :=
  .next (retransmit s node.toNat)

def frameLife (s : State) : Nat := 1000 * getF s FAB_TMR FAB_TMR_FRAME_LIFE

/-- A request has waited FRAME_LIFE without acknowledgement (R290). -/
def frameLifeExpiry (s : State) (node : Nat) : State :=
  let d := dstAt s node
  if d.unacked.any fun r => frameLife s ≤ s.now - r.firstAt then settleFabric (unreachable s node) else s

def execFrameLifeExpiry (node : BitVec 16) (s : State) : Host.Outcome State Fault Refusal :=
  .next (frameLifeExpiry s node.toNat)

/-- Destinations that have failed the path of a port. -/
def failedOn (s : State) (p : Nat) : List Nat :=
  (s.ylp.tx.filter fun d => match portPath s d.node p with
    | some k => d.failed.toNat.testBit k
    | none => false).map (·.node)

/-- The destination that a failed path's PROBE goes to: they take turns (log entry 110). -/
def probeTarget (s : State) (p : Nat) : Option Nat :=
  let ns := failedOn s p
  match assocGet p s.ylp.probed with
  | some n => (ns.drop (ns.idxOf n + 1) ++ ns).head?
  | none => ns.head?

def probePort (s : State) (p : Nat) : State := match probeTarget s p with
  | some n =>
    let s := sendFrame s p (blankFrame s n ylpReq opProbe)
    { s with ylp := { s.ylp with probed := assocSet p n s.ylp.probed } }
  | none => s

/-- One PROBE on each failed path, once every millisecond of local time (R291). -/
def probeTimer (s : State) : State :=
  if s.now - s.ylp.probeAt < 1000000 then s
  else reportUnreached ((List.range 8).foldl probePort { s with ylp := { s.ylp with probeAt := s.now } })

def execProbeTimer (s : State) : Host.Outcome State Fault Refusal := .next (probeTimer s)

/-- 2 µs after a result with no request to carry its tag (R295). -/
def retireTimer (s : State) (node : Nat) : State :=
  let d := dstAt s node
  match d.retireAt with
  | none => s
  | some t =>
    if s.now - t < 2000 || d.retire.isEmpty then s
    else
      let rest := d.retire.drop 2
      let e := { d with retire := rest, retireAt := if rest.isEmpty then none else d.retireAt }
      sendOn (setDst s e) d (withTags d (blankFrame s node ylpReq opRetire))

def execRetireTimer (node : BitVec 16) (s : State) : Host.Outcome State Fault Refusal :=
  .next (retireTimer s node.toNat)

def replayLimit (s : State) : Nat := max (1000 * getF s FAB_REPLAY FAB_REPLAY_REPLAY_AGE) (2 * frameLife s)

/-- The oldest entry of a hearth that has outlived its limit goes, counted and recorded. -/
def replayAged (s : State) (h : Nat) : State :=
  match (hearthAt s h).replay.find? fun r => replayLimit s ≤ s.now - r.time with
  | none => s
  | some e =>
    let s := modHearth s h fun x => { x with replay := x.replay.erase e }
    makeRecord (satF s FAB_CNT3 FAB_CNT3_REPLAY_AGED 1) (srcHearth h) 0x201 [w64 (e.src + e.tag * 2 ^ 24)]

def execReplayAged (h : HearthId) (s : State) : Host.Outcome State Fault Refusal := .next (replayAged s h.val)

/-- Refusal entries older than twice FRAME_LIFE go (R283). -/
def refusalExpiry (s : State) : State :=
  let old := s.ylp.refused.filter fun r => 2 * frameLife s ≤ s.now - r.time
  old.foldl lapse { s with ylp := { s.ylp with refused := s.ylp.refused.filter fun r => !(2 * frameLife s ≤ s.now - r.time) } }

def execRefusalEntryExpiry (s : State) : Host.Outcome State Fault Refusal := .next (refusalExpiry s)

/-! ## Discovery (R273) -/

/-- The own slot, as a peer's slot and port give it: port k joins slots that differ by k + 1 (Table 10-2). -/
def slotSeen (slot port : Nat) : Nat := slot ^^^ (port + 1)

/-- The slot agrees with what the other peers say of the own slot (log entry 186). -/
def slotFits (s : State) (port : PortId) (slot : Nat) : Bool :=
  (s.ylp.peers.filter (·.port != port)).all fun q => slotSeen q.slot q.port.val = slotSeen slot port.val

/-- A peer is where Table 10-2 puts it. Until the membership list is
loaded, the peers are the members (R426). -/
def discoverPeer (s : State) (port : PortId) (node epoch slot : Nat) : State :=
  if 3 ≤ port.val || !portUpNow s port.val || !slotFits s port slot then s
  else
    let s := { s with ylp := { s.ylp with
      peers := s.ylp.peers.filter (·.port != port) ++ [⟨node, epoch, port, slot⟩]
      members := if flag s DEV_STATUS DEV_STATUS_READY then s.ylp.members else assocSet node epoch s.ylp.members } }
    let s := emit s (.peer port (ownNode s) (ownEpoch s))
    heardFrom s node

def execTrayPeerDiscovery (port : PortId) (node : BitVec 16) (epoch : BitVec 8) (slot : Fin 4) (s : State) :
    Host.Outcome State Fault Refusal :=
  .next (discoverPeer s port node.toNat epoch.toNat slot.val)

end Sys2Proof.Machine
end

