-- ==== Sys2Proof/Machine/Roce.lean ====
section
/-! DEFINITION. RoCEv2 (R298 to R302): connections and their table, inbound operations and the answers to them,
acknowledgements, go-back-N, congestion marks and rates. -/

namespace Sys2Proof.Machine

/-! ## Answers -/

/-- NAK codes of the InfiniBand architecture (log entry 55). -/
def nakSequence : Nat := 0x60
def nakInvalid : Nat := 0x61
def nakAccess : Nat := 0x62
def nakOperation : Nat := 0x63
def nakNotReady : Nat := 0x20

def roceAckOut (s : State) (c : Conn) (psn : Nat) : State := rocePacketOut s c psn .ack
def roceNakOut (s : State) (c : Conn) (psn code : Nat) : State := rocePacketOut s c psn (.nak code)

def cnpGap (s : State) : Nat := 1000 * getF s FAB_ROCE_CC FAB_ROCE_CC_CNP_GAP

/-- R301: a packet marked ECN CE draws a CNP, at most one per connection in each CNP_GAP. -/
def markCnp (s : State) (c : Conn) (ce : Bool) : State :=
  let soon : Bool := match c.lastCnp with
    | some t => decide (s.now - t < cnpGap s)
    | none => false
  if !ce || soon then s
  else rocePacketOut (setConn s { c with lastCnp := some s.now }) c 0 .cnp

/-- Bytes of the frame of a packet with `ext` bytes of extension headers: Ethernet with its tag, IP, UDP, the base header, the data
padded to 4 bytes, the ICRC and the FCS. -/
def roceBytes (ext : Nat) (p : RocePkt) : Nat :=
  18 + (if p.eth.etype = 0x86DD then 40 else 20) + 8 + 12 + ext + (p.payload.length + 3) / 4 * 4 + 4 + 4

/-- The port takes the packet, and it is UDP to port 4791 over IPv4 without options or IPv6 without extension headers, on a
switch plane of a device that has joined (R269, R271, R274, Table 10-8). -/
def roceSorted (s : State) (port : PortId) (ext : Nat) (p : RocePkt) : Bool :=
  ethTaken s port.val p.eth (roceBytes ext p) && (p.eth.etype = 0x0800 || p.eth.etype = 0x86DD) && p.udpDst = 4791
    && !p.options && 3 ≤ port.val && joined s

/-- The connection that a packet names. -/
def packetConn (s : State) (p : RocePkt) : Option Conn :=
  (connAt s (p.dqpn.toNat - 0x100)).filter fun c => !c.error && connQpn c.index = p.dqpn.toNat

/-- What every packet goes through: the port, its ICRC, its transport and its connection; an operation outside Table 10-8 draws a
NAK. -/
def roceIn (s : State) (port : PortId) (ext : Nat) (p : RocePkt) (take : State → Conn → State) : State :=
  if !portUpNow s port.val then s
  else if !roceSorted s port ext p then filterFrame s port.val
  else if !p.icrcOk then satF s FAB_CNT4 FAB_CNT4_ICRC_BAD 1
  else if p.cls = .otherTransport then filterFrame s port.val
  else match packetConn s p with
    | none => filterFrame s port.val
    | some c =>
      let s := markCnp s c p.ecnCe
      let d := (connAt s c.index).getD c
      settleFabric (if p.cls = .listed then take s d else roceNakOut s d p.psn.toNat nakInvalid)

/-! ## Inbound requests (R300) -/

/-- The window that an R-key names admits the access. -/
def rkeyAdmits (s : State) (rkey a n : Nat) (write : Bool) : Bool :=
  let o := 0x80 + 32 * (rkey / 2 ^ 28 % 16)
  let k := protWord s (o + 16)
  let base := bitsOf 47 0 (protWord s o)
  bitsOf 27 0 k = rkey % 2 ^ 28 && k.testBit 35 && k.testBit (if write then 33 else 32)
    && base ≤ a && a + n ≤ base + bitsOf 47 0 (protWord s (o + 8))

def messageBad (n : Nat) : Bool := n = 0 || 2 ^ 31 < n

/-- The connection expects the PSN after those an operation took. -/
def expectNext (s : State) (c : Conn) (n : Nat) : State := setConn s { c with epsn := seqAdd c.epsn n }

/-- A request out of sequence: an earlier one is a duplicate, a later one draws a sequence NAK. -/
def outOfOrder (s : State) (c : Conn) (p : RocePkt) (again : State → State) : State :=
  if seqDiff p.psn.toNat c.epsn < 0 then again s else roceNakOut s c c.epsn nakSequence

/-- A piece of a write message at its place. -/
def rocePiece (s : State) (c : Conn) (a left : Nat) (last : Bool) (p : RocePkt) : State :=
  let n := p.payload.length
  let r := memWrite s a p.payload
  match r.2 with
  | .unassigned => roceNakOut s c p.psn.toNat nakAccess
  | .poison => roceNakOut r.1 c p.psn.toNat nakOperation
  | .ok =>
    let d := { c with epsn := seqAdd c.epsn 1, wrPtr := a + n, wrLeft := left - n }
    if last then roceAckOut (setConn r.1 d) d p.psn.toNat else setConn r.1 d

/-- A message that starts: its size, its window and key, and its address. -/
def startWrite (s : State) (c : Conn) (last : Bool) (p : RocePkt) : State :=
  if messageBad p.dmaLen || p.dmaLen < p.payload.length || (last && p.payload.length != p.dmaLen) then
    roceNakOut s c p.psn.toNat nakInvalid
  else if !rkeyAdmits s p.rkey.toNat p.vaddr.toNat p.dmaLen true || !assigned s p.vaddr.toNat p.dmaLen then
    roceNakOut s c p.psn.toNat nakAccess
  else rocePiece s c p.vaddr.toNat p.dmaLen last p

/-- A packet of a message in progress. -/
def nextWrite (s : State) (c : Conn) (last : Bool) (p : RocePkt) : State :=
  if c.wrLeft = 0 || c.wrLeft < p.payload.length || (last && p.payload.length != c.wrLeft) then
    roceNakOut s c p.psn.toNat nakInvalid
  else rocePiece s c c.wrPtr c.wrLeft last p

def roceWrite (s : State) (c : Conn) (part : RocePart) (p : RocePkt) : State :=
  if p.psn.toNat != c.epsn then outOfOrder s c p fun t => roceAckOut t c p.psn.toNat
  else match part with
    | .first => startWrite s c false p
    | .middle => nextWrite s c false p
    | .last => nextWrite s c true p
    | .only => startWrite s c true p

def execRoceRdmaWrite (port : PortId) (part : RocePart) (p : RocePkt) (s : State) :
    Host.Outcome State Fault Refusal :=
  .next (roceIn s port (if part = .first || part = .only then 16 else 0) p fun t c => roceWrite t c part p)

/-- The responses of a READ, in pieces of the path MTU. -/
def readResponses (c : Conn) (psn : Nat) (bs : List Byte) : List (Nat × RoceBody) :=
  let n := rocePkts c .read bs.length
  (List.range n).map fun k => (seqAdd psn k, .readResponse (msgPart k n) (mtuPiece c bs k))

/-- The data of a READ, or the NAK that it draws. -/
def answerRoceRead (s : State) (c : Conn) (p : RocePkt) (count : Nat) : State :=
  let r := memRead s p.vaddr.toNat p.dmaLen
  match r.2.1 with
  | .ok => (readResponses c p.psn.toNat r.2.2).foldl (fun t x => rocePacketOut t c x.1 x.2) (expectNext r.1 c count)
  | .unassigned => roceNakOut s c p.psn.toNat nakAccess
  | .poison => roceNakOut r.1 c p.psn.toNat nakOperation

def roceRead (s : State) (c : Conn) (p : RocePkt) : State :=
  let run := fun (t : State) (n : Nat) =>
    if messageBad p.dmaLen then roceNakOut t c p.psn.toNat nakInvalid
    else if !rkeyAdmits t p.rkey.toNat p.vaddr.toNat p.dmaLen false then roceNakOut t c p.psn.toNat nakAccess
    else answerRoceRead t c p n
  if p.psn.toNat != c.epsn then outOfOrder s c p fun t => run t 0
  else run s (rocePkts c .read p.dmaLen)

def execRoceRdmaReadRequest (port : PortId) (p : RocePkt) (s : State) : Host.Outcome State Fault Refusal :=
  .next (roceIn s port 16 p fun t c => roceRead t c p)

/-! ### SEND (R300, R347, R348, R427) -/

/-- The node of a connection, found in the CONNS lists of the active groups. -/
def connNode (s : State) (idx : Nat) : Option Nat :=
  (s.coll.groups.flatMap fun g => g.conns.zip g.nodes).findSome? fun p => if p.1 = idx then some p.2 else none

/-- Table 12-11, for a RoCEv2 sender. -/
def senderWord (s : State) (idx : Nat) : Word64 :=
  w64 (2 ^ 62 + (match connNode s idx with
    | some n => 2 ^ 48 + n * 2 ^ 32
    | none => 0) + connQpn idx)

/-- Mailbox 0 takes only what connection 1,023 sends. -/
def sendAdmitted (s : State) (c : Conn) (m : Nat) : Bool := if m = 0 then c.index = 1023 else mbxFabric s m

def writeWindow (s : State) (m : Nat) (bs : List Byte) : State :=
  setWindow s m (bs ++ (windowBytes s m).drop bs.length)

def connMbox (c : Conn) : Nat := wfield c.entry 1 36 32

def roceSendIn (s : State) (c : Conn) (p : RocePkt) : State :=
  let m := connMbox c
  let psn := p.psn.toNat
  if psn != c.epsn then outOfOrder s c p fun t => roceAckOut t c psn
  else if p.payload.isEmpty || 256 < p.payload.length then roceNakOut s c psn nakInvalid
  else if !sendAdmitted s c m then roceNakOut (mailboxRefused s m (connQpn c.index)) c psn nakAccess
  else if (mbxAt s m).owner != 0 || (mbxAt s m).fullAt.isSome || receiverDead s m then roceNakOut s c psn nakNotReady
  else
    let s := deliver (writeWindow s m p.payload) m (senderWord s c.index)
    roceAckOut (expectNext s c 1) c psn

def execRoceSend (port : PortId) (p : RocePkt) (s : State) : Host.Outcome State Fault Refusal :=
  .next (roceIn s port 0 p fun t c => roceSendIn t c p)

/-! ## The requester (R298, R302) -/

/-- Operations that waited behind 16 outstanding reads leave in order. -/
def drainConn : Nat → State → Nat → State
  | 0, s, _ => s
  | n + 1, s, idx => match connAt s idx with
    | none => s
    | some c => match c.waitq with
      | [] => s
      | o :: rest =>
        if o.kind = .read && 16 ≤ (c.ops.filter (·.kind = .read)).length then s
        else
          let s := roceIssue s { c with waitq := [] } o
          match connAt s idx with
          | some d => drainConn n (setConn s { d with waitq := rest }) idx
          | none => s

/-- Operations end, with a fault or without. -/
def endOps (s : State) (idx : Nat) (ops : List RoceOp) (fault : Option Nat) : State :=
  match connAt s idx with
  | none => s
  | some c =>
    if ops.isEmpty then s else
    let s := setConn s { c with ops := c.ops.filter fun o => !ops.contains o, retries := 0, sentAt := s.now }
    let s := ops.foldl (fun t o => ownerDone t o.owner fault) s
    drainConn c.waitq.length s idx

def lastPsn (o : RoceOp) : Nat := seqAdd o.psn (o.pkts - 1)

/-- Writes and sends up to a PSN are acknowledged; a read ends with its data. -/
def ackedOps (c : Conn) (psn : Nat) : List RoceOp :=
  c.ops.filter fun o => o.kind != .read && 0 ≤ seqDiff psn (lastPsn o)

def ackUpTo (s : State) (c : Conn) (psn : Nat) : State := endOps s c.index (ackedOps c psn) none

def execRoceAck (port : PortId) (p : RocePkt) (s : State) : Host.Outcome State Fault Refusal :=
  .next (roceIn s port 4 p fun t c => ackUpTo t c p.psn.toNat)

/-- Data of a response packet: for an entry, or for a local address. -/
def storeResponse (s : State) (c : Conn) (o : RoceOp) (bs : List Byte) : State :=
  match o.owner with
  | .insn i q qid => noteData s i.val q qid (o.got * connMtu c) bs
  | .fetch _ => (memWrite s (o.local_ + o.got * connMtu c) bs).1
  | _ => s

/-- The next packet of the first read outstanding; others are not taken. -/
def readResponse (s : State) (c : Conn) (p : RocePkt) : State :=
  let s := ackUpTo s c (seqAdd p.psn.toNat (2 ^ 24 - 1))
  let c := (connAt s c.index).getD c
  match c.ops.find? (·.kind = .read) with
  | none => s
  | some o =>
    if p.psn.toNat != seqAdd o.psn o.got then s
    else
      let s := storeResponse s c o p.payload
      let o' := { o with got := o.got + 1 }
      let s := setConn s { c with ops := c.ops.map (fun x => if x = o then o' else x), retries := 0, sentAt := s.now }
      if o.pkts ≤ o'.got then endOps s c.index [o'] none else s

def execRoceRdmaReadResponse (port : PortId) (p : RocePkt) (s : State) : Host.Outcome State Fault Refusal :=
  .next (roceIn s port 4 p fun t c => readResponse t c p)

/-- Go-back-N: everything outstanding is sent again; a read starts again from its first response. -/
def goBack (s : State) (c : Conn) : State :=
  if 7 ≤ c.retries then connectionError s c
  else
    let d := { c with retries := c.retries + 1, sentAt := s.now, ops := c.ops.map fun (o : RoceOp) => { o with got := 0 } }
    d.ops.foldl (fun t o => roceEmit t d o) (setConn s d)

/-- A NAK acknowledges what lies before its PSN; then it retransmits, or ends the operation it names. -/
def takeNak (s : State) (c : Conn) (psn : Nat) (retryable : Bool) : State :=
  let s := ackUpTo s c (seqAdd psn (2 ^ 24 - 1))
  let c := (connAt s c.index).getD c
  if retryable then goBack s c
  else match c.ops.find? fun o => 0 ≤ seqDiff psn o.psn && 0 ≤ seqDiff (lastPsn o) psn with
    | some o => endOps s c.index [o] (some faultFabric)
    | none => s

def execRoceNak (port : PortId) (p : RocePkt) (retryable : Bool) (s : State) :
    Host.Outcome State Fault Refusal :=
  .next (roceIn s port 4 p fun t c => takeNak t c p.psn.toNat retryable)

/-- The local ACK timeout of 16 µs (Table 10-8). -/
def roceTimeout (s : State) (idx : Nat) : State :=
  match connAt s idx with
  | none => s
  | some c => if c.error || c.ops.isEmpty || s.now - c.sentAt < 16000 then s else settleFabric (goBack s c)

def execRoceAckTimeout (conn : BitVec 10) (s : State) : Host.Outcome State Fault Refusal :=
  .next (roceTimeout s conn.toNat)

/-! ## Rates (R301) -/

def rateFloor : Rat := 1 / 1024

def cutRate (s : State) (c : Conn) : State :=
  let c := { c with lastUp := s.now }
  let soon : Bool := match c.lastCut with
    | some t => decide (s.now - t < cnpGap s)
    | none => false
  if soon then setConn s c
  else
    let k : Rat := 1 - 1 / (2 ^ getF s FAB_ROCE_CC FAB_ROCE_CC_DEC_SHIFT : Nat)
    setConn s { c with rate := max rateFloor (c.rate * k), lastCut := some s.now }

def execRoceCnp (port : PortId) (p : RocePkt) (s : State) : Host.Outcome State Fault Refusal :=
  .next (roceIn s port 16 p cutRate)

def raiseRate (s : State) (idx : Nat) : State :=
  match connAt s idx with
  | none => s
  | some c =>
    if c.error || s.now - c.lastUp < 1000 * getF s FAB_ROCE_CC FAB_ROCE_CC_INC_PERIOD then s
    else setConn s { c with
      rate := min 1 (c.rate + (getF s FAB_ROCE_CC FAB_ROCE_CC_INC_STEP : Rat) / 256), lastUp := s.now }

def execRoceRateIncrease (conn : BitVec 10) (s : State) : Host.Outcome State Fault Refusal :=
  .next (raiseRate s conn.toNat)

/-! ## The connection table (R299, Table 10-9) -/

def connTable (s : State) (idx : Nat) : Nat := getPair s FAB_CONN_BASE_LO FAB_CONN_BASE_HI + 64 * idx

/-- An IPv4 address stands in bits 31:0 with the rest 0. -/
def addrBad (ws : List Word64) (k : Nat) : Bool :=
  wfield ws 0 62 62 = 0 && (wfield ws k 63 32 != 0 || wfield ws (k + 1) 63 0 != 0)

/-- Offset of the first field that violates Table 10-9. -/
def connBad (ws : List Word64) : Option Nat :=
  if wfield ws 0 63 63 != 1 || wfield ws 0 61 60 = 3 || wfield ws 0 53 51 < 3 || wfield ws 0 50 48 != 0 then some 0
  else if wfield ws 1 39 37 != 0 then some 0x08
  else if wfield ws 3 63 0 != 0 then some 0x18
  else if addrBad ws 4 then some 0x20
  else if addrBad ws 6 then some 0x30
  else none

def newConn (s : State) (idx : Nat) (ws : List Word64) : Conn :=
  { index := idx, entry := ws, error := false, port := Fin.ofNat 8 (wfield ws 0 53 51), spsn := wfield ws 0 23 0
    epsn := wfield ws 1 63 40, rate := 1, lastCut := none, lastCnp := none, lastUp := s.now, ops := [], waitq := []
    retries := 0, sentAt := s.now, wrPtr := 0, wrLeft := 0 }

/-- Records and notices that waited for the connection leave. -/
def connReady (s : State) : State :=
  let s := (s.intake.rings.map (·.index)).foldl (fun t r => releaseHeld t.intake.heldRecs.length t r) s
  pumpStream (sendNotices s.surv.notices.length s)

def installConn (s : State) (idx : Nat) (ws : List Word64) : State :=
  let back := connMembers s idx
  let s := { s with coll := { s.coll with lost := s.coll.lost.filter fun p => !back.contains p.1 } }
  connReady { s with conns := s.conns.filter (·.index != idx) ++ [newConn s idx ws] }

/-- An ACT of a connection that stands, in the error state too, does nothing. -/
def activateConn (s : State) (idx : Nat) : State :=
  if (connAt s idx).isSome then s
  else
    let ws := readWords s (connTable s idx) 8
    match connBad ws with
    | some off => makeRecord s srcSmith 0x202 [w64 (idx + off * 2 ^ 16)]
    | none => installConn s idx ws

/-- A write of ACT or DEACT carries INDEX with it. -/
def writeIndex (s : State) (idx : Nat) : State := putF s FAB_CONN_CTL FAB_CONN_CTL_INDEX idx

def connActBy (s : State) (agent idx : Nat) : State :=
  if mayWrite s agent FAB_CONN_CTL then activateConn (writeIndex s idx) idx else s

def execConnAct (agent : BitVec 8) (index : BitVec 10) (s : State) : Host.Outcome State Fault Refusal :=
  .next (connActBy s agent.toNat index.toNat)

/-- DEACT ends the connection; every instruction on it completes with the fabric fault. -/
def endConn (s : State) (idx : Nat) : State :=
  match connAt s idx with
  | none => s
  | some c =>
    let s := { s with conns := s.conns.filter (·.index != idx) }
    settleFabric (((c.ops ++ c.waitq).map (·.owner)).foldl (fun t o => ownerDone t o (some faultFabric)) s)

def connDeactBy (s : State) (agent idx : Nat) : State :=
  if mayWrite s agent FAB_CONN_CTL then endConn (writeIndex s idx) idx else s

def execConnDeact (agent : BitVec 8) (index : BitVec 10) (s : State) : Host.Outcome State Fault Refusal :=
  .next (connDeactBy s agent.toNat index.toNat)

end Sys2Proof.Machine
end

