-- ==== Sys2Proof/Machine/Commit.lean ====
section
/-! DEFINITION. The seed copy (R355 to R361, R369, R372, R373, R379): arming, wards, the full copy, commits and
their application at the partner, the tallies, and a device that leaves. -/

namespace Sys2Proof.Machine

/-! ## ARM (R355, Table 13-2) -/

def mib2 : Nat := 2 ^ 21

/-- One candidate. -/
def candBad (s : State) (ws : List Word64) (c : Nat) : Bool :=
  wfield ws (4 + 2 * c) 15 0 != 0 || (wfield ws (4 + 2 * c) 63 63 = 1 &&
    (wfield ws (4 + 2 * c) 47 44 != ownNode s / 4096 || wfield ws (4 + 2 * c) 31 16 = planTray ws))

/-- The named candidates stand one after another from 0. -/
def candsContiguous (ws : List Word64) : Bool :=
  let v := (List.range 4).map fun c => wfield ws (4 + 2 * c) 63 63
  v.headD 0 = 1 && (List.range 3).all fun c => v.getD c 0 = 1 || v.getD (c + 1) 0 = 0

def extentBad (ws : List Word64) (x : Nat) : Bool :=
  wfield ws (12 + 2 * x) 61 48 != 0 || wfield ws (12 + 2 * x) 47 0 % mib2 != 0

def extentLenBad (ws : List Word64) (x : Nat) : Bool :=
  let n := wfield ws (13 + 2 * x) 63 0
  if wfield ws (12 + 2 * x) 63 62 = 0 then n != 0 else n = 0 || n % mib2 != 0

def masterBytes (ws : List Word64) : Nat := ((extentsOf ws kMaster).map (·.2)).sum

/-- The checks of Table 13-2 with their byte offsets, in order. -/
def planChecks (s : State) (ws : List Word64) : List (Nat × Bool) :=
  [(0x00, wfield ws 0 63 48 != 0x0E01 || (groupAt s (wfield ws 0 31 16)).isNone
      || !connActive s (wfield ws 0 15 6) || wfield ws 0 5 0 != 0),
    (0x08, wfield ws 1 63 0 % mib2 != 0),
    (0x10, wfield ws 2 63 0 % mib2 != 0),
    (0x18, wfield ws 3 63 48 < 64 || 8 < wfield ws 3 47 44 || wfield ws 3 43 0 != 0
      || planWardLen ws < slotDelta + masterBytes ws),
    (0x20, !candsContiguous ws)]
    ++ ((List.range 4).map fun c => (0x20 + 16 * c, candBad s ws c))
    ++ ((List.range 8).flatMap fun x => [(0x60 + 16 * x, extentBad ws x), (0x68 + 16 * x, extentLenBad ws x)])
    ++ [(0xE8, (List.range 3).any fun k => wfield ws (29 + k) 63 0 != 0)]

def planBad (s : State) (ws : List Word64) : Option Nat := ((planChecks s ws).find? (·.2)).map (·.1)

/-- Watching starts with a full HB_LOSS for each node. -/
def startWatch (s : State) : State :=
  let ns := (s.surv.partner.map (·.1)).toList ++ s.surv.wards.map (·.node) ++ s.ylp.peers.map (·.node)
  ns.foldl heardFrom s

def planAddr (s : State) : Nat := getPair s SURV_PLAN_LO SURV_PLAN_HI

def planRefused (s : State) (off : Nat) : State := makeRecord s srcSmith 0x380 [w64 off]

/-- The plan is valid: the device is a member, and takes a partner. -/
def armWith (s : State) (ws : List Word64) : State :=
  let s := { s with surv := { s.surv with plan := ws, refusals := [] } }
  let s := putF s SURV_STATUS SURV_STATUS_MEMBER 1
  let s := putF s SURV_STATUS SURV_STATUS_COORD (bit (isCoordinator s))
  startWatch (choosePartner s)

def armPlan (s : State) : State :=
  if s.job.isSome then planRefused s 0
  else
    let ws := readWords s (planAddr s) 32
    match planBad s ws with
    | some off => planRefused s off
    | none => armWith s ws

def armBy (s : State) (agent : Nat) : State := if mayWrite s agent SURV_CTL then armPlan s else s

def execArm (agent : BitVec 8) (s : State) : Host.Outcome State Fault Refusal := .next (armBy s agent.toNat)

/-! ## Wards (R356) -/

def overlaps (a n b m : Nat) : Bool := a < b + m && b < a + n

def windowOverlaps (s : State) (node base len : Nat) : Bool :=
  (recExtents s.surv.plan).any (fun e => overlaps base len e.2.1 e.2.2)
    || s.surv.wards.any fun w => w.node != node && overlaps base len w.base w.len

/-- The slot is one of this device's ward slots, and no other ward has it. -/
def slotFree (s : State) (node slot : Nat) : Bool :=
  let p := s.surv.plan
  ((List.range (planMaxWards p)).any fun k => slot = planWardBase p + planWardLen p * k)
    && !s.surv.wards.any fun w => w.node != node && w.slot = slot

/-- The ward is refused: a record, and its writes to a ward slot are turned away from here on (log entry 56). -/
def wardRefused (s : State) (node reason : Nat) : State :=
  let s := makeRecord s srcSurvival 0x381 [w64 (node + reason * 2 ^ 16)]
  { s with surv := { s.surv with turned := node :: s.surv.turned.filter (· != node) } }

/-- A ward that is known arms again without a check. -/
def wardArm (s : State) (node slot base len : Nat) : State :=
  let w : Ward := ⟨node, slot, base, len, [], []⟩
  if s.surv.wards.any (·.node = node) then setWard s w
  else if windowOverlaps s node base len then wardRefused s node 0
  else if planMaxWards s.surv.plan ≤ s.surv.wards.length || !slotFree s node slot then wardRefused s node 1
  else heardFrom { s with surv := { s.surv with wards := s.surv.wards ++ [w] } } node

def execWardArmCheck (node : BitVec 16) (slot base len : BitVec 48) (s : State) :
    Host.Outcome State Fault Refusal :=
  .next (wardArm s node.toNat slot.toNat base.toNat len.toNat)

/-! ## The full copy (R359) -/

def ownerLeft (s : State) (o : Owner) : Bool :=
  (s.ylp.tx.any fun d => d.standing.any (fun r => r.owner = o) || d.waiting.any fun w => w.2.1 = o)
    || s.conns.any fun c => (c.ops ++ c.waitq).any fun x => x.owner = o

/-- The partner holds a current copy: its registers name it (R342, R357). -/
def namePartner (s : State) (node cand slot : Nat) : State :=
  let s := putF (putF s WRK_PARTNER WRK_PARTNER_NODE node) WRK_PARTNER WRK_PARTNER_VALID 1
  let s := putF (putF s SURV_PARTNER SURV_PARTNER_NODE node) SURV_PARTNER SURV_PARTNER_VALID 1
  setPair (putF s SURV_PARTNER SURV_PARTNER_CAND cand) WRK_MIRROR_LO WRK_MIRROR_HI (slot + slotMirror)

/-- A Done mark that the new mirror may hold: its commit is made, or it has none. -/
def markDue (s : State) (j : JEntry) : Bool :=
  j.st = .done && !j.markAcked && match j.doneStep with
    | some d => d ≤ s.surv.lastCommit
    | none => true

def sendDoneMark (s : State) (j : JEntry) : State :=
  sendMirror (setJournal s { j with marked := true }) j (.doneMark j.ring j.jseq)

/-- Marks on their way to an earlier partner are sent again. -/
def resendMarks (s : State) : State :=
  let s := { s with intake := { s.intake with
    journal := s.intake.journal.map fun (j : JEntry) => { j with mirrored := true, marked := j.markAcked } } }
  (s.intake.journal.filter (markDue s)).foldl sendDoneMark s

def fullCopyComplete (s : State) : State :=
  match s.surv.partner with
  | none => s
  | some p =>
    if quenched s || !s.surv.copying || ownerLeft s .copy then s
    else
      let slot := partnerSlot s
      let s := sendWrites s p.1 slot (wardHeader s wardCurrent s.surv.lastCommit) .line
      let s := { s with surv := { s.surv with copying := false } }
      let s := putF (putF s SURV_STATUS SURV_STATUS_ARMED 1) SURV_STATUS SURV_STATUS_REPAIRING 0
      let s := namePartner (putF s WRK_STATUS WRK_STATUS_PARTNER_DOWN 0) p.1 p.2 slot
      pumpIntake (resendMarks s)

def execFullCopyComplete (s : State) : Host.Outcome State Fault Refusal := .next (fullCopyComplete s)

/-! ## Leaving (R379) -/

def leave (s : State) : State := { s with surv := { s.surv with leave := true } }

def leaveBy (s : State) (agent : Nat) : State := if mayWrite s agent SURV_CTL then leave s else s

def execLeave (agent : BitVec 8) (s : State) : Host.Outcome State Fault Refusal := .next (leaveBy s agent.toNat)

def leaveIfAsked (s : State) : State := if s.surv.leave then leaveJob s else s

/-! ## Commits (R360, R340, Table 13-4) -/

def commitRecord (step rows tally : Nat) : List Byte :=
  let b := bytesOfWords (padWords 15 [w64 (0x0E03 * 2 ^ 48), w64 step, w64 rows, w64 tally])
  b ++ leBytes 4 (crc32c b) ++ List.replicate 4 0

/-- A row at an address with `n` bytes, of Q32 values. -/
def rowAt (s : State) (a n : Nat) : Option RowVal :=
  let bs := readBytes s a n
  let t := decodeTrailer (ofLE (bs.drop (n - 8)))
  if t.fmt = 0x20 then some (decodeRow bs t) else none

/-- A delta row that changes its master. -/
def deltaMoves (s : State) (a n : Nat) : Bool := match rowAt s a n with
  | some d => d.codes.any (· != 0)
  | none => false

def ownMasters (s : State) : List (Nat × Nat) := extentsOf s.surv.plan kMaster
def ownRows (s : State) : List (Nat × Nat) := masterRows s (ownMasters s)
def ownDelta (s : State) (r : Nat × Nat) : Nat := planDelta s.surv.plan + masterOffset (ownMasters s) r.1

def tallyDue (s : State) (step : Nat) : Bool :=
  let n := getF s SURV_TALLY SURV_TALLY_TALLY_STEPS
  n != 0 && step % n = 0

/-- Owner's side of Table 13-7: a row that no update moved must still have its recorded fingerprint. -/
def ownerTally (tally : Bool) (s : State) (r : Nat × Nat) : State :=
  let fp := fpRow s r
  if deltaMoves s (ownDelta s r) r.2 then { s with surv := { s.surv with fps := assocSet r.1 fp s.surv.fps } }
  else match assocGet r.1 s.surv.fps with
    | some old => if tally && old != fp then refetchRow s r else s
    | none => { s with surv := { s.surv with fps := assocSet r.1 fp s.surv.fps } }

/-- Done marks that the commit of a step carries. -/
def marksOf (s : State) (step : Nat) : List JEntry :=
  s.intake.journal.filter fun j => j.st = .done && !j.marked && match j.doneStep with
    | some d => d ≤ step
    | none => false

/-- The cursor records of the updated step that stand in the static extents. -/
def commitCursors (s : State) : List Nat :=
  s.surv.dueCursors.filter fun a => inExtents (extentsOf s.surv.plan kStatic) a

/-! ### An adopted shard (R369) -/

/-- The survival record of a ward, where its window holds it (log entry 46). -/
def wardRecord (s : State) (w : Ward) : Option Nat :=
  ((List.range (w.len / 8)).map (w.base + 8 * ·)).find? fun a => bitsOf 63 48 (readWord s a).toNat = 0x0E01

def wardPlan (s : State) (w : Ward) : List Word64 := match wardRecord s w with
  | some a => readWords s a 32
  | none => []

def wardExtents (s : State) (w : Ward) (kind : Nat) : List (Nat × Nat) := match wardRecord s w with
  | some a => extentsOf (readWords s a 32) kind
  | none => if kind = kMaster then [(w.base, w.len)] else []

def wardRows (s : State) (w : Ward) : List (Nat × Nat) := masterRows s (wardExtents s w kMaster)

/-- The lost device's first candidate after this one that is a member on another tray. -/
def adoptPartner (s : State) (w : Ward) : Option Cand :=
  let cs := candidates (wardPlan s w)
  (cs.dropWhile (·.node != ownNode s)).tail.find? fun c =>
    (groupNodes s).contains c.node && c.tray != planTray s.surv.plan && !(dstAt s c.node).unreach

/-- The delta buffer of an adopted shard, at the address of its record. -/
def adoptDelta (s : State) (w : Ward) : Nat := planDelta (wardPlan s w)

/-- An adopted shard is committed to its own partner, beside the device's own (log entry 58). -/
def commitAdopted (step tally : Nat) (s : State) (w : Ward) : State :=
  match adoptPartner s w with
  | none => s
  | some c =>
    let rows := wardRows s w
    let s := sendWrites s c.node (c.slot + slotDelta) (readBytes s (adoptDelta s w) (masterBytes (wardPlan s w))) .line
    let s := sendFps s c.node (c.slot + slotFp) .line rows
    sendWrites s c.node (c.slot + slotCommit) (commitRecord step rows.length tally) .line

def adoptedWards (s : State) : List Ward := s.surv.wards.filter fun w => s.surv.adopts.contains w.node

/-- Steps 1 to 5 of R360. -/
def sendCommit (s : State) (node slot step : Nat) : State :=
  let rows := ownRows s
  let tally := tallyDue s step
  let s := { s with surv := { s.surv with
    commitStep := some step, durable := false, commitDue := none, lastCommit := step } }
  let s := rows.foldl (ownerTally tally) s
  let s := sendWrites s node (slot + slotDelta) (readBytes s (planDelta s.surv.plan) (masterBytes s.surv.plan)) .line
  let s := sendFps s node (slot + slotFp) .line rows
  let s := (commitCursors s).foldl (fun t a => sendWrites t node a (readBytes t a 128) .line) s
  let marks := marksOf s step
  let s := marks.foldl sendDoneMark s
  let s := sendWrites s node (slot + slotCommit) (commitRecord step rows.length (bit tally)) .commit
  leaveIfAsked ((adoptedWards s).foldl (commitAdopted step (bit tally)) s)

/-- No step boundary follows the marks that wait. -/
def noBoundary (s : State) : Bool := match s.job with
  | none => true
  | some j => j.stat = .halted || j.stat = .heldWiden || j.stat = .heldRatio || (j.stat = .ending && atBoundary s)

/-- A closing commit: the marks, and a record that repeats the last committed step. -/
def closingCommit (s : State) (node slot : Nat) : State :=
  let step := s.surv.lastCommit
  let marks := s.intake.journal.filter fun j => j.st = .done && !j.marked && j.doneStep.isSome
  if marks.isEmpty || !noBoundary s then s
  else
    let s := { s with surv := { s.surv with commitStep := some step, durable := false } }
    let marks := marks.map fun (j : JEntry) => { j with doneStep := some step }
    let s := marks.foldl sendDoneMark s
    let s := sendWrites s node (slot + slotCommit) (commitRecord step 0 0) .commit
    leaveIfAsked s

def commit (s : State) : State :=
  match s.surv.partner with
  | none => s
  | some p =>
    if quenched s || s.surv.commitStep.isSome || !partnerValid s || s.surv.copying || fenced s then s
    else match s.surv.commitDue with
      | some k => sendCommit s p.1 (partnerSlot s) k
      | none => closingCommit s p.1 (partnerSlot s)

def execCommit (s : State) : Host.Outcome State Fault Refusal := .next (commit s)

/-! ## Application at the partner (R361, R373) -/

/-- R169: the delta is added exactly and the sum refitted. -/
def addDelta (w d : RowVal) : List Byte :=
  let x := if w.exp = -128 then d.exp else if d.exp = -128 then w.exp else min w.exp d.exp
  let up := fun (r : RowVal) (q : Int) => if r.exp = -128 then (0 : Int) else q * 2 ^ (r.exp - x).toNat
  (quantFit 0x20 .hold x ((w.codes.zip d.codes).map fun p => up w p.1 + up d p.2)).row 0x20 false

def applyDelta (s : State) (row : Nat × Nat) (delta : Nat) : State :=
  match rowAt s row.1 row.2, rowAt s delta row.2 with
  | some w, some d => if d.codes.any (· != 0) then (memWrite s row.1 (addDelta w d)).1 else s
  | _, _ => s

def fetchFrom (s : State) (node : Nat) (row : Nat × Nat) : State := refetch s node row.1 row.2

def countMiss (s : State) : State := satF s SURV_CNT1 SURV_CNT1_SEED_MISS 1

/-- Table 13-7, for one row: what the owner sent, what the copy has, and the record. -/
def tallyRow (s : State) (tally : Bool) (node : Nat) (row : Nat × Nat) (sent copy record : Nat) : State :=
  if !tally then (if copy = sent then s else fetchFrom (countMiss s) node row)
  else if sent = record && copy = record then s
  else if sent = record then fetchFrom (countMiss s) node row
  else if copy = record then countMiss s
  else haltJob (countMiss s) haltDiverged node row.1

def updWard (s : State) (node : Nat) (f : Ward → Ward) : State :=
  { s with surv := { s.surv with wards := updWhere (fun w => w.node = node) f s.surv.wards } }

def noteFp (s : State) (node row fp : Nat) : State := updWard s node fun w => { w with fps := assocSet row fp w.fps }

/-- One row of a commit; a poisoned row is refetched in place of its delta. -/
def commitRow (w : Ward) (es : List (Nat × Nat)) (tally : Bool) (s : State) (p : (Nat × Nat) × Nat) : State :=
  let row := p.1
  if w.refetch.any (touches · row) then fetchFrom s w.node row
  else
    let delta := w.slot + slotDelta + masterOffset es row.1
    let sent := (readWord s (w.slot + slotFp + 8 * p.2)).toNat
    let record := if deltaMoves s delta row.2 then sent else (assocGet row.1 w.fps).getD sent
    let s := applyDelta s row delta
    tallyRow (noteFp s w.node row.1 record) tally w.node row sent (fpRow s row) record

def recordOk (s : State) (a : Nat) : Bool :=
  let bs := readBytes s a 128
  fieldLE bs 0 8 = 0x0E03 * 2 ^ 48 && fieldLE bs 0x78 4 = crc32c (bs.take 0x78)

/-- The owner's survival area, where its record is known, else the address of this device's own. -/
def wardArea (s : State) (w : Ward) : Nat := match wardRecord s w with
  | some a => (readWord s (a + 8)).toNat
  | none => survArea s

def ackCommit (s : State) (w : Ward) (step : Nat) : State :=
  sendWrites s w.node (wardArea s w + 0x2000) (leBytes 8 step ++ List.replicate 120 0) .line

/-- Poisoned lines of the ward that no master row of it covers (Table 13-9). -/
def staticPoison (s : State) (w : Ward) : List Nat := w.refetch.filter fun l => !(wardRows s w).any (touches l)

/-- A durable commit record that is newer than COMMIT is applied; a closing commit has no rows. -/
def applyCommit (s : State) (w : Ward) : State :=
  let a := w.slot + slotCommit
  let step := (readWord s (a + 8)).toNat
  let es := wardExtents s w kMaster
  if (readWord s (a + 16)).toNat = 0 then s
  else
    let s := ((wardRows s w).zipIdx).foldl (commitRow w es ((readWord s (a + 24)).toNat = 1)) s
    let s := (staticPoison s w).foldl (fun t l => fetchFrom t w.node (l, 128)) s
    let s := updWard s w.node fun x => { x with refetch := [] }
    writeWord s (w.slot + 8) (w64 step)

def wardNamed (s : State) (node : Nat) : Option Ward := s.surv.wards.find? (·.node = node)

/-- A commit record not yet applied. -/
def commitFresh (s : State) (w : Ward) : Bool :=
  let a := w.slot + slotCommit
  recordOk s a && ((readWord s (w.slot + 8)).toNat < (readWord s (a + 8)).toNat || (readWord s (a + 16)).toNat = 0)

def commitApply (s : State) (node : Nat) : State :=
  match wardNamed s node with
  | none => s
  | some w =>
    if commitFresh s w && !quenched s then
      ackCommit (applyCommit s w) w (readWord s (w.slot + slotCommit + 8)).toNat
    else s

def execCommitApply (ward : BitVec 16) (s : State) : Host.Outcome State Fault Refusal :=
  .next (commitApply s ward.toNat)

/-! ### The acknowledgement at the owner -/

/-- Rows whose refetch waited for the commit. -/
def runLater (s : State) : State :=
  let rows := (ownRows s).filter fun r => s.surv.later.contains r.1
  rows.foldl (fun t r => refetchSeed t r.1 r.2) { s with surv := { s.surv with later := [] } }

def commitAck (s : State) : State :=
  match s.surv.commitStep with
  | none => s
  | some k =>
    if (readWord s (survArea s + 0x2000)).toNat = k && !quenched s then
      runLater { s with surv := { s.surv with commitStep := none } }
    else s

def execCommitAck (s : State) : Host.Outcome State Fault Refusal := .next (commitAck s)

/-! ## Working rows (R372) -/

/-- The row is read again from its owner, at the same local address. -/
def reread (s : State) (owner row n : Nat) : State :=
  let k := (assocGet row s.surv.rereads).getD 0
  let s := { s with surv := { s.surv with rereads := assocSet row (k + 1) s.surv.rereads } }
  if nodeReachable s owner then sendReads s owner row n (.fetch row) row
  else match (groupAt s (bitsOf 47 32 (jobWord s 4))).bind fun g => (g.rankOf owner).map g.conn with
    | some c => (roceSendOn s c { psn := 0, kind := .read, owner := .fetch row, bytes := n, local_ := row
                                  remote := row, data := [], pkts := 1 }).1
    | none => s

def workingRow (s : State) (owner row words fp : Nat) : State :=
  if s.job.isNone || owner = ownNode s then s
  else if fpWords (readWords s row words) = fp then
    { s with surv := { s.surv with rereads := assocErase row s.surv.rereads } }
  else
    let s := satF s SURV_CNT1 SURV_CNT1_TALLY_MISS 1
    if 2 ≤ (assocGet row s.surv.rereads).getD 0 then wedge s 3 (homeOf s row) row
    else reread s owner row (8 * words)

def execWorkingRowTally (owner : BitVec 16) (row : BitVec 48) (words : Nat) (fp : Word64) (s : State) :
    Host.Outcome State Fault Refusal :=
  .next (workingRow s owner.toNat row.toNat words fp.toNat)

end Sys2Proof.Machine
end

