-- ==== Sys2Proof/Machine/Members.lean ====
section
/-! DEFINITION. Losses and membership (R363 to R371, R374, R375, R381): heartbeats, survival lines, the
coordinator, the change at each member, promotion, handover and the halt. -/

namespace Sys2Proof.Machine

/-! ## Heartbeats (R363, R364) -/

def hbPeriod (s : State) : Nat := 1000 * getF s SURV_TIMERS SURV_TIMERS_HB_PERIOD
def hbLoss (s : State) : Nat := 1000 * getF s SURV_TIMERS SURV_TIMERS_HB_LOSS
def leaseTime (s : State) : Nat := 1000 * getF s SURV_TIMERS SURV_TIMERS_LEASE

/-- Nothing has been sent to a watcher for HB_PERIOD. -/
def silentTo (s : State) (node : Nat) : Bool := match s.ylp.tx.find? (·.node = node) with
  | some d => hbPeriod s ≤ s.now - d.lastSent
  | none => true

def heartbeat (s : State) (node : Nat) : State :=
  if !watched s node || !silentTo s node || fenced s || !joined s then s
  else sendRequest s node (blankFrame s node ylpReq opFence) .beat 0 0 0

def execHeartbeatTimer (node : BitVec 16) (s : State) : Host.Outcome State Fault Refusal :=
  .next (heartbeat s node.toNat)

/-- Time under this device's own quench does not count. -/
def hbLossExpiry (s : State) (node : Nat) : State :=
  match assocGet node s.surv.heard with
  | some t => if quenched s || s.now - t < hbLoss s then s else declareLoss s node 1
  | none => s

def execHbLossExpiry (node : BitVec 16) (s : State) : Host.Outcome State Fault Refusal :=
  .next (hbLossExpiry s node.toNat)

/-- The partner's acknowledgement has stood for HB_LOSS with requests outstanding. -/
def selfFenceCheck (s : State) : State :=
  match s.surv.partner with
  | none => s
  | some p =>
    let d := dstAt s p.1
    if d.unacked.isEmpty || s.now - d.advAt < hbLoss s then s else selfFence s

def execSelfFence (s : State) : Host.Outcome State Fault Refusal := .next (selfFenceCheck s)

/-! ## Survival lines as received (Table 13-5) -/

structure SurvLine where
  kind : Nat
  removed : List Nat
  added : List Nat
  sender : Nat
  reason : Nat
  seq : Nat
  mgen : Nat
  step : Nat
  deriving DecidableEq, Repr

def survAddr (s : State) : SurvLoc → Nat
  | .relation q => survArea s + 0x80 * q.val
  | .inbox v => survArea s + 0x100000 + 0x80 * v.toNat

def survKey : SurvLoc → Nat
  | .relation q => q.val
  | .inbox v => 9 + v.toNat

/-- A line that Table 13-5 admits. -/
def readSurv (s : State) (a : Nat) : Option SurvLine :=
  let bs := readBytes s a 128
  let ws := wordsOf 16 bs
  let ndel := wfield ws 0 39 36
  let nadd := wfield ws 0 35 32
  let kind := wfield ws 0 47 40
  let subj := (List.range 16).map fun k => fieldLE bs (0x18 + 2 * k) 2
  if wfield ws 0 63 48 != 0x0E10 || fieldLE bs 0x7C 4 != crc32c (bs.take 0x7C) || kind = 0 || 6 < kind || 16 < ndel + nadd
  then none
  else some ⟨kind, subj.take ndel, (subj.drop ndel).take nadd, wfield ws 0 31 16, wfield ws 0 15 8,
    wfield ws 1 63 32, wfield ws 1 31 0, wfield ws 2 63 0⟩

/-- The receiver of a relation line acknowledges its SEQ (log entry 30). -/
def ackSurv (s : State) (loc : SurvLoc) (seq : Nat) : State :=
  match loc, survGroup s with
  | .relation q, some g =>
    let r := relationRank g q.val
    if r < g.size then
      carry s g r (survArea s + 0x1000 + 0x80 * treeRelation r g.rank) (leBytes 8 seq ++ List.replicate 120 0) .line
    else s
  | _, _ => s

def noteTaken (s : State) (loc : SurvLoc) (seq : Nat) : State :=
  ackSurv { s with surv := { s.surv with lines := assocSet (survKey loc) seq s.surv.lines } } loc seq

/-- A line of one kind is taken once; a line that Table 13-5 does not admit is counted. -/
def takeSurv (s : State) (loc : SurvLoc) (kind : Nat) (f : State → SurvLine → State) : State :=
  if (survGroup s).isNone || quenched s then s
  else match readSurv s (survAddr s loc) with
    | none => satF s SURV_CNT0 SURV_CNT0_BADLINE 1
    | some l =>
      if l.kind != kind || assocGet (survKey loc) s.surv.lines = some l.seq then s
      else f (noteTaken s loc l.seq) l

/-! ## Groups over a new membership (R366) -/

/-- The stand-in of a lost device: this device for its own wards. -/
def standIn (s : State) (lost : Nat) : Nat :=
  if s.surv.wards.any (·.node = lost) then ownNode s else (Config.lostPartner lost).toNat

def isDpGroup (s : State) (idx : Nat) : Bool := s.job.isSome && idx = bitsOf 47 32 (jobWord s 4)
def isSurvGroup (s : State) (idx : Nat) : Bool := idx = wfield s.surv.plan 0 31 16

/-- In the DP_GROUP a lost device's place goes to its partner; elsewhere the ranks close up. An added device
joins the survival group (log entry 57). -/
def rewriteGroup (s : State) (g : Group) (removed added : List Nat) : Group :=
  let g := { g with gen := (g.gen + 1) % 2 ^ 16 }
  if isDpGroup s g.index then
    let ps := (g.nodes.zip g.conns).map fun p =>
      if removed.contains p.1 then (standIn s p.1, connFor s (standIn s p.1) p.2) else p
    { g with nodes := ps.map (·.1), conns := ps.map (·.2) }
  else
    let ps := (g.nodes.zip g.conns).filter fun p => !removed.contains p.1
    let new := if isSurvGroup s g.index then added.filter fun n => !g.nodes.contains n else []
    let ps := ps ++ new.map fun n => (n, connFor s n 0)
    { g with nodes := ps.map (·.1), conns := ps.map (·.2), rank := (ps.map (·.1)).idxOf (ownNode s) }

def namesSubject (s : State) (g : Group) (removed added : List Nat) : Bool :=
  g.nodes.any removed.contains || (isSurvGroup s g.index && !added.isEmpty)

/-- The places of the DP_GROUP where another device stands in from now on. -/
def notePlaces (s : State) (g : Group) (removed : List Nat) : State :=
  if isDpGroup s g.index then
    { s with surv := { s.surv with places := s.surv.places ++
        (g.nodes.zipIdx.filter fun p => removed.contains p.1).map fun p => (g.index, p.2, p.1) } }
  else s

def changeGroup (removed added : List Nat) (s : State) (g : Group) : State :=
  if namesSubject s g removed added then
    let h := rewriteGroup s g removed added
    restartInst (storeGroup (setGroupEntry (notePlaces s g removed) h) h) h
  else s

/-- A joined device takes the place of the lost device of its own number, or of the one that the job controller gave it (log
entry 192), from the next step boundary. -/
def joinPlaces (s : State) (node : Nat) : State :=
  let mine := s.surv.places.filter fun p => p.2.2 = node || p.2.2 = Config.placeOf node
  { s with surv := { s.surv with
      places := s.surv.places.filter (!mine.contains ·), fills := s.surv.fills ++ mine.map fun p => (p.1, p.2.1, node) } }

/-- The partner of a lost device takes its rank in its DP_GROUP (R369). -/
def adoptGroup (s : State) (w : Ward) : State :=
  match wardJob s w with
  | none => s
  | some a =>
    let idx := bitsOf 47 32 (readWord s (a + 32)).toNat
    if (groupAt s idx).isSome then s
    else
      let e := readGroupEntry s idx
      let g := Group.ofEntry idx e
      let g := { g with
        nextInst := Config.memberInst idx % 2 ^ 32
        gen := (g.gen + 1) % 2 ^ 16, nodes := g.nodes.map fun n => if n = w.node then ownNode s else n
        rank := g.nodes.idxOf w.node }
      storeGroup (setGroupEntry s g) g

/-! ## Membership (R275, R290, R296) -/

/-- A node leaves: what is outstanding to it fails, and its state here goes. -/
def removeNode (s : State) (node : Nat) : State :=
  let s := unreachable s node
  let s := dropReplay (fun r => r.src = node) s
  { s with
    ylp := { s.ylp with
      members := assocErase node s.ylp.members, rx := s.ylp.rx.filter (·.node != node)
      tx := s.ylp.tx.filter (·.node != node), refused := s.ylp.refused.filter (·.node != node) }
    surv := { s.surv with
      heard := assocErase node s.surv.heard
      removedAt := match assocGet node s.surv.removedAt with
        | some _ => s.surv.removedAt
        | none => assocSet node ((assocGet node s.surv.heard).getD s.now) s.surv.removedAt } }

/-- The epoch of an added node: a tray peer's is known, any other is a free value, which no line carries. -/
def addNode (s : State) (node : Nat) : State :=
  let d := drawFree s
  let e := match peerOf s node with
    | some p => (p.epoch, s)
    | none => (d.1.toNat % 256, d.2)
  let s := e.2
  { s with ylp := { s.ylp with members := assocSet node e.1 s.ylp.members }
           surv := { s.surv with removedAt := assocErase node s.surv.removedAt } }

/-! ## The idle replica (R367) -/

def ownReplica (s : State) : Nat := bitsOf 15 0 (jobWord s 3)

/-- A place of this device's replica. -/
def ofReplica (s : State) (node : Nat) : Bool := s.job.isSome && Config.replicaOf node = ownReplica s

def fillMissing (missing : List Nat) (node : Nat) : List Nat :=
  if missing.contains node then missing.erase node else missing.tail

def idleReplica (s : State) (removed added : List Nat) : State :=
  let lost := removed.filter (ofReplica s)
  let m := (added.filter (ofReplica s)).foldl fillMissing (s.surv.missing ++ lost)
  let s := { s with surv := { s.surv with missing := m } }
  if lost.isEmpty then s
  else { putF s SURV_STATUS SURV_STATUS_IDLE 1 with surv := { s.surv with idleUntil := none } }

/-! ## The change at a member (R366) -/

/-- The relations have new ends: no earlier line of one is awaited. -/
def freshRelation (s : State) (q : Nat) : State :=
  let first := (s.surv.sendq.find? (·.1 = q)).map fun p => ofLE ((p.2.drop 12).take 4) - 1
  writeWord s (survArea s + 0x1000 + 0x80 * q) (w64 (first.getD ((assocGet q s.surv.sent).getD 0)))

def freshRelations (s : State) : State :=
  let s := (List.range 9).foldl freshRelation s
  drainSurvLines s.surv.sendq.length { s with surv := { s.surv with lines := s.surv.lines.filter fun p => 9 ≤ p.1 } }

/-- A reset runs again over the new membership (R325). -/
def rerunReset (s : State) : State :=
  match s.coll.reset with
  | none => s
  | some r => match groupAt s r.group with
    | none => { s with coll := { s.coll with reset := none } }
    | some g =>
      if g.rank = 0 then startReset s g
      else sendSlot27 { s with coll := { s.coll with reset := some ⟨r.group, [], false⟩ } } g 0 resetInst kReset 0

/-- Step 3: DROP stands in every arrival word whose producer has left (R234). -/
def dropPhase (s : State) (p : Nat × Nat) : State :=
  (List.range (jobMbs s)).foldl (fun t mb => (atomicAt t (wfield (phaseDesc t p.1 p.2) 2 63 0 + 8 * mb) 2 dropBit 0).1) s

def dropFed (s : State) (removed : List Nat) : State :=
  if s.job.isNone then s
  else ((phasePairs s).filter fun p => removed.contains (Config.producerOf p.1 p.2)).foldl dropPhase s

/-- R107: a device that joins a running job takes its widths from a member. -/
def takeWidths (s : State) (added : List Nat) : State :=
  if added.contains (ownNode s) then
    let w := Config.memberWidths (survMgen s)
    modJob s fun j => { j with fwdWide := w.1, agWide := w.2.1, clean := w.2.2 }
  else s

/-- A device and its partner lost in one change: its shard is lost (R371). The coordinator detects it. -/
def lostPairs (s : State) (removed : List Nat) : State :=
  if isCoordinator s then
    (removed.filter fun n => removed.contains (Config.lostPartner n).toNat).foldl (fun t n => haltJob t haltShardLost n 0) s
  else s

/-- The partner has left, or none was found before. -/
def partnerGone (s : State) (removed : List Nat) : Bool := match s.surv.partner with
  | some p => removed.contains p.1
  | none => !s.surv.plan.isEmpty

/-- Steps 1 to 5. -/
def changeMember (s : State) (removed added : List Nat) : State :=
  let s := added.foldl addNode (removed.foldl removeNode s)
  let s := (s.surv.wards.filter fun w => removed.contains w.node).foldl adoptGroup s
  let s := s.coll.groups.foldl (changeGroup removed added) (added.foldl joinPlaces s)
  let s := dropFed (freshRelations s) removed
  let s := putF s SURV_STATUS SURV_STATUS_COORD (bit (isCoordinator s))
  let s := { s with surv := { s.surv with refusals := [], turned := [] } }
  let s := if partnerGone s removed then choosePartner s else s
  startWatch (rerunReset (takeWidths (idleReplica s removed added) added))

def sendChildren (s : State) (kind mgen : Nat) (removed added : List Nat) : State :=
  (survChildren s).foldl (fun t c => sendRelation t c kind 0 mgen removed added) s

/-- The change is made, flooded over the new tree, and in flight. -/
def makeChange (s : State) (mgen : Nat) (removed added : List Nat) : State :=
  let s := setR s SURV_MGEN (BitVec.ofNat 32 mgen)
  let s := lostPairs (changeMember s removed added) removed
  let s := { s with surv := { s.surv with change := some ⟨mgen, removed, added, [], s.now, false⟩ } }
  sendChildren s kChange mgen removed added

/-- Children that have not confirmed. -/
def unconfirmed (s : State) (c : Change) : List Nat := (survChildren s).filter fun k => !c.kids.contains k

/-! ### The coordinator (R365) -/

def reportsOf (s : State) (removed : Bool) : List Nat := (s.surv.reports.filter (·.2 = removed)).map (·.1)

def changeNotice (s : State) (mgen : Nat) (subjects : List Nat) : State :=
  postNotice s 0x0501 ([w64 mgen, w64 (jobStep s)]
    ++ wordsOf 4 (subjects.flatMap (leBytes 2) ++ List.replicate (32 - 2 * subjects.length) 0))

/-- The next change takes the reports that stand, sixteen subjects at most. -/
def startChange (s : State) : State :=
  let rs := s.surv.reports.take 15
  let removed := (rs.filter (·.2)).map (·.1)
  let added := (rs.filter (!·.2)).map (·.1)
  let mgen := survMgen s + 1
  let s := { s with surv := { s.surv with reports := s.surv.reports.drop 15 } }
  changeNotice (makeChange s mgen removed added) mgen (removed ++ added)

/-- No change is in flight, or its confirmations are in: reports that have gathered make the next one. -/
def nextChange (s : State) : State :=
  let free := match s.surv.change with
    | none => true
    | some c => (unconfirmed s c).isEmpty
  if free && !s.surv.reports.isEmpty && isCoordinator s then startChange s else s

/-- Every child has confirmed: this member confirms to its parent. -/
def confirmUp (s : State) : State :=
  match s.surv.change, survGroup s with
  | some c, some g =>
    if !(unconfirmed s c).isEmpty then s
    else if g.rank = 0 then nextChange s
    else sendRelation s (treeParent g.rank) kConfirm 0 c.mgen [] []
  | _, _ => s

def confirmFrom (s : State) (rank mgen : Nat) : State :=
  match s.surv.change with
  | none => s
  | some c =>
    if c.mgen != mgen || c.kids.contains rank then s
    else { s with surv := { s.surv with change := some { c with kids := c.kids ++ [rank] } } }

/-- CONFIRM lines that came before this member's own change. -/
def pollConfirm (s : State) (q : Fin 9) : State :=
  match readSurv s (survAddr s (.relation q)), survGroup s with
  | some l, some g =>
    if q.val != 0 && l.kind = kConfirm && l.mgen = survMgen s && l.sender = g.node (relationRank g q.val) then
      confirmFrom (noteTaken s (.relation q) l.seq) (relationRank g q.val) l.mgen
    else s
  | _, _ => s

def changeFlow (s : State) (mgen : Nat) (removed added : List Nat) : State :=
  settleFabric (pumpIntake (confirmUp ((List.finRange 9).foldl pollConfirm (makeChange s mgen removed added))))

/-- Only a CHANGE of a higher generation is acted on; one that removes this device fences it (R364). -/
def onChange (s : State) (l : SurvLine) : State :=
  if l.mgen ≤ survMgen s then s
  else if l.removed.contains (ownNode s) then selfFence s
  else changeFlow s l.mgen l.removed l.added

def execChange (at_ : SurvLoc) (s : State) : Host.Outcome State Fault Refusal :=
  .next (takeSurv s at_ kChange onChange)

def onConfirm (s : State) (loc : SurvLoc) (l : SurvLine) : State :=
  match loc, survGroup s with
  | .relation q, some g => confirmUp (confirmFrom s (relationRank g q.val) l.mgen)
  | _, _ => s

/-- A CONFIRM of a change that this member has still to make is left for it. -/
def confirmEarly (s : State) (loc : SurvLoc) : Bool := match readSurv s (survAddr s loc) with
  | some l => survMgen s < l.mgen
  | none => false

def confirmIn (s : State) (loc : SurvLoc) : State :=
  if confirmEarly s loc then s else takeSurv s loc kConfirm fun t l => onConfirm t loc l

def execConfirm (at_ : SurvLoc) (s : State) : Host.Outcome State Fault Refusal := .next (confirmIn s at_)

def addReport (s : State) (removed : Bool) (node : Nat) : State :=
  let known := s.surv.reports.contains (node, removed) || (removed && !(groupNodes s).contains node)
  if known then s else { s with surv := { s.surv with reports := s.surv.reports ++ [(node, removed)] } }

/-- The next rank takes over: it makes the change in flight again, with the coordinator among the lost. -/
def takeOver (s : State) (lost : List Nat) : State :=
  let old := match s.surv.change with
    | some c => (c.removed, c.added)
    | none => ([], [])
  let removed := (lost ++ old.1 ++ reportsOf s true).dedup
  let added := (old.2 ++ reportsOf s false).dedup
  let mgen := survMgen s + 1
  let s := { s with surv := { s.surv with reports := [] } }
  changeNotice (changeFlow s mgen removed added) mgen (removed ++ added)

/-- Every member of a lower rank is reported lost, here or by the line. -/
def takesOver (s : State) (g : Group) (lost : List Nat) : Bool :=
  (List.range g.rank).all fun r => (lost ++ lostKnown s).contains (g.node r)

def onLoss (s : State) (l : SurvLine) : State :=
  match survGroup s with
  | none => s
  | some g =>
    if l.removed.contains (ownNode s) then s
    else if g.rank = 0 then settleFabric (nextChange (l.removed.foldl (fun t n => addReport t true n) s))
    else if takesOver s g l.removed then takeOver s (l.removed ++ lostKnown s) else s

def execLoss (at_ : SurvLoc) (s : State) : Host.Outcome State Fault Refusal := .next (takeSurv s at_ kLoss onLoss)

def onJoin (s : State) (l : SurvLine) : State :=
  if isCoordinator s then settleFabric (nextChange (l.added.foldl (fun t n => addReport t false n) s)) else s

def execJoin (at_ : SurvLoc) (s : State) : Host.Outcome State Fault Refusal := .next (takeSurv s at_ kJoin onJoin)

/-! ### RESUME (R365, R367, R370, R381) -/

def rejoinNotice (s : State) (node : Nat) : State := postNotice s 0x0505 [w64 node, w64 (jobStep s + 1)]

/-- The change is over: the step after it may be released, and a whole replica leaves the idle state at the
second boundary. -/
def endChange (s : State) (c : Change) : State :=
  let s := { s with surv := { s.surv with change := none } }
  let s := if s.surv.missing.isEmpty && replicaIdle s then
      { s with surv := { s.surv with idleUntil := some (jobStep s + 2) } } else s
  if isCoordinator s then c.added.foldl rejoinNotice s else s

/-- HOLDOFF in units of 10 ms; 201 to 255 are taken as 200. -/
def holdoffTime (s : State) : Nat := 10000000 * min 200 (getF s SURV_CTL SURV_CTL_HOLDOFF)

def holdoff (s : State) : State :=
  match s.surv.change with
  | none => s
  | some c =>
    if quenched s || !isCoordinator s || !(unconfirmed s c).isEmpty || !s.surv.reports.isEmpty || s.now - c.sentAt < holdoffTime s then s
    else endChange (sendChildren s kResume c.mgen [] []) c

def execHoldoffExpiry (s : State) : Host.Outcome State Fault Refusal := .next (holdoff s)

def onResume (s : State) (l : SurvLine) : State :=
  match s.surv.change with
  | some c => if c.mgen = l.mgen then endChange (sendChildren s kResume c.mgen [] []) c else s
  | none => s

def execResume (at_ : SurvLoc) (s : State) : Host.Outcome State Fault Refusal :=
  .next (takeSurv s at_ kResume onResume)

def onHalt (s : State) (l : SurvLine) : State := if s.surv.haltSeen then s else floodHalt s l.reason

def execHalt (at_ : SurvLoc) (s : State) : Host.Outcome State Fault Refusal := .next (takeSurv s at_ kHalt onHalt)

/-! ## Promotion (R368, R369, R343) -/

/-- An entry of a mirror, whole and in use. -/
def mirrorEntry (s : State) (a : Nat) : Option (JState × JEntry) :=
  let bs := readBytes s a 512
  let ws := wordsOf 64 bs
  let st := wfield ws 0 43 42
  let good := wfield ws 0 63 48 = 0x0D03 && st != 0 && fieldLE bs 0x7C 4 = crc32c (bs.take 0x7C ++ bs.drop 0x80)
  if !good then none
  else
    let j : JEntry :=
      { jseq := wfield ws 1 63 0, ring := wfield ws 0 47 44, st := .accepted, status := wfield ws 0 41 34
        seq := wfield ws 2 63 0, accTime := wfield ws 3 63 0
        doneStep := if wfield ws 4 63 0 = 2 ^ 64 - 1 then none else some (wfield ws 4 63 0), detail := wfield ws 5 63 8
        item := (ws.drop 16), mirrored := false, marked := false, markAcked := false, fin := false, posted := false
        cslot := none }
    some (if st = 1 then .accepted else if st = 2 then .running else .done, j)

/-- An entry whose effect the copy does not hold is Running again. -/
def mirrorState (commit : Nat) (p : JState × JEntry) : JEntry :=
  let st := if p.1 = .done && (match p.2.doneStep with
      | some d => commit < d
      | none => false) then .running else p.1
  { p.2 with st := st, doneStep := if st = .done then p.2.doneStep else none, status := 0, detail := 0 }

/-- Entries of the mirror of a ward that hold a byte that is not 0: no other is in use (Table 12-7). -/
def mirrorSlots (s : State) (w : Ward) : List Nat :=
  let a := w.slot + slotMirror
  ((s.mem.filter fun c => a ≤ c.1 && c.1 < w.slot + slotFp).map fun c => (c.1 - a) / 512).dedup

def mirrorEntries (s : State) (w : Ward) (commit : Nat) : List JEntry :=
  ((mirrorSlots s w).filterMap fun k =>
    (mirrorEntry s (w.slot + slotMirror + 512 * k)).map (mirrorState commit)).mergeSort fun a b => decide (a.seq ≤ b.seq)

/-- The journal has a free entry for each of the next `n` numbers. -/
def journalRoom (s : State) (n : Nat) : Bool :=
  n ≤ jslots s && (List.range n).all fun k => !s.intake.journal.any fun j => j.jseq % jslots s = (s.intake.jseq + k) % jslots s

/-- The entries of a ward that a promotion copies. -/
def takenItems (s : State) (w : Ward) (commit : Nat) : List JEntry := (mirrorEntries s w commit).filter (·.st != .done)

/-- ACC_SEQ and DONE_SEQ of a ring of the mirror. -/
def ringSeqs (js : List JEntry) (ring : Nat) : Nat × Nat :=
  let mine := js.filter (·.ring = ring)
  let acc := ((mine.map (·.seq)).foldl max 0) + 1
  (acc, ((mine.find? (·.st != .done)).map (·.seq)).getD acc)

/-- An item that is not Done enters this device's journal until an ACT takes its ring. -/
def copyItem (node : Nat) (s : State) (j : JEntry) : State :=
  let k := { j with jseq := s.intake.jseq, ring := takenKey node j.ring }
  let s := { s with intake := { s.intake with jseq := s.intake.jseq + 1, journal := s.intake.journal ++ [k] } }
  sendMirror (storeEntry s k) k (.mirror k.ring k.jseq)

/-- The takeover record of two rings, or of the last one (Table 12-9). -/
def takeoverRecord (s : State) (node total idx : Nat) (p : List (Nat × Nat × Nat)) : List Word64 :=
  let a := p.getD 0 (0, 0, 0)
  let b := p.getD 1 (0, 0, 0)
  [headWord s 0x0408 (a.1 + b.1 * 2 ^ 4 + p.length * 2 ^ 8 + idx * 2 ^ 16 + total * 2 ^ 24), w64 node,
    w64 a.2.1, w64 a.2.2, w64 b.2.1, w64 b.2.2]

def pairUp : List (Nat × Nat × Nat) → List (List (Nat × Nat × Nat))
  | a :: b :: rest => [a, b] :: pairUp rest
  | [a] => [[a]]
  | [] => []

def postTakeover (s : State) (node : Nat) (rings : List (Nat × Nat × Nat)) : State :=
  let ps := pairUp rings
  ps.zipIdx.foldl (fun t p => postRecord t (takeoverRecord t node ps.length p.2 p.1)) s

/-- The mirror of a lost device is taken over. -/
def takeMirror (s : State) (w : Ward) (commit : Nat) : State :=
  let js := mirrorEntries s w commit
  let rings := ((List.range 16).filter fun r => js.any (·.ring = r)).map fun r => (r, ringSeqs js r)
  let s := noteFull ((takenItems s w commit).foldl (copyItem w.node) s)
  let s := { s with intake := { s.intake with
    taken := s.intake.taken ++ rings.map fun r => (w.node, r.1, r.2.1, r.2.2) } }
  postTakeover s w.node (rings.map fun r => (r.1, r.2.1, r.2.2))

/-- R241: a cursor record that disagrees with its stream. -/
def cursorRecordBad (s : State) (a n rate : Nat) : Bool :=
  let ws := readWords s a 3
  wfield ws 0 63 48 != 0x0C52 || n ≤ wfield ws 0 47 44 || wfield ws 2 63 0 != wfield ws 1 63 0 * rate

/-- The first of a job's cursor streams whose record is refused: table, count. -/
def cursorsBad (s : State) (table n : Nat) : Option Nat :=
  (List.range n).find? fun k =>
    cursorRecordBad s (table + 256 + 128 * k) n (bitsOf 31 0 (readWord s (table + 16 * k + 8)).toNat)

def wardCursorsBad (s : State) (w : Ward) : Option Nat := match wardJob s w with
  | some a => cursorsBad s (readWord s (a + 104)).toNat (bitsOf 63 59 (readWord s (a + 112)).toNat)
  | none => none

/-- The refusal names the stream. -/
def nameStream (s : State) (k : Option Nat) : State := { s with surv := { s.surv with badStream := k } }

/-- A range of DRAM becomes zero, and its lines sound. -/
def zeroRange (s : State) (r : Nat × Nat) : State :=
  let s := zeroBytes s r.1 r.2
  { s with memctl := { s.memctl with poison := s.memctl.poison.filter fun l => !(r.1 ≤ l && l < r.1 + r.2) } }

def setWardState (s : State) (w : Ward) (st : Nat) : State :=
  writeWord s w.slot (w64 ((readWord s w.slot).toNat / 4 * 4 + st))

/-- The adopted shard's own seed copy. -/
def copyAdopted (s : State) (w : Ward) : State :=
  match adoptPartner s w with
  | none => s
  | some c =>
    let h := (readWord s w.slot).toNat / 4 * 4
    let header := fun (st : Nat) => bytesOfWords (padWords 16 [w64 (h + st), readWord s (w.slot + 8)])
    let s := sendWrites s c.node c.slot (header wardFilling) .line
    let s := sendRanges s c.node .line (wardExtents s w kStatic ++ wardExtents s w kMaster)
    let s := sendFps s c.node (c.slot + slotFp) .line (wardRows s w)
    sendWrites s c.node c.slot (header wardCurrent) .line

/-- The last step that this device updated. -/
def lastUpdated (s : State) : Nat := s.surv.commitDue.getD s.surv.lastCommit

/-- The shard is adopted. -/
def adoptShard (s : State) (w : Ward) (commit : Nat) : State :=
  let s := (wardExtents s w kScratch).foldl zeroRange s
  let s := takeMirror s w commit
  let s := satF s SURV_CNT2 SURV_CNT2_PROMOTIONS 1
  let s := { s with surv := { s.surv with adopts := s.surv.adopts ++ [w.node] } }
  let s := copyAdopted (setWardState s w wardPromoted) w
  postNotice s 0x0504 [w64 w.node, w64 commit, w64 (bit (commit < lastUpdated s))]

def promote (s : State) (w : Ward) : State :=
  if (readWord s w.slot).toNat % 4 != wardCurrent || planMaxWards s.surv.plan ≤ s.surv.adopts.length then
    haltJob s haltShardLost w.node 0
  else
    let t := if commitFresh s w then applyCommit s w else s
    if (wardCursorsBad t w).isSome then haltJob (nameStream t (wardCursorsBad t w)) haltCursor w.node 0
    else if !journalRoom t (takenItems t w (readWord t (w.slot + 8)).toNat).length then s
    else adoptShard t w (readWord t (w.slot + 8)).toNat

/-- No frame of the removed ward for HB_LOSS and LEASE. -/
def leaseExpiry (s : State) (node : Nat) : State :=
  match wardNamed s node, assocGet node s.surv.removedAt with
  | some w, some t =>
    if quenched s || isMember s node || s.surv.adopts.contains node || fenced s || s.now - t < hbLoss s + leaseTime s then s
    else settleFabric (promote s w)
  | _, _ => s

def execLeaseExpiry (node : BitVec 16) (s : State) : Host.Outcome State Fault Refusal :=
  .next (leaseExpiry s node.toNat)

/-! ## Handover (R381) -/

/-- The adopted shard that a joined device takes: that of its own number, else the one that the job controller gave it (log
entry 192). -/
def handedWard (s : State) (node : Nat) : Option Ward :=
  ((adoptedWards s).find? (·.node = node)).or ((adoptedWards s).find? (·.node = Config.placeOf node))

/-- The group that this device stood in for. -/
def leaveShardGroup (s : State) (w : Ward) : State := match wardJob s w with
  | some a =>
    let idx := bitsOf 47 32 (readWord s (a + 32)).toNat
    if isDpGroup s idx then s else groupDeact s idx
  | none => s

def handover (s : State) (node : Nat) : State :=
  match handedWard s node with
  | none => s
  | some w =>
    if quenched s || !(groupNodes s).contains node || !atBoundary s || s.surv.change.isSome || s.surv.commitDue.isSome
        || s.surv.commitStep.isSome || fenced s then s
    else
      let s := sendRanges s node .line (wardExtents s w kMaster ++ wardExtents s w kStatic)
      let s := leaveShardGroup s w
      let s := setWardState s w 0
      settleFabric { s with surv := { s.surv with
        adopts := s.surv.adopts.filter (· != w.node), wards := s.surv.wards.filter (·.node != w.node) } }

def execHandover (node : BitVec 16) (s : State) : Host.Outcome State Fault Refusal :=
  .next (handover s node.toNat)

/-! ## Notices (R374) -/

def execNoticeRetry (s : State) : Host.Outcome State Fault Refusal :=
  .next (sendNotices s.surv.notices.length s)

/-! ## Restore (R376) -/

def restoreArea (s : State) : Nat := getPair s SURV_RST_LO SURV_RST_HI

/-- Bytes of the regions of the plan, and what the snapshot holds after them. -/
def regionBytes (s : State) : Nat := ((snapRegions s).map (·.2)).sum
def restoreLen (s : State) : Nat := (readWord s (restoreArea s + 24)).toNat

/-- Cursor records of the snapshot, between the regions and the journal. -/
def restoreCursors (s : State) : Nat := (restoreLen s - regionBytes s - journalBytes s) / 128

/-- Table 11-8: the type, the reserved bytes, and a length that the snapshot plan gives. -/
def restoreHeaderBad (s : State) : Bool :=
  let a := restoreArea s
  let k := restoreCursors s
  bitsOf 63 48 (readWord s a).toNat != 0x0C65 || bitsOf 23 16 (readWord s a).toNat != 0
    || (List.range 4).any (fun i => readWord s (a + 32 + 8 * i) != 0)
    || restoreLen s != regionBytes s + 128 * k + journalBytes s || 16 < k

def restoreDigestBad (s : State) : Bool :=
  let a := restoreArea s
  sha3 (readBytes s (a + 128) (restoreLen s)) != readBytes s (a + 64) 64

/-- RATE of a stream: a job that is halted still names its table; without one it is a free value (log entry 59). -/
def streamRate (s : State) (k : Nat) : Nat :=
  if s.job.isSome then bitsOf 31 0 (readWord s (jobWord s 13 + 16 * k + 8)).toNat else Config.streamRate k

/-- NCURSOR: that of the job that is halted, else the number of records in the snapshot. -/
def streamCount (s : State) : Nat := if s.job.isSome then bitsOf 63 59 (jobWord s 14) else restoreCursors s

/-- The first cursor record of the snapshot that is refused: its stream. -/
def restoreCursorsBad (s : State) : Option Nat :=
  ((List.range (restoreCursors s)).map fun k => restoreArea s + 128 + regionBytes s + 128 * k).findSome? fun a =>
    let k := bitsOf 47 44 (readWord s a).toNat
    if cursorRecordBad s a (streamCount s) (streamRate s k) then some k else none

def restoreError (s : State) : Nat :=
  if s.job.isSome && !halted s then 0x34
  else if restoreHeaderBad s then 0x33
  else if restoreDigestBad s then 0x32
  else if (restoreCursorsBad s).isSome then 0x31
  else 0

/-- Each region is copied back to its address. -/
def restoreRegions : List (Nat × Nat) → Nat → State → State
  | [], _, s => s
  | r :: rs, a, s => restoreRegions rs (a + r.2) (memWrite s r.1 (readBytes s a r.2)).1

/-- The cursor records go back to the lines of the job that stands. -/
def restoreCursorLines (s : State) : State :=
  let a := restoreArea s + 128 + regionBytes s
  ((cursorLines s).take (restoreCursors s)).zipIdx.foldl (fun t p => (memWrite t p.1 (readBytes t (a + 128 * p.2) 128)).1) s

def restore (s : State) : State :=
  let e := restoreError s
  let s := putF (putF s SURV_RST_CTL SURV_RST_CTL_ERROR e) SURV_RST_CTL SURV_RST_CTL_DONE (bit (e = 0))
  if e != 0 then (if e = 0x31 then nameStream s (restoreCursorsBad s) else s)
  else
    let step := (readWord s (restoreArea s + 16)).toNat
    let s := restoreRegions (snapRegions s) (restoreArea s + 128) (if s.job.isSome then restoreCursorLines s else s)
    putF { s with job := none, surv := { s.surv with baseStep := step, haltSeen := false } }
      SURV_STATUS SURV_STATUS_HALTED 0

def restoreBy (s : State) (agent : Nat) : State := if mayWrite s agent SURV_RST_CTL then restore s else s

def execRestoreGo (agent : BitVec 8) (s : State) : Host.Outcome State Fault Refusal :=
  .next (restoreBy s agent.toNat)

end Sys2Proof.Machine
end

