-- ==== Sys2Proof/Machine/Power.lean ====
section
/-! DEFINITION. The bellows (R383 to R391): the power estimate and its windows, pacing, grants and the start
dither, the voltage request, the idle floor and the ladder. -/

namespace Sys2Proof.Machine

/-! ## Limits that registers hold (Table 14-5) -/

/-- A field whose values outside a range are taken as its ends. -/
def clampF (s : State) (a : Nat) (f : Fld) (lo hi : Nat) : Nat := max lo (min hi (getF s a f))

def capW (s : State) : Nat := clampF s PWR_CTL PWR_CTL_CAP 400 1350
/-- SLOPE × 1 µs, in mA. -/
def slopeMilli (s : State) : Nat := 10000 * clampF s PWR_CTL PWR_CTL_SLOPE 15 120
def imaxA (s : State) : Nat := clampF s PWR_IMAX PWR_IMAX_IMAX 1000 2600
def vset (s : State) : Nat := min 60 (getF s PWR_VCTL PWR_VCTL_VSET)
def vfloor (s : State) : Nat := min (vset s) (getF s PWR_VCTL PWR_VCTL_VFLOOR)
def vreq (s : State) : Nat := getF s PWR_VCTL PWR_VCTL_VREQ

/-- The hottest junction, in 1/16 °C. -/
def junction (s : State) : Int := sext 16 (getF s THM_TJ THM_TJ_TJ)

def modPower (s : State) (f : Power → Power) : State := { s with power := f s.power }

/-! ## The estimate (R383, R384) -/

/-- The mean of the estimates of the last `w` ns, one in each microsecond. -/
def windowMean (s : State) (w : Nat) : Nat :=
  let l := s.power.samples.filter fun p => decide (s.now - p.1 < w)
  (l.map (·.2)).sum / l.length

def pFast (s : State) : Nat := windowMean s 100000
def pSlow (s : State) : Nat := windowMean s 1000000000

/-- The VCORE current by the corrected weights. -/
def estAmps (s : State) (amps : Nat) : Nat := (s.power.weight * amps).floor.toNat

/-- Device power with its VCORE part corrected. -/
def estWatts (s : State) (watts amps : Nat) : Nat :=
  let mv := getF s PWR_MEAS PWR_MEAS_VMV
  watts - amps * mv / 1000 + estAmps s amps * mv / 1000

def addSample (s : State) (watts amps : Nat) : State :=
  let s := modPower s fun p => { p with
    samples := (s.now, estWatts s watts amps) :: p.samples.filter fun x => decide (s.now - x.1 < 1000000000)
    rawAmps := amps }
  putF (putF s PWR_POWER PWR_POWER_P_FAST (min 0xFFFF (pFast s))) PWR_POWER PWR_POWER_P_SLOW (min 0xFFFF (pSlow s))

/-- The ±3% of the measured VCORE power that the estimate can err by (R384), in W. -/
def margin (s : State) : Rat :=
  3 / 100 * ((getF s PWR_MEAS PWR_MEAS_VMV * getF s PWR_MEAS PWR_MEAS_IAMP : Nat) : Rat) / 1000

/-- The greatest that each window can be. -/
def pFastHigh (s : State) : Rat := pFast s + margin s
def pSlowHigh (s : State) : Rat := pSlow s + margin s

/-- Since when P_fast may exceed CAP. -/
def noteOver (s : State) : State := modPower s fun p => { p with
  overSince := if (capW s : Rat) < pFastHigh s then some (p.overSince.getD s.now) else none }

/-- A run of time with P_fast above CAP is one excursion. -/
def noteExcursion (s : State) : State :=
  if capW s < pFast s then
    if s.power.excursion.isSome then s
    else
      satF (putF (modPower s fun p => { p with excursion := some s.now }) PWR_STATUS PWR_STATUS_EXCURSION 1)
        PWR_CNT PWR_CNT_EXCURSIONS 1
  else putF (modPower s fun p => { p with excursion := none }) PWR_STATUS PWR_STATUS_EXCURSION 0

/-! ## Pacing (R386) -/

def paceK (s : State) : Nat := getF s PWR_STATUS PWR_STATUS_PACE

def setPace (s : State) (k : Nat) : State :=
  let s := if paceK s = 16 && k < 16 then satF s PWR_CNT PWR_CNT_PACINGS 1 else s
  modPower (putF s PWR_STATUS PWR_STATUS_PACE k) fun p => { p with paceAt := s.now }

/-- k falls as far as needed; the spec gives no relation of k to power, so how far is a free value (log entry
70). -/
def paceDown (s : State) : State :=
  if paceK s ≤ 1 then s
  else
    let r := drawFree s
    setPace r.2 (1 + r.1.toNat % (paceK s - 1))

/-! ## The allowance (R390, R392, R394) and the limit in force -/

/-- F in 1/10 %; FLOW_SAFE stands in while the flow is not sensed (R395). -/
def flowNow (s : State) : Nat :=
  if flag s THM_COOL THM_COOL_SENSE_OK then s.therm.flow else 10 * clampF s THM_CTL THM_CTL_FLOW_SAFE 10 100

def pFlow (s : State) : Rat := (capW s : Rat) * min 1 ((flowNow s : Rat) / 1000)
def pAllow (s : State) : Rat := min (min (capW s : Rat) (pFlow s)) s.power.pTherm

/-- The ladder's level of the request, within VFLOOR and VSET as they stand. -/
def ladderLevel (s : State) : Nat := max (vfloor s) (min (vset s) s.power.ladderV)

def ladderDownNow (s : State) : Bool :=
  ladderLevel s < vset s || s.power.parked != [] || pAllow s < (pFast s : Rat)

/-- LIMIT of PWR_STATUS. -/
def limitCode (s : State) : Nat :=
  if quenched s then 6
  else if imaxA s < estAmps s s.power.rawAmps then 4
  else if !ladderDownNow s then 0
  else if s.power.pTherm < min (capW s : Rat) (pFlow s) then 3
  else if pFlow s < (capW s : Rat) then (if flag s THM_COOL THM_COOL_SENSE_OK then 2 else 5)
  else 1

def settleLimit (s : State) : State := putF s PWR_STATUS PWR_STATUS_LIMIT (limitCode s)

/-- An excursion, or what the error of the estimate may hide of one, that has reached 10 ms. -/
def excursionLong (s : State) : Bool := match s.power.overSince with
  | some t => decide (10000000 ≤ s.now - t)
  | none => false

/-- The current asks for pacing (R386), or one of the limits of R383, with the error of the estimate allowed for. -/
def mustPace (s : State) : Bool :=
  imaxA s < estAmps s s.power.rawAmps || 1500 < pFastHigh s || excursionLong s || (capW s : Rat) < pSlowHigh s

def powerEstimate (s : State) (watts amps : Nat) : State :=
  let s := addSample s watts amps
  if quenched s then settleLimit s
  else
    let s := noteExcursion (noteOver s)
    settleLimit (if mustPace s then paceDown s else s)

def execPowerEstimate (watts amps : Nat) (s : State) : Host.Outcome State Fault Refusal :=
  .next (powerEstimate s watts amps)

/-- Every 10 µs with the cause gone; k = 8 of R392 is held as long as the junction asks for it. -/
def paceRaise (s : State) (gone : Bool) : State :=
  if !gone || mustPace s || quenched s || 16 ≤ paceK s || s.now - s.power.paceAt < 10000 || (s.power.hotPace && 8 ≤ paceK s) then s
  else setPace s (paceK s + 1)

def execPaceRaise (causeGone : Bool) (s : State) : Host.Outcome State Fault Refusal := .next (paceRaise s causeGone)

/-! ## AVSBus (R384, R388) -/

/-- Command code of Rail Current in PMBus AVS (log entry 71). -/
def avsRailCurrent : Nat := 2

/-- Rail currents are read in units of 10 mA. -/
def avsRead (s : State) (mv : Nat) (rails : List (BitVec 16)) : State :=
  let total := (rails.map (·.toNat)).sum
  let s := putF (putF s PWR_MEAS PWR_MEAS_VMV mv) PWR_MEAS PWR_MEAS_IAMP (min 0xFFFF (total / 100))
  modPower s fun p => { p with
    avsFails := 0
    weight := if p.rawAmps = 0 then p.weight else (total : Rat) / 100 / p.rawAmps }

def avsFail (s : State) : State :=
  let s := modPower s fun p => { p with avsFails := p.avsFails + 1 }
  if s.power.avsFails = 3 && !s.power.avsDead then
    makeRecord (modPower s fun p => { p with avsDead := true }) srcBellows 0x400 [w64 avsRailCurrent]
  else s

/-- AVSBus is used from step 3 (Table 17-5). -/
def avsCurrentRead (s : State) (ok : Bool) (mv : Nat) (rails : List (BitVec 16)) : State :=
  if s.boot.step < 3 then s else if ok then avsRead s mv rails else avsFail s

def execAvsCurrentRead (ok : Bool) (mv : BitVec 16) (railAmps : List (BitVec 16)) (s : State) :
    Host.Outcome State Fault Refusal :=
  .next (avsCurrentRead s ok mv.toNat railAmps)

/-- A request for a code; after an AVSBus failure none is raised. -/
def requestV (s : State) (v : Nat) : State :=
  if v = vreq s || (s.power.avsDead && vreq s < v) then s
  else emit (putF (modPower s fun p => { p with vAt := s.now }) PWR_VCTL PWR_VCTL_VREQ v) (.avs v)

/-- The smith asks for 0.60 V while the device starts (R43, R415). -/
def startVoltage (s : State) : State :=
  if s.power.avsDead && vreq s < 30 then s
  else emit (putF (modPower s fun p => { p with vAt := s.now }) PWR_VCTL PWR_VCTL_VREQ 30) (.avs 30)

/-- The level asked for: the floor of R389, else the ladder's. -/
def vTarget (s : State) : Nat := if s.power.floored then vfloor s else ladderLevel s

/-- The request moves by at most one code every 100 µs. -/
def moveV (s : State) : State :=
  if s.now - s.power.vAt < 100000 then s
  else if vreq s < vTarget s then requestV s (vreq s + 1)
  else if vTarget s < vreq s then requestV s (vreq s - 1)
  else s

/-! ## Grants (R385, R387) -/

def atN0 (s : State) : Bool := getF s PWR_MEAS PWR_MEAS_VMV = 600 && getF s THM_TJ THM_TJ_TJ = 65 * 16

/-- Full-activity current of one anvil, in mA, at the present VCORE and junction. -/
def anvilMilli (s : State) : Nat :=
  if atN0 s then 2250 else Config.anvilCurrent (getF s PWR_MEAS PWR_MEAS_VMV) (getF s THM_TJ THM_TJ_TJ)

def vectorMilli (s : State) : Nat :=
  if atN0 s then 1430 else Config.vectorCurrent (getF s PWR_MEAS PWR_MEAS_VMV) (getF s THM_TJ THM_TJ_TJ)

/-- Eighths still to rise of an anvil that asks for a reversal. -/
def reverseEighths : Ramp → Nat
  | .waitRev w => 7 - w
  | _ => 0

/-- Eighths to fall of an anvil that asks for its ramp-down. -/
def downEighths : Ramp → Nat
  | .stop w => w + 1
  | _ => 8

/-- Direction, upward or not, and charge of a request. -/
def grantCharge (s : State) : GrantReq → Bool × Nat
  | .up _ m => (true, (anvList m.toNat).length * anvilMilli s)
  | .down c a => (false, downEighths (anvilAt s c.val a.val).ramp * anvilMilli s / 8)
  | .reverse c a => (true, reverseEighths (anvilAt s c.val a.val).ramp * anvilMilli s / 8)
  | .vector _ => (true, vectorMilli s)

def recentCharges (s : State) : List (Nat × Bool × Nat) :=
  s.power.charges.filter fun c => decide (s.now - c.1 < 1000)

def charged (s : State) (up : Bool) : Nat := (((recentCharges s).filter (·.2.1 = up)).map (·.2.2)).sum

def grantFits (s : State) (g : GrantReq) : Bool :=
  charged s (grantCharge s g).1 + (grantCharge s g).2 ≤ slopeMilli s

/-- A vector engine with nothing left to start asks for nothing. -/
def grantLive (s : State) : GrantReq → Bool
  | .vector i => (coreAt s i.val).vec.any fun e => !e.started
  | _ => true

def isRampDown : GrantReq → Bool
  | .down _ _ => true
  | _ => false

/-- The requests as they stand, each at the place of its arrival. -/
def standingGrants (s : State) : State :=
  let s := coreIds.foldl syncGrants s
  modPower s fun p => { p with grants := p.grants.filter (grantLive s) }

/-- The oldest request; a quench freezes every grant but ramp-downs (R398). -/
def nextGrant (s : State) : Option GrantReq :=
  if quenched s then s.power.grants.find? isRampDown else s.power.grants.head?

/-- What a granted unit does. -/
def applyGrant (s : State) : GrantReq → State
  | .up c m => (anvList m.toNat).foldl (fun t a => modAnvil t c.val a fun x =>
      { x with ramp := if x.ramp = .waitUp then .up 1 else x.ramp }) s
  | .down c a => modAnvil s c.val a.val fun x => { x with ramp := match x.ramp with
      | .waitDown => .down 1
      | .stop w => if w ≤ 1 then .idle else .down (8 - w)
      | r => r }
  | .reverse c a => modAnvil s c.val a.val fun x => { x with ramp := match x.ramp with
      | .waitRev w => .up w
      | r => r }
  | .vector c => pumpQueue (modCore s c.val fun x => { x with veGrant := true }) c .vec

def ditherWaits (s : State) : Bool := match s.power.dither with
  | some t => decide (s.now < t)
  | none => false

def grant (s : State) : State :=
  let s := standingGrants s
  match nextGrant s with
  | none => s
  | some g =>
    if (ditherWaits s && !isRampDown g) || !grantFits s g then s
    else
      let c := grantCharge s g
      let s := modPower s fun p => { p with
        grants := p.grants.erase g, charges := recentCharges s ++ [(s.now, c.1, c.2)]
        dither := if isRampDown g then p.dither else none }
      noteIdle (applyGrant s g)

def execGrant (s : State) : Host.Outcome State Fault Refusal := .next (grant s)

/-- The dither has passed and the first grant proceeds. -/
def ditherExpiry (s : State) : State :=
  if s.power.dither.isNone || ditherWaits s then s else grant (modPower s fun p => { p with dither := none })

def execStartDitherExpiry (s : State) : Host.Outcome State Fault Refusal := .next (ditherExpiry s)

/-! ## The idle floor (R389) -/

/-- A forecast whose window is open, or opens within `lead` ns. -/
def forecastNear (s : State) (lead : Nat) (f : Forecast) : Bool := f.opens ≤ s.now + lead && s.now < f.closes

def forecastDue (s : State) : Bool := s.power.forecasts.any (forecastNear s 500000)

/-- The bellows has VCORE from READY on (R415), and a quench overrides it (R397). -/
def bellowsHolds (s : State) : Bool := s.boot.step = 8 && !quenched s

def idleMillisecond (s : State) : Bool := match s.power.idleSince with
  | some t => decide (1000000 ≤ s.now - t)
  | none => false

def idleVfloor (s : State) : State :=
  if bellowsHolds s && idleMillisecond s && !forecastDue s then moveV (modPower s fun p => { p with floored := true })
  else s

def execIdleVfloor (s : State) : Host.Outcome State Fault Refusal := .next (idleVfloor s)

/-- The request returns to the level of the ladder; forecasts whose window has closed are dropped. -/
def forecastWindowDue (s : State) : State :=
  let s := modPower s fun p => { p with forecasts := p.forecasts.filter fun f => decide (s.now < f.closes) }
  if bellowsHolds s && forecastDue s then moveV (modPower s fun p => { p with floored := false }) else s

def execForecastWindowDue (s : State) : Host.Outcome State Fault Refusal := .next (forecastWindowDue s)

/-! ## The ladder (R390, R391) -/

/-- Domains in the order of parking: 0:7, 1:7, 0:6, 1:6, and so on to 0:1, 1:1. -/
def parkDomains : List Nat := [7, 15, 6, 14, 5, 13, 4, 12, 3, 11, 2, 10, 1, 9]

def parkOrder : List Nat := parkDomains.flatMap domCores

def nextPark (s : State) : Option Nat := parkOrder.find? fun i => !s.power.parked.contains i && !coreRetired s i

/-- Every core of the domain is parked; retired ones count as parked. -/
def allParked (s : State) (u : Nat) : Bool := (domCores u).all fun i => s.power.parked.contains i || coreRetired s i

/-- When each domain came to be parked whole. -/
def noteParked (s : State) : State :=
  modPower s fun p => { p with parkedFull :=
    (parkDomains.filter (allParked s)).map fun u => (u, (assocGet u p.parkedFull).getD s.now) }

def nextOff (s : State) : Option Nat := parkDomains.find? fun u =>
  !s.power.offDoms.contains u && match assocGet u s.power.parkedFull with
    | some t => decide (1000000 ≤ s.now - t)
    | none => false

/-- One step down, in the order of R390; none when no step is left. -/
def ladderDown (s : State) : Option State :=
  if vfloor s < ladderLevel s then some (modPower s fun p => { p with ladderV := ladderLevel s - 1 })
  else if !flag s PWR_CTL PWR_CTL_PARK_EN then none
  else match nextPark s with
    | some i => some (noteParked (modPower s fun p => { p with parked := p.parked ++ [i] }))
    | none => (nextOff s).map fun u => domCommand (modPower s fun p => { p with offDoms := p.offDoms ++ [u] }) u .off

/-- The first core of a domain that is parked is unparked. -/
def unparkFirst (s : State) (u : Nat) : State := match (domCores u).find? (s.power.parked.contains ·) with
  | some i => modPower s fun p => { p with parked := p.parked.erase i }
  | none => s

/-- One step up. -/
def ladderUp (s : State) : State :=
  match s.power.offDoms.getLast? with
  | some u => domCommand (unparkFirst (modPower s fun p => { p with offDoms := p.offDoms.dropLast }) u) u .on
  | none =>
    if s.power.parked != [] then modPower s fun p => { p with parked := p.parked.dropLast }
    else if ladderLevel s < vset s then modPower s fun p => { p with ladderV := ladderLevel s + 1 }
    else s

def ladderMove (s : State) : State :=
  if pAllow s < (pFast s : Rat) then (ladderDown s).getD (paceDown s)
  else if (pFast s : Rat) < 95 / 100 * pAllow s then ladderUp s
  else s

/-- What happens once in `n` ns: that long has passed since the last time, if there was one. -/
def dueAfter (s : State) (n : Nat) : Option Nat → Bool
  | some t => decide (n ≤ s.now - t)
  | none => true

def ladderStep (s : State) : State :=
  if bellowsHolds s && dueAfter s 100000 s.power.ladderAt then
    settleLimit (moveV (noteParked (ladderMove (noteParked (modPower s fun p => { p with ladderAt := some s.now })))))
  else s

def execLadderStep (s : State) : Host.Outcome State Fault Refusal := .next (ladderStep s)

end Sys2Proof.Machine
end

