-- ==== Sys2Proof/Machine/Thermal.lean ====
section
/-! DEFINITION. Heat (R392 to R405): the junction and its thresholds, the coolant and its sensing, the quench
from its declaration to its end, the thermal trip, and the thermal cycles of the part's life. -/

namespace Sys2Proof.Machine

def modTherm (s : State) (f : Therm → Therm) : State := { s with therm := f s.therm }

/-- A temperature in °C, in units of 1/16 °C. -/
def celsius (n : Nat) : Int := 16 * n

def tjLim (s : State) : Nat := clampF s THM_CTL THM_CTL_TJ_LIM 70 95
def quenchT (s : State) : Nat := clampF s THM_CTL THM_CTL_QUENCH_T 100 108

/-! ## Declaring a quench (R397, R398, R402) -/

/-- Every anvil asks for its ramp-down; a reversal that waits for its grant is withdrawn (R144). -/
def rampOff (r : Ramp) : Ramp :=
  match r with
  | .full => .waitDown
  | .waitRev w => .down (7 - w)
  | .up k => .stop k
  | r => r

def rampAllOff (s : State) : State :=
  { s with cores := s.cores.map fun c =>
      { c with anvils := c.anvils.map fun a => { a with ramp := rampOff a.ramp } } }

/-- A domain in Test for self-test returns to Off with its test queued again; a window ends unmeasured, and a
domain that was in Test for it alone is released. -/
def quenchDomain (s : State) (u : Nat) : State :=
  let d := domainAt s u
  if domState s u != domTest then modDomain s u fun d => { d with window := none }
  else if d.testing then
    addPending (modDomain (setDomState s u domOff) u fun d => { d with testing := false, window := none }) u .test
  else beginOn s u

def causeFlow : Nat := 1
def causeJunction : Nat := 2
def causeRegister : Nat := 3

/-- A quench takes effect whatever transition is in progress; one that stands is not declared again. -/
def declareQuench (s : State) (cause : Nat) : State :=
  if quenched s || s.therm.trip then s
  else
    let s := modTherm s fun t => { t with quench := some s.now, inSelfRefresh := false, left := false }
    let s := satF (putF s THM_QCTL THM_QCTL_CAUSE cause) THM_QCTL THM_QCTL_COUNT 1
    let s := putF (modPower s fun p => { p with excursion := none, overSince := none, selfRefresh := [] })
      PWR_STATUS PWR_STATUS_EXCURSION 0
    let s := (List.range 16).foldl quenchDomain s
    settleLimit (coreIds.foldl syncGrants (rampAllOff s))

def quenchBy (s : State) (agent : Nat) : State :=
  if mayWrite s agent THM_QCTL then declareQuench s causeRegister else s

def execQuench (agent : BitVec 8) (s : State) : Host.Outcome State Fault Refusal := .next (quenchBy s agent.toNat)

/-- Every anvil and vector engine is idle: 0.45 V is requested and DRAM enters self-refresh. -/
def quenchIdle (s : State) : State :=
  if !quenched s || s.therm.inSelfRefresh || !anvilsIdle s then s
  else requestV (modTherm s fun t => { t with inSelfRefresh := true }) 0

def execQuenchIdle (s : State) : Host.Outcome State Fault Refusal := .next (quenchIdle s)

/-- R399: a channel woken for a miss re-enters self-refresh after 10 µs without an access. -/
def selfRefreshReentry (s : State) (h chan : Nat) : State :=
  match assocGet (128 * h + chan) s.power.selfRefresh with
  | none => s
  | some t =>
    if s.now - t < 10000 then s
    else modPower s fun p => { p with selfRefresh := assocErase (128 * h + chan) p.selfRefresh }

def execSelfRefreshReentry (h : HearthId) (chan : BitVec 7) (s : State) : Host.Outcome State Fault Refusal :=
  .next (selfRefreshReentry s h.val chan.toNat)

/-! ## Its end (R400, R401) -/

/-- The part of a quench since `q` that lies after `t`. -/
def quenchPart (s : State) (q t : Nat) : Nat := s.now - max q t

/-- Times that a quench does not count towards: WAITs (R187), requests (R207), collectives (R328), mailbox locks (R347) and the
watch over other nodes (R363). -/
def shiftTimes (s : State) (q : Nat) : State :=
  { s with
    cores := s.cores.map fun c => { c with
      heldWaits := c.heldWaits.map fun h => { h with quenched := h.quenched + quenchPart s q h.since }
      preq := c.preq.map fun t => t + quenchPart s q t }
    mbx := s.mbx.map fun m => if m.owner = 0 then m else { m with quenched := m.quenched + quenchPart s q m.since }
    coll := { s.coll with insts := s.coll.insts.map fun x => { x with since := x.since + quenchPart s q x.since } }
    surv := { s.surv with heard := s.surv.heard.map fun p => (p.1, p.2 + quenchPart s q p.2) } }

def flowBack (s : State) : Bool := !s.therm.lost && match s.therm.okSince with
  | some t => decide (1000000000 ≤ s.now - t)
  | none => false

def cool (s : State) : Bool := junction s < celsius (tjLim s) - celsius 10

/-- The flow condition binds only a quench declared on flow. -/
def mayEnd (s : State) : Bool := cool s && (getF s THM_QCTL THM_QCTL_CAUSE != causeFlow || flowBack s)

/-- In the start sequence the smith asks for its voltage again. -/
def resumeStart (s : State) : State := if 3 ≤ s.boot.step && s.boot.step < 8 then startVoltage s else s

/-- Everything that the quench held looks again; passes resume behind the start dither. -/
def releaseAll (s : State) : State :=
  let s := (List.range 2).foldl retryHalf s
  pumpFabrics (pumpAll (pumpIntake (releaseBells (coreIds.foldl (fun t i => raiseFailed t i.val) s))))

def endQuench (s : State) (since : Nat) : State :=
  let s := resumeStart (requestV s (vfloor s))
  let s := modTherm s fun t => { t with quench := none, inSelfRefresh := false, left := false }
  let s := modPower (putF s THM_QCTL THM_QCTL_CAUSE 0) fun p => { p with
    selfRefresh := [], dither := some (s.now + dither s) }
  settleLimit (releaseAll (shiftTimes s since))

def quenchEnd (s : State) : State :=
  match s.therm.quench with
  | none => s
  | some t => if mayEnd s then endQuench s t else s

def execQuenchEnd (s : State) : Host.Outcome State Fault Refusal := .next (quenchEnd s)

/-- R401: once in a quench, the device is made to leave as by a write of LEAVE. -/
def quenchLeave (s : State) : State :=
  match s.therm.quench with
  | none => s
  | some t =>
    let n := getF s THM_QCTL THM_QCTL_LEAVE
    if n = 0 || s.therm.left || s.now - t < n * 1000000000 then s
    else leave (modTherm s fun x => { x with left := true })

def execQuenchLeaveTimer (s : State) : Host.Outcome State Fault Refusal := .next (quenchLeave s)

/-! ## The thermal trip (R403) -/

/-- Body of the trip record of the flash (Table 15-11). -/
def tripBody (s : State) (sensor reading : Nat) : List Byte :=
  padTo 24 (leBytes 8 s.now ++ leBytes 4 s.boot.startCount ++ leBytes 4 sensor ++ leBytes 2 reading)

/-- The pin removes VCORE: what ran on the cores is gone (log entry 72). -/
def coresLost (s : State) : State := { s with cores := s.cores.map fun _ => Core.reset }

def thermalTrip (s : State) (sensor reading : Nat) : State :=
  if s.therm.trip || !s.boot.running then s
  else
    let s := { s with pins := { s.pins with thermTrip := true } }
    let s := makeRecord s srcSmith 0x403 [w64 sensor]
    let s := writeRecord s areaTrip (tripBody s sensor reading)
    let s := selfFence (serviceStanding (putF s DEV_STATUS DEV_STATUS_WEDGED 1))
    noteIdle (coresLost (modTherm s fun t => { t with trip := true }))

def execThermalTrip (sensor : BitVec 8) (reading : BitVec 16) (s : State) : Host.Outcome State Fault Refusal :=
  .next (thermalTrip s sensor.toNat reading.toNat)

/-! ## The junction (R392) -/

/-- 95 °C paces at k = 8 at once, until the junction is below 93 °C. -/
def hotPacing (s : State) : State :=
  if celsius 95 ≤ junction s then
    let s := modPower s fun p => { p with hotPace := true }
    if 8 < paceK s then setPace s 8 else s
  else if junction s < celsius 93 then modPower s fun p => { p with hotPace := false }
  else s

def thermalSample (s : State) (tj sensor : Nat) : State :=
  let s := putF (putF s THM_TJ THM_TJ_TJ tj) THM_TJ THM_TJ_SENSOR sensor
  let s := if quenched s then s else hotPacing s
  let s := if celsius (quenchT s) ≤ junction s then declareQuench s causeJunction else s
  if celsius 110 ≤ junction s then thermalTrip s sensor tj else s

def execThermalSample (tj : BitVec 16) (sensor : BitVec 8) (s : State) : Host.Outcome State Fault Refusal :=
  .next (thermalSample s tj.toNat sensor.toNat)

/-- The first and the fourth row of R392. -/
def junctionHot (s : State) : Bool := celsius (tjLim s) < junction s || celsius 95 ≤ junction s

/-- Every millisecond P_therm falls by 2% of CAP, or rises by 1% up to CAP. -/
def allowanceStep (s : State) : State :=
  let cap : Rat := capW s
  let step := fun x => modPower s fun p => { p with pTherm := x, allowAt := some s.now }
  if !dueAfter s 1000000 s.power.allowAt then s
  else if junctionHot s then step (max 0 (s.power.pTherm - cap / 50))
  else if junction s < celsius (tjLim s) - celsius 3 then step (min cap (s.power.pTherm + cap / 100))
  else s

def execThermalAllowanceStep (s : State) : Host.Outcome State Fault Refusal := .next (allowanceStep s)

/-! ## Coolant (R393 to R396) -/

/-- Sensing is lost once, with its record; cause 1 for failed reads, 2 for the sensor-fault bit. -/
def senseLost (s : State) (cause : Nat) : State :=
  let s := putF (modTherm s fun t => { t with lowSince := none, okSince := none }) THM_COOL THM_COOL_SENSE_OK 0
  if s.therm.lost then s
  else makeRecord (modTherm s fun t => { t with lost := true }) srcBellows 0x401 [w64 (1 + cause * 2 ^ 8)]

def senseBack (s : State) : State :=
  let s := putF s THM_COOL THM_COOL_SENSE_OK 1
  if s.therm.lost then makeRecord (modTherm s fun t => { t with lost := false }) srcBellows 0x401 [0] else s

/-- Times from which the flow has been below 10%, and at or above FLOW_RESUME. -/
def noteFlow (s : State) (flow : Nat) : State :=
  let resume := 10 * clampF s THM_CTL THM_CTL_FLOW_RESUME 15 100
  modTherm s fun t => { t with
    flow := flow
    lowSince := if flow < 100 then some (t.lowSince.getD s.now) else none
    okSince := if resume ≤ flow then some (t.okSince.getD s.now) else none }

/-- P_fc of R396: the highest level of a forecast that is open or opens within 2 s. -/
def forecastPower (s : State) : Rat :=
  if !flag s PWR_CTL PWR_CTL_FC_EN then 0
  else (((s.power.forecasts.filter (forecastNear s 2000000000)).map (·.level)).foldl max 0 : Nat) * 27 / 2

/-- Requested flow, in 1/10 %. -/
def flowRequest (s : State) : Nat :=
  max 200 (min 1000 ((1000 * max (pSlow s : Rat) (forecastPower s) / 1350).floor.toNat))

/-- Command 0x42 is sent for a change of 5% or more, at most once every 10 ms. -/
def requestFlow (s : State) : State :=
  let q := flowRequest s
  let last := getF s THM_SMB THM_SMB_FLOWREQ
  if max q last - min q last < 50 || s.now - s.power.lastFlow < 10000000 then s
  else emit (modPower (putF s THM_SMB THM_SMB_FLOWREQ q) fun p => { p with lastFlow := s.now }) 
    (.flowReq (getF s THM_SMB THM_SMB_TRAY_ADDR) q)

/-- A read of inlet, flow and faults; three that fail in succession lose the sensing. -/
def coolantRead (s : State) (ok : Bool) (inlet flow faults : Nat) : State :=
  if !ok then
    let s := modTherm s fun t => { t with smbFails := t.smbFails + 1 }
    if 3 ≤ s.therm.smbFails then senseLost s 1 else s
  else
    let s := modTherm s fun t => { t with smbFails := 0 }
    let s := putF (putF s THM_COOL THM_COOL_INLET inlet) THM_COOL THM_COOL_FLOW (min 1000 flow)
    if faults % 2 = 1 then senseLost (modTherm s fun t => { t with flow := min 1000 flow }) 2
    else noteFlow (senseBack s) (min 1000 flow)

/-- SMBus is used from step 4 (Table 17-5). -/
def coolantPoll (s : State) (ok : Bool) (inlet flow faults : Nat) : State :=
  if s.boot.step < 4 then s else settleLimit (requestFlow (coolantRead s ok inlet flow faults))

def execCoolantPoll (readOk : Bool) (inlet : BitVec 16) (flow : Nat) (faults : BitVec 8) (s : State) :
    Host.Outcome State Fault Refusal :=
  .next (coolantPoll s readOk inlet.toNat flow faults.toNat)

def lowFlow (s : State) : Bool := !s.therm.lost && match s.therm.lowSince with
  | some t => decide (50000000 ≤ s.now - t)
  | none => false

def lowFlowQuench (s : State) : State := if lowFlow s then declareQuench s causeFlow else s

def execLowFlowQuench (s : State) : Host.Outcome State Fault Refusal := .next (lowFlowQuench s)

/-! ## Thermal cycles and life (R404, R405) -/

/-- Table 14-3. -/
def ratedCycles : List Nat := [2000000, 600000, 250000, 120000, 65000, 40000]

def halfCycles (s : State) (b : Nat) : Nat := (getR s (THM_CYC b)).toNat

/-- 65,536 times the life used, before it saturates. -/
def lifeUsed (s : State) : Nat :=
  ((ratedCycles.zipIdx.map fun p => (65536 * halfCycles s p.2 : Rat) / (2 * p.1 : Nat)).sum).floor.toNat

/-- USED, and one record when the rated life is spent. -/
def settleLife (s : State) : State :=
  let s := putF s THM_LIFE THM_LIFE_USED (min 0xFFFF (lifeUsed s))
  if 65536 ≤ lifeUsed s && !s.therm.lifeDone then
    makeRecord (modTherm s fun t => { t with lifeDone := true }) srcBellows 0x402 []
  else s

/-- The bin of a swing of `a` whole °C. -/
def swingBin (a : Nat) : Option Nat := if a < 20 then none else some (min 5 (a / 10 - 2))

def countSwing (s : State) (a : Int) : State := match swingBin (a / 16).toNat with
  | some b => settleLife (satF s (THM_CYC b) THM_CYC_HALF 1)
  | none => s

def setCycle (s : State) (up : Bool) (ext cand : Int) : State :=
  modTherm s fun t => { t with
    up := up, ext := ext, cand := cand, valid := true
    wearDirty := t.wearDirty || t.up != up || t.ext != ext || t.cand != cand || !t.valid }

/-- The procedure of R404, for one sample. -/
def cycleSample (s : State) (tj : Int) : State :=
  let t := s.therm
  if !t.valid then setCycle s true tj tj
  else if t.up then
    if tj < t.ext then setCycle s true tj tj
    else if t.cand < tj then setCycle s true t.ext tj
    else if celsius 20 ≤ t.cand - tj then countSwing (setCycle s false t.cand tj) (t.cand - t.ext)
    else s
  else
    if t.ext < tj then setCycle s false tj tj
    else if tj < t.cand then setCycle s false t.ext tj
    else if celsius 20 ≤ tj - t.cand then countSwing (setCycle s true t.cand tj) (t.ext - t.cand)
    else s

/-- 360,000 samples above 85 °C make an hour. -/
def countHot (s : State) (tj : Int) : State :=
  if tj ≤ celsius 85 then s
  else
    let s := modTherm s fun t => { t with hot := t.hot + 1 }
    if s.therm.hot < 360000 then s
    else satF (modTherm s fun t => { t with hot := 0, wearDirty := true }) THM_LIFE THM_LIFE_HOT_H 1

def execThermalCycleSample (tj : BitVec 16) (s : State) : Host.Outcome State Fault Refusal :=
  .next (if dueAfter s 10000000 s.therm.cycleAt then
    cycleSample (countHot (modTherm s fun t => { t with cycleAt := some s.now }) tj.toInt) tj.toInt else s)

/-- Body of the wear record (Table 15-11). -/
def wearBody (s : State) : List Byte :=
  let t := s.therm
  padTo 40 ((List.range 6).flatMap (fun b => leBytes 4 (halfCycles s b))
    ++ leBytes 4 (getF s THM_LIFE THM_LIFE_HOT_H) ++ leBytes 2 (bit (!t.up) + 2 * bit t.valid)
    ++ leBytes 2 (t.ext % 65536).toNat ++ leBytes 2 (t.cand % 65536).toNat)

/-- At most once an hour, when a count or the state has changed, and not while a slot is written (R422). -/
def wearRecordWrite (s : State) : State :=
  let due : Bool := match s.therm.wearAt with
    | some t => decide (hourNs ≤ s.now - t)
    | none => true
  if s.therm.wearDirty && due && s.boot.slotBusy.isNone then
    modTherm (writeRecord s areaWear (wearBody s)) fun t => { t with wearDirty := false, wearAt := some s.now }
  else s

def execWearRecordWrite (s : State) : Host.Outcome State Fault Refusal := .next (wearRecordWrite s)

/-- What the smith takes from the wear record at start. -/
def loadWear (s : State) : State := match readRecord s areaWear with
  | none => s
  | some bs =>
    let s := (List.range 6).foldl (fun t b => setR t (THM_CYC b) (BitVec.ofNat 32 (fieldLE bs (4 * b) 4))) s
    let s := putF s THM_LIFE THM_LIFE_HOT_H (min 0xFFFF (fieldLE bs 0x18 4))
    let d := fieldLE bs 0x1C 2
    let s := if d / 2 % 2 = 0 then s else modTherm s fun t => { t with
      up := d % 2 = 0, valid := true, ext := sext 16 (fieldLE bs 0x1E 2), cand := sext 16 (fieldLE bs 0x20 2) }
    let s := putF s THM_LIFE THM_LIFE_USED (min 0xFFFF (lifeUsed s))
    modTherm s fun t => { t with lifeDone := 65536 ≤ lifeUsed s }

end Sys2Proof.Machine
end

