-- ==== Sys2Proof/Machine/Rotation.lean ====
section
/-! DEFINITION. The rotating self-test (R406) and the queued tests (R408); the end of a snapshot's capture. -/

namespace Sys2Proof.Machine

/-! ## Rotation (R406) -/

/-- PERIOD / 8 minutes, in ns. -/
def rotationGap (s : State) : Nat := getF s PWR_TEST PWR_TEST_PERIOD * 7500000000

def rotAt (s : State) (half : Nat) : Nat × Nat := s.power.rot.getD half (0, 0)

/-- The next domain of the half, in ascending order, is tested. -/
def rotateTest (s : State) (half : Nat) : State :=
  let r := rotAt s half
  if getF s PWR_TEST PWR_TEST_PERIOD = 0 || s.now - r.2 < rotationGap s || s.boot.step != 8 then s
  else
    domCommand (modPower s fun p => { p with rot := p.rot.set half ((r.1 + 1) % 8, s.now) }) (8 * half + r.1) .test

def execSelfTestRotation (half : Fin 2) (s : State) : Host.Outcome State Fault Refusal :=
  .next (rotateTest s half.val)

/-- All sixteen domains; the one test at a time of a half orders them (R27). -/
def runAll (s : State) : State := (List.range 16).foldl (fun t u => domCommand t u .test) s

def runBy (s : State) (agent : Nat) : State := if mayWrite s agent PWR_TEST then runAll s else s

def execRun (agent : BitVec 8) (s : State) : Host.Outcome State Fault Refusal := .next (runBy s agent.toNat)

/-! ## Queued tests (R408) -/

/-- The port is taken down; it ends its test when it comes up again. -/
def startPortTest (s : State) (p : PortId) : State :=
  let s := takePortDown s p 0
  setPort s p.val { (portAt s p.val) with testing := true }

/-- At once without a job, unless a test runs; else queued to the next step boundary. -/
def portTest (s : State) (p : PortId) : State :=
  let s := putF s PWR_TEST PWR_TEST_PORT p.val
  if s.job.isNone && !testOn s && s.queuedTests.isEmpty then startPortTest s p
  else { s with queuedTests := s.queuedTests ++ [some p] }

def portTestBy (s : State) (agent : Nat) (p : PortId) : State :=
  if mayWrite s agent PWR_TEST then portTest s p else s

def execPortTest (agent : BitVec 8) (port : PortId) (s : State) : Host.Outcome State Fault Refusal :=
  .next (portTestBy s agent.toNat port)

/-- One test runs at a time, from the front of the queue. -/
def queuedTestRun (s : State) : State :=
  if testOn s || quenched s || !atBoundary s then s
  else match s.queuedTests with
    | [] => s
    | none :: _ => startRerun s
    | some p :: rest => startPortTest { s with queuedTests := rest } p

def execQueuedTestRun (s : State) : Host.Outcome State Fault Refusal := .next (queuedTestRun s)

/-! ## Capture (R323) -/

/-- The capture ends, and what it held goes on. -/
def captureDone (s : State) (idx : Nat) : State := pumpIntake (pumpFabrics (captureComplete s idx))

def execCaptureComplete (group : BitVec 10) (s : State) : Host.Outcome State Fault Refusal :=
  .next (captureDone s group.toNat)

end Sys2Proof.Machine
end

