-- ==== Sys2Proof/Machine/Trust.lean ====
section
/-! DEFINITION. Trust (R416 to R430): the boot and start records, the verification of Welson images, staging,
the commit of the configuration, the protection record and its change, and the site record. -/

namespace Sys2Proof.Machine

def modBoot (s : State) (f : Boot → Boot) : State := { s with boot := f s.boot }

/-- The bytes from `off`, `n` of them. -/
def slice (bs : List Byte) (off n : Nat) : List Byte := (bs.drop off).take n

/-- A field of the 8-byte word at an offset. -/
def bodyField (bs : List Byte) (off hi lo : Nat) : Nat := bitsOf hi lo (fieldLE bs off 8)

def allZero (bs : List Byte) (off stop : Nat) : Bool := (slice bs off (stop - off)).all (· = 0)

def serialBytes : List Byte := leBytes 8 Config.serial.toNat

/-! ## Small flash records (Table 15-11) -/

/-- PREF and TRIES of the boot record. -/
def bootRecord (s : State) : Bool × Nat := match readRecord s areaBoot with
  | some bs => (decide (fieldLE bs 0 1 % 2 = 1), min 3 (fieldLE bs 1 1))
  | none => (false, 0)

/-- The boot record is written and CFG_BOOT reports it. -/
def setBootRecord (s : State) (pref : Bool) (tries : Nat) : State :=
  let s := writeRecord s areaBoot (padTo 8 (leBytes 1 (bit pref) ++ leBytes 1 tries))
  putF (putF s CFG_BOOT CFG_BOOT_PREF (bit pref)) CFG_BOOT CFG_BOOT_TRIES tries

/-- The start record: the counter, FRAMES and the anchor. -/
def saveStart (s : State) : State :=
  writeRecord s areaStart (padTo 40 (leBytes 4 s.boot.startCount ++ leBytes 2 (getF s TRU_RESETS TRU_RESETS_FRAMES)
    ++ leBytes 2 0 ++ s.boot.anchor))

/-! ## Images (R418, Table 15-3) -/

def headerLen : Nat := 0x3000
def imgFwLen (h : List Byte) : Nat := bodyField h 0x10 63 32
def imgCfgLen (h : List Byte) : Nat := bodyField h 0xC0 63 32
def imgSvn (h : List Byte) : Nat := bodyField h 0x08 63 32
def imgRaise (h : List Byte) : Bool := bodyField h 0x08 31 31 = 1

/-- The reserved bits of the header. -/
def imgReserved (h : List Byte) : Bool :=
  bodyField h 0 31 0 = 0 && bodyField h 8 30 0 = 0 && bodyField h 0x10 31 0 = 0 && allZero h 0x20 0x40
    && bodyField h 0xC0 31 2 = 0 && allZero h 0xC8 0x100 && allZero h 0x1D33 0x1D80 && allZero h 0x2F93 headerLen

def imgShapeBad (h : List Byte) : Bool :=
  bodyField h 0 63 48 != 0x0F01 || bodyField h 0 47 32 != 1 || !imgReserved h
    || slotLen < headerLen + imgFwLen h + imgCfgLen h

def fwPub (h : List Byte) : List Byte := slice h 0x100 2592
def fwSig (h : List Byte) : List Byte := slice h 0xB20 4627
def cfgSig (h : List Byte) : List Byte := slice h 0x1D80 4627

/-! ### Configuration entries (R420) -/

def fieldBits (f : RegField) : Nat := 2 ^ (f.hi + 1) - 2 ^ f.lo

/-- Bits of a register that lie in RW or RWL fields. -/
def writableBits (d : RegDesc) : Nat :=
  ((d.fields.filter fun f => f.acc = .rw || f.acc = .rwl).map fieldBits).sum

structure CfgEntry where
  addr : Nat
  mask : Nat
  value : Nat
  deriving DecidableEq, Repr

def cfgEntry (bs : List Byte) : CfgEntry := ⟨fieldLE bs 0 4, fieldLE bs 4 4, fieldLE bs 8 4⟩

def cfgEntryBad (bs : List Byte) : Bool :=
  let e := cfgEntry bs
  bs.length != 16 || fieldLE bs 12 4 != 0 || blockIndex e.addr = 2 || match regAt e.addr with
    | some d => e.mask &&& writableBits d != e.mask
    | none => true

/-- The 16-byte pieces of a configuration. -/
def cfgPieces (bs : List Byte) : List (List Byte) :=
  (List.range ((bs.length + 15) / 16)).map fun k => slice bs (16 * k) 16

/-- The image as its medium holds it: bytes by offset and count. -/
abbrev Medium := Nat → Nat → List Byte

def flashSlot (s : State) (b : Bool) : Medium := fun off n => flashBytes s (slotBase b + off) n
def dramImage (s : State) (a : Nat) : Medium := fun off n => readBytes s (a + off) n

def imgConfig (rd : Medium) (h : List Byte) : List Byte := rd (headerLen + imgFwLen h) (imgCfgLen h)

/-- The checks of `verify` with their failure codes, in order. -/
def imgChecks (s : State) (rd : Medium) : List (Nat × Bool) :=
  let h := rd 0 headerLen
  let key := s.boot.auths[bodyField h 0xC0 1 0]?
  [(1, imgShapeBad h),
   (2, !Config.romKeyDigests.contains (sha3 (fwPub h))),
   (3, !Config.mldsaVerify (fwPub h) (slice h 0 0x80) (fwSig h)),
   (4, imgSvn h < s.boot.fuses.minSvn),
   (5, sha3 (rd headerLen (imgFwLen h)) != slice h 0x40 64),
   (6, key.isNone),
   (7, !Config.mldsaVerify (key.getD []) (slice h 0 0x100) (cfgSig h)),
   (8, sha3 (imgConfig rd h) != slice h 0x80 64),
   (9, (cfgPieces (imgConfig rd h)).any cfgEntryBad)]

/-- The failure code of an image, 0 when it passes. -/
def verifyImage (s : State) (rd : Medium) : Nat := (((imgChecks s rd).find? (·.2)).map (·.1)).getD 0

/-! ## Staging (R422) -/

/-- A refused request, by the address of its register (record 0x481). -/
def requestRefused (s : State) (a : Nat) : State := makeRecord s srcSmith 0x481 [w64 a]

def activeSlot (s : State) : Bool := flag s CFG_BOOT CFG_BOOT_ACTIVE

def setStage (s : State) (busy : Nat) (result : Nat) : State :=
  putF (putF s CFG_STAGE_CTL CFG_STAGE_CTL_BUSY busy) CFG_STAGE_CTL CFG_STAGE_CTL_RESULT result

/-- The DRAM copy is verified, and the write of the inactive slot begins with its erasure: a slot that a reset interrupts fails
verification. -/
def stageWrite (s : State) (setPref : Bool) : State :=
  if s.boot.slotBusy.isSome then
    requestRefused (putF s CFG_STAGE_CTL CFG_STAGE_CTL_RESULT 12) CFG_STAGE_CTL
  else
    let a := getPair s CFG_STAGE_LO CFG_STAGE_HI
    let k := verifyImage s (dramImage s a)
    if k = 0 then
      let t := flashErase s (slotBase (!activeSlot s)) slotLen
      setStage (modBoot t fun b => { b with slotBusy := some (a, setPref) }) 1 0
    else putF s CFG_STAGE_CTL CFG_STAGE_CTL_RESULT k

def stageBy (s : State) (agent : Nat) (setPref : Bool) : State :=
  if mayWrite s agent CFG_STAGE_CTL then stageWrite s setPref else s

def execCfgStageWrite (agent : BitVec 8) (setPref : Bool) (s : State) : Host.Outcome State Fault Refusal :=
  .next (stageBy s agent.toNat setPref)

def imgLen (rd : Medium) : Nat := headerLen + imgFwLen (rd 0 headerLen) + imgCfgLen (rd 0 headerLen)

/-- The slot is erased, programmed, read back and verified again. -/
def programSlot (s : State) (a : Nat) : State :=
  let b := !activeSlot s
  flashWrite (flashErase s (slotBase b) slotLen) (slotBase b) (dramImage s a 0 (imgLen (dramImage s a)))

/-- Records that waited for the slot write are written (R422). -/
def flushRetire (s : State) : State := if s.boot.retireDirty then saveRetirement s else s

def slotWriteComplete (s : State) (flashOk : Bool) : State :=
  match s.boot.slotBusy with
  | none => s
  | some (a, pref) =>
    let s := modBoot s fun b => { b with slotBusy := none }
    let t := programSlot s a
    let k := verifyImage t (flashSlot t (!activeSlot t))
    if !flashOk then flushRetire (setStage (flashErase s (slotBase (!activeSlot s)) slotLen) 0 11)
    else if k != 0 then flushRetire (setStage t 0 k)
    else
      let t := if pref then setBootRecord t (!activeSlot t) (bootRecord t).2 else t
      flushRetire (setStage t 0 0)

def execSlotWriteComplete (flashOk : Bool) (s : State) : Host.Outcome State Fault Refusal :=
  .next (slotWriteComplete s flashOk)

/-! ## Commit of the configuration (R420) -/

def commitConfig (s : State) (agent : Nat) : State :=
  if s.boot.running && agent = agentSmith then putF s CFG_COMMIT CFG_COMMIT_COMMITTED 1 else s

def execCfgCommit (agent : BitVec 8) (s : State) : Host.Outcome State Fault Refusal :=
  .next (commitConfig s agent.toNat)

/-! ## The protection record (R427, Table 15-7) -/

def protCounter (bs : List Byte) : Nat := bodyField bs 0 43 32
def protAuthCount (bs : List Byte) : Nat := bodyField bs 0 31 29
def protKeys (bs : List Byte) : List (List Byte) :=
  (List.range (protAuthCount bs)).map fun a => slice bs (0x280 + 2592 * a) 2592
def protDebug (bs : List Byte) : Nat := bodyField bs 0 28 27
def protClears (bs : List Byte) : Bool := bodyField bs 0 26 26 = 1
def protAttMbox (bs : List Byte) : Nat := bodyField bs 0 25 21
def protMgmtMbox (bs : List Byte) : Nat := bodyField bs 0 20 16
def protAnchor (bs : List Byte) : List Byte := slice bs 0x10 32

/-- Reserved bits of window `w`. -/
def windowReserved (bs : List Byte) (w : Nat) : Bool :=
  let o := 0x80 + 32 * w
  bodyField bs o 63 48 = 0 && bodyField bs (o + 8) 63 48 = 0 && bodyField bs (o + 16) 31 28 = 0
    && bodyField bs (o + 16) 63 36 = 0 && bodyField bs (o + 24) 63 0 = 0

def protReserved (bs : List Byte) : Bool :=
  bodyField bs 0 47 44 = 0 && bodyField bs 0 15 0 = 0 && allZero bs 0x8 0x10 && allZero bs 0x30 0x40
    && bodyField bs 0x48 63 32 = 0 && allZero bs 0x50 0x80 && (List.range 16).all (windowReserved bs)
    && allZero bs (0x280 + 2592 * protAuthCount bs) 0x2B00

def protMalformed (bs : List Byte) : Bool :=
  bodyField bs 0 63 48 != 0x0F10 || protCounter bs = 0 || protAuthCount bs < 2 || 4 < protAuthCount bs
    || protDebug bs = 3 || protAttMbox bs = 0 || protMgmtMbox bs = 0 || !protReserved bs

/-- Authority index and bytes of signature `k`. -/
def protSigAt (k : Nat) : Nat := if k = 0 then 0x2B00 else 0x3D20
def protSigner (bs : List Byte) (k : Nat) : Nat := fieldLE bs (protSigAt k) 8
def protSig (bs : List Byte) (k : Nat) : List Byte := slice bs (protSigAt k + 8) 4627

/-- D of R428. -/
def protDigest (bs : List Byte) : List Byte := sha3 (slice bs 0 0x2B00 ++ serialBytes)

def signersOk (keys : List (List Byte)) (bs : List Byte) : Bool :=
  protSigner bs 0 != protSigner bs 1 && (List.range 2).all fun k => protSigner bs k < keys.length

def sigsOk (keys : List (List Byte)) (bs : List Byte) : Bool :=
  (List.range 2).all fun k => Config.mldsaVerify (keys.getD (protSigner bs k) []) (protDigest bs) (protSig bs k)

/-- What a fused digest slot holds. -/
def keysDigest (bs : List Byte) : List Byte := sha3 (protKeys bs).flatten

def burnedDigest (s : State) : Option (List Byte) := s.boot.fuses.authSets.getLast?

/-- The authority set of the record is not the one last burned. -/
def setChanged (s : State) (bs : List Byte) : Bool := burnedDigest s != some (keysDigest bs)

/-- The fuse writes of a change. -/
def burnFuses (s : State) (bs : List Byte) : State :=
  let set := s.boot.fuses.authSets ++ (if setChanged s bs then [keysDigest bs] else [])
  modBoot s fun b => { b with fuses := { b.fuses with pcount := protCounter bs, authSets := set } }

/-! ### A change (R428) -/

def changeLen : Nat := 20283
def changeBytes (s : State) : List Byte := readBytes s (getPair s TRU_CHG_LO TRU_CHG_HI) changeLen

/-- RESULT of a change, in its order. -/
def changeResult (s : State) (bs : List Byte) : Nat :=
  if protMalformed bs then 1
  else if protCounter bs != s.boot.fuses.pcount + 1 then 2
  else if !signersOk s.boot.auths bs then 3
  else if !sigsOk s.boot.auths bs then 4
  else if setChanged s bs && 16 ≤ s.boot.fuses.authSets.length then 5
  else 0

/-- CLEAR_RETIRE clears the record of the flash; its cores return at the next full reset. -/
def clearRetire (s : State) (bs : List Byte) : State :=
  if protClears bs then saveRetirement (modBoot s fun b => { b with retireCauses := [] }) else s

/-- Windows and permissions take effect at once, and the anchor is replaced (R433). -/
def applyChange (s : State) (bs : List Byte) : State :=
  let s := burnFuses (writeRecord s areaProt bs) bs
  clearRetire (saveStart (modBoot s fun b => { b with prot := bs, anchor := protAnchor bs })) bs

def applyRecord (s : State) : State :=
  let bs := changeBytes s
  let k := changeResult s bs
  let s := putF s TRU_CHG_CTL TRU_CHG_CTL_RESULT k
  if k = 0 then applyChange s bs else requestRefused s TRU_CHG_CTL

def applyBy (s : State) (agent : Nat) : State := if mayWrite s agent TRU_CHG_CTL then applyRecord s else s

def execApply (agent : BitVec 8) (s : State) : Host.Outcome State Fault Refusal := .next (applyBy s agent.toNat)

/-! ### The check at step 3 (R430) -/

/-- The body in the other copy of the area. -/
def otherProt (s : State) : Option (List Byte) := match bestCopy s areaProt with
  | some c => (readCopy s areaProt (1 - c.1)).map (·.2)
  | none => none

/-- Both signatures of a record verify against a set of keys. -/
def signedBy (keys : List (List Byte)) (bs : List Byte) : Bool := signersOk keys bs && sigsOk keys bs

def signedByOther (s : State) (bs : List Byte) : Bool := match otherProt s with
  | some o => signedBy (protKeys o) bs
  | none => false

/-- An unowned device takes COUNTER 1 under the record's own keys. -/
def unownedOk (s : State) (bs : List Byte) : Bool :=
  s.boot.fuses.pcount = 0 && protCounter bs = 1 && signedBy (protKeys bs) bs

/-- The record in force: its keys are the burned set, and those that signed it are its own or the earlier
record's (log entry 75). -/
def inForceOk (s : State) (bs : List Byte) : Bool :=
  0 < s.boot.fuses.pcount && protCounter bs = s.boot.fuses.pcount && !setChanged s bs
    && (signedBy (protKeys bs) bs || signedByOther s bs)

/-- A change whose fuse writes a reset interrupted. -/
def interruptedOk (s : State) (bs : List Byte) : Bool :=
  0 < s.boot.fuses.pcount && protCounter bs = s.boot.fuses.pcount + 1 && match otherProt s with
    | some o => protCounter o = s.boot.fuses.pcount && !setChanged s o && signedBy (protKeys o) bs
    | none => false

/-- The authorities and the debug level of a record in force. -/
def adoptProt (s : State) (bs : List Byte) : State :=
  modBoot s fun b => { b with prot := bs, auths := protKeys bs, debug := protDebug bs }

/-- The rest of a change that a reset interrupted: its fuse writes, its anchor and CLEAR_RETIRE (R428, R434). -/
def completeChange (s : State) (bs : List Byte) : State :=
  clearRetire (modBoot (burnFuses s bs) fun b => { b with anchor := protAnchor bs }) bs

/-- The record that step 3 accepts. -/
def acceptProt (s : State) : Option State := match readRecord s areaProt with
  | none => none
  | some bs =>
    if protMalformed bs then none
    else if inForceOk s bs then some (adoptProt s bs)
    else if interruptedOk s bs then some (adoptProt (completeChange s bs) bs)
    else if unownedOk s bs then some (adoptProt (burnFuses s bs) bs)
    else none

/-! ## The site record (R426, Table 15-5) -/

def siteShapeOk (bs : List Byte) : Bool :=
  bodyField bs 0 63 48 = 0x0F30 && bodyField bs 0 47 2 = 0 && fieldLE bs 8 8 = Config.serial.toNat
    && bodyField bs 0x10 47 0 = 0 && allZero bs 0x68 0x100

/-- The readable site record; its signature is by an enrolled authority. -/
def siteRecord (s : State) : Option (List Byte) := match readRecord s areaSite with
  | none => none
  | some bs => match s.boot.auths[bodyField bs 0 1 0]? with
    | none => none
    | some key => if siteShapeOk bs && Config.mldsaVerify key (slice bs 0 0x100) (slice bs 0x100 4627) then some bs else none

def siteNode (bs : List Byte) : Nat := bodyField bs 0x10 63 48
def siteJoinArea (bs : List Byte) : Nat := fieldLE bs 0x18 8
def siteJoinConn (bs : List Byte) : List Word64 := wordsOf 8 (slice bs 0x20 64)
def siteJoinRemote (bs : List Byte) : Nat := fieldLE bs 0x60 8

end Sys2Proof.Machine
end

