-- ==== Sys2Proof/Machine/RegWrite.lean ====
section
/-! DEFINITION. A management write (R13, R14): the access codes field by field, the values that a field's
description refuses, the locked-write record, and the actions that a write of a field triggers. -/

namespace Sys2Proof.Machine

/-! ## Values that a field does not take -/

/-- Fields whose write of 0 is ignored, by address and low bit (R304 and the descriptions). -/
def zeroIgnored : List (Nat × Nat) :=
  [(FAB_TMR, 24), (FAB_TMR, 16), (FAB_TMR, 12), (FAB_TMR, 0), (FAB_WIN, 21), (FAB_WIN, 12), (FAB_WIN, 4),
   (FAB_ROCE_CC, 24), (FAB_ROCE_CC, 20), (FAB_ROCE_CC, 12), (FAB_ROCE_CC, 4), (MBX_TIMEOUT, 0), (WRK_CTL, 16),
   (SURV_TIMERS, 24), (SURV_RETIRE, 28), (SURV_RETIRE, 20), (CFG_JOIN, 8), (EVR_CTL, 15)]

def isSpoolReg (a : Nat) : Bool :=
  0x90000 ≤ a && a < 0x91000 && (a = HCH_SPOOL_LO ((a - 0x90000) / 0x100) || a = HCH_SPOOL_HI ((a - 0x90000) / 0x100)
    || a = HCH_SPOOL_N ((a - 0x90000) / 0x100))

def isMbxCfg (a : Nat) : Bool := 0x30000 ≤ a && a < 0x30400 && a = MBX_CFG ((a - 0x30000) / 0x20)
def isTileCtl (a : Nat) : Bool := 0x100000 ≤ a && a < 0x180000 && a = CORE_TILECTL ((a - 0x100000) / 0x1000)
def isPortCtl (a : Nat) : Bool := 0x60000 ≤ a && a < 0x68000 && a = PRT_CTL ((a - 0x60000) / 0x1000)

/-- HB_PERIOD as a write of the register leaves it. -/
def newPeriod (s : State) (v : Nat) : Nat :=
  if bitsOf 31 24 v = 0 then getF s SURV_TIMERS SURV_TIMERS_HB_PERIOD else bitsOf 31 24 v

/-- The field keeps its value; SPLIT and ENABLE are set by the action that the write triggers. -/
def fieldKept (s : State) (a v : Nat) (f : RegField) : Bool :=
  let x := bitsOf f.hi f.lo v
  (x = 0 && zeroIgnored.contains (a, f.lo))
    || (a = SURV_TIMERS && f.lo = 12 && x < 2 * newPeriod s v)
    || (a = SURV_TIMERS && f.lo = 0 && x < newPeriod s v + 100)
    || (a = FAB_MAC && f.lo = 0 && x.testBit 16)
    || (isMbxCfg a && f.lo = 0 && x = 3)
    || (isSpoolReg a && (hearthAt s ((a - 0x90000) / 0x100)).slots != [])
    || (isTileCtl a && f.lo = 1) || (isPortCtl a && f.lo = 0)

/-! ## The access codes (Table 0-4) -/

def committed (s : State) : Bool := flag s CFG_COMMIT CFG_COMMIT_COMMITTED

/-- One field under a write of `v`; before commit only the smith writes RWL fields (R420). -/
def writeField (s : State) (agent a v : Nat) (w : Nat) (f : RegField) : Nat :=
  let x := bitsOf f.hi f.lo v
  let old := bitsOf f.hi f.lo w
  match f.acc with
  | .rw => if fieldKept s a v f then w else putBits f.hi f.lo w x
  | .rwl => if committed s || agent != agentSmith || fieldKept s a v f then w else putBits f.hi f.lo w x
  | .rw1c => putBits f.hi f.lo w (old &&& (x ^^^ (2 ^ (f.hi + 1 - f.lo) - 1)))
  | _ => w

def storeWrite (s : State) (agent a v : Nat) (d : RegDesc) : State :=
  setR s a (BitVec.ofNat 32 (d.fields.foldl (writeField s agent a v) (getR s a).toNat))

/-- An RWL field for which the write carries another value. -/
def lockedDiffers (s : State) (a v : Nat) (d : RegDesc) : Bool :=
  d.fields.any fun f => f.acc = .rwl && bitsOf f.hi f.lo v != bitsOf f.hi f.lo (getR s a).toNat

def lockedWrite (s : State) (a v : Nat) (d : RegDesc) : State :=
  if committed s && lockedDiffers s a v d then makeRecord s srcSmith 0x084 [w64 (a + v % 2 ^ 32 * 2 ^ 32)] else s

/-! ## Actions of a write -/

def wbit (f : Fld) (v : Nat) : Bool := v.testBit f.lo

/-- ACT and DEACT of a table; DEACT with ACT is ignored. -/
def actDeact (act deact : Bool) (on off : State → State) (s : State) : State :=
  if act then on s else if deact then off s else s

def tileAction (s : State) (a v : Nat) : State :=
  let i := (a - 0x100000) / 0x1000
  if v.testBit 1 = isSplit s i then s else splitWrite s i (v.testBit 1)

/-- A priority that PFC_EN no longer enables is paused no longer, by either side. -/
def settlePfc (s : State) (p : Nat) : State :=
  let b := (portAt s p).paused &&& BitVec.ofNat 8 (getF s (PRT_CTL p) PRT_CTL_PFC_EN)
  let e := (portAt s p).pausing &&& BitVec.ofNat 8 (getF s (PRT_CTL p) PRT_CTL_PFC_EN)
  flushHeld (putF (setPort s p { (portAt s p) with paused := b, pausing := e }) (PRT_STATUS p) PRT_STATUS_PAUSED
    (if b = 0 then 0 else 1)) p

def portAction (s : State) (p : PortId) (v : Nat) : State :=
  let s := settlePfc s p.val
  if v.testBit 0 then portEnable s p.val
  else if flag s (PRT_CTL p.val) PRT_CTL_ENABLE then portDisable s p
  else s

def mboxAction (s : State) (agent m v : Nat) : State :=
  let s := if wbit (⟨1, 1⟩ : Fld) v then takeMessage s agent m else s
  if wbit (⟨0, 0⟩ : Fld) v then postMessage s agent m else s

def survAction (s : State) (v : Nat) : State :=
  let s := if wbit SURV_CTL_ARM v then armPlan s else s
  if wbit SURV_CTL_LEAVE v then leave s else s

def testAction (s : State) (v : Nat) : State :=
  let s := if wbit PWR_TEST_RUN v then runAll s else s
  if wbit PWR_TEST_PORT_TEST v then portTest s (Fin.ofNat 8 (getF s PWR_TEST PWR_TEST_PORT)) else s

def isMboxCtl (a : Nat) : Bool := 0x30000 ≤ a && a < 0x30400 && a = MBX_CTL ((a - 0x30000) / 0x20)

/-- What the write of a register starts, after its fields are set. -/
def writeAction (s : State) (agent a v : Nat) : State :=
  if a = FAB_CONN_CTL then
    actDeact (wbit FAB_CONN_CTL_ACT v) (wbit FAB_CONN_CTL_DEACT v)
      (activateConn · (getF s FAB_CONN_CTL FAB_CONN_CTL_INDEX)) (endConn · (getF s FAB_CONN_CTL FAB_CONN_CTL_INDEX)) s
  else if a = COL_GRP_CTL then
    actDeact (wbit COL_GRP_CTL_ACT v) (wbit COL_GRP_CTL_DEACT v)
      (groupAct · (getF s COL_GRP_CTL COL_GRP_CTL_INDEX))
      (fun t => pumpFabrics (groupDeact t (getF s COL_GRP_CTL COL_GRP_CTL_INDEX))) s
  else if a = WRK_RING_CTL then
    actDeact (wbit WRK_RING_CTL_ACT v) (wbit WRK_RING_CTL_DEACT v)
      (ringAct · (getF s WRK_RING_CTL WRK_RING_CTL_INDEX)) (ringDeact · (getF s WRK_RING_CTL WRK_RING_CTL_INDEX)) s
  else if a = WRK_CTL then pumpIntake s
  else if a = MEM_MRG_CTL then (if wbit MEM_MRG_CTL_START v then mrgStart s else s)
  else if a = SURV_CTL then survAction s v
  else if a = SURV_RST_CTL then (if wbit SURV_RST_CTL_GO v then restore s else s)
  else if a = PWR_TEST then testAction s v
  else if a = THM_QCTL then (if wbit THM_QCTL_QUENCH v then declareQuench s causeRegister else s)
  else if a = CFG_COMMIT then (if wbit CFG_COMMIT_COMMIT v then commitConfig s agent else s)
  else if a = CFG_STAGE_CTL then (if wbit CFG_STAGE_CTL_WRITE v then stageWrite s (wbit CFG_STAGE_CTL_SETPREF v) else s)
  else if a = TRU_CHG_CTL then (if wbit TRU_CHG_CTL_APPLY v then applyRecord s else s)
  else if a = EVR_CTL then evrControl s (wbit EVR_CTL_FREEZE v) (wbit EVR_CTL_THAW v)
  else if isMboxCtl a then mboxAction s agent ((a - 0x30000) / 0x20) v
  else if isTileCtl a then tileAction s a v
  else if isPortCtl a then portAction s (Fin.ofNat 8 ((a - 0x60000) / 0x1000)) v
  else s

def isDataReg (a : Nat) : Bool := MBX_DATA 0 ≤ a && a < MBX_DATA 2048 && a % 4 = 0

/-- A write by an agent that may make it. An unassigned address ignores it (R14); a mailbox lock, a data window
and MEM_RGN act as their descriptions say. -/
def mgmtWrite (s : State) (agent a v : Nat) : State := match regAt a with
  | none => s
  | some d =>
    if isLockReg a then mbxLockWrite s agent ((a - 0x30000) / 0x20) v
    else if isDataReg a then
      mbxWindowWrite s agent ((a - MBX_DATA 0) / 256) ((a - MBX_DATA 0) / 4 % 64) (BitVec.ofNat 32 v)
    else if a = MEM_RGN then regionWrite s v
    else writeAction (lockedWrite (storeWrite s agent a v d) a v d) agent a v

def registerWrite (s : State) (agent a v : Nat) : State := if mayWrite s agent a then mgmtWrite s agent a v else s

def execRegisterWrite (agent : BitVec 8) (addr : Word32) (val : Word32) (s : State) :
    Host.Outcome State Fault Refusal :=
  .next (registerWrite s agent.toNat addr.toNat val.toNat)

/-! ## Read-modify-write by the smith (R420, R429) -/

/-- Bits that a write of 1 would clear. -/
def clearingBits (d : RegDesc) : Nat := ((d.fields.filter (·.acc = .rw1c)).map fieldBits).sum

/-- The masked bits of the value, and elsewhere what the register holds. -/
def mergedValue (s : State) (a mask v : Nat) (d : RegDesc) : Nat :=
  let all := 2 ^ 32 - 1
  ((regView s a).toNat &&& (all ^^^ (mask ||| clearingBits d))) ||| (v &&& mask)

def maskedWrite (s : State) (agent a mask v : Nat) : State := match regAt a with
  | none => s
  | some d => mgmtWrite s agent a (mergedValue s a mask v d)

/-- The entries of a configuration, in order. -/
def applyConfig (s : State) (bs : List Byte) : State :=
  (cfgPieces bs).foldl (fun t p => maskedWrite t agentSmith (cfgEntry p).addr (cfgEntry p).mask (cfgEntry p).value) s

end Sys2Proof.Machine
end

