-- ==== Sys2Proof/Machine/Trim.lean ====
section
/-! DEFINITION. The margin windows and trim codes (R46 to R52), the weld's retry and its copy of local time
(R34, R54). -/

namespace Sys2Proof.Machine

/-- The replicas of a domain, by the numbers of R409. -/
def domReplicas (u : Nat) : List Nat :=
  ((domCores u).flatMap fun i => (List.range 4).map (4 * i + ·)) ++
    (if u % 8 = 0 ∨ u % 8 = 3 ∨ u % 8 = 6 then
      (domCores u).map fun i => 512 + 3 * hearthOf i + (u % 8) / 3
    else [])

def weldReplicas (w : Nat) : List Nat := (List.range 8).map (560 + 8 * w + ·)

/-- The core that holds a replica. -/
def replicaCore (r : Nat) : Nat :=
  if r < 512 then r / 4 else 8 * ((r - 512) / 3) + 3 * ((r - 512) % 3)

/-- The smallest slack of a sweep and its replica, the first in order. -/
def smallestSlack : List (Nat × Nat) → Option (Nat × Nat)
  | [] => none
  | p :: rest => match smallestSlack rest with
    | none => some p
    | some q => if q.2 < p.2 then some q else some p

/-- Table 2-5: the new code, from the old one, the factory code, the smallest slack and the number of
successive sweeps, this one included, whose smallest slack was 15 or more. -/
def trimDecision (code factory slack high : Nat) : Nat :=
  if slack < 2 then min 15 (code + 2)
  else if slack < 6 then min 15 (code + 1)
  else if slack < 15 then code
  else if 4 ≤ high then max factory (code - 1)
  else code

def highCount (high slack : Nat) : Nat := if 15 ≤ slack then high + 1 else 0

/-- The body of records 0x081 to 0x083. -/
def trimBodyWords (s : State) (unit old new replica slack : Nat) : List Word64 :=
  [w64 (unit + old * 2 ^ 8 + new * 2 ^ 12 + replica * 2 ^ 16 + slack * 2 ^ 26),
   w64 (getF s PWR_MEAS PWR_MEAS_VMV + getF s THM_TJ THM_TJ_TJ * 2 ^ 16)]

/-- Records of a sweep (R50, R51, R52). -/
def trimRecords (s : State) (src unit old new replica slack : Nat) : State :=
  let b := trimBodyWords s unit old new replica slack
  let s := if slack < 2 then makeRecord s src 0x082 b else s
  let s := if old != new then
      makeRecord { s with boot := { s.boot with trimDirty := true } } src 0x081 b else s
  if old ≤ 8 && 8 < new then makeRecord s src 0x083 b else s

def noteSlacks (s : State) (ps : List (Nat × Nat)) : State :=
  { s with slacks := ps.map (fun p => (p.1, p.2, s.now)) ++
      s.slacks.filter fun x => !ps.any fun p => p.1 = x.1 }

/-- R50 for a control domain. -/
def trimDomain (s : State) (u : Nat) (ps : List (Nat × Nat)) : State :=
  match smallestSlack ps with
  | none => s
  | some (r, slack) =>
    let d := domainAt s u
    let high := highCount d.high slack
    let code := trimDecision d.code (Config.factoryCode u) slack high
    let s := noteSlacks s ps
    let s := setDomain s u { d with code := code, high := high, exhausted := d.exhausted || 8 < code }
    let s := trimRecords s (srcStriker (u / 8)) u d.code code r slack
    if d.code = 15 then
      (ps.filter (·.2 < 2)).foldl (fun s p => dueRetire s (replicaCore p.1) 2) s
    else s

/-! ## Windows -/

/-- R48: no core of the domain holds a task and no anvil of it is active. -/
def windowNatural (s : State) (u : Nat) : State :=
  if domState s u = domOn && !inTransition s u && (domainAt s u).window.isNone && domainIdle s u
      && domainAnvilsIdle s u && !quenched s then
    modDomain s u fun d => { d with window := some false }
  else s

def execMeasurementWindowNatural (dom : DomId) (s : State) : Host.Outcome State Fault Refusal :=
  .next (windowNatural s dom.val)

/-- R48: 60 s of local time without a window. -/
def windowForced (s : State) (u : Nat) : State :=
  if domState s u = domOn && (domainAt s u).window.isNone
      && 60000000000 ≤ s.now - (domainAt s u).lastWindow then
    domCommand s u .window
  else s

def execMeasurementWindowForced (dom : DomId) (s : State) : Host.Outcome State Fault Refusal :=
  .next (windowForced s dom.val)

/-- One sweep of a domain: its slacks, its code, and when it ended. -/
def sweepDomain (s : State) (u : Nat) (slacks : List (BitVec 5)) : State :=
  modDomain (trimDomain s u ((domReplicas u).zip (slacks.map (·.toNat)))) u fun d => { d with lastWindow := s.now }

/-- The sweep ends and the domain is released; a forced window returns the domain to service, and a self-test
goes on to its tests (R406). -/
def windowComplete (s : State) (u : Nat) (slacks : List (BitVec 5)) : State :=
  match (domainAt s u).window with
  | none => s
  | some forced =>
    if quenched s then s
    else
      let s := modDomain (sweepDomain s u slacks) u fun d => { d with window := none }
      if forced && !(domainAt s u).testing then beginOn s u else takePending s u

def execMeasurementWindowComplete (dom : DomId) (slacks : List (BitVec 5)) (s : State) :
    Host.Outcome State Fault Refusal :=
  .next (windowComplete s dom.val slacks)

/-! ## The weld -/

def weldDir (s : State) (w : Nat) : WeldDir := if w = 0 then s.weld.dir0 else s.weld.dir1
def setWeldDir (s : State) (w : Nat) (d : WeldDir) : State :=
  { s with weld := if w = 0 then { s.weld with dir0 := d } else { s.weld with dir1 := d } }

/-- R48, R50, R51 for a weld direction, in an idle gap of its control class. -/
def weldMeasure (s : State) (w : Nat) (slacks : List (BitVec 5)) : State :=
  let ps := (weldReplicas w).zip (slacks.map (·.toNat))
  match smallestSlack ps with
  | none => s
  | some (r, slack) =>
    if !s.weld.up then s
    else
      let d := weldDir s w
      let high := highCount d.high slack
      let code := trimDecision d.code (Config.factoryCode (16 + w)) slack high
      let s := noteSlacks s ps
      let s := setWeldDir s w
        { d with code := code, high := high, exhausted := d.exhausted || 8 < code, lastWindow := s.now }
      let s := trimRecords s srcWeld (16 + w) d.code code r slack
      if d.code = 15 && slack < 2 then failWeld s w 2 else s

def execWeldMeasurement (dir : Fin 2) (slacks : List (BitVec 5)) (s : State) :
    Host.Outcome State Fault Refusal :=
  .next (weldMeasure s dir.val slacks)

/-- R34: a failed transfer is retried in order; sixteen successive failures fail the weld. -/
def weldRetry (s : State) (w : Nat) (ok : Bool) : State :=
  if !s.weld.up then s
  else
    let d := weldDir s w
    if ok then setWeldDir s w { d with fails := 0 }
    else
      let s := setWeldDir s w { d with fails := d.fails + 1, retries := d.retries + 1 }
      if 16 ≤ d.fails + 1 then failWeld s w 1 else s

def execWeldTransferRetry (dir : Fin 2) (ok : Bool) (s : State) : Host.Outcome State Fault Refusal :=
  .next (weldRetry s dir.val ok)

/-- R54: from the training of the weld, base die 1's copy is corrected to base die 0's counter. -/
def timeCorrection (s : State) : State :=
  if s.weld.up then { s with time := { s.time with half1 := s.time.ns, tracking := true } } else s

def execTimeCopyCorrection (s : State) : Host.Outcome State Fault Refusal := .next (timeCorrection s)

/-- R52: the trim record is rewritten when a code has changed, at most once an hour, and not while a slot is
being programmed (R422). -/
def trimRecordWrite (s : State) : State :=
  let due := match s.boot.trimAt with
    | some t => 3600000000000 ≤ s.now - t
    | none => true
  if s.boot.trimDirty && due && s.boot.slotBusy.isNone then
    let s := writeRecord s areaTrim (trimBody s)
    { s with boot := { s.boot with trimDirty := false, trimAt := some s.now } }
  else s

def execTrimRecordWrite (s : State) : Host.Outcome State Fault Refusal := .next (trimRecordWrite s)

end Sys2Proof.Machine
end

