-- ==== Sys2Proof/Machine/Start.lean ====
section
/-! DEFINITION. Rails, resets and the start sequence (R410 to R415, R419, R431 to R434, R454): power-good and its
loss, the steps of Table 15-1, the start timer, the watchdog and the reset frame. -/

namespace Sys2Proof.Machine

/-! ## Resets (Table 15-8) -/

/-- All state but the flash and the fuses takes its reset value; the model's log of outputs, its draws of free
values and its queue go on. -/
def resetState (s : State) (latch : Option (List Byte)) : State :=
  { State.reset with
    boot := { Boot.reset with flash := s.boot.flash, fuses := s.boot.fuses, latch := latch }
    egress := s.egress, free := s.free, pending := s.pending }

/-- The device is absent: its rails or `rst_n` hold it (R412). -/
def absentState (s : State) (latch : Option (List Byte)) (pg : BitVec 5) (rst : Bool) (brown : Option Nat) : State :=
  modBoot (resetState s latch) fun b => { b with running := false, pg := pg, rst := rst, brown := brown }

/-- The start sequence begins at step 2, with local time 0 (R53, R410). -/
def powerGood (s : State) : State :=
  if s.boot.running || s.boot.brown.isSome then s else resetState s s.boot.latch

def execPowerGood (s : State) : Host.Outcome State Fault Refusal := .next (powerGood s)

/-- `therm_trip_n` stays asserted while VBASE stands, though the pin has removed VCORE (R403). -/
def keepTrip (s t : State) : State := { t with pins := { t.pins with thermTrip := s.pins.thermTrip } }

/-- A `pg_*` input deasserts: nothing is kept but the flash and the fuses (R411). -/
def powerLoss (s : State) (rail : Nat) : State :=
  let t := absentState s none (s.boot.pg &&& ~~~BitVec.ofNat 5 (2 ^ rail)) s.boot.rst none
  if rail = 0 then keepTrip s t else t

def execPowerLoss (rail : Fin 5) (s : State) : Host.Outcome State Fault Refusal := .next (powerLoss s rail.val)

/-- A full reset by the pin keeps the latch of R433, and holds the device absent (R431). -/
def rstAssert (s : State) : State := absentState s s.boot.latch s.boot.pg true none

def execRstNAssert (s : State) : Host.Outcome State Fault Refusal := .next (rstAssert s)

/-- R454: a brown-out has the effect of a full reset, with local time at 0; the fall of VCORE that a thermal trip calls for has
not, since the smith goes on (R403, R437). -/
def brownOut (s : State) : State :=
  if s.boot.running && !s.pins.thermTrip then absentState s s.boot.latch s.boot.pg s.boot.rst (some 0) else s

def execBrownOut (s : State) : Host.Outcome State Fault Refusal := .next (brownOut s)

/-- VCORE has stood within its range for 1 ms. -/
def brownRecovery (s : State) : State := match s.boot.brown with
  | some t => if s.boot.rst || s.now - t < 1000000 then s else resetState s s.boot.latch
  | none => s

def execBrownOutRecovery (s : State) : Host.Outcome State Fault Refusal := .next (brownRecovery s)

/-! ### The reset frame (R433) -/

def resetFrameOk (s : State) (p : Nat) (e : Eth) (bs : List Byte) : Bool :=
  3 ≤ p && e.dst = portMac s (ownNode s) p && e.tags = 1 && flag s (PRT_STATUS p) PRT_STATUS_LINK_UP && s.boot.running && bs.length = 64
    && bodyField bs 0 63 48 = 0x0F40 && slice bs 8 8 = serialBytes
    && (sha3 (slice bs 0x10 32)).take 32 = s.boot.anchor

/-- VALUE is latched and a full reset starts; any other frame to QPN 0x0000FF is discarded. -/
def resetFrame (s : State) (p : Nat) (e : Eth) (bs : List Byte) : State :=
  if resetFrameOk s p e bs then resetState s (some (slice bs 0x10 32)) else s

def execResetFrame (port : PortId) (send : ResetSend) (s : State) : Host.Outcome State Fault Refusal :=
  .next (resetFrame s port.val send.eth send.payload)

/-! ## Step 2: self-test, weld, domains -/

/-- The device stops at its step and asks for service (R414). -/
def holdStart (s : State) : State := requestService (modBoot s fun b => { b with stuck := true })

/-- Cores that the retirement record names. -/
def loadRetired (s : State) : State := match readRecord s areaRetire with
  | none => s
  | some bs =>
    let cs := (List.range 128).filter fun i => fieldLE bs 0 16 / 2 ^ i % 2 = 1
    let s := (List.range 4).foldl (fun t k => setR t (DEV_CORE_RETIRED k) (BitVec.ofNat 32 (fieldLE bs (4 * k) 4))) s
    let s := modBoot s fun b => { b with retireCauses := cs.map fun i => (i, fieldLE bs (0x10 + i) 1) }
    if cs.isEmpty then s else putF s DEV_STATUS DEV_STATUS_DEGRADED 1

/-- R52: codes start from the trim record. -/
def loadTrim (s : State) : State := match readRecord s areaTrim with
  | none => s
  | some bs =>
    let code := fun k => fieldLE bs k 1 % 16
    let s := (List.range 16).foldl (fun t u => modDomain t u fun d => { d with code := code u, exhausted := 8 < code u }) s
    let s := setWeldDir s 0 { (weldDir s 0) with code := code 16, exhausted := 8 < code 16 }
    setWeldDir s 1 { (weldDir s 1) with code := code 17, exhausted := 8 < code 17 }

def weldUp (s : State) : State :=
  let s := putF { s with weld := { s.weld with up := true } } DEV_STATUS DEV_STATUS_WELD_UP 1
  { s with time := { s.time with half1 := s.time.ns, tracking := true } }

/-- Every domain that has a core which passed is switched On; R26 does not bind here. -/
def startDomains (s : State) (fails : List (CoreId × Fin 4)) : State :=
  ((List.range 16).filter fun u => (domCores u).any fun i => !fails.any fun f => f.1.val = i).foldl beginOn s

def startFail (s : State) (f : CoreId × Fin 4) : State :=
  let s := satF s PWR_TEST PWR_TEST_FAILS 1
  retireCore (makeRecord s (srcStriker (f.1.val / 64)) 0x085 [w64 (f.1.val + (f.2.val + 1) * 2 ^ 8)]) f.1.val 4

def atStep (s : State) (n : Nat) : State := modBoot s fun b => { b with step := n }

/-- The measurement window of each domain's test (Table 14-4). -/
def startWindows (s : State) (slacks : List (List (BitVec 5))) : State :=
  (List.range 16).foldl (fun t u => sweepDomain t u (slacks.getD u [])) s

/-- At the end of step 2 the smith boots, and asks for its voltage: AVSBus is used from step 3 (Table 17-5). -/
def step2 (s : State) (r : StartReport) : State :=
  if !r.baseOk || !r.weldOk then holdStart (wedge s 5 0 0)
  else
    let s := startWindows (weldUp (loadTrim (loadRetired s))) r.slacks
    startVoltage (atStep (r.coreFails.foldl startFail (startDomains s r.coreFails)) 3)

/-! ## Step 3: the smith boots -/

/-- The counter of the start record is raised; its anchor and FRAMES are read. -/
def loadStart (s : State) : State := match readRecord s areaStart with
  | some bs =>
    putF (modBoot s fun b => { b with startCount := (fieldLE bs 0 4 + 1) % 2 ^ 32, anchor := slice bs 8 32 })
      TRU_RESETS TRU_RESETS_FRAMES (fieldLE bs 4 2)
  | none => modBoot s fun b => { b with startCount := 1 }

/-- The latched VALUE becomes the anchor (R433). -/
def takeLatch (s : State) : State := match s.boot.latch with
  | some v => satF (modBoot s fun b => { b with anchor := v, latch := none }) TRU_RESETS TRU_RESETS_FRAMES 1
  | none => s

/-- Without a start record the anchor is that of the protection record (Table 15-2). -/
def anchorOr (s : State) : State :=
  if s.boot.anchor.isEmpty then modBoot s fun b => { b with anchor := protAnchor b.prot } else s

def saveStartIfAnchored (s : State) : State := if s.boot.anchor.isEmpty then s else saveStart s

def step3 (s : State) : State :=
  let s := saveStartIfAnchored (takeLatch (loadStart (loadWear s)))
  match acceptProt s with
  | some t => modBoot (atStep (saveStart (anchorOr t)) 4) fun b => { b with watchAt := s.now }
  | none => holdStart (putF s CFG_BOOT CFG_BOOT_TRUST_FAIL 1)

/-! ## Step 4: the image (R419, R420, R424) -/

def failField (b : Bool) : Fld := if b then CFG_BOOT_FAIL_B else CFG_BOOT_FAIL_A

/-- Verifies a slot and reports its code; true when it passes. -/
def trySlot (s : State) (b : Bool) : State × Bool :=
  let k := verifyImage s (flashSlot s b)
  (putF s CFG_BOOT (failField b) k, k = 0)

/-- Three starts without READY give way to the other slot. -/
def preferred (s : State) : State × Bool :=
  let r := bootRecord s
  if r.2 = 3 then (setBootRecord s (!r.1) 0, !r.1)
  else (putF (putF s CFG_BOOT CFG_BOOT_PREF (bit r.1)) CFG_BOOT CFG_BOOT_TRIES r.2, r.1)

/-- 64 bytes that the spec does not state. -/
def freeBytes : Nat → State → State × List Byte
  | 0, s => (s, [])
  | n + 1, s =>
    let r := drawFree s
    let t := freeBytes n r.2
    (t.1, leBytes 8 r.1.toNat ++ t.2)

/-- M0 to M3; with no readable site record the spec states no M3. -/
def measure (s : State) (b : Bool) : State :=
  let m3 := match siteRecord s with
    | some bs => (s, sha3 bs)
    | none => freeBytes 8 s
  modBoot m3.1 fun x => { x with
    meas := [sha3 Config.rom, sha3 (flashSlot s b 0 0x100), sha3 x.prot, m3.2] }

/-- The slot that passed runs: its configuration is applied and committed, and training begins. -/
def runSlot (s : State) (b pref : Bool) (tries : Nat) : State :=
  let rd := flashSlot s b
  let h := rd 0 headerLen
  let s := setBootRecord s pref (tries + 1)
  let s := setR (putF s CFG_BOOT CFG_BOOT_ACTIVE (bit b)) CFG_SVN (BitVec.ofNat 32 (imgSvn h))
  let s := modBoot s fun x => { x with raise := if imgRaise h then some (imgSvn h) else none }
  let s := commitConfig (applyConfig (measure s b) (imgConfig rd h)) agentSmith
  atStep (putF s MEM_STATUS MEM_STATUS_TRAINING 1) 5

def step4 (s : State) : State :=
  let p := preferred s
  let tries := (bootRecord p.1).2
  let a := trySlot p.1 p.2
  if a.2 then runSlot a.1 p.2 p.2 tries
  else
    let b := trySlot a.1 (!p.2)
    if b.2 then runSlot b.1 (!p.2) p.2 tries else holdStart (putF b.1 CFG_BOOT CFG_BOOT_BOOT_FAIL 1)

/-! ## Steps 5 to 7: memory, ports, join (R426) -/

/-- All eight ports are brought up in parallel. -/
def step5 (s : State) : State :=
  if flag s MEM_STATUS MEM_STATUS_TRAINED then atStep ((List.range 8).foldl portEnable s) 6 else s

def anyPlaneUp (s : State) : Bool := [3, 4, 5, 6, 7].any fun p => flag s (PRT_STATUS p) PRT_STATUS_LINK_UP

/-- Step 3 of the join: ⌊L × JOIN_SPREAD / 65,536⌋ ms. -/
def joinDelay (s : State) : Nat :=
  fieldLE (sha3 serialBytes) 0 2 * getF s CFG_JOIN CFG_JOIN_JOIN_SPREAD / 65536 * 1000000

def startSpread (s : State) : State :=
  modBoot s fun b => { b with spreadAt := some (s.now + joinDelay s), admitAt := none }

def setEpoch (s : State) : State := putF s FAB_NODE FAB_NODE_EPOCH (s.boot.startCount % 256)

/-- JOIN_CONN is installed as entry 1,023. -/
def installJoin (s : State) (ws : List Word64) : State := match connBad ws with
  | none => installConn s 1023 ws
  | some off => makeRecord s srcSmith 0x202 [w64 (1023 + off * 2 ^ 16)]

/-- Steps 1 to 3 of the join; without a site record the device does not join. -/
def beginJoin (s : State) : State :=
  let s := modBoot (atStep s 7) fun b => { b with portRetryAt := none }
  match siteRecord s with
  | none => s
  | some bs =>
    let s := setEpoch (putF s FAB_NODE FAB_NODE_NODE (siteNode bs))
    let s := putF (putF s FAB_NODE FAB_NODE_JOINED 1) CFG_JOIN CFG_JOIN_JSTATE 1
    let s := { s with ylp := { s.ylp with members := s.ylp.peers.map fun p => (p.node, p.epoch) } }
    startSpread (installJoin s (siteJoinConn bs))

def joinOrRetry (s : State) : State :=
  if anyPlaneUp s then beginJoin s else modBoot s fun b => { b with portRetryAt := some (s.now + 10000000000) }

def step6 (s : State) (r : StartReport) : State := joinOrRetry (r.portsUp.foldl (fun t p => portTrained t p.val) s)

/-- The end of the step in progress; a quench pauses the sequence there (R415), and a step that stopped the device
holds it until a full reset (R414). -/
def startStep (s : State) (r : StartReport) : State :=
  if !s.boot.running || s.boot.stuck || quenched s then s
  else match s.boot.step with
    | 2 => step2 s r
    | 3 => step3 s
    | 4 => step4 s
    | 5 => step5 s
    | 6 => if s.boot.portRetryAt.isSome then s else step6 s r
    | _ => s

def execStartStepComplete (r : StartReport) (s : State) : Host.Outcome State Fault Refusal := .next (startStep s r)

/-- R414: step 4 has not begun within 2 s of power-good. -/
def startTimer (s : State) : State :=
  if s.boot.running && s.boot.step < 4 && 2000000000 ≤ s.now then { s with pins := { s.pins with svcReq := true } } else s

def execStartTimerExpiry (s : State) : Host.Outcome State Fault Refusal := .next (startTimer s)

/-- With none of ports 3 to 7 up the device tries again every 10 s. -/
def portRetry (s : State) : State := match s.boot.portRetryAt with
  | none => s
  | some t => if s.now < t || quenched s then s else joinOrRetry s

def execPortRetryTimer (s : State) : Host.Outcome State Fault Refusal := .next (portRetry s)

/-- R432: 1 s unserviced, from the end of step 3 on. -/
def watchdog (s : State) : State :=
  if s.boot.running && 4 ≤ s.boot.step && 1000000000 ≤ s.now - s.boot.watchAt then wedge s 4 0 0 else s

def execWatchdogExpiry (s : State) : Host.Outcome State Fault Refusal := .next (watchdog s)

end Sys2Proof.Machine
end

