-- ==== Sys2Proof/Machine/Attest.lean ====
section
/-! DEFINITION. What the smith sends and takes once the device has joined: the report and the admission (R425,
R426), attestation on request, and the management mailbox (R429). -/

namespace Sys2Proof.Machine

/-! ## The report (Table 15-4) -/

def reportHead (s : State) (join : Bool) : Nat :=
  0x0F21 * 2 ^ 48 + ownNode s * 2 ^ 32 + ownEpoch s * 2 ^ 24 + s.boot.debug * 2 + bit join

def reportState (s : State) : Nat :=
  (getR s CFG_SVN).toNat * 2 ^ 32 + s.boot.fuses.minSvn % 64 * 2 ^ 26 + bit (activeSlot s) * 2 ^ 25
    + bit (0 < s.boot.fuses.pcount) * 2 ^ 24 + s.boot.fuses.pcount % 4096

/-- Bytes 0x000 to 0x1FF. -/
def reportBody (s : State) (nonce : List Byte) (join : Bool) : List Byte :=
  padTo 0x200 (leBytes 8 (reportHead s join) ++ serialBytes ++ padTo 32 nonce ++ leBytes 8 s.now
    ++ leBytes 8 (reportState s) ++ (s.boot.meas.map (padTo 64)).flatten ++ leBytes 4 (regView s DEV_STATUS).toNat)

def withLength (bs : List Byte) : List Byte := leBytes 4 bs.length ++ bs

def report (s : State) (nonce : List Byte) (certs join : Bool) : List Byte :=
  let b := reportBody s nonce join
  padTo 0x1420 (b ++ Config.mldsaSign b)
    ++ (if certs then withLength Config.deviceCert ++ withLength Config.intermediateCert else [])

/-- The report by RDMA WRITE, then a SEND of TYPE 0x0F22 and the first 8 bytes of the nonce. -/
def sendReport (s : State) (conn remote : Nat) (nonce : List Byte) (certs join : Bool) : State :=
  let s := (roceSendOn s conn (rdmaWrite .line remote (report s nonce certs join))).1
  (roceSendOn s conn (rdmaSend .line (leBytes 8 (0x0F22 * 2 ^ 48) ++ padTo 8 nonce))).1

/-! ## Joining (R426) -/

/-- Steps 4 and 5. -/
def joinReport (s : State) : State := match siteRecord s with
  | none => s
  | some bs =>
    let s := sendReport s 1023 (siteJoinRemote bs + 0x2000 * (ownNode s % 4096)) [] false true
    modBoot s fun b => { b with spreadAt := none, admitAt := some s.now, answerOk := true }

def joinSpread (s : State) : State := match s.boot.spreadAt with
  | none => s
  | some t => if s.now < t || quenched s then s else joinReport s

def execJoinSpreadExpiry (s : State) : Host.Outcome State Fault Refusal := .next (joinSpread s)

def admitWait (s : State) : State := match s.boot.admitAt with
  | none => s
  | some t =>
    if s.now - t < getF s CFG_JOIN CFG_JOIN_ADMIT_WAIT * 1000000000 || quenched s then s else startSpread s

def execAdmitWaitExpiry (s : State) : Host.Outcome State Fault Refusal := .next (admitWait s)

/-- Members of the list in JOIN_AREA. -/
def joinList (s : State) (area : Nat) : List (Nat × Nat) :=
  let bs := readBytes s area 8192
  ((List.range 4096).filter fun e => fieldLE bs (2 * e) 2 / 2 ^ 15 = 1).map fun e =>
    (domainNode s e, fieldLE bs (2 * e) 2 % 256)

/-- R421: MIN_SVN rises to the lower of the image's SVN and 63. -/
def raiseMinSvn (s : State) : State := match s.boot.raise with
  | some v => modBoot s fun b => { b with
      raise := none, fuses := { b.fuses with minSvn := max b.fuses.minSvn (min 63 v) } }
  | none => s

/-- READY is set and TRIES cleared (R419). -/
def becomeReady (s : State) : State :=
  let s := putF (putF s DEV_STATUS DEV_STATUS_READY 1) CFG_JOIN CFG_JOIN_JSTATE 2
  let s := setR (atStep s 8) CFG_START (BitVec.ofNat 32 (s.now / 1000000))
  raiseMinSvn (setBootRecord s (bootRecord s).1 0)

def admitted (s : State) : State :=
  let area := ((siteRecord s).map siteJoinArea).getD 0
  let s := { s with ylp := { s.ylp with members := joinList s area } }
  becomeReady (modBoot s fun b => { b with admitAt := none, spreadAt := none, answerOk := false })

/-- The start counter is raised so that EPOCH = EMIN. -/
def newEpoch (s : State) (emin : Nat) : State :=
  let c := s.boot.startCount
  let s := modBoot s fun b => { b with startCount := (c + (emin + 256 - c % 256) % 256) % 2 ^ 32, answerOk := false }
  startSpread (setEpoch (saveStart s))

def refusedIdentity (s : State) : State :=
  let s := putF (modBoot s fun b => { b with admitAt := none, spreadAt := none, answerOk := false })
    CFG_JOIN CFG_JOIN_JSTATE 3
  makeRecord (requestService s) srcSmith 0x480 [w64 2]

/-- Table 15-6. -/
def admission (s : State) (result emin : Nat) : State :=
  match result with
  | 0 => admitted s
  | 1 => newEpoch s emin
  | 2 => refusedIdentity s
  | _ => startSpread s

/-- The smith takes what stands in mailbox 0; an answer to a report of an earlier epoch is discarded. -/
def admissionAnswer (s : State) : State :=
  if (mbxAt s 0).fullAt.isNone then s
  else
    let bs := windowBytes s 0
    let s := clearFull s 0
    if bodyField bs 0 63 48 != 0x0F31 || !s.boot.answerOk || s.boot.step != 7 || quenched s then s
    else admission s (bodyField bs 8 7 0) (bodyField bs 8 15 8)

def execAdmissionAnswer (s : State) : Host.Outcome State Fault Refusal := .next (admissionAnswer s)

/-! ## Attestation on request (R425) -/

/-- The connection of a RoCEv2 sender (Table 12-11). -/
def senderConn (s : State) (m : Nat) : Option Nat :=
  let w := senderOf s m
  if bitsOf 63 62 w = 1 && 0x100 ≤ w % 2 ^ 24 then some (w % 2 ^ 24 - 0x100) else none

/-- A full mailbox of the smith. -/
def smithHas (s : State) (m : Nat) : Bool := m != 0 && (mbxAt s m).fullAt.isSome && smithReceives s m

def attestation (s : State) : State :=
  let m := protAttMbox s.boot.prot
  if !smithHas s m then s
  else
    let bs := windowBytes s m
    match senderConn s m with
    | none => clearFull s m
    | some c =>
      let s := clearFull s m
      if bodyField bs 0 63 48 != 0x0F20 then s
      else sendReport s c (fieldLE bs 0x28 8) (slice bs 8 32) (bodyField bs 0 0 0 = 1) false

def execAttestationRequest (s : State) : Host.Outcome State Fault Refusal := .next (attestation s)

/-! ## The management mailbox (R429) -/

/-- Who stamped the message: a fabric sender, or an on-chip agent. -/
def remoteSender (s : State) (m : Nat) : Bool := bitsOf 63 62 (senderOf s m) != 0

/-- MGMT_PERM allows the stamped sender the entry. -/
def entryAllowed (s : State) (remote : Bool) (agent a : Nat) (write : Bool) : Bool :=
  if remote then (if write then mgmtPerm s a = 3 else 2 ≤ mgmtPerm s a)
  else (if write then mayWrite s agent a else mayRead s agent a)

/-- One entry of 16 bytes is performed or skipped; its answer is the entry with the value read, and bit 1 set
where it was performed (log entry 76). -/
def mgmtEntry (remote : Bool) (agent : Nat) (r : State × List Byte) (e : List Byte) : State × List Byte :=
  let write := bodyField e 0 0 0 = 1
  let a := fieldLE e 4 4
  let head := fun (done : Nat) => leBytes 4 (bit write + 2 * done) ++ slice e 4 8
  if !entryAllowed r.1 remote agent a write then (r.1, r.2 ++ head 0 ++ leBytes 4 0)
  else if write then
    (maskedWrite r.1 agentSmith a (fieldLE e 8 4) (fieldLE e 12 4), r.2 ++ head 1 ++ slice e 12 4)
  else
    let x := mgmtRead r.1 agentSmith a
    (x.1, r.2 ++ head 1 ++ leBytes 4 x.2.toNat)

def mgmtCount (bs : List Byte) : Nat := bodyField bs 0 3 0

/-- The smith performs each entry that is allowed, and answers on the sender's connection. -/
def mgmtMailbox (s : State) : State :=
  let m := protMgmtMbox s.boot.prot
  if !smithHas s m then s
  else
    let bs := windowBytes s m
    let remote := remoteSender s m
    let conn := senderConn s m
    let agent := senderOf s m % 256
    let s := clearFull s m
    if bodyField bs 0 63 48 != 0x0F50 || mgmtCount bs = 0 then s
    else
      let es := (List.range (mgmtCount bs)).map fun k => slice bs (0x10 + 16 * k) 16
      let r := es.foldl (mgmtEntry remote agent) (s, [])
      match conn with
      | some c => (roceSendOn r.1 c (rdmaSend .line (padTo 256 (slice bs 0 16 ++ r.2)))).1
      | none => r.1

def execMgmtMailboxRequest (s : State) : Host.Outcome State Fault Refusal := .next (mgmtMailbox s)

end Sys2Proof.Machine
end

