-- ==== Sys2Proof/Machine/Dispatch.lean ====
section
/-! DEFINITION. One arm per command: a direct call of its meaning. -/

namespace Sys2Proof.Machine

def exec (i : Instr) (s : State) : Host.Outcome State Fault Refusal :=
  match i with
  | .registerWrite agent addr val => Sys2Proof.Machine.execRegisterWrite agent addr val s
  | .readClearRegister agent addr => Sys2Proof.Machine.execReadClearRegister agent addr s
  | .domainSwitchOff dom => Sys2Proof.Machine.execDomainSwitchOff dom s
  | .domainSelfTestStart dom => Sys2Proof.Machine.execDomainSelfTestStart dom s
  | .domainSwitchOn dom => Sys2Proof.Machine.execDomainSwitchOn dom s
  | .domainLeft dom => Sys2Proof.Machine.execDomainLeft dom s
  | .coreStoreClearDone dom => Sys2Proof.Machine.execCoreStoreClearDone dom s
  | .domainSelfTestComplete dom failed => Sys2Proof.Machine.execDomainSelfTestComplete dom failed s
  | .taskDispatch h => Sys2Proof.Machine.execTaskDispatch h s
  | .taskComplete core ctx => Sys2Proof.Machine.execTaskComplete core ctx s
  | .taskReturn core => Sys2Proof.Machine.execTaskReturn core s
  | .coreRetire core => Sys2Proof.Machine.execCoreRetire core s
  | .weldTransferRetry dir ok => Sys2Proof.Machine.execWeldTransferRetry dir ok s
  | .measurementWindowNatural dom => Sys2Proof.Machine.execMeasurementWindowNatural dom s
  | .measurementWindowForced dom => Sys2Proof.Machine.execMeasurementWindowForced dom s
  | .measurementWindowComplete dom slacks => Sys2Proof.Machine.execMeasurementWindowComplete dom slacks s
  | .weldMeasurement dir slacks => Sys2Proof.Machine.execWeldMeasurement dir slacks s
  | .trimRecordWrite => Sys2Proof.Machine.execTrimRecordWrite s
  | .timeCopyCorrection => Sys2Proof.Machine.execTimeCopyCorrection s
  | .nop core ctx f => Sys2Proof.Machine.execNop core ctx f s
  | .br core ctx f => Sys2Proof.Machine.execBr core ctx f s
  | .bri core ctx f => Sys2Proof.Machine.execBri core ctx f s
  | .brl core ctx f => Sys2Proof.Machine.execBrl core ctx f s
  | .loop core ctx f => Sys2Proof.Machine.execLoop core ctx f s
  | .setp core ctx f => Sys2Proof.Machine.execSetp core ctx f s
  | .plog core ctx f => Sys2Proof.Machine.execPlog core ctx f s
  | .movi core ctx f => Sys2Proof.Machine.execMovi core ctx f s
  | .alu core ctx f => Sys2Proof.Machine.execAlu core ctx f s
  | .ldg core ctx f eccErr => Sys2Proof.Machine.execLdg core ctx f eccErr s
  | .stg core ctx f => Sys2Proof.Machine.execStg core ctx f s
  | .rdtime core ctx f => Sys2Proof.Machine.execRdtime core ctx f s
  | .rdreg core ctx f => Sys2Proof.Machine.execRdreg core ctx f s
  | .wrreg core ctx f => Sys2Proof.Machine.execWrreg core ctx f s
  | .signal core ctx f => Sys2Proof.Machine.execSignal core ctx f s
  | .wait core ctx f => Sys2Proof.Machine.execWait core ctx f s
  | .fence core ctx f => Sys2Proof.Machine.execFence core ctx f s
  | .yieldIf core ctx f => Sys2Proof.Machine.execYieldIf core ctx f s
  | .yieldNow core ctx f => Sys2Proof.Machine.execYieldNow core ctx f s
  | .done core ctx f => Sys2Proof.Machine.execDone core ctx f s
  | .note core ctx f => Sys2Proof.Machine.execNote core ctx f s
  | .azero core ctx f => Sys2Proof.Machine.execAzero core ctx f s
  | .aload core ctx f => Sys2Proof.Machine.execAload core ctx f s
  | .aswap core ctx f => Sys2Proof.Machine.execAswap core ctx f s
  | .amac core ctx f => Sys2Proof.Machine.execAmac core ctx f s
  | .adrain core ctx f => Sys2Proof.Machine.execAdrain core ctx f s
  | .vadd core ctx f => Sys2Proof.Machine.execVadd core ctx f s
  | .vsub core ctx f => Sys2Proof.Machine.execVsub core ctx f s
  | .vmul core ctx f => Sys2Proof.Machine.execVmul core ctx f s
  | .vmin core ctx f => Sys2Proof.Machine.execVmin core ctx f s
  | .vmax core ctx f => Sys2Proof.Machine.execVmax core ctx f s
  | .vcmp core ctx f => Sys2Proof.Machine.execVcmp core ctx f s
  | .vsel core ctx f => Sys2Proof.Machine.execVsel core ctx f s
  | .vabs core ctx f => Sys2Proof.Machine.execVabs core ctx f s
  | .vneg core ctx f => Sys2Proof.Machine.execVneg core ctx f s
  | .vshl core ctx f => Sys2Proof.Machine.execVshl core ctx f s
  | .vrsh core ctx f => Sys2Proof.Machine.execVrsh core ctx f s
  | .vresc core ctx f => Sys2Proof.Machine.execVresc core ctx f s
  | .vmov core ctx f => Sys2Proof.Machine.execVmov core ctx f s
  | .vsplat core ctx f => Sys2Proof.Machine.execVsplat core ctx f s
  | .vmovg core ctx f => Sys2Proof.Machine.execVmovg core ctx f s
  | .vradd core ctx f => Sys2Proof.Machine.execVradd core ctx f s
  | .vld core ctx f eccErr => Sys2Proof.Machine.execVld core ctx f eccErr s
  | .vst core ctx f => Sys2Proof.Machine.execVst core ctx f s
  | .vqnt core ctx f => Sys2Proof.Machine.execVqnt core ctx f s
  | .vcvt core ctx f => Sys2Proof.Machine.execVcvt core ctx f s
  | .vrsum core ctx f => Sys2Proof.Machine.execVrsum core ctx f s
  | .vrmax core ctx f => Sys2Proof.Machine.execVrmax core ctx f s
  | .vrcnt core ctx f => Sys2Proof.Machine.execVrcnt core ctx f s
  | .vrssq core ctx f => Sys2Proof.Machine.execVrssq core ctx f s
  | .vsqadd core ctx f => Sys2Proof.Machine.execVsqadd core ctx f s
  | .vact core ctx f => Sys2Proof.Machine.execVact core ctx f s
  | .vumu core ctx f => Sys2Proof.Machine.execVumu core ctx f s
  | .vupd core ctx f => Sys2Proof.Machine.execVupd core ctx f s
  | .vgacc core ctx f => Sys2Proof.Machine.execVgacc core ctx f s
  | .vrand core ctx f => Sys2Proof.Machine.execVrand core ctx f s
  | .vmark core ctx f => Sys2Proof.Machine.execVmark core ctx f s
  | .mcopy core ctx f => Sys2Proof.Machine.execMcopy core ctx f s
  | .mfill core ctx f => Sys2Proof.Machine.execMfill core ctx f s
  | .fput core ctx f => Sys2Proof.Machine.execFput core ctx f s
  | .fget core ctx f => Sys2Proof.Machine.execFget core ctx f s
  | .fsend core ctx f => Sys2Proof.Machine.execFsend core ctx f s
  | .fatom core ctx f => Sys2Proof.Machine.execFatom core ctx f s
  | .fred core ctx f => Sys2Proof.Machine.execFred core ctx f s
  | .fgath core ctx f => Sys2Proof.Machine.execFgath core ctx f s
  | .fbar core ctx f => Sys2Proof.Machine.execFbar core ctx f s
  | .fcollReduceScatter core ctx f => Sys2Proof.Machine.execFcollReduceScatter core ctx f s
  | .fcollAllGather core ctx f => Sys2Proof.Machine.execFcollAllGather core ctx f s
  | .fcollAllReduce core ctx f => Sys2Proof.Machine.execFcollAllReduce core ctx f s
  | .fcollBroadcast core ctx f => Sys2Proof.Machine.execFcollBroadcast core ctx f s
  | .fcollStepEnd core ctx f => Sys2Proof.Machine.execFcollStepEnd core ctx f s
  | .fsnap core ctx f => Sys2Proof.Machine.execFsnap core ctx f s
  | .instructionComplete core q => Sys2Proof.Machine.execInstructionComplete core q s
  | .waitRelease core at_ => Sys2Proof.Machine.execWaitRelease core at_ s
  | .waitTimeout core at_ => Sys2Proof.Machine.execWaitTimeout core at_ s
  | .fenceRelease core ctx => Sys2Proof.Machine.execFenceRelease core ctx s
  | .doneRelease core ctx => Sys2Proof.Machine.execDoneRelease core ctx s
  | .dispatcherRequest core => Sys2Proof.Machine.execDispatcherRequest core s
  | .yieldTimeout core => Sys2Proof.Machine.execYieldTimeout core s
  | .saveComplete core report => Sys2Proof.Machine.execSaveComplete core report s
  | .taskRestore record => Sys2Proof.Machine.execTaskRestore record s
  | .zero core anvil => Sys2Proof.Machine.execZero core anvil s
  | .load core anvil eccErr => Sys2Proof.Machine.execLoad core anvil eccErr s
  | .loadComplete core anvil => Sys2Proof.Machine.execLoadComplete core anvil s
  | .swap core anvil => Sys2Proof.Machine.execSwap core anvil s
  | .multiplyAccumulate core lane eccErr => Sys2Proof.Machine.execMultiplyAccumulate core lane eccErr s
  | .passComplete core lane => Sys2Proof.Machine.execPassComplete core lane s
  | .rampStage core anvil => Sys2Proof.Machine.execRampStage core anvil s
  | .drain core start => Sys2Proof.Machine.execDrain core start s
  | .drainRow core anvil upset => Sys2Proof.Machine.execDrainRow core anvil upset s
  | .drainComplete core anvil => Sys2Proof.Machine.execDrainComplete core anvil s
  | .fusedOutputRow core row => Sys2Proof.Machine.execFusedOutputRow core row s
  | .splitWrite core val => Sys2Proof.Machine.execSplitWrite core val s
  | .phaseRelease h => Sys2Proof.Machine.execPhaseRelease h s
  | .phaseSkip h => Sys2Proof.Machine.execPhaseSkip h s
  | .backwardEntryComplete h => Sys2Proof.Machine.execBackwardEntryComplete h s
  | .phaseFail h => Sys2Proof.Machine.execPhaseFail h s
  | .scheduleStall h => Sys2Proof.Machine.execScheduleStall h s
  | .stepEndRelease => Sys2Proof.Machine.execStepEndRelease s
  | .stepEndResult group => Sys2Proof.Machine.execStepEndResult group s
  | .holdRoundResult group => Sys2Proof.Machine.execHoldRoundResult group s
  | .lineRead agent addr words badBits => Sys2Proof.Machine.execLineRead agent addr words badBits s
  | .lineWrite agent addr mask data => Sys2Proof.Machine.execLineWrite agent addr mask data s
  | .sliceMissFill addr result => Sys2Proof.Machine.execSliceMissFill addr result s
  | .crucibleAtomic agent op addr operand comparand => Sys2Proof.Machine.execCrucibleAtomic agent op addr operand comparand s
  | .crucibleReduction agent op addr data => Sys2Proof.Machine.execCrucibleReduction agent op addr data s
  | .windowAccess agent addr access eccErr => Sys2Proof.Machine.execWindowAccess agent addr access eccErr s
  | .refresh h hot => Sys2Proof.Machine.execRefresh h hot s
  | .strobeRecentre h chan => Sys2Proof.Machine.execStrobeRecentre h chan s
  | .scrubRead t => Sys2Proof.Machine.execScrubRead t s
  | .memRgnClose agent => Sys2Proof.Machine.execMemRgnClose agent s
  | .memRgnOpen agent => Sys2Proof.Machine.execMemRgnOpen agent s
  | .memRgnPolicy agent policy => Sys2Proof.Machine.execMemRgnPolicy agent policy s
  | .memRgnAlloc agent alloc => Sys2Proof.Machine.execMemRgnAlloc agent alloc s
  | .migrationComplete pair => Sys2Proof.Machine.execMigrationComplete pair s
  | .mrgStart agent => Sys2Proof.Machine.execMrgStart agent s
  | .marginRerun => Sys2Proof.Machine.execMarginRerun s
  | .marginRerunComplete result => Sys2Proof.Machine.execMarginRerunComplete result s
  | .dramTrainingComplete results => Sys2Proof.Machine.execDramTrainingComplete results s
  | .portEnable port => Sys2Proof.Machine.execPortEnable port s
  | .portDisable port => Sys2Proof.Machine.execPortDisable port s
  | .portUp link => Sys2Proof.Machine.execPortUp link s
  | .portDown port lanesOk => Sys2Proof.Machine.execPortDown port lanesOk s
  | .frameFiltered port cause => Sys2Proof.Machine.execFrameFiltered port cause s
  | .pfcFrame port prio pause => Sys2Proof.Machine.execPfcFrame port prio pause s
  | .ylpRead port f => Sys2Proof.Machine.execYlpRead port f s
  | .ylpWrite port f => Sys2Proof.Machine.execYlpWrite port f s
  | .ylpWriteMasked port f => Sys2Proof.Machine.execYlpWriteMasked port f s
  | .ylpAtomic port f => Sys2Proof.Machine.execYlpAtomic port f s
  | .ylpReduce port f => Sys2Proof.Machine.execYlpReduce port f s
  | .ylpFence port f => Sys2Proof.Machine.execYlpFence port f s
  | .ylpProbe port f => Sys2Proof.Machine.execYlpProbe port f s
  | .ylpRetire port f => Sys2Proof.Machine.execYlpRetire port f s
  | .ylpReadData port f => Sys2Proof.Machine.execYlpReadData port f s
  | .ylpAck port f => Sys2Proof.Machine.execYlpAck port f s
  | .ylpAtomicResult port f => Sys2Proof.Machine.execYlpAtomicResult port f s
  | .ylpProbeAck port f => Sys2Proof.Machine.execYlpProbeAck port f s
  | .ylpBusy port f => Sys2Proof.Machine.execYlpBusy port f s
  | .ylpRefuse port f => Sys2Proof.Machine.execYlpRefuse port f s
  | .homeCompletion node seq => Sys2Proof.Machine.execHomeCompletion node seq s
  | .ackDelayExpiry node => Sys2Proof.Machine.execAckDelayExpiry node s
  | .busyWaitExpiry node => Sys2Proof.Machine.execBusyWaitExpiry node s
  | .retransmissionTimeout node => Sys2Proof.Machine.execRetransmissionTimeout node s
  | .frameLifeExpiry node => Sys2Proof.Machine.execFrameLifeExpiry node s
  | .probeTimer => Sys2Proof.Machine.execProbeTimer s
  | .retireTimer node => Sys2Proof.Machine.execRetireTimer node s
  | .replayAged h => Sys2Proof.Machine.execReplayAged h s
  | .refusalEntryExpiry => Sys2Proof.Machine.execRefusalEntryExpiry s
  | .roceRdmaWrite port part p => Sys2Proof.Machine.execRoceRdmaWrite port part p s
  | .roceRdmaReadRequest port p => Sys2Proof.Machine.execRoceRdmaReadRequest port p s
  | .roceRdmaReadResponse port p => Sys2Proof.Machine.execRoceRdmaReadResponse port p s
  | .roceSend port p => Sys2Proof.Machine.execRoceSend port p s
  | .roceAck port p => Sys2Proof.Machine.execRoceAck port p s
  | .roceNak port p retryable => Sys2Proof.Machine.execRoceNak port p retryable s
  | .roceCnp port p => Sys2Proof.Machine.execRoceCnp port p s
  | .roceAckTimeout conn => Sys2Proof.Machine.execRoceAckTimeout conn s
  | .roceRateIncrease conn => Sys2Proof.Machine.execRoceRateIncrease conn s
  | .connAct agent index => Sys2Proof.Machine.execConnAct agent index s
  | .connDeact agent index => Sys2Proof.Machine.execConnDeact agent index s
  | .grpAct agent index => Sys2Proof.Machine.execGrpAct agent index s
  | .grpDeact agent index => Sys2Proof.Machine.execGrpDeact agent index s
  | .ctrlData group slot => Sys2Proof.Machine.execCtrlData group slot s
  | .ctrlArrive group slot => Sys2Proof.Machine.execCtrlArrive group slot s
  | .ctrlRelease group slot => Sys2Proof.Machine.execCtrlRelease group slot s
  | .ctrlReset group slot => Sys2Proof.Machine.execCtrlReset group slot s
  | .ctrlDone group slot => Sys2Proof.Machine.execCtrlDone group slot s
  | .ctrlAbort group slot => Sys2Proof.Machine.execCtrlAbort group slot s
  | .creditReturn group rel => Sys2Proof.Machine.execCreditReturn group rel s
  | .collectiveStall group => Sys2Proof.Machine.execCollectiveStall group s
  | .snapshotStreamComplete => Sys2Proof.Machine.execSnapshotStreamComplete s
  | .doorbellPseqWrite ring pseq => Sys2Proof.Machine.execDoorbellPseqWrite ring pseq s
  | .doorbellCconsWrite ring ccons => Sys2Proof.Machine.execDoorbellCconsWrite ring ccons s
  | .itemWaitExpiry ring => Sys2Proof.Machine.execItemWaitExpiry ring s
  | .itemAccepted ring => Sys2Proof.Machine.execItemAccepted ring s
  | .acceptanceRecordTimer ring => Sys2Proof.Machine.execAcceptanceRecordTimer ring s
  | .itemStart ring => Sys2Proof.Machine.execItemStart ring s
  | .jobStart ring => Sys2Proof.Machine.execJobStart ring s
  | .widenRelease ring => Sys2Proof.Machine.execWidenRelease ring s
  | .ratioRelease ring => Sys2Proof.Machine.execRatioRelease ring s
  | .jobReset ring => Sys2Proof.Machine.execJobReset ring s
  | .jobEnd ring => Sys2Proof.Machine.execJobEnd ring s
  | .workNop ring => Sys2Proof.Machine.execWorkNop ring s
  | .badkindItem ring => Sys2Proof.Machine.execBadkindItem ring s
  | .itemDone ring => Sys2Proof.Machine.execItemDone ring s
  | .doneMarkMirrored ring => Sys2Proof.Machine.execDoneMarkMirrored ring s
  | .ringAct agent ring => Sys2Proof.Machine.execRingAct agent ring s
  | .ringDeact agent ring => Sys2Proof.Machine.execRingDeact agent ring s
  | .mbxLockRead agent m => Sys2Proof.Machine.execMbxLockRead agent m s
  | .mbxLockWrite agent m val => Sys2Proof.Machine.execMbxLockWrite agent m val s
  | .mbxWindowWrite agent m w val => Sys2Proof.Machine.execMbxWindowWrite agent m w val s
  | .post agent m => Sys2Proof.Machine.execPost agent m s
  | .take agent m => Sys2Proof.Machine.execTake agent m s
  | .mbxLockTimeout m => Sys2Proof.Machine.execMbxLockTimeout m s
  | .mbxMessageTimeout m => Sys2Proof.Machine.execMbxMessageTimeout m s
  | .arm agent => Sys2Proof.Machine.execArm agent s
  | .wardArmCheck node slot base len => Sys2Proof.Machine.execWardArmCheck node slot base len s
  | .fullCopyComplete => Sys2Proof.Machine.execFullCopyComplete s
  | .leave agent => Sys2Proof.Machine.execLeave agent s
  | .commit => Sys2Proof.Machine.execCommit s
  | .commitApply ward => Sys2Proof.Machine.execCommitApply ward s
  | .commitAck => Sys2Proof.Machine.execCommitAck s
  | .workingRowTally owner row words fp => Sys2Proof.Machine.execWorkingRowTally owner row words fp s
  | .heartbeatTimer node => Sys2Proof.Machine.execHeartbeatTimer node s
  | .hbLossExpiry node => Sys2Proof.Machine.execHbLossExpiry node s
  | .selfFence => Sys2Proof.Machine.execSelfFence s
  | .loss at_ => Sys2Proof.Machine.execLoss at_ s
  | .join at_ => Sys2Proof.Machine.execJoin at_ s
  | .change at_ => Sys2Proof.Machine.execChange at_ s
  | .confirm at_ => Sys2Proof.Machine.execConfirm at_ s
  | .holdoffExpiry => Sys2Proof.Machine.execHoldoffExpiry s
  | .resume at_ => Sys2Proof.Machine.execResume at_ s
  | .halt at_ => Sys2Proof.Machine.execHalt at_ s
  | .leaseExpiry node => Sys2Proof.Machine.execLeaseExpiry node s
  | .handover node => Sys2Proof.Machine.execHandover node s
  | .noticeRetry => Sys2Proof.Machine.execNoticeRetry s
  | .restoreGo agent => Sys2Proof.Machine.execRestoreGo agent s
  | .powerEstimate watts amps => Sys2Proof.Machine.execPowerEstimate watts amps s
  | .avsCurrentRead ok mv railAmps => Sys2Proof.Machine.execAvsCurrentRead ok mv railAmps s
  | .grant => Sys2Proof.Machine.execGrant s
  | .startDitherExpiry => Sys2Proof.Machine.execStartDitherExpiry s
  | .paceRaise causeGone => Sys2Proof.Machine.execPaceRaise causeGone s
  | .ladderStep => Sys2Proof.Machine.execLadderStep s
  | .idleVfloor => Sys2Proof.Machine.execIdleVfloor s
  | .thermalSample tj sensor => Sys2Proof.Machine.execThermalSample tj sensor s
  | .thermalAllowanceStep => Sys2Proof.Machine.execThermalAllowanceStep s
  | .coolantPoll readOk inlet flow faults => Sys2Proof.Machine.execCoolantPoll readOk inlet flow faults s
  | .lowFlowQuench => Sys2Proof.Machine.execLowFlowQuench s
  | .quench agent => Sys2Proof.Machine.execQuench agent s
  | .quenchIdle => Sys2Proof.Machine.execQuenchIdle s
  | .quenchEnd => Sys2Proof.Machine.execQuenchEnd s
  | .quenchLeaveTimer => Sys2Proof.Machine.execQuenchLeaveTimer s
  | .thermalTrip sensor reading => Sys2Proof.Machine.execThermalTrip sensor reading s
  | .thermalCycleSample tj => Sys2Proof.Machine.execThermalCycleSample tj s
  | .wearRecordWrite => Sys2Proof.Machine.execWearRecordWrite s
  | .selfTestRotation half => Sys2Proof.Machine.execSelfTestRotation half s
  | .run agent => Sys2Proof.Machine.execRun agent s
  | .portTest agent port => Sys2Proof.Machine.execPortTest agent port s
  | .queuedTestRun => Sys2Proof.Machine.execQueuedTestRun s
  | .powerGood => Sys2Proof.Machine.execPowerGood s
  | .powerLoss rail => Sys2Proof.Machine.execPowerLoss rail s
  | .rstNAssert => Sys2Proof.Machine.execRstNAssert s
  | .startStepComplete r => Sys2Proof.Machine.execStartStepComplete r s
  | .startTimerExpiry => Sys2Proof.Machine.execStartTimerExpiry s
  | .portRetryTimer => Sys2Proof.Machine.execPortRetryTimer s
  | .joinSpreadExpiry => Sys2Proof.Machine.execJoinSpreadExpiry s
  | .admissionAnswer => Sys2Proof.Machine.execAdmissionAnswer s
  | .admitWaitExpiry => Sys2Proof.Machine.execAdmitWaitExpiry s
  | .watchdogExpiry => Sys2Proof.Machine.execWatchdogExpiry s
  | .attestationRequest => Sys2Proof.Machine.execAttestationRequest s
  | .mgmtMailboxRequest => Sys2Proof.Machine.execMgmtMailboxRequest s
  | .resetFrame port send => Sys2Proof.Machine.execResetFrame port send s
  | .cfgStageWrite agent setPref => Sys2Proof.Machine.execCfgStageWrite agent setPref s
  | .slotWriteComplete flashOk => Sys2Proof.Machine.execSlotWriteComplete flashOk s
  | .cfgCommit agent => Sys2Proof.Machine.execCfgCommit agent s
  | .apply agent => Sys2Proof.Machine.execApply agent s
  | .eventRecord => Sys2Proof.Machine.execEventRecord s
  | .freeze agent => Sys2Proof.Machine.execFreeze agent s
  | .thaw agent => Sys2Proof.Machine.execThaw agent s
  | .freezeLimitExpiry => Sys2Proof.Machine.execFreezeLimitExpiry s
  | .evrWindowRead agent w eccErr => Sys2Proof.Machine.execEvrWindowRead agent w eccErr s
  | .brownOut => Sys2Proof.Machine.execBrownOut s
  | .brownOutRecovery => Sys2Proof.Machine.execBrownOutRecovery s
  | .selfRefreshReentry h chan => Sys2Proof.Machine.execSelfRefreshReentry h chan s
  | .forecastWindowDue => Sys2Proof.Machine.execForecastWindowDue s
  | .captureComplete group => Sys2Proof.Machine.execCaptureComplete group s
  | .trayPeerDiscovery port node epoch slot => Sys2Proof.Machine.execTrayPeerDiscovery port node epoch slot s

end Sys2Proof.Machine
end

