-- ==== Sys2Proof/Safety.lean ====
section
/-! DEFINITION. The terms claims use: the invariants that steps keep, what it is for a command to answer a
state with a property, and what a step leaves alone. -/

namespace Sys2Proof.Machine

/-- The memory keeps its canonical form. -/
def Inv (s : State) : Prop := Memory.wf s.mem = true

/-- The register files and anvils of a core have the sizes of R175 and Table 1-2. -/
def coreSized (c : Core) : Bool :=
  c.g.length = 32 && c.sc.length = 16 && c.v.length = 64 && c.anvils.length = 4

/-- The units of the device are as many as Table 1-2 gives: 128 cores, 16 hearths, 16 domains, 8 ports, 32 mailboxes. -/
def sized (s : State) : Bool :=
  s.cores.length = 128 && s.cores.all coreSized && s.hearths.length = 16 && s.domains.length = 16
    && s.ports.length = 8 && s.mbx.length = 32

/-- The command answers a next state, and that state has the property. -/
def Answers (c : Instr) (s : State) (P : State → Prop) : Prop :=
  ∃ t, exec c s = .next t ∧ P t

/-- Every byte of memory reads as before. -/
def memSame (s t : State) : Prop := ∀ a, readByte t a = readByte s a

/-- Every byte of memory outside `n` bytes from `lo` reads as before. -/
def memSameOutside (s t : State) (lo n : Nat) : Prop :=
  ∀ a, a < lo ∨ lo + n ≤ a → readByte t a = readByte s a

/-- Every management register but the listed ones holds what it held. -/
def regsSameBut (s t : State) (as : List Nat) : Prop := ∀ a, a ∉ as → getR t a = getR s a

/-- Nothing but one core changed: every other field of the state, and every other core, is as before. -/
def coreOnly (s t : State) (i : Nat) : Prop := t = { s with cores := s.cores.set i (coreAt t i) }

/-- Nothing but one core, the management registers and the recorder's waiting records changed. -/
def coreRegsRec (s t : State) (i : Nat) : Prop :=
  t = { s with cores := s.cores.set i (coreAt t i), regs := t.regs, recorder := t.recorder }

/-! ## Core instructions -/

/-- The counter that the completion of an instruction signals has room (R183, R186). -/
def sigRoom (s : State) (i : Nat) (k : CtxId) (f : Fields) : Bool :=
  !f.sigen || decide (readSc s i (physSc (isSplit s i) k f.sigc.toNat) < 0xFFFFFFFF)

/-- The context issues, the fields are legal, the predicate holds and no write of a g register that the instruction
names is outstanding (R172, R176, R181, R182). -/
def issues (s : State) (i : Nat) (k : CtxId) (f : Fields) (sh : Shape) (legal : Bool) : Bool :=
  sized s && canIssue s i k && fieldsOk (isSplit s i) sh f && legal && predicate s i k f && !gHazard s i k sh f

/-- A control instruction issues and its signal, if any, has room. -/
def ctlGo (s : State) (i : Nat) (k : CtxId) (f : Fields) (sh : Shape) (legal : Bool) : Bool :=
  issues s i k f sh legal && sigRoom s i k f

/-- A core with a g register of a context written; g0 stays (R175). -/
def setG (s : State) (i : Nat) (k : CtxId) (n : Nat) (v : Word64) (c : Core) : Core :=
  if n = 0 then c else { c with g := c.g.set (physG (isSplit s i) k n) v }

/-- A core with a p register of a context written. -/
def setP (s : State) (i : Nat) (k : CtxId) (n : Nat) (v : Bool) (c : Core) : Core :=
  { c with p := BitVec.ofNat 8 (putBits (physP (isSplit s i) k n) (physP (isSplit s i) k n) c.p.toNat (if v then 1 else 0)) }

/-- A core whose signal counter of the instruction is one greater, when SIGEN is 1 (R183). -/
def signalled (s : State) (i : Nat) (k : CtxId) (f : Fields) (c : Core) : Core :=
  let n := physSc (isSplit s i) k f.sigc.toNat
  if f.sigen then { c with sc := c.sc.set n (BitVec.ofNat 32 ((c.sc.getD n 0).toNat + 1)) } else c

/-- A core whose context stands at the next instruction, with the loops of R190 counted. -/
def stepped (k : CtxId) (c : Core) : Core :=
  c.setCtx k { (c.ctx k) with
    pc := (loopStep (c.ctx k).pc (c.ctx k).loops).1, loops := (loopStep (c.ctx k).pc (c.ctx k).loops).2 }

/-- A core after a control instruction that does not branch. -/
def ctlEnd (s : State) (i : Nat) (k : CtxId) (f : Fields) (c : Core) : Core := signalled s i k f (stepped k c)

/-- A core whose context took a branch: loops whose body does not hold the target are popped (R190). -/
def branched (k : CtxId) (target : Nat) (c : Core) : Core :=
  c.setCtx k { (c.ctx k) with
    pc := target, loops := (c.ctx k).loops.filter fun e => e.start ≤ target && target ≤ e.stop }

/-- A core whose context is held. -/
def heldFor (k : CtxId) (h : SeqHold) (c : Core) : Core := c.setCtx k { (c.ctx k) with hold := h, stat := .held }

/-- A fault of the core is recorded and the context abandoned (R204, R205): memory and the other cores are as before. -/
def faulted (s t : State) (i : Nat) (k : CtxId) (queue code : Nat) : Prop :=
  (ctxAt t i k).stat = .aborting ∧ getF t (CORE_FAULT i) CORE_FAULT_CODE = code
    ∧ getF t (CORE_FAULT i) CORE_FAULT_QUEUE = queue
    ∧ getF t (CORE_FAULTPC i) CORE_FAULTPC_PC = (ctxAt s i k).pc % 2 ^ 21
    ∧ coreRegsRec s t i

/-- The context can fault: it is not over. -/
def live (s : State) (i : Nat) (k : CtxId) : Bool := sized s && canIssue s i k && !(ctxAt s i k).over

/-- The form of a control instruction: core, context, fields, the fields it uses, and whether its codes are legal
(R181, Table 7-7). SIGNAL and WAIT are control instructions when their QUEUE is 0. -/
def ctlForm (s : State) : Instr → Option (CoreId × CtxId × Fields × Shape × Bool)
  | .nop i k f => some (i, k, f, {}, true)
  | .br i k f => some (i, k, f, { imm := maskBits 20 0 }, true)
  | .bri i k f => some (i, k, f, { imm := imm64, a := .g }, true)
  | .brl i k f => some (i, k, f, { imm := maskBits 20 0, d := .g }, true)
  | .loop i k f => some (i, k, f, { imm := maskBits 20 0, a := .g }, loopLegal s i k f)
  | .setp i k f => some (i, k, f, immShape f .pd, ctlCode f ≤ 5)
  | .plog i k f => some (i, k, f, { mod := modMask 110 107, d := .pd, a := .p, b := .p }, ctlCode f ≤ 3)
  | .movi i k f => some (i, k, f, { imm := imm64, d := .g }, true)
  | .alu i k f => some (i, k, f, immShape f .g, ctlCode f ≤ 12)
  | .ldg i k f _ => some (i, k, f, { imm := imm64, d := .g, a := .g }, true)
  | .stg i k f => some (i, k, f, { imm := imm64, a := .g, b := .g }, true)
  | .rdtime i k f => some (i, k, f, { d := .g }, true)
  | .rdreg i k f => some (i, k, f, { imm := maskBits 11 0, d := .g }, true)
  | .wrreg i k f => some (i, k, f, { imm := maskBits 11 0, b := .g }, true)
  | .signal i k f => if sigQueue f = 0 then some (i, k, f, sigShape, sigLegal s i f) else none
  | .wait i k f => if sigQueue f = 0 then some (i, k, f, sigShape, sigLegal s i f) else none
  | .fence i k f => some (i, k, f, { mod := modMask 110 107 }, ctlCode f != 0)
  | .yieldIf i k f => some (i, k, yieldMode f false, yieldShape (isSplit s i), true)
  | .yieldNow i k f => some (i, k, yieldMode f true, yieldShape (isSplit s i), true)
  | .done i k f => some (i, k, f, {}, true)
  | .note i k f => some (i, k, f, { sub := maskBits 15 0, a := .g, b := .g }, true)
  | _ => none

/-! ## Instructions that enter a queue -/

/-- The form of an instruction that enters a queue: where it issues, its queue and opcode, its fields, those it uses,
whether its codes are legal, and the fault that its operands raise at issue (Tables 7-8, 7-10, 7-14, 7-15). -/
structure QForm where
  i : CoreId
  k : CtxId
  q : Queue
  op : Nat
  f : Fields
  sh : Shape
  legal : Bool
  check : QEntry → Option Nat

/-- A tile instruction is checked against the projected state of its anvils too (R120). -/
def tileForm (s : State) (i : CoreId) (k : CtxId) (op : Nat) (f : Fields) (sh : Shape) (legal : Bool)
    (check : QEntry → Option Nat) : QForm :=
  ⟨i, k, laneOf s i k, op, f, sh, legal && anvLegal f, fun e => firstFault [check e, tileCheck s i k e]⟩

def vecForm (i : CoreId) (k : CtxId) (op : Nat) (f : Fields) (sh : Shape) (legal : Bool)
    (check : QEntry → Option Nat) : QForm := ⟨i, k, .vec, op, f, sh, legal, check⟩

/-- Groups of a lane operation, by opcode: A, B and D, or A and D. -/
def laneForm (s : State) (i : CoreId) (k : CtxId) (op : Nat) (f : Fields) (sh : Shape) (legal : Bool)
    (gs : List (BitVec 6 × Nat)) : QForm := vecForm i k op f sh legal fun _ => groupsCheck s i f gs

def fcollForm (i : CoreId) (k : CtxId) (op : Nat) (f : Fields) : QForm :=
  ⟨i, k, .fab, opFcoll, fcollFields f op, { mod := modMask 110 107, a := .g }, true, fun e => csCheck e.ga.toNat 64 8⟩

/-- The form of a tile instruction (Table 7-8). -/
def tileOf (s : State) : Instr → Option QForm
  | .azero i k f => some (tileForm s i k 0x20 f azeroShape true fun _ => none)
  | .aload i k f => some (tileForm s i k 0x21 f aloadShape true aloadCheck)
  | .aswap i k f => some (tileForm s i k 0x22 f aswapShape true fun _ => none)
  | .amac i k f => some (tileForm s i k 0x23 f amacShape (amacLegal f) amacCheck)
  | .adrain i k f => some (tileForm s i k 0x24 f (adrainShape f) (adrainDest f ≤ 1) adrainCheck)
  | _ => none

/-- The form of a lane operation of the vector engine (Table 7-10). -/
def laneOpOf (s : State) : Instr → Option QForm
  | .vadd i k f => some (laneForm s i k 0x40 f lane3 true [(f.a, 1), (f.b, 1), (f.d, 1)])
  | .vsub i k f => some (laneForm s i k 0x41 f lane3 true [(f.a, 1), (f.b, 1), (f.d, 1)])
  | .vmin i k f => some (laneForm s i k 0x43 f lane3 true [(f.a, 1), (f.b, 1), (f.d, 1)])
  | .vmax i k f => some (laneForm s i k 0x44 f lane3 true [(f.a, 1), (f.b, 1), (f.d, 1)])
  | .vcmp i k f => some (laneForm s i k 0x45 f { lane3 with mod := modMask 110 107 } (f.modBits 110 107 ≤ 3)
      [(f.a, 1), (f.b, 1), (f.d, 1)])
  | .vsel i k f => some (laneForm s i k 0x46 f { lane3 with c := .v } true [(f.a, 1), (f.b, 1), (f.c, 1), (f.d, 1)])
  | .vabs i k f => some (laneForm s i k 0x47 f lane2 true [(f.a, 1), (f.d, 1)])
  | .vneg i k f => some (laneForm s i k 0x48 f lane2 true [(f.a, 1), (f.d, 1)])
  | .vshl i k f => some (laneForm s i k 0x49 f { lane2 with imm := maskBits 11 0 } true [(f.a, 1), (f.d, 1)])
  | .vrsh i k f => some (laneForm s i k 0x4A f { lane2 with imm := maskBits 5 0 } true [(f.a, 1), (f.d, 1)])
  | .vradd i k f => some (laneForm s i k 0x4F f lane3 true [(f.a, 1), (f.b, 1), (f.d, 1)])
  | _ => none

/-- The form of every other vector or convert instruction. -/
def vecOf (s : State) : Instr → Option QForm
  | .vmul i k f => some (laneForm s i k 0x42 f lane3 true [(f.a, 1), (f.b, 1), (f.d, 2)])
  | .vresc i k f => some (laneForm s i k 0x4B f { lane2 with mod := modMask 104 104, imm := maskBits 11 0 } true
      (if f.modBits 104 104 = 1 then [(f.a, 1)] else [(f.a, 1), (f.d, 1)]))
  | .vmov i k f => some (laneForm s i k 0x4C f lane2 true [(f.a, 1), (f.d, 1)])
  | .vsplat i k f => some (laneForm s i k 0x4D f
      { mod := modMask 104 104, sub := nregMask, imm := maskBits 11 0, d := .v, a := .g } true [(f.d, 1)])
  | .vmovg i k f => some (vecForm i k 0x4E f { mod := modMask 104 104, imm := maskBits 7 0, d := .g, a := .v } true
      fun _ => none)
  | .vld i k f _ => some (vecForm i k 0x50 f rowShape true fun e => vldCheck s i e)
  | .vst i k f => some (vecForm i k 0x51 f rowShape true fun e => vstCheck s i e)
  | .vqnt i k f => some (vecForm i k 0x52 f { sub := nregMask, imm := imm64, d := .v, a := .g } true
      fun e => vqntCheck s i e)
  | .vcvt i k f => some (vecForm i k 0x53 f { mod := modMask 104 104, sub := maskBits 9 2, a := .g, b := .g, c := .g }
      true vcvtCheck)
  | .vrsum i k f => some (laneForm s i k 0x54 f lane2 true [(f.a, 1)])
  | .vrmax i k f => some (laneForm s i k 0x55 f lane2 true [(f.a, 1)])
  | .vrcnt i k f => some (laneForm s i k 0x56 f lane2 true [(f.a, 1)])
  | .vrssq i k f => some (laneForm s i k 0x57 f lane2 true [(f.a, 1)])
  | .vsqadd i k f => some (laneForm s i k 0x58 f lane3 true [(f.a, 1), (f.b, 1), (f.d, 1)])
  | .vact i k f => some (vecForm i k 0x59 f { sub := nregMask, imm := imm64, d := .v, a := .v, b := .g } true
      fun e => vactCheck s i e)
  | .vumu i k f => some (vecForm i k 0x5A f { d := .g, a := .g, b := .g } true vumuCheck)
  | .vupd i k f => some (vecForm i k 0x5B f { d := .g, a := .g, b := .g, c := .g } true vupdCheck)
  | .vgacc i k f => some (vecForm i k 0x5C f { sub := nregMask, a := .v, b := .g, c := .g } true
      fun e => vgaccCheck s i e)
  | .vrand i k f => some (laneForm s i k 0x5D f { sub := nregMask, imm := maskBits 11 0, d := .v, a := .g, b := .g }
      true [(f.d, 1)])
  | .vmark i k f => some (vecForm i k 0x5E f { a := .g } true vmarkCheck)
  | _ => none

/-- The form of a move, fabric or collective instruction (Tables 7-14, 7-15). -/
def moveOf : Instr → Option QForm
  | .mcopy i k f => some ⟨i, k, .tongs, 0x80, f, { mod := modMask 110 105, imm := imm64, a := .g, b := .g, c := .g },
      mcopyLegal f, mcopyCheck⟩
  | .mfill i k f => some ⟨i, k, .tongs, 0x81, f, { mod := modMask 106 105, imm := imm64, b := .g, c := .g },
      f.modBits 106 105 != 3, mfillCheck⟩
  | .fput i k f => some ⟨i, k, .fab, 0xA0, f, putShape, putLegal f, fun e => putCheck e e.ga e.gb⟩
  | .fget i k f => some ⟨i, k, .fab, 0xA1, f, putShape, putLegal f, fun e => putCheck e e.ga e.gb⟩
  | .fsend i k f => some ⟨i, k, .fab, 0xA2, f, { sub := maskBits 15 0, imm := maskBits 31 0, a := .g }, true, fsendCheck⟩
  | .fatom i k f => some ⟨i, k, .fab, 0xA3, f, { mod := modMask 110 105, d := .g, a := .g, b := .g, c := .g },
      fatomLegal f, fatomCheck⟩
  | .fred i k f => some ⟨i, k, .fab, 0xA4, f, { mod := modMask 110 105, imm := maskBits 31 0, a := .g, b := .g },
      fredLegal f, fredCheck⟩
  | .fgath i k f => some ⟨i, k, .fab, 0xA5, f, { imm := maskBits 12 0, a := .g, b := .g }, true, fgathCheck⟩
  | .fbar i k f => some ⟨i, k, .fab, 0xA6, f, { sub := maskBits 15 0 }, true, fun _ => none⟩
  | .fcollReduceScatter i k f => some (fcollForm i k 0 f)
  | .fcollAllGather i k f => some (fcollForm i k 1 f)
  | .fcollAllReduce i k f => some (fcollForm i k 2 f)
  | .fcollBroadcast i k f => some (fcollForm i k 3 f)
  | .fcollStepEnd i k f => some (fcollForm i k 4 f)
  | .fsnap i k f => some ⟨i, k, .fab, 0xA8, f, { sub := maskBits 15 0, a := .g }, true, fun _ => none⟩
  | _ => none

/-- The form of an instruction of any queue. -/
def queueForm (s : State) (c : Instr) : Option QForm :=
  (((tileOf s c).orElse fun _ => laneOpOf s c).orElse fun _ => vecOf s c).orElse fun _ => moveOf c

/-- The entry that an instruction forms. -/
def QForm.entry (x : QForm) (s : State) (off : Bool) (ecc : Bool := false) : QEntry := newEntry s x.i x.k x.op x.f off ecc

/-- The instruction issues into an empty queue, its operands raise no fault and the data it reads holds no error. -/
def queueGo (s : State) (x : QForm) : Bool :=
  issues s x.i x.k x.f x.sh x.legal && ((coreAt s x.i).queue x.q).isEmpty && (x.check (x.entry s false)).isNone
    && !x.f.dataBad

/-- A core whose empty queue took an entry, its context at the next instruction. -/
def queued (x : QForm) (e : QEntry) (c : Core) : Core :=
  stepped x.k { c.setQueue x.q [e] with nextQid := c.nextQid + 1 }

/-- The vector engine runs the instruction at once: its queue is empty and its start is granted (R385). -/
def vecGo (s : State) (x : QForm) : Bool := queueGo s x && (coreAt s x.i).veGrant

/-- The core when a vector entry has started; the grant is used. -/
def vecStarted (s : State) (x : QForm) (ecc : Bool := false) : Core :=
  { queued x { x.entry s false ecc with started := true, finished := true } (coreAt s x.i) with veGrant := false }

/-- What a vector instruction leaves alone, but for the vector registers, memory and the named registers. -/
def vecFrame (s t : State) (x : QForm) (as : List Nat) (ecc : Bool := false) : Prop :=
  t = { s with cores := s.cores.set x.i (coreAt t x.i), regs := t.regs } ∧ regsSameBut s t as ∧
  coreAt t x.i = { vecStarted s x ecc with v := (coreAt t x.i).v }

/-- As `vecFrame`, for an instruction that stores `n` bytes at `off` of core store; records may wait (R59, R437). -/
def vecStoreFrame (s t : State) (x : QForm) (as : List Nat) (off n : Nat) : Prop :=
  t = { s with cores := s.cores.set x.i (vecStarted s x), regs := t.regs, mem := t.mem, recorder := t.recorder } ∧
  regsSameBut s t as ∧ memSameOutside s t (csBase x.i + off) n

/-- The vector registers of a core after a group was written: the group holds `rs`, the others what they held. -/
def groupIs (s t : State) (x : QForm) (d : Nat) (rs : List VReg) : Prop :=
  ∀ n, vregAt t x.i n =
    if physV (isSplit s x.i) x.k d ≤ n ∧ n < physV (isSplit s x.i) x.k d + rs.length then
      rs.getD (n - physV (isSplit s x.i) x.k d) .clear
    else vregAt s x.i n

/-- The count of vector saturations grew by `n` (R152). -/
def vsatIs (s t : State) (i n : Nat) : Prop :=
  getF t (CORE_VSATCNT i) CORE_VSATCNT_VSAT = satAdd 0xFFFFFFFF (getF s (CORE_VSATCNT i) CORE_VSATCNT_VSAT) n

/-- The registers an operand names: NREG of them. -/
def QForm.opA (x : QForm) (s : State) : List VReg := group s x.i x.k x.f.a.toNat (nregOf x.f)
def QForm.opB (x : QForm) (s : State) : List VReg := group s x.i x.k x.f.b.toNat (nregOf x.f)
def QForm.opC (x : QForm) (s : State) : List VReg := group s x.i x.k x.f.c.toNat (nregOf x.f)
def QForm.opD (x : QForm) (s : State) : List VReg := group s x.i x.k x.f.d.toNat (nregOf x.f)

/-- What a lane operation gives for each register of its group (R152, R153, R84): none is the format fault. -/
def laneResults (s : State) (x : QForm) : List LaneRes :=
  let a := x.opA s
  let b := x.opB s
  match x.op with
  | 0x40 => zipLanes (laneBin (· + ·)) a b
  | 0x41 => zipLanes (laneBin (· - ·)) a b
  | 0x43 => zipLanes (laneBin min) a b
  | 0x44 => zipLanes (laneBin max) a b
  | 0x45 => zipLanes (laneCmp (x.f.modBits 110 107)) a b
  | 0x46 => (a.zip (b.zip (x.opC s))).map fun p => laneSel p.1 p.2.1 p.2.2
  | 0x47 => a.map (laneUn fun c => (c.natAbs : Int))
  | 0x48 => a.map (laneUn fun c => -c)
  | 0x49 => a.map (laneShl (sext 12 (x.f.immBits 11 0)))
  | 0x4A => a.map (laneUn fun c => rne c (x.f.immBits 5 0))
  | _ => zipLanes laneRawAdd a b

/-- The queue holds the entry alone, started and not yet complete. -/
def startedIn (t : State) (x : QForm) (e : QEntry) : Prop :=
  ∃ e', (coreAt t x.i).queue x.q = [e'] ∧ e'.qid = e.qid ∧ e'.op = e.op ∧ e'.started = true ∧ e'.finished = false

/-- No byte of a range lies in a poisoned line. -/
def clean (s : State) (a n : Nat) : Prop := ∀ b, a ≤ b → b < a + n → poisoned s b = false

/-- A range of the device's DRAM that any agent may access. -/
def openDram (s : State) (a n : Nat) : Prop := a < 2 ^ 40 ∧ 0 < n ∧ assigned s a n = true ∧ clean s a n

/-- Requests outstanding or waiting towards a node. -/
def pendingTo (s : State) (node : Nat) : Nat := (dstAt s node).standing.length + (dstAt s node).waiting.length

/-- Only tile entries and entries that have started stand in the lanes of a core. -/
def lanesTile (s : State) (i : Nat) : Bool :=
  ((coreAt s i).anv0 ++ (coreAt s i).anv1).all fun e => e.started || (isTile e && !e.off)

/-- Every other anvil of a core is as it was. -/
def otherAnvils (s t : State) (i a : Nat) : Prop := ∀ b, b ≠ a → anvilAt t i b = anvilAt s i b

/-! ## Registers, domains and tasks -/

/-- A register whose write starts nothing: neither an action, a lock nor a window. -/
def plainReg (a : Nat) : Bool :=
  !isLockReg a && !isDataReg a && !isMboxCtl a && !isTileCtl a && !isPortCtl a && !isWindowReg a
    && !([MEM_RGN, FAB_CONN_CTL, COL_GRP_CTL, WRK_RING_CTL, WRK_CTL, MEM_MRG_CTL, SURV_CTL, SURV_RST_CTL, PWR_TEST,
      THM_QCTL, CFG_COMMIT, CFG_STAGE_CTL, TRU_CHG_CTL, EVR_CTL].contains a)

/-- Every domain but one is in the state it was in, with its register field. -/
def otherDoms (s t : State) (u : Nat) : Prop :=
  ∀ v : DomId, v.val ≠ u → domState t v = domState s v ∧ domainAt t v = domainAt s v

/-- Nothing but the domains and their register changed. -/
def domOnly (s t : State) (u : Nat) : Prop :=
  t = { s with regs := t.regs, domains := t.domains } ∧ regsSameBut s t [DEV_DOM_STATE] ∧ otherDoms s t u

/-- No domain of the device has a command waiting or held. -/
def domQuiet (s : State) : Bool := s.domains.all fun d => d.pending.isEmpty && d.held.isEmpty

/-- The core holds no task. -/
def taskGone (c : Core) : Core :=
  { c with
    anvils := c.anvils.map fun x => { x with lastPass := none, poison := false }, heldWaits := [], task := none
    ended := none, endedParts := 0, preq := none, upd := [], ctx0 := .reset, ctx1 := .reset }

/-- Nothing but one core and the ready queues of the hearths changed. -/
def coreAndReady (s t : State) (i : Nat) : Prop :=
  t = { s with cores := s.cores.set i (coreAt t i), hearths := t.hearths }

/-! ## The fabric -/

/-- Nothing on the device waits for an event of the fabric. -/
def fabCalm (s : State) : Bool :=
  s.cores.all (fun c => c.fab.isEmpty && c.tongs.all (·.started)) && s.coll.insts.isEmpty && s.surv.failedRows.isEmpty && s.surv.partner.isNone
    && s.ylp.tx.all (!·.unreach)

/-- No fabric instruction waits, and no group has set an instance aside. -/
def collCalm (s : State) : Bool :=
  s.cores.all (fun c => c.fab.isEmpty && c.tongs.all (·.started)) && s.coll.groups.all (·.later.isNone)

/-- Every queue of every core is empty. -/
def queuesEmpty (s : State) : Bool := s.cores.all fun c =>
  c.anv0.isEmpty && c.anv1.isEmpty && c.vec.isEmpty && c.tongs.isEmpty && c.fab.isEmpty

/-- The frame is accepted on the port (R269, R275, R276, R278), and the device answers, with no pause of the priority. -/
def frameTaken (s : State) (port : PortId) (f : YlpFrame) : Bool :=
  portUpNow s port && ylpTaken s port f && joined s && !fenced s && f.icrc == icrcOf f && !frameDropped s f
    && !pausedAt s port (getF s FAB_CTL FAB_CTL_YLP_PCP)

/-- The request is the next of its source, well formed and admitted, and its port has room for it (R279, R282). -/
def inTurn (s : State) (port : PortId) (r : RxSrc) (f : YlpFrame) : Bool :=
  decide (rxAt s f.src.toNat = some r) && f.epoch.toNat == r.epoch && f.seq.toNat == r.expect && !requestMalformed f
    && refusedStatus s f == 0 && !ingressFull s port f

/-- The source's next sequence number is the next one. -/
def tookSeq (t : State) (f : YlpFrame) : Prop :=
  (rxAt t f.src.toNat).map (·.expect) = some ((f.seq.toNat + 1) % 2 ^ 24)

/-- What has left but for the pause frames of R270. -/
def dataOut (s : State) : List Out := s.egress.filter fun
  | .pfc .. => false
  | _ => true

/-- One frame left on a port, to the address of a node's port and from that of the own port (R274). -/
def oneFrame (s t : State) (port : PortId) (P : YlpFrame → Prop) : Prop :=
  ∃ g, dataOut t = dataOut s ++ [.ylp port g] ∧ g.eth = ylpEth s g.dst.toNat port ∧ P g

/-- A destination with one request outstanding, which the acknowledgement of the frame does not move. -/
def awaiting (s : State) (d : TxDst) (r : TxReq) (f : YlpFrame) : Prop :=
  s.ylp.tx = [d] ∧ d.node = f.src.toNat ∧ d.unacked = [r] ∧ d.replies = [] ∧ d.waiting = [] ∧ r.seq = f.seq.toNat ∧ r.replied = false ∧
  seqDiff d.acked r.seq ≤ 0 ∧ seqDiff (seqAdd f.ack.toNat 1) d.acked ≤ 0

/-- Packets left on the connection's port, with its headers (R298, Table 10-9). -/
def roceSent (s t : State) (c : Conn) (l : List (Nat × RoceBody)) : Prop :=
  dataOut t = dataOut s ++ l.map fun x => .roce c.port (roceHead s c) x.1 x.2

/-- Action 7 has written the layer input records, at the addresses of log entry 44: said for jobs of no layer and of one. -/
def inputsWritten (s : State) (j : Job) (t : State) : Prop :=
  (jobLayers s = 0 → t = { s with job := t.job }) ∧
  (jobLayers s = 1 → openDram s (Config.layerInputAt j.desc 0) 64 → t.cores = s.cores ∧ t.regs = s.regs ∧
    readWords t (Config.layerInputAt j.desc 0) 8 = layerInput s j 0 ∧ memSameOutside s t (Config.layerInputAt j.desc 0) 64)

/-- The packet reaches its connection (R298, R299). -/
def roceTaken (s : State) (port : PortId) (ext : Nat) (p : RocePkt) (c : Conn) : Bool :=
  portUpNow s port && roceSorted s port ext p && !fenced s && p.icrcOk && p.cls == .listed && !p.ecnCe && fabCalm s
    && decide (s.conns = [c]) && !c.error && p.dqpn.toNat == 0x100 + c.index && portUpNow s c.port
    && !pausedAt s c.port (getF s FAB_CTL FAB_CTL_ROCE_PCP)

end Sys2Proof.Machine
end

