-- ==== Sys2Proof/Certificates/Slice0/Obligations.lean ====
section
/-! DEFINITION. The statements for the provers: what each command does, by the rules of the spec, the frames of the
families, and the invariants that every step keeps. -/

open Sys2Proof Sys2Proof.Machine

/-! ## Core instructions that complete at issue (R181 to R191) -/

/-- R182, R183, R189 to R191: NOP, MOVI, ALU, SETP, PLOG and RDTIME write the register they name and nothing else but the
program counter and the counter they signal.

R190: BR, BRI and BRL go to their target and pop the loops that do not hold it, BRL with the address of the next
instruction in gD; LOOP pushes its body, or passes it when its count is 0. -/
def Obligations.ControlResults : Prop :=
  (∀ (i : CoreId) (k : CtxId) (f : Fields) (s : State),
    (ctlGo s i k f {} true = true → Answers (.nop i k f) s fun t =>
      coreOnly s t i ∧ coreAt t i = ctlEnd s i k f (coreAt s i)) ∧
    (ctlGo s i k f { imm := imm64, d := .g } true = true → Answers (.movi i k f) s fun t =>
      coreOnly s t i ∧ coreAt t i = ctlEnd s i k f (setG s i k f.d.toNat f.imm (coreAt s i))) ∧
    (ctlGo s i k f (immShape f .g) (ctlCode f ≤ 12) = true → Answers (.alu i k f) s fun t =>
      coreOnly s t i ∧ coreAt t i = ctlEnd s i k f (setG s i k f.d.toNat
        (aluG (ctlCode f) (readG s i k f.a.toNat) (secondOperand s i k f)) (coreAt s i))) ∧
    (ctlGo s i k f (immShape f .pd) (ctlCode f ≤ 5) = true → Answers (.setp i k f) s fun t =>
      coreOnly s t i ∧ coreAt t i = ctlEnd s i k f (setP s i k f.d.toNat
        (compareG (ctlCode f) (readG s i k f.a.toNat) (secondOperand s i k f)) (coreAt s i))) ∧
    (ctlGo s i k f { mod := modMask 110 107, d := .pd, a := .p, b := .p } (ctlCode f ≤ 3) = true →
      Answers (.plog i k f) s fun t =>
      coreOnly s t i ∧ coreAt t i = ctlEnd s i k f (setP s i k f.d.toNat
        (logicP (ctlCode f) (readP s i k f.a.toNat) (readP s i k f.b.toNat)) (coreAt s i))) ∧
    (ctlGo s i k f { d := .g } true = true → Answers (.rdtime i k f) s fun t =>
      coreOnly s t i ∧ coreAt t i = ctlEnd s i k f (setG s i k f.d.toNat
        (w64 (if i.val < 64 then s.time.ns else s.time.half1)) (coreAt s i)))) ∧
  (∀ (i : CoreId) (k : CtxId) (f : Fields) (s : State),
    (ctlGo s i k f { imm := maskBits 20 0 } true = true → targetCheck (brTarget f) = none →
      Answers (.br i k f) s fun t =>
      coreOnly s t i ∧ coreAt t i = signalled s i k f (branched k (brTarget f) (coreAt s i))) ∧
    (ctlGo s i k f { imm := imm64, a := .g } true = true →
      targetCheck (addrOf (readG s i k f.a.toNat) f) = none → Answers (.bri i k f) s fun t =>
      coreOnly s t i ∧ coreAt t i = signalled s i k f
        (branched k (addrOf (readG s i k f.a.toNat) f) (coreAt s i))) ∧
    (ctlGo s i k f { imm := maskBits 20 0, d := .g } true = true → targetCheck (brTarget f) = none →
      Answers (.brl i k f) s fun t =>
      coreOnly s t i ∧ coreAt t i = signalled s i k f (branched k (brTarget f)
        (setG s i k f.d.toNat (w64 ((ctxAt s i k).pc + 16)) (coreAt s i)))) ∧
    (ctlGo s i k f { imm := maskBits 20 0, a := .g } (loopLegal s i k f) = true →
      targetCheck (brTarget f) = none →
      (readG s i k f.a.toNat = 0 ∨ (ctxAt s i k).loops.length < loopDepth s i) →
      Answers (.loop i k f) s fun t =>
      coreOnly s t i ∧ coreAt t i = signalled s i k f ((coreAt s i).setCtx k
        (if readG s i k f.a.toNat = 0 then { (ctxAt s i k) with pc := (brTarget f + 16) % 2 ^ 21 }
        else { (ctxAt s i k) with
          pc := ((ctxAt s i k).pc + 16) % 2 ^ 21
          loops := ⟨(readG s i k f.a.toNat).toNat, (ctxAt s i k).pc + 16, brTarget f⟩ :: (ctxAt s i k).loops }))))

/-- R189: LDG reads and STG writes one aligned word of the core's own core store, at gA plus IMM.

R191: RDREG reads a register of the core's own block as a management read does; WRREG writes FLOOR_MODE, or clears the
bits it names of CORE_NUMSTAT or CORE_UPDSTAT; NOTE writes its record. -/
def Obligations.WordsAndOwnRegisters : Prop :=
  (∀ (i : CoreId) (k : CtxId) (f : Fields) (s : State),
    (ctlGo s i k f { imm := imm64, d := .g, a := .g } true = true →
      csCheck (addrOf (readG s i k f.a.toNat) f) 8 8 = none → Answers (.ldg i k f false) s fun t =>
      coreOnly s t i ∧ coreAt t i = ctlEnd s i k f (setG s i k f.d.toNat
        (readWord s (csBase i + addrOf (readG s i k f.a.toNat) f)) (coreAt s i))) ∧
    (ctlGo s i k f { imm := imm64, a := .g, b := .g } true = true →
      csCheck (addrOf (readG s i k f.a.toNat) f) 8 8 = none → Answers (.stg i k f) s fun t =>
      t = { s with cores := s.cores.set i (ctlEnd s i k f (coreAt s i)), mem := t.mem } ∧
      readWord t (csBase i + addrOf (readG s i k f.a.toNat) f) = readG s i k f.b.toNat ∧
      memSameOutside s t (csBase i + addrOf (readG s i k f.a.toNat) f) 8)) ∧
  (∀ (i : CoreId) (k : CtxId) (f : Fields) (s : State),
    (issues s i k f { imm := maskBits 11 0, d := .g } true = true → regOffset f % 4 = 0 →
      sigRoom (mgmtRead s 0 (blockBase i + regOffset f)).1 i k f = true → Answers (.rdreg i k f) s fun t =>
      coreOnly (mgmtRead s 0 (blockBase i + regOffset f)).1 t i ∧
      coreAt t i = ctlEnd (mgmtRead s 0 (blockBase i + regOffset f)).1 i k f
        (setG (mgmtRead s 0 (blockBase i + regOffset f)).1 i k f.d.toNat
          (w64 (mgmtRead s 0 (blockBase i + regOffset f)).2.toNat) (coreAt s i)) ∧
      (mgmtRead s 0 (blockBase i + regOffset f)).2
        = if (regAt (blockBase i + regOffset f)).isNone then 0 else regView s (blockBase i + regOffset f)) ∧
    (ctlGo s i k f { imm := maskBits 11 0, b := .g } true = true → wrregCheck f = none →
      Answers (.wrreg i k f) s fun t =>
      t = { s with cores := s.cores.set i (ctlEnd s i k f (coreAt s i)), regs := t.regs } ∧
      regsSameBut s t [blockBase i + regOffset f] ∧
      (regOffset f = 0x040 → getF t (CORE_NUMCTL i) CORE_NUMCTL_FLOOR_MODE = (readG s i k f.b.toNat).toNat % 2) ∧
      (regOffset f ≠ 0x040 → getR t (blockBase i + regOffset f)
        = getR s (blockBase i + regOffset f) &&& ~~~(BitVec.ofNat 32 (readG s i k f.b.toNat).toNat))) ∧
    (ctlGo s i k f { sub := maskBits 15 0, a := .g, b := .g } true = true → Answers (.note i k f) s fun t =>
      t = { s with
        cores := s.cores.set i (ctlEnd s i k f (coreAt s i))
        recorder := (makeRecord s i 0x10C [w64 f.sub.toNat, readG s i k f.a.toNat, readG s i k f.b.toNat,
          w64 (ctxAt s i k).pc]).recorder }))

/-- R186 to R188: SIGNAL adds its amount to its counter; a WAIT of the sequencer with an amount, and FENCE, hold their
context; a WAIT of no amount completes.

R183, R186: SIGNAL and WAIT of a queue that is empty act at its head at once: the signal adds its amount to the
counter; a WAIT with an amount is held there. -/
def Obligations.SignalsAndWaits : Prop :=
  (∀ (i : CoreId) (k : CtxId) (f : Fields) (s : State),
    (issues s i k f sigShape (sigLegal s i f) = true → sigQueue f = 0 →
      readSc s i (physSc (isSplit s i) k (sigCounter f)) + sigAmount f ≤ 0xFFFFFFFF →
      sigRoom (writeSc s i (physSc (isSplit s i) k (sigCounter f))
        (readSc s i (physSc (isSplit s i) k (sigCounter f)) + sigAmount f)) i k f = true →
      Answers (.signal i k f) s fun t =>
      coreOnly s t i ∧ coreAt t i = ctlEnd s i k f { (coreAt s i) with
        sc := (coreAt s i).sc.set (physSc (isSplit s i) k (sigCounter f)) (BitVec.ofNat 32
          (readSc s i (physSc (isSplit s i) k (sigCounter f)) + sigAmount f)) }) ∧
    (ctlGo s i k f sigShape (sigLegal s i f) = true → sigQueue f = 0 → sigAmount f = 0 →
      Answers (.wait i k f) s fun t => coreOnly s t i ∧ coreAt t i = ctlEnd s i k f (coreAt s i)) ∧
    (issues s i k f sigShape (sigLegal s i f) = true → sigQueue f = 0 → sigAmount f ≠ 0 →
      Answers (.wait i k f) s fun t => coreOnly s t i ∧
        coreAt t i = { (heldFor k .wait (coreAt s i)) with
          heldWaits := (coreAt s i).heldWaits ++ [⟨.seq k, physSc (isSplit s i) k (sigCounter f), sigAmount f,
            s.time.ns, 0, f.sigen, f.sigc.toNat, (ctxAt s i k).pc, k⟩] }) ∧
    (issues s i k f { mod := modMask 110 107 } (ctlCode f != 0) = true → Answers (.fence i k f) s fun t =>
      coreOnly s t i ∧ coreAt t i
        = heldFor k (.fence (BitVec.ofNat 4 (ctlCode f)) f.sigen f.sigc.toNat) (coreAt s i)) ∧
    (issues s i k f {} true = true → Answers (.done i k f) s fun t =>
      coreOnly s t i ∧ coreAt t i = heldFor k (.done f.sigen f.sigc.toNat) (coreAt s i))) ∧
  (∀ (i : CoreId) (k : CtxId) (f : Fields) (s : State), issues s i k f sigShape (sigLegal s i f) = true →
    sigQueue f ≠ 0 → (coreAt s i).queue (sigTarget s i k f) = [] → coreSaving s i = false →
    (f.sigen = false → readSc s i (physSc (isSplit s i) k (sigCounter f)) + sigAmount f ≤ 0xFFFFFFFF →
      Answers (.signal i k f) s fun t => coreOnly s t i ∧ (coreAt t i).queue (sigTarget s i k f) = [] ∧
        (∀ n, readSc t i n = if n = physSc (isSplit s i) k (sigCounter f) then readSc s i n + sigAmount f
          else readSc s i n) ∧
        ctxAt t i k = (stepped k (coreAt s i)).ctx k) ∧
    (sigAmount f ≠ 0 → (coreAt s i).heldWaits.all (·.place != .inQueue (sigTarget s i k f)) = true →
      Answers (.wait i k f) s fun t => coreOnly s t i ∧
        ((coreAt t i).queue (sigTarget s i k f)).length = 1 ∧
        (coreAt t i).heldWaits = (coreAt s i).heldWaits ++ [⟨.inQueue (sigTarget s i k f),
          physSc (isSplit s i) k (sigCounter f), sigAmount f, s.time.ns, 0, f.sigen, f.sigc.toNat, (ctxAt s i k).pc, k⟩] ∧
        ctxAt t i k = (stepped k (coreAt s i)).ctx k))

/-! ## Issue: what every instruction shares (R172, R181, R182) -/

/-- R182: a control instruction with a false predicate completes with no effect; it signals.

R182: an instruction with a false predicate enters its queue as an empty entry, and checks no operand. -/
def Obligations.FalsePredicates : Prop :=
  (∀ (c : Instr) (s : State) (i : CoreId) (k : CtxId) (f : Fields) (sh : Shape) (legal : Bool),
    ctlForm s c = some (i, k, f, sh, legal) → sized s = true → canIssue s i k = true →
    (fieldsOk (isSplit s i) sh f && legal) = true → predicate s i k f = false → sigRoom s i k f = true →
    Answers c s fun t => coreOnly s t i ∧ coreAt t i = ctlEnd s i k f (coreAt s i)) ∧
  (∀ (c : Instr) (s : State) (x : QForm), queueForm s c = some x → sized s = true → canIssue s x.i x.k = true →
    (fieldsOk (isSplit s x.i) x.sh x.f && x.legal) = true → (coreAt s x.i).queue x.q = [] →
    coreSaving s x.i = false → predicate s x.i x.k x.f = false →
    Answers c s fun t => coreOnly s t x.i ∧
      coreAt t x.i = queued x { x.entry s true with started := true, finished := true } (coreAt s x.i))

/-- A control instruction of a context that is held, has no task or stands under a quench changes nothing; nor does one
that waits for a g register.

R181, R204, R257: illegal fields raise fault 0x01, and words that could not be read fault 0x0F, whatever the predicate: of a
control instruction, and of one that enters a queue that is empty.

R189, R190, R191, R204: the faults that operands raise at issue: a target or address that is not aligned (0x05) or out of
range (0x04), an error of the word read (0x0F), a full loop stack (0x0A), a counter that would overflow (0x09), and a
register that WRREG may not write (0x02).

R120, R176, R192, R200: an instruction whose operands fail a check at issue raises that fault and enters no queue. -/
def Obligations.IssueRefusals : Prop :=
  (∀ (c : Instr) (s : State) (i : CoreId) (k : CtxId) (f : Fields) (sh : Shape) (legal : Bool),
    ctlForm s c = some (i, k, f, sh, legal) →
    (canIssue s i k = false ∨
      ((fieldsOk (isSplit s i) sh f && legal) = true ∧ predicate s i k f = true ∧ gHazard s i k sh f = true)) →
    Answers c s fun t => t = s) ∧
  ((∀ (c : Instr) (s : State) (i : CoreId) (k : CtxId) (f : Fields) (sh : Shape) (legal : Bool),
    ctlForm s c = some (i, k, f, sh, legal) → live s i k = true →
    (fieldsOk (isSplit s i) sh f && legal) = false →
    Answers c s fun t => faulted s t i k 0 (if f.fetchBad then 0x0F else 0x01)) ∧
  (∀ (c : Instr) (s : State) (x : QForm), queueForm s c = some x → live s x.i x.k = true →
    (coreAt s x.i).queue x.q = [] → (fieldsOk (isSplit s x.i) x.sh x.f && x.legal) = false →
    Answers c s fun t => faulted s t x.i x.k 0 (if x.f.fetchBad then 0x0F else 0x01))) ∧
  (∀ (i : CoreId) (k : CtxId) (f : Fields) (s : State), live s i k = true →
    (∀ code, issues s i k f { imm := maskBits 20 0 } true = true → targetCheck (brTarget f) = some code →
      Answers (.br i k f) s fun t => faulted s t i k 0 code) ∧
    (∀ code, issues s i k f { imm := imm64, a := .g } true = true →
      targetCheck (addrOf (readG s i k f.a.toNat) f) = some code →
      Answers (.bri i k f) s fun t => faulted s t i k 0 code) ∧
    (∀ code, issues s i k f { imm := maskBits 20 0, d := .g } true = true → targetCheck (brTarget f) = some code →
      Answers (.brl i k f) s fun t => faulted s t i k 0 code) ∧
    (issues s i k f { imm := maskBits 20 0, a := .g } (loopLegal s i k f) = true → targetCheck (brTarget f) = none →
      readG s i k f.a.toNat ≠ 0 → loopDepth s i ≤ (ctxAt s i k).loops.length →
      Answers (.loop i k f) s fun t => faulted s t i k 0 0x0A) ∧
    (∀ code, issues s i k f { imm := imm64, d := .g, a := .g } true = true →
      csCheck (addrOf (readG s i k f.a.toNat) f) 8 8 = some code →
      ∀ ecc, Answers (.ldg i k f ecc) s fun t => faulted s t i k 0 code) ∧
    (issues s i k f { imm := imm64, d := .g, a := .g } true = true →
      csCheck (addrOf (readG s i k f.a.toNat) f) 8 8 = none →
      Answers (.ldg i k f true) s fun t => faulted s t i k 0 0x0F) ∧
    (∀ code, issues s i k f { imm := imm64, a := .g, b := .g } true = true →
      csCheck (addrOf (readG s i k f.a.toNat) f) 8 8 = some code →
      Answers (.stg i k f) s fun t => faulted s t i k 0 code) ∧
    (issues s i k f { imm := maskBits 11 0, b := .g } true = true → regOffset f % 4 = 0 →
      regOffset f ∉ [0x040, 0x044, 0x08C] → Answers (.wrreg i k f) s fun t => faulted s t i k 0 0x02) ∧
    (issues s i k f sigShape (sigLegal s i f) = true → sigQueue f = 0 →
      0xFFFFFFFF < readSc s i (physSc (isSplit s i) k (sigCounter f)) + sigAmount f →
      Answers (.signal i k f) s fun t => faulted s t i k 0 0x09)) ∧
  (∀ (c : Instr) (s : State) (x : QForm) (code : Nat), queueForm s c = some x → live s x.i x.k = true →
    issues s x.i x.k x.f x.sh x.legal = true → (coreAt s x.i).queue x.q = [] →
    x.check (x.entry s false) = some code → Answers c s fun t => faulted s t x.i x.k 0 code)

/-- R172, R183, R186: AZERO, ALOAD, ASWAP, AMAC and ADRAIN issue into the lane of their context with the g operands read;
the program counter moves on; the entry waits for its anvil. AMAC's tag is the last of its anvils (R121). -/
def Obligations.TileIssue : Prop :=
  ∀ (c : Instr) (s : State) (x : QForm), tileOf s c = some x → queueGo s x = true →
    Answers c s fun t => t = { s with cores := s.cores.set x.i (coreAt t x.i), power := t.power } ∧
      coreAt t x.i = { queued x (x.entry s false) (coreAt s x.i) with anvils := (coreAt t x.i).anvils } ∧
      (x.op ≠ 0x23 → t.power = s.power ∧ (coreAt t x.i).anvils = (coreAt s x.i).anvils) ∧
      (x.op = 0x23 → ∀ a : AnvilId, (coreAt t x.i).anvil a =
        if (anvMask x.f).testBit a then { (coreAt s x.i).anvil a with
          lastPass := some (tagOf (x.entry s false)), ramp := passArrives ((coreAt s x.i).anvil a).ramp }
        else (coreAt s x.i).anvil a)

/-! ## The vector engine (R151 to R171, R195 to R199) -/

/-- R153, R84: VADD, VSUB, VMIN, VMAX, VCMP, VSEL, VABS, VNEG, VSHL, VRSH and VRADD write their group register by register
and count the saturations; a register that a rule bars leaves the group as it was and raises fault 0x06. -/
def Obligations.LaneOperations : Prop :=
  ∀ (c : Instr) (s : State) (x : QForm), laneOpOf s c = some x → vecGo s x = true →
    (∀ l, allSome (laneResults s x) = some l → Answers c s fun t =>
      vecFrame s t x [CORE_VSATCNT x.i] ∧ groupIs s t x x.f.d.toNat (l.map (·.1)) ∧
      vsatIs s t x.i (l.map (·.2)).sum) ∧
    (allSome (laneResults s x) = none → live s x.i x.k = true → Answers c s fun t =>
      faulted s t x.i x.k 3 0x06 ∧ (coreAt t x.i).v = (coreAt s x.i).v)

/-- R153: VMOV copies a group, bits and raw mark; VSPLAT fills one with gA clamped; VMOVG moves a code, or the exponent, to
gD; VMUL writes the products in twice the registers; VSQADD combines pairs and keeps the other lanes.

R154 to R157: a reduction reads a group as one row and writes the first code of vD, or VRSSQ the pair in its first two;
the other lanes of vD keep their bits. R238: VRAND fills a group from the seed stream. -/
def Obligations.MovesReductionsDraws : Prop :=
  (∀ (i : CoreId) (k : CtxId) (f : Fields) (s : State) (x : QForm),
    (vecOf s (.vmov i k f) = some x → vecGo s x = true → Answers (.vmov i k f) s fun t =>
      vecFrame s t x [] ∧ groupIs s t x f.d.toNat (x.opA s)) ∧
    (vecOf s (.vsplat i k f) = some x → vecGo s x = true → Answers (.vsplat i k f) s fun t =>
      vecFrame s t x [CORE_VSATCNT i] ∧
      groupIs s t x f.d.toNat (List.replicate (nregOf f) (mkVreg (f.modBits 104 104 = 1) (sext 12 (f.immBits 11 0)) false
        (List.replicate (perReg (f.modBits 104 104 = 1))
          (clampCode (f.modBits 104 104 = 1) (readG s i k f.a.toNat).toInt).1)))) ∧
    (vecOf s (.vmovg i k f) = some x → vecGo s x = true →
      (vregAt s i (physV (isSplit s i) k f.a.toNat)).raw = false →
      ((vregAt s i (physV (isSplit s i) k f.a.toNat)).w = true → f.immBits 7 0 < 128) →
      Answers (.vmovg i k f) s fun t => coreOnly s t i ∧
        coreAt t i = setG s i k f.d.toNat (w64 (wrapBits 64
          (if f.modBits 104 104 = 1 then (vregAt s i (physV (isSplit s i) k f.a.toNat)).x
          else (vregAt s i (physV (isSplit s i) k f.a.toNat)).codes.getD (f.immBits 7 0) 0))) (vecStarted s x)) ∧
    (∀ l, vecOf s (.vmul i k f) = some x → vecGo s x = true →
      allSome (((x.opA s).zip (x.opB s)).map fun p => laneMul p.1 p.2) = some l → Answers (.vmul i k f) s fun t =>
      vecFrame s t x [] ∧ groupIs s t x f.d.toNat (l.flatMap fun p => [p.1, p.2])) ∧
    (vecOf s (.vsqadd i k f) = some x → vecGo s x = true →
      ((x.opA s) ++ (x.opB s)).any (fun r => r.raw || !r.w) = false → Answers (.vsqadd i k f) s fun t =>
      vecFrame s t x [CORE_UPDSTAT i] ∧
      groupIs s t x f.d.toNat (((x.opD s).zip (((x.opA s).zip (x.opB s)).map fun p =>
        combinePairs (pairOfReg p.1) (pairOfReg p.2))).map fun p => putCodes p.1 true 0 [(p.2.1.sum : Int), p.2.1.ex]))) ∧
  (∀ (i : CoreId) (k : CtxId) (f : Fields) (s : State) (x : QForm) (g : GroupRow),
    groupRow (x.opA s) = some g →
    (vecOf s (.vrsum i k f) = some x → vecGo s x = true → Answers (.vrsum i k f) s fun t =>
      vecFrame s t x [CORE_VSATCNT i] ∧ vsatIs s t i (g.clamped + (clampCode true g.codes.sum).2) ∧
      groupIs s t x f.d.toNat [putCodes (vregAt s i (physV (isSplit s i) k f.d.toNat)) true g.x
        [(clampCode true g.codes.sum).1]]) ∧
    (vecOf s (.vrmax i k f) = some x → vecGo s x = true → Answers (.vrmax i k f) s fun t =>
      vecFrame s t x [CORE_VSATCNT i] ∧ vsatIs s t i g.clamped ∧
      groupIs s t x f.d.toNat [putCodes (vregAt s i (physV (isSplit s i) k f.d.toNat)) g.w g.x [(maxMag g.codes : Int)]]) ∧
    (vecOf s (.vrcnt i k f) = some x → vecGo s x = true → Answers (.vrcnt i k f) s fun t =>
      vecFrame s t x [CORE_VSATCNT i] ∧ vsatIs s t i g.clamped ∧
      groupIs s t x f.d.toNat [putCodes (vregAt s i (physV (isSplit s i) k f.d.toNat)) false 0
        [((g.codes.filter (· != 0)).length : Int)]]) ∧
    (vecOf s (.vrssq i k f) = some x → vecGo s x = true → Answers (.vrssq i k f) s fun t =>
      vecFrame s t x [CORE_VSATCNT i] ∧ vsatIs s t i g.clamped ∧
      groupIs s t x f.d.toNat [putCodes (vregAt s i (physV (isSplit s i) k f.d.toNat)) true 0
        [((squareSum g.x g.codes).sum : Int), (squareSum g.x g.codes).ex]]) ∧
    (vecOf s (.vrand i k f) = some x → vecGo s x = true → Answers (.vrand i k f) s fun t =>
      vecFrame s t x [] ∧
      groupIs s t x f.d.toNat ((List.range (nregOf f)).map fun r => mkVreg false (sext 12 (f.immBits 11 0)) false
        ((List.range 256).map fun l => ((stream (jobSeed s) (readG s i k f.a.toNat).toNat
          (((readG s i k f.b.toNat).toNat + 256 * r + l) % 2 ^ 64) / 2 ^ 33 : Nat) : Int)))))

/-- R153, R160, R161: VRESC brings a group to its exponent, with WCHG 1 into twice or half the registers; VACT evaluates
its table on each code.

R88, R100: VQNT with no pith columns and no monitor record quantises its group into the row its descriptor names. -/
def Obligations.RescaleAndActivate : Prop :=
  (∀ (i : CoreId) (k : CtxId) (f : Fields) (s : State) (x : QForm),
    (vecOf s (.vresc i k f) = some x → vecGo s x = true →
      (∀ l, f.modBits 104 104 = 0 → allSome ((x.opA s).map (laneResc (sext 12 (f.immBits 11 0)))) = some l →
        Answers (.vresc i k f) s fun t => vecFrame s t x [CORE_VSATCNT i] ∧
          groupIs s t x f.d.toNat (l.map (·.1)) ∧ vsatIs s t i (l.map (·.2)).sum) ∧
      (f.modBits 104 104 = 1 → (x.opA s).all (fun r => !r.raw && !r.w) = true →
        groupFits (isSplit s i) f.d.toNat (2 * nregOf f) = true → Answers (.vresc i k f) s fun t =>
          vecFrame s t x [CORE_VSATCNT i] ∧
          groupIs s t x f.d.toNat ((x.opA s).flatMap fun r => (widenResc (sext 12 (f.immBits 11 0)) r).1)) ∧
      (f.modBits 104 104 = 1 → (x.opA s).all (fun r => !r.raw && r.w) = true → nregOf f % 2 = 0 →
        groupFits (isSplit s i) f.d.toNat (nregOf f / 2) = true →
        Answers (.vresc i k f) s fun t => vecFrame s t x [CORE_VSATCNT i] ∧
          groupIs s t x f.d.toNat ((groupsOf 2 (nregOf f / 2) (x.opA s)).map fun p =>
            (narrowResc (sext 12 (f.immBits 11 0)) p).1))) ∧
    (∀ tab l, vecOf s (.vact i k f) = some x → vecGo s x = true →
      readTable s i (addrOf (readG s i k f.b.toNat) f) = some tab → allSome ((x.opA s).map (laneAct tab)) = some l →
      Answers (.vact i k f) s fun t => vecFrame s t x [CORE_VSATCNT i] ∧
        groupIs s t x f.d.toNat (l.map (·.1)) ∧ vsatIs s t i (l.map (·.2)).sum)) ∧
  (∀ (i : CoreId) (k : CtxId) (f : Fields) (s : State) (x : QForm) (ws : List Word64) (d : QDesc) (g : GroupRow)
      (q : Quant),
    vecOf s (.vqnt i k f) = some x → vecGo s x = true →
    ws = readWords s (csBase i + addrOf (readG s i k f.a.toNat) f) 8 → d = qdescOf ws →
    groupRow (x.opD s) = some g → qdescBad ws d = false → d.len ≤ g.codes.length → d.dest % 8 = 0 →
    csRangeOk d.dest (rowSize d.fmt d.lane d.len) = true → d.pith = false → d.mon = false → s.job = none →
    q = (if d.given then quantGiven d.fmt d.exp g.x (g.codes.take d.len)
      else quantFit d.fmt (floorRule s i) g.x (g.codes.take d.len)) →
    Answers (.vqnt i k f) s fun t =>
      readBytes t (csBase i + d.dest) (q.row d.fmt d.lane).length = q.row d.fmt d.lane ∧
      vecStoreFrame s t x [CORE_VSATCNT i, CORE_QSATCNT i, CORE_QZEROCNT i, CORE_QCEILCNT i, CORE_NUMSTAT i]
        d.dest (q.row d.fmt d.lane).length)

/-- R196: VLD fills its group with a row of core store, one exponent for all its registers; VST writes a group whose codes
fit as they stand, or fitted under R88; VCVT writes the row in its target format. R257: an uncorrectable error in the core
store that a vector instruction reads is a tile fault with CAUSE 4, counted in CS_UE. -/
def Obligations.RowsLoadedAndStored : Prop :=
  (∀ (i : CoreId) (k : CtxId) (f : Fields) (s : State) (x : QForm) (rw' : RowWord), rw' = rowWordOf (readG s i k f.c.toNat) →
    (∀ bs tr, vecOf s (.vld i k f false) = some x → vecGo s x = true →
      bs = readBytes s (csBase i + addrOf (readG s i k f.a.toNat) f) (rowSize rw'.fmt rw'.lane rw'.len) →
      tr = decodeTrailer (fieldLE bs (rowSize rw'.fmt rw'.lane rw'.len - 8) 8) →
      trailerOk tr rw'.fmt rw'.len rw'.lane = true → Answers (.vld i k f false) s fun t =>
        (t = { s with cores := s.cores.set i (coreAt t i), regs := t.regs, recorder := t.recorder } ∧
          regsSameBut s t [CORE_VOIDCNT i] ∧ coreAt t i = { vecStarted s x with v := (coreAt t i).v }) ∧
        groupIs s t x f.d.toNat (fillGroup (rw'.fmt = 0x30) tr.raw
          (if (wideValue (decodeRow bs tr)).1 = -128 then -127 else (wideValue (decodeRow bs tr)).1) (nregOf f)
          (wideValue (decodeRow bs tr)).2)) ∧
    (∀ g bs, vecOf s (.vst i k f) = some x → vecGo s x = true → groupRow (x.opD s) = some g →
      rw'.len ≤ g.codes.length →
      bs = (if (g.codes.take rw'.len).all (fun c => (c.natAbs : Int) ≤ maxCode rw'.fmt) && -127 ≤ g.x && g.x ≤ 127 then
          encodeRow rw'.fmt false g.x (g.codes.take rw'.len) [] []
        else (quantFit rw'.fmt (floorRule s i) g.x (g.codes.take rw'.len)).row rw'.fmt false) →
      Answers (.vst i k f) s fun t =>
        readBytes t (csBase i + addrOf (readG s i k f.a.toNat) f) bs.length = bs ∧
        vecStoreFrame s t x [CORE_VSATCNT i, CORE_QSATCNT i, CORE_QZEROCNT i, CORE_QCEILCNT i, CORE_NUMSTAT i]
          (addrOf (readG s i k f.a.toNat) f) bs.length) ∧
    (∀ r bs, vecOf s (.vcvt i k f) = some x → vecGo s x = true →
      readRow s i (readG s i k f.a.toNat).toNat rw'.fmt rw'.len rw'.lane false = some r →
      bs = (if isNarrow (cvtTarget f) then
          encodeRow (cvtTarget f) (f.modBits 104 104 = 1) r.exp r.codes r.steps r.clips
        else encodeRow (cvtTarget f) false (wideValue r).1 (wideValue r).2 [] []) →
      Answers (.vcvt i k f) s fun t =>
        readBytes t (csBase i + (readG s i k f.b.toNat).toNat) bs.length = bs ∧
        vecStoreFrame s t x [CORE_VOIDCNT i] (readG s i k f.b.toNat).toNat bs.length)) ∧
  (∀ (c : Instr) (s : State) (y : QForm), vecOf s c = some y → issues s y.i y.k y.f y.sh y.legal = true → live s y.i y.k = true →
      (coreAt s y.i).queue y.q = [] → y.check (y.entry s false) = none → (coreAt s y.i).veGrant = true →
      vecReads y.op = true → y.f.dataBad = true → Answers c s fun t => faulted s t y.i y.k 3 0x0E ∧
        getF t (CORE_TILEFAULT y.i) CORE_TILEFAULT_CAUSE = 4 ∧
        getF t (HCH_SUE (hearthOf y.i)) HCH_SUE_CS_UE = satAdd 0xFFFF (getF s (HCH_SUE (hearthOf y.i)) HCH_SUE_CS_UE) 1)

/-- R166 to R169: VUMU writes the step record of its layer, the no-update record where R167 makes no update; VUPD moves a
master row by the recorded step and stores the deltas, or stores zero deltas under a no-update record.

R226: VGACC adds a group into a gradient buffer row: a sum that is all zero stores the zero row, any other the codes at
the smallest exponent that holds them, each rounded by the seed stream. R199: VMARK with no record named votes nothing. -/
def Obligations.UpdatesAndMarks : Prop :=
  (∀ (i : CoreId) (k : CtxId) (f : Fields) (s : State) (x : QForm),
    (∀ ws us o, vecOf s (.vumu i k f) = some x → vecGo s x = true →
      ws = readWords s (csBase i + (readG s i k f.a.toNat).toNat) 8 →
      us = readWords s (csBase i + (readG s i k f.b.toNat).toNat) 4 → wfield ws 0 63 48 = 0x0A54 →
      o = (if hasUpdate (umuInOf ws us) then
          umuCompute (umuInOf ws us) (freeUmu (Config.freeWord s.free) (Config.freeWord (s.free + 1)))
        else noUpdate (umuInOf ws us) (Config.freeWord s.free)) →
      Answers (.vumu i k f) s fun t =>
        readWords t (csBase i + (readG s i k f.d.toNat).toNat) 2
          = stepRecord o (hasUpdate (umuInOf ws us) && (o.hi || o.lo) && (umuInOf ws us).ratioHold) ∧
        memSameOutside s t (csBase i + (readG s i k f.d.toNat).toNat) 16 ∧
        regsSameBut s t [CORE_UPDSTAT i]) ∧
    (∀ n, vecOf s (.vupd i k f) = some x → vecGo s x = true →
      selfLen s i (readG s i k f.a.toNat).toNat 0x20 4096 = some n →
      csRangeOk (readG s i k f.c.toNat).toNat (rowSize 0x20 false n) = true →
      wfield (readWords s (csBase i + (readG s i k f.d.toNat).toNat) 2) 0 16 16 = 1 →
      Answers (.vupd i k f) s fun t =>
        (∃ bs, bs = (zeroQuant 0x20 (List.replicate n false) false).row 0x20 false ∧
          readBytes t (csBase i + (readG s i k f.c.toNat).toNat) bs.length = bs ∧
          memSameOutside s t (csBase i + (readG s i k f.c.toNat).toNat) bs.length) ∧
        regsSameBut s t []) ∧
    (∀ n w g a ew us ds ds' q, vecOf s (.vupd i k f) = some x → vecGo s x = true →
      selfLen s i (readG s i k f.a.toNat).toNat 0x20 4096 = some n →
      csRangeOk (readG s i k f.c.toNat).toNat (rowSize 0x20 false n) = true →
      csRangeOk (readG s i k f.b.toNat).toNat (rowSize 0x10 false n) = true →
      a = readWords s (csBase i + (readG s i k f.d.toNat).toNat) 2 → wfield a 0 16 16 ≠ 1 →
      readRow s i (readG s i k f.a.toNat).toNat 0x20 n false false = some w →
      readRow s i (readG s i k f.b.toNat).toNat 0x10 n false false = some g →
      ew = (if w.exp = -128 then -127 else w.exp) →
      (coreAt s i).upd.find? (fun p => p.1 = (readG s i k f.d.toNat).toNat) = some ((readG s i k f.d.toNat).toNat, us) →
      ds = g.codes.map (fun q => updElem (wfield us 0 63 62) ⟨wfield a 0 63 40, sext 16 (wfield a 0 39 24)⟩ g.exp ew
        (wfield us 0 23 8) (sext 8 (wfield us 0 7 0)) q) →
      q = (quantFit 0x20 .hold ew ((w.codes.zip ds).map fun p => p.1 + p.2.1)).row 0x20 false →
      ds' = encodeRow 0x20 false ew (ds.map fun d => (satCode (2 ^ 31 - 1) d.1).1) [] [] →
      ((readG s i k f.a.toNat).toNat + q.length ≤ (readG s i k f.c.toNat).toNat ∨
        (readG s i k f.c.toNat).toNat + ds'.length ≤ (readG s i k f.a.toNat).toNat) →
      Answers (.vupd i k f) s fun t =>
        readBytes t (csBase i + (readG s i k f.a.toNat).toNat) q.length = q ∧
        readBytes t (csBase i + (readG s i k f.c.toNat).toNat) ds'.length = ds' ∧
        regsSameBut s t [CORE_VOIDCNT i, CORE_UPDCLAMP i])) ∧
  (∀ (i : CoreId) (k : CtxId) (f : Fields) (s : State) (x : QForm),
    (∀ g n r e sums, vecOf s (.vgacc i k f) = some x → vecGo s x = true → groupRow (x.opA s) = some g →
      bufferLen s i (readG s i k f.b.toNat).toNat g.codes.length = some n →
      readRow s i (readG s i k f.b.toNat).toNat 0x10 n false false = some r →
      e = (if r.exp = -128 then g.x else r.exp) →
      sums = ((r.codes.zip (g.codes.take n)).map fun p =>
        p.1 * 2 ^ (e - min e g.x).toNat + p.2 * 2 ^ (g.x - min e g.x).toNat) →
      (maxMag sums ≠ 0 → -127 ≤ gaccExp (maxMag sums) (min e g.x) ∧ gaccExp (maxMag sums) (min e g.x) ≤ 127) →
      Answers (.vgacc i k f) s fun t => ∃ bs,
        bs = (if maxMag sums = 0 then (zeroQuant 0x10 (sums.map fun _ => false) false).row 0x10 false
          else encodeRow 0x10 false (gaccExp (maxMag sums) (min e g.x))
            ((sums.zipIdx.map fun p => satCode 32767 (gaccElem (min e g.x) (gaccExp (maxMag sums) (min e g.x))
              (stream (jobSeed s) (readG s i k f.c.toNat).toNat p.2) p.1)).map (·.1)) [] []) ∧
        readBytes t (csBase i + (readG s i k f.b.toNat).toNat) bs.length = bs ∧
        memSameOutside s t (csBase i + (readG s i k f.b.toNat).toNat) bs.length ∧
        regsSameBut s t [CORE_VSATCNT i, CORE_VOIDCNT i, CORE_QSATCNT i]) ∧
    (vecOf s (.vmark i k f) = some x → vecGo s x = true → (ctxAt s i k).mons = [] →
      isWindow (readG s i k f.a.toNat).toNat = false → assigned s (readG s i k f.a.toNat).toNat 256 = true →
      (readG s i k f.a.toNat).toNat % 128 = 0 →
      poisoned s (readG s i k f.a.toNat).toNat = false →
      poisoned s ((readG s i k f.a.toNat).toNat + 128) = false →
      Answers (.vmark i k f) s fun t => memSame s t ∧ regsSameBut s t [] ∧ (ctxAt t i k).mons = [] ∧
        (ctxAt t i k).stat = .running))

/-! ## Waits, fences, yields and completion (R183, R186 to R189, R206 to R210) -/

/-- R186 to R188: a WAIT that is first on its counter releases when the counter holds its amount, which is subtracted; past
its limit it raises fault 0x08; FENCE and DONE release when the queues they name hold nothing of the context.

R206, R208, R210: YIELD.IF completes with no request standing; a yield point that is taken begins the save in the free
slot of the hearth, with the program counter after it; an obstacle is recorded and the task goes on. -/
def Obligations.HoldsAndYields : Prop :=
  (∀ (i : CoreId) (k : CtxId) (s : State), sized s = true → quenched s = false →
    (∀ h, (coreAt s i).heldWaits.find? (·.place = .seq k) = some h → firstHeld (coreAt s i) h = true →
      h.n ≤ readSc s i h.counter → h.counter < 16 → h.sigen = false → Answers (.waitRelease i (.seq k)) s fun t =>
        coreOnly s t i ∧ (coreAt t i).heldWaits = (coreAt s i).heldWaits.erase h ∧
        (∀ n, readSc t i n = if n = h.counter then readSc s i n - h.n else readSc s i n) ∧
        ctxAt t i k = { (stepped k (coreAt s i)).ctx k with hold := .none, stat := .running }) ∧
    (∀ h, (coreAt s i).heldWaits.find? (·.place = .seq k) = some h → (ctxAt s i k).over = false →
      getF s (CORE_SEQCTL i) CORE_SEQCTL_WAIT_LIM ≠ 0 →
      getF s (CORE_SEQCTL i) CORE_SEQCTL_WAIT_LIM * 1000000 < s.time.ns - h.since - h.quenched →
      Answers (.waitTimeout i (.seq k)) s fun t => (ctxAt t i k).stat = .aborting ∧
        getF t (CORE_FAULT i) CORE_FAULT_CODE = 0x08 ∧ getF t (CORE_FAULTPC i) CORE_FAULTPC_PC = h.pc % 2 ^ 21 ∧
        coreRegsRec s t i) ∧
    (∀ mask sigen sigc, (ctxAt s i k).hold = .fence mask sigen sigc → fenceOpen s i k mask.toNat = true →
      (sigen = true → sigc < 16 ∧ physSc (isSplit s i) k sigc < 16 ∧ readSc s i (physSc (isSplit s i) k sigc) < 0xFFFFFFFF) →
      Answers (.fenceRelease i k) s fun t => coreOnly s t i ∧
        (∀ n, readSc t i n = if sigen ∧ n = physSc (isSplit s i) k sigc then readSc s i n + 1 else readSc s i n) ∧
        ctxAt t i k = { (stepped k (coreAt s i)).ctx k with hold := .none, stat := .running }) ∧
    (∀ sigc, (ctxAt s i k).hold = .done false sigc → fenceOpen s i k 15 = true → (ctxAt s i k).over = false →
      yieldReady (setCtxAt s i k { (ctxAt s i k) with hold := .none, stat := .noTask, partDone := true }) i = false →
      Answers (.doneRelease i k) s fun t => coreOnly s t i ∧
        coreAt t i = (coreAt s i).setCtx k { (ctxAt s i k) with hold := .none, stat := .noTask, partDone := true }) ∧
    (∀ mask sigen sigc, (ctxAt s i k).hold = .fence mask sigen sigc → fenceOpen s i k mask.toNat = false →
      Answers (.fenceRelease i k) s fun t => t = s)) ∧
  (∀ (i : CoreId) (f : Fields) (s : State),
    (∀ k, ctlGo s i k (yieldMode f false) (yieldShape (isSplit s i)) true = true → (coreAt s i).preq = none →
      Answers (.yieldIf i k f) s fun t => coreOnly s t i ∧ coreAt t i = ctlEnd s i k f (coreAt s i)) ∧
    (∀ c n, (c = .yieldNow i 0 f ∧ ctlGo s i 0 (yieldMode f true) (yieldShape false) true = true) ∨
        (c = .yieldIf i 0 f ∧ ctlGo s i 0 (yieldMode f false) (yieldShape false) true = true ∧
          (coreAt s i).preq.isSome = true) →
      isSplit s i = false → (ctxAt s i 0).partDone = false → (coreAt s i).ended = none →
      saveObstacle s i = none → freeSlot s (hearthOf i) = some n → Answers c s fun t =>
        (ctxAt t i 0).stat = .saving ∧ (ctxAt t i 0).pc = ((stepped 0 (coreAt s i)).ctx 0).pc ∧
        (ctxAt t i 0).live = f.imm ∧ (hearthAt t (hearthOf i)).slots = (hearthAt s (hearthOf i)).slots ++ [n] ∧
        (coreAt t i).task = (coreAt s i).task.map (fun (x : Task) => { x with slot := some (256 * hearthOf i + n) }) ∧
        memSame s t ∧ regsSameBut s t [] ∧ (∀ j, j ≠ i.val → coreAt t j = coreAt s j)) ∧
    (∀ o, ctlGo s i 0 (yieldMode f true) (yieldShape false) true = true → isSplit s i = false →
      (ctxAt s i 0).partDone = false → (coreAt s i).ended = none → saveObstacle s i = some o →
      Answers (.yieldNow i 0 f) s fun t => (ctxAt t i 0).stat = .running ∧ (coreAt t i).preq = none ∧
        (ctxAt t i 0).pc = ((stepped 0 (coreAt s i)).ctx 0).pc ∧ memSame s t ∧
        t.recorder = (makeRecord s i 0x108 [w64 (o.1 + o.2 * 2 ^ 16)]).recorder))

/-- R207: a dispatcher's request stands at a core of a leaving domain under LEAVE_POLICY 1 until every context is at a yield
point; past YIELD_WAIT it is given up, counted and recorded, and contexts at a YIELD.IF go on. -/
def Obligations.DispatcherRequests : Prop :=
  ∀ (i : CoreId) (s : State), sized s = true → quenched s = false →
    ((coreAt s i).task.isSome = true → (coreAt s i).ended = none → (coreAt s i).preq = none → coreSaving s i = false →
      domState s (domOf i) = 1 → flag s (CORE_TILECTL i) CORE_TILECTL_LEAVE_POLICY = true → liveCtxs s i ≠ [] →
      (∃ k ∈ liveCtxs s i, (ctxAt s i k).stat ≠ .atYield) → yieldWait s i ≠ 0 →
      Answers (.dispatcherRequest i) s fun t => coreOnly s t i ∧
        coreAt t i = { (coreAt s i) with preq := some s.time.ns }) ∧
    (∀ t0, (coreAt s i).preq = some t0 → coreSaving s i = false → yieldWait s i ≤ s.time.ns - t0 →
      Answers (.yieldTimeout i) s fun t => coreRegsRec s t i ∧ (coreAt t i).preq = none ∧
        t.recorder = (makeRecord s i 0x10B [w64 (runningPc s i)]).recorder ∧
        getF t (CORE_FAULTCNT i) CORE_FAULTCNT_YIELDTO
          = min 255 (getF s (CORE_FAULTCNT i) CORE_FAULTCNT_YIELDTO + 1) ∧
        (∀ k, (ctxAt s i k).stat = .atYield → (ctxAt s i k).yieldNow = false → (ctxAt t i k).stat = .running) ∧
        (∀ k, (ctxAt s i k).stat ≠ .atYield → ctxAt t i k = ctxAt s i k))

/-- R174, R183: the oldest entry that has done its part leaves its queue and signals its counter.

R202, R292: when its parts are in, FGET puts its data in core store, FGATH its lines, and FATOM the old value in gD. -/
def Obligations.EntriesLeave : Prop :=
  (∀ (i : CoreId) (q : Queue) (s : State) (e : QEntry), sized s = true → quenched s = false →
    (coreAt s i).queue q = [e] → entryOver e = true → (e.off = true ∨ e.op ∉ [0x80, 0xA1, 0xA3, 0xA5]) →
    s.coll.insts = [] → (∀ j : CoreId, (j ≠ i ∨ q ≠ .fab) → (coreAt s j).fab = []) →
    (e.f.sigen = true → physSc (isSplit s i) e.ctx e.f.sigc.toNat < 16 ∧
      readSc s i (physSc (isSplit s i) e.ctx e.f.sigc.toNat) < 0xFFFFFFFF) →
    Answers (.instructionComplete i q) s fun t => coreOnly s t i ∧ (coreAt t i).queue q = [] ∧
      (∀ n, readSc t i n = if e.f.sigen ∧ n = physSc (isSplit s i) e.ctx e.f.sigc.toNat then readSc s i n + 1
        else readSc s i n)) ∧
  (∀ (i : CoreId) (s : State) (e : QEntry), sized s = true → quenched s = false → (coreAt s i).fab = [e] →
    entryOver e = true → e.off = false → e.f.sigen = false → s.coll.insts = [] →
    (∀ j : CoreId, j ≠ i → (coreAt s j).fab = []) →
    (e.op = 0xA1 → fabSpace e.f = 1 → (entryData e).length = fabLen e.f → Answers (.instructionComplete i .fab) s fun t =>
      readBytes t (csBase i + e.ga.toNat) (fabLen e.f) = entryData e ∧
      memSameOutside s t (csBase i + e.ga.toNat) (fabLen e.f) ∧ (coreAt t i).fab = []) ∧
    (e.op = 0xA5 → Answers (.instructionComplete i .fab) s fun t =>
      readBytes t (csBase i + e.gb.toNat) (entryData e).length = entryData e ∧
      memSameOutside s t (csBase i + e.gb.toNat) (entryData e).length ∧ (coreAt t i).fab = []) ∧
    (e.op = 0xA3 → Answers (.instructionComplete i .fab) s fun t => coreOnly s t i ∧ (coreAt t i).fab = [] ∧
      (coreAt t i).g = (setG s i e.ctx e.f.d.toNat (w64 (ofBE (entryData e))) (coreAt s i)).g))

/-- R134 to R138, R208: SAVE_COMPLETE leaves the core with no task, its anvils empty and the sequencer save record in
place; TASK_RESTORE takes the registers from the record and frees the slot. -/
def Obligations.SaveAndRestore : Prop :=
  ∀ (i : CoreId) (s : State), sized s = true →
    (∀ k x fed, (coreAt s i).task = some x → x.slot = some k → saveReady s i = true →
      (coreAt s i).anv0 = [] → (coreAt s i).anv1 = [] → (coreAt s i).pass0 = none → (coreAt s i).pass1 = none →
      seqSaveBad s i = false → slotAddr s k + saveLen + seqSaveLen ≤ 2 ^ 40 → saveMiss s i = none →
      Answers (.saveComplete i { fed }) s fun t =>
        (coreAt t i).ended = some (.preempted (coreAt s i).preq.isNone) ∧ (coreAt t i).ctx0 = .reset ∧
        (coreAt t i).ctx1 = .reset ∧ (∀ a : AnvilId, ((coreAt t i).anvil a).active.st = .empty) ∧
        readWord t (csBase i + seqSaveOff s i) = w64 (seqHeader s i)) ∧
    (∀ k x u, (coreAt s i).task = some x → x.slot = some k → quenched s = false → (coreAt s i).ctx0.stat = .restoring →
      saveOff s i + saveLen ≤ csSize → seqSaveBad s i = false →
      (memRead s (slotAddr s k) (saveLen + seqSaveLen)).2.1 = .ok →
      u = copyFromSlot (memRead s (slotAddr s k) (saveLen + seqSaveLen)).1 i x
        (memRead s (slotAddr s k) (saveLen + seqSaveLen)).2.2 →
      Answers (.taskRestore { core := i }) s fun t =>
        (∀ code, restoreFault u i = some code → t = faultAbort u i 0 0 code 0 false) ∧
        (restoreFault u i = none → (coreAt t i).g = readWords t (csBase i + seqSaveOff s i + 0x40) 32 ∧
          (coreAt t i).task = some { x with slot := none, kept := [], mons := [] } ∧
          (hearthAt t (k / 256)).slots = (hearthAt s (k / 256)).slots.filter (· != k % 256)))

/-! ## Moves, fabric instructions and collectives (R200 to R202, R260, R261, R280, R304 to R324) -/

/-- R200, R201: a plain MCOPY within core store copies each row to its place, and MFILL repeats its pattern; every other
byte is as before.

R202, R280: FPUT and FGET with the own node move bytes between core store and DRAM; with another node of the domain they
send one request for each piece and wait for them all. -/
def Obligations.MovesPutsAndGets : Prop :=
  (∀ (i : CoreId) (k : CtxId) (f : Fields) (s : State) (x : QForm) (w : MoveWord), w = moveWordOf (readG s i k f.c.toNat) →
    (∀ src dst, moveOf (.mcopy i k f) = some x → queueGo s x = true → mcopyLayout f = 0 → mcopySrcSpace f = 1 →
      mcopyDstSpace f = 1 → src = (readG s i k f.a.toNat).toNat → dst = (readG s i k f.b.toNat).toNat →
      (w.bytes ≤ dstStride f ∨ w.rows = 1) →
      (src + spanOf w (srcStride f) ≤ dst ∨ dst + spanOf w (dstStride f) ≤ src) →
      Answers (.mcopy i k f) s fun t =>
        (∀ r, r < w.rows → readBytes t (csBase i + dst + r * dstStride f) w.bytes
          = readBytes s (csBase i + src + r * srcStride f) w.bytes) ∧
        memSameOutside s t (csBase i + dst) (spanOf w (dstStride f)) ∧ startedIn t x (x.entry s false) ∧
        t = { s with cores := s.cores.set i (coreAt t i), mem := t.mem }) ∧
    (moveOf (.mfill i k f) = some x → queueGo s x = true → f.modBits 106 105 = 1 → Answers (.mfill i k f) s fun t =>
      (∀ j, j < w.rows * w.bytes / 8 →
        readWord t (csBase i + (readG s i k f.b.toNat).toNat + 8 * j) = f.imm) ∧
      memSameOutside s t (csBase i + (readG s i k f.b.toNat).toNat) (w.rows * w.bytes) ∧
      startedIn t x (x.entry s false) ∧ t = { s with cores := s.cores.set i (coreAt t i), mem := t.mem })) ∧
  (∀ (i : CoreId) (k : CtxId) (f : Fields) (s : State) (x : QForm) (loc rem n : Nat),
    loc = (readG s i k f.a.toNat).toNat → rem = (readG s i k f.b.toNat).toNat → n = fabLen f →
    fabVia f = false → fabSpace f = 1 → 0 < n →
    (moveOf (.fput i k f) = some x → queueGo s x = true → fabHeld s i (x.entry s false) = false →
      (rem / 2 ^ 48 = ownNode s → openDram s (rem % 2 ^ 48) n → Answers (.fput i k f) s fun t =>
        readBytes t (rem % 2 ^ 48) n = readBytes s (csBase i + loc) n ∧ memSameOutside s t (rem % 2 ^ 48) n ∧
        startedIn t x (x.entry s false)) ∧
      (rem / 2 ^ 48 ≠ ownNode s → nodeReachable s (rem / 2 ^ 48) = true → hasPath s (dstAt s (rem / 2 ^ 48)) = true →
        Answers (.fput i k f) s fun t =>
        pendingTo t (rem / 2 ^ 48) = pendingTo s (rem / 2 ^ 48) + (ylpPieceList (rem % 2 ^ 48) n).length ∧
        memSame s t ∧ (entryOf t i .fab (x.entry s false).qid).map (·.awaits)
          = some (ylpPieceList (rem % 2 ^ 48) n).length)) ∧
    (moveOf (.fget i k f) = some x → queueGo s x = true → fabHeld s i (x.entry s false) = false →
      (rem / 2 ^ 48 = ownNode s → openDram s (rem % 2 ^ 48) n → Answers (.fget i k f) s fun t =>
        (entryOf t i .fab (x.entry s false).qid).map entryData = some (readBytes s (rem % 2 ^ 48) n) ∧ memSame s t) ∧
      (rem / 2 ^ 48 ≠ ownNode s → nodeReachable s (rem / 2 ^ 48) = true → hasPath s (dstAt s (rem / 2 ^ 48)) = true →
        Answers (.fget i k f) s fun t =>
        pendingTo t (rem / 2 ^ 48) = pendingTo s (rem / 2 ^ 48) + (ylpPieceList (rem % 2 ^ 48) n).length ∧
        memSame s t)))

/-- R260, R261, R298: FATOM applies its operation to a word of DRAM and keeps the old value for gD; FRED combines words
within a line; FGATH reads the lines of its list; FSEND puts its message on its connection. -/
def Obligations.AtomicReduceGatherSend : Prop :=
  ∀ (i : CoreId) (k : CtxId) (f : Fields) (s : State) (x : QForm),
    (moveOf (.fatom i k f) = some x → queueGo s x = true → fabHeld s i (x.entry s false) = false → fabSpace f = 0 →
      openDram s (readG s i k f.a.toNat).toNat 8 → Answers (.fatom i k f) s fun t =>
        readWord t (readG s i k f.a.toNat).toNat = atomicResult (f.modBits 110 107)
          (readWord s (readG s i k f.a.toNat).toNat) (readG s i k f.b.toNat) (readG s i k f.c.toNat) ∧
        memSameOutside s t (readG s i k f.a.toNat).toNat 8 ∧
        (entryOf t i .fab (x.entry s false).qid).map entryData
          = some (beBytes 8 (readWord s (readG s i k f.a.toNat).toNat).toNat)) ∧
    (∀ n, moveOf (.fred i k f) = some x → queueGo s x = true → fabHeld s i (x.entry s false) = false → fabSpace f = 0 →
      fabLen f = 8 * n → (readG s i k f.b.toNat).toNat % 128 + 8 * n ≤ 128 →
      openDram s (readG s i k f.b.toNat).toNat (8 * n) → Answers (.fred i k f) s fun t =>
        readWords t (readG s i k f.b.toNat).toNat n = (reduceWords (f.modBits 110 107)
          (readWords s (readG s i k f.b.toNat).toNat n)
          (readWords s (csBase i + (readG s i k f.a.toNat).toNat) n)).1 ∧
        memSameOutside s t (readG s i k f.b.toNat).toNat (8 * n)) ∧
    (moveOf (.fgath i k f) = some x → queueGo s x = true → fabHeld s i (x.entry s false) = false →
      (∀ v ∈ readWords s (csBase i + (readG s i k f.a.toNat).toNat) (fgathN f),
        v.toNat % 128 = 0 ∧ v.toNat / 2 ^ 48 = ownNode s ∧ openDram s (v.toNat % 2 ^ 48) 128) →
      Answers (.fgath i k f) s fun t => memSame s t ∧
        (entryOf t i .fab (x.entry s false).qid).map entryData
          = some ((readWords s (csBase i + (readG s i k f.a.toNat).toNat) (fgathN f)).flatMap fun v =>
            readBytes s (v.toNat % 2 ^ 48) 128)) ∧
    (∀ c, moveOf (.fsend i k f) = some x → queueGo s x = true → fabHeld s i (x.entry s false) = false →
      connAt s (fabConn f) = some c → c.error = false → c.waitq = [] → Answers (.fsend i k f) s fun t => memSame s t ∧
        (connAt t (fabConn f)).map (fun c' => (c'.ops.dropLast, c'.spsn, c'.ops.getLast?.map fun o => (o.psn, o.kind, o.data)))
          = some (c.ops, seqAdd c.spsn 1, some (c.spsn, .send,
            readBytes s (csBase i + (readG s i k f.a.toNat).toNat) (fabLen f))))

/-- R304 to R306, R318 to R324: a collective instruction numbers and starts the group's next instance. In a group of one
member FCOLL's reduce-scatter, all-gather, all-reduce and broadcast copy SRC to DST and complete. A barrier, and the step
end, at a member that awaits others stand as arrived; a snapshot opens and waits for the device's fabric instructions; an
inactive group gives the fabric fault. -/
def Obligations.CollectivesStart : Prop :=
  ∀ (i : CoreId) (k : CtxId) (f : Fields) (s : State) (g : Group), sized s = true →
    (∀ c x ws src dst n, ((c = .fcollReduceScatter i k f ∧ dtypeOf ws = 1) ∨ (c = .fcollAllGather i k f ∧ dtypeOf ws = 4) ∨
        (c = .fcollAllReduce i k f ∧ dtypeOf ws = 1) ∨ (c = .fcollBroadcast i k f ∧ dtypeOf ws = 4)) →
      moveOf c = some x → queueGo s x = true → ws = readWords s (csBase i + (readG s i k f.a.toNat).toNat) 8 →
      groupAt s (wfield ws 0 47 32) = some g → fabHeld s i (x.entry s false) = false → g.nodes.length = 1 → g.rank = 0 →
      g.outq = [] → g.aborted = [] → descBad g (collOpOf (x.entry s false)) ws = false →
      src = descSrc ws → dst = descDst ws → n = wfield ws 1 31 0 → openDram s src n → openDram s dst n →
      Answers c s fun t => readBytes t dst n = readBytes s src n ∧ memSameOutside s t dst n ∧
        instOf t g.index = none ∧ (groupAt t g.index).map (·.nextInst) = some ((g.nextInst + 1) % 2 ^ 32) ∧
        (entryOf t i .fab (x.entry s false).qid).map (·.awaits) = some 0) ∧
    (∀ x, moveOf (.fbar i k f) = some x → queueGo s x = true → groupAt s (fabConn f) = some g →
      fabHeld s i (x.entry s false) = false → g.aborted = [] → childrenIn g.size 0 g.rank ≠ [] →
      Answers (.fbar i k f) s fun t => memSame s t ∧
        (groupAt t g.index).map (·.nextInst) = some ((g.nextInst + 1) % 2 ^ 32) ∧
        (instOf t g.index).map (fun y => (y.num, y.op, y.own)) = some (g.nextInst, .barrier, true)) ∧
    (∀ x ws n, moveOf (.fcollStepEnd i k f) = some x → queueGo s x = true →
      ws = readWords s (csBase i + (readG s i k f.a.toNat).toNat) 8 → groupAt s (wfield ws 0 47 32) = some g →
      fabHeld s i (x.entry s false) = false → g.aborted = [] → descBad g .stepEnd ws = false →
      childrenIn g.size 0 g.rank ≠ [] → payloadBad s (readWords s (descSrc ws) 1) = false →
      n = payloadLen (payLayers (readWords s (descSrc ws) 1)) (payPhase (readWords s (descSrc ws) 1)) →
      openDram s (descSrc ws) 8 → openDram s (descSrc ws) (8 * n) →
      Answers (.fcollStepEnd i k f) s fun t => memSame s t ∧
        (instOf t g.index).map (fun y => (y.num, y.op, y.own, y.work))
          = some (g.nextInst, .stepEnd, true, readWords s (descSrc ws) n)) ∧
    (∀ x, moveOf (.fsnap i k f) = some x → queueGo s x = true → groupAt s (fabConn f) = some g →
      fabHeld s i (x.entry s false) = false → g.aborted = [] → snapBad s = false → fabricFenced s = false →
      Answers (.fsnap i k f) s fun t => memSame s t ∧ flag t COL_STATUS COL_STATUS_SNAP_OPEN = true ∧
        (instOf t g.index).map (fun y => (y.num, y.op, y.own, y.ident))
          = some (g.nextInst, .snapshot, false, readG s i k f.a.toNat)) ∧
    (∀ x idx, moveOf (.fbar i k f) = some x → queueGo s x = true → idx = fabConn f → groupAt s idx = none →
      fabHeld s i (x.entry s false) = false → live s i k = true → Answers (.fbar i k f) s fun t => faulted s t i k 5 0x0B)

/-! ## Anvils (R115 to R133) -/

/-- R119, R118, R122, R123: ZERO prepares the shadow set as zero under its tag; LOAD begins and LOAD_COMPLETE ends a load;
SWAP exchanges the sets; the other anvils are as before.

R116, R117, R133: a pass adds its products to each accumulator segment by segment; each addition saturates at the Q48
bound and marks its cell. -/
def Obligations.ShadowsAndCells : Prop :=
  (∀ (i : CoreId) (a : AnvilId) (s : State) (e : QEntry), sized s = true → anvilsLive s i = true → lanesTile s i = true →
    (nextFor s i a opAzero = some e → shadowFree (anvilAt s i a) = true → Answers (.zero i a) s fun t =>
      coreOnly s t i ∧ anvilAt t i a = { anvilAt s i a with shadow := zeroSet (tagOf e) } ∧ otherAnvils s t i a) ∧
    (nextFor s i a opAload = some e → shadowFree (anvilAt s i a) = true →
      (loadSet s i a (tagOf e) (loadSrcOf e)).isSome = true → Answers (.load i a false) s fun t =>
      coreOnly s t i ∧ anvilAt t i a = { anvilAt s i a with load := some ⟨tagOf e, e.qid⟩ } ∧ otherAnvils s t i a) ∧
    (∀ l r, (anvilAt s i a).load = some l → entryOf s i (anvilLane s i a) l.qid = some e →
      loadSet s i a l.tag (loadSrcOf e) = some r → Answers (.loadComplete i a) s fun t =>
      coreRegsRec s t i ∧ anvilAt t i a = { anvilAt s i a with shadow := r.1, load := none } ∧ otherAnvils s t i a) ∧
    (nextFor s i a opAswap = some e → passOn s i a = false → (anvilAt s i a).load = none →
      (anvilAt s i a).drain = none → (anvilAt s i a).shadow.st ≠ .finished → Answers (.swap i a) s fun t =>
      coreOnly s t i ∧ anvilAt t i a = swapSets (anvilAt s i a) ∧ otherAnvils s t i a)) ∧
  (∀ (x : AccSet) (segs : List (List Nat)) (acts wgts : List RowVal) (r j : Nat) (ra rb : RowVal), r < 32 → j < 64 →
    acts[r]? = some ra → wgts[j]? = some rb →
    let c := (segs.map fun es => segment ra rb es).foldl addSegment (cellAt x (64 * r + j))
    (addPass x segs acts wgts).acc.getD (64 * r + j) 0 = BitVec.ofInt 48 c.acc ∧
    (addPass x segs acts wgts).sat.getD (64 * r + j) false = c.sat ∧
    (addPass x segs acts wgts).acc.length = 2048 ∧
    ((x.acc.getD (64 * r + j) 0).toInt.natAbs < 2 ^ 47 → c.acc.natAbs < 2 ^ 47))

/-- R121, R129, R130, R131: MULTIPLY_ACCUMULATE asks for the ramp of its anvils, and starts the pass once they are at full
activity; PASS_COMPLETE adds every product to the accumulators and frees the lane; RAMP_STAGE moves a ramp by one stage. -/
def Obligations.Passes : Prop :=
  ∀ (i : CoreId) (s : State), sized s = true → anvilsLive s i = true →
    (∀ lane e, nextPass s i lane = some e → lanesTile s i = true →
      (anvList (anvMask e.f)).any (fun b => rampUpReq (anvilAt s i b).ramp != .full) = true →
      Answers (.multiplyAccumulate i lane false) s fun t => memSame s t ∧ regsSameBut s t [] ∧
        (∀ a : AnvilId, (anvilAt t i a) = if (anvMask e.f).testBit a then
          { anvilAt s i a with ramp := rampUpReq (anvilAt s i a).ramp } else anvilAt s i a)) ∧
    (∀ lane e, nextPass s i lane = some e → rampsFull s i (anvMask e.f) = true → lanePass s i lane = none →
      (∀ a ∈ anvList (anvMask e.f), (anvilAt s i a).active.st = .running ∧ (anvilAt s i a).active.tag = tagOf e) →
      passFault s i e = none → lanesTile s i = true →
      Answers (.multiplyAccumulate i lane false) s fun t => memSame s t ∧
        (lanePass t i lane).map (fun p => (p.qid, p.tag, p.anv.toNat, p.fmt, p.pc, p.base))
          = some (e.qid, tagOf e, anvMask e.f, amacFmt e.f, e.pc, e.pos)) ∧
    (∀ lane p, lanePass s i lane = some p → coreSaving s i = false → rampsFull s i p.anv.toNat = true →
      Answers (.passComplete i lane) s fun t => memSame s t ∧ lanePass t i lane = none ∧ regsSameBut s t [CORE_VOIDCNT i] ∧
        ∀ a : AnvilId, (anvilAt t i a).active = (anvilAt (applyPass s i p p.count) i a).active) ∧
    (∀ (a : AnvilId) n, (anvilAt s i a).ramp = .up n → passPending s i a = true → Answers (.rampStage i a) s fun t =>
      memSame s t ∧ regsSameBut s t [] ∧ otherAnvils s t i a ∧
      anvilAt t i a = { anvilAt s i a with ramp := if 6 ≤ n then .full else .up (n + 1) })

/-- R124 to R127, R133: DRAIN starts the drain of the Finished set, row by row from row 31; a raw row is written where its
descriptor says; DRAIN_COMPLETE ends it and counts a saturated tile. R77: a completed fused drain flushes a sub-floor Q16 row.

R163 to R165: FUSED_OUTPUT_ROW writes the oldest row handed on as a piece of its output row, and its trailer; a piece
beyond the row writes nothing. -/
def Obligations.DrainsAndFusedRows : Prop :=
  (∀ (i : CoreId) (a : AnvilId) (s : State), sized s = true →
    (∀ e, nextFor s i a opAdrain = some e → anvilsLive s i = true → lanesTile s i = true → coreSaving s i = false →
      (anvilAt s i a).drain = none → (anvilAt s i a).load = none → (anvilAt s i a).shadow.st = .finished →
      (anvilAt s i a).shadow.tag = tagOf e →
      (adrainDest e.f = 0 → fusedFault (readWords s (csBase i + e.ga.toNat) 8) (anvList (anvMask e.f)) = none) →
      (fillSet s i a (fillOf e)).isSome = true → Answers (.drain i { anvil := a }) s fun t =>
      coreOnly s t i ∧ otherAnvils s t i a ∧
      (anvilAt t i a).drain.map (fun d => (d.tag, d.left, d.qid, d.set)) = some (tagOf e, 32, e.qid, (anvilAt s i a).shadow)) ∧
    (∀ d addr stride, (anvilAt s i a).drain = some d → d.left ≠ 0 → domState s (domOf i) ≤ 1 →
      d.dest = .raw addr stride → drainFailed s i a d = false → residueMiss d.set (d.left - 1) = none → Answers (.drainRow i a none) s fun t =>
      (∃ bs, bs = rawRowBytes d.set (d.left - 1) ∧
        readBytes t (csBase i + addr + (32 * a + (d.left - 1)) * stride) bs.length = bs ∧
        memSameOutside s t (csBase i + addr + (32 * a + (d.left - 1)) * stride) bs.length) ∧
      (anvilAt t i a).drain = some { d with left := d.left - 1 } ∧ otherAnvils s t i a) ∧
    (∀ d desc, (anvilAt s i a).drain = some d → d.left ≠ 0 → domState s (domOf i) ≤ 1 →
      d.dest = .fused desc → drainFailed s i a d = false → residueMiss d.set (d.left - 1) = none → Answers (.drainRow i a none) s fun t =>
      memSame s t ∧ otherAnvils s t i a ∧
      (anvilAt t i a).drain = some { d with left := d.left - 1, handed := d.handed ++ [d.left - 1] }) ∧
    (∀ d, (anvilAt s i a).drain = some d → d.left = 0 → d.handed = [] → drainFailed s i a d = false →
      Answers (.drainComplete i a) s fun t =>
      ((∃ addr stride, d.dest = .raw addr stride) ∨
        ((fusedDescOf d.desc).mon = false ∧ ((fusedDescOf d.desc).ofmt ≠ 0x10 ∨ (fusedDescOf d.desc).oexp ≠ -127)) →
        memSame s t) ∧
      otherAnvils s t i a ∧ anvilAt t i a = { anvilAt s i a with drain := none } ∧
      getF t (CORE_TILESAT i) CORE_TILESAT_SATTILES
        = satAdd 0xFFFFFFFF (getF s (CORE_TILESAT i) CORE_TILESAT_SATTILES) (if d.anySat then 1 else 0)) ∧
    (∀ (d : FusedDesc) (r : Nat) (v : RowVal), readRow s i (d.dest + r * d.stride) 0x10 d.len false false = some v →
      (v.exp = -127 ∧ (∀ q ∈ v.codes, q.natAbs < 16384) → ∃ bs,
        bs = (zeroQuant 0x10 (v.codes.map fun _ => false) false).row 0x10 false ∧
        readBytes (flushOut i d s r) (csBase i + d.dest + r * d.stride) bs.length = bs ∧
        flag (flushOut i d s r) (CORE_NUMSTAT i) CORE_NUMSTAT_FORCED = true) ∧
      (¬ (v.exp = -127 ∧ ∀ q ∈ v.codes, q.natAbs < 16384) → flushOut i d s r = s))) ∧
  (∀ (i : CoreId) (a : AnvilId) (s : State) (d : DrainRun) (r : Nat) (rest : List Nat) (e : QEntry) (fd : FusedDesc),
    sized s = true → (anvilAt s i a).drain = some d → d.handed = r :: rest →
    entryOf s i (anvilLane s i a) d.qid = some e → fd = fusedDescOf d.desc →
    (fd.len ≤ 64 * (fd.colblk + a) → ∀ ecc, Answers (.fusedOutputRow i ⟨a, ecc⟩) s fun t =>
      coreOnly s t i ∧ (anvilAt t i a).drain = some { d with handed := rest } ∧ otherAnvils s t i a) ∧
    (∀ parts zs, 64 * (fd.colblk + a) < fd.len → fusedParts s i a r fd = some parts → fd.mon = false →
      e.failed = none → (anvilAt s i a).poison = false →
      zs = (List.range (min 64 (fd.len - 64 * (fd.colblk + a)))).map (fusedZ fd d.set parts a r) →
      Answers (.fusedOutputRow i { anvil := a }) s fun t =>
        (anvilAt t i a).drain = some { d with handed := rest } ∧ otherAnvils s t i a ∧
        readWord t (csBase i + fd.dest + r * fd.stride + rowSize fd.ofmt (fusedLane fd) fd.len - 8)
          = w64 (encodeTrailer ⟨fusedLane fd, false, fd.len, fd.ofmt, fd.oexp⟩) ∧
        (∀ b, readByte t b
          = readByte (writePiece s i a r fd (pieceOf fd zs ((d.set.sat.drop (64 * r)).take 64))) b) ∧
        getF t (CORE_FOSATCNT i) CORE_FOSATCNT_FOSAT = satAdd 0xFFFFFFFF (getF s (CORE_FOSATCNT i) CORE_FOSATCNT_FOSAT)
          (countTrue (pieceOf fd zs ((d.set.sat.drop (64 * r)).take 64)).sats)))

/-! ## Registers, domains, trim and tasks (R13, R14, R24 to R32, R46 to R54, R141, R148, R149, R221, R253, R378) -/

/-- R13, R14: what a management write leaves in each field, by its access code, for a register whose write starts no
action; a write that an agent may not make, or to an unassigned address, changes nothing; no other register changes.

R13, R14: a management read answers the value of the register and clears its read-to-clear fields to their reset
values; an unassigned address, and a register that the agent may not read, answer 0 and change nothing else. -/
def Obligations.ManagementRegisters : Prop :=
  (∀ (agent : BitVec 8) (addr val : Word32) (s : State),
    (∀ d f, mayWrite s agent.toNat addr.toNat = true → regAt addr.toNat = some d → plainReg addr.toNat = true →
      f ∈ d.fields → Answers (.registerWrite agent addr val) s fun t =>
        bitsOf f.hi f.lo (getR t addr.toNat).toNat = (match f.acc with
          | .rw => if fieldKept s addr.toNat val.toNat f then bitsOf f.hi f.lo (getR s addr.toNat).toNat
            else bitsOf f.hi f.lo val.toNat
          | .rwl => if committed s || agent.toNat != 1 || fieldKept s addr.toNat val.toNat f then
              bitsOf f.hi f.lo (getR s addr.toNat).toNat
            else bitsOf f.hi f.lo val.toNat
          | .rw1c => bitsOf f.hi f.lo (getR s addr.toNat).toNat &&&
              (2 ^ (f.hi + 1 - f.lo) - 1 - bitsOf f.hi f.lo val.toNat)
          | _ => bitsOf f.hi f.lo (getR s addr.toNat).toNat) ∧
        regsSameBut s t [addr.toNat] ∧ t = { s with regs := t.regs, recorder := t.recorder }) ∧
    ((mayWrite s agent.toNat addr.toNat = false ∨ (regAt addr.toNat).isNone = true) →
      Answers (.registerWrite agent addr val) s fun t => t = s)) ∧
  (∀ (agent : BitVec 8) (addr : Word32) (s : State),
    (∀ d f, mayRead s agent.toNat addr.toNat = true → regAt addr.toNat = some d → isLockReg addr.toNat = false →
      isWindowReg addr.toNat = false →
      f ∈ d.fields → Answers (.readClearRegister agent addr) s fun t =>
        t.answer = .value (regView s addr.toNat) ∧
        bitsOf f.hi f.lo (getR t addr.toNat).toNat =
          (if f.acc = .rc then f.reset else bitsOf f.hi f.lo (getR s addr.toNat).toNat) ∧
        regsSameBut s t [addr.toNat] ∧ t = { s with regs := t.regs, ylp := t.ylp, answer := t.answer }) ∧
    ((mayRead s agent.toNat addr.toNat = false ∨ (regAt addr.toNat).isNone = true) →
      Answers (.readClearRegister agent addr) s fun t => t = { s with answer := .value 0 }))

/-- R24 to R28, R253, R402, R406: the commands of a control domain. Switching off and a self-test make an On domain leave,
unless R26 holds them; an Off domain is switched On with its core stores to clear; a command waits while a transition is in
progress; a domain with no task left goes Off or into its test; the clear zeroes its core stores; a test ends with the domain
On and its failing cores retired.

R378: a core whose retirement is due leaves service on the beat it holds no task; R379 counts it. -/
def Obligations.DomainsAndRetirement : Prop :=
  (∀ (u : DomId) (s : State), sized s = true →
    (∀ c d, ((c = .domainSwitchOff u ∧ d = .off) ∨ (c = .domainSelfTestStart u ∧ d = .test ∧ testRuns s (u / 8) = false)) →
      quenched s = false → inTransition s u = false → domState s u = 0 →
      (wouldStrand s u = false → Answers c s fun t => domOnly s t u ∧ domState t u = 1 ∧
        domainAt t u = { (domainAt s u) with target := some d }) ∧
      (wouldStrand s u = true → (domainAt s u).held = [] → Answers c s fun t => domState t u = 0 ∧
        domainAt t u = { (domainAt s u) with held := [d] } ∧ t = { s with domains := t.domains, recorder := t.recorder } ∧
        t.recorder = (makeRecord s (srcStriker (u / 8)) 0x080 [w64 (u + (if d = .off then 0 else 256))]).recorder)) ∧
    (quenched s = false → inTransition s u = false → domState s u = 2 → Answers (.domainSwitchOn u) s fun t =>
      domOnly s t u ∧ domState t u = 0 ∧ domainAt t u =
        { (domainAt s u) with target := none, testing := false, window := none, clearing := true }) ∧
    (∀ c d, ((c = .domainSwitchOff u ∧ d = .off) ∨ (c = .domainSelfTestStart u ∧ d = .test) ∨
        (c = .domainSwitchOn u ∧ d = .on)) → (quenched s = true ∨ inTransition s u = true) →
      Answers c s fun t => t = { s with domains := t.domains } ∧ d ∈ (domainAt t u).pending) ∧
    (∀ d, quenched s = false → domState s u = 1 → domainIdle s u = true → (domainAt s u).target = some d →
      (domainAt s u).pending = [] → Answers (.domainLeft u) s fun t => domOnly s t u ∧
        (domainAt t u).target = none ∧ domState t u = (if d = .off then 2 else 3) ∧
        (domainAt t u).testing = (if d = .off then (domainAt s u).testing else decide (d = .test))) ∧
    ((domainAt s u).clearing = true → domQuiet s = true → s.job = none → Answers (.coreStoreClearDone u) s fun t =>
      t = { s with mem := t.mem, domains := t.domains } ∧ (domainAt t u).clearing = false ∧
      (∀ i ∈ domCores u, ∀ off, off < 0x200000 → readByte t (csBase i + off) = 0) ∧
      (∀ a, (∀ i ∈ domCores u, a < csBase i ∨ csBase i + 0x200000 ≤ a) → readByte t a = readByte s a)) ∧
    (quenched s = false → domState s u = 3 → (domainAt s u).testing = true → (domainAt s u).window = none →
      (Answers (.domainSelfTestComplete u []) s fun t => domState t u = 0 ∧ (domainAt t u).clearing = true ∧
        getF t PWR_TEST PWR_TEST_LASTDOM = u ∧ regsSameBut s t [PWR_TEST, DEV_DOM_STATE] ∧
        t = { s with regs := t.regs, domains := t.domains }) ∧
      (∀ h p i, i = 64 * (u.val / 8) + 8 * (h.val % 8) + u.val % 8 → coreRetired s i = false →
        Answers (.domainSelfTestComplete u [(h, p)]) s fun t => coreRetired t i = true ∧ domState t u = 0 ∧
          getF t PWR_TEST PWR_TEST_FAILS = min 255 (getF s PWR_TEST PWR_TEST_FAILS + 1) ∧
          flag t DEV_STATUS DEV_STATUS_DEGRADED = true))) ∧
  (∀ (i : CoreId) (cause : Nat) (s : State), sized s = true → (coreAt s i).retireDue = some cause →
    (coreHoldsTask s i = true → Answers (.coreRetire i) s fun t => t = s) ∧
    (coreHoldsTask s i = false → coreRetired s i = false → Answers (.coreRetire i) s fun t =>
      coreRetired t i = true ∧ inService t i = false ∧ (∀ j : CoreId, j ≠ i → coreRetired t j = coreRetired s j) ∧
      flag t DEV_STATUS DEV_STATUS_DEGRADED = true ∧ (coreAt t i).retireDue = none))

/-- R30, R141, R148, R178, R206, R221: a ready task starts on a free core with its record beside the save areas, g1 and g2
set and every other register zero; a part that is done leaves, and with the last the core is free; a preempted task returns
to the ready queue and a faulted one is queued again at its head. -/
def Obligations.TaskLife : Prop :=
  ∀ (s : State), sized s = true →
    (∀ (h : HearthId) x i, dispatchOpen s = true → nextTask s h = some (x, i) → wfield x.record 0 63 48 = 0x0A53 →
      x.slot = none → x.mbox = none → Answers (.taskDispatch h) s fun t =>
        (coreAt t i).task = some (noteMoved i x) ∧ (coreAt t i).g = startG s i (recordOff s i) (taskSplit x) ∧ (coreAt t i).p = 0 ∧
        (coreAt t i).ctx0 = startCtx x 0 ∧ (coreAt t i).ctx1 = (if taskSplit x then startCtx x 1 else .reset) ∧
        (coreAt t i).sc = List.replicate 16 0 ∧ isSplit t i = taskSplit x ∧
        readWords t (csBase i + recordOff s i) 8 = padWords 8 x.record ∧
        memSameOutside s t (csBase i + recordOff s i) 64 ∧
        (hearthAt t h).ready = (hearthAt s h).ready.erase x) ∧
    (∀ (i : CoreId) (k : CtxId) x, (coreAt s i).task = some x → quenched s = false → (ctxAt s i k).partDone = true →
      x.parts.toNat = 2 ^ k.val → x.fails = 0 → s.job = none → Answers (.taskComplete i k) s fun t =>
        coreAndReady s t i ∧ coreAt t i = taskGone (coreAt s i) ∧
        (x.entry = none → t.hearths = s.hearths) ∧ (∀ h : HearthId, (hearthAt t h).ready = (hearthAt s h).ready) ∧
        (∀ idx, x.entry = some idx → ∀ e ∈ (hearthAt s (taskHearth x.record)).out, e.idx = idx →
          { e with left := e.left - 1 } ∈ (hearthAt t (taskHearth x.record)).out)) ∧
    (∀ (i : CoreId) (k : CtxId) x, (coreAt s i).task = some x → quenched s = false → (ctxAt s i k).partDone = true →
      x.parts = 3 → Answers (.taskComplete i k) s fun t => coreOnly s t i ∧
        coreAt t i = { (coreAt s i) with task := some { x with parts := if k = 0 then 2 else 1 } }) ∧
    (∀ (i : CoreId) x e h, (coreAt s i).task = some x → (coreAt s i).ended = some e → quenched s = false →
      contextsOver s i = true → h = queueHome s (hearthOf i) → h < 16 →
      (e = .preempted true → Answers (.taskReturn i) s fun t => coreAndReady s t i ∧ coreAt t i = taskGone (coreAt s i) ∧
        (hearthAt t h).ready = (hearthAt s h).ready ++ [x]) ∧
      (e = .preempted false → Answers (.taskReturn i) s fun t => coreAndReady s t i ∧ coreAt t i = taskGone (coreAt s i) ∧
        (hearthAt t h).ready = x :: (hearthAt s h).ready) ∧
      (∀ code, e = .hardware code false → code ≠ 0x0D → x.fails = 0 → x.slot = none → x.moved = false →
        inService s i = true → Answers (.taskReturn i) s fun t =>
        coreAndReady s t i ∧ coreAt t i = taskGone (coreAt s i) ∧
        (hearthAt t h).ready = ⟨x.record, x.entry, x.mbox, none, 1, some i.val,
          if taskSplit x then (coreAt s i).endedParts else 1, false, [], []⟩ :: (hearthAt s h).ready) ∧
      (e = .program → s.job = none → Answers (.taskReturn i) s fun t => coreAt t i = taskGone (coreAt s i) ∧
        (x.slot = none → ∀ j : HearthId, (hearthAt t j).ready = (hearthAt s j).ready)))

/-- R149: a write to SPLIT takes effect only when no tag is live on any anvil of the core; at any other time it changes nothing
but the split-refused record that it makes. -/
def Obligations.SplitWrites : Prop :=
  ∀ (i : CoreId) (v : Bool) (s : State),
    (tagsLive s i = false → Answers (.splitWrite i v) s fun t =>
      isSplit t i = v ∧ regsSameBut s t [CORE_TILECTL i] ∧ t = { s with regs := t.regs }) ∧
    (tagsLive s i = true → Answers (.splitWrite i v) s fun t => ∃ src, t = makeRecord s src 0x107 [])

/-- R48, R50 to R52: a window opens on an idle On domain; after 60 s without one a window is forced; a sweep sets the code of
Table 2-5 from the smallest slack, for a domain and for a weld direction; the trim record is rewritten at most once an hour.

R34, R54: a failed transfer of the weld is retried and sixteen successive failures fail the weld; while it is up, base
die 1's copy of local time is corrected to base die 0's counter. -/
def Obligations.TrimAndWeld : Prop :=
  (∀ (s : State), sized s = true →
    (∀ u : DomId, domState s u = 0 → inTransition s u = false → (domainAt s u).window = none → quenched s = false →
      (domainIdle s u = true → domainAnvilsIdle s u = true → Answers (.measurementWindowNatural u) s fun t =>
        domOnly s t u ∧ domainAt t u = { (domainAt s u) with window := some false }) ∧
      (60000000000 ≤ s.time.ns - (domainAt s u).lastWindow → testRuns s (u / 8) = false → wouldStrand s u = false →
        Answers (.measurementWindowForced u) s fun t => domOnly s t u ∧ domState t u = 1 ∧
          domainAt t u = { (domainAt s u) with target := some .window })) ∧
    (∀ (u : DomId) slacks r m, (domainAt s u).window = some false → quenched s = false → (domainAt s u).pending = [] →
      smallestSlack ((domReplicas u).zip (slacks.map (·.toNat))) = some (r, m) →
      Answers (.measurementWindowComplete u slacks) s fun t => (domainAt t u).window = none ∧
        (domainAt t u).lastWindow = s.time.ns ∧ (domainAt t u).code =
          (if m < 2 then min 15 ((domainAt s u).code + 2) else if m < 6 then min 15 ((domainAt s u).code + 1)
           else if 15 ≤ m ∧ 4 ≤ (domainAt s u).high + 1 then
             max (Config.factoryCode u) ((domainAt s u).code - 1) else (domainAt s u).code) ∧
        (domainAt t u).high = (if 15 ≤ m then (domainAt s u).high + 1 else 0) ∧ memSame s t) ∧
    (∀ (w : Fin 2) slacks r m, s.weld.up = true → (weldDir s w).code ≠ 15 →
      smallestSlack ((weldReplicas w).zip (slacks.map (·.toNat))) = some (r, m) →
      Answers (.weldMeasurement w slacks) s fun t => (weldDir t w).code =
          (if m < 2 then min 15 ((weldDir s w).code + 2) else if m < 6 then min 15 ((weldDir s w).code + 1)
           else if 15 ≤ m ∧ 4 ≤ (weldDir s w).high + 1 then
             max (Config.factoryCode (16 + w)) ((weldDir s w).code - 1) else (weldDir s w).code) ∧
        (weldDir t w).lastWindow = s.time.ns ∧ weldDir t (1 - w) = weldDir s (1 - w) ∧ memSame s t) ∧
    (∀ t0, s.boot.trimDirty = true → s.boot.slotBusy = none → s.boot.trimAt = some t0 →
      (3600000000000 ≤ s.time.ns - t0 → Answers .trimRecordWrite s fun t => t = { s with boot := t.boot } ∧
        t.boot.trimDirty = false ∧ t.boot.trimAt = some s.time.ns) ∧
      (s.time.ns - t0 < 3600000000000 → Answers .trimRecordWrite s fun t => t = s))) ∧
  (∀ (w : Fin 2) (s : State), s.weld.up = true →
    (Answers (.weldTransferRetry w true) s fun t => t = { s with weld := t.weld } ∧
      weldDir t w = { (weldDir s w) with fails := 0 } ∧ weldDir t (1 - w) = weldDir s (1 - w)) ∧
    ((weldDir s w).fails < 15 → Answers (.weldTransferRetry w false) s fun t => t = { s with weld := t.weld } ∧
      weldDir t w = { (weldDir s w) with fails := (weldDir s w).fails + 1, retries := (weldDir s w).retries + 1 } ∧
      weldDir t (1 - w) = weldDir s (1 - w)) ∧
    (15 ≤ (weldDir s w).fails → Answers (.weldTransferRetry w false) s fun t => t.weld.up = false ∧ t.weld.failed = true ∧
      flag t DEV_STATUS DEV_STATUS_WELD_UP = false ∧ flag t DEV_STATUS DEV_STATUS_WEDGED = true) ∧
    (Answers .timeCopyCorrection s fun t =>
      t = { s with time := { s.time with half1 := s.time.ns, tracking := true } }))

/-! ## The schedule and the step end (R110, R168, R217 to R230, R361) -/

/-- R220, R221, R223, R228: an entry whose arrivals are in queues its tasks, with MB and STEP written into each copy; a
dropped entry is skipped and passes DROP on; an entry whose tasks are over counts its backward layers, unless a hearth has
skipped it, or taints them when it failed, and leaves every hearth.

R224, R236: an entry that is held past the limit of its job, for its arrivals, its rows or the end of the step, is recorded
and posted once, and goes on waiting.

R110, R168, R220, R230: the step-end entry is released once everything before it is over; its result holds the step
for a hold round or a ratio, or lets the updates begin; with no task of them left the step ends, and its number rises. -/
def Obligations.ScheduleAndStepEnd : Prop :=
  (∀ (h : HearthId) (s : State) (k e : Nat), sized s = true → s.job.map (·.started) = some true → e = schedEntry s k →
    (atPhase s h = some k → skips s e = false → arrived s e = true → outstanding s h < 2 →
      (entryKind e = 0 → rowsArrived s (entryChunk e) = true) → allOpen s (recordReads (entryDesc s e)) = true →
      queueHome s h = h → Answers (.phaseRelease h) s fun t => t = { s with hearths := t.hearths } ∧
        (∀ j : HearthId, j ≠ h →
          hearthAt t j = { hearthAt s j with slice := (hearthAt t j).slice, wbuf := (hearthAt t j).wbuf }) ∧
        (hearthAt t h).walk = k + 1 ∧ (hearthAt t h).out =
          (hearthAt s h).out ++ [⟨k, (hearthTasks s (entryDesc s e) h).length, false⟩] ∧
        (hearthAt t h).ready = (hearthAt s h).ready ++ (hearthTasks s (entryDesc s e) h).map fun ws =>
          newTask (stampRecord ws (entryMb e) (w64 (jobStep s))) (some k) none) ∧
    (atPhase s h = some k → skips s e = true →
      ((entryDesc s e).getD 3 0 = 0 → Answers (.phaseSkip h) s fun t => t = { s with hearths := t.hearths } ∧
        (hearthAt t h).walk = k + 1 ∧ (hearthAt t h).out = (hearthAt s h).out ∧
        (hearthAt t h).ready = (hearthAt s h).ready) ∧
      (∀ a, (entryDesc s e).getD 3 0 ≠ 0 →
        placeOf s 2 (w64 (((entryDesc s e).getD 3 0).toNat + 8 * entryMb e)) = .mem a → openDram s a 8 →
        poisoned s a = false → Answers (.phaseSkip h) s fun t =>
          readWord t a = readWord s a ||| w64 (2 ^ 63) ∧ memSameOutside s t a 8 ∧ (hearthAt t h).walk = k + 1)) ∧
    (overEntry s h true (fun x => entryKind x ≤ 1) = some k → quenched s = false → (entryDesc s e).getD 3 0 = 0 →
      (entryKind e = 0 → Answers (.phaseFail h) s fun t => t = { s with hearths := t.hearths } ∧
        ∀ j : HearthId, hearthAt t j = { (hearthAt s j) with out := (hearthAt s j).out.filter (·.idx != k) }) ∧
      (∀ l, entryKind e = 1 → chunkLayers s (entryChunk e) = [l] → openDram s (gradHeader s l) 8 →
        Answers (.phaseFail h) s fun t =>
          readWord t (gradHeader s l) = w64 (putBits 31 31 (readWord s (gradHeader s l)).toNat 1) ∧
          memSameOutside s t (gradHeader s l) 8 ∧
          ∀ j : HearthId, (hearthAt t j).out = (hearthAt s j).out.filter (·.idx != k))) ∧
    (overEntry s h false (fun x => entryKind x = 1) = some k → quenched s = false → entrySkipped s k = true →
      Answers (.backwardEntryComplete h) s fun t => memSame s t) ∧
    (∀ l, overEntry s h false (fun x => entryKind x = 1) = some k → quenched s = false → entrySkipped s k = false →
      chunkLayers s (entryChunk e) = [l] → openDram s (gradHeader s l) 8 →
      Answers (.backwardEntryComplete h) s fun t =>
        readWord t (gradHeader s l) = w64 (putBits 15 0 (readWord s (gradHeader s l)).toNat
          (min 0xFFFF (bitsOf 15 0 (readWord s (gradHeader s l)).toNat + 1))) ∧
        memSameOutside s t (gradHeader s l) 8 ∧
        ∀ j : HearthId, (hearthAt t j).out = (hearthAt s j).out.filter (·.idx != k))) ∧
  (∀ (h : HearthId) (s : State) (k t0 lim : Nat), sized s = true → standsAt s h = some k →
    (hearthAt s h).heldSince = some t0 → lim = bitsOf 31 0 (jobWord s 14) → lim ≠ 0 →
    (skips s (schedEntry s k) = false ∧ entryKind (schedEntry s k) ≤ 1 ∧ (arrived s (schedEntry s k) = false ∨
        entryKind (schedEntry s k) = 0 ∧ rowsArrived s (entryChunk (schedEntry s k)) = false) ∨
      entryKind (schedEntry s k) = 2 ∧ s.job.map (·.stepEnd) = some 0) →
    ((hearthAt s h).stalled = false → lim * 1000000 ≤ s.time.ns - t0 → Answers (.scheduleStall h) s fun t =>
      (hearthAt t h).stalled = true ∧ (hearthAt t h).walk = k ∧ (hearthAt t h).ready = (hearthAt s h).ready ∧
      t.recorder = (makeRecord s (srcHearth h) 0x283
        [w64 (jobRank s), w64 (schedEntry s k), arrivalWord s (schedEntry s k)]).recorder) ∧
    ((hearthAt s h).stalled = true ∨ s.time.ns - t0 < lim * 1000000 → Answers (.scheduleStall h) s fun t => t = s)) ∧
  (∀ (idx : BitVec 10) (s : State) (j : Job), sized s = true → s.job = some j →
    (j.stepEnd = 0 → j.started = true → dispatchOpen s = true → stepOpen s = true → earlierOver s = true →
      entryKind (schedEntry s (schedCount s - 1)) = 2 → s.surv.adopts = [] →
      allOpen s [(jobWord s 7 + 32 * 16, 32), (wfield (phaseDesc s 2 0) 0 63 0, 64 * wfield (phaseDesc s 2 0) 1 63 32)] = true →
      Answers .stepEndRelease s fun t =>
        t = { s with job := some { j with stepEnd := 1 }, hearths := t.hearths } ∧
        ∀ h : HearthId, (hearthAt t h).walk = (hearthAt s h).walk + 1 ∧ (hearthAt t h).out =
          (hearthAt s h).out ++ [⟨schedCount s - 1, (hearthTasks s (phaseDesc s 2 0) h).length, false⟩]) ∧
    (quenched s = false → s.surv.copying = false → idx.toNat = jobGroup s →
      (∀ g, groupAt s idx.toNat = some g → instOf s idx.toNat = none → j.stepEnd = 2 →
        (wfield j.payload 2 37 37 = 0 → wfield j.payload 2 39 39 = 0 → stepTasksOver s = false →
          Answers (.stepEndResult idx) s fun t => inputsWritten s j t ∧
            t.job.map (fun y => (y.stepEnd, y.step, y.vector)) = some (7, j.step, bytesOfWords (payVotes j.payload))) ∧
        (wfield j.payload 2 37 37 = 0 → wfield j.payload 2 39 39 = 0 → stepTasksOver s = true →
          Answers (.stepEndResult idx) s fun t => t.job.map (fun y => (y.stepEnd, y.step)) = some (0, j.step + 1) ∧
            ∀ h : HearthId, (hearthAt t h).walk = 0 ∧ (hearthAt t h).out = []) ∧
        (wfield j.payload 2 37 37 = 0 → wfield j.payload 2 39 39 = 1 → ownsLayer s (wfield j.payload 2 36 27) = false →
          Answers (.stepEndResult idx) s fun t => t = { s with job := t.job } ∧
            t.job.map (fun y => (y.stepEnd, y.stat, y.step)) = some (6, .heldRatio, j.step)) ∧
        (wfield j.payload 2 37 37 = 1 → childrenIn g.size 0 g.rank ≠ [] → Answers (.stepEndResult idx) s fun t =>
          t.job.map (fun y => (y.stepEnd, y.widenDue)) = some (4, true) ∧ memSame s t ∧
          (instOf t idx.toNat).map (fun y => (y.num, y.op, y.own)) = some (g.nextInst, .stepEnd, true))) ∧
      (j.stepEnd = 3 →
        (wfield j.payload 2 38 38 = 1 → Answers (.holdRoundResult idx) s fun t =>
          t.job.map (fun y => (y.stepEnd, y.stat, y.step)) = some (5, .heldWiden, j.step)) ∧
        (wfield j.payload 2 38 38 = 0 → j.ratio = false → j.relItem = none → stepTasksOver s = false →
          Answers (.holdRoundResult idx) s fun t => inputsWritten s j t ∧
            t.job.map (fun y => (y.stepEnd, y.step, y.widenDue)) = some (7, j.step, false)))))

/-! ## Bonded memory (R242 to R264) -/

/-- R244, R249, R250, R252, R255 to R258: a line read answers the words up to the end of its line and a write leaves the
words of its mask, poison apart, and both wait for a channel that is margined again (R264); a miss of an error that retries is counted and one that does not is poisoned; refresh,
re-centring and the scrubber change no byte. -/
def Obligations.LinesAndErrors : Prop :=
  ∀ (ag : Agent) (addr : BitVec 48) (s : State) (a : Nat), sized s = true → a = addr.toNat →
    (∀ words mask data, a < 2 ^ 40 → assigned s a 8 = true → assigned s (lineBase a) 128 = true → channelHeld s a 1 = true →
      (Answers (.lineRead ag addr words 0) s fun t => t = { s with answer := .held }) ∧
      (Answers (.lineWrite ag addr mask data) s fun t => t = { s with answer := .held }) ∧
      (Answers (.sliceMissFill addr .clean) s fun t => t = s)) ∧
    (s.memctl.rerunning = none →
    (∀ words, openDram s (lineBase a) 128 → a % 8 = 0 → poisoned s a = false → Answers (.lineRead ag addr words 0) s fun t =>
      t.answer = .data (readWords s a (min words ((128 - a % 128) / 8))) ∧
      t = { s with answer := t.answer, hearths := t.hearths }) ∧
    (∀ words, a < 2 ^ 40 → assigned s a 8 = false → Answers (.lineRead ag addr words 0) s fun t =>
      t = { s with answer := .unassigned }) ∧
    (∀ mask data, a < 2 ^ 40 → assigned s (lineBase a) 128 = true → (mask = 0xFFFF ∨ poisoned s a = false) →
      Answers (.lineWrite ag addr mask data) s fun t => t.answer = .done ∧ poisoned t a = false ∧
        (∀ k, k < 16 → readWord t (lineBase a + 8 * k) =
          if mask.toNat.testBit k then data.getD k 0 else readWord s (lineBase a + 8 * k)) ∧
        memSameOutside s t (lineBase a) 128 ∧
        t = { s with mem := t.mem, memctl := t.memctl, hearths := t.hearths, answer := .done }) ∧
    (∀ mask data, a < 2 ^ 40 → assigned s (lineBase a) 128 = true → mask ≠ 0xFFFF → poisoned s a = true →
      Answers (.lineWrite ag addr mask data) s fun t => t = { s with answer := .poison }) ∧
    (a < 2 ^ 40 → sliceLine s a = none →
      (Answers (.sliceMissFill addr .clean) s fun t => t = { s with hearths := t.hearths, power := t.power }) ∧
      (Answers (.sliceMissFill addr (.uncorrectable true)) s fun t => memSame s t ∧ regsSameBut s t [MEM_UECNT] ∧
        getF t MEM_UECNT MEM_UECNT_RETRIED = min 0xFFFF (getF s MEM_UECNT MEM_UECNT_RETRIED + 1)) ∧
      (∀ ok, Answers (.sliceMissFill addr (.symbols 1 0 false ok)) s fun t => memSame s t ∧
        getF t (MEM_CECNT (stackOf s a)) MEM_CECNT_CE =
          min 0xFFFFFFFF (getF s (MEM_CECNT (stackOf s a)) MEM_CECNT_CE + 1)) ∧
      (∀ bad meta_ loc, (2 ≤ bad ∨ meta_ ≠ 0 ∨ loc = true) →
        Answers (.sliceMissFill addr (.symbols bad meta_ loc true)) s fun t => memSame s t ∧
          getF t MEM_UECNT MEM_UECNT_RETRIED = min 0xFFFF (getF s MEM_UECNT MEM_UECNT_RETRIED + 1)) ∧
      (Answers (.sliceMissFill addr .corrected) s fun t => memSame s t ∧ regsSameBut s t [MEM_CECNT (stackOf s a)] ∧
        getF t (MEM_CECNT (stackOf s a)) MEM_CECNT_CE =
          min 0xFFFFFFFF (getF s (MEM_CECNT (stackOf s a)) MEM_CECNT_CE + 1)) ∧
      (s.surv.plan = [] → s.surv.wards = [] → s.intake.journal = [] →
        Answers (.sliceMissFill addr (.uncorrectable false)) s fun t => poisoned t a = true ∧ memSame s t ∧
          getF t MEM_UECNT MEM_UECNT_POISONED = min 0xFFFF (getF s MEM_UECNT MEM_UECNT_POISONED + 1) ∧
          (∀ b, lineBase b ≠ lineBase a → poisoned t b = poisoned s b))) ∧
    (∀ (h : HearthId) hot chan, (Answers (.refresh h hot) s fun t => t = { s with hearths := t.hearths } ∧
        hearthAt t h = { (hearthAt s h) with hotRefresh := hot, lastRefresh := s.time.ns }) ∧
      (Answers (.strobeRecentre h chan) s fun t => t = { s with hearths := t.hearths } ∧
        assocGet chan.toNat (hearthAt t h).recentred = some s.time.ns)) ∧
    (∀ raced, a < 2 ^ 40 → getF s MEM_CTL MEM_CTL_SCRUB_HRS ≠ 0 → Answers (.scrubRead (.dram addr .clean raced)) s fun t =>
      t = { s with hearths := t.hearths, power := t.power } ∧
      (hearthAt t (homeOf s a)).scrubbed = (hearthAt s (homeOf s a)).scrubbed + 1) ∧
    (∀ (i : CoreId) off, inService s i = true → Answers (.scrubRead (.coreStore i off 1)) s fun t =>
      getF t (HCH_SCE (hearthOf i)) HCH_SCE_CS_CE =
        min HCH_SCE_CS_CE.cap (getF s (HCH_SCE (hearthOf i)) HCH_SCE_CS_CE + 1) ∧
      regsSameBut s t [HCH_SCE (hearthOf i)] ∧ t = { s with regs := t.regs }))

/-- R260: an atomic applies its operation of Table 7-15 to one aligned word of DRAM as a 64-bit integer and returns the
old value; no other byte changes. -/
def Obligations.CrucibleAtomics : Prop :=
  ∀ (ag : Agent) (addr : BitVec 48) (s : State) (a : Nat) (op : BitVec 4) (x cmp : Word64), sized s = true →
    a = addr.toNat → op.toNat ≤ 9 → a % 8 = 0 → openDram s a 8 → channelHeld s a 8 = false → Answers (.crucibleAtomic ag op addr x cmp) s fun t =>
      t.answer = .data [readWord s a] ∧ memSameOutside s t a 8 ∧
      t = { s with mem := t.mem, hearths := t.hearths, answer := t.answer } ∧
      readWord t a = (match op.toNat with
        | 0 => readWord s a + x
        | 1 => readWord s a &&& x
        | 2 => readWord s a ||| x
        | 3 => readWord s a ^^^ x
        | 4 => if (readWord s a).toInt < x.toInt then x else readWord s a
        | 5 => if x.toInt < (readWord s a).toInt then x else readWord s a
        | 6 => if (readWord s a).toNat < x.toNat then x else readWord s a
        | 7 => if x.toNat < (readWord s a).toNat then x else readWord s a
        | 8 => x
        | _ => if readWord s a = cmp then x else readWord s a)

/-- R253, R261: a reduction combines the words of a line; a word that is poisoned is not changed; a window is read and
written as memory and has no crucible.

R246, R248, R262 to R264: the commands of a region pair, which refuse what the pair's state forbids; its migration;
a margin rerun and the training at the start. -/
def Obligations.CrucibleRegionsMargins : Prop :=
  (∀ (ag : Agent) (addr : BitVec 48) (s : State) (a : Nat), sized s = true → a = addr.toNat →
    (∀ (op : BitVec 4) data, op.toNat ≤ 4 → a % 8 = 0 → data ≠ [] → a % 128 + 8 * data.length ≤ 128 →
      openDram s a (8 * data.length) → channelHeld s a (8 * data.length) = false → Answers (.crucibleReduction ag op addr data) s fun t =>
        t.answer = .done ∧ memSameOutside s t a (8 * data.length) ∧
        readWords t a data.length = (reduceWords op.toNat (readWords s a data.length) data).1) ∧
    (∀ op x cmp data, a < 2 ^ 40 → poisoned s a = true → assigned s a 8 = true → a % 8 = 0 →
      s.memctl.rerunning = none →
      (op.toNat ≤ 9 → Answers (.crucibleAtomic ag op addr x cmp) s fun t => memSame s t ∧ t.answer = .poison) ∧
      (op.toNat ≤ 4 → data.length = 1 → Answers (.crucibleReduction ag op addr data) s fun t =>
        memSame s t ∧ t.answer = .poison)) ∧
    (isWindow a = true → a % 8 = 0 →
      (∀ n, 0 < n → assigned s a (8 * n) = true → Answers (.windowAccess ag addr (.read n) false) s fun t =>
        t = { s with answer := .data (readWords s a n) }) ∧
      (∀ data ecc, data ≠ [] → assigned s a (8 * data.length) = true → Answers (.windowAccess ag addr (.write data) ecc) s fun t =>
        t.answer = .done ∧ readWords t a data.length = data ∧ memSameOutside s t a (8 * data.length) ∧
        t = { s with mem := t.mem, answer := .done }) ∧
      (∀ ecc, Answers (.windowAccess ag addr .atomic ecc) s fun t => memSame s t ∧
        t.answer = (match ag with
          | .fabric _ => .refused
          | _ => .unassigned)))) ∧
  (∀ (agent : BitVec 8) (s : State), sized s = true →
    (∀ p r, p = getF s MEM_RGN_SEL MEM_RGN_SEL_PAIR → r = regionAt s p → mayWrite s agent.toNat MEM_RGN = true →
      (∀ alloc, Answers (.memRgnAlloc agent alloc) s fun t => regionAt t p = { r with alloc := alloc } ∧
        (∀ q, q ≠ p → regionAt t q = regionAt s q) ∧ t = { s with memctl := t.memctl }) ∧
      (r.busy = false → (Answers (.memRgnClose agent) s fun t => regionAt t p = { r with closed := true } ∧
          (∀ q, q ≠ p → regionAt t q = regionAt s q) ∧ t = { s with memctl := t.memctl }) ∧
        (Answers (.memRgnOpen agent) s fun t => regionAt t p = { r with closed := false } ∧
          (∀ q, q ≠ p → regionAt t q = regionAt s q) ∧ t = { s with memctl := t.memctl })) ∧
      (∀ policy, r.closed = true → r.busy = false → policy ≠ r.policy → Answers (.memRgnPolicy agent policy) s fun t =>
        regionAt t p = { r with policy := policy, busy := true } ∧
        (∀ q, q ≠ p → regionAt t q = regionAt s q) ∧ t = { s with memctl := t.memctl }) ∧
      (∀ policy, r.closed = false → policy ≠ r.policy → Answers (.memRgnPolicy agent policy) s fun t =>
        t = { s with recorder := t.recorder })) ∧
    (∀ pair : BitVec 18, (regionAt s pair.toNat).busy = true → Answers (.migrationComplete pair) s fun t =>
      regionAt t pair.toNat = { (regionAt s pair.toNat) with busy := false } ∧ memSame s t ∧
      (∀ h : HearthId, ∀ l ∈ (hearthAt t h).slice, pairOf l.line ≠ pair.toNat) ∧
      t = { s with memctl := t.memctl, hearths := t.hearths }) ∧
    (mayWrite s agent.toNat MEM_MRG_CTL = true → s.memctl.rerun = none → s.memctl.rerunning = none →
      Answers (.mrgStart agent) s fun t => t.memctl = { s.memctl with rerun := some (getF s MEM_MRG_SEL MEM_MRG_SEL_CHAN) } ∧
        t.queuedTests = (if s.job.isSome then s.queuedTests ++ [none] else s.queuedTests) ∧
        t = { s with memctl := t.memctl, queuedTests := t.queuedTests }) ∧
    (∀ c, s.memctl.rerun = some c → s.memctl.rerunning = none → s.ports.all (fun p => !p.testing) = true →
      quenched s = false → s.job = none → Answers .marginRerun s fun t =>
        t.memctl = { s.memctl with rerun := none, rerunning := some c } ∧
        t = { s with memctl := t.memctl, queuedTests := t.queuedTests }) ∧
    (∀ c m, s.memctl.rerunning = some c →
      (marginPass m = true → Answers (.marginRerunComplete m) s fun t => t.memctl.rerunning = none ∧
        (assocGet c t.memctl.margins).map (fun x => (x.rdW, x.rdH, x.wrW, x.wrH, x.rdDly, x.wrDly, x.rdVref, x.wrVref))
          = some (m.rdW, m.rdH, m.wrW, m.wrH, m.rdDly, m.wrDly, m.rdVref, m.wrVref) ∧
        t = { s with memctl := t.memctl }) ∧
      (marginPass m = false → Answers (.marginRerunComplete m) s fun t => t.memctl.rerunning = none ∧
        t.pins.svcReq = true ∧ flag t DEV_STATUS DEV_STATUS_SVC_REQ = true ∧
        (∀ o, assocGet c s.memctl.margins = some o → (assocGet c t.memctl.margins).map
          (fun x => (x.rdW, x.rdDly, x.wrDly)) = some (m.rdW, o.rdDly, o.wrDly)) ∧
        t.recorder = (makeRecord s (srcHearth (channelHearth c)) 0x184 [w64 (c + marginRes m * 2 ^ 32)]).recorder)) ∧
    (∀ rs, rs.length = 2048 → flag s MEM_STATUS MEM_STATUS_TRAINING = true →
      (rs.all marginPass = true → Answers (.dramTrainingComplete rs) s fun t =>
        flag t MEM_STATUS MEM_STATUS_TRAINED = true ∧ flag t MEM_STATUS MEM_STATUS_TRAINING = false ∧
        (∀ a, a < 2 ^ 40 → readByte t a = 0 ∧ poisoned t a = false) ∧
        (∀ a, 2 ^ 40 ≤ a → readByte t a = readByte s a)) ∧
      (rs.all marginPass = false → Answers (.dramTrainingComplete rs) s fun t =>
        flag t MEM_STATUS MEM_STATUS_TRAIN_FAIL = true ∧ t.boot.stuck = true ∧ t.pins.svcReq = true ∧ memSame s t)))

/-! ## Ports, the line protocol and RoCEv2 (R267 to R302) -/

/-- R267 to R271, R274, R287, R303: the events of a port. -/
def Obligations.PortEvents : Prop :=
  ∀ (p : PortId) (s : State), sized s = true →
    (Answers (.portEnable p) s fun t => flag t (PRT_CTL p) PRT_CTL_ENABLE = true ∧ regsSameBut s t [PRT_CTL p] ∧
      t = { s with regs := t.regs }) ∧
    (∀ o, flag s (PRT_CTL p) PRT_CTL_ENABLE = true → flag s (PRT_STATUS p) PRT_STATUS_LINK_UP = false →
      offerTaken s p o = true → Answers (.portUp ⟨p, o⟩) s fun t => flag t (PRT_STATUS p) PRT_STATUS_LINK_UP = true ∧
        getF t (PRT_STATUS p) PRT_STATUS_LANE_OK = 15 ∧ (portAt t p).testing = false ∧
        regsSameBut s t [PRT_STATUS p] ∧ t = { s with regs := t.regs, ports := t.ports }) ∧
    (∀ o : LinkOffer, (o.lanes ≠ 4 ∨ o.rsFec = false ∨
        (if flag s (PRT_CTL p) PRT_CTL_MEDIA then o.cr4 else o.kr4) = false) → Answers (.portUp ⟨p, o⟩) s fun t =>
      t.regs = s.regs) ∧
    (∀ c (lanes : BitVec 4), (c = .portDisable p ∨ c = .portDown p lanes) → fabCalm s = true → s.ylp.tx = [] →
      (∀ k, k < 8 → getF s (PRT_CTL k) PRT_CTL_PFC_EN = 0) →
      flag s (PRT_STATUS p) PRT_STATUS_LINK_UP = true → Answers c s fun t =>
        flag t (PRT_STATUS p) PRT_STATUS_LINK_UP = false ∧ portUpNow t p = false ∧ (portAt t p).paused = 0 ∧
        getF t (PRT_LINKDN p) PRT_LINKDN_DOWN = min PRT_LINKDN_DOWN.cap (getF s (PRT_LINKDN p) PRT_LINKDN_DOWN + 1) ∧
        t.recorder = (makeRecord s (srcPort p) 0x200 [w64 (getR s (PRT_STATUS p)).toNat]).recorder ∧
        t.conns = s.conns.map (fun (c : Conn) => if c.port = p then
          { c with port := ((portsAfter p).find? fun (q : PortId) => portUpNow s q).getD ((portsAfter p).headD p) } else c) ∧
        (s.ylp.members = [] →
          t = { s with regs := t.regs, recorder := t.recorder, ports := t.ports, conns := t.conns }) ∧
        (∀ n e, s.ylp.members = [(n, e)] → s.surv.wards = [] → n ≠ ownNode s → peerOf s n = none → 3 ≤ p.val →
          t.ylp.tx.map (fun d => (d.node, d.failed.getLsbD (p.val - 2), d.path)) = [(n, true, (dstAt t n).path)] ∧
          memSame s t ∧ t.cores = s.cores)) ∧
    (portUpNow s p = true →
      (∀ e (n : Nat) (sel : BitVec 16), (e.dst ≠ portMac s (ownNode s) p ∧ e.dst ≠ 0x0180C2000001 ∨ e.tags ≠ 1 ∨ 4200 < n ∨
          e.etype = 0x8808 ∧ sel = 1 ∧ getF s FAB_CTL FAB_CTL_ETYPE ≠ 0x8808) →
        Answers (.frameFiltered p (.frame e n sel)) s fun t => getF t (PRT_RXDISC p) PRT_RXDISC_FILTERED =
        min PRT_RXDISC_FILTERED.cap (getF s (PRT_RXDISC p) PRT_RXDISC_FILTERED + 1) ∧ regsSameBut s t [PRT_RXDISC p] ∧
        t = { s with regs := t.regs }) ∧
      (∀ n, Answers (.frameFiltered p (.corrected n)) s fun t => getF t (PRT_FECCOR p) PRT_FECCOR_CORRECTED =
        min PRT_FECCOR_CORRECTED.cap (getF s (PRT_FECCOR p) PRT_FECCOR_CORRECTED + n) ∧ regsSameBut s t [PRT_FECCOR p] ∧
        t = { s with regs := t.regs }) ∧
      (Answers (.frameFiltered p .badFcs) s fun t => getF t (PRT_RXDISC p) PRT_RXDISC_BADFCS =
        min PRT_RXDISC_BADFCS.cap (getF s (PRT_RXDISC p) PRT_RXDISC_BADFCS + 1) ∧ regsSameBut s t [PRT_RXDISC p] ∧
        t = { s with regs := t.regs }) ∧
      (∀ (prio : BitVec 3) pause, (getF s (PRT_CTL p) PRT_CTL_PFC_EN).testBit prio.toNat = true →
        Answers (.pfcFrame p prio pause) s fun t => (portAt t p).paused.getLsbD prio.toNat = pause ∧
          (∀ k, k < 8 → k ≠ prio.toNat → (portAt t p).paused.getLsbD k = (portAt s p).paused.getLsbD k) ∧
          regsSameBut s t [PRT_STATUS p] ∧ t = { s with regs := t.regs, ports := t.ports, egress := t.egress } ∧
          ((portAt s p).held = [] → t.egress = s.egress) ∧
          (∀ o, (portAt s p).held = [(prio.toNat, o)] → pause = false → fenced s = false →
            t.egress = s.egress ++ [o] ∧ (portAt t p).held = []))) ∧
    (∀ c prio pause, portUpNow s p = false → (Answers (.frameFiltered p c) s fun t => t = s) ∧
      (Answers (.pfcFrame p prio pause) s fun t => t = s)) ∧
    (∀ (node : BitVec 16) (epoch : BitVec 8) (slot : Fin 4), p.val < 3 → portUpNow s p = true →
      (∀ q ∈ s.ylp.peers, q.port ≠ p → q.slot ^^^ (q.port.val + 1) = slot.val ^^^ (p.val + 1)) →
      Answers (.trayPeerDiscovery p node epoch slot) s fun t =>
        t.ylp.peers = s.ylp.peers.filter (·.port != p) ++ [⟨node.toNat, epoch.toNat, p, slot⟩] ∧
        t.egress = s.egress ++ [.peer p (ownNode s) (ownEpoch s)] ∧ memSame s t ∧ t.regs = s.regs)

/-- R278 to R284, R291 to R295, R250, R260, R261: a request in its turn has its effect on memory, takes its number and is
answered; what is not in its turn changes no memory, nor does a frame that is not taken. -/
def Obligations.YlpRequests : Prop :=
  ∀ (port : PortId) (f : YlpFrame) (s : State) (a : Nat), sized s = true → fabCalm s = true → s.ylp.tx = [] →
    a = f.addr.toNat → f.kind = 0 → frameTaken s port f = true →
    (∀ r, inTurn s port r f = true → clean s a (128 * f.lines.toNat) →
      (f.op = 0x01 → Answers (.ylpRead port f) s fun t => memSame s t ∧ tookSeq t f ∧ oneFrame s t port fun g =>
        g.op = 0x81 ∧ g.dst = f.src ∧ g.seq = f.seq ∧ g.status = 0 ∧ g.payload = readBytes s a (128 * f.lines.toNat)) ∧
      (f.op = 0x02 → Answers (.ylpWrite port f) s fun t => tookSeq t f ∧
        readBytes t a (128 * f.lines.toNat) = f.payload ∧ memSameOutside s t a (128 * f.lines.toNat) ∧
        t.cores = s.cores ∧ dataOut t = dataOut s ∧
        ((rxAt t f.src.toNat).map fun x => x.open_.drop r.open_.length)
          = some [⟨f.seq.toNat, 2, 0, port, f.eth.pcp.toNat, 66 + f.payload.length⟩]) ∧
      (f.op = 0x03 → Answers (.ylpWriteMasked port f) s fun t => tookSeq t f ∧ memSameOutside s t a 128 ∧
        ∀ k, k < 16 → readWord t (a + 8 * k) =
          if f.mask.getLsbD k then w64 (fieldLE f.payload (8 * k) 8) else readWord s (a + 8 * k)) ∧
      (f.op = 0x05 → Answers (.ylpReduce port f) s fun t => tookSeq t f ∧ memSameOutside s t a 128 ∧
        readWords t a 16 = (reduceWords f.subop.toNat (readWords s a 16) (wordsOf 16 f.payload)).1) ∧
      (f.op = 0x06 → Answers (.ylpFence port f) s fun t => memSame s t ∧ tookSeq t f ∧ t.cores = s.cores ∧
        ∃ g, .ylp port g ∈ t.egress ∧ g.op = 0x82 ∧ g.dst = f.src)) ∧
    (∀ r, inTurn s port r f = true → f.op = 0x04 → poisoned s a = false → (hearthAt s (homeOf s a)).replay = [] →
      Answers (.ylpAtomic port f) s fun t => tookSeq t f ∧ memSameOutside s t a 8 ∧
        readWord t a = atomicResult f.subop.toNat (readWord s a) (w64 (ofBE (f.payload.take 8))) (w64 (ofBE (f.payload.drop 8))) ∧
        (oneFrame s t port fun g => g.op = 0x84 ∧ g.tag = f.tag ∧ g.status = 0 ∧
          ofBE (g.payload.take 8) = (readWord s a).toNat ∧ (r.open_ = [] → r.done_ = [] → r.acked = f.seq.toNat → g.ack = f.seq)) ∧
        (hearthAt t (homeOf s a)).replay.map (fun e => (e.tag, e.recorded, e.result))
          = [(f.tag.toNat, true, readWord s a)]) ∧
    (f.op = 0x07 → requestMalformed f = false → Answers (.ylpProbe port f) s fun t => memSame s t ∧
      oneFrame s t port fun g => g.op = 0x87 ∧ g.dst = f.src) ∧
    (f.op = 0x89 → requestMalformed f = false → Answers (.ylpRetire port f) s fun t => memSame s t ∧ t.egress = s.egress ∧
      ∀ h : HearthId, (hearthAt t h).replay = (hearthAt s h).replay.filter fun e => !(e.src == f.src.toNat
        && e.epoch == f.epoch.toNat && ([f.rtag0.toNat, f.rtag1.toNat].take f.rcount.toNat).contains e.tag)) ∧
    (∀ r c, ((c = .ylpWrite port f ∧ f.op = 0x02) ∨ (c = .ylpReduce port f ∧ f.op = 0x05) ∨
        (c = .ylpAtomic port f ∧ f.op = 0x04)) → requestMalformed f = false → rxAt s f.src.toNat = some r →
      f.epoch.toNat = r.epoch → (seqDiff f.seq.toNat r.expect ≠ 0 ∨ refusedStatus s f ≠ 0) →
      Answers c s fun t => memSame s t) ∧
    (∀ r, rxAt s f.src.toNat = some r → f.epoch.toNat = r.epoch → f.seq.toNat = r.expect → requestMalformed f = false →
      refusedStatus s f = 0 → ingressFull s port f = true → f.op = 0x02 → Answers (.ylpWrite port f) s fun t => memSame s t ∧
        (oneFrame s t port fun g => g.op = 0x88 ∧ g.seq = f.seq) ∧ (rxAt t f.src.toNat).map (·.expect) = some r.expect) ∧
    (f.op = 0x02 → requestMalformed f = false → f.flags.getLsbD 0 = false → rxAt s f.src.toNat = none →
      Answers (.ylpWrite port f) s fun t => memSame s t ∧ oneFrame s t port fun g => g.op = 0x8A ∧ g.status = 6)

/-- R283, R284, R286, R289 to R291, R293, R295: completion at the homes, and what the timers of the line protocol do.

R269, R274 to R276, R278, R364: a frame that the port does not take, one with a bad ICRC, one that R278 discards, any frame
before the device has joined, and any frame on a port that is down, change no memory, no core and no sequence. -/
def Obligations.YlpTimersAndDiscards : Prop :=
  (∀ (node : BitVec 16) (s : State), sized s = true → fabCalm s = true →
    (∀ (seq : BitVec 24) r op q pcp n, rxAt s node.toNat = some r → r.open_ = [⟨seq.toNat, op, 0, q, pcp, n⟩] → r.done_ = [] →
      r.acked = seq.toNat → r.count < 15 → Answers (.homeCompletion node seq) s fun t => memSame s t ∧
        dataOut t = dataOut s ∧ (rxAt t node.toNat).map (fun x => (x.acked, x.open_, x.count))
          = some ((seq.toNat + 1) % 2 ^ 24, [], r.count + 1)) ∧
    (∀ r t0, rxAt s node.toNat = some r → r.due = some t0 → 10 * getF s FAB_WIN FAB_WIN_ACK_DELAY ≤ s.time.ns - t0 →
      portUpNow s r.port = true → joined s = true → fenced s = false →
      pausedAt s r.port (getF s FAB_CTL FAB_CTL_YLP_PCP) = false → Answers (.ackDelayExpiry node) s fun t =>
        (rxAt t node.toNat).map (fun x => (x.due, x.count)) = some (none, 0) ∧ memSame s t ∧
        oneFrame s t r.port fun g => g.op = 0x82 ∧ g.dst = node ∧ g.ack = BitVec.ofNat 24 (r.acked + 2 ^ 24 - 1)) ∧
    (∀ d, s.ylp.tx = [d] → d.node = node.toNat → d.waiting = [] →
      (∀ seq t0, d.busy = some (seq, t0) → 1000 * getF s FAB_WIN FAB_WIN_BUSY_WAIT ≤ s.time.ns - t0 →
        Answers (.busyWaitExpiry node) s fun t => (dstAt t node.toNat).busy = none ∧ memSame s t ∧
          (dstAt t node.toNat).unacked.map (·.seq) = d.unacked.map (·.seq)) ∧
      (∀ r rest, d.unacked = r :: rest → d.busy = none → rto s d.path ≤ s.time.ns - r.sentAt →
        d.fails + 1 < getF s FAB_TMR FAB_TMR_PATH_FAILS → Answers (.retransmissionTimeout node) s fun t =>
          (dstAt t node.toNat).fails = d.fails + 1 ∧ memSame s t ∧ t.cores = s.cores ∧
          (dstAt t node.toNat).unacked.map (·.seq) = d.unacked.map (·.seq) ∧
          ∀ x ∈ (dstAt t node.toNat).unacked, x.replied = false → x.frame.flags.getLsbD 1 = true) ∧
      (∀ r, d.unacked = [r] → d.replies = [] → r.owner = .line → s.coll.groups = [] → frameLife s ≤ s.time.ns - r.firstAt →
        Answers (.frameLifeExpiry node) s fun t => (dstAt t node.toNat).unreach = true ∧
          (dstAt t node.toNat).unacked = [] ∧ (dstAt t node.toNat).next = 0 ∧ memSame s t ∧
          getF t FAB_CNT2 FAB_CNT2_UNREACH = min FAB_CNT2_UNREACH.cap (getF s FAB_CNT2 FAB_CNT2_UNREACH + 1)) ∧
      (∀ p : PortId, 3 ≤ p.val → d.failed.getLsbD (p.val - 2) = true → portUpNow s p = true → joined s = true →
        fenced s = false → pausedAt s p (getF s FAB_CTL FAB_CTL_YLP_PCP) = false →
        1000000 ≤ s.time.ns - s.ylp.probeAt → Answers .probeTimer s fun t => memSame s t ∧ t.cores = s.cores ∧
          ∃ g, .ylp p g ∈ t.egress ∧ g.op = 0x07 ∧ g.dst = node) ∧
      (∀ tag t0, d.retire = [tag] → d.retireAt = some t0 → 2000 ≤ s.time.ns - t0 → Answers (.retireTimer node) s fun t =>
        (dstAt t node.toNat).retire = [] ∧ (dstAt t node.toNat).retireAt = none ∧ memSame s t)) ∧
    (∀ (h : HearthId) e, (hearthAt s h).replay = [e] → replayLimit s ≤ s.time.ns - e.time →
      Answers (.replayAged h) s fun t => (hearthAt t h).replay = [] ∧ memSame s t ∧
        getF t FAB_CNT3 FAB_CNT3_REPLAY_AGED = min FAB_CNT3_REPLAY_AGED.cap (getF s FAB_CNT3 FAB_CNT3_REPLAY_AGED + 1)) ∧
    (Answers .refusalEntryExpiry s fun t => memSame s t ∧ t.regs = s.regs ∧
      t.ylp.refused = s.ylp.refused.filter fun r => decide (s.time.ns - r.time < 2 * frameLife s))) ∧
  (∀ (port : PortId) (f : YlpFrame) (s : State) (c : Instr),
    c ∈ [.ylpRead port f, .ylpWrite port f, .ylpWriteMasked port f, .ylpAtomic port f, .ylpReduce port f, .ylpFence port f,
      .ylpProbe port f, .ylpRetire port f, .ylpReadData port f, .ylpAck port f, .ylpAtomicResult port f,
      .ylpProbeAck port f, .ylpBusy port f, .ylpRefuse port f] →
    (portUpNow s port = false → Answers c s fun t => t = s) ∧
    ((joined s = false ∨ ylpTaken s port f = false ∨ f.icrc ≠ icrcOf f ∨ frameDropped s f = true) → Answers c s fun t =>
      regsSameBut s t [FAB_CNT4, PRT_RXDISC port] ∧ t = { s with regs := t.regs }))

/-- R279, R282, R283, R284, R286, R290 to R292, R295: what the replies do at the source. -/
def Obligations.YlpReplies : Prop :=
  ∀ (port : PortId) (f : YlpFrame) (s : State) (d : TxDst) (r : TxReq), sized s = true → fabCalm s = true →
    frameTaken s port f = true → f.kind = 1 →
    (awaiting s d r f → f.op = 0x81 → r.frame.op = 0x01 → f.lines = r.frame.lines → f.status = 0 →
      (∀ row, r.owner = .fetch row → openDram s r.dst f.payload.length → Answers (.ylpReadData port f) s fun t =>
        readBytes t r.dst f.payload.length = f.payload ∧ memSameOutside s t r.dst f.payload.length ∧
        (requestAt t d.node r.seq).map (·.replied) = some true) ∧
      (∀ i e, r.owner = .insn i .tongs e.qid → (coreAt s i).tongs = [e] → Answers (.ylpReadData port f) s fun t =>
        memSame s t ∧ (entryOf t i .tongs e.qid).map (fun x => assocGet r.dst x.buf)
          = some (some ((f.payload.drop r.skip).take r.len)))) ∧
    (awaiting s d r f → f.op = 0x84 → r.frame.op = 0x04 → f.tag = r.frame.tag → f.status = 0 → r.owner = .line →
      Answers (.ylpAtomicResult port f) s fun t => memSame s t ∧ (dstAt t d.node).retire = d.retire ++ [f.tag.toNat] ∧
        (requestAt t d.node r.seq).map (·.replied) = some true) ∧
    (awaiting s d r f → f.op = 0x88 → Answers (.ylpBusy port f) s fun t => memSame s t ∧ t.cores = s.cores ∧
      (dstAt t d.node).busy = some (f.seq.toNat, s.time.ns) ∧ (dstAt t d.node).unacked = [r]) ∧
    (awaiting s d r f → f.op = 0x84 → r.frame.op = 0x04 → f.tag = r.frame.tag → f.status = 5 →
      Answers (.ylpAtomicResult port f) s fun t => memSame s t ∧ t.cores = s.cores ∧
        (dstAt t d.node).busy = some (f.seq.toNat, s.time.ns) ∧ (dstAt t d.node).retire = d.retire) ∧
    (awaiting s d r f → f.op = 0x8A → r.owner = .line →
      (f.status = 6 → Answers (.ylpRefuse port f) s fun t => memSame s t ∧ (dstAt t d.node).next = 0 ∧
        (dstAt t d.node).unacked = [] ∧ (dstAt t d.node).waiting = []) ∧
      (f.status = 3 → Answers (.ylpRefuse port f) s fun t => memSame s t ∧ (dstAt t d.node).unacked = [] ∧
        (dstAt t d.node).next = d.next)) ∧
    (∀ up, s.ylp.tx = [d] → d.node = f.src.toNat → d.unacked = [r] → d.replies = [] → d.waiting = [] →
      needsReply r.frame = false →
      up = seqAdd f.ack.toNat 1 → 0 < seqDiff up d.acked → 0 ≤ seqDiff d.next up → 0 < seqDiff up r.seq →
      r.owner = .commit → f.op = 0x82 → Answers (.ylpAck port f) s fun t => memSame s t ∧
        (dstAt t d.node).unacked = [] ∧ (dstAt t d.node).acked = up ∧ (dstAt t d.node).fails = 0 ∧
        t.surv.durable = true) ∧
    (s.ylp.tx = [d] → d.node = f.src.toNat → d.unacked = [] → d.replies = [] → d.waiting = [] → 3 ≤ port.val → f.op = 0x87 →
      seqDiff (seqAdd f.ack.toNat 1) d.acked ≤ 0 → Answers (.ylpProbeAck port f) s fun t => memSame s t ∧
        (dstAt t d.node).failed = d.failed &&& ~~~(BitVec.ofNat 6 (2 ^ (port.val - 2))))

/-- R298 to R302: a packet in sequence on a connection writes, reads or delivers and moves the expected number on;
acknowledgements end operations, a retryable NAK and the timeout send everything again, a CNP cuts the rate and the timer
raises it; ACT and DEACT of a connection. -/
def Obligations.RoceConnections : Prop :=
  ∀ (port : PortId) (p : RocePkt) (s : State) (c : Conn) (a : Nat), sized s = true → a = p.vaddr.toNat →
    (roceTaken s port 16 p c = true → p.psn.toNat = c.epsn → openDram s a p.dmaLen → p.dmaLen ≤ 2 ^ 31 →
      (rkeyAdmits s p.rkey.toNat a p.dmaLen true = true → p.payload.length = p.dmaLen →
        Answers (.roceRdmaWrite port .only p) s fun t => readBytes t a p.dmaLen = p.payload ∧
          memSameOutside s t a p.dmaLen ∧ t.cores = s.cores ∧ roceSent s t c [(p.psn.toNat, .ack)] ∧
          (connAt t c.index).map (·.epsn) = some ((c.epsn + 1) % 2 ^ 24)) ∧
      (rkeyAdmits s p.rkey.toNat a p.dmaLen false = true → Answers (.roceRdmaReadRequest port p) s fun t =>
        memSame s t ∧ roceSent s t c ((List.range (rocePkts c .read p.dmaLen)).map fun k => (seqAdd p.psn.toNat k,
          .readResponse (msgPart k (rocePkts c .read p.dmaLen))
            (((readBytes s a p.dmaLen).drop (k * connMtu c)).take (connMtu c)))) ∧
        (connAt t c.index).map (·.epsn) = some ((c.epsn + rocePkts c .read p.dmaLen) % 2 ^ 24))) ∧
    (roceTaken s port 16 p c = true → p.psn.toNat = c.epsn → rkeyAdmits s p.rkey.toNat a p.dmaLen true = false →
      p.payload.length = p.dmaLen → 0 < p.dmaLen → p.dmaLen ≤ 2 ^ 31 → Answers (.roceRdmaWrite port .only p) s fun t =>
        memSame s t ∧ roceSent s t c [(p.psn.toNat, .nak 0x62)]) ∧
    (∀ x ext, ((x = .roceRdmaWrite port .only p ∧ ext = 16) ∨ (x = .roceSend port p ∧ ext = 0)) →
      roceTaken s port ext { p with cls := .listed } c = true → p.cls ∈ [.atomic, .immediate, .invalidate, .otherSend] →
      Answers x s fun t => memSame s t ∧ t.conns = s.conns ∧ roceSent s t c [(p.psn.toNat, .nak 0x61)]) ∧
    (∀ m, roceTaken s port 0 p c = true → p.psn.toNat = c.epsn → m = connMbox c → m ≠ 0 → mbxFabric s m = true →
      (mbxAt s m).owner = 0 → (mbxAt s m).fullAt = none → smithReceives s m = true → receiverDead s m = false →
      p.payload.length = 256 → Answers (.roceSend port p) s fun t => windowBytes t m = p.payload ∧
        (mbxAt t m).fullAt = some s.time.ns ∧ memSame s t ∧ senderOf t m = (senderWord s c.index).toNat ∧
        roceSent s t c [(p.psn.toNat, .ack)]) ∧
    (∀ o, roceTaken s port 4 p c = true → c.ops = [o] → c.waitq = [] → o.owner = .line →
      (o.kind ≠ .read → 0 ≤ seqDiff p.psn.toNat (lastPsn o) → Answers (.roceAck port p) s fun t => memSame s t ∧
        (connAt t c.index).map (fun x => (x.ops, x.retries)) = some ([], 0)) ∧
      (o.kind = .read → o.pkts = 1 → o.got = 0 → p.psn.toNat = o.psn → Answers (.roceRdmaReadResponse port p) s fun t =>
        memSame s t ∧ (connAt t c.index).map (·.ops) = some []) ∧
      (o.kind ≠ .read → seqDiff (seqAdd p.psn.toNat (2 ^ 24 - 1)) (lastPsn o) < 0 → c.retries < 7 →
        Answers (.roceNak port p true) s fun t => memSame s t ∧ t.cores = s.cores ∧
          roceSent s t c (match o.kind with
            | .send => [(o.psn, .send o.data)]
            | _ => (List.range o.pkts).map fun k => (seqAdd o.psn k, .write (msgPart k o.pkts) o.remote (connRkey c) o.bytes
                ((o.data.drop (k * connMtu c)).take (connMtu c)))) ∧
          (connAt t c.index).map (·.retries) = some (c.retries + 1))) ∧
    (roceTaken s port 16 p c = true → c.lastCut = none → Answers (.roceCnp port p) s fun t => memSame s t ∧
      (connAt t c.index).map (·.rate) = some (max (1 / 1024)
        (c.rate * (1 - 1 / (2 ^ getF s FAB_ROCE_CC FAB_ROCE_CC_DEC_SHIFT : Nat))))) ∧
    (∀ idx : BitVec 10, connAt s idx.toNat = some c → c.error = false → fabCalm s = true →
      (c.ops ≠ [] → c.retries < 7 → 16000 ≤ s.time.ns - c.sentAt → Answers (.roceAckTimeout idx) s fun t => memSame s t ∧
        (connAt t idx.toNat).map (fun x => (x.retries, x.sentAt, x.ops.map (·.psn)))
          = some (c.retries + 1, s.time.ns, c.ops.map (·.psn))) ∧
      (1000 * getF s FAB_ROCE_CC FAB_ROCE_CC_INC_PERIOD ≤ s.time.ns - c.lastUp → Answers (.roceRateIncrease idx) s fun t =>
        memSame s t ∧ (connAt t idx.toNat).map (fun x => (x.rate, x.lastUp))
          = some (min 1 (c.rate + (getF s FAB_ROCE_CC FAB_ROCE_CC_INC_STEP : Rat) / 256), s.time.ns))) ∧
    (∀ (agent : BitVec 8) (idx : BitVec 10), mayWrite s agent.toNat FAB_CONN_CTL = true →
      (connAt s idx.toNat = none → connBad (readWords s (connTable s idx.toNat) 8) = none → s.intake.rings = [] →
        s.surv.notices = [] → Answers (.connAct agent idx) s fun t => memSame s t ∧
          getF t FAB_CONN_CTL FAB_CONN_CTL_INDEX = idx.toNat ∧ t.conns =
          s.conns.filter (·.index != idx.toNat) ++ [newConn s idx.toNat (readWords s (connTable s idx.toNat) 8)]) ∧
      (∀ off, connAt s idx.toNat = none → connBad (readWords s (connTable s idx.toNat) 8) = some off →
        Answers (.connAct agent idx) s fun t =>
          t = makeRecord (putF s FAB_CONN_CTL FAB_CONN_CTL_INDEX idx.toNat) srcSmith 0x202 [w64 (idx.toNat + off * 2 ^ 16)]) ∧
      (connAt s idx.toNat = some c → c.ops = [] → c.waitq = [] → fabCalm s = true →
        (∀ k, k < 8 → getF s (PRT_CTL k) PRT_CTL_PFC_EN = 0) → Answers (.connDeact agent idx) s fun t =>
          t = { putF s FAB_CONN_CTL FAB_CONN_CTL_INDEX idx.toNat with conns := s.conns.filter (·.index != idx.toNat) } ∧
          connAt t idx.toNat = none))

/-! ## Control lines, credit, groups and snapshots (R306 to R328) -/

/-- R312, R320, R321, R327: a control line is taken, or left where it stands in a quench. A chunk of a broadcast is stored, a
child's arrival at a barrier counted, a barrier released, and an aborted instance ended. -/
def Obligations.ControlLines : Prop :=
  ∀ (idx : BitVec 10) (slot : Fin 28) (s : State), sized s = true →
    (∀ c, c ∈ ([.ctrlData idx slot, .ctrlArrive idx slot, .ctrlRelease idx slot, .ctrlReset idx slot, .ctrlDone idx slot,
        .ctrlAbort idx slot] : List Instr) → Answers c s fun t => quenched s = true → t = s) ∧
    (∀ (g : Group) (x : Inst) (l : CtrlLine), quenched s = false → allOpen s [(slotLine g slot, 32)] = true →
      collCalm s = true → groupAt s idx.toNat = some g → g.outq = [] → l = readLine s g slot → l.gen = g.gen →
      instOf s idx.toNat = some x → l.inst = x.num → l.rank ≠ g.rank →
      (∀ c n, x.op = .broadcast → l.kind = 1 → 24 ≤ slot.val → g.rank ≠ x.root → l.rank = parentIn x.root g.rank →
        childrenIn g.size x.root g.rank = [] → c = tally 0 x.got → l.chunk = c → c < bcastChunks x.desc →
        n = bcastLen x.desc c → l.len = n → openDram s (slotData g slot) n → openDram s (descDst x.desc + 65536 * c) n →
        Answers (.ctrlData idx slot) s fun t =>
          readBytes t (descDst x.desc + 65536 * c) n = readBytes s (slotData g slot) n ∧
          memSameOutside s t (descDst x.desc + 65536 * c) n ∧
          (if c + 1 = bcastChunks x.desc then instOf t idx.toNat = none
           else (instOf t idx.toNat).map (fun y => tally 0 y.got) = some (c + 1))) ∧
      (x.op = .barrier → x.own = true → l.kind = 2 → (awaitedKids g x).contains l.rank = true →
        Answers (.ctrlArrive idx slot) s fun t => memSame s t ∧
          (awaitedKids g { x with kids := x.kids ++ [l.rank] } ≠ [] →
            (instOf t idx.toNat).map (·.kids) = some (x.kids ++ [l.rank])) ∧
          (awaitedKids g { x with kids := x.kids ++ [l.rank] } = [] → g.rank = 0 → instOf t idx.toNat = none)) ∧
      (x.op = .barrier → l.kind = 3 → s.coll.reset = none → g.rank ≠ 0 → l.rank = treeParent g.rank →
        Answers (.ctrlRelease idx slot) s fun t => memSame s t ∧ instOf t idx.toNat = none ∧
          (groupAt t idx.toNat).map (fun y => (y.last, y.lastGen)) = some (some x, g.gen)) ∧
      (l.kind = 6 → assocGet l.inst g.aborted = none → Answers (.ctrlAbort idx slot) s fun t => memSame s t ∧
        instOf t idx.toNat = none ∧ (groupAt t idx.toNat).map (fun y => (y.outq.all (·.rel = 10), y.last)) = some (true, none) ∧
        (groupAt t idx.toNat).map (fun y => y.failed.contains x.num) = some true))

/-- R308, R311, R322 to R324, R328: a group that is not active is read from the table and activated or refused, and one is
deactivated; a credit line gives its count; the capture of a snapshot ends, its stream ends when storage has it all, and an
instance that makes no progress stalls. -/
def Obligations.GroupsAndStreams : Prop :=
  ∀ (s : State), sized s = true →
    (∀ (agent : BitVec 8) (idx : BitVec 10) w e, w = writeGroupIndex s idx.toNat → e = readGroupEntry w idx.toNat →
      (Answers (.grpAct agent idx) s fun t =>
        (mayWrite s agent.toNat COL_GRP_CTL = false → t = s) ∧
        (mayWrite s agent.toNat COL_GRP_CTL = true →
          getF t COL_GRP_CTL COL_GRP_CTL_INDEX = idx.toNat ∧
          ((groupAt s idx.toNat).isSome = true → t = w) ∧
          (groupAt s idx.toNat = none → groupReason w e = 0 →
            t = { w with coll := t.coll } ∧ groupAt t idx.toNat = some (Group.ofEntry idx.toNat e)) ∧
          (groupAt s idx.toNat = none → groupReason w e ≠ 0 →
            t = makeRecord w srcSmith 0x282 [w64 (idx.toNat + groupReason w e * 2 ^ 8)]))) ∧
      (Answers (.grpDeact agent idx) s fun t =>
        (mayWrite s agent.toNat COL_GRP_CTL = false → t = s) ∧
        (mayWrite s agent.toNat COL_GRP_CTL = true → collCalm s = true → instOf s idx.toNat = none →
          groupAt t idx.toNat = none ∧ t = { w with coll := t.coll }))) ∧
    (∀ (idx : BitVec 10) (rel : Fin 15), Answers (.creditReturn idx rel) s fun t =>
      ∀ g r, quenched s = false → collCalm s = true → groupAt s idx.toNat = some g → g.outq = [] → s.coll.insts = [] →
        (creditPeers g rel (readWord s (creditLine g rel)).toNat).head? = some r →
        memSame s t ∧ (groupAt t idx.toNat).map (fun y => tally (relKey rel r) y.returned) =
          some (readWord s (creditLine g rel)).toNat) ∧
    (∀ idx : BitVec 10, Answers (.collectiveStall idx) s fun t =>
      ((quenched s = true ∨ getF s COL_CTL COL_CTL_STALL_MS = 0 ∨ instOf s idx.toNat = none) → t = s) ∧
      ∀ g x, groupAt s idx.toNat = some g → instOf s idx.toNat = some x → x.stalled = false → quenched s = false →
        getF s COL_CTL COL_CTL_STALL_MS ≠ 0 → getF s COL_CTL COL_CTL_STALL_MS * 1000000 ≤ s.time.ns - x.since →
        (instOf t idx.toNat).map (·.stalled) = some true ∧
        getF t COL_CNT3 COL_CNT3_STALLS = min COL_CNT3_STALLS.cap (getF s COL_CNT3 COL_CNT3_STALLS + 1)) ∧
    (∀ idx : BitVec 10, Answers (.captureComplete idx) s fun t =>
      ∀ g x, groupAt s idx.toNat = some g → instOf s idx.toNat = some x → x.op = .snapshot → x.phase = 1 → x.own = false →
        s.coll.capturing = true → quenched s = false → collCalm s = true → awaitedKids g x ≠ [] → s.intake.rings = [] →
        t = { s with coll := t.coll, regs := t.regs } ∧ regsSameBut s t [WRK_STATUS] ∧ t.coll.capturing = false ∧
        (instOf t idx.toNat).map (·.own) = some true) ∧
    (Answers .snapshotStreamComplete s fun t =>
      (s.coll.stream = none → t = s) ∧
      ∀ st, s.coll.stream = some st → st.len ≤ st.sent → streamLeft s = false → collCalm s = true →
        t.coll = { s.coll with stream := none } ∧ t.cores = s.cores ∧ flag t COL_STATUS COL_STATUS_STREAMING = false)

/-- R325: the lines of a reset. RESET makes a member abandon the tasks of the job and start the reset of its children; DONE
of its last child lets rank 0 release. -/
def Obligations.ResetLines : Prop :=
  ∀ (idx : BitVec 10) (slot : Fin 28) (s : State) (g : Group) (l : CtrlLine), sized s = true → quenched s = false →
    allOpen s [(slotLine g slot, 32)] = true → fabCalm s = true → collCalm s = true → groupAt s idx.toNat = some g →
    g.outq = [] → l = readLine s g slot → l.gen = g.gen →
    (l.kind = 4 → resetRuns s = false → (g.rank = 0 ∨ l.rank = treeParent g.rank) → childrenIn g.size 0 g.rank ≠ [] →
      Answers (.ctrlReset idx slot) s fun t => t.coll.reset = some ⟨g.index, [], true⟩ ∧
        (∀ i : CoreId, ∀ y, (coreAt t i).task = some y → y.entry = none) ∧
        (∀ h : HearthId, (hearthAt t h).walk = 0 ∧ (hearthAt t h).out = [] ∧
          ∀ y ∈ (hearthAt t h).ready, y.entry = none)) ∧
    (∀ r, s.coll.reset = some r → r.group = idx.toNat → r.own = true → l.kind = 5 → l.inst = 0xFFFFFFFF →
      (childrenIn g.size 0 g.rank).contains l.rank = true → r.kids.contains l.rank = false →
      ((childrenIn g.size 0 g.rank).any (fun c => !(r.kids ++ [l.rank]).contains c) = true →
        Answers (.ctrlDone idx slot) s fun t => memSame s t ∧
          t.coll.reset = some { r with kids := r.kids ++ [l.rank] }) ∧
      ((childrenIn g.size 0 g.rank).any (fun c => !(r.kids ++ [l.rank]).contains c) = false → g.rank = 0 →
        Answers (.ctrlDone idx slot) s fun t => t.coll.reset = none ∧
          ∀ h : HearthId, (hearthAt t h).heldSince = some s.time.ns))

/-! ## Work intake and mailboxes (R331 to R352) -/

/-- R331 to R336, R339 to R343: the rings. -/
def Obligations.Rings : Prop :=
  ∀ (ring : Fin 16) (s : State), sized s = true → quenched s = false →
    (∀ r (v : Word64), ringOf s ring = some r → ringAddrBad r = false → openDram s r.doorbell 8 →
      seqBefore v.toNat r.pseq = false → seqBefore r.acc v.toNat = true →
      (intakeHeld s = true → Answers (.doorbellPseqWrite ring v) s fun t => readWord t r.doorbell = v ∧
        memSameOutside s t r.doorbell 8 ∧ t.intake.journal = s.intake.journal ∧
        (ringOf t ring).map (fun x => (x.pseq, x.stopped, x.acc, x.next)) = some (v.toNat, false, r.acc, r.next)) ∧
      (∀ ws, intakeHeld s = false → s.coll.capturing = false → journalFull s = false → s.intake.heldRecs = [] → v.toNat = seqNext r.next →
        seqBefore r.next v.toNat = true → slotCase s r r.next = .item ws → Answers (.doorbellPseqWrite ring v) s fun t =>
          (ringOf t ring).map (fun x => (x.pseq, x.next)) = some (v.toNat, v.toNat) ∧
          t.intake.journal.map (fun j => (j.jseq, j.ring, j.st, j.item)) =
            s.intake.journal.map (fun j => (j.jseq, j.ring, j.st, j.item)) ++ [(s.intake.jseq, ring.val, .accepted, ws)])) ∧
    (∀ r (v : Word64), ringOf s ring = some r → r.ccons ≤ v.toNat → openDram s (r.doorbell + 8) 8 → s.intake.heldRecs = [] →
      intakeHeld s = true →
      Answers (.doorbellCconsWrite ring v) s fun t => (ringOf t ring).map (·.ccons) = some v.toNat ∧
        ∀ j ∈ t.intake.journal, j ∈ s.intake.journal ∧ entryFreed { r with ccons := v.toNat } j = false) ∧
    (∀ r t0, ringOf s ring = some r → r.waitAt = some (r.next, t0) → r.stopped = false → intakeHeld s = false →
      getF s WRK_CTL WRK_CTL_ITEM_WAIT * 1000 ≤ s.time.ns - t0 → slotCase s r r.next = .notYet →
      Answers (.itemWaitExpiry ring) s fun t => (ringOf t ring).map (·.stopped) = some true ∧
        getF t WRK_CNT WRK_CNT_STOPS = min WRK_CNT_STOPS.cap (getF s WRK_CNT WRK_CNT_STOPS + 1)) ∧
    (∀ r j, ringOf s ring = some r → acceptee s r = some j → j.mirrored = true → intakeHeld s = false → r.unreported < 15 →
      Answers (.itemAccepted ring) s fun t => (ringOf t ring).map (·.acc) = some (seqNext r.acc) ∧
        readWord t (r.doorbell + 64) = w64 (seqNext r.acc) ∧ memSameOutside s t (r.doorbell + 64) 8 ∧
        getF t WRK_CNT WRK_CNT_ACCEPTED = min WRK_CNT_ACCEPTED.cap (getF s WRK_CNT WRK_CNT_ACCEPTED + 1)) ∧
    (∀ r, ringOf s ring = some r → r.unreported ≠ 0 → 2000 ≤ s.time.ns - r.firstAt →
      Answers (.acceptanceRecordTimer ring) s fun t => (ringOf t ring).map (·.unreported) = some 0) ∧
    (∀ r j, ringOf s ring = some r → frontItem s ring = some j → fenced s = false → j.st = .accepted →
      seqBefore j.seq r.acc = true → Answers (.itemStart ring) s fun t => (entryAt t j.jseq).map (·.st) = some .running) ∧
    (∀ r j, ringOf s ring = some r → runningItem s ring = some j → j.fin = true → Answers (.itemDone ring) s fun t =>
      (entryAt t j.jseq).map (fun x => (x.st, x.status)) = some (.done, j.status) ∧
      (ringOf t ring).map (·.doneTo) = some (seqNext j.seq)) ∧
    (∀ j, s.intake.journal.find? (fun j => j.ring = ring.val && j.st = .done && !j.posted) = some j → fenced s = false →
      j.markAcked = true → Answers (.doneMarkMirrored ring) s fun t => (entryAt t j.jseq).map (·.posted) = some true) ∧
    (∀ agent : BitVec 8, mayWrite s agent.toNat WRK_RING_CTL = true →
      (∀ ws r, ringOf s ring = none → ws = ringEntry s ring → r = Ring.ofEntry ring ws → wfield ws 5 63 63 = 0 →
        (ringReason s ring ws = 0 → s.intake.heldRecs = [] → Answers (.ringAct agent ring) s fun t =>
          t.intake.rings = s.intake.rings ++ [r] ∧ getF t WRK_RING_CTL WRK_RING_CTL_INDEX = ring ∧
          memSameOutside s t (r.doorbell + 64) 24 ∧
          readWords t (r.doorbell + 64) 3 = [w64 r.acc, w64 r.doneTo, w64 r.cseq]) ∧
        (ringReason s ring ws ≠ 0 → Answers (.ringAct agent ring) s fun t =>
          t = makeRecord (writeRingIndex s ring) srcSmith 0x300 [w64 (ring + ringReason s ring ws * 2 ^ 8)])) ∧
      ((ringOf s ring).isSome = true → (∀ j ∈ s.intake.journal, j.ring ≠ ring) → Answers (.ringDeact agent ring) s fun t =>
        ringOf t ring = none ∧ getF t WRK_RING_CTL WRK_RING_CTL_INDEX = ring ∧
        regsSameBut s t [WRK_RING_CTL, WRK_STATUS] ∧ t = { s with regs := t.regs, intake := t.intake }))

/-- R215, R230, R338, R340: what an item that runs does to the job, and how it reaches its point of completion. -/
def Obligations.WorkItems : Prop :=
  ∀ (ring : Fin 16) (s : State) (e : JEntry), sized s = true → quenched s = false → runningItem s ring = some e →
    entryAt s e.jseq = some e → e.fin = false →
    (itemBad e.item = false →
      (itemKind e = 1 →
        (s.job = none → rejectReason { s with job := some (newJob s ring e) } = none → Answers (.jobStart ring) s fun t =>
          t.job = some (newJob s ring e) ∧ ∀ h : HearthId, (hearthAt t h).walk = 0 ∧ (hearthAt t h).out = []) ∧
        (∀ c l, s.job = none → rejectReason { s with job := some (newJob s ring e) } = some (c, l) →
          Answers (.jobStart ring) s fun t => t.job = none ∧
            (entryAt t e.jseq).map (fun x => (x.fin, x.status)) = some (true, 1)) ∧
        (∀ j, s.job = some j → j.item ≠ some (ring.val, e.jseq) → Answers (.jobStart ring) s fun t => t.job = s.job ∧
          (entryAt t e.jseq).map (fun x => (x.fin, x.status)) = some (true, 7))) ∧
      (∀ j, s.job = some j → itemKind e = 2 → j.relItem ≠ some (ring.val, e.jseq) →
        ((j.stat ≠ .heldWiden ∨ wfield e.item 8 63 0 ≠ j.step) → Answers (.widenRelease ring) s fun t => t.job = s.job ∧
          (entryAt t e.jseq).map (fun x => (x.fin, x.status)) = some (true, 4)) ∧
        (∀ g, j.stat = .heldWiden → wfield e.item 8 63 0 = j.step → wfield e.item 10 1 0 ≠ 3 →
          groupAt s (jobGroup s) = some g → childrenIn g.size 0 g.rank ≠ [] → Answers (.widenRelease ring) s fun t =>
            memSame s t ∧ t.job.map (fun y => (y.stepEnd, y.dramRes, y.csRes, y.relItem)) =
              some (4, wfield e.item 9 63 0, wfield e.item 10 63 32, some (ring.val, e.jseq)))) ∧
      (∀ j, s.job = some j → itemKind e = 3 →
        ((j.stat ≠ .heldRatio ∨ wfield e.item 8 63 0 ≠ j.step) → Answers (.ratioRelease ring) s fun t => t.job = s.job ∧
          (entryAt t e.jseq).map (fun x => (x.fin, x.status)) = some (true, 4)) ∧
        (j.stat = .heldRatio → wfield e.item 8 63 0 = j.step → wfield e.item 9 1 0 ≤ 1 → stepTasksOver s = false →
          Answers (.ratioRelease ring) s fun t =>
            t.job.map (fun y => (y.stepEnd, y.skipUpdate, y.step)) = some (7, wfield e.item 9 1 0 == 1, j.step) ∧
            (entryAt t e.jseq).map (fun x => (x.fin, x.status)) = some (true, 0))) ∧
      (∀ g, s.job.isSome = true → itemKind e = 4 → groupAt s (wfield e.item 8 15 0) = some g → s.coll.reset = none →
        g.rank = 0 → childrenIn g.size 0 0 ≠ [] → fabCalm s = true → Answers (.jobReset ring) s fun t =>
          t.coll.reset = some ⟨g.index, [], true⟩) ∧
      (∀ j, s.job = some j → itemKind e = 5 → j.endItem = none → j.stat = .running → atBoundary s = false →
        Answers (.jobEnd ring) s fun t =>
          t = { s with job := some { j with endItem := some (ring.val, e.jseq), stat := .ending } }) ∧
      (itemKind e = 6 → Answers (.workNop ring) s fun t => t.job = s.job ∧
        (entryAt t e.jseq).map (fun x => (x.fin, x.status)) = some (true, 0)) ∧
      (∀ c, ((c = .widenRelease ring ∧ itemKind e = 2) ∨ (c = .ratioRelease ring ∧ itemKind e = 3) ∨
          (c = .jobReset ring ∧ itemKind e = 4) ∨ (c = .jobEnd ring ∧ itemKind e = 5)) → s.job = none →
        Answers c s fun t => t.job = none ∧
          (entryAt t e.jseq).map (fun x => (x.fin, x.status)) = some (true, 3))) ∧
    (itemBad e.item = true → Answers (.badkindItem ring) s fun t => t.job = s.job ∧
      (entryAt t e.jseq).map (fun x => (x.fin, x.status)) = some (true, 2))

/-- R347 to R351: the lock of a mailbox, its window, its delivery and its timeouts; an agent that does not hold the lock
neither writes nor posts. -/
def Obligations.Mailboxes : Prop :=
  ∀ (agent : BitVec 8) (m : Fin 32) (s : State), sized s = true → isAgent agent.toNat = true →
    ((mbxAt s m).owner = 0 → Answers (.mbxLockRead agent m) s fun t => t.answer = .value 0 ∧
      mbxAt t m = { (mbxAt s m) with owner := agent.toNat, since := s.time.ns, quenched := 0 } ∧
      t = { s with mbx := t.mbx, answer := .value 0 }) ∧
    ((mbxAt s m).owner ≠ 0 → Answers (.mbxLockRead agent m) s fun t =>
      t = { s with answer := .value (BitVec.ofNat 32 (mbxAt s m).owner) }) ∧
    (∀ val : Word32, (mbxAt s m).owner = agent.toNat →
      (val.toNat % 256 = agent.toNat → Answers (.mbxLockWrite agent m val) s fun t => (mbxAt t m).owner = 0 ∧
        t = { s with mbx := t.mbx }) ∧
      (∀ w : Fin 64, Answers (.mbxWindowWrite agent m w val) s fun t => getR t (MBX_DATA (64 * m + w)) = val ∧
        regsSameBut s t [MBX_DATA (64 * m + w)] ∧ t = { s with regs := t.regs })) ∧
    (∀ (val : Word32) (w : Fin 64), (mbxAt s m).owner ≠ agent.toNat →
      (Answers (.mbxLockWrite agent m val) s fun t => t = s) ∧
      (Answers (.mbxWindowWrite agent m w val) s fun t => t = mailboxRefused s m agent.toNat) ∧
      (Answers (.post agent m) s fun t => t = mailboxRefused s m agent.toNat)) ∧
    (m.val ≠ 0 → mbxOnChip s m = true → (mbxAt s m).owner = agent.toNat →
      (∀ f, (mbxAt s m).fullAt = some f → Answers (.post agent m) s fun t => flag t (MBX_STAT m) MBX_STAT_REFUSED = true ∧
        regsSameBut s t [MBX_STAT m] ∧ t = { s with regs := t.regs }) ∧
      ((mbxAt s m).fullAt = none → smithReceives s m = true → receiverDead s m = false → Answers (.post agent m) s fun t =>
        (mbxAt t m).fullAt = some s.time.ns ∧ (mbxAt t m).owner = 0 ∧ senderOf t m = agent.toNat ∧
        t = { s with regs := t.regs, mbx := t.mbx })) ∧
    ((mbxAt s m).owner ≠ 0 → quenched s = false → mbxLimit s ≤ s.time.ns - (mbxAt s m).since - (mbxAt s m).quenched →
      Answers (.mbxLockTimeout m) s fun t => (mbxAt t m).owner = 0 ∧ flag t (MBX_STAT m) MBX_STAT_LOCK_TO = true ∧
        (∀ w : Fin 64, getR t (MBX_DATA (64 * m + w)) = 0) ∧
        t = { s with regs := t.regs, mbx := t.mbx, recorder := t.recorder }) ∧
    (∀ t0, (mbxAt s m).fullAt = some t0 → mbxLimit s ≤ s.time.ns - t0 → senderOf s m < 2 ^ 62 →
      Answers (.mbxMessageTimeout m) s fun t => (mbxAt t m).fullAt = none ∧
        flag t (MBX_STAT m) MBX_STAT_TIMEOUT = true ∧
        (∀ h : HearthId, ∀ x ∈ (hearthAt s h).ready,
          (x ∈ (hearthAt t h).ready ↔ ¬(x.mbox = some m.val ∧ x.fails = 0 ∧ x.slot = none))) ∧
        t = { s with regs := t.regs, mbx := t.mbx, hearths := t.hearths })

/-- R349: a smith receiver takes a message by TAKE, a task receiver when the dispatcher starts the mailbox task; taking
clears FULL, and only of that mailbox. -/
def Obligations.TakingClearsFull : Prop :=
  ∀ (s : State) (m : Fin 32), sized s = true →
    (∀ agent : BitVec 8, agent = 1 → smithReceives s m = true → Answers (.take agent m) s fun t =>
      mbxAt t m = { (mbxAt s m) with fullAt := none } ∧ t = { s with mbx := t.mbx } ∧
      ∀ n : Fin 32, n ≠ m → mbxAt t n = mbxAt s n) ∧
    (∀ agent : BitVec 8, agent ≠ 1 ∨ smithReceives s m = false → Answers (.take agent m) s fun t => t = s) ∧
    (∀ (h : HearthId) x i, dispatchOpen s = true → nextTask s h = some (x, i) → wfield x.record 0 63 48 = 0x0A53 →
      x.slot = none → x.fails = 0 → x.mbox = some m.val → Answers (.taskDispatch h) s fun t =>
        (coreAt t i).task = some (noteMoved i x) ∧ mbxAt t m = { (mbxAt s m) with fullAt := none } ∧
        ∀ n : Fin 32, n ≠ m → mbxAt t n = mbxAt s n)

/-! ## Survival (R355 to R381) -/

/-- R355 to R361, R372, R373, R376, R379: ARM takes or refuses the plan; a ward is checked; the full copy makes its partner
current; a commit leaves and is applied; its acknowledgement, the tally of a working row, LEAVE and the restore.

R363, R364, R374: heartbeats, the declaration of a loss, the fence of a device that its partner has not answered, and
the notices that are tried again. -/
def Obligations.SeedCopyAndLosses : Prop :=
  (∀ (agent : BitVec 8) (s : State), sized s = true →
    (mayWrite s agent.toNat SURV_CTL = true →
      (∀ off, s.job = none → planBad s (readWords s (planAddr s) 32) = some off → Answers (.arm agent) s fun t =>
        t = makeRecord s srcSmith 0x380 [w64 off]) ∧
      (s.job = none → planBad s (readWords s (planAddr s) 32) = none → Answers (.arm agent) s fun t => memSame s t ∧
        t.surv.plan = readWords s (planAddr s) 32 ∧ flag t SURV_STATUS SURV_STATUS_MEMBER = true) ∧
      (Answers (.leave agent) s fun t => t = { s with surv := { s.surv with leave := true } })) ∧
    (∀ (node : BitVec 16) (slot base len : BitVec 48), s.surv.wards.any (·.node = node.toNat) = false →
      (windowOverlaps s node.toNat base.toNat len.toNat = true → Answers (.wardArmCheck node slot base len) s fun t =>
        t = { makeRecord s srcSurvival 0x381 [w64 node.toNat] with surv := { s.surv with turned := t.surv.turned } } ∧
        node.toNat ∈ t.surv.turned) ∧
      (windowOverlaps s node.toNat base.toNat len.toNat = false → s.surv.wards.length < planMaxWards s.surv.plan →
        slotFree s node.toNat slot.toNat = true → Answers (.wardArmCheck node slot base len) s fun t => memSame s t ∧
          t.surv.wards = s.surv.wards ++ [⟨node.toNat, slot.toNat, base.toNat, len.toNat, [], []⟩])) ∧
    (∀ p, s.surv.partner = some p → p.1 < 65536 → quenched s = false →
      (s.surv.copying = true → ownerLeft s .copy = false → s.intake.journal = [] → s.intake.rings = [] →
        Answers .fullCopyComplete s fun t => memSame s t ∧ t.surv.copying = false ∧ partnerNode t = p.1 ∧
          partnerValid t = true ∧ flag t SURV_STATUS SURV_STATUS_ARMED = true ∧
          flag t SURV_STATUS SURV_STATUS_REPAIRING = false ∧ flag t WRK_STATUS WRK_STATUS_PARTNER_DOWN = false) ∧
      (∀ k, s.surv.commitStep = none → partnerValid s = true → s.surv.copying = false → fenced s = false →
        s.surv.commitDue = some k → Answers .commit s fun t => t.surv.commitStep = some k ∧ t.surv.lastCommit = k ∧
          t.surv.commitDue = none ∧ t.surv.durable = false)) ∧
    (∀ (node : BitVec 16) w row m d, wardNamed s node.toNat = some w → commitFresh s w = true → quenched s = false →
      (readWord s (w.slot + 0x80 + 16)).toNat ≠ 0 → (readWord s (w.slot + 0x80 + 24)).toNat = 0 → wardRows s w = [row] →
      w.refetch = [] → rowAt s row.1 row.2 = some m →
      rowAt s (w.slot + slotDelta + masterOffset (wardExtents s w kMaster) row.1) row.2 = some d →
      d.codes.any (fun c => c != 0) = true → (addDelta m d).length = row.2 → openDram s row.1 row.2 →
      (w.slot + 16 ≤ row.1 ∨ row.1 + row.2 ≤ w.slot + 8) →
      (row.1 + row.2 ≤ w.slot + 0x80 ∨ w.slot + 0x100 ≤ row.1) → Answers (.commitApply node) s fun t =>
        readBytes t row.1 row.2 = addDelta m d ∧ readWord t (w.slot + 8) = readWord s (w.slot + 0x80 + 8) ∧
        (∀ a, (a < row.1 ∨ row.1 + row.2 ≤ a) → (a < w.slot + 8 ∨ w.slot + 16 ≤ a) → readByte t a = readByte s a)) ∧
    (∀ k, s.surv.commitStep = some k → (readWord s (survArea s + 0x2000)).toNat = k → quenched s = false →
      s.surv.later = [] → Answers .commitAck s fun t => t = { s with surv := { s.surv with commitStep := none } }) ∧
    (∀ (owner : BitVec 16) (row : BitVec 48) words fp, s.job.isSome = true → owner.toNat ≠ ownNode s →
      (fpWords (readWords s row.toNat words) = fp.toNat → Answers (.workingRowTally owner row words fp) s fun t =>
        t = { s with surv := { s.surv with rereads := assocErase row.toNat s.surv.rereads } }) ∧
      (fpWords (readWords s row.toNat words) ≠ fp.toNat → assocGet row.toNat s.surv.rereads = none →
        Answers (.workingRowTally owner row words fp) s fun t => memSame s t ∧
          assocGet row.toNat t.surv.rereads = some 1 ∧ getF t SURV_CNT1 SURV_CNT1_TALLY_MISS =
            min 0xFFFF (getF s SURV_CNT1 SURV_CNT1_TALLY_MISS + 1))) ∧
    (mayWrite s agent.toNat SURV_RST_CTL = true → Answers (.restoreGo agent) s fun t =>
      getF t SURV_RST_CTL SURV_RST_CTL_ERROR = restoreError s ∧
      flag t SURV_RST_CTL SURV_RST_CTL_DONE = decide (restoreError s = 0) ∧
      (restoreError s ≠ 0 → regsSameBut s t [SURV_RST_CTL] ∧
        t = { s with regs := t.regs, surv := { s.surv with badStream := t.surv.badStream } } ∧
        (restoreError s = 0x31 → t.surv.badStream = restoreCursorsBad s)) ∧
      (restoreError s = 0 → t.job = none ∧ t.surv.baseStep = (readWord s (restoreArea s + 16)).toNat ∧ halted t = false))) ∧
  (∀ (node : BitVec 16) (s : State), sized s = true →
    (watched s node.toNat = true → silentTo s node.toNat = true → fenced s = false → joined s = true →
      Answers (.heartbeatTimer node) s fun t => pendingTo t node.toNat = pendingTo s node.toNat + 1 ∧ memSame s t) ∧
    (∀ t0 g, assocGet node.toNat s.surv.heard = some t0 → quenched s = false → hbLoss s ≤ s.time.ns - t0 → fenced s = false →
      watched s node.toNat = true → survGroup s = some g → reportRank s node.toNat ≠ g.rank → Answers (.hbLossExpiry node) s fun t =>
        assocGet node.toNat t.surv.heard = none ∧ memSame s t ∧
        getF t SURV_CNT0 SURV_CNT0_LOSSES = min 0xFFFF (getF s SURV_CNT0 SURV_CNT0_LOSSES + 1) ∧
        t.recorder = (makeRecord s srcSurvival 0x383 [w64 (node.toNat + 2 ^ 16)]).recorder) ∧
    (∀ p, s.surv.partner = some p → (dstAt s p.1).unacked ≠ [] → hbLoss s ≤ s.time.ns - (dstAt s p.1).advAt →
      Answers .selfFence s fun t => fenced t = true ∧ regsSameBut s t [SURV_STATUS] ∧ t = { s with regs := t.regs }) ∧
    (∀ x c, s.surv.notices = [x] → s.surv.plan ≠ [] → fenced s = false → connAt s (noticeConn s) = some c → c.error = false →
      c.waitq = [] → Answers .noticeRetry s fun t => t.surv.notices = [] ∧ memSame s t ∧
        (connAt t c.index).map (fun y => y.ops.map (·.data)) = some (c.ops.map (·.data) ++ [bytesOfWords (padWords 8 x)])))

/-- R362, R364 to R367, R370, R375, R381: the survival lines. A line that Table 13-5 does not admit is counted; a loss or a
join gathers at the coordinator; a newer change is made, and fences the device that it removes; its confirmations, the
hold-off and RESUME end it; HALT stops the job at its step boundary. -/
def Obligations.SurvivalLines : Prop :=
  ∀ (loc : SurvLoc) (v : BitVec 16) (s : State) (g : Group) (l : SurvLine), sized s = true → survGroup s = some g →
    quenched s = false →
    (∀ c, c ∈ [Instr.loss loc, .join loc, .change loc, .resume loc, .halt loc] → readSurv s (survAddr s loc) = none →
      Answers c s fun t => getF t SURV_CNT0 SURV_CNT0_BADLINE = min 0xFFFF (getF s SURV_CNT0 SURV_CNT0_BADLINE + 1) ∧
        regsSameBut s t [SURV_CNT0] ∧ t = { s with regs := t.regs }) ∧
    (loc = .inbox v → readSurv s (survAddr s loc) = some l → assocGet (survKey loc) s.surv.lines ≠ some l.seq →
      (∀ c, fabCalm s = true → s.surv.change = some c → unconfirmed s c ≠ [] → g.rank = 0 →
        (l.kind = 1 → l.removed.contains (ownNode s) = false → Answers (.loss loc) s fun t => memSame s t ∧
          (∀ n ∈ l.removed, g.nodes.contains n = true → (n, true) ∈ t.surv.reports) ∧ t.surv.change = some c) ∧
        (l.kind = 6 → Answers (.join loc) s fun t => memSame s t ∧ (∀ n ∈ l.added, (n, false) ∈ t.surv.reports) ∧
          t.surv.change = some c)) ∧
      (l.kind = 2 →
        (survMgen s < l.mgen → l.removed.contains (ownNode s) = true → Answers (.change loc) s fun t =>
          fenced t = true ∧ memSame s t ∧ t.ylp = s.ylp) ∧
        (l.mgen ≤ survMgen s → Answers (.change loc) s fun t => t.regs = s.regs ∧ memSame s t ∧ t.ylp = s.ylp) ∧
        (∀ n, survMgen s < l.mgen → l.removed = [n] → n ≠ ownNode s → l.added = [] → fabCalm s = true → s.job = none →
          s.surv.wards = [] → s.surv.reports = [] → s.intake.rings = [] → s.coll.reset = none → s.ylp.tx = [] →
          Answers (.change loc) s fun t => survMgen t = l.mgen ∧ isMember t n = false ∧
            (∀ m, m ≠ n → isMember t m = isMember s m) ∧ t.surv.change.map (·.mgen) = some l.mgen)) ∧
      (∀ c, l.kind = 4 → s.surv.change = some c → c.mgen = l.mgen → Answers (.resume loc) s fun t =>
        t.surv.change = none) ∧
      (l.kind = 5 → s.surv.haltSeen = false → Answers (.halt loc) s fun t => t.surv.haltSeen = true ∧
        (atBoundary s = true → halted t = true))) ∧
    (∀ q c, loc = .relation q → readSurv s (survAddr s loc) = some l → assocGet (survKey loc) s.surv.lines ≠ some l.seq →
      l.kind = 3 → l.mgen ≤ survMgen s → s.surv.change = some c → c.mgen = l.mgen →
      c.kids.contains (relationRank g q) = false →
      unconfirmed s { c with kids := c.kids ++ [relationRank g q] } ≠ [] → Answers (.confirm loc) s fun t =>
        t.surv.change = some { c with kids := c.kids ++ [relationRank g q] }) ∧
    (∀ c, s.surv.change = some c → g.rank = 0 → unconfirmed s c = [] → s.surv.reports = [] →
      holdoffTime s ≤ s.time.ns - c.sentAt → Answers .holdoffExpiry s fun t => t.surv.change = none)

/-- R368, R369, R381: the lease of a removed ward ends with its adoption; a joined device takes an adopted shard over. -/
def Obligations.ShardsMove : Prop :=
  ∀ (node : BitVec 16) (s : State) (w : Ward), sized s = true → fabCalm s = true → quenched s = false → fenced s = false →
    (∀ t0, wardNamed s node.toNat = some w → assocGet node.toNat s.surv.removedAt = some t0 → isMember s node.toNat = false →
      s.surv.adopts.contains node.toNat = false → hbLoss s + leaseTime s ≤ s.time.ns - t0 →
      (readWord s w.slot).toNat % 4 = 2 → s.surv.adopts.length < planMaxWards s.surv.plan → commitFresh s w = false →
      wardCursorsBad s w = none → journalRoom s (takenItems s w (readWord s (w.slot + 8)).toNat).length = true → Answers (.leaseExpiry node) s fun t => node.toNat ∈ t.surv.adopts ∧
        (readWord t w.slot).toNat % 4 = 3 ∧
        getF t SURV_CNT2 SURV_CNT2_PROMOTIONS = min SURV_CNT2_PROMOTIONS.cap (getF s SURV_CNT2 SURV_CNT2_PROMOTIONS + 1)) ∧
    (handedWard s node.toNat = some w → (groupNodes s).contains node.toNat = true → atBoundary s = true →
      s.surv.change = none → s.surv.commitDue = none → s.surv.commitStep = none → Answers (.handover node) s fun t =>
        t.surv.adopts = s.surv.adopts.filter (· != w.node) ∧ t.surv.wards = s.surv.wards.filter (·.node != w.node) ∧
        (readWord t w.slot).toNat % 4 = 0)

/-! ## Power and heat (R383 to R408) -/

/-- R383, R384, R386: the estimate and its windows, an excursion above CAP, and pacing: k falls while the current or the power
asks for it (how far is a free value, log entry 70) and rises by one every 10 µs once the cause is gone.

R385, R387, R398: the oldest request is granted when its charge fits in SLOPE over the last microsecond, and after the
start dither; a quench grants ramp-downs alone. -/
def Obligations.PowerAndGrants : Prop :=
  (∀ (s : State), sized s = true →
    (∀ watts amps, quenched s = false → Answers (.powerEstimate watts amps) s fun t =>
      t.power.samples.head? = some (s.now, estWatts s watts amps) ∧
      getF t PWR_POWER PWR_POWER_P_FAST = min 0xFFFF (pFast t) ∧ getF t PWR_POWER PWR_POWER_P_SLOW = min 0xFFFF (pSlow t) ∧
      (t.power.excursion.isSome = decide (capW s < pFast t)) ∧
      (capW s < pFast t → s.power.excursion = none → flag t PWR_STATUS PWR_STATUS_EXCURSION = true) ∧
      (pFast t ≤ capW s → flag t PWR_STATUS PWR_STATUS_EXCURSION = false) ∧
      (1500 < pFastHigh t ∨ (capW t : Rat) < pSlowHigh t → mustPace t = true) ∧
      (mustPace t = false → paceK t = paceK s) ∧ (mustPace t = true → 1 < paceK s → 1 ≤ paceK t ∧ paceK t < paceK s) ∧
      regsSameBut s t [PWR_POWER, PWR_STATUS, PWR_CNT] ∧ memSame s t ∧ t.cores = s.cores) ∧
    (quenched s = false → mustPace s = false → paceK s < 16 → 10000 ≤ s.now - s.power.paceAt → (s.power.hotPace = true → paceK s < 8) →
      Answers (.paceRaise true) s fun t => paceK t = paceK s + 1 ∧ t.power.paceAt = s.now ∧ regsSameBut s t [PWR_STATUS]) ∧
    (∀ gone, gone = false ∨ s.now - s.power.paceAt < 10000 → Answers (.paceRaise gone) s fun t => t = s)) ∧
  (∀ (s : State) (u : State), sized s = true → u = standingGrants s →
    (nextGrant u = none → Answers .grant s fun t => t = u) ∧
    (∀ c m gs, quenched s = false → u.power.grants = .up c m :: gs →
      (grantFits u (.up c m) = false → Answers .grant s fun t => t = u) ∧
      (ditherWaits u = true → Answers .grant s fun t => t = u) ∧
      (grantFits u (.up c m) = true → ditherWaits u = false → Answers .grant s fun t =>
        (∀ a, a < 4 → m.toNat.testBit a = true → (anvilAt u c.val a).ramp = .waitUp → (anvilAt t c.val a).ramp = .up 1) ∧
        (∀ i : CoreId, i ≠ c → coreAt t i = coreAt u i) ∧ t.power.grants = gs ∧ memSame s t ∧
        t.power.charges = recentCharges u ++ [(s.now, true, (anvList m.toNat).length * anvilMilli s)])) ∧
    (∀ c a, quenched s = true → nextGrant u = some (.down c a) → grantFits u (.down c a) = true →
      (anvilAt u c.val a.val).ramp = .waitDown → Answers .grant s fun t => (anvilAt t c.val a.val).ramp = .down 1 ∧
        t.power.grants = u.power.grants.erase (.down c a) ∧ memSame s t) ∧
    (∀ x c m, s.power.dither = some x → x ≤ s.now → quenched s = false → s.power.grants = [.up c m] →
      standingGrants { s with power := { s.power with dither := none } } = { s with power := { s.power with dither := none } } →
      grantFits s (.up c m) = true → Answers .startDitherExpiry s fun t => t.power.dither = none ∧ t.power.grants = [] ∧
        (∀ a, a < 4 → m.toNat.testBit a = true → (anvilAt s c.val a).ramp = .waitUp → (anvilAt t c.val a).ramp = .up 1)) ∧
    (∀ x, s.power.dither = none ∨ (s.power.dither = some x ∧ s.now < x) → Answers .startDitherExpiry s fun t => t = s))

/-- R384, R388 to R391: rail currents by AVSBus; the voltage request moves by one code at a time, to the floor when the device
is idle and back before a forecast; the ladder goes down above the allowance, up below 95% of it, and stands between. -/
def Obligations.VoltageAndLadder : Prop :=
  ∀ (s : State), sized s = true →
    (3 ≤ s.boot.step → (∀ mv rails, Answers (.avsCurrentRead true mv rails) s fun t =>
        getF t PWR_MEAS PWR_MEAS_VMV = mv.toNat % (PWR_MEAS_VMV.cap + 1) ∧
        getF t PWR_MEAS PWR_MEAS_IAMP = min 0xFFFF ((rails.map (·.toNat)).sum / 100) ∧ t.power.avsFails = 0 ∧
        regsSameBut s t [PWR_MEAS] ∧ t = { s with regs := t.regs, power := t.power }) ∧
      (∀ mv rails, s.power.avsFails = 2 → s.power.avsDead = false → Answers (.avsCurrentRead false mv rails) s fun t =>
        t.power.avsFails = 3 ∧ t.power.avsDead = true ∧ t.regs = s.regs ∧
        t.recorder = (makeRecord s srcBellows 0x400 [w64 avsRailCurrent]).recorder)) ∧
    (bellowsHolds s = true → 100000 ≤ s.now - s.power.vAt →
      (idleMillisecond s = true → forecastDue s = false → vfloor s < vreq s → Answers .idleVfloor s fun t =>
        vreq t = vreq s - 1 ∧ t.egress = s.egress ++ [.avs (vreq s - 1)] ∧ t.power.floored = true ∧
        regsSameBut s t [PWR_VCTL]) ∧
      (forecastDue s = true → vreq s < ladderLevel s → s.power.avsDead = false → Answers .forecastWindowDue s fun t =>
        vreq t = vreq s + 1 ∧ t.egress = s.egress ++ [.avs (vreq s + 1)] ∧ t.power.floored = false ∧
        regsSameBut s t [PWR_VCTL]) ∧
      (dueAfter s 100000 s.power.ladderAt = true → pAllow s < (pFast s : Rat) → vfloor s < ladderLevel s → vreq s = ladderLevel s → s.power.floored = false →
        Answers .ladderStep s fun t => ladderLevel t = ladderLevel s - 1 ∧ vreq t = vreq s - 1 ∧
          t.power.parked = s.power.parked)) ∧
    (bellowsHolds s = true →
      (∀ i, dueAfter s 100000 s.power.ladderAt = true → pAllow s < (pFast s : Rat) → vfloor s = ladderLevel s → flag s PWR_CTL PWR_CTL_PARK_EN = true →
        nextPark s = some i → Answers .ladderStep s fun t => t.power.parked = s.power.parked ++ [i]) ∧
      ((pFast s : Rat) ≤ pAllow s → 95 / 100 * pAllow s ≤ (pFast s : Rat) → Answers .ladderStep s fun t =>
        t.power.ladderV = s.power.ladderV ∧ t.power.parked = s.power.parked ∧ t.power.offDoms = s.power.offDoms) ∧
      (dueAfter s 100000 s.power.ladderAt = true → (pFast s : Rat) ≤ pAllow s → (pFast s : Rat) < 95 / 100 * pAllow s → s.power.offDoms = [] → s.power.parked ≠ [] →
        Answers .ladderStep s fun t => t.power.parked = s.power.parked.dropLast)) ∧
    (bellowsHolds s = false ∨ dueAfter s 100000 s.power.ladderAt = false → Answers .ladderStep s fun t => t = s)

/-- R392 to R396: the junction paces at 95 °C and calls a quench at QUENCH_T; the allowance steps by 2% and 1% of CAP; the
coolant is read, and its sensing lost after three failed reads.

R397 to R402: what declares a quench, what it does, when it ends, and how long it lasts before the device leaves. -/
def Obligations.HeatAndQuench : Prop :=
  (∀ (s : State), sized s = true →
    (∀ (tj : BitVec 16) (sensor : BitVec 8),
      (tj.toInt < celsius 93 → Answers (.thermalSample tj sensor) s fun t => regsSameBut s t [THM_TJ] ∧
        getF t THM_TJ THM_TJ_TJ = tj.toNat ∧ getF t THM_TJ THM_TJ_SENSOR = sensor.toNat ∧ quenched t = quenched s ∧
        (quenched s = false → t.power.hotPace = false)) ∧
      (quenched s = false → celsius 95 ≤ tj.toInt → tj.toInt < celsius (quenchT s) →
        Answers (.thermalSample tj sensor) s fun t => paceK t = min 8 (paceK s) ∧ t.power.hotPace = true ∧
          quenched t = false) ∧
      (quenched s = false → s.therm.trip = false → celsius (quenchT s) ≤ tj.toInt → tj.toInt < celsius 110 →
        Answers (.thermalSample tj sensor) s fun t => quenched t = true ∧
          getF t THM_QCTL THM_QCTL_CAUSE = 2 ∧ getF t PWR_STATUS PWR_STATUS_LIMIT = 6 ∧
          t.pins.thermTrip = s.pins.thermTrip)) ∧
    (dueAfter s 1000000 s.power.allowAt = true → junctionHot s = true → Answers .thermalAllowanceStep s fun t =>
      t.power.pTherm = max 0 (s.power.pTherm - (capW s : Rat) / 50) ∧ t = { s with power := t.power }) ∧
    (dueAfter s 1000000 s.power.allowAt = true → junction s < celsius (tjLim s) - celsius 3 → junctionHot s = false →
      Answers .thermalAllowanceStep s fun t =>
      t.power.pTherm = min (capW s : Rat) (s.power.pTherm + (capW s : Rat) / 100) ∧ t = { s with power := t.power }) ∧
    (dueAfter s 1000000 s.power.allowAt = false ∨ (junctionHot s = false ∧ celsius (tjLim s) - celsius 3 ≤ junction s) →
      Answers .thermalAllowanceStep s fun t => t = s) ∧
    (4 ≤ s.boot.step → ∀ (inlet : BitVec 16) flow (faults : BitVec 8),
      (faults.toNat % 2 = 0 → Answers (.coolantPoll true inlet flow faults) s fun t =>
        getF t THM_COOL THM_COOL_INLET = inlet.toNat % (THM_COOL_INLET.cap + 1) ∧
        getF t THM_COOL THM_COOL_FLOW = min 1000 flow ∧ flag t THM_COOL THM_COOL_SENSE_OK = true ∧
        t.therm.flow = min 1000 flow ∧ t.therm.smbFails = 0 ∧ t.therm.lost = false ∧
        regsSameBut s t [THM_COOL, THM_SMB, PWR_STATUS]) ∧
      (2 ≤ s.therm.smbFails → s.therm.lost = false → Answers (.coolantPoll false inlet flow faults) s fun t =>
        flag t THM_COOL THM_COOL_SENSE_OK = false ∧ t.therm.lost = true ∧
        t.recorder = (makeRecord s srcBellows 0x401 [w64 (1 + 2 ^ 8)]).recorder))) ∧
  (∀ (s : State), sized s = true →
    (lowFlow s = false → Answers .lowFlowQuench s fun t => t = s) ∧
    (quenched s = false → s.therm.trip = false →
      (lowFlow s = true → Answers .lowFlowQuench s fun t => quenched t = true ∧ getF t THM_QCTL THM_QCTL_CAUSE = 1) ∧
      (∀ agent : BitVec 8, mayWrite s agent.toNat THM_QCTL = true → Answers (.quench agent) s fun t =>
        quenched t = true ∧ t.therm.quench = some s.now ∧ getF t THM_QCTL THM_QCTL_CAUSE = 3 ∧
        getF t THM_QCTL THM_QCTL_COUNT = min THM_QCTL_COUNT.cap (getF s THM_QCTL THM_QCTL_COUNT + 1) ∧ memSame s t ∧
        (∀ (i : CoreId) (a : Fin 4), (anvilAt t i a).ramp = rampOff (anvilAt s i a).ramp) ∧
        (∀ u : DomId, domState s u = domTest → (domainAt s u).testing = true →
          domState t u = domOff ∧ DomCmd.test ∈ (domainAt t u).pending))) ∧
    (∀ q, s.therm.quench = some q →
      (s.therm.inSelfRefresh = false → anvilsIdle s = true → vreq s ≠ 0 → Answers .quenchIdle s fun t => vreq t = 0 ∧
        t.egress = s.egress ++ [.avs 0] ∧ t.therm.inSelfRefresh = true ∧ regsSameBut s t [PWR_VCTL]) ∧
      (anvilsIdle s = false → Answers .quenchIdle s fun t => t = s) ∧
      (mayEnd s = false → Answers .quenchEnd s fun t => t = s) ∧
      (mayEnd s = true → queuesEmpty s = true → s.intake.rings = [] → domQuiet s = true → Answers .quenchEnd s fun t => quenched t = false ∧ getF t THM_QCTL THM_QCTL_CAUSE = 0 ∧
        (s.power.avsDead = false → vreq t = if 3 ≤ s.boot.step ∧ s.boot.step < 8 then 30 else vfloor s) ∧ getF t THM_QCTL THM_QCTL_COUNT = getF s THM_QCTL THM_QCTL_COUNT)) ∧
    (∀ (h : HearthId) (chan : BitVec 7) t0, s.power.selfRefresh = [(128 * h.val + chan.toNat, t0)] →
      (10000 ≤ s.now - t0 → Answers (.selfRefreshReentry h chan) s fun t =>
        t = { s with power := { s.power with selfRefresh := [] } }) ∧
      (s.now - t0 < 10000 → Answers (.selfRefreshReentry h chan) s fun t => t = s)))

/-- R401: a quench that lasts LEAVE seconds makes the device leave as a write of LEAVE would, once; a LEAVE of 0 never
does; the device stays quenched. -/
def Obligations.QuenchLeaves : Prop :=
  ∀ (s : State) (q : Nat), s.therm.quench = some q →
    (getF s THM_QCTL THM_QCTL_LEAVE ≠ 0 → s.therm.left = false →
      getF s THM_QCTL THM_QCTL_LEAVE * 1000000000 ≤ s.now - q → Answers .quenchLeaveTimer s fun t =>
        t = leave { s with therm := { s.therm with left := true } } ∧ t.surv.leave = true ∧ quenched t = true ∧
        Answers .quenchLeaveTimer t fun u => u = t) ∧
    (getF s THM_QCTL THM_QCTL_LEAVE = 0 ∨ s.now - q < getF s THM_QCTL THM_QCTL_LEAVE * 1000000000 →
      Answers .quenchLeaveTimer s fun t => t = s)

/-- R403 to R408: the thermal trip, the count of thermal cycles, the wear record, the rotating self-test and queued tests. -/
def Obligations.TripsAndTests : Prop :=
  ∀ (s : State), sized s = true →
    (s.therm.trip = false → s.boot.running = true → ∀ (sensor : BitVec 8) (reading : BitVec 16),
      Answers (.thermalTrip sensor reading) s fun t => t.pins.thermTrip = true ∧ t.pins.svcReq = true ∧
        flag t DEV_STATUS DEV_STATUS_WEDGED = true ∧ fenced t = true ∧ memSame s t ∧
        t.recorder = (makeRecord s srcSmith 0x403 [w64 sensor.toNat]).recorder) ∧
    (∀ tj : BitVec 16, dueAfter s 10000000 s.therm.cycleAt = false → Answers (.thermalCycleSample tj) s fun t => t = s) ∧
    (∀ tj : BitVec 16, dueAfter s 10000000 s.therm.cycleAt = true → tj.toInt ≤ celsius 85 → s.therm.valid = true → s.therm.up = true → s.therm.ext ≤ tj.toInt →
      (s.therm.cand < tj.toInt → Answers (.thermalCycleSample tj) s fun t => t.therm.cand = tj.toInt ∧
        t.therm.ext = s.therm.ext ∧ t.therm.up = true ∧ t.regs = s.regs) ∧
      (∀ b, celsius 20 ≤ s.therm.cand - tj.toInt → swingBin ((s.therm.cand - s.therm.ext) / 16).toNat = some b →
        Answers (.thermalCycleSample tj) s fun t => t.therm.up = false ∧ t.therm.ext = s.therm.cand ∧
          t.therm.cand = tj.toInt ∧ halfCycles t b = min (2 ^ 32 - 1) (halfCycles s b + 1) ∧
          (∀ b', b' < 6 → b' ≠ b → halfCycles t b' = halfCycles s b') ∧
          getF t THM_LIFE THM_LIFE_USED = min 0xFFFF (lifeUsed t))) ∧
    (s.therm.wearDirty = true → s.therm.wearAt = none → s.boot.slotBusy = none → Answers .wearRecordWrite s fun t =>
      t.therm.wearDirty = false ∧ t.therm.wearAt = some s.now ∧ t.boot = (writeRecord s areaWear (wearBody s)).boot) ∧
    (∀ half : Fin 2, getF s PWR_TEST PWR_TEST_PERIOD ≠ 0 → s.boot.step = 8 → rotationGap s ≤ s.now - (rotAt s half.val).2 →
      ∀ u : DomId, (rotAt s half.val).1 < 8 → u.val = 8 * half.val + (rotAt s half.val).1 → domQuiet s = true → quenched s = false →
      testRuns s half.val = false → domState s u = domOn → inTransition s u = false → wouldStrand s u = false →
      s.power.rot.length = 2 → Answers (.selfTestRotation half) s fun t => domState t u = domLeaving ∧
        (domainAt t u).target = some .test ∧ otherDoms s t u ∧
        rotAt t half.val = (((rotAt s half.val).1 + 1) % 8, s.now)) ∧
    (∀ agent : BitVec 8, mayWrite s agent.toNat PWR_TEST = true →
      (quenched s = true → Answers (.run agent) s fun t => memSame s t ∧ t.regs = s.regs ∧
        ∀ u : DomId, DomCmd.test ∈ (domainAt t u).pending) ∧
      (quenched s = false → domQuiet s = true → (∀ u : DomId, domState s u = domOn ∧ inTransition s u = false) →
        testRuns s 0 = false → testRuns s 1 = false → wouldStrand s 0 = false → wouldStrand s 8 = false →
        Answers (.run agent) s fun t => t = { s with regs := t.regs, domains := t.domains } ∧
          regsSameBut s t [DEV_DOM_STATE] ∧ ∀ u : DomId,
            if u.val % 8 = 0 then domState t u = domLeaving ∧ (domainAt t u).target = some .test
            else domState t u = domOn ∧ (domainAt t u).pending = [.test]) ∧
      (∀ p : PortId,
        (s.job.isSome = true ∨ testOn s = true ∨ s.queuedTests ≠ [] → Answers (.portTest agent p) s fun t => regsSameBut s t [PWR_TEST] ∧
          getF t PWR_TEST PWR_TEST_PORT = p.val ∧ t.queuedTests = s.queuedTests ++ [some p] ∧ t.ports = s.ports) ∧
        (s.job.isNone = true → testOn s = false → s.queuedTests = [] → fabCalm s = true → Answers (.portTest agent p) s fun t =>
          getF t PWR_TEST PWR_TEST_PORT = p.val ∧ (portAt t p.val).testing = true ∧
          flag t (PRT_STATUS p.val) PRT_STATUS_LINK_UP = false))) ∧
    (testOn s = false → quenched s = false → atBoundary s = true → ∀ rest,
      (s.queuedTests = none :: rest → Answers .queuedTestRun s fun t => t.queuedTests = rest ∧
        t.memctl.rerunning = s.memctl.rerun ∧ t.regs = s.regs) ∧
      (∀ p, s.queuedTests = some p :: rest → fabCalm s = true → Answers .queuedTestRun s fun t => t.queuedTests = rest ∧
        (portAt t p.val).testing = true ∧ flag t (PRT_STATUS p.val) PRT_STATUS_LINK_UP = false))

/-! ## Start, trust and the recorder (R410 to R445) -/

/-- R410 to R412, R431, R433, R454: power-good, or the end of a brown-out, starts from the reset state with the flash and
the fuses kept; the loss of a rail, the pin and a brown-out hold the device absent; a reset frame latches VALUE.

R414, R415, R432: the steps of Table 15-1 that need no signature, what stops the device, and its timers. -/
def Obligations.StartAndResets : Prop :=
  (∀ (s : State), (∀ c, (c = .powerGood ∧ s.boot.running = false ∧ s.boot.brown = none) ∨
      (c = .brownOutRecovery ∧ (∃ x, s.boot.brown = some x ∧ 1000000 ≤ s.now - x) ∧ s.boot.rst = false) → Answers c s fun t =>
        t.regs = State.reset.regs ∧ t.mem = State.reset.mem ∧ t.cores = State.reset.cores ∧ t.domains = State.reset.domains ∧
        t.time = State.reset.time ∧ t.recorder = State.reset.recorder ∧ t.job = none ∧ t.conns = [] ∧
        t.boot.running = true ∧ t.boot.step = 2 ∧ t.boot.flash = s.boot.flash ∧ t.boot.fuses = s.boot.fuses ∧
        t.boot.latch = s.boot.latch) ∧
    (∀ rail : Fin 5, Answers (.powerLoss rail) s fun t => t.boot.running = false ∧ t.boot.flash = s.boot.flash ∧
      t.boot.fuses = s.boot.fuses ∧ t.boot.latch = none ∧ t.boot.pg.getLsbD rail = false ∧ t.mem = [] ∧ t.regs = [] ∧
      ∀ agent a, mayRead t agent a = false ∧ mayWrite t agent a = false) ∧
    (Answers .rstNAssert s fun t => t.boot.running = false ∧ t.boot.rst = true ∧ t.boot.latch = s.boot.latch ∧
      t.boot.flash = s.boot.flash ∧ t.boot.fuses = s.boot.fuses ∧ t.mem = [] ∧ t.regs = []) ∧
    (∀ x, s.boot.brown = some x → s.now - x < 1000000 → Answers .brownOutRecovery s fun t => t = s) ∧
    (s.boot.running = true → s.pins.thermTrip = false → Answers .brownOut s fun t => t.boot.running = false ∧
      t.boot.brown = some t.now ∧
      t.boot.flash = s.boot.flash ∧ t.boot.fuses = s.boot.fuses ∧ t.mem = [] ∧ t.regs = []) ∧
    (∀ (port : PortId) (e : Eth) bs,
      (resetFrameOk s port.val e bs = true → Answers (.resetFrame port ⟨e, bs⟩) s fun t => t.boot.running = true ∧
        t.boot.step = 2 ∧ t.boot.latch = some (slice bs 0x10 32) ∧ t.boot.flash = s.boot.flash ∧
        t.boot.fuses = s.boot.fuses ∧ t.regs = State.reset.regs ∧ t.mem = State.reset.mem) ∧
      (resetFrameOk s port.val e bs = false → Answers (.resetFrame port ⟨e, bs⟩) s fun t => t = s))) ∧
  (∀ (s : State) (r : StartReport), sized s = true →
    (s.boot.running = true → s.boot.stuck = false → quenched s = false →
      (s.boot.step = 2 → r.baseOk = false ∨ r.weldOk = false → Answers (.startStepComplete r) s fun t =>
        t.boot.stuck = true ∧ t.boot.step = 2 ∧ t.pins.svcReq = true ∧ flag t DEV_STATUS DEV_STATUS_SVC_REQ = true ∧
        memSame s t) ∧
      (s.boot.step = 2 → r.baseOk = true → r.weldOk = true → r.coreFails = [] → Answers (.startStepComplete r) s fun t =>
        t.boot.step = 3 ∧ (s.power.avsDead = false → vreq t = 30 ∧ t.egress = s.egress ++ [.avs 30]) ∧
        (∀ u : DomId, (domainAt t u).lastWindow = s.now) ∧ flag t DEV_STATUS DEV_STATUS_WELD_UP = true ∧ t.weld.up = true ∧ t.time.tracking = true ∧
        memSame s t ∧ ∀ u : DomId, domState t u = domOn ∧ (domainAt t u).clearing = true) ∧
      (s.boot.step = 3 → readRecord s areaProt = none → Answers (.startStepComplete r) s fun t =>
        t.boot.stuck = true ∧ t.boot.step = 3 ∧ flag t CFG_BOOT CFG_BOOT_TRUST_FAIL = true ∧ t.pins.svcReq = true) ∧
      (s.boot.step = 5 → flag s MEM_STATUS MEM_STATUS_TRAINED = true → Answers (.startStepComplete r) s fun t =>
        t.boot.step = 6 ∧ memSame s t ∧ ∀ p : PortId, flag t (PRT_CTL p.val) PRT_CTL_ENABLE = true) ∧
      (s.boot.step = 6 → s.boot.portRetryAt = none → r.portsUp = [] → anyPlaneUp s = false →
        Answers (.startStepComplete r) s fun t =>
          t = { s with boot := { s.boot with portRetryAt := some (s.now + 10000000000) } })) ∧
    (s.boot.stuck = true ∨ quenched s = true → Answers (.startStepComplete r) s fun t => t = s) ∧
    (s.boot.running = true → s.boot.step < 4 → 2000000000 ≤ s.now → Answers .startTimerExpiry s fun t =>
      t = { s with pins := { s.pins with svcReq := true } }) ∧
    (4 ≤ s.boot.step → Answers .startTimerExpiry s fun t => t = s) ∧
    (∀ x, s.boot.portRetryAt = some x → quenched s = false →
      (s.now < x → Answers .portRetryTimer s fun t => t = s) ∧
      (x ≤ s.now → anyPlaneUp s = false → Answers .portRetryTimer s fun t =>
        t = { s with boot := { s.boot with portRetryAt := some (s.now + 10000000000) } }) ∧
      (x ≤ s.now → anyPlaneUp s = true → siteRecord s = none → Answers .portRetryTimer s fun t =>
        t = { s with boot := { s.boot with portRetryAt := none, step := 7 } })) ∧
    (s.now - s.boot.watchAt < 1000000000 → Answers .watchdogExpiry s fun t => t = s) ∧
    (s.boot.running = true → 4 ≤ s.boot.step → 1000000000 ≤ s.now - s.boot.watchAt → flag s DEV_STATUS DEV_STATUS_WEDGED = false →
      Answers .watchdogExpiry s fun t => flag t DEV_STATUS DEV_STATUS_WEDGED = true ∧ fenced t = true ∧ memSame s t ∧
        t.pins.svcReq = true ∧ t.recorder = (makeRecord s srcSmith 0x087 [w64 4]).recorder))

/-- R425, R426, R429: the answers that the admission service gives, the wait for one, a report on request, and the entries of
the management mailbox, which the smith performs as MGMT_PERM allows. -/
def Obligations.AdmissionAndRequests : Prop :=
  ∀ (s : State), sized s = true → quenched s = false →
    ((mbxAt s 0).fullAt.isSome = true → bodyField (windowBytes s 0) 0 63 48 = 0x0F31 → s.boot.answerOk = true →
      s.boot.step = 7 →
      (bodyField (windowBytes s 0) 8 7 0 = 0 → Answers .admissionAnswer s fun t =>
        flag t DEV_STATUS DEV_STATUS_READY = true ∧ getF t CFG_JOIN CFG_JOIN_JSTATE = 2 ∧ t.boot.step = 8 ∧
        (mbxAt t 0).fullAt = none ∧ memSame s t) ∧
      (bodyField (windowBytes s 0) 8 7 0 = 1 → Answers .admissionAnswer s fun t =>
        getF t FAB_NODE FAB_NODE_EPOCH = bodyField (windowBytes s 0) 8 15 8 ∧ t.boot.admitAt = none ∧
        t.boot.spreadAt = some (s.now + joinDelay s) ∧ (mbxAt t 0).fullAt = none) ∧
      (bodyField (windowBytes s 0) 8 7 0 = 2 → Answers .admissionAnswer s fun t =>
        getF t CFG_JOIN CFG_JOIN_JSTATE = 3 ∧ flag t DEV_STATUS DEV_STATUS_SVC_REQ = true ∧ t.boot.spreadAt = none ∧
        t.recorder = (makeRecord s srcSmith 0x480 [w64 2]).recorder)) ∧
    ((mbxAt s 0).fullAt.isSome = true → s.boot.answerOk = false → Answers .admissionAnswer s fun t =>
      (mbxAt t 0).fullAt = none ∧ t = { s with mbx := t.mbx }) ∧
    (∀ x, s.boot.admitAt = some x → getF s CFG_JOIN CFG_JOIN_ADMIT_WAIT * 1000000000 ≤ s.now - x →
      Answers .admitWaitExpiry s fun t =>
        t = { s with boot := { s.boot with spreadAt := some (s.now + joinDelay s), admitAt := none } }) ∧
    (∀ c m idx, m = protAttMbox s.boot.prot → smithHas s m = true → senderConn s m = some idx → connAt s idx = some c →
      c.error = false → c.waitq = [] → bodyField (windowBytes s m) 0 63 48 = 0x0F20 →
      Answers .attestationRequest s fun t => (mbxAt t m).fullAt = none ∧ t.regs = s.regs ∧ memSame s t ∧
        (connAt t idx).map (fun y => y.ops.map (·.data)) = some (c.ops.map (·.data) ++
          [report (clearFull s m) (slice (windowBytes s m) 8 32) (bodyField (windowBytes s m) 0 0 0 = 1) false,
           leBytes 8 (0x0F22 * 2 ^ 48) ++ slice (windowBytes s m) 8 8])) ∧
    (∀ m e, m = protMgmtMbox s.boot.prot → smithHas s m = true → senderConn s m = none → remoteSender s m = false →
      bodyField (windowBytes s m) 0 63 48 = 0x0F50 → mgmtCount (windowBytes s m) = 1 → e = slice (windowBytes s m) 0x10 16 →
      (entryAllowed (clearFull s m) false (senderOf s m % 256) (fieldLE e 4 4) (decide (bodyField e 0 0 0 = 1)) = false →
        Answers .mgmtMailboxRequest s fun t => t = clearFull s m) ∧
      (∀ d, bodyField e 0 0 0 = 1 → regAt (fieldLE e 4 4) = some d → plainReg (fieldLE e 4 4) = true →
        entryAllowed (clearFull s m) false (senderOf s m % 256) (fieldLE e 4 4) true = true →
        Answers .mgmtMailboxRequest s fun t => (mbxAt t m).fullAt = none ∧ memSame s t ∧
          regsSameBut s t [fieldLE e 4 4] ∧
          ∀ f ∈ d.fields, f.acc = .rw → fieldKept (clearFull s m) (fieldLE e 4 4)
            (mergedValue (clearFull s m) (fieldLE e 4 4) (fieldLE e 8 4) (fieldLE e 12 4) d) f = false →
            fieldLE e 8 4 &&& fieldBits f = fieldBits f →
            bitsOf f.hi f.lo (getR t (fieldLE e 4 4)).toNat = bitsOf f.hi f.lo (fieldLE e 12 4)))

/-- R420, R422, R428: the commit by the smith; a staged image is refused with its code, or while a slot is written; a write
that the flash fails leaves the slot erased; a record that does not verify is refused with its code. -/
def Obligations.CommitAndRefusals : Prop :=
  ∀ (agent : BitVec 8) (s : State), sized s = true →
    (s.boot.running = true → agent.toNat = agentSmith → Answers (.cfgCommit agent) s fun t =>
      flag t CFG_COMMIT CFG_COMMIT_COMMITTED = true ∧ regsSameBut s t [CFG_COMMIT] ∧ t = { s with regs := t.regs }) ∧
    (agent.toNat ≠ agentSmith → Answers (.cfgCommit agent) s fun t => t = s) ∧
    (mayWrite s agent.toNat CFG_STAGE_CTL = true → ∀ pref,
      (s.boot.slotBusy.isSome = true → Answers (.cfgStageWrite agent pref) s fun t => t.boot = s.boot ∧
        getF t CFG_STAGE_CTL CFG_STAGE_CTL_RESULT = 12 ∧ regsSameBut s t [CFG_STAGE_CTL] ∧
        t.recorder = (makeRecord s srcSmith 0x481 [w64 CFG_STAGE_CTL]).recorder) ∧
      (s.boot.slotBusy = none → imgShapeBad (readBytes s (getPair s CFG_STAGE_LO CFG_STAGE_HI) headerLen) = true →
        Answers (.cfgStageWrite agent pref) s fun t => getF t CFG_STAGE_CTL CFG_STAGE_CTL_RESULT = 1 ∧
          regsSameBut s t [CFG_STAGE_CTL] ∧ t = { s with regs := t.regs })) ∧
    (∀ a pref, s.boot.slotBusy = some (a, pref) → s.boot.retireDirty = false → Answers (.slotWriteComplete false) s fun t =>
      getF t CFG_STAGE_CTL CFG_STAGE_CTL_RESULT = 11 ∧ getF t CFG_STAGE_CTL CFG_STAGE_CTL_BUSY = 0 ∧
      t.boot.slotBusy = none ∧ regsSameBut s t [CFG_STAGE_CTL] ∧
      ∀ k, flashGet t k = if slotBase (!activeSlot s) ≤ k ∧ k < slotBase (!activeSlot s) + slotLen then 0xFF else flashGet s k) ∧
    (mayWrite s agent.toNat TRU_CHG_CTL = true → changeResult s (changeBytes s) ≠ 0 → Answers (.apply agent) s fun t =>
      getF t TRU_CHG_CTL TRU_CHG_CTL_RESULT = changeResult s (changeBytes s) ∧ t.boot = s.boot ∧
      regsSameBut s t [TRU_CHG_CTL] ∧ t.recorder = (makeRecord s srcSmith 0x481 [w64 TRU_CHG_CTL]).recorder)

/-- R422, R426, R428: a request that a signature backs reports its code, and what verifies takes effect: a staged image begins
its write, a slot that verifies again ends it, a record is written, burned and in force, and the device sends its join report.
Whether a signature verifies is left to `Config.mldsaVerify` (log entry 4). -/
def Obligations.SignedRequestsTakeEffect : Prop :=
  ∀ (agent : BitVec 8) (s : State), sized s = true →
    (∀ pref k, mayWrite s agent.toNat CFG_STAGE_CTL = true → s.boot.slotBusy = none →
      k = verifyImage s (dramImage s (getPair s CFG_STAGE_LO CFG_STAGE_HI)) → Answers (.cfgStageWrite agent pref) s fun t =>
        getF t CFG_STAGE_CTL CFG_STAGE_CTL_RESULT = k ∧ regsSameBut s t [CFG_STAGE_CTL] ∧ memSame s t ∧
        if k = 0 then getF t CFG_STAGE_CTL CFG_STAGE_CTL_BUSY = 1 ∧
          t.boot.slotBusy = some (getPair s CFG_STAGE_LO CFG_STAGE_HI, pref) ∧
          ∀ a, slotBase (!activeSlot s) ≤ a → a < slotBase (!activeSlot s) + slotLen → flashGet t a = 0xFF
        else t.boot = s.boot) ∧
    (∀ a pref k, s.boot.slotBusy = some (a, pref) → s.boot.retireDirty = false →
      k = verifyImage (programSlot s a) (flashSlot (programSlot s a) (!activeSlot s)) →
      Answers (.slotWriteComplete true) s fun t => getF t CFG_STAGE_CTL CFG_STAGE_CTL_BUSY = 0 ∧
        getF t CFG_STAGE_CTL CFG_STAGE_CTL_RESULT = k ∧ t.boot.slotBusy = none ∧ memSame s t ∧
        regsSameBut s t [CFG_STAGE_CTL, CFG_BOOT] ∧ (k = 0 ∧ pref = true → getF t CFG_BOOT CFG_BOOT_PREF = bit (!activeSlot s)) ∧
        (k ≠ 0 ∨ pref = false → t.boot.flash = (programSlot s a).boot.flash)) ∧
    (∀ k, mayWrite s agent.toNat TRU_CHG_CTL = true → k = changeResult s (changeBytes s) → Answers (.apply agent) s fun t =>
      getF t TRU_CHG_CTL TRU_CHG_CTL_RESULT = k ∧ memSame s t ∧ t.boot.auths = s.boot.auths ∧ regsSameBut s t [TRU_CHG_CTL] ∧
      if k = 0 then t.boot.prot = changeBytes s ∧ t.boot.fuses.pcount = s.boot.fuses.pcount + 1 ∧
        t.boot.anchor = protAnchor (changeBytes s)
      else t.boot = s.boot) ∧
    (∀ x c, s.boot.spreadAt = some x → x ≤ s.now → quenched s = false → connAt s 1023 = some c → c.error = false →
      c.waitq = [] → Answers .joinSpreadExpiry s fun t =>
        if siteRecord s = none then t = s
        else t.boot.spreadAt = none ∧ t.boot.admitAt = some s.now ∧ t.boot.answerOk = true ∧
          (connAt t 1023).map (fun y => (y.ops.map (·.data)).length) = some (c.ops.length + 2)) ∧
    (∀ x, s.boot.spreadAt = some x → s.now < x → Answers .joinSpreadExpiry s fun t => t = s)

/-- R437 to R445: the oldest waiting record reaches the ring, or the hold buffer of a frozen ring; the freeze, its end and its
limit; the window, and the block that an uncorrectable word costs. -/
def Obligations.RecorderLines : Prop :=
  ∀ (s : State), sized s = true →
    (∀ (r : Rec) rest, s.recorder.waiting = r :: rest →
      (s.recorder.frozen = none → anchorCause s.recorder s.now = 0 → s.recorder.head < ringBytes →
        8 * (r.body.length + 1) ≤ blockLeft s.recorder → s.recorder.head % 256 ≠ 0 → Answers .eventRecord s fun t =>
          t.recorder.waiting = rest ∧ t.recorder.seq = (s.recorder.seq + 1) % 2 ^ 64 ∧
          t.recorder.head = (s.recorder.head + 8 * (r.body.length + 1)) % ringBytes ∧ t.regs = s.regs ∧ memSame s t ∧
          ringWord t.recorder (s.recorder.head / 8) =
            headerWord (r.body.length + 1) r.typ r.src s.recorder.seq r.time ∧
          (∀ k, k < r.body.length → ringWord t.recorder (s.recorder.head / 8 + 1 + k) = r.body.getD k 0) ∧
          (∀ k, k < s.recorder.head / 8 ∨ s.recorder.head / 8 + r.body.length < k →
            ringWord t.recorder k = ringWord s.recorder k)) ∧
      (s.recorder.frozen.isSome = true → holdBytes (s.recorder.hold ++ [r]) ≤ 0x10000 → Answers .eventRecord s fun t =>
        t = { s with recorder := { s.recorder with waiting := rest, hold := s.recorder.hold ++ [r] } })) ∧
    (s.recorder.waiting = [] → Answers .eventRecord s fun t => t = s) ∧
    (∀ agent : BitVec 8, mayWrite s agent.toNat EVR_CTL = true →
      (s.recorder.frozen = none → (Answers (.freeze agent) s fun t => t.recorder.frozen = some s.now ∧
          flag t EVR_STATUS EVR_STATUS_FROZEN = true ∧ regsSameBut s t [EVR_STATUS] ∧ t.recorder.ring = s.recorder.ring) ∧
        Answers (.thaw agent) s fun t => t = s) ∧
      (s.recorder.frozen.isSome = true → Answers (.thaw agent) s fun t => t.recorder.frozen = none ∧
        flag t EVR_STATUS EVR_STATUS_FROZEN = false ∧ t.recorder.hold = [] ∧ t.recorder.anchored = some s.now ∧
        t.recorder.waiting = s.recorder.waiting ∧ memSame s t ∧ regsSameBut s t [EVR_STATUS])) ∧
    (∀ x, s.recorder.frozen = some x →
      (min 30000 (getF s EVR_CTL EVR_CTL_FREEZE_LIM) * 1000000 ≤ s.now - x → Answers .freezeLimitExpiry s fun t =>
        t.recorder.frozen = none ∧ flag t EVR_STATUS EVR_STATUS_TIMED_OUT = true ∧
        flag t EVR_STATUS EVR_STATUS_FROZEN = false) ∧
      (s.now - x < min 30000 (getF s EVR_CTL EVR_CTL_FREEZE_LIM) * 1000000 → Answers .freezeLimitExpiry s fun t => t = s)) ∧
    (∀ (agent : BitVec 8) (w : BitVec 10) off, mayRead s agent.toNat (EVR_WINDOW w.toNat) = true →
      off = (4 * getF s EVR_CURSOR EVR_CURSOR_OFFSET + 4 * w.toNat) % ringBytes →
      (s.recorder.bad.contains (off / 8) = false → Answers (.evrWindowRead agent w false) s fun t =>
        t = { s with answer := .value (BitVec.ofNat 32 ((ringWord s.recorder (off / 8)).toNat / 2 ^ (8 * (off % 8)))) }) ∧
      (Answers (.evrWindowRead agent w true) s fun t => t.answer = .value 0 ∧
        t.recorder.damaged = min 255 (s.recorder.damaged + 1) ∧ t.regs = s.regs ∧ memSame s t ∧
        ringWord t.recorder (off / 256 * 32) = headerWord 32 0x002 srcRecorder 0 s.now ∧
        ∀ k, 0 < k → k < 32 → ringWord t.recorder (off / 256 * 32 + k) = 0))

/-! ## The whole machine -/

/-- A step runs the command at the front of the queue on the state with the rest of it; with none waiting a reference cycle
passes, of 6, 6, 7, 6 and 7 ns in turn (R53; that an empty queue is a tick is the model's choice, log entry 2). -/
def Obligations.StepRunsFront : Prop :=
  ∀ (c : Instr) (rest : List Instr) (s : State),
    step { s with pending := c :: rest } = exec c { s with pending := rest } ∧
    (s.pending = [] → ∃ t, step s = .next t ∧ t = { s with time := t.time } ∧ t.time.phase = (s.time.phase + 1) % 5 ∧
      t.time.ns = (s.time.ns + [6, 6, 7, 6, 7].getD (s.time.phase % 5) 0) % 2 ^ 64)

/-- R53, R437, Table 1-11, Table 15-1 and the reset values of the register tables: what reset leaves. -/
def Obligations.ResetState : Prop :=
  Inv State.reset ∧ sized State.reset = true ∧ State.reset.pending = [] ∧ State.reset.time.ns = 0 ∧
  State.reset.recorder.waiting = [] ∧ State.reset.recorder.ring = [] ∧ State.reset.boot.step = 2 ∧
  (∀ u : DomId, domState State.reset u = domOff) ∧ (∀ p : PortId, getF State.reset (PRT_CTL p) PRT_CTL_ENABLE = 0) ∧
  getF State.reset PWR_CTL PWR_CTL_CAP = 1350 ∧ getF State.reset THM_CTL THM_CTL_TJ_LIM = 90 ∧
  getF State.reset DEV_STATUS DEV_STATUS_READY = 0 ∧ getF State.reset CFG_COMMIT CFG_COMMIT_COMMITTED = 0 ∧
  (∀ a d, regAt a = some d → a ≠ TRU_SERIAL_LO → a ≠ TRU_SERIAL_HI → (∀ i, i < 128 → a ≠ CORE_IDENT i) → ∀ f ∈ d.fields,
    bitsOf f.hi f.lo (getR State.reset a).toNat = f.reset) ∧
  (∀ i : CoreId, (getR State.reset (CORE_IDENT i)).toNat = i.val)

/-- Every step keeps the canonical form of memory. -/
def Obligations.InvKept : Prop := ∀ s t : State, Inv s → step s = .next t → Inv t

/-- Every step keeps the number of cores, hearths, domains, ports and mailboxes, and the size of every register file. -/
def Obligations.SizedKept : Prop := ∀ s t : State, sized s = true → step s = .next t → sized t = true

/-- R14, R412, R427: a management command by an agent that may not write its register changes nothing, and a read that is not
allowed answers 0 and changes nothing else; the log entry 40 reads the permission of the smith and of other agents. -/
def Obligations.PermissionsHold : Prop :=
  ∀ (agent : BitVec 8) (s : State),
    (∀ c a, (c, a) ∈ ([(.arm agent, SURV_CTL), (.leave agent, SURV_CTL), (.restoreGo agent, SURV_RST_CTL),
        (.quench agent, THM_QCTL), (.run agent, PWR_TEST), (.mrgStart agent, MEM_MRG_CTL), (.apply agent, TRU_CHG_CTL),
        (.freeze agent, EVR_CTL), (.thaw agent, EVR_CTL)] : List (Instr × Nat)) →
      mayWrite s agent.toNat a = false → exec c s = .next s) ∧
    (∀ (a v : Word32), mayWrite s agent.toNat a.toNat = false → exec (.registerWrite agent a v) s = .next s) ∧
    (∀ pref, mayWrite s agent.toNat CFG_STAGE_CTL = false → exec (.cfgStageWrite agent pref) s = .next s) ∧
    (∀ p, mayWrite s agent.toNat PWR_TEST = false → exec (.portTest agent p) s = .next s) ∧
    (∀ (a : Word32), mayRead s agent.toNat a.toNat = false →
      exec (.readClearRegister agent a) s = .next { s with answer := .value 0 }) ∧
    (s.boot.running = false → ∀ a, mayRead s agent.toNat a = false ∧ mayWrite s agent.toNat a = false)
end

