-- ==== Sys2Proof/Laws/State.lean ====
section
/-! SUPPORT. What the updates of the state leave alone, and reading after writing: cores, contexts, registers. -/

namespace Sys2Proof.Machine

/-! ## What an update leaves: one lemma for each field and update -/

/-! ### `setR` -/

@[simp] theorem setR_time (s : State) (a : Nat) (v : Word32) : (setR s a v).time = s.time := rfl
@[simp] theorem setR_mem (s : State) (a : Nat) (v : Word32) : (setR s a v).mem = s.mem := rfl
@[simp] theorem setR_cores (s : State) (a : Nat) (v : Word32) : (setR s a v).cores = s.cores := rfl
@[simp] theorem setR_hearths (s : State) (a : Nat) (v : Word32) : (setR s a v).hearths = s.hearths := rfl
@[simp] theorem setR_memctl (s : State) (a : Nat) (v : Word32) : (setR s a v).memctl = s.memctl := rfl
@[simp] theorem setR_answer (s : State) (a : Nat) (v : Word32) : (setR s a v).answer = s.answer := rfl
@[simp] theorem setR_domains (s : State) (a : Nat) (v : Word32) : (setR s a v).domains = s.domains := rfl
@[simp] theorem setR_weld (s : State) (a : Nat) (v : Word32) : (setR s a v).weld = s.weld := rfl
@[simp] theorem setR_slacks (s : State) (a : Nat) (v : Word32) : (setR s a v).slacks = s.slacks := rfl
@[simp] theorem setR_recorder (s : State) (a : Nat) (v : Word32) : (setR s a v).recorder = s.recorder := rfl
@[simp] theorem setR_ylp (s : State) (a : Nat) (v : Word32) : (setR s a v).ylp = s.ylp := rfl
@[simp] theorem setR_conns (s : State) (a : Nat) (v : Word32) : (setR s a v).conns = s.conns := rfl
@[simp] theorem setR_ports (s : State) (a : Nat) (v : Word32) : (setR s a v).ports = s.ports := rfl
@[simp] theorem setR_egress (s : State) (a : Nat) (v : Word32) : (setR s a v).egress = s.egress := rfl
@[simp] theorem setR_coll (s : State) (a : Nat) (v : Word32) : (setR s a v).coll = s.coll := rfl
@[simp] theorem setR_intake (s : State) (a : Nat) (v : Word32) : (setR s a v).intake = s.intake := rfl
@[simp] theorem setR_mbx (s : State) (a : Nat) (v : Word32) : (setR s a v).mbx = s.mbx := rfl
@[simp] theorem setR_job (s : State) (a : Nat) (v : Word32) : (setR s a v).job = s.job := rfl
@[simp] theorem setR_surv (s : State) (a : Nat) (v : Word32) : (setR s a v).surv = s.surv := rfl
@[simp] theorem setR_power (s : State) (a : Nat) (v : Word32) : (setR s a v).power = s.power := rfl
@[simp] theorem setR_therm (s : State) (a : Nat) (v : Word32) : (setR s a v).therm = s.therm := rfl
@[simp] theorem setR_boot (s : State) (a : Nat) (v : Word32) : (setR s a v).boot = s.boot := rfl
@[simp] theorem setR_pins (s : State) (a : Nat) (v : Word32) : (setR s a v).pins = s.pins := rfl
@[simp] theorem setR_queuedTests (s : State) (a : Nat) (v : Word32) : (setR s a v).queuedTests = s.queuedTests := rfl
@[simp] theorem setR_free (s : State) (a : Nat) (v : Word32) : (setR s a v).free = s.free := rfl
@[simp] theorem setR_pending (s : State) (a : Nat) (v : Word32) : (setR s a v).pending = s.pending := rfl

/-! ### `putF` -/

@[simp] theorem putF_time (s : State) (a : Nat) (f : Fld) (x : Nat) : (putF s a f x).time = s.time := rfl
@[simp] theorem putF_mem (s : State) (a : Nat) (f : Fld) (x : Nat) : (putF s a f x).mem = s.mem := rfl
@[simp] theorem putF_cores (s : State) (a : Nat) (f : Fld) (x : Nat) : (putF s a f x).cores = s.cores := rfl
@[simp] theorem putF_hearths (s : State) (a : Nat) (f : Fld) (x : Nat) : (putF s a f x).hearths = s.hearths := rfl
@[simp] theorem putF_memctl (s : State) (a : Nat) (f : Fld) (x : Nat) : (putF s a f x).memctl = s.memctl := rfl
@[simp] theorem putF_answer (s : State) (a : Nat) (f : Fld) (x : Nat) : (putF s a f x).answer = s.answer := rfl
@[simp] theorem putF_domains (s : State) (a : Nat) (f : Fld) (x : Nat) : (putF s a f x).domains = s.domains := rfl
@[simp] theorem putF_weld (s : State) (a : Nat) (f : Fld) (x : Nat) : (putF s a f x).weld = s.weld := rfl
@[simp] theorem putF_slacks (s : State) (a : Nat) (f : Fld) (x : Nat) : (putF s a f x).slacks = s.slacks := rfl
@[simp] theorem putF_recorder (s : State) (a : Nat) (f : Fld) (x : Nat) : (putF s a f x).recorder = s.recorder := rfl
@[simp] theorem putF_ylp (s : State) (a : Nat) (f : Fld) (x : Nat) : (putF s a f x).ylp = s.ylp := rfl
@[simp] theorem putF_conns (s : State) (a : Nat) (f : Fld) (x : Nat) : (putF s a f x).conns = s.conns := rfl
@[simp] theorem putF_ports (s : State) (a : Nat) (f : Fld) (x : Nat) : (putF s a f x).ports = s.ports := rfl
@[simp] theorem putF_egress (s : State) (a : Nat) (f : Fld) (x : Nat) : (putF s a f x).egress = s.egress := rfl
@[simp] theorem putF_coll (s : State) (a : Nat) (f : Fld) (x : Nat) : (putF s a f x).coll = s.coll := rfl
@[simp] theorem putF_intake (s : State) (a : Nat) (f : Fld) (x : Nat) : (putF s a f x).intake = s.intake := rfl
@[simp] theorem putF_mbx (s : State) (a : Nat) (f : Fld) (x : Nat) : (putF s a f x).mbx = s.mbx := rfl
@[simp] theorem putF_job (s : State) (a : Nat) (f : Fld) (x : Nat) : (putF s a f x).job = s.job := rfl
@[simp] theorem putF_surv (s : State) (a : Nat) (f : Fld) (x : Nat) : (putF s a f x).surv = s.surv := rfl
@[simp] theorem putF_power (s : State) (a : Nat) (f : Fld) (x : Nat) : (putF s a f x).power = s.power := rfl
@[simp] theorem putF_therm (s : State) (a : Nat) (f : Fld) (x : Nat) : (putF s a f x).therm = s.therm := rfl
@[simp] theorem putF_boot (s : State) (a : Nat) (f : Fld) (x : Nat) : (putF s a f x).boot = s.boot := rfl
@[simp] theorem putF_pins (s : State) (a : Nat) (f : Fld) (x : Nat) : (putF s a f x).pins = s.pins := rfl
@[simp] theorem putF_queuedTests (s : State) (a : Nat) (f : Fld) (x : Nat) : (putF s a f x).queuedTests = s.queuedTests := rfl
@[simp] theorem putF_free (s : State) (a : Nat) (f : Fld) (x : Nat) : (putF s a f x).free = s.free := rfl
@[simp] theorem putF_pending (s : State) (a : Nat) (f : Fld) (x : Nat) : (putF s a f x).pending = s.pending := rfl

/-! ### `satF` -/

@[simp] theorem satF_time (s : State) (a : Nat) (f : Fld) (x : Nat) : (satF s a f x).time = s.time := rfl
@[simp] theorem satF_mem (s : State) (a : Nat) (f : Fld) (x : Nat) : (satF s a f x).mem = s.mem := rfl
@[simp] theorem satF_cores (s : State) (a : Nat) (f : Fld) (x : Nat) : (satF s a f x).cores = s.cores := rfl
@[simp] theorem satF_hearths (s : State) (a : Nat) (f : Fld) (x : Nat) : (satF s a f x).hearths = s.hearths := rfl
@[simp] theorem satF_memctl (s : State) (a : Nat) (f : Fld) (x : Nat) : (satF s a f x).memctl = s.memctl := rfl
@[simp] theorem satF_answer (s : State) (a : Nat) (f : Fld) (x : Nat) : (satF s a f x).answer = s.answer := rfl
@[simp] theorem satF_domains (s : State) (a : Nat) (f : Fld) (x : Nat) : (satF s a f x).domains = s.domains := rfl
@[simp] theorem satF_weld (s : State) (a : Nat) (f : Fld) (x : Nat) : (satF s a f x).weld = s.weld := rfl
@[simp] theorem satF_slacks (s : State) (a : Nat) (f : Fld) (x : Nat) : (satF s a f x).slacks = s.slacks := rfl
@[simp] theorem satF_recorder (s : State) (a : Nat) (f : Fld) (x : Nat) : (satF s a f x).recorder = s.recorder := rfl
@[simp] theorem satF_ylp (s : State) (a : Nat) (f : Fld) (x : Nat) : (satF s a f x).ylp = s.ylp := rfl
@[simp] theorem satF_conns (s : State) (a : Nat) (f : Fld) (x : Nat) : (satF s a f x).conns = s.conns := rfl
@[simp] theorem satF_ports (s : State) (a : Nat) (f : Fld) (x : Nat) : (satF s a f x).ports = s.ports := rfl
@[simp] theorem satF_egress (s : State) (a : Nat) (f : Fld) (x : Nat) : (satF s a f x).egress = s.egress := rfl
@[simp] theorem satF_coll (s : State) (a : Nat) (f : Fld) (x : Nat) : (satF s a f x).coll = s.coll := rfl
@[simp] theorem satF_intake (s : State) (a : Nat) (f : Fld) (x : Nat) : (satF s a f x).intake = s.intake := rfl
@[simp] theorem satF_mbx (s : State) (a : Nat) (f : Fld) (x : Nat) : (satF s a f x).mbx = s.mbx := rfl
@[simp] theorem satF_job (s : State) (a : Nat) (f : Fld) (x : Nat) : (satF s a f x).job = s.job := rfl
@[simp] theorem satF_surv (s : State) (a : Nat) (f : Fld) (x : Nat) : (satF s a f x).surv = s.surv := rfl
@[simp] theorem satF_power (s : State) (a : Nat) (f : Fld) (x : Nat) : (satF s a f x).power = s.power := rfl
@[simp] theorem satF_therm (s : State) (a : Nat) (f : Fld) (x : Nat) : (satF s a f x).therm = s.therm := rfl
@[simp] theorem satF_boot (s : State) (a : Nat) (f : Fld) (x : Nat) : (satF s a f x).boot = s.boot := rfl
@[simp] theorem satF_pins (s : State) (a : Nat) (f : Fld) (x : Nat) : (satF s a f x).pins = s.pins := rfl
@[simp] theorem satF_queuedTests (s : State) (a : Nat) (f : Fld) (x : Nat) : (satF s a f x).queuedTests = s.queuedTests := rfl
@[simp] theorem satF_free (s : State) (a : Nat) (f : Fld) (x : Nat) : (satF s a f x).free = s.free := rfl
@[simp] theorem satF_pending (s : State) (a : Nat) (f : Fld) (x : Nat) : (satF s a f x).pending = s.pending := rfl

/-! ### `setPair` -/

@[simp] theorem setPair_time (s : State) (a b v : Nat) : (setPair s a b v).time = s.time := rfl
@[simp] theorem setPair_mem (s : State) (a b v : Nat) : (setPair s a b v).mem = s.mem := rfl
@[simp] theorem setPair_cores (s : State) (a b v : Nat) : (setPair s a b v).cores = s.cores := rfl
@[simp] theorem setPair_hearths (s : State) (a b v : Nat) : (setPair s a b v).hearths = s.hearths := rfl
@[simp] theorem setPair_memctl (s : State) (a b v : Nat) : (setPair s a b v).memctl = s.memctl := rfl
@[simp] theorem setPair_answer (s : State) (a b v : Nat) : (setPair s a b v).answer = s.answer := rfl
@[simp] theorem setPair_domains (s : State) (a b v : Nat) : (setPair s a b v).domains = s.domains := rfl
@[simp] theorem setPair_weld (s : State) (a b v : Nat) : (setPair s a b v).weld = s.weld := rfl
@[simp] theorem setPair_slacks (s : State) (a b v : Nat) : (setPair s a b v).slacks = s.slacks := rfl
@[simp] theorem setPair_recorder (s : State) (a b v : Nat) : (setPair s a b v).recorder = s.recorder := rfl
@[simp] theorem setPair_ylp (s : State) (a b v : Nat) : (setPair s a b v).ylp = s.ylp := rfl
@[simp] theorem setPair_conns (s : State) (a b v : Nat) : (setPair s a b v).conns = s.conns := rfl
@[simp] theorem setPair_ports (s : State) (a b v : Nat) : (setPair s a b v).ports = s.ports := rfl
@[simp] theorem setPair_egress (s : State) (a b v : Nat) : (setPair s a b v).egress = s.egress := rfl
@[simp] theorem setPair_coll (s : State) (a b v : Nat) : (setPair s a b v).coll = s.coll := rfl
@[simp] theorem setPair_intake (s : State) (a b v : Nat) : (setPair s a b v).intake = s.intake := rfl
@[simp] theorem setPair_mbx (s : State) (a b v : Nat) : (setPair s a b v).mbx = s.mbx := rfl
@[simp] theorem setPair_job (s : State) (a b v : Nat) : (setPair s a b v).job = s.job := rfl
@[simp] theorem setPair_surv (s : State) (a b v : Nat) : (setPair s a b v).surv = s.surv := rfl
@[simp] theorem setPair_power (s : State) (a b v : Nat) : (setPair s a b v).power = s.power := rfl
@[simp] theorem setPair_therm (s : State) (a b v : Nat) : (setPair s a b v).therm = s.therm := rfl
@[simp] theorem setPair_boot (s : State) (a b v : Nat) : (setPair s a b v).boot = s.boot := rfl
@[simp] theorem setPair_pins (s : State) (a b v : Nat) : (setPair s a b v).pins = s.pins := rfl
@[simp] theorem setPair_queuedTests (s : State) (a b v : Nat) : (setPair s a b v).queuedTests = s.queuedTests := rfl
@[simp] theorem setPair_free (s : State) (a b v : Nat) : (setPair s a b v).free = s.free := rfl
@[simp] theorem setPair_pending (s : State) (a b v : Nat) : (setPair s a b v).pending = s.pending := rfl

/-! ### `setDomState` -/

@[simp] theorem setDomState_time (s : State) (u v : Nat) : (setDomState s u v).time = s.time := rfl
@[simp] theorem setDomState_mem (s : State) (u v : Nat) : (setDomState s u v).mem = s.mem := rfl
@[simp] theorem setDomState_cores (s : State) (u v : Nat) : (setDomState s u v).cores = s.cores := rfl
@[simp] theorem setDomState_hearths (s : State) (u v : Nat) : (setDomState s u v).hearths = s.hearths := rfl
@[simp] theorem setDomState_memctl (s : State) (u v : Nat) : (setDomState s u v).memctl = s.memctl := rfl
@[simp] theorem setDomState_answer (s : State) (u v : Nat) : (setDomState s u v).answer = s.answer := rfl
@[simp] theorem setDomState_domains (s : State) (u v : Nat) : (setDomState s u v).domains = s.domains := rfl
@[simp] theorem setDomState_weld (s : State) (u v : Nat) : (setDomState s u v).weld = s.weld := rfl
@[simp] theorem setDomState_slacks (s : State) (u v : Nat) : (setDomState s u v).slacks = s.slacks := rfl
@[simp] theorem setDomState_recorder (s : State) (u v : Nat) : (setDomState s u v).recorder = s.recorder := rfl
@[simp] theorem setDomState_ylp (s : State) (u v : Nat) : (setDomState s u v).ylp = s.ylp := rfl
@[simp] theorem setDomState_conns (s : State) (u v : Nat) : (setDomState s u v).conns = s.conns := rfl
@[simp] theorem setDomState_ports (s : State) (u v : Nat) : (setDomState s u v).ports = s.ports := rfl
@[simp] theorem setDomState_egress (s : State) (u v : Nat) : (setDomState s u v).egress = s.egress := rfl
@[simp] theorem setDomState_coll (s : State) (u v : Nat) : (setDomState s u v).coll = s.coll := rfl
@[simp] theorem setDomState_intake (s : State) (u v : Nat) : (setDomState s u v).intake = s.intake := rfl
@[simp] theorem setDomState_mbx (s : State) (u v : Nat) : (setDomState s u v).mbx = s.mbx := rfl
@[simp] theorem setDomState_job (s : State) (u v : Nat) : (setDomState s u v).job = s.job := rfl
@[simp] theorem setDomState_surv (s : State) (u v : Nat) : (setDomState s u v).surv = s.surv := rfl
@[simp] theorem setDomState_power (s : State) (u v : Nat) : (setDomState s u v).power = s.power := rfl
@[simp] theorem setDomState_therm (s : State) (u v : Nat) : (setDomState s u v).therm = s.therm := rfl
@[simp] theorem setDomState_boot (s : State) (u v : Nat) : (setDomState s u v).boot = s.boot := rfl
@[simp] theorem setDomState_pins (s : State) (u v : Nat) : (setDomState s u v).pins = s.pins := rfl
@[simp] theorem setDomState_queuedTests (s : State) (u v : Nat) : (setDomState s u v).queuedTests = s.queuedTests := rfl
@[simp] theorem setDomState_free (s : State) (u v : Nat) : (setDomState s u v).free = s.free := rfl
@[simp] theorem setDomState_pending (s : State) (u v : Nat) : (setDomState s u v).pending = s.pending := rfl

/-! ### `setCore` -/

@[simp] theorem setCore_time (s : State) (i : Nat) (c : Core) : (setCore s i c).time = s.time := rfl
@[simp] theorem setCore_regs (s : State) (i : Nat) (c : Core) : (setCore s i c).regs = s.regs := rfl
@[simp] theorem setCore_mem (s : State) (i : Nat) (c : Core) : (setCore s i c).mem = s.mem := rfl
@[simp] theorem setCore_hearths (s : State) (i : Nat) (c : Core) : (setCore s i c).hearths = s.hearths := rfl
@[simp] theorem setCore_memctl (s : State) (i : Nat) (c : Core) : (setCore s i c).memctl = s.memctl := rfl
@[simp] theorem setCore_answer (s : State) (i : Nat) (c : Core) : (setCore s i c).answer = s.answer := rfl
@[simp] theorem setCore_domains (s : State) (i : Nat) (c : Core) : (setCore s i c).domains = s.domains := rfl
@[simp] theorem setCore_weld (s : State) (i : Nat) (c : Core) : (setCore s i c).weld = s.weld := rfl
@[simp] theorem setCore_slacks (s : State) (i : Nat) (c : Core) : (setCore s i c).slacks = s.slacks := rfl
@[simp] theorem setCore_recorder (s : State) (i : Nat) (c : Core) : (setCore s i c).recorder = s.recorder := rfl
@[simp] theorem setCore_ylp (s : State) (i : Nat) (c : Core) : (setCore s i c).ylp = s.ylp := rfl
@[simp] theorem setCore_conns (s : State) (i : Nat) (c : Core) : (setCore s i c).conns = s.conns := rfl
@[simp] theorem setCore_ports (s : State) (i : Nat) (c : Core) : (setCore s i c).ports = s.ports := rfl
@[simp] theorem setCore_egress (s : State) (i : Nat) (c : Core) : (setCore s i c).egress = s.egress := rfl
@[simp] theorem setCore_coll (s : State) (i : Nat) (c : Core) : (setCore s i c).coll = s.coll := rfl
@[simp] theorem setCore_intake (s : State) (i : Nat) (c : Core) : (setCore s i c).intake = s.intake := rfl
@[simp] theorem setCore_mbx (s : State) (i : Nat) (c : Core) : (setCore s i c).mbx = s.mbx := rfl
@[simp] theorem setCore_job (s : State) (i : Nat) (c : Core) : (setCore s i c).job = s.job := rfl
@[simp] theorem setCore_surv (s : State) (i : Nat) (c : Core) : (setCore s i c).surv = s.surv := rfl
@[simp] theorem setCore_power (s : State) (i : Nat) (c : Core) : (setCore s i c).power = s.power := rfl
@[simp] theorem setCore_therm (s : State) (i : Nat) (c : Core) : (setCore s i c).therm = s.therm := rfl
@[simp] theorem setCore_boot (s : State) (i : Nat) (c : Core) : (setCore s i c).boot = s.boot := rfl
@[simp] theorem setCore_pins (s : State) (i : Nat) (c : Core) : (setCore s i c).pins = s.pins := rfl
@[simp] theorem setCore_queuedTests (s : State) (i : Nat) (c : Core) : (setCore s i c).queuedTests = s.queuedTests := rfl
@[simp] theorem setCore_free (s : State) (i : Nat) (c : Core) : (setCore s i c).free = s.free := rfl
@[simp] theorem setCore_pending (s : State) (i : Nat) (c : Core) : (setCore s i c).pending = s.pending := rfl

/-! ### `modCore` -/

@[simp] theorem modCore_time (s : State) (i : Nat) (f : Core → Core) : (modCore s i f).time = s.time := rfl
@[simp] theorem modCore_regs (s : State) (i : Nat) (f : Core → Core) : (modCore s i f).regs = s.regs := rfl
@[simp] theorem modCore_mem (s : State) (i : Nat) (f : Core → Core) : (modCore s i f).mem = s.mem := rfl
@[simp] theorem modCore_hearths (s : State) (i : Nat) (f : Core → Core) : (modCore s i f).hearths = s.hearths := rfl
@[simp] theorem modCore_memctl (s : State) (i : Nat) (f : Core → Core) : (modCore s i f).memctl = s.memctl := rfl
@[simp] theorem modCore_answer (s : State) (i : Nat) (f : Core → Core) : (modCore s i f).answer = s.answer := rfl
@[simp] theorem modCore_domains (s : State) (i : Nat) (f : Core → Core) : (modCore s i f).domains = s.domains := rfl
@[simp] theorem modCore_weld (s : State) (i : Nat) (f : Core → Core) : (modCore s i f).weld = s.weld := rfl
@[simp] theorem modCore_slacks (s : State) (i : Nat) (f : Core → Core) : (modCore s i f).slacks = s.slacks := rfl
@[simp] theorem modCore_recorder (s : State) (i : Nat) (f : Core → Core) : (modCore s i f).recorder = s.recorder := rfl
@[simp] theorem modCore_ylp (s : State) (i : Nat) (f : Core → Core) : (modCore s i f).ylp = s.ylp := rfl
@[simp] theorem modCore_conns (s : State) (i : Nat) (f : Core → Core) : (modCore s i f).conns = s.conns := rfl
@[simp] theorem modCore_ports (s : State) (i : Nat) (f : Core → Core) : (modCore s i f).ports = s.ports := rfl
@[simp] theorem modCore_egress (s : State) (i : Nat) (f : Core → Core) : (modCore s i f).egress = s.egress := rfl
@[simp] theorem modCore_coll (s : State) (i : Nat) (f : Core → Core) : (modCore s i f).coll = s.coll := rfl
@[simp] theorem modCore_intake (s : State) (i : Nat) (f : Core → Core) : (modCore s i f).intake = s.intake := rfl
@[simp] theorem modCore_mbx (s : State) (i : Nat) (f : Core → Core) : (modCore s i f).mbx = s.mbx := rfl
@[simp] theorem modCore_job (s : State) (i : Nat) (f : Core → Core) : (modCore s i f).job = s.job := rfl
@[simp] theorem modCore_surv (s : State) (i : Nat) (f : Core → Core) : (modCore s i f).surv = s.surv := rfl
@[simp] theorem modCore_power (s : State) (i : Nat) (f : Core → Core) : (modCore s i f).power = s.power := rfl
@[simp] theorem modCore_therm (s : State) (i : Nat) (f : Core → Core) : (modCore s i f).therm = s.therm := rfl
@[simp] theorem modCore_boot (s : State) (i : Nat) (f : Core → Core) : (modCore s i f).boot = s.boot := rfl
@[simp] theorem modCore_pins (s : State) (i : Nat) (f : Core → Core) : (modCore s i f).pins = s.pins := rfl
@[simp] theorem modCore_queuedTests (s : State) (i : Nat) (f : Core → Core) : (modCore s i f).queuedTests = s.queuedTests := rfl
@[simp] theorem modCore_free (s : State) (i : Nat) (f : Core → Core) : (modCore s i f).free = s.free := rfl
@[simp] theorem modCore_pending (s : State) (i : Nat) (f : Core → Core) : (modCore s i f).pending = s.pending := rfl

/-! ### `setHearth` -/

@[simp] theorem setHearth_time (s : State) (h : Nat) (x : Hearth) : (setHearth s h x).time = s.time := rfl
@[simp] theorem setHearth_regs (s : State) (h : Nat) (x : Hearth) : (setHearth s h x).regs = s.regs := rfl
@[simp] theorem setHearth_mem (s : State) (h : Nat) (x : Hearth) : (setHearth s h x).mem = s.mem := rfl
@[simp] theorem setHearth_cores (s : State) (h : Nat) (x : Hearth) : (setHearth s h x).cores = s.cores := rfl
@[simp] theorem setHearth_memctl (s : State) (h : Nat) (x : Hearth) : (setHearth s h x).memctl = s.memctl := rfl
@[simp] theorem setHearth_answer (s : State) (h : Nat) (x : Hearth) : (setHearth s h x).answer = s.answer := rfl
@[simp] theorem setHearth_domains (s : State) (h : Nat) (x : Hearth) : (setHearth s h x).domains = s.domains := rfl
@[simp] theorem setHearth_weld (s : State) (h : Nat) (x : Hearth) : (setHearth s h x).weld = s.weld := rfl
@[simp] theorem setHearth_slacks (s : State) (h : Nat) (x : Hearth) : (setHearth s h x).slacks = s.slacks := rfl
@[simp] theorem setHearth_recorder (s : State) (h : Nat) (x : Hearth) : (setHearth s h x).recorder = s.recorder := rfl
@[simp] theorem setHearth_ylp (s : State) (h : Nat) (x : Hearth) : (setHearth s h x).ylp = s.ylp := rfl
@[simp] theorem setHearth_conns (s : State) (h : Nat) (x : Hearth) : (setHearth s h x).conns = s.conns := rfl
@[simp] theorem setHearth_ports (s : State) (h : Nat) (x : Hearth) : (setHearth s h x).ports = s.ports := rfl
@[simp] theorem setHearth_egress (s : State) (h : Nat) (x : Hearth) : (setHearth s h x).egress = s.egress := rfl
@[simp] theorem setHearth_coll (s : State) (h : Nat) (x : Hearth) : (setHearth s h x).coll = s.coll := rfl
@[simp] theorem setHearth_intake (s : State) (h : Nat) (x : Hearth) : (setHearth s h x).intake = s.intake := rfl
@[simp] theorem setHearth_mbx (s : State) (h : Nat) (x : Hearth) : (setHearth s h x).mbx = s.mbx := rfl
@[simp] theorem setHearth_job (s : State) (h : Nat) (x : Hearth) : (setHearth s h x).job = s.job := rfl
@[simp] theorem setHearth_surv (s : State) (h : Nat) (x : Hearth) : (setHearth s h x).surv = s.surv := rfl
@[simp] theorem setHearth_power (s : State) (h : Nat) (x : Hearth) : (setHearth s h x).power = s.power := rfl
@[simp] theorem setHearth_therm (s : State) (h : Nat) (x : Hearth) : (setHearth s h x).therm = s.therm := rfl
@[simp] theorem setHearth_boot (s : State) (h : Nat) (x : Hearth) : (setHearth s h x).boot = s.boot := rfl
@[simp] theorem setHearth_pins (s : State) (h : Nat) (x : Hearth) : (setHearth s h x).pins = s.pins := rfl
@[simp] theorem setHearth_queuedTests (s : State) (h : Nat) (x : Hearth) : (setHearth s h x).queuedTests = s.queuedTests := rfl
@[simp] theorem setHearth_free (s : State) (h : Nat) (x : Hearth) : (setHearth s h x).free = s.free := rfl
@[simp] theorem setHearth_pending (s : State) (h : Nat) (x : Hearth) : (setHearth s h x).pending = s.pending := rfl

/-! ### `modHearth` -/

@[simp] theorem modHearth_time (s : State) (h : Nat) (f : Hearth → Hearth) : (modHearth s h f).time = s.time := rfl
@[simp] theorem modHearth_regs (s : State) (h : Nat) (f : Hearth → Hearth) : (modHearth s h f).regs = s.regs := rfl
@[simp] theorem modHearth_mem (s : State) (h : Nat) (f : Hearth → Hearth) : (modHearth s h f).mem = s.mem := rfl
@[simp] theorem modHearth_cores (s : State) (h : Nat) (f : Hearth → Hearth) : (modHearth s h f).cores = s.cores := rfl
@[simp] theorem modHearth_memctl (s : State) (h : Nat) (f : Hearth → Hearth) : (modHearth s h f).memctl = s.memctl := rfl
@[simp] theorem modHearth_answer (s : State) (h : Nat) (f : Hearth → Hearth) : (modHearth s h f).answer = s.answer := rfl
@[simp] theorem modHearth_domains (s : State) (h : Nat) (f : Hearth → Hearth) : (modHearth s h f).domains = s.domains := rfl
@[simp] theorem modHearth_weld (s : State) (h : Nat) (f : Hearth → Hearth) : (modHearth s h f).weld = s.weld := rfl
@[simp] theorem modHearth_slacks (s : State) (h : Nat) (f : Hearth → Hearth) : (modHearth s h f).slacks = s.slacks := rfl
@[simp] theorem modHearth_recorder (s : State) (h : Nat) (f : Hearth → Hearth) : (modHearth s h f).recorder = s.recorder := rfl
@[simp] theorem modHearth_ylp (s : State) (h : Nat) (f : Hearth → Hearth) : (modHearth s h f).ylp = s.ylp := rfl
@[simp] theorem modHearth_conns (s : State) (h : Nat) (f : Hearth → Hearth) : (modHearth s h f).conns = s.conns := rfl
@[simp] theorem modHearth_ports (s : State) (h : Nat) (f : Hearth → Hearth) : (modHearth s h f).ports = s.ports := rfl
@[simp] theorem modHearth_egress (s : State) (h : Nat) (f : Hearth → Hearth) : (modHearth s h f).egress = s.egress := rfl
@[simp] theorem modHearth_coll (s : State) (h : Nat) (f : Hearth → Hearth) : (modHearth s h f).coll = s.coll := rfl
@[simp] theorem modHearth_intake (s : State) (h : Nat) (f : Hearth → Hearth) : (modHearth s h f).intake = s.intake := rfl
@[simp] theorem modHearth_mbx (s : State) (h : Nat) (f : Hearth → Hearth) : (modHearth s h f).mbx = s.mbx := rfl
@[simp] theorem modHearth_job (s : State) (h : Nat) (f : Hearth → Hearth) : (modHearth s h f).job = s.job := rfl
@[simp] theorem modHearth_surv (s : State) (h : Nat) (f : Hearth → Hearth) : (modHearth s h f).surv = s.surv := rfl
@[simp] theorem modHearth_power (s : State) (h : Nat) (f : Hearth → Hearth) : (modHearth s h f).power = s.power := rfl
@[simp] theorem modHearth_therm (s : State) (h : Nat) (f : Hearth → Hearth) : (modHearth s h f).therm = s.therm := rfl
@[simp] theorem modHearth_boot (s : State) (h : Nat) (f : Hearth → Hearth) : (modHearth s h f).boot = s.boot := rfl
@[simp] theorem modHearth_pins (s : State) (h : Nat) (f : Hearth → Hearth) : (modHearth s h f).pins = s.pins := rfl
@[simp] theorem modHearth_queuedTests (s : State) (h : Nat) (f : Hearth → Hearth) : (modHearth s h f).queuedTests = s.queuedTests := rfl
@[simp] theorem modHearth_free (s : State) (h : Nat) (f : Hearth → Hearth) : (modHearth s h f).free = s.free := rfl
@[simp] theorem modHearth_pending (s : State) (h : Nat) (f : Hearth → Hearth) : (modHearth s h f).pending = s.pending := rfl

/-! ### `setDomain` -/

@[simp] theorem setDomain_time (s : State) (u : Nat) (d : Domain) : (setDomain s u d).time = s.time := rfl
@[simp] theorem setDomain_regs (s : State) (u : Nat) (d : Domain) : (setDomain s u d).regs = s.regs := rfl
@[simp] theorem setDomain_mem (s : State) (u : Nat) (d : Domain) : (setDomain s u d).mem = s.mem := rfl
@[simp] theorem setDomain_cores (s : State) (u : Nat) (d : Domain) : (setDomain s u d).cores = s.cores := rfl
@[simp] theorem setDomain_hearths (s : State) (u : Nat) (d : Domain) : (setDomain s u d).hearths = s.hearths := rfl
@[simp] theorem setDomain_memctl (s : State) (u : Nat) (d : Domain) : (setDomain s u d).memctl = s.memctl := rfl
@[simp] theorem setDomain_answer (s : State) (u : Nat) (d : Domain) : (setDomain s u d).answer = s.answer := rfl
@[simp] theorem setDomain_weld (s : State) (u : Nat) (d : Domain) : (setDomain s u d).weld = s.weld := rfl
@[simp] theorem setDomain_slacks (s : State) (u : Nat) (d : Domain) : (setDomain s u d).slacks = s.slacks := rfl
@[simp] theorem setDomain_recorder (s : State) (u : Nat) (d : Domain) : (setDomain s u d).recorder = s.recorder := rfl
@[simp] theorem setDomain_ylp (s : State) (u : Nat) (d : Domain) : (setDomain s u d).ylp = s.ylp := rfl
@[simp] theorem setDomain_conns (s : State) (u : Nat) (d : Domain) : (setDomain s u d).conns = s.conns := rfl
@[simp] theorem setDomain_ports (s : State) (u : Nat) (d : Domain) : (setDomain s u d).ports = s.ports := rfl
@[simp] theorem setDomain_egress (s : State) (u : Nat) (d : Domain) : (setDomain s u d).egress = s.egress := rfl
@[simp] theorem setDomain_coll (s : State) (u : Nat) (d : Domain) : (setDomain s u d).coll = s.coll := rfl
@[simp] theorem setDomain_intake (s : State) (u : Nat) (d : Domain) : (setDomain s u d).intake = s.intake := rfl
@[simp] theorem setDomain_mbx (s : State) (u : Nat) (d : Domain) : (setDomain s u d).mbx = s.mbx := rfl
@[simp] theorem setDomain_job (s : State) (u : Nat) (d : Domain) : (setDomain s u d).job = s.job := rfl
@[simp] theorem setDomain_surv (s : State) (u : Nat) (d : Domain) : (setDomain s u d).surv = s.surv := rfl
@[simp] theorem setDomain_power (s : State) (u : Nat) (d : Domain) : (setDomain s u d).power = s.power := rfl
@[simp] theorem setDomain_therm (s : State) (u : Nat) (d : Domain) : (setDomain s u d).therm = s.therm := rfl
@[simp] theorem setDomain_boot (s : State) (u : Nat) (d : Domain) : (setDomain s u d).boot = s.boot := rfl
@[simp] theorem setDomain_pins (s : State) (u : Nat) (d : Domain) : (setDomain s u d).pins = s.pins := rfl
@[simp] theorem setDomain_queuedTests (s : State) (u : Nat) (d : Domain) : (setDomain s u d).queuedTests = s.queuedTests := rfl
@[simp] theorem setDomain_free (s : State) (u : Nat) (d : Domain) : (setDomain s u d).free = s.free := rfl
@[simp] theorem setDomain_pending (s : State) (u : Nat) (d : Domain) : (setDomain s u d).pending = s.pending := rfl

/-! ### `setRegion` -/

@[simp] theorem setRegion_time (s : State) (r : Region) : (setRegion s r).time = s.time := rfl
@[simp] theorem setRegion_regs (s : State) (r : Region) : (setRegion s r).regs = s.regs := rfl
@[simp] theorem setRegion_mem (s : State) (r : Region) : (setRegion s r).mem = s.mem := rfl
@[simp] theorem setRegion_cores (s : State) (r : Region) : (setRegion s r).cores = s.cores := rfl
@[simp] theorem setRegion_hearths (s : State) (r : Region) : (setRegion s r).hearths = s.hearths := rfl
@[simp] theorem setRegion_answer (s : State) (r : Region) : (setRegion s r).answer = s.answer := rfl
@[simp] theorem setRegion_domains (s : State) (r : Region) : (setRegion s r).domains = s.domains := rfl
@[simp] theorem setRegion_weld (s : State) (r : Region) : (setRegion s r).weld = s.weld := rfl
@[simp] theorem setRegion_slacks (s : State) (r : Region) : (setRegion s r).slacks = s.slacks := rfl
@[simp] theorem setRegion_recorder (s : State) (r : Region) : (setRegion s r).recorder = s.recorder := rfl
@[simp] theorem setRegion_ylp (s : State) (r : Region) : (setRegion s r).ylp = s.ylp := rfl
@[simp] theorem setRegion_conns (s : State) (r : Region) : (setRegion s r).conns = s.conns := rfl
@[simp] theorem setRegion_ports (s : State) (r : Region) : (setRegion s r).ports = s.ports := rfl
@[simp] theorem setRegion_egress (s : State) (r : Region) : (setRegion s r).egress = s.egress := rfl
@[simp] theorem setRegion_coll (s : State) (r : Region) : (setRegion s r).coll = s.coll := rfl
@[simp] theorem setRegion_intake (s : State) (r : Region) : (setRegion s r).intake = s.intake := rfl
@[simp] theorem setRegion_mbx (s : State) (r : Region) : (setRegion s r).mbx = s.mbx := rfl
@[simp] theorem setRegion_job (s : State) (r : Region) : (setRegion s r).job = s.job := rfl
@[simp] theorem setRegion_surv (s : State) (r : Region) : (setRegion s r).surv = s.surv := rfl
@[simp] theorem setRegion_power (s : State) (r : Region) : (setRegion s r).power = s.power := rfl
@[simp] theorem setRegion_therm (s : State) (r : Region) : (setRegion s r).therm = s.therm := rfl
@[simp] theorem setRegion_boot (s : State) (r : Region) : (setRegion s r).boot = s.boot := rfl
@[simp] theorem setRegion_pins (s : State) (r : Region) : (setRegion s r).pins = s.pins := rfl
@[simp] theorem setRegion_queuedTests (s : State) (r : Region) : (setRegion s r).queuedTests = s.queuedTests := rfl
@[simp] theorem setRegion_free (s : State) (r : Region) : (setRegion s r).free = s.free := rfl
@[simp] theorem setRegion_pending (s : State) (r : Region) : (setRegion s r).pending = s.pending := rfl

/-! ### `clearPoison` -/

@[simp] theorem clearPoison_time (s : State) (a : Nat) : (clearPoison s a).time = s.time := rfl
@[simp] theorem clearPoison_regs (s : State) (a : Nat) : (clearPoison s a).regs = s.regs := rfl
@[simp] theorem clearPoison_mem (s : State) (a : Nat) : (clearPoison s a).mem = s.mem := rfl
@[simp] theorem clearPoison_cores (s : State) (a : Nat) : (clearPoison s a).cores = s.cores := rfl
@[simp] theorem clearPoison_hearths (s : State) (a : Nat) : (clearPoison s a).hearths = s.hearths := rfl
@[simp] theorem clearPoison_answer (s : State) (a : Nat) : (clearPoison s a).answer = s.answer := rfl
@[simp] theorem clearPoison_domains (s : State) (a : Nat) : (clearPoison s a).domains = s.domains := rfl
@[simp] theorem clearPoison_weld (s : State) (a : Nat) : (clearPoison s a).weld = s.weld := rfl
@[simp] theorem clearPoison_slacks (s : State) (a : Nat) : (clearPoison s a).slacks = s.slacks := rfl
@[simp] theorem clearPoison_recorder (s : State) (a : Nat) : (clearPoison s a).recorder = s.recorder := rfl
@[simp] theorem clearPoison_ylp (s : State) (a : Nat) : (clearPoison s a).ylp = s.ylp := rfl
@[simp] theorem clearPoison_conns (s : State) (a : Nat) : (clearPoison s a).conns = s.conns := rfl
@[simp] theorem clearPoison_ports (s : State) (a : Nat) : (clearPoison s a).ports = s.ports := rfl
@[simp] theorem clearPoison_egress (s : State) (a : Nat) : (clearPoison s a).egress = s.egress := rfl
@[simp] theorem clearPoison_coll (s : State) (a : Nat) : (clearPoison s a).coll = s.coll := rfl
@[simp] theorem clearPoison_intake (s : State) (a : Nat) : (clearPoison s a).intake = s.intake := rfl
@[simp] theorem clearPoison_mbx (s : State) (a : Nat) : (clearPoison s a).mbx = s.mbx := rfl
@[simp] theorem clearPoison_job (s : State) (a : Nat) : (clearPoison s a).job = s.job := rfl
@[simp] theorem clearPoison_surv (s : State) (a : Nat) : (clearPoison s a).surv = s.surv := rfl
@[simp] theorem clearPoison_power (s : State) (a : Nat) : (clearPoison s a).power = s.power := rfl
@[simp] theorem clearPoison_therm (s : State) (a : Nat) : (clearPoison s a).therm = s.therm := rfl
@[simp] theorem clearPoison_boot (s : State) (a : Nat) : (clearPoison s a).boot = s.boot := rfl
@[simp] theorem clearPoison_pins (s : State) (a : Nat) : (clearPoison s a).pins = s.pins := rfl
@[simp] theorem clearPoison_queuedTests (s : State) (a : Nat) : (clearPoison s a).queuedTests = s.queuedTests := rfl
@[simp] theorem clearPoison_free (s : State) (a : Nat) : (clearPoison s a).free = s.free := rfl
@[simp] theorem clearPoison_pending (s : State) (a : Nat) : (clearPoison s a).pending = s.pending := rfl

/-! ### `writeBytes` -/

@[simp] theorem writeBytes_time (s : State) (a : Nat) (bs : List Byte) : (writeBytes s a bs).time = s.time := rfl
@[simp] theorem writeBytes_regs (s : State) (a : Nat) (bs : List Byte) : (writeBytes s a bs).regs = s.regs := rfl
@[simp] theorem writeBytes_cores (s : State) (a : Nat) (bs : List Byte) : (writeBytes s a bs).cores = s.cores := rfl
@[simp] theorem writeBytes_hearths (s : State) (a : Nat) (bs : List Byte) : (writeBytes s a bs).hearths = s.hearths := rfl
@[simp] theorem writeBytes_memctl (s : State) (a : Nat) (bs : List Byte) : (writeBytes s a bs).memctl = s.memctl := rfl
@[simp] theorem writeBytes_answer (s : State) (a : Nat) (bs : List Byte) : (writeBytes s a bs).answer = s.answer := rfl
@[simp] theorem writeBytes_domains (s : State) (a : Nat) (bs : List Byte) : (writeBytes s a bs).domains = s.domains := rfl
@[simp] theorem writeBytes_weld (s : State) (a : Nat) (bs : List Byte) : (writeBytes s a bs).weld = s.weld := rfl
@[simp] theorem writeBytes_slacks (s : State) (a : Nat) (bs : List Byte) : (writeBytes s a bs).slacks = s.slacks := rfl
@[simp] theorem writeBytes_recorder (s : State) (a : Nat) (bs : List Byte) : (writeBytes s a bs).recorder = s.recorder := rfl
@[simp] theorem writeBytes_ylp (s : State) (a : Nat) (bs : List Byte) : (writeBytes s a bs).ylp = s.ylp := rfl
@[simp] theorem writeBytes_conns (s : State) (a : Nat) (bs : List Byte) : (writeBytes s a bs).conns = s.conns := rfl
@[simp] theorem writeBytes_ports (s : State) (a : Nat) (bs : List Byte) : (writeBytes s a bs).ports = s.ports := rfl
@[simp] theorem writeBytes_egress (s : State) (a : Nat) (bs : List Byte) : (writeBytes s a bs).egress = s.egress := rfl
@[simp] theorem writeBytes_coll (s : State) (a : Nat) (bs : List Byte) : (writeBytes s a bs).coll = s.coll := rfl
@[simp] theorem writeBytes_intake (s : State) (a : Nat) (bs : List Byte) : (writeBytes s a bs).intake = s.intake := rfl
@[simp] theorem writeBytes_mbx (s : State) (a : Nat) (bs : List Byte) : (writeBytes s a bs).mbx = s.mbx := rfl
@[simp] theorem writeBytes_job (s : State) (a : Nat) (bs : List Byte) : (writeBytes s a bs).job = s.job := rfl
@[simp] theorem writeBytes_surv (s : State) (a : Nat) (bs : List Byte) : (writeBytes s a bs).surv = s.surv := rfl
@[simp] theorem writeBytes_power (s : State) (a : Nat) (bs : List Byte) : (writeBytes s a bs).power = s.power := rfl
@[simp] theorem writeBytes_therm (s : State) (a : Nat) (bs : List Byte) : (writeBytes s a bs).therm = s.therm := rfl
@[simp] theorem writeBytes_boot (s : State) (a : Nat) (bs : List Byte) : (writeBytes s a bs).boot = s.boot := rfl
@[simp] theorem writeBytes_pins (s : State) (a : Nat) (bs : List Byte) : (writeBytes s a bs).pins = s.pins := rfl
@[simp] theorem writeBytes_queuedTests (s : State) (a : Nat) (bs : List Byte) : (writeBytes s a bs).queuedTests = s.queuedTests := rfl
@[simp] theorem writeBytes_free (s : State) (a : Nat) (bs : List Byte) : (writeBytes s a bs).free = s.free := rfl
@[simp] theorem writeBytes_pending (s : State) (a : Nat) (bs : List Byte) : (writeBytes s a bs).pending = s.pending := rfl

/-! ### `zeroBytes` -/

@[simp] theorem zeroBytes_time (s : State) (a n : Nat) : (zeroBytes s a n).time = s.time := rfl
@[simp] theorem zeroBytes_regs (s : State) (a n : Nat) : (zeroBytes s a n).regs = s.regs := rfl
@[simp] theorem zeroBytes_cores (s : State) (a n : Nat) : (zeroBytes s a n).cores = s.cores := rfl
@[simp] theorem zeroBytes_hearths (s : State) (a n : Nat) : (zeroBytes s a n).hearths = s.hearths := rfl
@[simp] theorem zeroBytes_memctl (s : State) (a n : Nat) : (zeroBytes s a n).memctl = s.memctl := rfl
@[simp] theorem zeroBytes_answer (s : State) (a n : Nat) : (zeroBytes s a n).answer = s.answer := rfl
@[simp] theorem zeroBytes_domains (s : State) (a n : Nat) : (zeroBytes s a n).domains = s.domains := rfl
@[simp] theorem zeroBytes_weld (s : State) (a n : Nat) : (zeroBytes s a n).weld = s.weld := rfl
@[simp] theorem zeroBytes_slacks (s : State) (a n : Nat) : (zeroBytes s a n).slacks = s.slacks := rfl
@[simp] theorem zeroBytes_recorder (s : State) (a n : Nat) : (zeroBytes s a n).recorder = s.recorder := rfl
@[simp] theorem zeroBytes_ylp (s : State) (a n : Nat) : (zeroBytes s a n).ylp = s.ylp := rfl
@[simp] theorem zeroBytes_conns (s : State) (a n : Nat) : (zeroBytes s a n).conns = s.conns := rfl
@[simp] theorem zeroBytes_ports (s : State) (a n : Nat) : (zeroBytes s a n).ports = s.ports := rfl
@[simp] theorem zeroBytes_egress (s : State) (a n : Nat) : (zeroBytes s a n).egress = s.egress := rfl
@[simp] theorem zeroBytes_coll (s : State) (a n : Nat) : (zeroBytes s a n).coll = s.coll := rfl
@[simp] theorem zeroBytes_intake (s : State) (a n : Nat) : (zeroBytes s a n).intake = s.intake := rfl
@[simp] theorem zeroBytes_mbx (s : State) (a n : Nat) : (zeroBytes s a n).mbx = s.mbx := rfl
@[simp] theorem zeroBytes_job (s : State) (a n : Nat) : (zeroBytes s a n).job = s.job := rfl
@[simp] theorem zeroBytes_surv (s : State) (a n : Nat) : (zeroBytes s a n).surv = s.surv := rfl
@[simp] theorem zeroBytes_power (s : State) (a n : Nat) : (zeroBytes s a n).power = s.power := rfl
@[simp] theorem zeroBytes_therm (s : State) (a n : Nat) : (zeroBytes s a n).therm = s.therm := rfl
@[simp] theorem zeroBytes_boot (s : State) (a n : Nat) : (zeroBytes s a n).boot = s.boot := rfl
@[simp] theorem zeroBytes_pins (s : State) (a n : Nat) : (zeroBytes s a n).pins = s.pins := rfl
@[simp] theorem zeroBytes_queuedTests (s : State) (a n : Nat) : (zeroBytes s a n).queuedTests = s.queuedTests := rfl
@[simp] theorem zeroBytes_free (s : State) (a n : Nat) : (zeroBytes s a n).free = s.free := rfl
@[simp] theorem zeroBytes_pending (s : State) (a n : Nat) : (zeroBytes s a n).pending = s.pending := rfl

/-! ### `emit` -/

@[simp] theorem emit_time (s : State) (o : Out) : (emit s o).time = s.time := rfl
@[simp] theorem emit_regs (s : State) (o : Out) : (emit s o).regs = s.regs := rfl
@[simp] theorem emit_mem (s : State) (o : Out) : (emit s o).mem = s.mem := rfl
@[simp] theorem emit_cores (s : State) (o : Out) : (emit s o).cores = s.cores := rfl
@[simp] theorem emit_hearths (s : State) (o : Out) : (emit s o).hearths = s.hearths := rfl
@[simp] theorem emit_memctl (s : State) (o : Out) : (emit s o).memctl = s.memctl := rfl
@[simp] theorem emit_answer (s : State) (o : Out) : (emit s o).answer = s.answer := rfl
@[simp] theorem emit_domains (s : State) (o : Out) : (emit s o).domains = s.domains := rfl
@[simp] theorem emit_weld (s : State) (o : Out) : (emit s o).weld = s.weld := rfl
@[simp] theorem emit_slacks (s : State) (o : Out) : (emit s o).slacks = s.slacks := rfl
@[simp] theorem emit_recorder (s : State) (o : Out) : (emit s o).recorder = s.recorder := rfl
@[simp] theorem emit_ylp (s : State) (o : Out) : (emit s o).ylp = s.ylp := rfl
@[simp] theorem emit_conns (s : State) (o : Out) : (emit s o).conns = s.conns := rfl
@[simp] theorem emit_ports (s : State) (o : Out) : (emit s o).ports = s.ports := rfl
@[simp] theorem emit_coll (s : State) (o : Out) : (emit s o).coll = s.coll := rfl
@[simp] theorem emit_intake (s : State) (o : Out) : (emit s o).intake = s.intake := rfl
@[simp] theorem emit_mbx (s : State) (o : Out) : (emit s o).mbx = s.mbx := rfl
@[simp] theorem emit_job (s : State) (o : Out) : (emit s o).job = s.job := rfl
@[simp] theorem emit_surv (s : State) (o : Out) : (emit s o).surv = s.surv := rfl
@[simp] theorem emit_power (s : State) (o : Out) : (emit s o).power = s.power := rfl
@[simp] theorem emit_therm (s : State) (o : Out) : (emit s o).therm = s.therm := rfl
@[simp] theorem emit_boot (s : State) (o : Out) : (emit s o).boot = s.boot := rfl
@[simp] theorem emit_pins (s : State) (o : Out) : (emit s o).pins = s.pins := rfl
@[simp] theorem emit_queuedTests (s : State) (o : Out) : (emit s o).queuedTests = s.queuedTests := rfl
@[simp] theorem emit_free (s : State) (o : Out) : (emit s o).free = s.free := rfl
@[simp] theorem emit_pending (s : State) (o : Out) : (emit s o).pending = s.pending := rfl

/-! ### `requestService` -/

@[simp] theorem requestService_time (s : State) : (requestService s ).time = s.time := rfl
@[simp] theorem requestService_mem (s : State) : (requestService s ).mem = s.mem := rfl
@[simp] theorem requestService_cores (s : State) : (requestService s ).cores = s.cores := rfl
@[simp] theorem requestService_hearths (s : State) : (requestService s ).hearths = s.hearths := rfl
@[simp] theorem requestService_memctl (s : State) : (requestService s ).memctl = s.memctl := rfl
@[simp] theorem requestService_answer (s : State) : (requestService s ).answer = s.answer := rfl
@[simp] theorem requestService_domains (s : State) : (requestService s ).domains = s.domains := rfl
@[simp] theorem requestService_weld (s : State) : (requestService s ).weld = s.weld := rfl
@[simp] theorem requestService_slacks (s : State) : (requestService s ).slacks = s.slacks := rfl
@[simp] theorem requestService_recorder (s : State) : (requestService s ).recorder = s.recorder := rfl
@[simp] theorem requestService_ylp (s : State) : (requestService s ).ylp = s.ylp := rfl
@[simp] theorem requestService_conns (s : State) : (requestService s ).conns = s.conns := rfl
@[simp] theorem requestService_ports (s : State) : (requestService s ).ports = s.ports := rfl
@[simp] theorem requestService_egress (s : State) : (requestService s ).egress = s.egress := rfl
@[simp] theorem requestService_coll (s : State) : (requestService s ).coll = s.coll := rfl
@[simp] theorem requestService_intake (s : State) : (requestService s ).intake = s.intake := rfl
@[simp] theorem requestService_mbx (s : State) : (requestService s ).mbx = s.mbx := rfl
@[simp] theorem requestService_job (s : State) : (requestService s ).job = s.job := rfl
@[simp] theorem requestService_surv (s : State) : (requestService s ).surv = s.surv := rfl
@[simp] theorem requestService_power (s : State) : (requestService s ).power = s.power := rfl
@[simp] theorem requestService_therm (s : State) : (requestService s ).therm = s.therm := rfl
@[simp] theorem requestService_boot (s : State) : (requestService s ).boot = s.boot := rfl
@[simp] theorem requestService_queuedTests (s : State) : (requestService s ).queuedTests = s.queuedTests := rfl
@[simp] theorem requestService_free (s : State) : (requestService s ).free = s.free := rfl
@[simp] theorem requestService_pending (s : State) : (requestService s ).pending = s.pending := rfl

/-! ### `makeRecord` -/

@[simp] theorem makeRecord_time (s : State) (src typ : Nat) (b : List Word64) :
    (makeRecord s src typ b).time = s.time := by
  unfold makeRecord; split <;> [rfl; split <;> rfl]
@[simp] theorem makeRecord_regs (s : State) (src typ : Nat) (b : List Word64) :
    (makeRecord s src typ b).regs = s.regs := by
  unfold makeRecord; split <;> [rfl; split <;> rfl]
@[simp] theorem makeRecord_mem (s : State) (src typ : Nat) (b : List Word64) :
    (makeRecord s src typ b).mem = s.mem := by
  unfold makeRecord; split <;> [rfl; split <;> rfl]
@[simp] theorem makeRecord_cores (s : State) (src typ : Nat) (b : List Word64) :
    (makeRecord s src typ b).cores = s.cores := by
  unfold makeRecord; split <;> [rfl; split <;> rfl]
@[simp] theorem makeRecord_hearths (s : State) (src typ : Nat) (b : List Word64) :
    (makeRecord s src typ b).hearths = s.hearths := by
  unfold makeRecord; split <;> [rfl; split <;> rfl]
@[simp] theorem makeRecord_memctl (s : State) (src typ : Nat) (b : List Word64) :
    (makeRecord s src typ b).memctl = s.memctl := by
  unfold makeRecord; split <;> [rfl; split <;> rfl]
@[simp] theorem makeRecord_answer (s : State) (src typ : Nat) (b : List Word64) :
    (makeRecord s src typ b).answer = s.answer := by
  unfold makeRecord; split <;> [rfl; split <;> rfl]
@[simp] theorem makeRecord_domains (s : State) (src typ : Nat) (b : List Word64) :
    (makeRecord s src typ b).domains = s.domains := by
  unfold makeRecord; split <;> [rfl; split <;> rfl]
@[simp] theorem makeRecord_weld (s : State) (src typ : Nat) (b : List Word64) :
    (makeRecord s src typ b).weld = s.weld := by
  unfold makeRecord; split <;> [rfl; split <;> rfl]
@[simp] theorem makeRecord_slacks (s : State) (src typ : Nat) (b : List Word64) :
    (makeRecord s src typ b).slacks = s.slacks := by
  unfold makeRecord; split <;> [rfl; split <;> rfl]
@[simp] theorem makeRecord_ylp (s : State) (src typ : Nat) (b : List Word64) :
    (makeRecord s src typ b).ylp = s.ylp := by
  unfold makeRecord; split <;> [rfl; split <;> rfl]
@[simp] theorem makeRecord_conns (s : State) (src typ : Nat) (b : List Word64) :
    (makeRecord s src typ b).conns = s.conns := by
  unfold makeRecord; split <;> [rfl; split <;> rfl]
@[simp] theorem makeRecord_ports (s : State) (src typ : Nat) (b : List Word64) :
    (makeRecord s src typ b).ports = s.ports := by
  unfold makeRecord; split <;> [rfl; split <;> rfl]
@[simp] theorem makeRecord_egress (s : State) (src typ : Nat) (b : List Word64) :
    (makeRecord s src typ b).egress = s.egress := by
  unfold makeRecord; split <;> [rfl; split <;> rfl]
@[simp] theorem makeRecord_coll (s : State) (src typ : Nat) (b : List Word64) :
    (makeRecord s src typ b).coll = s.coll := by
  unfold makeRecord; split <;> [rfl; split <;> rfl]
@[simp] theorem makeRecord_intake (s : State) (src typ : Nat) (b : List Word64) :
    (makeRecord s src typ b).intake = s.intake := by
  unfold makeRecord; split <;> [rfl; split <;> rfl]
@[simp] theorem makeRecord_mbx (s : State) (src typ : Nat) (b : List Word64) :
    (makeRecord s src typ b).mbx = s.mbx := by
  unfold makeRecord; split <;> [rfl; split <;> rfl]
@[simp] theorem makeRecord_job (s : State) (src typ : Nat) (b : List Word64) :
    (makeRecord s src typ b).job = s.job := by
  unfold makeRecord; split <;> [rfl; split <;> rfl]
@[simp] theorem makeRecord_surv (s : State) (src typ : Nat) (b : List Word64) :
    (makeRecord s src typ b).surv = s.surv := by
  unfold makeRecord; split <;> [rfl; split <;> rfl]
@[simp] theorem makeRecord_power (s : State) (src typ : Nat) (b : List Word64) :
    (makeRecord s src typ b).power = s.power := by
  unfold makeRecord; split <;> [rfl; split <;> rfl]
@[simp] theorem makeRecord_therm (s : State) (src typ : Nat) (b : List Word64) :
    (makeRecord s src typ b).therm = s.therm := by
  unfold makeRecord; split <;> [rfl; split <;> rfl]
@[simp] theorem makeRecord_boot (s : State) (src typ : Nat) (b : List Word64) :
    (makeRecord s src typ b).boot = s.boot := by
  unfold makeRecord; split <;> [rfl; split <;> rfl]
@[simp] theorem makeRecord_pins (s : State) (src typ : Nat) (b : List Word64) :
    (makeRecord s src typ b).pins = s.pins := by
  unfold makeRecord; split <;> [rfl; split <;> rfl]
@[simp] theorem makeRecord_queuedTests (s : State) (src typ : Nat) (b : List Word64) :
    (makeRecord s src typ b).queuedTests = s.queuedTests := by
  unfold makeRecord; split <;> [rfl; split <;> rfl]
@[simp] theorem makeRecord_free (s : State) (src typ : Nat) (b : List Word64) :
    (makeRecord s src typ b).free = s.free := by
  unfold makeRecord; split <;> [rfl; split <;> rfl]
@[simp] theorem makeRecord_pending (s : State) (src typ : Nat) (b : List Word64) :
    (makeRecord s src typ b).pending = s.pending := by
  unfold makeRecord; split <;> [rfl; split <;> rfl]

/-! ### `touchLine` -/

@[simp] theorem touchLine_time (s : State) (l : Nat) (w g : Bool) :
    (touchLine s l w g).time = s.time := by
  unfold touchLine; split <;> rfl
@[simp] theorem touchLine_regs (s : State) (l : Nat) (w g : Bool) :
    (touchLine s l w g).regs = s.regs := by
  unfold touchLine; split <;> rfl
@[simp] theorem touchLine_mem (s : State) (l : Nat) (w g : Bool) :
    (touchLine s l w g).mem = s.mem := by
  unfold touchLine; split <;> rfl
@[simp] theorem touchLine_cores (s : State) (l : Nat) (w g : Bool) :
    (touchLine s l w g).cores = s.cores := by
  unfold touchLine; split <;> rfl
@[simp] theorem touchLine_memctl (s : State) (l : Nat) (w g : Bool) :
    (touchLine s l w g).memctl = s.memctl := by
  unfold touchLine; split <;> rfl
@[simp] theorem touchLine_answer (s : State) (l : Nat) (w g : Bool) :
    (touchLine s l w g).answer = s.answer := by
  unfold touchLine; split <;> rfl
@[simp] theorem touchLine_domains (s : State) (l : Nat) (w g : Bool) :
    (touchLine s l w g).domains = s.domains := by
  unfold touchLine; split <;> rfl
@[simp] theorem touchLine_weld (s : State) (l : Nat) (w g : Bool) :
    (touchLine s l w g).weld = s.weld := by
  unfold touchLine; split <;> rfl
@[simp] theorem touchLine_slacks (s : State) (l : Nat) (w g : Bool) :
    (touchLine s l w g).slacks = s.slacks := by
  unfold touchLine; split <;> rfl
@[simp] theorem touchLine_recorder (s : State) (l : Nat) (w g : Bool) :
    (touchLine s l w g).recorder = s.recorder := by
  unfold touchLine; split <;> rfl
@[simp] theorem touchLine_ylp (s : State) (l : Nat) (w g : Bool) :
    (touchLine s l w g).ylp = s.ylp := by
  unfold touchLine; split <;> rfl
@[simp] theorem touchLine_conns (s : State) (l : Nat) (w g : Bool) :
    (touchLine s l w g).conns = s.conns := by
  unfold touchLine; split <;> rfl
@[simp] theorem touchLine_ports (s : State) (l : Nat) (w g : Bool) :
    (touchLine s l w g).ports = s.ports := by
  unfold touchLine; split <;> rfl
@[simp] theorem touchLine_egress (s : State) (l : Nat) (w g : Bool) :
    (touchLine s l w g).egress = s.egress := by
  unfold touchLine; split <;> rfl
@[simp] theorem touchLine_coll (s : State) (l : Nat) (w g : Bool) :
    (touchLine s l w g).coll = s.coll := by
  unfold touchLine; split <;> rfl
@[simp] theorem touchLine_intake (s : State) (l : Nat) (w g : Bool) :
    (touchLine s l w g).intake = s.intake := by
  unfold touchLine; split <;> rfl
@[simp] theorem touchLine_mbx (s : State) (l : Nat) (w g : Bool) :
    (touchLine s l w g).mbx = s.mbx := by
  unfold touchLine; split <;> rfl
@[simp] theorem touchLine_job (s : State) (l : Nat) (w g : Bool) :
    (touchLine s l w g).job = s.job := by
  unfold touchLine; split <;> rfl
@[simp] theorem touchLine_surv (s : State) (l : Nat) (w g : Bool) :
    (touchLine s l w g).surv = s.surv := by
  unfold touchLine; split <;> rfl
@[simp] theorem touchLine_power (s : State) (l : Nat) (w g : Bool) :
    (touchLine s l w g).power = s.power := by
  unfold touchLine; split <;> rfl
@[simp] theorem touchLine_therm (s : State) (l : Nat) (w g : Bool) :
    (touchLine s l w g).therm = s.therm := by
  unfold touchLine; split <;> rfl
@[simp] theorem touchLine_boot (s : State) (l : Nat) (w g : Bool) :
    (touchLine s l w g).boot = s.boot := by
  unfold touchLine; split <;> rfl
@[simp] theorem touchLine_pins (s : State) (l : Nat) (w g : Bool) :
    (touchLine s l w g).pins = s.pins := by
  unfold touchLine; split <;> rfl
@[simp] theorem touchLine_queuedTests (s : State) (l : Nat) (w g : Bool) :
    (touchLine s l w g).queuedTests = s.queuedTests := by
  unfold touchLine; split <;> rfl
@[simp] theorem touchLine_free (s : State) (l : Nat) (w g : Bool) :
    (touchLine s l w g).free = s.free := by
  unfold touchLine; split <;> rfl
@[simp] theorem touchLine_pending (s : State) (l : Nat) (w g : Bool) :
    (touchLine s l w g).pending = s.pending := by
  unfold touchLine; split <;> rfl

/-! ## Cores -/

theorem sized_cores {s : State} (h : sized s = true) : s.cores.length = 128 := by
  simp only [sized, Bool.and_eq_true, decide_eq_true_eq] at h; exact h.1.1.1.1.1

theorem sized_core {s : State} (h : sized s = true) (i : CoreId) : coreSized (coreAt s i) = true := by
  have hl := sized_cores h
  simp only [sized, Bool.and_eq_true, List.all_eq_true] at h
  have hi : i.val < s.cores.length := by rw [hl]; exact i.isLt
  have : coreAt s i = s.cores[i.val] := by simp [coreAt, List.getD_eq_getElem?_getD, List.getElem?_eq_getElem hi]
  rw [this]; exact h.1.1.1.1.2 _ (List.getElem_mem hi)

/-- A changed core reads as the change says. -/
theorem coreAt_setCore {s : State} {i : Nat} (h : i < s.cores.length) (c : Core) : coreAt (setCore s i c) i = c := by
  simp [coreAt, setCore, List.getD_eq_getElem?_getD, h]

theorem coreAt_modCore {s : State} {i : Nat} (h : i < s.cores.length) (f : Core → Core) :
    coreAt (modCore s i f) i = f (coreAt s i) := coreAt_setCore h _

theorem coreAt_modCore_ne {s : State} {i j : Nat} (h : i ≠ j) (f : Core → Core) :
    coreAt (modCore s i f) j = coreAt s j := by
  simp [coreAt, modCore, setCore, List.getD_eq_getElem?_getD, List.getElem?_set_ne h]

/-- Two changes of one core are one. -/
theorem modCore_modCore {s : State} {i : Nat} (h : i < s.cores.length) (f g : Core → Core) :
    modCore (modCore s i f) i g = modCore s i (fun c => g (f c)) := by
  have e := coreAt_modCore h f
  unfold modCore at e ⊢
  rw [e]; simp [setCore]

@[simp] theorem modCore_cores_length (s : State) (i : Nat) (f : Core → Core) :
    (modCore s i f).cores.length = s.cores.length := by simp [modCore, setCore]
@[simp] theorem getR_modCore (s : State) (i a : Nat) (f : Core → Core) : getR (modCore s i f) a = getR s a := rfl
@[simp] theorem getF_modCore (s : State) (i a : Nat) (f : Core → Core) (x : Fld) :
    getF (modCore s i f) a x = getF s a x := rfl
@[simp] theorem isSplit_modCore (s : State) (i j : Nat) (f : Core → Core) : isSplit (modCore s i f) j = isSplit s j := rfl
@[simp] theorem quenched_modCore (s : State) (i : Nat) (f : Core → Core) : quenched (modCore s i f) = quenched s := rfl
@[simp] theorem readBytes_modCore (s : State) (i a n : Nat) (f : Core → Core) :
    readBytes (modCore s i f) a n = readBytes s a n := rfl
@[simp] theorem readByte_modCore (s : State) (i a : Nat) (f : Core → Core) :
    readByte (modCore s i f) a = readByte s a := rfl
@[simp] theorem readWord_modCore (s : State) (i a : Nat) (f : Core → Core) :
    readWord (modCore s i f) a = readWord s a := rfl

theorem set_getD {α : Type} (l : List α) (i : Nat) (d : α) : l.set i (l.getD i d) = l := by
  by_cases h : i < l.length
  · simp [List.getD_eq_getElem?_getD, h]
  · exact List.set_eq_of_length_le (by omega)

/-- A core put back as it is changes nothing. -/
theorem modCore_id (s : State) (i : Nat) : modCore s i (fun c => c) = s := by
  unfold modCore setCore coreAt; rw [set_getD]

/-- A change of one core changes nothing else. -/
theorem coreOnly_modCore {s : State} {i : Nat} (h : i < s.cores.length) (f : Core → Core) :
    coreOnly s (modCore s i f) i := by
  unfold coreOnly; rw [coreAt_modCore h]; rfl

/-! ## Contexts and queues of a core -/

@[simp] theorem ctx_setCtx (c : Core) (k : CtxId) (x : Ctx) : (c.setCtx k x).ctx k = x := by
  unfold Core.setCtx Core.ctx; split <;> rfl
@[simp] theorem setCtx_setCtx (c : Core) (k : CtxId) (x y : Ctx) : (c.setCtx k x).setCtx k y = c.setCtx k y := by
  unfold Core.setCtx; split <;> rfl
@[simp] theorem setCtx_sc (c : Core) (k : CtxId) (x : Ctx) : (c.setCtx k x).sc = c.sc := by
  unfold Core.setCtx; split <;> rfl
@[simp] theorem setCtx_g (c : Core) (k : CtxId) (x : Ctx) : (c.setCtx k x).g = c.g := by
  unfold Core.setCtx; split <;> rfl
@[simp] theorem setCtx_p (c : Core) (k : CtxId) (x : Ctx) : (c.setCtx k x).p = c.p := by
  unfold Core.setCtx; split <;> rfl
@[simp] theorem setCtx_v (c : Core) (k : CtxId) (x : Ctx) : (c.setCtx k x).v = c.v := by
  unfold Core.setCtx; split <;> rfl
@[simp] theorem setCtx_heldWaits (c : Core) (k : CtxId) (x : Ctx) : (c.setCtx k x).heldWaits = c.heldWaits := by
  unfold Core.setCtx; split <;> rfl
@[simp] theorem setCtx_preq (c : Core) (k : CtxId) (x : Ctx) : (c.setCtx k x).preq = c.preq := by
  unfold Core.setCtx; split <;> rfl
@[simp] theorem setCtx_queue (c : Core) (k : CtxId) (x : Ctx) (q : Queue) : (c.setCtx k x).queue q = c.queue q := by
  unfold Core.setCtx; split <;> (cases q <;> rfl)
@[simp] theorem queue_setQueue (c : Core) (q : Queue) (l : List QEntry) : (c.setQueue q l).queue q = l := by
  cases q <;> rfl
@[simp] theorem ctx_setQueue (c : Core) (q : Queue) (l : List QEntry) (k : CtxId) : (c.setQueue q l).ctx k = c.ctx k := by
  cases q <;> rfl

/-! ## Management registers -/

/-- Reading after writing a register. -/
theorem getR_setR (s : State) (a b : Nat) (v : Word32) : getR (setR s a v) b = if b = a then v else getR s b := by
  unfold getR setR
  by_cases h : b = a
  · subst h; simp [assocGet_sparseSet]
  · simp only [if_neg h]
    unfold sparseSet
    split
    · rw [assocGet_assocErase, if_neg h]
    · rw [assocGet_assocSet, if_neg h]

@[simp] theorem getR_setR_self (s : State) (a : Nat) (v : Word32) : getR (setR s a v) a = v := by simp [getR_setR]
theorem getR_setR_ne {s : State} {a b : Nat} (h : b ≠ a) (v : Word32) : getR (setR s a v) b = getR s b := by
  simp [getR_setR, h]

@[simp] theorem coreAt_setR (s : State) (a i : Nat) (v : Word32) : coreAt (setR s a v) i = coreAt s i := rfl

/-! ## Records and outputs -/

/-- A record changes the recorder alone. -/
theorem makeRecord_eq (s : State) (src typ : Nat) (b : List Word64) :
    makeRecord s src typ b = { s with recorder := (makeRecord s src typ b).recorder } := by
  unfold makeRecord; split <;> [rfl; split <;> rfl]

end Sys2Proof.Machine
end

