-- ==== Sys2Proof/Laws/Issue.lean ====
section
/-! SUPPORT. What the issue and the completion of a control instruction do, once for all of them (R181 to R183). -/

namespace Sys2Proof.Machine

theorem issues_iff {s i k f sh l} : issues s i k f sh l = true ↔ (sized s = true ∧ canIssue s i k = true ∧ fieldsOk (isSplit s i) sh f = true ∧ l = true ∧ predicate s i k f = true ∧ gHazard s i k sh f = false) := by
  simp [issues, and_assoc]

theorem issueCtl_go {s : State} {i : Nat} {k f sh l body} (h : issues s i k f sh l = true) :
    issueCtl s i k f sh l body = body s := by
  obtain ⟨_, h1, h2, h3, h4, h5⟩ := issues_iff.1 h
  simp [issueCtl, h1, h2, h3, h4, h5]

theorem signalDone_ok {s : State} {i : Nat} {k : CtxId} {f : Fields} {q pc}
    (h : sigRoom s i k f = true) : signalDone s i k f.sigen f.sigc.toNat q pc = modCore s i (signalled s i k f) := by
  unfold signalDone signalled
  by_cases hs : f.sigen = true
  · simp [sigRoom, hs] at h
    rw [if_pos hs]
    unfold addCounter
    rw [if_neg (by omega)]
    simp only [hs, if_true]
    unfold writeSc modCore readSc; rfl
  · have : f.sigen = false := by simpa using hs
    simp only [this]
    exact (modCore_id s i).symm

theorem completeCtl_go {s : State} {i : CoreId} {k f} (hz : s.cores.length = 128)
   (h : sigRoom s i k f = true) : completeCtl s i k f = modCore s i (ctlEnd s i k f) := by
  have hl : i.val < s.cores.length := by rw [hz]; exact i.isLt
  unfold completeCtl
  rw [signalDone_ok (s := advance s i k)]
  · unfold advance setCtxAt
    rw [modCore_modCore hl]
    rfl
  · unfold sigRoom at *
    simp only [advance, setCtxAt, isSplit_modCore, readSc, coreAt_modCore hl] at *
    simpa using h

theorem ctlGo_iff {s : State} {i k f sh l} : ctlGo s i k f sh l = true ↔ issues s i k f sh l = true ∧ sigRoom s i k f = true := by simp [ctlGo]

theorem ctl_answers {s : State} {i : CoreId} {k f} (g : Core → Core) (hz : s.cores.length = 128) (hsc : ∀ c, (g c).sc = c.sc)
   (h : sigRoom s i k f = true) : coreOnly s (completeCtl (modCore s i g) i k f) i ∧
     coreAt (completeCtl (modCore s i g) i k f) i = ctlEnd s i k f (g (coreAt s i)) := by
  have hl : i.val < s.cores.length := by rw [hz]; exact i.isLt
  rw [completeCtl_go (by simpa using hz), modCore_modCore hl]
  · exact ⟨coreOnly_modCore hl _, by rw [coreAt_modCore hl]; rfl⟩
  · unfold sigRoom at *
    simp only [isSplit_modCore, readSc, coreAt_modCore hl, hsc] at *
    simpa using h

theorem writeG_eq (s : State) (i : CoreId) (hz : s.cores.length = 128) (k n v) : writeG s i k n v = modCore s i (setG s i k n v) := by
  unfold writeG setG
  have hl : i.val < s.cores.length := by rw [hz]; exact i.isLt
  split
  · exact (modCore_id s i).symm
  · unfold modCore; rfl

end Sys2Proof.Machine
end

