-- ==== Sys2Proof/Laws/Memory.lean ====
section
/-! SUPPORT. Memory: every operation keeps the canonical form, a read after a write gives what was written, and a write leaves
every other byte alone. -/

namespace Sys2Proof.Machine

/-! ## Rising keys -/

theorem risingKeys_cons {α : Type} (a : Nat) (b : α) (l : List (Nat × α)) :
    risingKeys ((a, b) :: l) = true ↔ (∀ p ∈ l, a < p.1) ∧ risingKeys l = true := by
  induction l generalizing a b with
  | nil => simp [risingKeys]
  | cons p l ih =>
    obtain ⟨c, d⟩ := p
    simp only [risingKeys, Bool.and_eq_true, decide_eq_true_eq, List.mem_cons, forall_eq_or_imp]
    constructor
    · rintro ⟨h, r⟩
      exact ⟨⟨h, fun p hp => lt_trans h (((ih c d).1 r).1 p hp)⟩, r⟩
    · rintro ⟨⟨h, -⟩, r⟩
      exact ⟨h, r⟩

theorem mem_assocErase {α : Type} {k : Nat} {p : Nat × α} {l : List (Nat × α)} (h : p ∈ assocErase k l) : p ∈ l := by
  induction l with
  | nil => simp [assocErase] at h
  | cons q l ih =>
    obtain ⟨a, b⟩ := q
    simp only [assocErase] at h
    split at h
    · exact List.mem_cons_of_mem _ (ih h)
    · rcases List.mem_cons.1 h with rfl | h
      · exact List.mem_cons_self
      · exact List.mem_cons_of_mem _ (ih h)

theorem mem_assocSet {α : Type} {k : Nat} {v : α} {p : Nat × α} {l : List (Nat × α)} (h : p ∈ assocSet k v l) :
    p = (k, v) ∨ p ∈ l := by
  induction l with
  | nil => simpa [assocSet] using h
  | cons q l ih =>
    obtain ⟨a, b⟩ := q
    simp only [assocSet] at h
    split at h
    · exact List.mem_cons.1 h
    · split at h
      · rcases List.mem_cons.1 h with h | h
        · exact .inl h
        · exact .inr (List.mem_cons_of_mem _ h)
      · rcases List.mem_cons.1 h with rfl | h
        · exact .inr List.mem_cons_self
        · exact (ih h).imp_right (List.mem_cons_of_mem _)

theorem risingKeys_assocErase {α : Type} (k : Nat) (l : List (Nat × α)) (h : risingKeys l = true) :
    risingKeys (assocErase k l) = true := by
  induction l with
  | nil => rfl
  | cons q l ih =>
    obtain ⟨a, b⟩ := q
    obtain ⟨h1, h2⟩ := (risingKeys_cons a b l).1 h
    simp only [assocErase]
    split
    · exact ih h2
    · exact (risingKeys_cons a b _).2 ⟨fun p hp => h1 p (mem_assocErase hp), ih h2⟩

theorem risingKeys_assocSet {α : Type} (k : Nat) (v : α) (l : List (Nat × α)) (h : risingKeys l = true) :
    risingKeys (assocSet k v l) = true := by
  induction l with
  | nil => rfl
  | cons q l ih =>
    obtain ⟨a, b⟩ := q
    obtain ⟨h1, h2⟩ := (risingKeys_cons a b l).1 h
    simp only [assocSet]
    split
    · next hk =>
      refine (risingKeys_cons k v _).2 ⟨fun p hp => ?_, h⟩
      rcases List.mem_cons.1 hp with rfl | hp
      · exact hk
      · exact lt_trans hk (h1 p hp)
    · split
      · next hk => subst hk; exact (risingKeys_cons k v _).2 ⟨h1, h2⟩
      · refine (risingKeys_cons a b _).2 ⟨fun p hp => ?_, ih h2⟩
        rcases mem_assocSet hp with rfl | hp
        · simp only; omega
        · exact h1 p hp

theorem risingKeys_filter {α : Type} (f : Nat × α → Bool) (l : List (Nat × α)) (h : risingKeys l = true) :
    risingKeys (l.filter f) = true := by
  induction l with
  | nil => rfl
  | cons q l ih =>
    obtain ⟨a, b⟩ := q
    obtain ⟨h1, h2⟩ := (risingKeys_cons a b l).1 h
    rw [List.filter_cons]
    split
    · exact (risingKeys_cons a b _).2 ⟨fun p hp => h1 p (List.mem_filter.1 hp).1, ih h2⟩
    · exact ih h2

/-! ## The canonical form is kept -/

theorem Memory.wf_iff (m : Memory) : Memory.wf m = true ↔ risingKeys m = true ∧ ∀ c ∈ m, c.2 ≠ memDefault := by
  simp [Memory.wf]

theorem memSet_wf {m : Memory} (h : Memory.wf m = true) (a : Nat) (v : Byte) : Memory.wf (memSet m a v) = true := by
  obtain ⟨h1, h2⟩ := (Memory.wf_iff m).1 h
  unfold memSet sparseSet
  split
  · exact (Memory.wf_iff _).2 ⟨risingKeys_assocErase a m h1, fun c hc => h2 c (mem_assocErase hc)⟩
  · next hv =>
    refine (Memory.wf_iff _).2 ⟨risingKeys_assocSet a v m h1, fun c hc => ?_⟩
    rcases mem_assocSet hc with rfl | hc
    · exact hv
    · exact h2 c hc

theorem memSetAll_wf (bs : List Byte) {m : Memory} (h : Memory.wf m = true) (a : Nat) : Memory.wf (memSetAll m a bs) = true := by
  induction bs generalizing m a with
  | nil => exact h
  | cons b bs ih => exact ih (memSet_wf h a b) (a + 1)

theorem Memory.wf_filter {m : Memory} (h : Memory.wf m = true) (f : Host.Cell → Bool) : Memory.wf (m.filter f) = true := by
  obtain ⟨h1, h2⟩ := (Memory.wf_iff m).1 h
  exact (Memory.wf_iff _).2 ⟨risingKeys_filter f m h1, fun c hc => h2 c (List.mem_filter.1 hc).1⟩

theorem writeBytes_wf {s : State} (h : Memory.wf s.mem = true) (a : Nat) (bs : List Byte) :
    Memory.wf (writeBytes s a bs).mem = true := memSetAll_wf bs h a

theorem writeWord_wf {s : State} (h : Memory.wf s.mem = true) (a : Nat) (v : Word64) : Memory.wf (writeWord s a v).mem = true :=
  writeBytes_wf h a _

theorem writeWords_wf {s : State} (h : Memory.wf s.mem = true) (a : Nat) (ws : List Word64) :
    Memory.wf (writeWords s a ws).mem = true := writeBytes_wf h a _

theorem zeroBytes_wf {s : State} (h : Memory.wf s.mem = true) (a n : Nat) : Memory.wf (zeroBytes s a n).mem = true :=
  Memory.wf_filter h _

theorem reset_mem_wf : Memory.wf State.reset.mem = true := rfl

/-! ## Reading after writing -/

theorem memGet_memSet (m : Memory) (a b : Nat) (v : Byte) : memGet (memSet m a v) b = if b = a then v else memGet m b :=
  assocGet_sparseSet memDefault a b v m

theorem memGet_memSetAll (bs : List Byte) (m : Memory) (a b : Nat) :
    memGet (memSetAll m a bs) b = if a ≤ b ∧ b < a + bs.length then bs.getD (b - a) 0 else memGet m b := by
  induction bs generalizing m a with
  | nil => simp [memSetAll, show ¬(a ≤ b ∧ b < a) by omega]
  | cons v bs ih =>
    rw [memSetAll, ih, memGet_memSet]
    by_cases h : b = a
    · subst h; simp
    · by_cases h2 : a + 1 ≤ b ∧ b < a + 1 + bs.length
      · rw [if_pos h2, if_pos (by simp only [List.length_cons]; omega), show b - a = (b - (a + 1)) + 1 by omega]
        rfl
      · rw [if_neg h2, if_neg h, if_neg (by simp only [List.length_cons]; omega)]

theorem readByte_writeBytes (s : State) (a b : Nat) (bs : List Byte) :
    readByte (writeBytes s a bs) b = if a ≤ b ∧ b < a + bs.length then bs.getD (b - a) 0 else readByte s b :=
  memGet_memSetAll bs s.mem a b

theorem readByte_writeWord_outside (s : State) (a b : Nat) (v : Word64) (h : b < a ∨ a + 8 ≤ b) :
    readByte (writeWord s a v) b = readByte s b := by
  unfold writeWord
  rw [readByte_writeBytes, leBytes_length, if_neg (by omega)]

theorem memGetAll_memSetAll (bs : List Byte) (m : Memory) (a : Nat) : memGetAll (memSetAll m a bs) a bs.length = bs := by
  induction bs generalizing m a with
  | nil => rfl
  | cons v bs ih =>
    rw [memSetAll, List.length_cons, memGetAll, ih, memGet_memSetAll, if_neg (by omega), memGet_memSet, if_pos rfl]

theorem readBytes_writeBytes (s : State) (a : Nat) (bs : List Byte) : readBytes (writeBytes s a bs) a bs.length = bs :=
  memGetAll_memSetAll bs s.mem a

theorem readWord_writeWord (s : State) (a : Nat) (v : Word64) : readWord (writeWord s a v) a = v := by
  unfold readWord writeWord w64
  have h := readBytes_writeBytes s a (leBytes 8 v.toNat)
  rw [leBytes_length] at h
  rw [h, ofLE_leBytes]
  apply BitVec.eq_of_toNat_eq
  simp only [BitVec.toNat_ofNat]
  have := v.isLt
  omega

theorem assocGet_filter {α : Type} (f : Nat × α → Bool) (g : Nat → Bool) (hf : ∀ p, f p = g p.1) (k : Nat) (l : List (Nat × α)) :
    assocGet k (l.filter f) = if g k then assocGet k l else none := by
  induction l with
  | nil => simp [assocGet]
  | cons p l ih =>
    obtain ⟨a, b⟩ := p
    rw [List.filter_cons, hf]
    by_cases hk : k = a
    · subst hk
      cases hg : g k <;> simp_all [assocGet]
    · cases hg : g a <;> simp_all [assocGet]

theorem readByte_zeroBytes (s : State) (a n b : Nat) :
    readByte (zeroBytes s a n) b = if a ≤ b ∧ b < a + n then 0 else readByte s b := by
  unfold readByte zeroBytes memGet
  rw [assocGet_filter _ (fun k => !(decide (a ≤ k) && decide (k < a + n))) (fun _ => rfl)]
  by_cases h : a ≤ b ∧ b < a + n
  · simp [h, memDefault]
  · rw [if_neg h, if_pos]
    simp only [Bool.not_eq_true', Bool.and_eq_false_iff, decide_eq_false_iff_not]
    omega

end Sys2Proof.Machine
end

