-- ==== Sys2Proof/Laws/Units.lean ====
section
/-! SUPPORT. The units of the state that are found by a key (ports, mailboxes, destinations, sources, connections, groups,
instances, rings): what is written is what is read, another key reads as before, and nothing else of the state changes. -/

namespace Sys2Proof.Machine

theorem find_replaced {α : Type} (k : α → Nat) (l : List α) (x : α) : (l.filter (k · != k x) ++ [x]).find? (k · = k x) = some x := by
  rw [List.find?_append, List.find?_eq_none.2 fun y hy => ?_]
  · simp
  · simpa using (List.mem_filter.1 hy).2

theorem find_other {α : Type} (k : α → Nat) (l : List α) (x : α) {n : Nat} (h : n ≠ k x) :
    (l.filter (k · != k x) ++ [x]).find? (k · = n) = l.find? (k · = n) := by
  induction l with
  | nil => simp [Ne.symm h]
  | cons y l ih =>
    by_cases hy : k y = n
    · simp [hy, h]
    · by_cases hx : k y = k x
      · simpa [hx, Ne.symm h] using ih
      · simpa [hx, hy] using ih

theorem find_mapped {α : Type} (k : α → Nat) (l : List α) (x : α) (h : (l.find? (k · = k x)).isSome = true) :
    (l.map fun y => if k y = k x then x else y).find? (k · = k x) = some x := by
  induction l with
  | nil => simp at h
  | cons y l ih =>
    by_cases hy : k y = k x
    · simp [hy]
    · rw [List.find?_cons_of_neg (by simpa using hy)] at h
      simpa [hy] using ih h

/-! ## Ports and mailboxes -/

theorem portAt_setPort {s : State} {p : Nat} (h : p < s.ports.length) (x : PortSt) : portAt (setPort s p x) p = x := by
  simp [portAt, setPort, List.getD_eq_getElem?_getD, h]

theorem portAt_setPort_ne {p q : Nat} (h : p ≠ q) (s : State) (x : PortSt) : portAt (setPort s p x) q = portAt s q := by
  simp [portAt, setPort, List.getD_eq_getElem?_getD, List.getElem?_set_ne h]

theorem mbxAt_setMbx {s : State} {m : Nat} (h : m < s.mbx.length) (x : Mailbox) : mbxAt (setMbx s m x) m = x := by
  simp [mbxAt, setMbx, List.getD_eq_getElem?_getD, h]

theorem mbxAt_setMbx_ne {m n : Nat} (h : m ≠ n) (s : State) (x : Mailbox) : mbxAt (setMbx s m x) n = mbxAt s n := by
  simp [mbxAt, setMbx, List.getD_eq_getElem?_getD, List.getElem?_set_ne h]

/-- What leaves on a port goes to the log of outputs, or stands behind a pause of its port, and changes nothing else. -/
theorem portEmit_frame (s : State) (p q : Nat) (o : Out) :
    portEmit s p q o = { s with ports := (portEmit s p q o).ports, egress := (portEmit s p q o).egress } := by
  unfold portEmit; split <;> rfl

theorem portEmit_free {s : State} {p q : Nat} (h : pausedAt s p q = false) (o : Out) : portEmit s p q o = emit s o := by
  simp [portEmit, h]

theorem portEmit_paused {s : State} {p q : Nat} (h : pausedAt s p q = true) (o : Out) : (portEmit s p q o).egress = s.egress := by
  simp [portEmit, h, setPort]

/-! ## The line protocol -/

theorem dstAt_setDst (s : State) (d : TxDst) : dstAt (setDst s d) d.node = d := by
  simp [dstAt, setDst, find_replaced TxDst.node]

theorem setDst_find {s : State} {d : TxDst} {n : Nat} (h : n ≠ d.node) :
    (setDst s d).ylp.tx.find? (·.node = n) = s.ylp.tx.find? (·.node = n) := find_other TxDst.node _ _ h

theorem rxAt_setRx (s : State) (r : RxSrc) : rxAt (setRx s r) r.node = some r := find_replaced RxSrc.node _ _

theorem rxAt_setRx_ne {s : State} {r : RxSrc} {n : Nat} (h : n ≠ r.node) : rxAt (setRx s r) n = rxAt s n :=
  find_other RxSrc.node _ _ h

theorem setDst_frame (s : State) (d : TxDst) : setDst s d = { s with ylp := (setDst s d).ylp } := rfl

theorem setRx_frame (s : State) (r : RxSrc) : setRx s r = { s with ylp := (setRx s r).ylp } := rfl

theorem connAt_setConn {s : State} {c : Conn} (h : (connAt s c.index).isSome = true) : connAt (setConn s c) c.index = some c :=
  find_mapped Conn.index _ _ h

/-! ## Collectives and rings -/

theorem groupAt_setGroupEntry (s : State) (g : Group) : groupAt (setGroupEntry s g) g.index = some g :=
  find_replaced Group.index _ _

theorem groupAt_setGroupEntry_ne {s : State} {g : Group} {n : Nat} (h : n ≠ g.index) :
    groupAt (setGroupEntry s g) n = groupAt s n := find_other Group.index _ _ h

theorem instOf_setInst (s : State) (x : Inst) : instOf (setInst s x) x.group = some x := find_replaced Inst.group _ _

theorem instOf_setInst_ne {s : State} {x : Inst} {n : Nat} (h : n ≠ x.group) : instOf (setInst s x) n = instOf s n :=
  find_other Inst.group _ _ h

theorem instOf_dropInst (s : State) (n : Nat) : instOf (dropInst s n) n = none := by
  simp [instOf, dropInst, List.find?_eq_none]

theorem setInst_frame (s : State) (x : Inst) : setInst s x = { s with coll := (setInst s x).coll } := rfl

theorem setGroupEntry_frame (s : State) (g : Group) : setGroupEntry s g = { s with coll := (setGroupEntry s g).coll } := rfl

theorem ringOf_setRing {s : State} {r : Ring} (h : (ringOf s r.index).isSome = true) : ringOf (setRing s r) r.index = some r :=
  find_mapped Ring.index _ _ h

end Sys2Proof.Machine
end

