-- ==== Sys2Proof/Tests/Slice0.lean ====
section
/-! SUPPORT. Tests: what WellFormed refuses, single steps with results computed by hand from the spec, and for each
statement of the obligations states and operands that meet the hypotheses of each of its clauses. -/

namespace Sys2Proof.Tests

open Sys2Proof Sys2Proof.Machine

-- One theorem at a time: each evaluates in the kernel, and all at once would take their memory together.
set_option Elab.async false

/-! ## WellFormed refuses -/

/-- Fields that are all 0. -/
def fz : Fields := { pneg := false, pred := 0, sigen := false, sigc := 0, mod := 0, d := 0, a := 0, b := 0, c := 0, sub := 0, imm := 0 }

/-- A frame with a payload of `n` bytes. -/
def frameOf (n : Nat) : YlpFrame :=
  { ver := 1, kind := 0, op := 1, epoch := 0, flags := 0, src := 0, dst := 0, seq := 0, lines := 0, ack := 0, status := 0, subop := 0
    addr := 0, mask := 0, tag := 0, rcount := 0, rtag0 := 0, rtag1 := 0, payload := List.replicate n 0, icrc := 0 }

def packetOf (n : Nat) : RocePkt := 
  { dqpn := 0x104, psn := 2, vaddr := 0x8000, rkey := 0, dmaLen := 0, payload := List.replicate n 0, ecnCe := false, icrcOk := true }

theorem test_wf_read_misaligned : Instr.wellFormed (.lineRead .smith 4 1 0) = false := by decide +kernel

theorem test_wf_read_past_line : Instr.wellFormed (.lineRead .smith 120 2 0) = false := by decide +kernel

theorem test_wf_read_admitted : Instr.wellFormed (.lineRead .smith 120 1 0) = true := by decide +kernel

theorem test_wf_write_short : Instr.wellFormed (.lineWrite .smith 128 0 [1]) = false := by decide +kernel

theorem test_wf_write_misaligned : Instr.wellFormed (.lineWrite .smith 8 0 (List.replicate 16 1)) = false := by decide +kernel

theorem test_wf_atomic_op : Instr.wellFormed (.crucibleAtomic .smith 10 8 1 1) = false := by decide +kernel

theorem test_wf_atomic_misaligned : Instr.wellFormed (.crucibleAtomic .smith 9 4 1 1) = false := by decide +kernel

theorem test_wf_reduction_op : Instr.wellFormed (.crucibleReduction .smith 5 0 [1]) = false := by decide +kernel

theorem test_wf_reduction_past_line : Instr.wellFormed (.crucibleReduction .smith 4 120 [1, 2]) = false := by decide +kernel

theorem test_wf_window_read : Instr.wellFormed (.windowAccess .smith 0 (.read 17) false) = false := by decide +kernel

theorem test_wf_window_write : Instr.wellFormed (.windowAccess .smith 0 (.write []) false) = false := by decide +kernel

theorem test_wf_window_atomic : Instr.wellFormed (.windowAccess .smith 1 .atomic false) = false := by decide +kernel

theorem test_wf_frame_long : Instr.wellFormed (.ylpRead 3 (frameOf 1025)) = false := by decide +kernel

theorem test_wf_frame_longest : Instr.wellFormed (.ylpRead 3 (frameOf 1024)) = true := by decide +kernel

theorem test_wf_packet_long : Instr.wellFormed (.roceSend 3 (packetOf 4097)) = false := by decide +kernel

theorem test_wf_reset_long : Instr.wellFormed (.resetFrame 3 { payload := List.replicate 4097 0 }) = false := by decide +kernel

theorem test_wf_training_long : Instr.wellFormed (.dramTrainingComplete (List.replicate 2049 ⟨1, 1, 1, 1, 1, 1, 1, 1, 1⟩)) = false := by decide +kernel

theorem test_wf_training_untried : Instr.wellFormed (.dramTrainingComplete [⟨1, 1, 1, 1, 1, 1, 1, 1, 0⟩]) = false := by decide +kernel

theorem test_wf_margin_wide : Instr.wellFormed (.marginRerunComplete ⟨65, 1, 1, 1, 1, 1, 1, 1, 1⟩) = false := by decide +kernel

theorem test_wf_window_without_slack : Instr.wellFormed (.measurementWindowComplete 0 []) = false := by decide +kernel

theorem test_wf_weld_without_slack : Instr.wellFormed (.weldMeasurement 0 []) = false := by decide +kernel

theorem test_wf_yield_if_bit : Instr.wellFormed (.yieldIf 0 0 { fz with mod := 1 }) = false := by decide +kernel

theorem test_wf_yield_now_bit : Instr.wellFormed (.yieldNow 0 0 fz) = false := by decide +kernel

theorem test_wf_fcoll_bits : (Instr.fcollReduceScatter 0 0 { fz with mod := 8 }).wellFormed = false ∧
    (Instr.fcollAllGather 0 0 fz).wellFormed = false ∧ (Instr.fcollAllReduce 0 0 fz).wellFormed = false ∧
    (Instr.fcollBroadcast 0 0 fz).wellFormed = false ∧ (Instr.fcollStepEnd 0 0 fz).wellFormed = false := by decide +kernel

/-! ## Small states -/

/-- Register fields, MOD, SUB and IMM. -/
def fr (d a b c : BitVec 6) (mod : BitVec 7 := 0) (sub : BitVec 16 := 0) (imm : BitVec 64 := 0) : Fields :=
  { fz with mod := mod, d := d, a := a, b := b, c := c, sub := sub, imm := imm }
/-- A false predicate. -/
def fOff : Fields := { fz with pneg := true }
def c0 : CoreId := 0
def k0 : CtxId := 0
def p3 : PortId := 3
def h0 : HearthId := 0
def smith : BitVec 8 := 1
/-- A core set up by `f`. -/
def withCore (s : State) (f : Core → Core) : State := modCore s 0 f
/-- Core 0 runs a context. -/
def s0 : State := withCore .reset fun c => { c with ctx0 := { Ctx.reset with stat := .running } }
/-- A full loop stack, and counters at their end. -/
def sFull : State := withCore .reset fun c =>
  { c with ctx0 := { Ctx.reset with stat := .running, loops := List.replicate 8 ⟨1, 16, 32⟩ }
           g := List.replicate 32 1, sc := List.replicate 16 0xFFFFFFFF }
/-- An entry of a queue. -/
def entryOp (op : Nat) (f : Fields) : QEntry :=
  { qid := 0, op := op, f := f, pc := 0, ctx := 0, off := false, ga := 0, gb := 0, gc := 0, gd := 0
    started := false, finished := false, high := [], awaits := 0, ecc := false, buf := [], begun := 0, ended := 0, pos := 0 }

/-! ### Control instructions -/
def fSetp : Fields := fr 7 1 2 0 (mod := 0x28)
def fPlog : Fields := fr 7 7 7 0 (mod := 0x18)
def fAlu : Fields := fr 31 1 0 0 (mod := 0x60) (imm := 5)
def fLoop : Fields := fr 0 1 0 0 (imm := 0x1FFFF0)
def fOdd : Fields := fr 0 0 0 0 (imm := 4)
def fFence : Fields := fr 0 0 0 0 (mod := 0x08)
def fWrreg : Fields := fr 0 0 1 0 (imm := 0x40)
def k1 : CtxId := 1

/-! ### SIGNAL and WAIT -/
def fSig : Fields := fr 0 0 0 0 (sub := 0x00F0) (imm := 5)
def fSigV : Fields := fr 0 0 0 0 (sub := 0x4070) (imm := 1)

/-! ### The vector engine -/
/-- Core store of core 0 with rows of 4 elements: Q16 at 0, Q32 at 0x100, and the operands of the other instructions. -/
def vecMem (s : State) : State :=
  let w := fun (t : State) (p : Nat × Nat) => writeWord t (csBase 0 + p.1) (w64 p.2)
  ([(0, 0x0004000300020001), (8, 0x31000), (0x100, 0x0000000200000001), (0x108, 0x0000000400000003), (0x110, 0x32000),
    (0x1000, 0x0AC7), (0x2000, 0x10 * 2 ^ 56 + 3 * 2 ^ 18), (0x2008, 0x3000), (0x4000, 0x0A54 * 2 ^ 48), (0x4308, 0),
    (0x4300, 2 ^ 16)] ++ (List.range 64).map fun k => (0x1040 + 32 * k, k)).foldl w s
def vecRegs : List Word64 :=
  [0, 0, 0x100, 0x10003, 0x20003, 0x1000, 0x2000, 0x4000, 0x4100, 0x4200, 0x4300, 0x5000, 0x4400, 0, 0x100000]
def vWide (n : Int) : VReg := mkVreg true 0 false (List.replicate 128 n)
/-- Core 0 with a grant for its vector engine; v8 and v9 are wide, v10 and v11 raw. -/
def sVec : State := withCore (vecMem s0) fun c =>
  { c with g := vecRegs ++ List.replicate 17 0, veGrant := true
           v := ((((c.v.set 0 (mkVreg false 1 false (List.replicate 256 (-3)))).set 8 (vWide 7)).set 9 (vWide 1)).set 10
             ⟨List.replicate 256 1, 0, false, true⟩).set 11 ⟨List.replicate 256 2, 0, false, true⟩
           upd := [(0x4400, [w64 0, w64 0, w64 0, w64 0])] }
def fV : Fields := fr 2 0 1 0
def fVmix : Fields := fr 2 0 10 0
def fWide : Fields := fr 12 8 9 0
def fResc : Fields := fr 2 0 0 0 (imm := 2)
def fWiden : Fields := fr 62 0 0 0 (mod := 1)
def fNarrow : Fields := fr 63 8 0 0 (mod := 1) (sub := 0x0400)
def fAct : Fields := fr 2 0 5 0
def fVld : Fields := fr 2 1 0 3
def fVcvt : Fields := fr 0 1 11 3 (sub := 0x80)
def fVqnt : Fields := fr 0 6 0 0
def fVumu : Fields := fr 9 7 8 0
def fVupd : Fields := fr 10 2 1 11
def fVupd2 : Fields := fr 12 2 1 11
def fVgacc : Fields := fr 0 0 1 13
def fVmark : Fields := fr 0 14 0 0

/-! ### The anvils -/
/-- The sets of anvil 0 hold tags 0 and 1, running and finished; anvil 1's active set is empty. -/
def sTile : State := withCore s0 fun c =>
  { c with anvils := c.anvils.set 0 { Anvil.reset with
      active := { AccSet.cleared with st := .running }, shadow := { AccSet.cleared with st := .finished, tag := 1 } } }
def fAnv1 : Fields := fr 0 0 0 0 (mod := 0x10)

/-! ### Waits, yields and completion -/
def heldSeq : Held := ⟨.seq 0, 3, 2, 0, 0, false, 0, 0x40, 0⟩
/-- A WAIT of context 0 is held, on a counter that has room. -/
def sHeld : State := withCore s0 fun c =>
  { c with ctx0 := { Ctx.reset with stat := .held, hold := .wait }, heldWaits := [heldSeq], sc := c.sc.set 3 5 }
def sHeldLate : State := { putF sHeld (CORE_SEQCTL 0) CORE_SEQCTL_WAIT_LIM 1 with time := ⟨1000001, 0, 0, false⟩ }
def sFenced : State := withCore s0 fun c => { c with ctx0 := { Ctx.reset with stat := .held, hold := .fence 2 true 3 } }
def sFenceShut : State := withCore sFenced fun c => { c with vec := [entryOp 0x4E fz] }
def sDone : State := withCore s0 fun c => { c with ctx0 := { Ctx.reset with stat := .held, hold := .done false 0 } }
/-- Save areas that fit, and two free save slots in hearth 0. -/
def savable (s : State) : State := putF (putF (putF s (CORE_SAVEBASE 0) CORE_SAVEBASE_BASE 0) (CORE_SEQSAVE 0)
  CORE_SEQSAVE_BASE (0x30000 / 128)) (HCH_SPOOL_N 0) HCH_SPOOL_N_SLOTS 2
def tk0 : Task := ⟨List.replicate 32 0, none, none, none, 0, none, 1, false, [], []⟩
def sYield : State := withCore (savable s0) fun c => { c with preq := some 0, task := some tk0 }
/-- A domain leaves, and its core's task has not yet come to a yield point. -/
def sLeaving : State := setDomState (withCore (putF (putF s0 (CORE_TILECTL 0) CORE_TILECTL_LEAVE_POLICY 1)
  (CORE_SEQCTL 0) CORE_SEQCTL_YIELD_WAIT 5) fun c => { c with task := some tk0 }) 0 1
/-- A dispatcher's request stands for longer than YIELD_WAIT; its only context stands at a YIELD.IF. -/
def sAsked : State := { withCore sLeaving fun c => { c with preq := some 0 } with time := ⟨6000, 0, 0, false⟩ }
/-- An entry that has done its part, and signals counter 3. -/
def doneEntry (op : Nat) (f : Fields) (off : Bool := false) (buf : List (Nat × List Byte) := []) : QEntry :=
  { entryOp op f with started := true, finished := true, off := off, buf := buf, ga := 0x100, gb := 0x100 }
def sOffDone : State := withCore s0 fun c => { c with fab := [doneEntry 0xA1 fz true] }
def fabDone (op : Nat) (f : Fields) (buf : List (Nat × List Byte)) : State :=
  withCore s0 fun c => { c with fab := [doneEntry op f false buf] }
def sGot : State := fabDone 0xA1 (fr 0 0 0 0 (mod := 2) (imm := 4)) [(0, [1, 2, 3, 4])]
def sGathered : State := fabDone 0xA5 (fr 0 0 0 0) [(0, [1, 2, 3, 4])]
def sAtomDone : State := fabDone 0xA3 (fr 7 0 0 0) [(0, [1, 2, 3, 4, 0, 0, 0, 0])]
/-- Core 0 saves its task to slot 0 of hearth 0. -/
def sSaving : State := withCore (savable s0) fun c =>
  { c with ctx0 := { Ctx.reset with stat := .saving, pc := 0x40 }, task := some { tk0 with slot := some 0 }
           g := List.replicate 31 7 ++ [9] }
/-- Core 0 restores the task that stands in slot 0 of hearth 0. -/
def savedSlot (s : State) : State :=
  (List.range 4).foldl (fun t a => writeWord (writeWord t (0x6380 * a) (w64 (0x0A51 * 2 ^ 48))) (0x6380 * a + 16)
    (w64 (2 ^ 64 - 1))) (writeWord s 101888 (w64 (0x0A52 * 2 ^ 48)))
def sRestoring : State := withCore (savedSlot (savable s0)) fun c =>
  { c with ctx0 := { Ctx.reset with stat := .restoring }, task := some { tk0 with slot := some 0 } }

/-! ### Moves and the fabric -/
def grp (idx : Nat) (nodes : List Nat) : Group :=
  { index := idx, gen := 0, rank := 0, nodes := nodes, conns := [], stage := 0, nextInst := 5, outq := [], sent := []
    returned := [], taken := [], last := none, aborted := [] }
def conn4 : Conn :=
  { index := 4, entry := [], error := false, port := 3, spsn := 9, epsn := 2, rate := 1, lastCut := none, lastCnp := none
    lastUp := 0, ops := [], waitq := [], retries := 0, sentAt := 0, wrPtr := 0, wrLeft := 0 }
/-- Core store and DRAM with the operands of the moves, the collectives and a snapshot plan. -/
def fabMem (s : State) : State :=
  let w := fun (t : State) (p : Nat × Nat) => writeWord t p.1 (w64 p.2)
  let cs := csBase 0
  ([(cs + 0x100, 0x1122334455667788), (cs + 0x108, 3), (cs + 0x110, 4), (cs + 0x118, 5), (cs + 0x300, 0x8000), (cs + 0x308, 0x8080), (0x8000, 0x0C63 * 2 ^ 48 + 1),
    (cs + 0x500, 0x0C62 * 2 ^ 48 + 7 * 2 ^ 32 + 2 ^ 28), (cs + 0x508, 16), (cs + 0x510, 0x8000), (cs + 0x518, 0xA000),
    (cs + 0x540, 0x0C62 * 2 ^ 48 + 7 * 2 ^ 32 + 4 * 2 ^ 28), (cs + 0x548, 16), (cs + 0x550, 0x8000), (cs + 0x558, 0xA000),
    (cs + 0x580, 0x0C62 * 2 ^ 48 + 8 * 2 ^ 32), (cs + 0x590, 0x8000),
    (0x9000, 0x0C64 * 2 ^ 48 + 2 ^ 32 + 0xFFFF0000), (0x9010, 2 ^ 30), (0x9040, 0x8000), (0x9048, 128)]).foldl w s
def fabOperands : List Word64 :=
  [0, 0x100, 0x8008, 0x200000010, 0x1000000008000, 0x200, 0x300, 0x500, 0x540, 0x580, 0x1000].map (BitVec.ofNat 64)
def sFab : State :=
  let s := withCore (fabMem s0) fun c => { c with g := fabOperands ++ List.replicate 21 0 }
  let s := putF (setPair s COL_SNAP_BASE_LO COL_SNAP_BASE_HI 0x9000) FAB_NODE FAB_NODE_NODE 0
  let s := putF s (PRT_STATUS 3) PRT_STATUS_LINK_UP 1
  { s with coll := { s.coll with groups := [grp 7 [0], grp 8 [0, 1]] }, conns := [conn4] }
/-- A fabric instruction of the device is outstanding. -/
def sFabBusy : State := { sFab with conns := [{ conn4 with ops := [⟨8, .send, .insn 0 .fab 0, 4, 0, 0, [], 1, 0⟩] }] }
def fCopy : Fields := fr 0 1 5 3 (mod := 0x0A) (imm := 0x1000000010)
def fFill : Fields := fr 0 0 5 3 (mod := 0x02) (imm := 0xDEADBEEF01234567)
def fPut : Fields := fr 0 1 2 0 (mod := 0x02) (imm := 16)
def fPutN : Fields := fr 0 1 4 0 (mod := 0x02) (imm := 0x1000)
def fAtom : Fields := fr 9 2 1 6
def fRedu : Fields := fr 0 1 2 0 (mod := 0x20) (imm := 16)
def fGath : Fields := fr 0 6 10 0 (imm := 2)
def fSend : Fields := fr 0 1 0 0 (sub := 4) (imm := 12)
def fC (a : BitVec 6) : Fields := fr 0 a 0 0
def fBar (n : BitVec 16) : Fields := fr 0 0 0 0 (sub := n)

/-! ### Anvil operations -/
def addWord (a v : Nat) (s : State) : State := writeWord s (csBase 0 + a) (w64 v)
/-- Core 0 is On, with a pass descriptor at 0x6000 of core store over the Q16 row at 0. -/
def sOn : State := addWord 0x6020 (3 * 2 ^ 52 + 2 * 2 ^ 26) (setDomState (vecMem s0) 0 0)
def anvOf (x : Anvil) (es : List QEntry) (run : Option PassRun := none) : State :=
  withCore sOn fun c => { c with anvils := c.anvils.set 0 x, anv0 := es, pass0 := run }
def eZero : QEntry := entryOp 0x20 (fr 0 0 0 0 (mod := 0x08) (sub := 0x0700))
def eLoad : QEntry := entryOp 0x21 (fr 0 0 0 0 (mod := 0x0C) (sub := 0x0700))
def eSwap : QEntry := entryOp 0x22 (fr 0 0 0 0 (mod := 0x08))
def ePass : QEntry := { entryOp 0x23 (fr 0 0 0 0 (mod := 0x08) (sub := 0x10)) with ga := 0x6000 }
def eDrain : QEntry := { entryOp 0x24 (fr 0 0 0 0 (mod := 0x0A) (sub := 0x0100) (imm := 0x20800000000)) with ga := 0x8000 }
def eBegun : QEntry := { eLoad with begun := 1, started := true }
def eDrainBegun : QEntry := { eDrain with begun := 1, started := true }
/-- Anvil 0 holds tag 0, running, and tag 1, finished. -/
def aTile : Anvil := { Anvil.reset with
  active := { AccSet.cleared with st := .running }, shadow := { AccSet.cleared with st := .finished, tag := 1 }, ramp := .full }
def run0 : PassRun := ⟨0, 0, 1, 0x10, 0, 0, 0, 0, 0, 4, 0, 2, false, 0x40, 0⟩
def drun (dest : DrainDest) (left : Nat) (handed : List Nat) (desc : List Word64) : DrainRun :=
  ⟨1, dest, .none, left, 0, true, desc, handed, { AccSet.cleared with st := .finished, tag := 1 }⟩
/-- Fused output of Q16 rows of 4 elements at 0x9000, from column block 0 or 1. -/
def fdesc (blk : Nat) : List Word64 :=
  [w64 (0x10 * 2 ^ 56 + 3 * 2 ^ 36 + blk * 2 ^ 30), w64 0x9000, w64 (0x10 * 2 ^ 32), 0, 0, 0, 0, 0]
def aDrain (d : DrainRun) : Anvil := { aTile with drain := some d }
def q16Row (qs : List Int) : RowVal := ⟨0x10, 0, false, qs, [], [], 0⟩

/-- A row that a fused drain has left at 0x9000, at the floor. -/
def sFloor (n : Int) : State := writeBytes sOn (csBase 0 + 0x9000) (encodeRow 0x10 false (-127) [n, 2, 3, 4] [] [])
def fdFloor : FusedDesc := { fusedDescOf (fdesc 0) with len := 4 }

/-! ### Domains, trim and tasks -/
def u0 : DomId := 0
def domSet (s : State) (f : Domain → Domain) : State := setDomain s 0 (f (domainAt s 0))
/-- All domains On. -/
def sAllOn : State := setR State.reset DEV_DOM_STATE 0
/-- Only domain 0 is On: hearths 0 to 7 would be left with no core in service. -/
def sOneOn : State := setDomState .reset 0 0
def sOffDom : State := .reset
def sMoving : State := domSet sAllOn fun d => { d with target := some .off }
def sLeft (c : DomCmd) : State := setDomState (domSet sAllOn fun d => { d with target := some c }) 0 1
def sClearing : State := domSet sAllOn fun d => { d with clearing := true }
def sTesting : State := setDomState (domSet sAllOn fun d => { d with testing := true }) 0 3
def sOldWindow : State := { sAllOn with time := ⟨60000000000, 0, 0, false⟩ }
def sWindow : State := domSet sAllOn fun d => { d with window := some false }
def sWeld : State := { State.reset with weld := { State.reset.weld with up := true, dir0 := { State.reset.weld.dir0 with code := 4 } } }
def sWeldWorn : State := { State.reset with weld := { State.reset.weld with up := true, dir0 := { State.reset.weld.dir0 with fails := 15 } } }
def sTrimDue (now : Nat) : State :=
  { State.reset with boot := { Boot.reset with trimDirty := true, trimAt := some 0 }, time := ⟨now, 0, 0, false⟩ }
def sRetire (held : Bool) : State := withCore sAllOn fun c =>
  { c with retireDue := some 1, task := if held then some tk0 else none }
/-- A task record of type 0x0A53 with its entry point, and its task for hearth 0. -/
def tk1 : Task := ⟨[w64 (0x0A53 * 2 ^ 48), 5, w64 0x400, 0, 0, 0, 0, 0], some 3, none, none, 0, none, 1, false, [], []⟩
def sReady : State :=
  let s := modHearth sAllOn 0 fun h => { h with ready := [tk1] }
  putF (putF s (CORE_SAVEBASE 0) CORE_SAVEBASE_BASE 100) (CORE_SEQSAVE 0) CORE_SEQSAVE_BASE 2000
def tkM : Task := { tk1 with mbox := some 3, entry := none }
def sReadyM : State :=
  setMbx (modHearth sReady 0 fun h => { h with ready := [tkM] }) 3 { (mbxAt sReady 3) with fullAt := some 0 }
def sPartDone (t : Task) : State :=
  withCore (modHearth sAllOn 0 fun h => { h with out := [⟨3, 2, false⟩] }) fun c =>
    { c with task := some t, ctx0 := { Ctx.reset with partDone := true } }
def sEnded (e : TaskEnd) : State := withCore sAllOn fun c => { c with task := some tk1, ended := some e }
def sTagLive : State := withCore State.reset fun c => { c with anvils := c.anvils.set 0 aTile }
def tk3 : Task := { tk1 with parts := 3 }

/-! ### The schedule -/
/-- A job whose list has a forward, a backward and the step-end entry, all for hearth 0. -/
def job0 : Job :=
  { desc := [0, 0, 0, 0, w64 (2 ^ 48 + 2 ^ 32 + 8), w64 0x26000, w64 0x20000, w64 0x21000, 0, 0, w64 0x25000, 0, 0, 0, w64 1]
    stat := .running, step := 4, item := none, endItem := none, fwdWide := [], agWide := [], clean := [], vector := []
    dramRes := 0, csRes := 0, ratio := false, widenDue := false, relItem := none, stepEnd := 0, skipUpdate := false
    started := true, idleRep := false, payload := [], peaks := [], piths := [], vecAt := 0, inputs := [] }
def putWords (s : State) (ws : List (Nat × Nat)) : State := ws.foldl (fun t p => writeWord t p.1 (w64 p.2)) s
/-- The list, the phase descriptors and the task record; `arr` is the arrival word and `nxt` the word of the next phase. -/
def sJob (arr nxt : Nat) (f : Job → Job := id) : State :=
  { putWords sAllOn [(0x20000, 3), (0x20008, 2 ^ 62), (0x20010, 2 ^ 31), (0x21000, 0x22000), (0x21008, 2 ^ 32 + 1), (0x21010, 0x23000),
      (0x21018, nxt), (0x21100, 0x22000), (0x21108, 2 ^ 32 + 1), (0x21110, 0x23800), (0x21200, 0x22000), (0x21208, 2 ^ 32),
      (0x22000, 0x0A53 * 2 ^ 48), (0x23000, arr)]
    with job := some (f job0), coll := { State.reset.coll with groups := [grp 8 [0, 1]] } }
def atWalk (s : State) (n : Nat) (out : List EntryRun) : State :=
  { s with hearths := s.hearths.map fun h => { h with walk := n, out := out } }
def sStalled (now : Nat) (st : Bool) : State :=
  { modHearth (sJob 0 0) 0 fun h => { h with heldSince := some 0, stalled := st } with time := ⟨now, 0, 0, false⟩ }
/-- The result of the step end stands. -/
def sResult (w : Nat) (f : Job → Job := id) : State := sJob 0 0 fun j => f { j with stepEnd := 2, payload := [0, 0, w64 w] }
def sHold (w : Nat) : State := sResult w fun j => { j with stepEnd := 3 }

/-! ### Memory -/
def sMem : State := putWords sAllOn [(0x8000, 0x0123456789ABCDEF), (0x8008, 0xFFFFFFFF80000000), (csBase 0 + 8, 5)]
def sPoison : State := { sMem with memctl := { sMem.memctl with poison := [0x8000] } }
def rgn (r : Region) : State := { sMem with memctl := { sMem.memctl with regions := [r] } }
def sRerun : State := { sMem with memctl := { sMem.memctl with rerun := some 5 } }
def sRerunning : State := { sMem with memctl := { sMem.memctl with rerunning := some 5, margins := [(5, ⟨1, 2, 3, 4, 5, 6, 7, 8, 1⟩)] } }
def goodMargin : MarginResult := ⟨20, 16, 18, 14, 3, 4, 5, 6, 1⟩
def badMargin : MarginResult := ⟨19, 16, 18, 14, 3, 4, 5, 6, 1⟩
def sTraining : State := putF sPoison MEM_STATUS MEM_STATUS_TRAINING 1

/-! ### Ports, the line protocol and RoCEv2 -/
/-- A protection set-up whose window 0 admits every access by YLP and, under key 0, by RoCEv2, with open mailboxes. -/
def prot0 : List Byte := List.replicate 0x40 0 ++ leBytes 8 (2 ^ 64 - 1) ++ List.replicate 0x38 0 ++ leBytes 8 0 ++
  leBytes 8 (2 ^ 47) ++ leBytes 8 (15 * 2 ^ 32)
/-- Node 5, joined, with port 3 up and the member 9. -/
def sLink : State :=
  let s := putF (putF (putF sAllOn FAB_NODE FAB_NODE_NODE 5) FAB_NODE FAB_NODE_JOINED 1) (PRT_STATUS 3) PRT_STATUS_LINK_UP 1
  let s := putF s (PRT_CTL 3) PRT_CTL_ENABLE 1
  { putWords s [(0x8000, 0x0123456789ABCDEF), (0x8008, 0xFFFFFFFF80000000)] with
    boot := { s.boot with prot := prot0 }, ylp := { s.ylp with members := [(9, 0)], ingressCap := 65536 }, time := ⟨20000000, 0, 0, false⟩ }
def rx9 : RxSrc :=
  { node := 9, epoch := 0, expect := 4, acked := 4, open_ := [], done_ := [], lapsed := [], port := 3, count := 0, due := none }
def rxSt (r : RxSrc) : State := { sLink with ylp := { sLink.ylp with rx := [r] } }
def frame (kind op : Nat) (lines : Nat) (pay : List Byte) : YlpFrame :=
  { blankFrame .reset 5 kind op with src := 9, seq := 4, lines := BitVec.ofNat 8 lines, addr := 0x8000, payload := pay, ack := 2,
                                         eth := ylpEth sLink 5 3 }
def sealed (kind op : Nat) (lines : Nat) (pay : List Byte) : YlpFrame := sealFrame (frame kind op lines pay)
def line128 : List Byte := leBytes 8 7 ++ List.replicate 119 0 ++ [0x80]
def fRead : YlpFrame := sealed 0 0x01 2 []
def fWrite : YlpFrame := sealed 0 0x02 1 line128
def fMasked : YlpFrame := sealFrame { frame 0 0x03 1 line128 with mask := 0x8001 }
def fAtomic : YlpFrame := sealFrame { frame 0 0x04 0 (leBytes 8 3 ++ leBytes 8 0) with addr := 0x8008, tag := 6 }
def fReduce : YlpFrame := sealed 0 0x05 1 line128
def fFenceY : YlpFrame := sealed 0 0x06 0 []
def fProbe : YlpFrame := sealed 0 0x07 0 []
def fRetire : YlpFrame := sealFrame { frame 0 0x89 0 [] with rcount := 1, rtag0 := 6 }
def fDup : YlpFrame := sealFrame { frame 0 0x02 1 line128 with seq := 3 }
def sLinkDown : State := putF sLink (PRT_STATUS 3) PRT_STATUS_LINK_UP 0
def sPortOn : State := putF sAllOn (PRT_CTL 3) PRT_CTL_ENABLE 1
def sPfc : State := putF sLink (PRT_CTL 3) PRT_CTL_PFC_EN 0x20
def sTray : State := putF sLink (PRT_STATUS 1) PRT_STATUS_LINK_UP 1
/-- A request to node 9 of a kind, outstanding. -/
def req (op : Nat) (o : Owner) (dst : Nat) : TxReq := ⟨3, frame 0 op 1 [], o, 0, 0, dst, 8, 16, false⟩
def dst9 (rs : List TxReq) : TxDst :=
  { newDst sLink 9 with next := 4, acked := 3, unacked := rs }
def txSt (d : TxDst) : State := { sLink with ylp := { sLink.ylp with tx := [d] } }
/-- The tongs of core 0 wait for a reply. -/
def withTongs (s : State) : State := withCore s fun c => { c with tongs := [{ entryOp 0x80 fz with started := true, awaits := 1 }] }
def rep (op : Nat) (lines : Nat) (pay : List Byte) (f : YlpFrame → YlpFrame := id) : YlpFrame :=
  sealFrame (f { frame 1 op lines pay with seq := 3 })
def fData : YlpFrame := rep 0x81 1 line128
def fResult : YlpFrame := rep 0x84 0 (leBytes 16 7)
def fResultBusy : YlpFrame := rep 0x84 0 (leBytes 16 7) fun f => { f with status := 5 }
def fBusy : YlpFrame := rep 0x88 0 []
def fNosync : YlpFrame := rep 0x8A 0 [] fun f => { f with status := 6 }
def fRefuse : YlpFrame := rep 0x8A 0 [] fun f => { f with status := 3 }
def fAck : YlpFrame := rep 0x82 0 [] fun f => { f with ack := 3 }
def fProbeAck : YlpFrame := rep 0x87 0 []

/-- Node 9's requests have run, and an acknowledgement is owed. -/
def rx9o : RxSrc := { rx9 with expect := 5, open_ := [⟨4, 2, 0, 3, 5, 128⟩] }
def rx9d : RxSrc := { rx9 with due := some 0, count := 3 }
def req3 : TxReq := req 0x02 .line 0
def dBusy : TxDst := { dst9 [req3] with busy := some (3, 0) }
def dFailed : TxDst := { dst9 [] with failed := 2 }
def dRetire : TxDst := { dst9 [] with retire := [6], retireAt := some 0 }
def fUnsealed : YlpFrame := { fWrite with icrc := 0 }
def conn3 : Conn := { conn4 with entry := [0, w64 (2 ^ 32), 0, 0, 0, 0, 0, 0], epsn := 2 }
def roceSt (c : Conn) : State :=
  let s := putF (putF (putF sLink (MBX_CFG 1) MBX_CFG_RKIND 1) CFG_COMMIT CFG_COMMIT_COMMITTED 1) MEM_CTL MEM_CTL_SCRUB_HRS 1
  { s with conns := [c], boot := { s.boot with step := 7 } }
def pkt (key : BitVec 32) (n : Nat) (pay : List Byte) (psn : BitVec 24 := 2) : RocePkt :=
  { dqpn := 0x104, psn := psn, vaddr := 0x8000, rkey := key, dmaLen := n, payload := pay, ecnCe := false, icrcOk := true
    eth := { ylpEth sLink 5 3 with etype := 0x0800 } }
def pktClass (k : RoceClass) : RocePkt := { pkt 0 4 [1, 2, 3, 4] with cls := k }
def op9 (k : RoceKind) : RoceOp := { psn := 9, kind := k, owner := .line, bytes := 4, local_ := 0x9000, remote := 0x40, data := [1, 2], pkts := 1 }
def connOps (k : RoceKind) : Conn := { conn3 with ops := [op9 k], spsn := 10 }
/-- The connection table at 0xA000 holds one good entry, entry 4, and no other. -/
def sConnTable : State :=
  let s := setPair sLink FAB_CONN_BASE_LO FAB_CONN_BASE_HI 0xA000
  putWords s [(0xA000 + 256, 2 ^ 63 + 3 * 2 ^ 51)]

/-! ### Collectives -/
def gr (rank : Nat) (nodes : List Nat) : Group := { grp 8 nodes with rank := rank, stage := 0x100000 }
def inst0 (op : CollOp) (own : Bool) (desc : List Word64 := []) : Inst :=
  { group := 8, num := 5, op := op, desc := desc, core := 0, qid := 0, own := own, kids := [], phase := 1, got := [], work := []
    ident := 0, since := 0, stalled := false }
/-- Group 8 with an instance, and a control line of a kind and rank in a slot. -/
def sColl (g : Group) (x : List Inst) (slot kind rank : Nat) (w1 : Nat := 0) (num : Nat := 5) : State :=
  let s := putWords sLink [(slotLine g slot, num * 2 ^ 32 + rank), (slotLine g slot + 8, w1), (slotLine g slot + 16, kind * 2 ^ 56),
    (slotData g slot, 0x1122), (slotData g slot + 8, 7), (creditLine g 1, 3)]
  putF { s with coll := { s.coll with groups := [g], insts := x } } COL_CTL COL_CTL_STALL_MS 1
def bdesc : List Word64 := [w64 (0x0C62 * 2 ^ 48 + 8 * 2 ^ 32 + 4 * 2 ^ 28), 16, w64 0xB000, w64 0xB000, 0, 0, 0, 0]
def g2 : Group := gr 1 [9, 5]
def g3 : Group := gr 0 [5, 9, 10]
def sBcast : State := sColl g2 [inst0 .broadcast true bdesc] 24 1 0 16
def sArrive (g : Group) : State := sColl g [inst0 .barrier true] 1 2 1
def sRelease : State := sColl g2 [inst0 .barrier true] 0 3 0
def sAbort : State := sColl g2 [inst0 .barrier true] 0 6 0
def sIdleGrp : State := sColl g2 [] 0 0 0
def sSnapCapt : State :=
  let s := sColl g3 [inst0 .snapshot false] 0 0 0
  { s with coll := { s.coll with capturing := true } }
/-- Storage has the whole snapshot area. -/
def sStreamed : State := { sLink with coll := { sLink.coll with stream := some ⟨4, 0x8000, 0x40, 128, 2, 0, 128⟩ } }
/-- Four slots of relation 1 have been written for rank 0. -/
def gSent : Group := { g2 with sent := [(relKey 1 0, 4)] }
def sCredit : State := sColl gSent [] 0 0 0
/-- The group table holds entry 8 for nodes 5 and 9, and an empty entry 9. -/
def sGrpTable : State :=
  let s := setPair sLink COL_GRP_BASE_LO COL_GRP_BASE_HI 0xC000
  putWords s [(0xC000 + 512, 0x0C61 * 2 ^ 48 + 2 ^ 32 + 2 * 2 ^ 15), (0xC000 + 528, 0xD000), (0xC000 + 536, 0xD040),
    (0xD000, 0x90005), (0xD040, 0xFFFFFFFF)]
def sResetGo : State := sColl g3 [] 0 4 0
def sResetIn (kids : List Nat) (g : Group) : State :=
  let s := sColl g [] 1 5 1 0 0xFFFFFFFF
  { s with coll := { s.coll with reset := some ⟨8, kids, true⟩ } }

/-! ### Work intake and mailboxes -/
def ring0 : Ring :=
  { index := 0, entry := [w64 (0x0D02 * 2 ^ 48 + 4 * 2 ^ 30), w64 0x10000, w64 0x1F000, w64 0x40000, 0, 0, 0, 0], stopped := false
    pseq := 0, ccons := 0, acc := 0, doneTo := 0, cseq := 0, next := 0, waitAt := none, unreported := 0, firstAt := 0 }
def itemWords (kind : Nat) (body : List Word64) : List Word64 :=
  padWords 48 ([w64 (0x0D01 * 2 ^ 48 + kind * 2 ^ 40), 0, 0, 0, 0, 0, 0, 0] ++ body)
def jent (st : JState) (kind : Nat := 6) (body : List Word64 := []) : JEntry :=
  { jseq := 7, ring := 0, st := st, status := 0, seq := 0, accTime := 0, doneStep := none, detail := 0, item := itemWords kind body
    mirrored := true, marked := false, markAcked := false, fin := false, posted := false, cslot := none }
/-- An item for slot 0 of ring 0, with its check word. -/
def slotItem : List Word64 := (itemWords 6 []).set 7 4246262975
def intake (s : State) (r : List Ring) (js : List JEntry) : State := { s with intake := ⟨r, js, 9, [], [], []⟩ }
/-- The engine runs, with a partner. -/
def sWork (r : Ring) (js : List JEntry) : State :=
  intake (putF (putF sLink WRK_CTL WRK_CTL_ENABLE 1) WRK_PARTNER WRK_PARTNER_VALID 1) [r] js
def sWorkHeld (r : Ring) (js : List JEntry) : State := intake sLink [r] js
def sSlot : State := writeWords (sWork ring0 []) 0x10000 slotItem
def slotWait : Ring := { ring0 with waitAt := some (0, 0), pseq := 1 }
def ringDone : Ring := { ring0 with acc := 1, unreported := 1 }
/-- The ring table holds entry 0 and, as entry 1, nothing. -/
def sRingTable : State :=
  let s := setPair sConnTable WRK_RING_BASE_LO WRK_RING_BASE_HI 0xE000
  { putWords s [(0xE000, 0x0D02 * 2 ^ 48 + 4 * 2 ^ 30), (0xE008, 0x10000), (0xE010, 0x1F000), (0xE018, 0x40000)] with conns := [conn3] }
def jobDesc (len : Nat) : List Word64 :=
  padWords 32 [w64 (0x0B10 * 2 ^ 48 + 2 ^ 32), 0, w64 (len * 2 ^ 32 + 2 ^ 16), w64 (2 ^ 56), w64 (2 ^ 48 + 8), w64 0x30000, w64 0x20000,
    w64 0x21000, 0, 0, w64 0x25000, w64 (2 ^ 40), w64 (2 ^ 62), 0, 0]
def sItem (f : Job → Job) (kind : Nat) (body : List Word64 := []) : State :=
  let s := sJob 0 0 f
  { intake s [ring0] [jent .running kind body] with coll := { s.coll with groups := [grp 8 [0, 1]] } }
def sItemNoJob (kind : Nat) (body : List Word64 := []) : State :=
  { writeWord (sItem id kind body) 0x30000 (w64 0x10FFFF) with job := none }
def mb (m : Fin 32) (f : Mailbox → Mailbox) (s : State) : State := { s with mbx := s.mbx.set m (f (mbxAt s m)) }
def sMbx : State :=
  let s := putF (putF sLink (MBX_CFG 3) MBX_CFG_RKIND 1) CFG_COMMIT CFG_COMMIT_COMMITTED 1
  { s with boot := { s.boot with step := 7 } }
def sLocked : State := mb 3 (fun x => { x with owner := 1 }) sMbx
def sFull3 : State := mb 3 (fun x => { x with owner := 1, fullAt := some 0 }) sMbx

/-! ### Survival -/
/-- A survival record with one candidate, node 9, and one extent of masters. -/
def planWords (tray : Nat) (x : Nat := 0) : List Word64 :=
  padWords 32 ([w64 (0x0E01 * 2 ^ 48 + tray * 2 ^ 32 + 8 * 2 ^ 16 + 4 * 2 ^ 6), w64 0x400000, w64 0x4000000,
    w64 (64 * 2 ^ 48 + 2 * 2 ^ 44), w64 (2 ^ 63 + 9 * 2 ^ 32 + 3 * 2 ^ 16), w64 0x8000000, 0, 0, 0, 0, 0, 0,
    w64 (2 ^ 62 * x + 0x200000 * x), w64 (0x200000 * x)] ++ List.replicate 14 0 ++ [w64 0x600000])
/-- The survival group with ranks for some nodes, and the registers of R355. -/
def survSt (nodes : List Nat) (f : Surv → Surv := id) : State :=
  let s := putF (putF (putF sLink SURV_TIMERS SURV_TIMERS_HB_LOSS 50) SURV_TIMERS SURV_TIMERS_HB_PERIOD 10) SURV_CTL SURV_CTL_HOLDOFF 1
  { s with coll := { s.coll with groups := [gr (nodes.idxOf 5) nodes] }, conns := [conn3]
           surv := f { s.surv with plan := planWords 2 } }
/-- The record stands in DRAM, for ARM. -/
def sPlan (tray : Nat) : State :=
  writeWords (setPair (survSt [5, 10] fun v => { v with plan := [] }) SURV_PLAN_LO SURV_PLAN_HI 0x30000) 0x30000 (planWords tray 1)
def sCopying : State := survSt [5, 9, 10] fun v => { v with partner := some (9, 0), copying := true }
def sCommit : State := putF (survSt [5, 9, 10] fun v => { v with partner := some (9, 0), commitDue := some 7 }) WRK_PARTNER WRK_PARTNER_VALID 1
def ward9 : Ward := ⟨9, 0x4000000, 0x300000, 24, [], []⟩
/-- A ward with one row of four values, and its commit of step 1. -/
def sWardCommit : State :=
  let s := putWords (survSt [5, 9, 10] fun v => { v with wards := [ward9] })
    [(0x300000, 0x0000000200000001), (0x300008, 0x0000000400000003), (0x300010, 0x32000), (0x7100000, 0x0000000100000001),
     (0x7100008, 0x0000000100000001), (0x7100010, 0x32000)]
  writeBytes s 0x4000080 (commitRecord 1 1 0)
def sAck : State := writeWord (survSt [5, 9, 10] fun v => { v with partner := some (9, 0), commitStep := some 3 }) 0x402000 (w64 3)
def sRow : State := { putWords (survSt [5, 9, 10]) [(0xA0000, 5)] with job := some job0 }
def sWatch : State := survSt [9, 10, 11, 5] fun v => { v with partner := some (9, 0), heard := [(9, 0)] }
def sLate : State := { sWatch with time := ⟨60000000, 0, 0, false⟩ }
def sUnanswered : State := { sLate with ylp := { sLate.ylp with tx := [dst9 [req 0x02 .line 0]] } }
def sNotice : State := survSt [5, 9] fun v => { v with notices := [[1, 2]] }
/-- A survival line from node 9, rank `r` of three, in the inbox or on the relation. -/
def sSurvLine (rank : Nat) (a : Nat) (kind mgen : Nat) (removed added : List Nat) (f : Surv → Surv := id) : State :=
  let s := survSt (if rank = 0 then [5, 9, 10] else [9, 5, 10]) f
  let b := bytesOfWords (padWords 16 [w64 (0x0E10 * 2 ^ 48 + kind * 2 ^ 40 + removed.length * 2 ^ 36 + added.length * 2 ^ 32 + 9 * 2 ^ 16),
    w64 (3 * 2 ^ 32 + mgen), 0] )
  let b := b.take 0x18 ++ (removed ++ added).flatMap (leBytes 2)
  let b := b ++ List.replicate (124 - b.length) 0
  writeBytes s a (b ++ leBytes 4 (crc32c b))
def chg : Change := ⟨4, [11], [], [], 0, false⟩
def inb9 : SurvLoc := .inbox 9
def sReport (kind : Nat) (removed added : List Nat) : State :=
  sSurvLine 0 (0x400000 + 0x100000 + 0x80 * 9) kind 4 removed added fun v => { v with change := some chg }
def sChange (mgen : Nat) (removed : List Nat) (f : Surv → Surv := id) : State :=
  sSurvLine 1 (0x400000 + 0x100000 + 0x80 * 9) 2 mgen removed [] f
def sConfirm : State :=
  putF (setR (sSurvLine 0 (0x400000 + 0x80) 3 4 [] [] fun v => { v with change := some chg }) SURV_MGEN 4) FAB_NODE FAB_NODE_NODE 5
def sHoldoff (n : Nat) : State := { survSt [5] (fun v => { v with change := some chg }) with time := ⟨n, 0, 0, false⟩ }
/-- The removed ward 9 has a current copy in its slot; the lease has ended. -/
def sLease : State :=
  { writeWord (survSt [5, 10] fun v => { v with wards := [ward9], removedAt := [(9, 0)] }) 0x4000000 (w64 (0x0E02 * 2 ^ 48 + 2))
    with time := ⟨2000000000, 0, 0, false⟩, ylp := { sLink.ylp with members := [] } }
def sAdopted : State :=
  writeWord (survSt [5, 9, 10] fun v => { v with wards := [ward9], adopts := [9] }) 0x4000000 (w64 (0x0E02 * 2 ^ 48 + 3))

/-! ### Power and heat -/
def at_ (n : Nat) (s : State) : State := { s with time := ⟨n, 0, 0, false⟩ }
def pw (s : State) (f : Power → Power) : State := modPower s f
def th (s : State) (f : Therm → Therm) : State := modTherm s f
/-- READY, all domains On, k = 16, at the reset values of the limits. -/
def sPwr : State := let s := at_ 20000000 (setPace sAllOn 16)
  { s with boot := { s.boot with step := 8 } }
/-- k = 5 for a second. -/
def sPaced : State := pw (setPace sPwr 5) fun p => { p with paceAt := 0 }
/-- The request stands at code `v` of 20, between floor 5 and set point 20. -/
def sVolt (v : Nat) (f : Power → Power) : State :=
  pw (putF (putF (putF sPwr PWR_VCTL PWR_VCTL_VSET 20) PWR_VCTL PWR_VCTL_VFLOOR 5) PWR_VCTL PWR_VCTL_VREQ v)
    fun p => f { p with vAt := 0, ladderV := 20 }
def sFcast (v : Nat) : State := sVolt v fun p => { p with forecasts := [⟨100, 0, 30000000⟩] }
/-- P_fast of `w` W. -/
def sPower (v w : Nat) (f : Power → Power := id) : State := sVolt v fun p => f { p with samples := [(20000000, w)] }
def sParkEn (w : Nat) (f : Power → Power := id) : State := putF (sPower 5 w fun p => f { p with ladderV := 5 }) PWR_CTL PWR_CTL_PARK_EN 1
/-- Anvils 0 and 1 of core 0 wait for their ramps. -/
def rampSt (r : Ramp) (f : Power → Power) : State :=
  pw (withCore (putF (putF sPwr PWR_MEAS PWR_MEAS_VMV 600) THM_TJ THM_TJ_TJ (65 * 16)) fun c =>
    { c with anvils := (c.anvils.set 0 { Anvil.reset with ramp := r }).set 1 { Anvil.reset with ramp := r } }) f
def gUp : GrantReq := .up 0 3
def sUp : State := rampSt .waitUp fun p => { p with grants := [gUp] }
def sUpFull : State := rampSt .waitUp fun p => { p with grants := [gUp], charges := [(20000000, true, 1200000)] }
def sUpLate : State := rampSt .waitUp fun p => { p with grants := [gUp], dither := some 20000001 }
def sUpNow : State := rampSt .waitUp fun p => { p with grants := [gUp], dither := some 20000000 }
def quenchSt (s : State) : State := th (putF s THM_QCTL THM_QCTL_CAUSE 3) fun t => { t with quench := some 0 }
def sDownQ : State := quenchSt (rampSt .waitDown fun p => { p with grants := [.down 0 0, .down 0 1] })
def sHot (tj : BitVec 16) : State := putF sPwr THM_TJ THM_TJ_TJ tj.toNat
def sSense2 : State := th sPwr fun t => { t with smbFails := 2 }
def sLow : State := th sPwr fun t => { t with lowSince := some 0 }
def sLowLate : State := at_ 60000000 sLow
def sLeave (n : Nat) : State := at_ n (putF (quenchSt sPwr) THM_QCTL THM_QCTL_LEAVE 1)
def sAwake (n : Nat) : State := pw sPwr fun p => { p with selfRefresh := [(130, n)] }
def sRun (s : State) : State := { s with boot := { s.boot with running := true } }
/-- An upward swing from 20 °C to 60 °C. -/
def sSwing : State := th sPwr fun t => { t with valid := true, up := true, ext := 320, cand := 960 }
def sWear : State := th sPwr fun t => { t with wearDirty := true, wearAt := none }
def sRot : State := at_ 60000000000 (putF sPwr PWR_TEST PWR_TEST_PERIOD 1)
def sQueuedTest (l : List (Option PortId)) : State := { sLink with queuedTests := l }
def sPortQueued : State := { sLink with job := some job0 }

/-! ### Start, trust and the recorder -/
def bo (s : State) (f : Boot → Boot) : State := modBoot s f
def sRunning (n : Nat) : State := bo sAllOn fun b => { b with running := true, step := n }
def sGone : State := bo .reset fun b => { b with running := false }
def sBrown : State := at_ 1000005 <| bo .reset fun b => { b with running := false, brown := some 5, rst := false }
/-- The Ethernet part of a reset frame on port 3. -/
def ethIn : Eth := { dst := portMac sAllOn (ownNode sAllOn) 3 }
/-- A reset frame whose VALUE is the preimage of the anchor. -/
def resetBytes : List Byte := leBytes 8 (0x0F40 * 2 ^ 48) ++ serialBytes ++ List.replicate 48 7
def sAnchor : State := bo (putF (sRunning 8) (PRT_STATUS 3) PRT_STATUS_LINK_UP 1) fun b =>
  { b with anchor := (sha3 (List.replicate 32 7)).take 32 }
def rep0 : StartReport := { baseOk := true, weldOk := true, coreFails := [], portsUp := [] }
def repBad : StartReport := { rep0 with baseOk := false }
def sTrained : State := putF (sRunning 5) MEM_STATUS MEM_STATUS_TRAINED 1
def sRetry (n : Nat) : State := at_ n (bo (sRunning 6) fun b => { b with portRetryAt := some 100 })
def sRetryUp : State := putF (sRetry 100) (PRT_STATUS 3) PRT_STATUS_LINK_UP 1
/-- A message of words in the window of a mailbox, which is full. -/
def message (s : State) (m : Nat) (l : List Nat) : State :=
  setMbx (setWindow s m (l.flatMap (leBytes 8) ++ List.replicate (256 - 8 * l.length) 0)) m ⟨1, 0, some 0, 0⟩
def sAnswer (r : Nat) : State := message (bo (sRunning 7) fun b => { b with answerOk := true }) 0 [0x0F31 * 2 ^ 48, r + 3 * 2 ^ 8]
def sNoAnswer : State := message (sRunning 7) 0 [0x0F31 * 2 ^ 48, 0]
def sWaits (f : Boot → Boot) : State := at_ 60000000000 (putF (bo (sRunning 7) f) CFG_JOIN CFG_JOIN_ADMIT_WAIT 1)
/-- The attestation mailbox is 2, the management mailbox 3, and on-chip agents may write. -/
def sProt : State :=
  let s := bo (putF (putF (sRunning 8) (MBX_CFG 2) MBX_CFG_RKIND 1) (MBX_CFG 3) MBX_CFG_RKIND 1) fun b => { b with
    prot := leBytes 8 (2 * 2 ^ 21 + 3 * 2 ^ 16) ++ List.replicate 0x40 0 ++ leBytes 8 (2 ^ 26 - 1) ++ List.replicate 64 0 }
  { s with conns := [conn3] }
def sAttest : State := setPair (message sProt 2 [0x0F20 * 2 ^ 48, 1, 2, 3, 4, 0x8000]) (MBX_SENDER_LO 2) (MBX_SENDER_HI 2) (2 ^ 62 + 0x104)
/-- One entry: a write of PWR_IMAX by an agent. -/
def sMgmt (agent : Nat) : State :=
  setPair (message sProt 3 [0x0F50 * 2 ^ 48 + 1, 0, 1 + PWR_IMAX * 2 ^ 32, 0xFFFFFFFF + 0x7D0 * 2 ^ 32]) (MBX_SENDER_LO 3)
    (MBX_SENDER_HI 3) agent
def sMgmtNone : State := sMgmt 0
def sSlotBusy (pref : Bool) : State := bo (sRunning 8) fun b => { b with slotBusy := some (0x8000, pref) }
def sSpread (n : Nat) : State := { at_ n (bo (sRunning 7) fun b => { b with spreadAt := some 100 }) with
  conns := [{ conn3 with index := 1023 }] }
def rec0 : Rec := ⟨5, 1, 0x100, [7, 8]⟩
def sRec (f : Recorder → Recorder) : State :=
  let s := at_ 100 (sRunning 8)
  { s with recorder := f { s.recorder with anchored := some 0, head := 8, waiting := [rec0] } }
def sFrozen : State := sRec fun r => { r with frozen := some 50 }
def sFrozenLong : State := at_ 40000000000 sFrozen

def rp0 : Replay := ⟨9, 0, 6, true, 0, 5, 0⟩
def sRp0 : State := modHearth sLink 0 fun h => { h with replay := [rp0] }
def fld1 : RegField := ⟨1, 1, .rw1c, 0⟩
def sMasters : State := survSt [5, 9, 10] fun v => { v with plan := planWords 2 1 }

/-! ## The spec's worked examples -/

/-- Chapter 1: domain 1:2 holds cores 8.2 to 15.2. -/
theorem test_domain_cores : domCores 10 = [66, 74, 82, 90, 98, 106, 114, 122] := by decide +kernel

/-- Chapter 3, the Q4 row of 64 elements. -/
theorem test_q4_row : encodeRow 4 false 3 ([5, -7] ++ List.replicate 29 0 ++ [7] ++ List.replicate 32 0) [2, 7] [false, false] =
    [0x0000000000000095, 0x7000000000000000, 0, 0, 0x72, 0x00000000003F0403].flatMap (leBytes 8) := by decide +kernel

/-- Chapter 3, a Q16 row at the floor. -/
theorem test_floor_hold : quantFit 0x10 .hold (-130) [20000, 13, 12, 4, 0] =
    ⟨-127, [2500, 2, 2, 0, 0], [], [], List.replicate 5 false, [false, false, false, true, false], false, false⟩ := by decide +kernel

theorem test_floor_flush : (quantFit 0x10 .flush (-130) [20000, 13, 12, 4, 0]).exp = -128 := by decide +kernel

/-- R81 with sa = 1, sb = 3, qa = 5, qb = -6. -/
theorem test_product : (product ⟨4, 0, false, [5], [1], [false], 0⟩ ⟨4, 0, false, [-6], [3], [false], 0⟩ 0).1 = -7680 := by decide +kernel

/-- Chapter 4, the worked quantisation, in units of 2^-2. -/
def quantRow (peak : Int) : List Int :=
  (List.range 96).map fun k => match k with
    | 5 => peak
    | 9 => -80
    | 17 => 240
    | 30 => 12
    | 33 => 6
    | 40 => -3
    | 47 => 8
    | 60 => 1
    | _ => 0

theorem test_quant_without_pith :
    let q := quantFit 4 .flush (-2) (quantRow 4000)
    q.exp = 8 ∧ q.steps = [0, 7, 7] ∧ q.codes.getD 5 0 = 4 ∧ countTrue q.zeroed = 7 ∧ countTrue q.sats = 0 := by decide +kernel

theorem test_quant_with_pith :
    let q := quantFit 4 .flush (-2) (quantRow 0)
    q.exp = 4 ∧ q.steps = [0, 5, 7] ∧ [9, 17, 30, 33, 40, 47, 60].map (q.codes.getD · 0) = [-1, 4, 0, 3, -2, 4, 0] ∧
      countTrue q.zeroed = 2 ∧ countTrue q.sats = 0 := by decide +kernel

theorem test_side_row : let q := quantFit 0x10 .flush 0 [1000]; q.exp = -5 ∧ q.codes = [32000] := by decide +kernel

/-- R98: the cut-off is 133 and channel 5 is of level 137. -/
theorem test_pith_selection : peakLevel 1000 0 = 137 ∧ selectPith [(5, 137), (1, 128), (2, 128)] [] 4 3 = [5] := by decide +kernel

/-- Chapter 6, the worked layer and element. -/
def layerIn : UmuIn := ⟨16384, -14, 7, -33, ⟨1, -16⟩, ⟨1, 12⟩, 0, 2 ^ 22, 0, 4, false, 0xC000, -25, -48, -8⟩

theorem test_layer (z : UmuFree) : umuCompute layerIn z = ⟨⟨14380471, -34⟩, 2, 2, false, false, true, -50, false⟩ := by
  rfl

theorem test_element : updElem 0 ⟨14380471, -34⟩ (-33) (-33) 1 (-20) 24576 = (-21, false) := by decide +kernel

/-- Chapter 7, the AMAC word at 0x4040 and its descriptor word. -/
theorem test_pass_descriptor : let d := passDescOf [0, 0, 0, 0, 0xFFF0004000000000]; d.len = 4096 ∧ d.start = 0 ∧ d.count = 4096 := by
  decide +kernel

/-- Chapter 9, the address 0x0080_0064_2E80. -/
theorem test_home_map : homeJ 0x8000642E80 = 6 ∧ hlOffset 0x8000642E80 = 0xC8580 ∧ hlLine 0x8000642E80 = 6411 ∧
    hChannel 0x8000642E80 = 57 ∧ pairOf 0x8000642E80 = 3 := by decide +kernel

/-- Chapter 11, the key word of rank 5, step 0x1_2345, layer 3 and row 7. -/
theorem test_combine_key : combineKey [0, 0, 0, 0, 0, w64 (0x12345 * 2 ^ 44 + 3 * 2 ^ 34)] 5 7 = 0x12345000500C001D := by decide +kernel

/-- Chapter 16, the header word of the residue record. -/
theorem test_record_header : headerWord 2 0x109 0x2B 0x7C 0x1234567890 = 0x09092B7C23456789 := by decide +kernel

/-- The published check value of CRC-32C, the digest of a reset frame and of a row of records (R12). -/
theorem test_crc32c : crc32c [0x31, 0x32, 0x33, 0x34, 0x35, 0x36, 0x37, 0x38, 0x39] = 0xE3069283 := by decide +kernel

/-- FIPS 202, the first bytes of the digest of no bytes. -/
theorem test_sha3 : (sha3 []).take 4 = [0xA6, 0x9F, 0x73, 0xCC] := by decide +kernel

/-! ## One step -/

theorem test_idle_ticks : ∃ t, step .reset = .next t ∧ t.time.ns = 6 ∧ t.pending = [] := ⟨idle .reset, rfl, by decide +kernel⟩

theorem test_front_is_taken : ∃ t, step { State.reset with pending := [.quenchEnd, .powerGood] } = .next t ∧ t.pending = [.powerGood] :=
  ⟨_, rfl, by decide +kernel⟩

/-! ## Every hypothesis can be met -/

theorem some_wit {α : Type} {o : Option α} {P : α → Prop} (h : o.isSome = true) (hp : P (o.get h)) : ∃ x, o = some x ∧ P x :=
  ⟨o.get h, (Option.some_get h).symm, hp⟩

theorem clean_of {s : State} {a n : Nat} (h : s.memctl.poison = []) : clean s a n := fun b _ _ => by
  simp [poisoned, h]

theorem openDram_of {s : State} {a n : Nat} (h : s.memctl.poison = [] ∧ a < 2 ^ 40 ∧ 0 < n ∧ assigned s a n = true) : openDram s a n :=
  ⟨h.2.1, h.2.2.1, h.2.2.2, clean_of h.1⟩

theorem clean_and {s : State} {a n : Nat} {P : Prop} (h : s.memctl.poison = [] ∧ P) : clean s a n ∧ P := ⟨clean_of h.1, h.2⟩

theorem openDram_and {s : State} {a n : Nat} {P : Prop}
    (h : (s.memctl.poison = [] ∧ a < 2 ^ 40 ∧ 0 < n ∧ assigned s a n = true) ∧ P) : openDram s a n ∧ P := ⟨openDram_of h.1, h.2⟩

theorem awaiting_and {s : State} {d : TxDst} {r : TxReq} {f : YlpFrame} {P : Prop}
    (h : (s.ylp.tx = [d] ∧ d.node = f.src.toNat ∧ d.unacked = [r] ∧ d.replies = [] ∧ d.waiting = [] ∧ r.seq = f.seq.toNat ∧
      r.replied = false ∧ seqDiff d.acked r.seq ≤ 0 ∧ seqDiff (seqAdd f.ack.toNat 1) d.acked ≤ 0) ∧ P) : awaiting s d r f ∧ P :=
  ⟨h.1, h.2⟩

/-- A function of an evaluated number. -/
def forced {α : Type} (f : Nat → α) : Nat → α
  | 0 => f 0
  | n + 1 => f (n + 1)

theorem forced_eq {α : Type} (f : Nat → α) (n : Nat) : forced f n = f n := by cases n <;> rfl

/-- The CRC register, evaluated byte by byte. -/
def crcStrict : List Byte → Nat → Nat
  | [], c => c
  | b :: bs, c => forced (crcStrict bs) (crcByte c b)

theorem crcStrict_eq (bs : List Byte) (c : Nat) : crcStrict bs c = bs.foldl crcByte c := by
  induction bs generalizing c with
  | nil => rfl
  | cons b bs ih => rw [List.foldl_cons, ← ih, crcStrict, forced_eq]

theorem crc32c_strict (bs : List Byte) : crc32c bs = crcStrict bs 0xFFFFFFFF ^^^ 0xFFFFFFFF := by
  rw [crcStrict_eq, crc32c]

theorem frame_ok : resetFrameOk sAnchor p3.val ethIn resetBytes = true := by
  unfold resetFrameOk
  simp only [Bool.and_eq_true, decide_eq_true_eq]
  and_intros <;> first | decide +kernel | rfl

theorem slot_case : slotCase sSlot ring0 ring0.next = SlotCase.item slotItem := by
  unfold slotCase
  simp only [crc32c_strict]
  decide +kernel

/-- The one address that the gather reads. -/
theorem gathered_open : ∀ v ∈ readWords sFab (csBase c0.val + (readG sFab c0.val k0 fGath.a.toNat).toNat) (fgathN fGath),
    v.toNat % 128 = 0 ∧ v.toNat / 2 ^ 48 = ownNode sFab ∧ openDram sFab (v.toNat % 2 ^ 48) 128 := by
  intro v h
  have e : (readWords sFab (csBase c0.val + (readG sFab c0.val k0 fGath.a.toNat).toNat) (fgathN fGath)).all
      (fun v => v.toNat % 128 = 0 && v.toNat / 2 ^ 48 = ownNode sFab && (decide (v.toNat % 2 ^ 48 < 2 ^ 40) &&
        assigned sFab (v.toNat % 2 ^ 48) 128)) = true := by decide +kernel
  have x := List.all_eq_true.mp e v h
  simp only [Bool.and_eq_true, decide_eq_true_eq] at x
  exact ⟨x.1.1, x.1.2, openDram_of ⟨by decide +kernel, x.2.1, by decide, x.2.2⟩⟩

theorem addGrants_power (s : State) (gs : List GrantReq) : ∃ p, addGrants s gs = { s with power := p } := by
  unfold addGrants
  cases gs.isEmpty
  · exact ⟨_, rfl⟩
  · exact ⟨s.power, rfl⟩

theorem foldl_power (l : List CoreId) (s : State) : ∃ p, l.foldl syncGrants s = { s with power := p } := by
  induction l generalizing s with
  | nil => exact ⟨s.power, rfl⟩
  | cons i l ih =>
    obtain ⟨p, hp⟩ := ih (syncGrants s i)
    obtain ⟨q, hq⟩ : ∃ q, syncGrants s i = { s with power := q } := by
      unfold syncGrants
      obtain ⟨r, hr⟩ := addGrants_power _ _
      exact ⟨r, hr⟩
    exact ⟨p, by rw [List.foldl_cons, hp, hq]⟩

theorem standing_of {s : State} (h : (standingGrants s).power = s.power) : standingGrants s = s := by
  obtain ⟨p, hp⟩ : ∃ p, standingGrants s = { s with power := p } := by
    obtain ⟨p, hp⟩ := foldl_power coreIds s
    unfold standingGrants
    rw [hp]
    exact ⟨_, rfl⟩
  have e : p = s.power := by
    rw [hp] at h
    exact h
  rw [hp, e]

theorem witness_ControlResults :
    ((ctlGo s0 (c0.val) k0 fz { } true = true) ∧ (ctlGo s0 (c0.val) k0 fz { imm := imm64, d := RegUse.g } true = true) ∧ (ctlGo s0
      (c0.val) k0 fz (immShape fz RegUse.g) (decide (ctlCode fz ≤ 12)) = true) ∧ (ctlGo s0 (c0.val) k0 fSetp (immShape fSetp
      RegUse.pd) (decide (ctlCode fSetp ≤ 5)) = true) ∧ (ctlGo s0 (c0.val) k0 fPlog
      { mod := modMask 110 107, d := RegUse.pd, a := RegUse.p, b := RegUse.p } (decide (ctlCode fPlog ≤ 3)) = true)) ∧
    ((ctlGo s0 (c0.val) k0 fz { d := RegUse.g } true = true) ∧ (ctlGo s0 (c0.val) k0 fz { imm := maskBits 20 0 } true = true ∧
      targetCheck (brTarget fz) = none) ∧ (ctlGo s0 (c0.val) k0 fz { imm := imm64, a := RegUse.g } true = true ∧ targetCheck
      (addrOf (readG s0 (c0.val) k0 fz.a.toNat) fz) = none) ∧ (ctlGo s0 (c0.val) k0 fz { imm := maskBits 20 0, d := RegUse.g }
      true = true ∧ targetCheck (brTarget fz) = none) ∧ (ctlGo s0 (c0.val) k0 fLoop { imm := maskBits 20 0, a := RegUse.g }
      (loopLegal s0 (c0.val) k0 fLoop) = true ∧ targetCheck (brTarget fLoop) = none ∧ (readG s0 (c0.val) k0 fLoop.a.toNat = 0 ∨
      (ctxAt s0 (c0.val) k0).loops.length < loopDepth s0 c0.val))) :=
  ⟨
    by decide +kernel,
    by decide +kernel⟩

theorem witness_WordsAndOwnRegisters :
    (ctlGo s0 (c0.val) k0 fz { imm := imm64, d := RegUse.g, a := RegUse.g } true = true ∧ csCheck (addrOf (readG s0 (c0.val) k0
      fz.a.toNat) fz) 8 8 = none) ∧ (ctlGo s0 (c0.val) k0 fz { imm := imm64, a := RegUse.g, b := RegUse.g } true = true ∧ csCheck
      (addrOf (readG s0 (c0.val) k0 fz.a.toNat) fz) 8 8 = none) ∧ (issues s0 (c0.val) k0 fz
      { imm := maskBits 11 0, d := RegUse.g } true = true ∧ regOffset fz % 4 = 0 ∧ sigRoom (mgmtRead s0 0 (blockBase c0.val +
      regOffset fz)).1 (c0.val) k0 fz = true) ∧ (ctlGo s0 (c0.val) k0 fWrreg { imm := maskBits 11 0, b := RegUse.g } true = true ∧
      wrregCheck fWrreg = none) ∧ (ctlGo s0 (c0.val) k0 fz { sub := maskBits 15 0, a := RegUse.g, b := RegUse.g } true = true) :=
    by decide +kernel

theorem witness_SignalsAndWaits :
    ((issues s0 (c0.val) k0 fz sigShape (sigLegal s0 (c0.val) fz) = true ∧ sigQueue fz = 0 ∧ readSc s0 (c0.val) (physSc (isSplit
      s0 c0.val) k0 (sigCounter fz)) + sigAmount fz ≤ 4294967295 ∧ sigRoom (writeSc s0 (c0.val) (physSc (isSplit s0 c0.val) k0
      (sigCounter fz)) (readSc s0 (c0.val) (physSc (isSplit s0 c0.val) k0 (sigCounter fz)) + sigAmount fz)) (c0.val) k0 fz = true)
      ∧ (ctlGo s0 (c0.val) k0 fz sigShape (sigLegal s0 (c0.val) fz) = true ∧ sigQueue fz = 0 ∧ sigAmount fz = 0) ∧ (issues s0
      (c0.val) k0 fSig sigShape (sigLegal s0 (c0.val) fSig) = true ∧ sigQueue fSig = 0 ∧ sigAmount fSig ≠ 0) ∧ (issues s0 (c0.val)
      k0 fFence { mod := modMask 110 107 } (ctlCode fFence != 0) = true) ∧ (issues s0 (c0.val) k0 fz { } true = true)) ∧
    ((issues s0 (c0.val) k0 fSigV sigShape (sigLegal s0 (c0.val) fSigV) = true ∧ sigQueue fSigV ≠ 0 ∧ (coreAt s0 c0.val).queue
      (sigTarget s0 (c0.val) k0 fSigV) = [] ∧ coreSaving s0 c0.val = false ∧ fSigV.sigen = false ∧ readSc s0 (c0.val) (physSc
      (isSplit s0 c0.val) k0 (sigCounter fSigV)) + sigAmount fSigV ≤ 4294967295) ∧ (issues s0 (c0.val) k0 fSigV sigShape (sigLegal
      s0 (c0.val) fSigV) = true ∧ sigQueue fSigV ≠ 0 ∧ (coreAt s0 c0.val).queue (sigTarget s0 (c0.val) k0 fSigV) = [] ∧ coreSaving
      s0 c0.val = false ∧ sigAmount fSigV ≠ 0 ∧ (((coreAt s0 c0.val).heldWaits.all fun x => x.place != WaitPlace.inQueue
      (sigTarget s0 (c0.val) k0 fSigV)) = true))) :=
  ⟨
    by decide +kernel,
    by decide +kernel⟩

theorem witness_FalsePredicates :
    (ctlForm s0 (Instr.nop c0 k0 fOff) = some (c0, k0, fOff, { }, true) ∧ sized s0 = true ∧ canIssue s0 (c0.val) k0 = true ∧
      (fieldsOk (isSplit s0 c0.val) { } fOff && true) = true ∧ predicate s0 (c0.val) k0 fOff = false ∧ sigRoom s0 (c0.val) k0 fOff
      = true) ∧
    (((queueForm s0 (Instr.vadd c0 k0 fOff)).any fun x => decide (sized s0 = true ∧ canIssue s0 (↑x.i) x.k = true ∧ (fieldsOk
      (isSplit s0 ↑x.i) x.sh x.f && x.legal) = true ∧ (coreAt s0 ↑x.i).queue x.q = [] ∧ coreSaving s0 ↑x.i = false ∧ predicate s0
      (↑x.i) x.k x.f = false)) = true) :=
  ⟨
    by decide +kernel,
    by decide +kernel⟩

theorem witness_IssueRefusals :
    (ctlForm s0 (Instr.nop c0 k1 fz) = some (c0, k1, fz, { }, true) ∧ (canIssue s0 (c0.val) k1 = false ∨ (fieldsOk (isSplit s0
      c0.val) { } fz && true) = true ∧ predicate s0 (c0.val) k1 fz = true ∧ gHazard s0 (c0.val) k1 { } fz = true)) ∧
    ((ctlForm s0 (Instr.alu c0 k0 fAlu) = some (c0, k0, fAlu, immShape fAlu RegUse.g, true) ∧ live s0 (c0.val) k0 = true ∧
      (fieldsOk (isSplit s0 c0.val) (immShape fAlu RegUse.g) fAlu && true) = false) ∧ (((queueForm s0 (Instr.vadd c0 k0
      ({ fz with fetchBad := true }))).any fun x => decide (live s0 (↑x.i) x.k = true ∧ (coreAt s0 ↑x.i).queue x.q = [] ∧
      (fieldsOk (isSplit s0 ↑x.i) x.sh x.f && x.legal) = false)) = true) ∧ (live s0 (c0.val) k0 = true ∧ issues s0 (c0.val) k0
      fOdd { imm := maskBits 20 0 } true = true ∧ targetCheck (brTarget fOdd) = some 5) ∧ (live s0 (c0.val) k0 = true ∧ issues s0
      (c0.val) k0 fOdd { imm := imm64, a := RegUse.g } true = true ∧ targetCheck (addrOf (readG s0 (c0.val) k0 fOdd.a.toNat) fOdd)
      = some 5) ∧ (live s0 (c0.val) k0 = true ∧ issues s0 (c0.val) k0 fOdd { imm := maskBits 20 0, d := RegUse.g } true = true ∧
      targetCheck (brTarget fOdd) = some 5)) ∧
    ((live sFull (c0.val) k0 = true ∧ issues sFull (c0.val) k0 fLoop { imm := maskBits 20 0, a := RegUse.g } (loopLegal sFull
      (c0.val) k0 fLoop) = true ∧ targetCheck (brTarget fLoop) = none ∧ readG sFull (c0.val) k0 fLoop.a.toNat ≠ 0 ∧ loopDepth
      sFull c0.val ≤ (ctxAt sFull (c0.val) k0).loops.length) ∧ (live s0 (c0.val) k0 = true ∧ issues s0 (c0.val) k0 fOdd
      { imm := imm64, d := RegUse.g, a := RegUse.g } true = true ∧ csCheck (addrOf (readG s0 (c0.val) k0 fOdd.a.toNat) fOdd) 8 8 =
      some 5) ∧ (live s0 (c0.val) k0 = true ∧ issues s0 (c0.val) k0 fz { imm := imm64, d := RegUse.g, a := RegUse.g } true = true
      ∧ csCheck (addrOf (readG s0 (c0.val) k0 fz.a.toNat) fz) 8 8 = none) ∧ (live s0 (c0.val) k0 = true ∧ issues s0 (c0.val) k0
      fOdd { imm := imm64, a := RegUse.g, b := RegUse.g } true = true ∧ csCheck (addrOf (readG s0 (c0.val) k0 fOdd.a.toNat) fOdd)
      8 8 = some 5) ∧ (live s0 (c0.val) k0 = true ∧ issues s0 (c0.val) k0 fz { imm := maskBits 11 0, b := RegUse.g } true = true ∧
      regOffset fz % 4 = 0 ∧ regOffset fz ∉ [64, 68, 140])) ∧
    ((live sFull (c0.val) k0 = true ∧ issues sFull (c0.val) k0 fOdd sigShape (sigLegal sFull (c0.val) fOdd) = true ∧ sigQueue fOdd
      = 0 ∧ 4294967295 < readSc sFull (c0.val) (physSc (isSplit sFull c0.val) k0 (sigCounter fOdd)) + sigAmount fOdd) ∧
      (((queueForm s0 (Instr.vld c0 k0 (fr 0 1 0 1) false)).any fun x => decide (live s0 (↑x.i) x.k = true ∧ issues s0 (↑x.i) x.k
      x.f x.sh x.legal = true ∧ (coreAt s0 ↑x.i).queue x.q = [] ∧ x.check (x.entry s0 false) = some 6)) = true)) :=
  ⟨
    by decide +kernel,
    by decide +kernel,
    by decide +kernel,
    by decide +kernel⟩

theorem witness_TileIssue :
    ((tileOf sTile (Instr.azero c0 k0 fAnv1)).any fun x => decide (queueGo sTile x = true)) = true :=
    by decide +kernel

theorem witness_LaneOperations :
    (((laneOpOf sVec (Instr.vadd c0 k0 fV)).any fun x => decide ((allSome (laneResults sVec x)).isSome = true ∧ vecGo sVec x =
      true)) = true) ∧
    (((laneOpOf sVec (Instr.vadd c0 k0 fVmix)).any fun x => decide (vecGo sVec x = true ∧ allSome (laneResults sVec x) = none ∧
      live sVec (↑x.i) x.k = true)) = true) :=
  ⟨
    by decide +kernel,
    by decide +kernel⟩

theorem witness_MovesReductionsDraws :
    ((((vecOf sVec (Instr.vmov c0 k0 (fr 2 0 0 0))).any fun x => decide (vecGo sVec x = true)) = true) ∧ (((vecOf sVec
      (Instr.vsplat c0 k0 (fr 2 0 0 0))).any fun x => decide (vecGo sVec x = true)) = true) ∧ (((vecOf sVec (Instr.vmovg c0 k0 (fr
      2 0 0 0))).any fun x => decide (vecGo sVec x = true ∧ (vregAt sVec (c0.val) (physV (isSplit sVec c0.val) k0 (fr 2 0 0
      0).a.toNat)).raw = false ∧ ((vregAt sVec (c0.val) (physV (isSplit sVec c0.val) k0 (fr 2 0 0 0).a.toNat)).w = true → (fr 2 0
      0 0).immBits 7 0 < 128))) = true) ∧ (((vecOf sVec (Instr.vmul c0 k0 (fr 2 0 0 0))).any fun x => decide ((allSome (List.map
      (fun p => laneMul p.1 p.2) ((x.opA sVec).zip (x.opB sVec)))).isSome = true ∧ vecGo sVec x = true)) = true) ∧ (((vecOf sVec
      (Instr.vsqadd c0 k0 fWide)).any fun x => decide (vecGo sVec x = true ∧ (((x.opA sVec ++ x.opB sVec).any fun r => r.raw ||
      !r.w) = false))) = true)) ∧
    ((((vecOf sVec (Instr.vrsum c0 k0 (fr 2 0 0 0))).any fun x => decide ((groupRow (x.opA sVec)).isSome = true ∧ vecGo sVec x =
      true)) = true) ∧ (((vecOf sVec (Instr.vrmax c0 k0 (fr 2 0 0 0))).any fun x => decide ((groupRow (x.opA sVec)).isSome = true
      ∧ vecGo sVec x = true)) = true) ∧ (((vecOf sVec (Instr.vrcnt c0 k0 (fr 2 0 0 0))).any fun x => decide ((groupRow (x.opA
      sVec)).isSome = true ∧ vecGo sVec x = true)) = true) ∧ (((vecOf sVec (Instr.vrssq c0 k0 (fr 2 0 0 0))).any fun x => decide
      ((groupRow (x.opA sVec)).isSome = true ∧ vecGo sVec x = true)) = true) ∧ (((vecOf sVec (Instr.vrand c0 k0 (fr 2 0 0 0))).any
      fun x => decide ((groupRow (x.opA sVec)).isSome = true ∧ vecGo sVec x = true)) = true)) :=
  ⟨
    by decide +kernel,
    by decide +kernel⟩

theorem witness_RescaleAndActivate :
    (((vecOf sVec (Instr.vresc c0 k0 fResc)).any fun x => decide ((allSome (List.map (laneResc (sext 12 (fResc.immBits 11 0)))
      (x.opA sVec))).isSome = true ∧ vecGo sVec x = true ∧ fResc.modBits 104 104 = 0)) = true) ∧ (((vecOf sVec (Instr.vresc c0 k0
      fWiden)).any fun x => decide (vecGo sVec x = true ∧ fWiden.modBits 104 104 = 1 ∧ (((x.opA sVec).all fun r => !r.raw && !r.w)
      = true) ∧ groupFits (isSplit sVec c0.val) fWiden.d.toNat (2 * nregOf fWiden) = true)) = true) ∧ (((vecOf sVec (Instr.vresc
      c0 k0 fNarrow)).any fun x => decide (vecGo sVec x = true ∧ fNarrow.modBits 104 104 = 1 ∧ (((x.opA sVec).all fun r => !r.raw
      && r.w) = true) ∧ nregOf fNarrow % 2 = 0 ∧ groupFits (isSplit sVec c0.val) fNarrow.d.toNat (nregOf fNarrow / 2) = true)) =
      true) ∧ (((vecOf sVec (Instr.vact c0 k0 fAct)).any fun x => decide (((readTable sVec (c0.val) (addrOf (readG sVec (c0.val)
      k0 fAct.b.toNat) fAct)).any fun tab => decide ((allSome (List.map (laneAct tab) (x.opA sVec))).isSome = true ∧ vecGo sVec x
      = true)) = true)) = true) ∧ (((vecOf sVec (Instr.vqnt c0 k0 fVqnt)).any fun x => decide (let ws := (readWords sVec (csBase
      c0.val + addrOf (readG sVec (c0.val) k0 fVqnt.a.toNat) fVqnt) 8); let d := (qdescOf ws); ((groupRow (x.opD sVec)).any fun g
      => decide (vecGo sVec x = true ∧ qdescBad ws d = false ∧ d.len ≤ g.codes.length ∧ d.dest % 8 = 0 ∧ csRangeOk d.dest (rowSize
      d.fmt d.lane d.len) = true ∧ d.pith = false ∧ d.mon = false ∧ sVec.job = none)) = true)) = true) :=
    by decide +kernel

theorem witness_RowsLoadedAndStored :
    (((vecOf sVec (Instr.vld c0 k0 fVld false)).any fun x => decide (let rw' := (rowWordOf (readG sVec (c0.val) k0 fVld.c.toNat));
      let bs := (readBytes sVec (csBase c0.val + addrOf (readG sVec (c0.val) k0 fVld.a.toNat) fVld) (rowSize rw'.fmt rw'.lane
      rw'.len)); let tr := (decodeTrailer (fieldLE bs (rowSize rw'.fmt rw'.lane rw'.len - 8) 8)); vecGo sVec x = true ∧ trailerOk
      tr rw'.fmt rw'.len rw'.lane = true)) = true) ∧ (((vecOf sVec (Instr.vst c0 k0 fVld)).any fun x => decide (let rw' :=
      (rowWordOf (readG sVec (c0.val) k0 fVld.c.toNat)); ((groupRow (x.opD sVec)).any fun g => decide (vecGo sVec x = true ∧
      rw'.len ≤ g.codes.length)) = true)) = true) ∧ (((vecOf sVec (Instr.vcvt c0 k0 fVcvt)).any fun x => decide (let rw' :=
      (rowWordOf (readG sVec (c0.val) k0 fVcvt.c.toNat)); (readRow sVec (c0.val) (BitVec.toNat (readG sVec (c0.val) k0
      fVcvt.a.toNat)) rw'.fmt rw'.len rw'.lane false).isSome = true ∧ vecGo sVec x = true)) = true) ∧ (((vecOf sVec (Instr.vld c0
      k0 ({ fVld with dataBad := true }) false)).any fun y => decide (issues sVec (↑y.i) y.k y.f y.sh y.legal = true ∧ live sVec
      (↑y.i) y.k = true ∧ (coreAt sVec ↑y.i).queue y.q = [] ∧ y.check (y.entry sVec false) = none ∧ (coreAt sVec ↑y.i).veGrant =
      true ∧ vecReads y.op = true ∧ y.f.dataBad = true)) = true) :=
    by decide +kernel

theorem witness_UpdatesAndMarks :
    (∃ x, vecOf sVec (Instr.vupd c0 k0 fVupd2) = some x ∧ ∃ n, selfLen sVec (c0.val) (BitVec.toNat (readG sVec (c0.val) k0
      fVupd2.a.toNat)) 32 4096 = some n ∧ ∃ w, readRow sVec (c0.val) (BitVec.toNat (readG sVec (c0.val) k0 fVupd2.a.toNat)) 32 n
      false false = some w ∧ ∃ g, readRow sVec (c0.val) (BitVec.toNat (readG sVec (c0.val) k0 fVupd2.b.toNat)) 16 n false false =
      some g ∧ ∃ a, a = readWords sVec (csBase c0.val + BitVec.toNat (readG sVec (c0.val) k0 fVupd2.d.toNat)) 2 ∧ ∃ ew, ew = (if
      w.exp = -128 then -127 else w.exp) ∧ ∃ ds, ds = List.map (fun q => updElem (wfield [w64 0, w64 0, w64 0, w64 0] 0 63 62)
      { m := wfield a 0 63 40, e := sext 16 (wfield a 0 39 24) } g.exp ew (wfield [w64 0, w64 0, w64 0, w64 0] 0 23 8) (sext 8
      (wfield [w64 0, w64 0, w64 0, w64 0] 0 7 0)) q) g.codes ∧ ∃ ds', ds' = encodeRow 32 false ew (List.map (fun d => (satCode (2
      ^ 31 - 1) d.1).1) ds) [] [] ∧ ∃ q, q = (quantFit 32 FloorRule.hold ew (List.map (fun p => p.1 + p.2.1) (w.codes.zip
      ds))).row 32 false ∧ vecGo sVec x = true ∧ csRangeOk (BitVec.toNat (readG sVec (c0.val) k0 fVupd2.c.toNat)) (rowSize 32
      false n) = true ∧ csRangeOk (BitVec.toNat (readG sVec (c0.val) k0 fVupd2.b.toNat)) (rowSize 16 false n) = true ∧ wfield a 0
      16 16 ≠ 1 ∧ List.find? (fun p => decide (p.1 = BitVec.toNat (readG sVec (c0.val) k0 fVupd2.d.toNat))) (coreAt sVec
      c0.val).upd = some (BitVec.toNat (readG sVec (c0.val) k0 fVupd2.d.toNat), [w64 0, w64 0, w64 0, w64 0]) ∧ (BitVec.toNat
      (readG sVec (c0.val) k0 fVupd2.a.toNat) + q.length ≤ BitVec.toNat (readG sVec (c0.val) k0 fVupd2.c.toNat) ∨ BitVec.toNat
      (readG sVec (c0.val) k0 fVupd2.c.toNat) + ds'.length ≤ BitVec.toNat (readG sVec (c0.val) k0 fVupd2.a.toNat))) ∧
    ((((vecOf sVec (Instr.vumu c0 k0 fVumu)).any fun x => decide (let ws := (readWords sVec (csBase c0.val + BitVec.toNat (readG
      sVec (c0.val) k0 fVumu.a.toNat)) 8); vecGo sVec x = true ∧ wfield ws 0 63 48 = 2644)) = true) ∧ (((vecOf sVec (Instr.vupd c0
      k0 fVupd)).any fun x => decide (((selfLen sVec (c0.val) (BitVec.toNat (readG sVec (c0.val) k0 fVupd.a.toNat)) 32 4096).any
      fun n => decide (vecGo sVec x = true ∧ csRangeOk (BitVec.toNat (readG sVec (c0.val) k0 fVupd.c.toNat)) (rowSize 32 false n)
      = true ∧ wfield (readWords sVec (csBase c0.val + BitVec.toNat (readG sVec (c0.val) k0 fVupd.d.toNat)) 2) 0 16 16 = 1)) =
      true)) = true) ∧ (((vecOf sVec (Instr.vgacc c0 k0 fVgacc)).any fun x => decide (((groupRow (x.opA sVec)).any fun g => decide
      (((bufferLen sVec (c0.val) (BitVec.toNat (readG sVec (c0.val) k0 fVgacc.b.toNat)) g.codes.length).any fun n => decide
      (((readRow sVec (c0.val) (BitVec.toNat (readG sVec (c0.val) k0 fVgacc.b.toNat)) 16 n false false).any fun r => decide (let e
      := ((if r.exp = -128 then g.x else r.exp)); let sums := (List.map (fun p => p.1 * 2 ^ (e - min e g.x).toNat + p.2 * 2 ^ (g.x
      - min e g.x).toNat) (r.codes.zip (List.take n g.codes))); vecGo sVec x = true ∧ (maxMag sums ≠ 0 → -127 ≤ gaccExp (maxMag
      sums) (min e g.x) ∧ gaccExp (maxMag sums) (min e g.x) ≤ 127))) = true)) = true)) = true)) = true) ∧ (((vecOf sVec
      (Instr.vmark c0 k0 fVmark)).any fun x => decide (vecGo sVec x = true ∧ (ctxAt sVec (c0.val) k0).mons = [] ∧ isWindow
      (BitVec.toNat (readG sVec (c0.val) k0 fVmark.a.toNat)) = false ∧ assigned sVec (BitVec.toNat (readG sVec (c0.val) k0
      fVmark.a.toNat)) 256 = true ∧ BitVec.toNat (readG sVec (c0.val) k0 fVmark.a.toNat) % 128 = 0 ∧ poisoned sVec (BitVec.toNat
      (readG sVec (c0.val) k0 fVmark.a.toNat)) = false ∧ poisoned sVec (BitVec.toNat (readG sVec (c0.val) k0 fVmark.a.toNat) +
      128) = false)) = true)) :=
  ⟨
    some_wit (by decide +kernel) (some_wit (by decide +kernel) (some_wit (by decide +kernel) (some_wit (by decide +kernel) ⟨_,
      rfl, ⟨_, rfl, ⟨_, rfl, ⟨_, rfl, ⟨_, rfl, by decide +kernel⟩⟩⟩⟩⟩))),
    by decide +kernel⟩

theorem witness_HoldsAndYields :
    ((((List.find? (fun x => decide (x.place = WaitPlace.seq k0)) (coreAt sHeld c0.val).heldWaits).any fun h => decide (sized
      sHeld = true ∧ quenched sHeld = false ∧ firstHeld (coreAt sHeld c0.val) h = true ∧ h.n ≤ readSc sHeld (c0.val) h.counter ∧
      h.counter < 16 ∧ h.sigen = false)) = true) ∧ (((List.find? (fun x => decide (x.place = WaitPlace.seq k0)) (coreAt sHeldLate
      c0.val).heldWaits).any fun h => decide (sized sHeldLate = true ∧ quenched sHeldLate = false ∧ (ctxAt sHeldLate (c0.val)
      k0).over = false ∧ getF sHeldLate (CORE_SEQCTL c0.val) CORE_SEQCTL_WAIT_LIM ≠ 0 ∧ getF sHeldLate (CORE_SEQCTL c0.val)
      CORE_SEQCTL_WAIT_LIM * 1000000 < sHeldLate.time.ns - h.since - h.quenched)) = true) ∧ (sized sFenced = true ∧ quenched
      sFenced = false ∧ (ctxAt sFenced (c0.val) k0).hold = SeqHold.fence 2 true 3 ∧ fenceOpen sFenced (c0.val) k0 (2) = true ∧
      (true = true → 3 < 16 ∧ physSc (isSplit sFenced c0.val) k0 3 < 16 ∧ readSc sFenced (c0.val) (physSc (isSplit sFenced c0.val)
      k0 3) < 4294967295)) ∧ (sized sDone = true ∧ quenched sDone = false ∧ (ctxAt sDone (c0.val) k0).hold = SeqHold.done false 0
      ∧ fenceOpen sDone (c0.val) k0 15 = true ∧ (ctxAt sDone (c0.val) k0).over = false ∧ yieldReady (setCtxAt sDone (c0.val) k0
      ({ ctxAt sDone (c0.val) k0 with stat := CtxStat.noTask, hold := SeqHold.none, partDone := true })) c0.val = false) ∧ (sized
      sFenceShut = true ∧ quenched sFenceShut = false ∧ (ctxAt sFenceShut (c0.val) k0).hold = SeqHold.fence 2 true 3 ∧ fenceOpen
      sFenceShut (c0.val) k0 (2) = false)) ∧
    ((ctlGo s0 (c0.val) k0 (yieldMode fz false) (yieldShape (isSplit s0 c0.val)) true = true ∧ (coreAt s0 c0.val).preq = none) ∧
      ((Instr.yieldNow c0 0 fz = Instr.yieldNow c0 0 fz ∧ ctlGo sYield (c0.val) 0 (yieldMode fz true) (yieldShape false) true =
      true ∨ Instr.yieldNow c0 0 fz = Instr.yieldIf c0 0 fz ∧ ctlGo sYield (c0.val) 0 (yieldMode fz false) (yieldShape false) true
      = true ∧ (coreAt sYield c0.val).preq.isSome = true) ∧ isSplit sYield c0.val = false ∧ (ctxAt sYield (c0.val) 0).partDone =
      false ∧ (coreAt sYield c0.val).ended = none ∧ saveObstacle sYield c0.val = none ∧ freeSlot sYield (hearthOf c0.val) = some
      0) ∧ ((saveObstacle s0 c0.val).isSome = true ∧ ctlGo s0 (c0.val) 0 (yieldMode fz true) (yieldShape false) true = true ∧
      isSplit s0 c0.val = false ∧ (ctxAt s0 (c0.val) 0).partDone = false ∧ (coreAt s0 c0.val).ended = none)) :=
  ⟨
    by decide +kernel,
    by decide +kernel⟩

theorem witness_DispatcherRequests :
    (sized sLeaving = true ∧ quenched sLeaving = false ∧ (coreAt sLeaving c0.val).task.isSome = true ∧ (coreAt sLeaving
      c0.val).ended = none ∧ (coreAt sLeaving c0.val).preq = none ∧ coreSaving sLeaving c0.val = false ∧ domState sLeaving (domOf
      c0.val) = 1 ∧ flag sLeaving (CORE_TILECTL c0.val) CORE_TILECTL_LEAVE_POLICY = true ∧ liveCtxs sLeaving c0.val ≠ [] ∧ (∃ k ∈
      liveCtxs sLeaving c0.val, (ctxAt sLeaving (c0.val) k).stat ≠ CtxStat.atYield) ∧ yieldWait sLeaving c0.val ≠ 0) ∧
    (sized sAsked = true ∧ quenched sAsked = false ∧ (coreAt sAsked c0.val).preq = some 0 ∧ coreSaving sAsked c0.val = false ∧
      yieldWait sAsked c0.val ≤ sAsked.time.ns - 0) :=
  ⟨
    by decide +kernel,
    by decide +kernel⟩

theorem witness_EntriesLeave :
    (sized sOffDone = true ∧ quenched sOffDone = false ∧ (coreAt sOffDone c0.val).queue Queue.fab = [doneEntry 161 fz true] ∧
      entryOver (doneEntry 161 fz true) = true ∧ ((doneEntry 161 fz true).off = true ∨ (doneEntry 161 fz true).op ∉ [128, 161,
      163, 165]) ∧ sOffDone.coll.insts = [] ∧ (∀ (j : CoreId), j ≠ c0 ∨ Queue.fab ≠ Queue.fab → (coreAt sOffDone ↑j).fab = []) ∧
      ((doneEntry 161 fz true).f.sigen = true → physSc (isSplit sOffDone c0.val) (doneEntry 161 fz true).ctx (doneEntry 161 fz
      true).f.sigc.toNat < 16 ∧ readSc sOffDone (c0.val) (physSc (isSplit sOffDone c0.val) (doneEntry 161 fz true).ctx (doneEntry
      161 fz true).f.sigc.toNat) < 4294967295)) ∧ (sized sGot = true ∧ quenched sGot = false ∧ (coreAt sGot c0.val).fab =
      [doneEntry 161 (fr 0 0 0 0 2 0 4) false [(0, [1, 2, 3, 4])]] ∧ entryOver (doneEntry 161 (fr 0 0 0 0 2 0 4) false [(0, [1, 2,
      3, 4])]) = true ∧ (doneEntry 161 (fr 0 0 0 0 2 0 4) false [(0, [1, 2, 3, 4])]).off = false ∧ (doneEntry 161 (fr 0 0 0 0 2 0
      4) false [(0, [1, 2, 3, 4])]).f.sigen = false ∧ sGot.coll.insts = [] ∧ (∀ (j : CoreId), j ≠ c0 → (coreAt sGot ↑j).fab = [])
      ∧ (doneEntry 161 (fr 0 0 0 0 2 0 4) false [(0, [1, 2, 3, 4])]).op = 161 ∧ fabSpace (doneEntry 161 (fr 0 0 0 0 2 0 4) false
      [(0, [1, 2, 3, 4])]).f = 1 ∧ (entryData (doneEntry 161 (fr 0 0 0 0 2 0 4) false [(0, [1, 2, 3, 4])])).length = fabLen
      (doneEntry 161 (fr 0 0 0 0 2 0 4) false [(0, [1, 2, 3, 4])]).f) ∧ (sized sGathered = true ∧ quenched sGathered = false ∧
      (coreAt sGathered c0.val).fab = [doneEntry 165 (fr 0 0 0 0) false [(0, [1, 2, 3, 4])]] ∧ entryOver (doneEntry 165 (fr 0 0 0
      0) false [(0, [1, 2, 3, 4])]) = true ∧ (doneEntry 165 (fr 0 0 0 0) false [(0, [1, 2, 3, 4])]).off = false ∧ (doneEntry 165
      (fr 0 0 0 0) false [(0, [1, 2, 3, 4])]).f.sigen = false ∧ sGathered.coll.insts = [] ∧ (∀ (j : CoreId), j ≠ c0 → (coreAt
      sGathered ↑j).fab = []) ∧ (doneEntry 165 (fr 0 0 0 0) false [(0, [1, 2, 3, 4])]).op = 165) ∧ (sized sAtomDone = true ∧
      quenched sAtomDone = false ∧ (coreAt sAtomDone c0.val).fab = [doneEntry 163 (fr 7 0 0 0) false [(0, [1, 2, 3, 4, 0, 0, 0,
      0])]] ∧ entryOver (doneEntry 163 (fr 7 0 0 0) false [(0, [1, 2, 3, 4, 0, 0, 0, 0])]) = true ∧ (doneEntry 163 (fr 7 0 0 0)
      false [(0, [1, 2, 3, 4, 0, 0, 0, 0])]).off = false ∧ (doneEntry 163 (fr 7 0 0 0) false [(0, [1, 2, 3, 4, 0, 0, 0,
      0])]).f.sigen = false ∧ sAtomDone.coll.insts = [] ∧ (∀ (j : CoreId), j ≠ c0 → (coreAt sAtomDone ↑j).fab = []) ∧ (doneEntry
      163 (fr 7 0 0 0) false [(0, [1, 2, 3, 4, 0, 0, 0, 0])]).op = 163) :=
    by decide +kernel

theorem witness_SaveAndRestore :
    ((((coreAt sSaving c0.val).task).any fun x => decide (sized sSaving = true ∧ x.slot = some 0 ∧ saveReady sSaving c0.val = true
      ∧ (coreAt sSaving c0.val).anv0 = [] ∧ (coreAt sSaving c0.val).anv1 = [] ∧ (coreAt sSaving c0.val).pass0 = none ∧ (coreAt
      sSaving c0.val).pass1 = none ∧ seqSaveBad sSaving c0.val = false ∧ slotAddr sSaving 0 + saveLen + seqSaveLen ≤ 2 ^ 40 ∧
      saveMiss sSaving c0.val = none)) = true) ∧
    ((((coreAt sRestoring c0.val).task).any fun x => decide (sized sRestoring = true ∧ x.slot = some 0 ∧ quenched sRestoring =
      false ∧ (coreAt sRestoring c0.val).ctx0.stat = CtxStat.restoring ∧ saveOff sRestoring c0.val + saveLen ≤ csSize ∧ seqSaveBad
      sRestoring c0.val = false ∧ (memRead sRestoring (slotAddr sRestoring 0) (saveLen + seqSaveLen)).2.1 = Acc.ok)) = true) :=
  ⟨
    by decide +kernel,
    by decide +kernel⟩

theorem witness_MovesPutsAndGets :
    (∃ x, moveOf (Instr.fput c0 k0 fPut) = some x ∧ ∃ rem, rem = BitVec.toNat (readG sFab (c0.val) k0 fPut.b.toNat) ∧ ∃ n, n =
      fabLen fPut ∧ openDram sFab (rem % 2 ^ 48) n ∧ fabVia fPut = false ∧ fabSpace fPut = 1 ∧ 0 < n ∧ queueGo sFab x = true ∧
      fabHeld sFab (c0.val) (x.entry sFab false) = false ∧ rem / 2 ^ 48 = ownNode sFab) ∧
    (∃ x, moveOf (Instr.fget c0 k0 fPut) = some x ∧ ∃ rem, rem = BitVec.toNat (readG sFab (c0.val) k0 fPut.b.toNat) ∧ ∃ n, n =
      fabLen fPut ∧ openDram sFab (rem % 2 ^ 48) n ∧ fabVia fPut = false ∧ fabSpace fPut = 1 ∧ 0 < n ∧ queueGo sFab x = true ∧
      fabHeld sFab (c0.val) (x.entry sFab false) = false ∧ rem / 2 ^ 48 = ownNode sFab) ∧
    ((((moveOf (Instr.mcopy c0 k0 fCopy)).any fun x => decide (let w := (moveWordOf (readG sFab (c0.val) k0 fCopy.c.toNat)); let
      src := (BitVec.toNat (readG sFab (c0.val) k0 fCopy.a.toNat)); let dst := (BitVec.toNat (readG sFab (c0.val) k0
      fCopy.b.toNat)); queueGo sFab x = true ∧ mcopyLayout fCopy = 0 ∧ mcopySrcSpace fCopy = 1 ∧ mcopyDstSpace fCopy = 1 ∧
      (w.bytes ≤ dstStride fCopy ∨ w.rows = 1) ∧ (src + spanOf w (srcStride fCopy) ≤ dst ∨ dst + spanOf w (dstStride fCopy) ≤
      src))) = true) ∧ (((moveOf (Instr.mfill c0 k0 fFill)).any fun x => decide (queueGo sFab x = true ∧ fFill.modBits 106 105 =
      1)) = true) ∧ (((moveOf (Instr.fput c0 k0 fPutN)).any fun x => decide (let rem := (BitVec.toNat (readG sFab (c0.val) k0
      fPutN.b.toNat)); let n := (fabLen fPutN); fabVia fPutN = false ∧ fabSpace fPutN = 1 ∧ 0 < n ∧ queueGo sFab x = true ∧
      fabHeld sFab (c0.val) (x.entry sFab false) = false ∧ rem / 2 ^ 48 ≠ ownNode sFab ∧ nodeReachable sFab (rem / 2 ^ 48) = true
      ∧ hasPath sFab (dstAt sFab (rem / 2 ^ 48)) = true)) = true) ∧ (((moveOf (Instr.fget c0 k0 fPutN)).any fun x => decide (let
      rem := (BitVec.toNat (readG sFab (c0.val) k0 fPutN.b.toNat)); let n := (fabLen fPutN); fabVia fPutN = false ∧ fabSpace fPutN
      = 1 ∧ 0 < n ∧ queueGo sFab x = true ∧ fabHeld sFab (c0.val) (x.entry sFab false) = false ∧ rem / 2 ^ 48 ≠ ownNode sFab ∧
      nodeReachable sFab (rem / 2 ^ 48) = true ∧ hasPath sFab (dstAt sFab (rem / 2 ^ 48)) = true)) = true)) :=
  ⟨
    some_wit (by decide +kernel) ⟨_, rfl, ⟨_, rfl, openDram_and (by decide +kernel)⟩⟩,
    some_wit (by decide +kernel) ⟨_, rfl, ⟨_, rfl, openDram_and (by decide +kernel)⟩⟩,
    by decide +kernel⟩

theorem witness_AtomicReduceGatherSend :
    (∃ x, moveOf (Instr.fatom c0 k0 fAtom) = some x ∧ openDram sFab (BitVec.toNat (readG sFab (c0.val) k0 fAtom.a.toNat)) 8 ∧
      queueGo sFab x = true ∧ fabHeld sFab (c0.val) (x.entry sFab false) = false ∧ fabSpace fAtom = 0) ∧
    (∃ x, moveOf (Instr.fred c0 k0 fRedu) = some x ∧ openDram sFab (BitVec.toNat (readG sFab (c0.val) k0 fRedu.b.toNat)) (8 * 2) ∧
      queueGo sFab x = true ∧ fabHeld sFab (c0.val) (x.entry sFab false) = false ∧ fabSpace fRedu = 0 ∧ fabLen fRedu = 8 * 2 ∧
      BitVec.toNat (readG sFab (c0.val) k0 fRedu.b.toNat) % 128 + 8 * 2 ≤ 128) ∧
    (∃ x, moveOf (Instr.fgath c0 k0 fGath) = some x ∧ (∀ v ∈ readWords sFab (csBase c0.val + BitVec.toNat (readG sFab (c0.val) k0
      fGath.a.toNat)) (fgathN fGath), BitVec.toNat v % 128 = 0 ∧ BitVec.toNat v / 2 ^ 48 = ownNode sFab ∧ openDram sFab
      (BitVec.toNat v % 2 ^ 48) 128) ∧ queueGo sFab x = true ∧ fabHeld sFab (c0.val) (x.entry sFab false) = false) ∧
    (((moveOf (Instr.fsend c0 k0 fSend)).any fun x => decide (((connAt sFab (fabConn fSend)).any fun c => decide (queueGo sFab x =
      true ∧ fabHeld sFab (c0.val) (x.entry sFab false) = false ∧ c.error = false ∧ c.waitq = [])) = true)) = true) :=
  ⟨
    some_wit (by decide +kernel) (openDram_and (by decide +kernel)),
    some_wit (by decide +kernel) (openDram_and (by decide +kernel)),
    some_wit (by decide +kernel) ⟨gathered_open, by decide +kernel⟩,
    by decide +kernel⟩

theorem witness_CollectivesStart :
    (∃ x, moveOf (Instr.fcollReduceScatter c0 k0 (fC 7)) = some x ∧ ∃ ws, ws = readWords sFab (csBase c0.val + BitVec.toNat (readG
      sFab (c0.val) k0 (fC 7).a.toNat)) 8 ∧ ∃ src, src = descSrc ws ∧ ∃ dst, dst = descDst ws ∧ ∃ n, n = wfield ws 1 31 0 ∧
      openDram sFab src n ∧ openDram sFab dst n ∧ sized sFab = true ∧ (Instr.fcollReduceScatter c0 k0 (fC 7) =
      Instr.fcollReduceScatter c0 k0 (fC 7) ∧ dtypeOf ws = 1 ∨ Instr.fcollReduceScatter c0 k0 (fC 7) = Instr.fcollAllGather c0 k0
      (fC 7) ∧ dtypeOf ws = 4 ∨ Instr.fcollReduceScatter c0 k0 (fC 7) = Instr.fcollAllReduce c0 k0 (fC 7) ∧ dtypeOf ws = 1 ∨
      Instr.fcollReduceScatter c0 k0 (fC 7) = Instr.fcollBroadcast c0 k0 (fC 7) ∧ dtypeOf ws = 4) ∧ queueGo sFab x = true ∧
      groupAt sFab (wfield ws 0 47 32) = some (grp 7 [0]) ∧ fabHeld sFab (c0.val) (x.entry sFab false) = false ∧ (grp 7
      [0]).nodes.length = 1 ∧ (grp 7 [0]).rank = 0 ∧ (grp 7 [0]).outq = [] ∧ (grp 7 [0]).aborted = [] ∧ descBad (grp 7 [0])
      (collOpOf (x.entry sFab false)) ws = false) ∧
    (((moveOf (Instr.fbar c0 k0 (fBar 8))).any fun x => decide (sized sFab = true ∧ queueGo sFab x = true ∧ groupAt sFab (fabConn
      (fBar 8)) = some (grp 8 [0, 1]) ∧ fabHeld sFab (c0.val) (x.entry sFab false) = false ∧ (grp 8 [0, 1]).aborted = [] ∧
      childrenIn (grp 8 [0, 1]).size 0 (grp 8 [0, 1]).rank ≠ [])) = true) ∧
    (∃ x, moveOf (Instr.fcollStepEnd c0 k0 (fC 9)) = some x ∧ ∃ ws, ws = readWords sFab (csBase c0.val + BitVec.toNat (readG sFab
      (c0.val) k0 (fC 9).a.toNat)) 8 ∧ ∃ n, n = payloadLen (payLayers (readWords sFab (descSrc ws) 1)) (payPhase (readWords sFab
      (descSrc ws) 1)) ∧ openDram sFab (descSrc ws) 8 ∧ openDram sFab (descSrc ws) (8 * n) ∧ sized sFab = true ∧ queueGo sFab x =
      true ∧ groupAt sFab (wfield ws 0 47 32) = some (grp 8 [0, 1]) ∧ fabHeld sFab (c0.val) (x.entry sFab false) = false ∧ (grp 8
      [0, 1]).aborted = [] ∧ descBad (grp 8 [0, 1]) CollOp.stepEnd ws = false ∧ childrenIn (grp 8 [0, 1]).size 0 (grp 8 [0,
      1]).rank ≠ [] ∧ payloadBad sFab (readWords sFab (descSrc ws) 1) = false) ∧
    (((moveOf (Instr.fsnap c0 k0 (fBar 8))).any fun x => decide (sized sFabBusy = true ∧ queueGo sFabBusy x = true ∧ groupAt
      sFabBusy (fabConn (fBar 8)) = some (grp 8 [0, 1]) ∧ fabHeld sFabBusy (c0.val) (x.entry sFabBusy false) = false ∧ (grp 8 [0,
      1]).aborted = [] ∧ snapBad sFabBusy = false ∧ fabricFenced sFabBusy = false)) = true) ∧
    (((moveOf (Instr.fbar c0 k0 (fBar 9))).any fun x => decide (sized sFab = true ∧ queueGo sFab x = true ∧ 9 = fabConn (fBar 9) ∧
      groupAt sFab 9 = none ∧ fabHeld sFab (c0.val) (x.entry sFab false) = false ∧ live sFab (c0.val) k0 = true)) = true) :=
  ⟨
    some_wit (by decide +kernel) ⟨_, rfl, ⟨_, rfl, ⟨_, rfl, ⟨_, rfl, ⟨openDram_of (by decide +kernel), openDram_of
      (by decide +kernel), by decide +kernel⟩⟩⟩⟩⟩,
    by decide +kernel,
    some_wit (by decide +kernel) ⟨_, rfl, ⟨_, rfl, ⟨openDram_of (by decide +kernel), openDram_of (by decide +kernel),
      by decide +kernel⟩⟩⟩,
    by decide +kernel,
    by decide +kernel⟩

theorem witness_ShadowsAndCells :
    (sized (anvOf Anvil.reset [eZero]) = true ∧ anvilsLive (anvOf Anvil.reset [eZero]) c0.val = true ∧ lanesTile (anvOf
      Anvil.reset [eZero]) c0.val = true ∧ nextFor (anvOf Anvil.reset [eZero]) (c0.val) (0) opAzero = some eZero ∧ shadowFree
      (anvilAt (anvOf Anvil.reset [eZero]) c0.val 0) = true) ∧ (sized (anvOf Anvil.reset [eLoad]) = true ∧ anvilsLive (anvOf
      Anvil.reset [eLoad]) c0.val = true ∧ lanesTile (anvOf Anvil.reset [eLoad]) c0.val = true ∧ nextFor (anvOf Anvil.reset
      [eLoad]) (c0.val) (0) opAload = some eLoad ∧ shadowFree (anvilAt (anvOf Anvil.reset [eLoad]) c0.val 0) = true ∧ (loadSet
      (anvOf Anvil.reset [eLoad]) (c0.val) (0) (tagOf eLoad) (loadSrcOf eLoad)).isSome = true) ∧ ((((anvilAt (anvOf
      ({ Anvil.reset with load := some { tag := 7, qid := 0 } }) [eBegun]) c0.val 0).load).any fun l => decide ((loadSet (anvOf
      ({ Anvil.reset with load := some { tag := 7, qid := 0 } }) [eBegun]) (c0.val) (0) l.tag (loadSrcOf eBegun)).isSome = true ∧
      sized (anvOf ({ Anvil.reset with load := some { tag := 7, qid := 0 } }) [eBegun]) = true ∧ anvilsLive (anvOf
      ({ Anvil.reset with load := some { tag := 7, qid := 0 } }) [eBegun]) c0.val = true ∧ lanesTile (anvOf
      ({ Anvil.reset with load := some { tag := 7, qid := 0 } }) [eBegun]) c0.val = true ∧ entryOf (anvOf
      ({ Anvil.reset with load := some { tag := 7, qid := 0 } }) [eBegun]) (c0.val) (anvilLane (anvOf
      ({ Anvil.reset with load := some { tag := 7, qid := 0 } }) [eBegun]) c0.val 0) l.qid = some eBegun)) = true) ∧ (sized (anvOf
      Anvil.reset [eSwap]) = true ∧ anvilsLive (anvOf Anvil.reset [eSwap]) c0.val = true ∧ lanesTile (anvOf Anvil.reset [eSwap])
      c0.val = true ∧ nextFor (anvOf Anvil.reset [eSwap]) (c0.val) (0) opAswap = some eSwap ∧ passOn (anvOf Anvil.reset [eSwap])
      c0.val 0 = false ∧ (anvilAt (anvOf Anvil.reset [eSwap]) c0.val 0).load = none ∧ (anvilAt (anvOf Anvil.reset [eSwap]) c0.val
      0).drain = none ∧ (anvilAt (anvOf Anvil.reset [eSwap]) c0.val 0).shadow.st ≠ SetState.finished) ∧ (((List.replicate 32
      (q16Row [1, 2]))[31]?).isSome = true ∧ ((List.replicate 64 (q16Row [3, 4]))[63]?).isSome = true ∧ 31 < 32 ∧ 63 < 64) :=
    by decide +kernel

theorem witness_Passes :
    (sized (anvOf Anvil.reset [ePass]) = true ∧ anvilsLive (anvOf Anvil.reset [ePass]) c0.val = true ∧ nextPass (anvOf Anvil.reset
      [ePass]) (c0.val) 0 = some ePass ∧ lanesTile (anvOf Anvil.reset [ePass]) c0.val = true ∧ (((anvList (anvMask ePass.f)).any
      fun b => rampUpReq (anvilAt (anvOf Anvil.reset [ePass]) (c0.val) b).ramp != Ramp.full) = true)) ∧ (sized (anvOf aTile
      [ePass]) = true ∧ anvilsLive (anvOf aTile [ePass]) c0.val = true ∧ nextPass (anvOf aTile [ePass]) (c0.val) 0 = some ePass ∧
      rampsFull (anvOf aTile [ePass]) (c0.val) (anvMask ePass.f) = true ∧ lanePass (anvOf aTile [ePass]) (c0.val) 0 = none ∧ (∀ a
      ∈ anvList (anvMask ePass.f), (anvilAt (anvOf aTile [ePass]) (c0.val) a).active.st = SetState.running ∧ (anvilAt (anvOf aTile
      [ePass]) (c0.val) a).active.tag = tagOf ePass) ∧ passFault (anvOf aTile [ePass]) (c0.val) ePass = none ∧ lanesTile (anvOf
      aTile [ePass]) c0.val = true) ∧ (((lanePass (anvOf aTile [{ ePass with started := true, begun := 1 }] (some run0)) (c0.val)
      0).any fun p => decide (sized (anvOf aTile [{ ePass with started := true, begun := 1 }] (some run0)) = true ∧ anvilsLive
      (anvOf aTile [{ ePass with started := true, begun := 1 }] (some run0)) c0.val = true ∧ coreSaving (anvOf aTile
      [{ ePass with started := true, begun := 1 }] (some run0)) c0.val = false ∧ rampsFull (anvOf aTile
      [{ ePass with started := true, begun := 1 }] (some run0)) (c0.val) p.anv.toNat = true)) = true) ∧ (sized (anvOf
      ({ aTile with ramp := Ramp.up 3 }) [ePass]) = true ∧ anvilsLive (anvOf ({ aTile with ramp := Ramp.up 3 }) [ePass]) c0.val =
      true ∧ (anvilAt (anvOf ({ aTile with ramp := Ramp.up 3 }) [ePass]) c0.val 0).ramp = Ramp.up 3 ∧ passPending (anvOf
      ({ aTile with ramp := Ramp.up 3 }) [ePass]) c0.val 0 = true) :=
    by decide +kernel

theorem witness_DrainsAndFusedRows :
    ((sized (anvOf aTile [eDrain]) = true ∧ nextFor (anvOf aTile [eDrain]) (c0.val) (0) opAdrain = some eDrain ∧ anvilsLive (anvOf
      aTile [eDrain]) c0.val = true ∧ lanesTile (anvOf aTile [eDrain]) c0.val = true ∧ coreSaving (anvOf aTile [eDrain]) c0.val =
      false ∧ (anvilAt (anvOf aTile [eDrain]) c0.val 0).drain = none ∧ (anvilAt (anvOf aTile [eDrain]) c0.val 0).load = none ∧
      (anvilAt (anvOf aTile [eDrain]) c0.val 0).shadow.st = SetState.finished ∧ (anvilAt (anvOf aTile [eDrain]) c0.val
      0).shadow.tag = tagOf eDrain ∧ (adrainDest eDrain.f = 0 → fusedFault (readWords (anvOf aTile [eDrain]) (csBase c0.val +
      BitVec.toNat eDrain.ga) 8) (anvList (anvMask eDrain.f)) = none) ∧ (fillSet (anvOf aTile [eDrain]) (c0.val) (0) (fillOf
      eDrain)).isSome = true) ∧ ((((anvilAt (anvOf (aDrain (drun (DrainDest.raw 32768 520) 1 [] [])) [eDrainBegun]) c0.val
      0).drain).any fun d => decide (sized (anvOf (aDrain (drun (DrainDest.raw 32768 520) 1 [] [])) [eDrainBegun]) = true ∧ d.left
      ≠ 0 ∧ domState (anvOf (aDrain (drun (DrainDest.raw 32768 520) 1 [] [])) [eDrainBegun]) (domOf c0.val) ≤ 1 ∧ d.dest =
      DrainDest.raw 32768 520 ∧ drainFailed (anvOf (aDrain (drun (DrainDest.raw 32768 520) 1 [] [])) [eDrainBegun]) (c0.val) (0) d
      = false ∧ residueMiss d.set (d.left - 1) = none)) = true) ∧ ((((anvilAt (anvOf (aDrain (drun (DrainDest.fused 36864) 1 []
      (fdesc 0))) [eDrainBegun]) c0.val 0).drain).any fun d => decide (sized (anvOf (aDrain (drun (DrainDest.fused 36864) 1 []
      (fdesc 0))) [eDrainBegun]) = true ∧ d.left ≠ 0 ∧ domState (anvOf (aDrain (drun (DrainDest.fused 36864) 1 [] (fdesc 0)))
      [eDrainBegun]) (domOf c0.val) ≤ 1 ∧ d.dest = DrainDest.fused 36864 ∧ drainFailed (anvOf (aDrain (drun (DrainDest.fused
      36864) 1 [] (fdesc 0))) [eDrainBegun]) (c0.val) (0) d = false ∧ residueMiss d.set (d.left - 1) = none)) = true) ∧
      ((((anvilAt (anvOf (aDrain (drun (DrainDest.fused 36864) 0 [] (fdesc 0))) [eDrainBegun]) c0.val 0).drain).any fun d =>
      decide (sized (anvOf (aDrain (drun (DrainDest.fused 36864) 0 [] (fdesc 0))) [eDrainBegun]) = true ∧ d.left = 0 ∧ d.handed =
      [] ∧ drainFailed (anvOf (aDrain (drun (DrainDest.fused 36864) 0 [] (fdesc 0))) [eDrainBegun]) (c0.val) (0) d = false)) =
      true) ∧ (((readRow (sFloor 1) (c0.val) (fdFloor.dest + 0 * fdFloor.stride) 16 fdFloor.len false false).any fun v => decide
      (sized (sFloor 1) = true ∧ (v.exp = -127 ∧ ∀ q ∈ v.codes, q.natAbs < 16384))) = true)) ∧
    ((((readRow (sFloor 20000) (c0.val) (fdFloor.dest + 0 * fdFloor.stride) 16 fdFloor.len false false).any fun v => decide (sized
      (sFloor 20000) = true ∧ (¬(v.exp = -127 ∧ ∀ q ∈ v.codes, q.natAbs < 16384)))) = true) ∧ ((((anvilAt (anvOf (aDrain (drun
      (DrainDest.fused 36864) 31 [31] (fdesc 1))) [eDrainBegun]) c0.val 0).drain).any fun d => decide (let fd := (fusedDescOf
      d.desc); sized (anvOf (aDrain (drun (DrainDest.fused 36864) 31 [31] (fdesc 1))) [eDrainBegun]) = true ∧ d.handed = [31] ∧
      entryOf (anvOf (aDrain (drun (DrainDest.fused 36864) 31 [31] (fdesc 1))) [eDrainBegun]) (c0.val) (anvilLane (anvOf (aDrain
      (drun (DrainDest.fused 36864) 31 [31] (fdesc 1))) [eDrainBegun]) c0.val 0) d.qid = some eDrainBegun ∧ fd.len ≤ 64 *
      (fd.colblk + 0))) = true) ∧ ((((anvilAt (anvOf (aDrain (drun (DrainDest.fused 36864) 31 [31] (fdesc 0))) [eDrainBegun])
      c0.val 0).drain).any fun d => decide (let fd := (fusedDescOf d.desc); (fusedParts (anvOf (aDrain (drun (DrainDest.fused
      36864) 31 [31] (fdesc 0))) [eDrainBegun]) (c0.val) (0) 31 fd).isSome = true ∧ sized (anvOf (aDrain (drun (DrainDest.fused
      36864) 31 [31] (fdesc 0))) [eDrainBegun]) = true ∧ d.handed = [31] ∧ entryOf (anvOf (aDrain (drun (DrainDest.fused 36864) 31
      [31] (fdesc 0))) [eDrainBegun]) (c0.val) (anvilLane (anvOf (aDrain (drun (DrainDest.fused 36864) 31 [31] (fdesc 0)))
      [eDrainBegun]) c0.val 0) d.qid = some eDrainBegun ∧ 64 * (fd.colblk + 0) < fd.len ∧ fd.mon = false ∧ eDrainBegun.failed =
      none ∧ (anvilAt (anvOf (aDrain (drun (DrainDest.fused 36864) 31 [31] (fdesc 0))) [eDrainBegun]) c0.val 0).poison = false)) =
      true)) :=
  ⟨
    by decide +kernel,
    by decide +kernel⟩

theorem witness_ManagementRegisters :
    (((regAt (1048644)).any fun d => decide (mayWrite s0 smith.toNat (1048644) = true ∧ plainReg (1048644) = true ∧ fld1 ∈
      d.fields)) = true) ∧ ((mayWrite s0 (255) (1048644) = false ∨ (regAt (1048644)).isNone = true)) ∧ (((regAt (1048644)).any fun
      d => decide (mayRead s0 smith.toNat (1048644) = true ∧ isLockReg (1048644) = false ∧ isWindowReg (1048644) = false ∧ fld1 ∈
      d.fields)) = true) ∧ ((mayRead s0 (255) (1048644) = false ∨ (regAt (1048644)).isNone = true)) :=
    by decide +kernel

theorem witness_DomainsAndRetirement :
    ((sized sAllOn = true ∧ (Instr.domainSwitchOff u0 = Instr.domainSwitchOff u0 ∧ DomCmd.off = DomCmd.off ∨ Instr.domainSwitchOff
      u0 = Instr.domainSelfTestStart u0 ∧ DomCmd.off = DomCmd.test ∧ testRuns sAllOn (u0.val / 8) = false) ∧ quenched sAllOn =
      false ∧ inTransition sAllOn u0.val = false ∧ domState sAllOn u0.val = 0 ∧ wouldStrand sAllOn u0.val = false) ∧ (sized sOneOn
      = true ∧ (Instr.domainSwitchOff u0 = Instr.domainSwitchOff u0 ∧ DomCmd.off = DomCmd.off ∨ Instr.domainSwitchOff u0 =
      Instr.domainSelfTestStart u0 ∧ DomCmd.off = DomCmd.test ∧ testRuns sOneOn (u0.val / 8) = false) ∧ quenched sOneOn = false ∧
      inTransition sOneOn u0.val = false ∧ domState sOneOn u0.val = 0 ∧ wouldStrand sOneOn u0.val = true ∧ (domainAt sOneOn
      u0.val).held = []) ∧ (sized sOffDom = true ∧ quenched sOffDom = false ∧ inTransition sOffDom u0.val = false ∧ domState
      sOffDom u0.val = 2) ∧ (sized sMoving = true ∧ (Instr.domainSwitchOff u0 = Instr.domainSwitchOff u0 ∧ DomCmd.off = DomCmd.off
      ∨ Instr.domainSwitchOff u0 = Instr.domainSelfTestStart u0 ∧ DomCmd.off = DomCmd.test ∨ Instr.domainSwitchOff u0 =
      Instr.domainSwitchOn u0 ∧ DomCmd.off = DomCmd.on) ∧ (quenched sMoving = true ∨ inTransition sMoving u0.val = true)) ∧ (sized
      (sLeft DomCmd.off) = true ∧ quenched (sLeft DomCmd.off) = false ∧ domState (sLeft DomCmd.off) u0.val = 1 ∧ domainIdle (sLeft
      DomCmd.off) u0.val = true ∧ (domainAt (sLeft DomCmd.off) u0.val).target = some DomCmd.off ∧ (domainAt (sLeft DomCmd.off)
      u0.val).pending = [])) ∧
    ((sized sClearing = true ∧ (domainAt sClearing u0.val).clearing = true ∧ domQuiet sClearing = true ∧ sClearing.job = none) ∧
      (sized sTesting = true ∧ quenched sTesting = false ∧ domState sTesting u0.val = 3 ∧ (domainAt sTesting u0.val).testing =
      true ∧ (domainAt sTesting u0.val).window = none) ∧ (let i := (64 * (u0.val / 8) + 8 * (u0.val % 8) + u0.val % 8); sized
      sTesting = true ∧ quenched sTesting = false ∧ domState sTesting u0.val = 3 ∧ (domainAt sTesting u0.val).testing = true ∧
      (domainAt sTesting u0.val).window = none ∧ coreRetired sTesting i = false) ∧ (sized (sRetire true) = true ∧ (coreAt (sRetire
      true) c0.val).retireDue = some 1 ∧ coreHoldsTask (sRetire true) c0.val = true) ∧ (sized (sRetire false) = true ∧ (coreAt
      (sRetire false) c0.val).retireDue = some 1 ∧ coreHoldsTask (sRetire false) c0.val = false ∧ coreRetired (sRetire false)
      c0.val = false)) :=
  ⟨
    by decide +kernel,
    by decide +kernel⟩

theorem witness_TaskLife :
    ((sized sReady = true ∧ dispatchOpen sReady = true ∧ nextTask sReady h0.val = some (tk1, 0) ∧ wfield tk1.record 0 63 48 = 2643
      ∧ tk1.slot = none ∧ tk1.mbox = none) ∧ (sized (sPartDone tk1) = true ∧ (coreAt (sPartDone tk1) c0.val).task = some tk1 ∧
      quenched (sPartDone tk1) = false ∧ (ctxAt (sPartDone tk1) (c0.val) k0).partDone = true ∧ tk1.parts.toNat = 2 ^ k0.val ∧
      tk1.fails = 0 ∧ (sPartDone tk1).job = none) ∧ (sized (sPartDone tk3) = true ∧ (coreAt (sPartDone tk3) c0.val).task = some
      tk3 ∧ quenched (sPartDone tk3) = false ∧ (ctxAt (sPartDone tk3) (c0.val) k0).partDone = true ∧ tk3.parts = 3) ∧ (let h :=
      (queueHome (sEnded (TaskEnd.preempted true)) (hearthOf c0.val)); sized (sEnded (TaskEnd.preempted true)) = true ∧ (coreAt
      (sEnded (TaskEnd.preempted true)) c0.val).task = some tk1 ∧ (coreAt (sEnded (TaskEnd.preempted true)) c0.val).ended = some
      (TaskEnd.preempted true) ∧ quenched (sEnded (TaskEnd.preempted true)) = false ∧ contextsOver (sEnded (TaskEnd.preempted
      true)) c0.val = true ∧ h < 16) ∧ (let h := (queueHome (sEnded (TaskEnd.preempted false)) (hearthOf c0.val)); sized (sEnded
      (TaskEnd.preempted false)) = true ∧ (coreAt (sEnded (TaskEnd.preempted false)) c0.val).task = some tk1 ∧ (coreAt (sEnded
      (TaskEnd.preempted false)) c0.val).ended = some (TaskEnd.preempted false) ∧ quenched (sEnded (TaskEnd.preempted false)) =
      false ∧ contextsOver (sEnded (TaskEnd.preempted false)) c0.val = true ∧ h < 16)) ∧
    ((let h := (queueHome (sEnded (TaskEnd.hardware 6 false)) (hearthOf c0.val)); sized (sEnded (TaskEnd.hardware 6 false)) = true
      ∧ (coreAt (sEnded (TaskEnd.hardware 6 false)) c0.val).task = some tk1 ∧ (coreAt (sEnded (TaskEnd.hardware 6 false))
      c0.val).ended = some (TaskEnd.hardware 6 false) ∧ quenched (sEnded (TaskEnd.hardware 6 false)) = false ∧ contextsOver
      (sEnded (TaskEnd.hardware 6 false)) c0.val = true ∧ h < 16 ∧ 6 ≠ 13 ∧ tk1.fails = 0 ∧ tk1.slot = none ∧ tk1.moved = false ∧
      inService (sEnded (TaskEnd.hardware 6 false)) c0.val = true) ∧ (let h := (queueHome (sEnded TaskEnd.program) (hearthOf
      c0.val)); sized (sEnded TaskEnd.program) = true ∧ (coreAt (sEnded TaskEnd.program) c0.val).task = some tk1 ∧ (coreAt (sEnded
      TaskEnd.program) c0.val).ended = some TaskEnd.program ∧ quenched (sEnded TaskEnd.program) = false ∧ contextsOver (sEnded
      TaskEnd.program) c0.val = true ∧ h < 16 ∧ (sEnded TaskEnd.program).job = none)) :=
  ⟨
    by decide +kernel,
    by decide +kernel⟩

theorem witness_SplitWrites :
    (tagsLive (sPartDone tk3) c0.val = false) ∧
    (tagsLive sTagLive c0.val = true) :=
  ⟨
    by decide +kernel,
    by decide +kernel⟩

theorem witness_TrimAndWeld :
    ((sized sAllOn = true ∧ domState sAllOn u0.val = 0 ∧ inTransition sAllOn u0.val = false ∧ (domainAt sAllOn u0.val).window =
      none ∧ quenched sAllOn = false ∧ domainIdle sAllOn u0.val = true ∧ domainAnvilsIdle sAllOn u0.val = true) ∧ (sized
      sOldWindow = true ∧ domState sOldWindow u0.val = 0 ∧ inTransition sOldWindow u0.val = false ∧ (domainAt sOldWindow
      u0.val).window = none ∧ quenched sOldWindow = false ∧ 60000000000 ≤ sOldWindow.time.ns - (domainAt sOldWindow
      u0.val).lastWindow ∧ testRuns sOldWindow (u0.val / 8) = false ∧ wouldStrand sOldWindow u0.val = false) ∧ (sized sWindow =
      true ∧ (domainAt sWindow u0.val).window = some false ∧ quenched sWindow = false ∧ (domainAt sWindow u0.val).pending = [] ∧
      smallestSlack ((domReplicas u0.val).zip (List.map (fun x => x.toNat) (List.replicate 40 (1 : BitVec 5)))) = some (0, 1)) ∧
      (sized sWeld = true ∧ sWeld.weld.up = true ∧ (weldDir sWeld 0).code ≠ 15 ∧ smallestSlack ((weldReplicas 0).zip (List.map
      (fun x => x.toNat) (List.replicate 40 (1 : BitVec 5)))) = some (560, 1)) ∧ (sized (sTrimDue 3600000000000) = true ∧
      (sTrimDue 3600000000000).boot.trimDirty = true ∧ (sTrimDue 3600000000000).boot.slotBusy = none ∧ (sTrimDue
      3600000000000).boot.trimAt = some 0 ∧ 3600000000000 ≤ (sTrimDue 3600000000000).time.ns - 0)) ∧
    ((sized (sTrimDue 5) = true ∧ (sTrimDue 5).boot.trimDirty = true ∧ (sTrimDue 5).boot.slotBusy = none ∧ (sTrimDue
      5).boot.trimAt = some 0 ∧ (sTrimDue 5).time.ns - 0 < 3600000000000) ∧ (sWeld.weld.up = true) ∧ (sWeld.weld.up = true ∧
      (weldDir sWeld 0).fails < 15) ∧ (sWeldWorn.weld.up = true ∧ 15 ≤ (weldDir sWeldWorn 0).fails)) :=
  ⟨
    by decide +kernel,
    by decide +kernel⟩

theorem witness_ScheduleAndStepEnd :
    (openDram (sJob (2 ^ 63) (2 ^ 48 * 65535 + 147456)) 147456 8 ∧ sized (sJob (2 ^ 63) (2 ^ 48 * 65535 + 147456)) = true ∧
      Option.map (fun x => x.started) (sJob (2 ^ 63) (2 ^ 48 * 65535 + 147456)).job = some true ∧ atPhase (sJob (2 ^ 63) (2 ^ 48 *
      65535 + 147456)) h0.val = some 0 ∧ skips (sJob (2 ^ 63) (2 ^ 48 * 65535 + 147456)) (schedEntry (sJob (2 ^ 63) (2 ^ 48 *
      65535 + 147456)) 0) = true ∧ (entryDesc (sJob (2 ^ 63) (2 ^ 48 * 65535 + 147456)) (schedEntry (sJob (2 ^ 63) (2 ^ 48 * 65535
      + 147456)) 0)).getD 3 0 ≠ 0 ∧ placeOf (sJob (2 ^ 63) (2 ^ 48 * 65535 + 147456)) 2 (w64 (BitVec.toNat ((entryDesc (sJob (2 ^
      63) (2 ^ 48 * 65535 + 147456)) (schedEntry (sJob (2 ^ 63) (2 ^ 48 * 65535 + 147456)) 0)).getD 3 0) + 8 * entryMb (schedEntry
      (sJob (2 ^ 63) (2 ^ 48 * 65535 + 147456)) 0))) = Place.mem 147456 ∧ poisoned (sJob (2 ^ 63) (2 ^ 48 * 65535 + 147456))
      147456 = false) ∧
    (openDram (atWalk (sJob 1 0) 2 [{ idx := 1, left := 0, failed := true }]) (gradHeader (atWalk (sJob 1 0) 2
      [{ idx := 1, left := 0, failed := true }]) 0) 8 ∧ sized (atWalk (sJob 1 0) 2 [{ idx := 1, left := 0, failed := true }]) =
      true ∧ Option.map (fun x => x.started) (atWalk (sJob 1 0) 2 [{ idx := 1, left := 0, failed := true }]).job = some true ∧
      ((overEntry (atWalk (sJob 1 0) 2 [{ idx := 1, left := 0, failed := true }]) (h0.val) true fun x => decide (entryKind x ≤ 1))
      = some 1) ∧ quenched (atWalk (sJob 1 0) 2 [{ idx := 1, left := 0, failed := true }]) = false ∧ (entryDesc (atWalk (sJob 1 0)
      2 [{ idx := 1, left := 0, failed := true }]) (schedEntry (atWalk (sJob 1 0) 2 [{ idx := 1, left := 0, failed := true }])
      1)).getD 3 0 = 0 ∧ entryKind (schedEntry (atWalk (sJob 1 0) 2 [{ idx := 1, left := 0, failed := true }]) 1) = 1 ∧
      chunkLayers (atWalk (sJob 1 0) 2 [{ idx := 1, left := 0, failed := true }]) (entryChunk (schedEntry (atWalk (sJob 1 0) 2
      [{ idx := 1, left := 0, failed := true }]) 1)) = [0]) ∧
    (openDram (atWalk (sJob 1 0) 2 [{ idx := 1, left := 0, failed := false }]) (gradHeader (atWalk (sJob 1 0) 2
      [{ idx := 1, left := 0, failed := false }]) 0) 8 ∧ sized (atWalk (sJob 1 0) 2 [{ idx := 1, left := 0, failed := false }]) =
      true ∧ Option.map (fun x => x.started) (atWalk (sJob 1 0) 2 [{ idx := 1, left := 0, failed := false }]).job = some true ∧
      ((overEntry (atWalk (sJob 1 0) 2 [{ idx := 1, left := 0, failed := false }]) (h0.val) false fun x => decide (entryKind x =
      1)) = some 1) ∧ quenched (atWalk (sJob 1 0) 2 [{ idx := 1, left := 0, failed := false }]) = false ∧ entrySkipped (atWalk
      (sJob 1 0) 2 [{ idx := 1, left := 0, failed := false }]) 1 = false ∧ chunkLayers (atWalk (sJob 1 0) 2
      [{ idx := 1, left := 0, failed := false }]) (entryChunk (schedEntry (atWalk (sJob 1 0) 2
      [{ idx := 1, left := 0, failed := false }]) 1)) = [0]) ∧
    ((let e := (schedEntry (sJob 1 0) 0); sized (sJob 1 0) = true ∧ Option.map (fun x => x.started) (sJob 1 0).job = some true ∧
      atPhase (sJob 1 0) h0.val = some 0 ∧ skips (sJob 1 0) e = false ∧ arrived (sJob 1 0) e = true ∧ outstanding (sJob 1 0)
      h0.val < 2 ∧ (entryKind e = 0 → rowsArrived (sJob 1 0) (entryChunk e) = true) ∧ allOpen (sJob 1 0) (recordReads (entryDesc
      (sJob 1 0) e)) = true ∧ queueHome (sJob 1 0) h0.val = h0.val) ∧ (let e := (schedEntry (sJob (2 ^ 63) 0) 0); sized (sJob (2 ^
      63) 0) = true ∧ Option.map (fun x => x.started) (sJob (2 ^ 63) 0).job = some true ∧ atPhase (sJob (2 ^ 63) 0) h0.val = some
      0 ∧ skips (sJob (2 ^ 63) 0) e = true ∧ (entryDesc (sJob (2 ^ 63) 0) e).getD 3 0 = 0) ∧ (let e := (schedEntry (atWalk (sJob 1
      0) 2 [{ idx := 0, left := 0, failed := true }]) 0); sized (atWalk (sJob 1 0) 2 [{ idx := 0, left := 0, failed := true }]) =
      true ∧ Option.map (fun x => x.started) (atWalk (sJob 1 0) 2 [{ idx := 0, left := 0, failed := true }]).job = some true ∧
      ((overEntry (atWalk (sJob 1 0) 2 [{ idx := 0, left := 0, failed := true }]) (h0.val) true fun x => decide (entryKind x ≤ 1))
      = some 0) ∧ quenched (atWalk (sJob 1 0) 2 [{ idx := 0, left := 0, failed := true }]) = false ∧ (entryDesc (atWalk (sJob 1 0)
      2 [{ idx := 0, left := 0, failed := true }]) e).getD 3 0 = 0 ∧ entryKind e = 0) ∧ ((sized (modHearth (atWalk (sJob 1 0) 2
      []) 0 fun h => { h with out := [{ idx := 1, left := 0, failed := false }] }) = true) ∧ (Option.map (fun x => x.started)
      (modHearth (atWalk (sJob 1 0) 2 []) 0 fun h => { h with out := [{ idx := 1, left := 0, failed := false }] }).job = some
      true) ∧ ((overEntry (modHearth (atWalk (sJob 1 0) 2 []) 0 fun h =>
      { h with out := [{ idx := 1, left := 0, failed := false }] }) (h0.val) false fun x => decide (entryKind x = 1)) = some 1) ∧
      (quenched (modHearth (atWalk (sJob 1 0) 2 []) 0 fun h => { h with out := [{ idx := 1, left := 0, failed := false }] }) =
      false) ∧ (entrySkipped (modHearth (atWalk (sJob 1 0) 2 []) 0 fun h =>
      { h with out := [{ idx := 1, left := 0, failed := false }] }) 1 = true)) ∧ (let lim := (bitsOf 31 0 (jobWord (sStalled
      1000000 false) 14)); sized (sStalled 1000000 false) = true ∧ standsAt (sStalled 1000000 false) h0.val = some 0 ∧ (hearthAt
      (sStalled 1000000 false) h0.val).heldSince = some 0 ∧ lim ≠ 0 ∧ (skips (sStalled 1000000 false) (schedEntry (sStalled
      1000000 false) 0) = false ∧ entryKind (schedEntry (sStalled 1000000 false) 0) ≤ 1 ∧ (arrived (sStalled 1000000 false)
      (schedEntry (sStalled 1000000 false) 0) = false ∨ entryKind (schedEntry (sStalled 1000000 false) 0) = 0 ∧ rowsArrived
      (sStalled 1000000 false) (entryChunk (schedEntry (sStalled 1000000 false) 0)) = false) ∨ entryKind (schedEntry (sStalled
      1000000 false) 0) = 2 ∧ Option.map (fun x => x.stepEnd) (sStalled 1000000 false).job = some 0) ∧ (hearthAt (sStalled 1000000
      false) h0.val).stalled = false ∧ lim * 1000000 ≤ (sStalled 1000000 false).time.ns - 0)) ∧
    ((let lim := (bitsOf 31 0 (jobWord (sStalled 5 false) 14)); sized (sStalled 5 false) = true ∧ standsAt (sStalled 5 false)
      h0.val = some 0 ∧ (hearthAt (sStalled 5 false) h0.val).heldSince = some 0 ∧ lim ≠ 0 ∧ (skips (sStalled 5 false) (schedEntry
      (sStalled 5 false) 0) = false ∧ entryKind (schedEntry (sStalled 5 false) 0) ≤ 1 ∧ (arrived (sStalled 5 false) (schedEntry
      (sStalled 5 false) 0) = false ∨ entryKind (schedEntry (sStalled 5 false) 0) = 0 ∧ rowsArrived (sStalled 5 false) (entryChunk
      (schedEntry (sStalled 5 false) 0)) = false) ∨ entryKind (schedEntry (sStalled 5 false) 0) = 2 ∧ Option.map (fun x =>
      x.stepEnd) (sStalled 5 false).job = some 0) ∧ ((hearthAt (sStalled 5 false) h0.val).stalled = true ∨ (sStalled 5
      false).time.ns - 0 < lim * 1000000)) ∧ ((((atWalk (sJob 1 0) 2 []).job).any fun j => decide (sized (atWalk (sJob 1 0) 2 [])
      = true ∧ j.stepEnd = 0 ∧ j.started = true ∧ dispatchOpen (atWalk (sJob 1 0) 2 []) = true ∧ stepOpen (atWalk (sJob 1 0) 2 [])
      = true ∧ earlierOver (atWalk (sJob 1 0) 2 []) = true ∧ entryKind (schedEntry (atWalk (sJob 1 0) 2 []) (schedCount (atWalk
      (sJob 1 0) 2 []) - 1)) = 2 ∧ (atWalk (sJob 1 0) 2 []).surv.adopts = [] ∧ allOpen (atWalk (sJob 1 0) 2 []) [(jobWord (atWalk
      (sJob 1 0) 2 []) 7 + 32 * 16, 32), (wfield (phaseDesc (atWalk (sJob 1 0) 2 []) 2 0) 0 63 0, 64 * wfield (phaseDesc (atWalk
      (sJob 1 0) 2 []) 2 0) 1 63 32)] = true)) = true) ∧ ((((atWalk (sResult 0) 3
      [{ idx := 2, left := 1, failed := false }]).job).any fun j => decide (sized (atWalk (sResult 0) 3
      [{ idx := 2, left := 1, failed := false }]) = true ∧ quenched (atWalk (sResult 0) 3
      [{ idx := 2, left := 1, failed := false }]) = false ∧ (atWalk (sResult 0) 3
      [{ idx := 2, left := 1, failed := false }]).surv.copying = false ∧ 8 = jobGroup (atWalk (sResult 0) 3
      [{ idx := 2, left := 1, failed := false }]) ∧ groupAt (atWalk (sResult 0) 3 [{ idx := 2, left := 1, failed := false }]) (8)
      = some (grp 8 [0, 1]) ∧ instOf (atWalk (sResult 0) 3 [{ idx := 2, left := 1, failed := false }]) (8) = none ∧ j.stepEnd = 2
      ∧ wfield j.payload 2 37 37 = 0 ∧ wfield j.payload 2 39 39 = 0 ∧ stepTasksOver (atWalk (sResult 0) 3
      [{ idx := 2, left := 1, failed := false }]) = false)) = true) ∧ ((((sResult 0).job).any fun j => decide (sized (sResult 0) =
      true ∧ quenched (sResult 0) = false ∧ (sResult 0).surv.copying = false ∧ 8 = jobGroup (sResult 0) ∧ groupAt (sResult 0) (8)
      = some (grp 8 [0, 1]) ∧ instOf (sResult 0) (8) = none ∧ j.stepEnd = 2 ∧ wfield j.payload 2 37 37 = 0 ∧ wfield j.payload 2 39
      39 = 0 ∧ stepTasksOver (sResult 0) = true)) = true) ∧ ((((sResult (2 ^ 39)).job).any fun j => decide (sized (sResult (2 ^
      39)) = true ∧ quenched (sResult (2 ^ 39)) = false ∧ (sResult (2 ^ 39)).surv.copying = false ∧ 8 = jobGroup (sResult (2 ^
      39)) ∧ groupAt (sResult (2 ^ 39)) (8) = some (grp 8 [0, 1]) ∧ instOf (sResult (2 ^ 39)) (8) = none ∧ j.stepEnd = 2 ∧ wfield
      j.payload 2 37 37 = 0 ∧ wfield j.payload 2 39 39 = 1 ∧ ownsLayer (sResult (2 ^ 39)) (wfield j.payload 2 36 27) = false)) =
      true)) ∧
    (((((sResult (2 ^ 37)).job).any fun j => decide (sized (sResult (2 ^ 37)) = true ∧ quenched (sResult (2 ^ 37)) = false ∧
      (sResult (2 ^ 37)).surv.copying = false ∧ 8 = jobGroup (sResult (2 ^ 37)) ∧ groupAt (sResult (2 ^ 37)) (8) = some (grp 8 [0,
      1]) ∧ instOf (sResult (2 ^ 37)) (8) = none ∧ j.stepEnd = 2 ∧ wfield j.payload 2 37 37 = 1 ∧ childrenIn (grp 8 [0, 1]).size 0
      (grp 8 [0, 1]).rank ≠ [])) = true) ∧ ((((sHold (2 ^ 38)).job).any fun j => decide (sized (sHold (2 ^ 38)) = true ∧ quenched
      (sHold (2 ^ 38)) = false ∧ (sHold (2 ^ 38)).surv.copying = false ∧ 8 = jobGroup (sHold (2 ^ 38)) ∧ j.stepEnd = 3 ∧ wfield
      j.payload 2 38 38 = 1)) = true) ∧ ((((atWalk (sHold 0) 3 [{ idx := 2, left := 1, failed := false }]).job).any fun j =>
      decide (sized (atWalk (sHold 0) 3 [{ idx := 2, left := 1, failed := false }]) = true ∧ quenched (atWalk (sHold 0) 3
      [{ idx := 2, left := 1, failed := false }]) = false ∧ (atWalk (sHold 0) 3
      [{ idx := 2, left := 1, failed := false }]).surv.copying = false ∧ 8 = jobGroup (atWalk (sHold 0) 3
      [{ idx := 2, left := 1, failed := false }]) ∧ j.stepEnd = 3 ∧ wfield j.payload 2 38 38 = 0 ∧ j.ratio = false ∧ j.relItem =
      none ∧ stepTasksOver (atWalk (sHold 0) 3 [{ idx := 2, left := 1, failed := false }]) = false)) = true)) :=
  ⟨
    openDram_and (by decide +kernel),
    openDram_and (by decide +kernel),
    openDram_and (by decide +kernel),
    by decide +kernel,
    by decide +kernel,
    by decide +kernel⟩

theorem witness_LinesAndErrors :
    (openDram sMem (lineBase 32776) 128 ∧ sized sMem = true ∧ sMem.memctl.rerunning = none ∧ 32776 % 8 = 0 ∧ poisoned sMem 32776 =
      false) ∧
    ((sized ({ sMem with memctl := { sMem.memctl with rerunning := some (hChannel 32776) } }) = true ∧ 32776 < 2 ^ 40 ∧ assigned
      ({ sMem with memctl := { sMem.memctl with rerunning := some (hChannel 32776) } }) 32776 8 = true ∧ assigned
      ({ sMem with memctl := { sMem.memctl with rerunning := some (hChannel 32776) } }) (lineBase 32776) 128 = true ∧ channelHeld
      ({ sMem with memctl := { sMem.memctl with rerunning := some (hChannel 32776) } }) 32776 1 = true) ∧ (sized (rgn
      { pair := 262143, closed := true, alloc := true, policy := false, busy := false }) = true ∧ (rgn
      { pair := 262143, closed := true, alloc := true, policy := false, busy := false }).memctl.rerunning = none ∧ 1099511627768 <
      2 ^ 40 ∧ assigned (rgn { pair := 262143, closed := true, alloc := true, policy := false, busy := false }) 1099511627768 8 =
      false) ∧ (sized sMem = true ∧ sMem.memctl.rerunning = none ∧ 32776 < 2 ^ 40 ∧ assigned sMem (lineBase 32776) 128 = true ∧
      (65535 = 65535 ∨ poisoned sMem 32776 = false)) ∧ (sized sPoison = true ∧ sPoison.memctl.rerunning = none ∧ 32776 < 2 ^ 40 ∧
      assigned sPoison (lineBase 32776) 128 = true ∧ 5 ≠ 65535 ∧ poisoned sPoison 32776 = true) ∧ (sized sMem = true ∧
      sMem.memctl.rerunning = none ∧ 32776 < 2 ^ 40 ∧ sliceLine sMem 32776 = none)) ∧
    ((sized sMem = true ∧ sMem.memctl.rerunning = none ∧ 32776 < 2 ^ 40 ∧ sliceLine sMem 32776 = none ∧ (2 ≤ 2 ∨ 0 ≠ 0 ∨ true =
      true)) ∧ (sized sMem = true ∧ sMem.memctl.rerunning = none ∧ 32776 < 2 ^ 40 ∧ sliceLine sMem 32776 = none ∧ sMem.surv.plan =
      [] ∧ sMem.surv.wards = [] ∧ sMem.intake.journal = []) ∧ (sized sMem = true ∧ sMem.memctl.rerunning = none) ∧ (sized sMem =
      true ∧ sMem.memctl.rerunning = none ∧ 32776 < 2 ^ 40 ∧ getF sMem MEM_CTL MEM_CTL_SCRUB_HRS ≠ 0) ∧ (sized sMem = true ∧
      sMem.memctl.rerunning = none ∧ inService sMem c0.val = true)) :=
  ⟨
    openDram_and (by decide +kernel),
    by decide +kernel,
    by decide +kernel⟩

theorem witness_CrucibleAtomics :
    openDram sMem 32776 8 ∧ sized sMem = true ∧ 0 ≤ 9 ∧ 32776 % 8 = 0 ∧ channelHeld sMem 32776 8 = false :=
    openDram_and (by decide +kernel)

theorem witness_CrucibleRegionsMargins :
    (openDram sMem 32776 (8 * [w64 1, w64 5].length) ∧ sized sMem = true ∧ 0 ≤ 4 ∧ 32776 % 8 = 0 ∧ [w64 1, w64 5] ≠ [] ∧ 32776 %
      128 + 8 * [w64 1, w64 5].length ≤ 128 ∧ channelHeld sMem 32776 (8 * [w64 1, w64 5].length) = false) ∧
    ((sized sPoison = true ∧ 32776 < 2 ^ 40 ∧ poisoned sPoison 32776 = true ∧ assigned sPoison 32776 8 = true ∧ 32776 % 8 = 0 ∧
      sPoison.memctl.rerunning = none ∧ 0 ≤ 9) ∧ (sized sPoison = true ∧ 32776 < 2 ^ 40 ∧ poisoned sPoison 32776 = true ∧ assigned
      sPoison 32776 8 = true ∧ 32776 % 8 = 0 ∧ sPoison.memctl.rerunning = none ∧ 0 ≤ 4 ∧ [w64 1].length = 1) ∧ (let a :=
      ((BitVec.ofNat 48 (csBase 0 + 8)).toNat); sized sMem = true ∧ isWindow a = true ∧ a % 8 = 0 ∧ 0 < 2 ∧ assigned sMem a (8 *
      2) = true) ∧ (let a := ((BitVec.ofNat 48 (csBase 0 + 8)).toNat); sized sMem = true ∧ isWindow a = true ∧ a % 8 = 0 ∧ [w64 1,
      w64 5] ≠ [] ∧ assigned sMem a (8 * [w64 1, w64 5].length) = true) ∧ (let a := ((BitVec.ofNat 48 (csBase 0 + 8)).toNat);
      sized sMem = true ∧ isWindow a = true ∧ a % 8 = 0)) ∧
    ((sized sMem = true ∧ mayWrite sMem smith.toNat MEM_RGN = true) ∧ (let p := (getF sMem MEM_RGN_SEL MEM_RGN_SEL_PAIR); let r :=
      (regionAt sMem p); sized sMem = true ∧ mayWrite sMem smith.toNat MEM_RGN = true ∧ r.busy = false) ∧ (let p := (getF (rgn
      { pair := 0, closed := true, alloc := true, policy := false, busy := false }) MEM_RGN_SEL MEM_RGN_SEL_PAIR); let r :=
      (regionAt (rgn { pair := 0, closed := true, alloc := true, policy := false, busy := false }) p); sized (rgn
      { pair := 0, closed := true, alloc := true, policy := false, busy := false }) = true ∧ mayWrite (rgn
      { pair := 0, closed := true, alloc := true, policy := false, busy := false }) smith.toNat MEM_RGN = true ∧ r.closed = true ∧
      r.busy = false ∧ true ≠ r.policy) ∧ (let p := (getF sMem MEM_RGN_SEL MEM_RGN_SEL_PAIR); let r := (regionAt sMem p); sized
      sMem = true ∧ mayWrite sMem smith.toNat MEM_RGN = true ∧ r.closed = false ∧ true ≠ r.policy) ∧ (sized (rgn
      { pair := 5, closed := true, alloc := true, policy := false, busy := true }) = true ∧ (regionAt (rgn
      { pair := 5, closed := true, alloc := true, policy := false, busy := true }) (5)).busy = true)) ∧
    ((sized sMem = true ∧ mayWrite sMem smith.toNat MEM_MRG_CTL = true ∧ sMem.memctl.rerun = none ∧ sMem.memctl.rerunning = none)
      ∧ ((sRerun.memctl.rerun).isSome = true ∧ sized sRerun = true ∧ sRerun.memctl.rerunning = none ∧ ((sRerun.ports.all fun p =>
      !p.testing) = true) ∧ quenched sRerun = false ∧ sRerun.job = none) ∧ ((sRerunning.memctl.rerunning).isSome = true ∧ sized
      sRerunning = true ∧ marginPass goodMargin = true) ∧ ((sRerunning.memctl.rerunning).isSome = true ∧ sized sRerunning = true ∧
      marginPass badMargin = false) ∧ (sized sTraining = true ∧ (List.replicate 2048 goodMargin).length = 2048 ∧ flag sTraining
      MEM_STATUS MEM_STATUS_TRAINING = true ∧ (List.replicate 2048 goodMargin).all marginPass = true)) ∧
    (sized sTraining = true ∧ (List.replicate 2048 badMargin).length = 2048 ∧ flag sTraining MEM_STATUS MEM_STATUS_TRAINING = true
      ∧ (List.replicate 2048 badMargin).all marginPass = false) :=
  ⟨
    openDram_and (by decide +kernel),
    by decide +kernel,
    by decide +kernel,
    by decide +kernel,
    by decide +kernel⟩

theorem witness_PortEvents :
    ((sized sPortOn = true) ∧ (sized sPortOn = true ∧ flag sPortOn (PRT_CTL p3.val) PRT_CTL_ENABLE = true ∧ flag sPortOn
      (PRT_STATUS p3.val) PRT_STATUS_LINK_UP = false ∧ offerTaken sPortOn p3.val
      ({ kr4 := true, cr4 := true, lanes := 4, rsFec := true, an := true } : LinkOffer) = true) ∧ (sized sPortOn = true ∧
      (({ kr4 := true, cr4 := true, lanes := 2, rsFec := true, an := true } : LinkOffer).lanes ≠ 4 ∨
      ({ kr4 := true, cr4 := true, lanes := 2, rsFec := true, an := true } : LinkOffer).rsFec = false ∨ (if flag sPortOn (PRT_CTL
      p3.val) PRT_CTL_MEDIA = true then ({ kr4 := true, cr4 := true, lanes := 2, rsFec := true, an := true } : LinkOffer).cr4 else
      ({ kr4 := true, cr4 := true, lanes := 2, rsFec := true, an := true } : LinkOffer).kr4) = false)) ∧ (sized sLink = true ∧
      (Instr.portDisable p3 = Instr.portDisable p3 ∨ Instr.portDisable p3 = Instr.portDown p3 7) ∧ fabCalm sLink = true ∧
      sLink.ylp.tx = [] ∧ (∀ k < 8, getF sLink (PRT_CTL k) PRT_CTL_PFC_EN = 0) ∧ flag sLink (PRT_STATUS p3.val) PRT_STATUS_LINK_UP
      = true) ∧ (sized sLink = true ∧ portUpNow sLink p3.val = true ∧ (({ ylpEth sLink 5 3 with tags := 2 }).dst ≠ portMac sLink
      (ownNode sLink) p3.val ∧ ({ ylpEth sLink 5 3 with tags := 2 }).dst ≠ 1652522221569 ∨
      ({ ylpEth sLink 5 3 with tags := 2 }).tags ≠ 1 ∨ 4200 < 9 ∨ ({ ylpEth sLink 5 3 with tags := 2 }).etype = 34824 ∧ 1 = 1 ∧
      getF sLink FAB_CTL FAB_CTL_ETYPE ≠ 34824))) ∧
    ((sized sLink = true ∧ portUpNow sLink p3.val = true) ∧ (sized sPfc = true ∧ portUpNow sPfc p3.val = true ∧ (getF sPfc
      (PRT_CTL p3.val) PRT_CTL_PFC_EN).testBit (5) = true) ∧ (sized sPortOn = true ∧ portUpNow sPortOn p3.val = false) ∧ (sized
      sTray = true ∧ 1 < 3 ∧ portUpNow sTray 1 = true ∧ (∀ q ∈ sTray.ylp.peers, q.port ≠ 1 → q.slot ^^^ ↑q.port + 1 = 0 ^^^ 1 +
      1))) :=
  ⟨
    by decide +kernel,
    by decide +kernel⟩

theorem witness_YlpRequests :
    (clean (rxSt rx9) (fRead.addr.toNat) (128 * fRead.lines.toNat) ∧ sized (rxSt rx9) = true ∧ fabCalm (rxSt rx9) = true ∧ (rxSt
      rx9).ylp.tx = [] ∧ fRead.kind = 0 ∧ frameTaken (rxSt rx9) p3 fRead = true ∧ inTurn (rxSt rx9) p3 rx9 fRead = true ∧ fRead.op
      = 1) ∧
    (clean (rxSt rx9) (fWrite.addr.toNat) (128 * fWrite.lines.toNat) ∧ sized (rxSt rx9) = true ∧ fabCalm (rxSt rx9) = true ∧ (rxSt
      rx9).ylp.tx = [] ∧ fWrite.kind = 0 ∧ frameTaken (rxSt rx9) p3 fWrite = true ∧ inTurn (rxSt rx9) p3 rx9 fWrite = true ∧
      fWrite.op = 2) ∧
    (clean (rxSt rx9) (fMasked.addr.toNat) (128 * fMasked.lines.toNat) ∧ sized (rxSt rx9) = true ∧ fabCalm (rxSt rx9) = true ∧
      (rxSt rx9).ylp.tx = [] ∧ fMasked.kind = 0 ∧ frameTaken (rxSt rx9) p3 fMasked = true ∧ inTurn (rxSt rx9) p3 rx9 fMasked =
      true ∧ fMasked.op = 3) ∧
    (clean (rxSt rx9) (fReduce.addr.toNat) (128 * fReduce.lines.toNat) ∧ sized (rxSt rx9) = true ∧ fabCalm (rxSt rx9) = true ∧
      (rxSt rx9).ylp.tx = [] ∧ fReduce.kind = 0 ∧ frameTaken (rxSt rx9) p3 fReduce = true ∧ inTurn (rxSt rx9) p3 rx9 fReduce =
      true ∧ fReduce.op = 5) ∧
    (clean (rxSt rx9) (fFenceY.addr.toNat) (128 * fFenceY.lines.toNat) ∧ sized (rxSt rx9) = true ∧ fabCalm (rxSt rx9) = true ∧
      (rxSt rx9).ylp.tx = [] ∧ fFenceY.kind = 0 ∧ frameTaken (rxSt rx9) p3 fFenceY = true ∧ inTurn (rxSt rx9) p3 rx9 fFenceY =
      true ∧ fFenceY.op = 6) ∧
    ((let a := (fAtomic.addr.toNat); sized (rxSt rx9) = true ∧ fabCalm (rxSt rx9) = true ∧ (rxSt rx9).ylp.tx = [] ∧ fAtomic.kind =
      0 ∧ frameTaken (rxSt rx9) p3 fAtomic = true ∧ inTurn (rxSt rx9) p3 rx9 fAtomic = true ∧ fAtomic.op = 4 ∧ poisoned (rxSt rx9)
      a = false ∧ (hearthAt (rxSt rx9) (homeOf (rxSt rx9) a)).replay = []) ∧ (sized (rxSt rx9) = true ∧ fabCalm (rxSt rx9) = true
      ∧ (rxSt rx9).ylp.tx = [] ∧ fProbe.kind = 0 ∧ frameTaken (rxSt rx9) p3 fProbe = true ∧ fProbe.op = 7 ∧ requestMalformed
      fProbe = false) ∧ (sized (rxSt rx9) = true ∧ fabCalm (rxSt rx9) = true ∧ (rxSt rx9).ylp.tx = [] ∧ fRetire.kind = 0 ∧
      frameTaken (rxSt rx9) p3 fRetire = true ∧ fRetire.op = 137 ∧ requestMalformed fRetire = false) ∧ (sized (rxSt rx9) = true ∧
      fabCalm (rxSt rx9) = true ∧ (rxSt rx9).ylp.tx = [] ∧ fDup.kind = 0 ∧ frameTaken (rxSt rx9) p3 fDup = true ∧ (Instr.ylpWrite
      p3 fDup = Instr.ylpWrite p3 fDup ∧ fDup.op = 2 ∨ Instr.ylpWrite p3 fDup = Instr.ylpReduce p3 fDup ∧ fDup.op = 5 ∨
      Instr.ylpWrite p3 fDup = Instr.ylpAtomic p3 fDup ∧ fDup.op = 4) ∧ requestMalformed fDup = false ∧ rxAt (rxSt rx9)
      fDup.src.toNat = some rx9 ∧ fDup.epoch.toNat = rx9.epoch ∧ (seqDiff fDup.seq.toNat rx9.expect ≠ 0 ∨ refusedStatus (rxSt rx9)
      fDup ≠ 0)) ∧ (sized ({ rxSt rx9 with ylp := { (rxSt rx9).ylp with ingressCap := 100 } }) = true ∧ fabCalm
      ({ rxSt rx9 with ylp := { (rxSt rx9).ylp with ingressCap := 100 } }) = true ∧
      ({ rxSt rx9 with ylp := { (rxSt rx9).ylp with ingressCap := 100 } }).ylp.tx = [] ∧ fWrite.kind = 0 ∧ frameTaken
      ({ rxSt rx9 with ylp := { (rxSt rx9).ylp with ingressCap := 100 } }) p3 fWrite = true ∧ rxAt
      ({ rxSt rx9 with ylp := { (rxSt rx9).ylp with ingressCap := 100 } }) fWrite.src.toNat = some rx9 ∧ fWrite.epoch.toNat =
      rx9.epoch ∧ fWrite.seq.toNat = rx9.expect ∧ requestMalformed fWrite = false ∧ refusedStatus
      ({ rxSt rx9 with ylp := { (rxSt rx9).ylp with ingressCap := 100 } }) fWrite = 0 ∧ ingressFull
      ({ rxSt rx9 with ylp := { (rxSt rx9).ylp with ingressCap := 100 } }) p3 fWrite = true ∧ fWrite.op = 2)) ∧
    (sized sLink = true ∧ fabCalm sLink = true ∧ sLink.ylp.tx = [] ∧ fWrite.kind = 0 ∧ frameTaken sLink p3 fWrite = true ∧
      fWrite.op = 2 ∧ requestMalformed fWrite = false ∧ fWrite.flags.getLsbD 0 = false ∧ rxAt sLink fWrite.src.toNat = none) :=
  ⟨
    clean_and (by decide +kernel),
    clean_and (by decide +kernel),
    clean_and (by decide +kernel),
    clean_and (by decide +kernel),
    clean_and (by decide +kernel),
    by decide +kernel,
    by decide +kernel⟩

theorem witness_YlpTimersAndDiscards :
    ((sized (rxSt rx9o) = true ∧ fabCalm (rxSt rx9o) = true ∧ rxAt (rxSt rx9o) (9) = some rx9o ∧ rx9o.open_ =
      [{ seq := 4, op := 2, status := 0, port := p3, pcp := 5, bytes := 128 }] ∧ rx9o.done_ = [] ∧ rx9o.acked = 4 ∧ rx9o.count <
      15) ∧ (sized (rxSt rx9d) = true ∧ fabCalm (rxSt rx9d) = true ∧ rxAt (rxSt rx9d) (9) = some rx9d ∧ rx9d.due = some 0 ∧ 10 *
      getF (rxSt rx9d) FAB_WIN FAB_WIN_ACK_DELAY ≤ (rxSt rx9d).time.ns - 0 ∧ portUpNow (rxSt rx9d) ↑rx9d.port = true ∧ joined
      (rxSt rx9d) = true ∧ fenced (rxSt rx9d) = false ∧ pausedAt (rxSt rx9d) (↑rx9d.port) (getF (rxSt rx9d) FAB_CTL
      FAB_CTL_YLP_PCP) = false) ∧ (sized (txSt dBusy) = true ∧ fabCalm (txSt dBusy) = true ∧ (txSt dBusy).ylp.tx = [dBusy] ∧
      dBusy.node = 9 ∧ dBusy.waiting = [] ∧ dBusy.busy = some (3, 0) ∧ 1000 * getF (txSt dBusy) FAB_WIN FAB_WIN_BUSY_WAIT ≤ (txSt
      dBusy).time.ns - 0) ∧ (sized (txSt (dst9 [req3])) = true ∧ fabCalm (txSt (dst9 [req3])) = true ∧ (txSt (dst9 [req3])).ylp.tx
      = [dst9 [req3]] ∧ (dst9 [req3]).node = 9 ∧ (dst9 [req3]).waiting = [] ∧ (dst9 [req3]).unacked = [req3] ∧ (dst9 [req3]).busy
      = none ∧ rto (txSt (dst9 [req3])) (dst9 [req3]).path ≤ (txSt (dst9 [req3])).time.ns - req3.sentAt ∧ (dst9 [req3]).fails + 1
      < getF (txSt (dst9 [req3])) FAB_TMR FAB_TMR_PATH_FAILS) ∧ (sized (txSt dBusy) = true ∧ fabCalm (txSt dBusy) = true ∧ (txSt
      dBusy).ylp.tx = [dBusy] ∧ dBusy.node = 9 ∧ dBusy.waiting = [] ∧ dBusy.unacked = [req3] ∧ dBusy.replies = [] ∧ req3.owner =
      Owner.line ∧ (txSt dBusy).coll.groups = [] ∧ frameLife (txSt dBusy) ≤ (txSt dBusy).time.ns - req3.firstAt)) ∧
    ((sized (txSt dFailed) = true ∧ fabCalm (txSt dFailed) = true ∧ (txSt dFailed).ylp.tx = [dFailed] ∧ dFailed.node = 9 ∧
      dFailed.waiting = [] ∧ 3 ≤ p3.val ∧ dFailed.failed.getLsbD (p3.val - 2) = true ∧ portUpNow (txSt dFailed) p3.val = true ∧
      joined (txSt dFailed) = true ∧ fenced (txSt dFailed) = false ∧ pausedAt (txSt dFailed) (p3.val) (getF (txSt dFailed) FAB_CTL
      FAB_CTL_YLP_PCP) = false ∧ 1000000 ≤ (txSt dFailed).time.ns - (txSt dFailed).ylp.probeAt) ∧ (sized (txSt dRetire) = true ∧
      fabCalm (txSt dRetire) = true ∧ (txSt dRetire).ylp.tx = [dRetire] ∧ dRetire.node = 9 ∧ dRetire.waiting = [] ∧ dRetire.retire
      = [6] ∧ dRetire.retireAt = some 0 ∧ 2000 ≤ (txSt dRetire).time.ns - 0) ∧ (sized sRp0 = true ∧ fabCalm sRp0 = true ∧
      (hearthAt sRp0 h0.val).replay = [rp0] ∧ replayLimit sRp0 ≤ sRp0.time.ns - rp0.time) ∧ (sized (rxSt rx9o) = true ∧ fabCalm
      (rxSt rx9o) = true) ∧ (Instr.ylpWrite p3 fWrite ∈ [Instr.ylpRead p3 fWrite, Instr.ylpWrite p3 fWrite, Instr.ylpWriteMasked
      p3 fWrite, Instr.ylpAtomic p3 fWrite, Instr.ylpReduce p3 fWrite, Instr.ylpFence p3 fWrite, Instr.ylpProbe p3 fWrite,
      Instr.ylpRetire p3 fWrite, Instr.ylpReadData p3 fWrite, Instr.ylpAck p3 fWrite, Instr.ylpAtomicResult p3 fWrite,
      Instr.ylpProbeAck p3 fWrite, Instr.ylpBusy p3 fWrite, Instr.ylpRefuse p3 fWrite] ∧ portUpNow sLinkDown p3.val = false)) ∧
    (Instr.ylpWrite p3 fUnsealed ∈ [Instr.ylpRead p3 fUnsealed, Instr.ylpWrite p3 fUnsealed, Instr.ylpWriteMasked p3 fUnsealed,
      Instr.ylpAtomic p3 fUnsealed, Instr.ylpReduce p3 fUnsealed, Instr.ylpFence p3 fUnsealed, Instr.ylpProbe p3 fUnsealed,
      Instr.ylpRetire p3 fUnsealed, Instr.ylpReadData p3 fUnsealed, Instr.ylpAck p3 fUnsealed, Instr.ylpAtomicResult p3 fUnsealed,
      Instr.ylpProbeAck p3 fUnsealed, Instr.ylpBusy p3 fUnsealed, Instr.ylpRefuse p3 fUnsealed] ∧ (joined sLink = false ∨ ylpTaken
      sLink (p3.val) fUnsealed = false ∨ fUnsealed.icrc ≠ icrcOf fUnsealed ∨ frameDropped sLink fUnsealed = true)) :=
  ⟨
    by decide +kernel,
    by decide +kernel,
    by decide +kernel⟩

theorem witness_YlpReplies :
    (awaiting (txSt (dst9 [req 1 (Owner.fetch 0) 36864])) (dst9 [req 1 (Owner.fetch 0) 36864]) (req 1 (Owner.fetch 0) 36864) fData
      ∧ openDram (txSt (dst9 [req 1 (Owner.fetch 0) 36864])) (req 1 (Owner.fetch 0) 36864).dst fData.payload.length ∧ sized (txSt
      (dst9 [req 1 (Owner.fetch 0) 36864])) = true ∧ fabCalm (txSt (dst9 [req 1 (Owner.fetch 0) 36864])) = true ∧ frameTaken (txSt
      (dst9 [req 1 (Owner.fetch 0) 36864])) p3 fData = true ∧ fData.kind = 1 ∧ fData.op = 129 ∧ (req 1 (Owner.fetch 0)
      36864).frame.op = 1 ∧ fData.lines = (req 1 (Owner.fetch 0) 36864).frame.lines ∧ fData.status = 0 ∧ (req 1 (Owner.fetch 0)
      36864).owner = Owner.fetch 0) ∧
    (awaiting (withTongs (txSt (dst9 [req 1 (Owner.insn 0 Queue.tongs 0) 0]))) (dst9 [req 1 (Owner.insn 0 Queue.tongs 0) 0]) (req
      1 (Owner.insn 0 Queue.tongs 0) 0) fData ∧ sized (withTongs (txSt (dst9 [req 1 (Owner.insn 0 Queue.tongs 0) 0]))) = true ∧
      fabCalm (withTongs (txSt (dst9 [req 1 (Owner.insn 0 Queue.tongs 0) 0]))) = true ∧ frameTaken (withTongs (txSt (dst9 [req 1
      (Owner.insn 0 Queue.tongs 0) 0]))) p3 fData = true ∧ fData.kind = 1 ∧ fData.op = 129 ∧ (req 1 (Owner.insn 0 Queue.tongs 0)
      0).frame.op = 1 ∧ fData.lines = (req 1 (Owner.insn 0 Queue.tongs 0) 0).frame.lines ∧ fData.status = 0 ∧ (req 1 (Owner.insn 0
      Queue.tongs 0) 0).owner = Owner.insn 0 Queue.tongs ({ entryOp 128 fz with started := true, awaits := 1 }).qid ∧ (coreAt
      (withTongs (txSt (dst9 [req 1 (Owner.insn 0 Queue.tongs 0) 0]))) 0).tongs =
      [{ entryOp 128 fz with started := true, awaits := 1 }]) ∧
    (awaiting (txSt (dst9 [req 4 Owner.line 0])) (dst9 [req 4 Owner.line 0]) (req 4 Owner.line 0) fResult ∧ sized (txSt (dst9 [req
      4 Owner.line 0])) = true ∧ fabCalm (txSt (dst9 [req 4 Owner.line 0])) = true ∧ frameTaken (txSt (dst9 [req 4 Owner.line 0]))
      p3 fResult = true ∧ fResult.kind = 1 ∧ fResult.op = 132 ∧ (req 4 Owner.line 0).frame.op = 4 ∧ fResult.tag = (req 4
      Owner.line 0).frame.tag ∧ fResult.status = 0 ∧ (req 4 Owner.line 0).owner = Owner.line) ∧
    (awaiting (txSt (dst9 [req3])) (dst9 [req3]) req3 fBusy ∧ sized (txSt (dst9 [req3])) = true ∧ fabCalm (txSt (dst9 [req3])) =
      true ∧ frameTaken (txSt (dst9 [req3])) p3 fBusy = true ∧ fBusy.kind = 1 ∧ fBusy.op = 136) ∧
    (awaiting (txSt (dst9 [req 4 Owner.line 0])) (dst9 [req 4 Owner.line 0]) (req 4 Owner.line 0) fResultBusy ∧ sized (txSt (dst9
      [req 4 Owner.line 0])) = true ∧ fabCalm (txSt (dst9 [req 4 Owner.line 0])) = true ∧ frameTaken (txSt (dst9 [req 4 Owner.line
      0])) p3 fResultBusy = true ∧ fResultBusy.kind = 1 ∧ fResultBusy.op = 132 ∧ (req 4 Owner.line 0).frame.op = 4 ∧
      fResultBusy.tag = (req 4 Owner.line 0).frame.tag ∧ fResultBusy.status = 5) ∧
    (awaiting (txSt (dst9 [req3])) (dst9 [req3]) req3 fNosync ∧ sized (txSt (dst9 [req3])) = true ∧ fabCalm (txSt (dst9 [req3])) =
      true ∧ frameTaken (txSt (dst9 [req3])) p3 fNosync = true ∧ fNosync.kind = 1 ∧ fNosync.op = 138 ∧ req3.owner = Owner.line ∧
      fNosync.status = 6) ∧
    (awaiting (txSt (dst9 [req3])) (dst9 [req3]) req3 fRefuse ∧ sized (txSt (dst9 [req3])) = true ∧ fabCalm (txSt (dst9 [req3])) =
      true ∧ frameTaken (txSt (dst9 [req3])) p3 fRefuse = true ∧ fRefuse.kind = 1 ∧ fRefuse.op = 138 ∧ req3.owner = Owner.line ∧
      fRefuse.status = 3) ∧
    (let up := (seqAdd fAck.ack.toNat 1); sized (txSt (dst9 [req 2 Owner.commit 0])) = true ∧ fabCalm (txSt (dst9 [req 2
      Owner.commit 0])) = true ∧ frameTaken (txSt (dst9 [req 2 Owner.commit 0])) p3 fAck = true ∧ fAck.kind = 1 ∧ (txSt (dst9 [req
      2 Owner.commit 0])).ylp.tx = [dst9 [req 2 Owner.commit 0]] ∧ (dst9 [req 2 Owner.commit 0]).node = fAck.src.toNat ∧ (dst9
      [req 2 Owner.commit 0]).unacked = [req 2 Owner.commit 0] ∧ (dst9 [req 2 Owner.commit 0]).replies = [] ∧ (dst9 [req 2
      Owner.commit 0]).waiting = [] ∧ needsReply (req 2 Owner.commit 0).frame = false ∧ 0 < seqDiff up (dst9 [req 2 Owner.commit
      0]).acked ∧ 0 ≤ seqDiff (dst9 [req 2 Owner.commit 0]).next up ∧ 0 < seqDiff up (req 2 Owner.commit 0).seq ∧ (req 2
      Owner.commit 0).owner = Owner.commit ∧ fAck.op = 130) ∧
    (sized (txSt (dst9 [])) = true ∧ fabCalm (txSt (dst9 [])) = true ∧ frameTaken (txSt (dst9 [])) p3 fProbeAck = true ∧
      fProbeAck.kind = 1 ∧ (txSt (dst9 [])).ylp.tx = [dst9 []] ∧ (dst9 []).node = fProbeAck.src.toNat ∧ (dst9 []).unacked = [] ∧
      (dst9 []).replies = [] ∧ (dst9 []).waiting = [] ∧ 3 ≤ p3.val ∧ fProbeAck.op = 135 ∧ seqDiff (seqAdd fProbeAck.ack.toNat 1)
      (dst9 []).acked ≤ 0) :=
  ⟨
    ⟨(by unfold awaiting; decide +kernel), openDram_of (by decide +kernel), by decide +kernel⟩,
    awaiting_and (by decide +kernel),
    awaiting_and (by decide +kernel),
    awaiting_and (by decide +kernel),
    awaiting_and (by decide +kernel),
    awaiting_and (by decide +kernel),
    awaiting_and (by decide +kernel),
    by decide +kernel,
    by decide +kernel⟩

theorem witness_RoceConnections :
    (openDram (roceSt conn3) ((pkt 0 4 [1, 2, 3, 4]).vaddr.toNat) (pkt 0 4 [1, 2, 3, 4]).dmaLen ∧ sized (roceSt conn3) = true ∧
      roceTaken (roceSt conn3) p3 16 (pkt 0 4 [1, 2, 3, 4]) conn3 = true ∧ (pkt 0 4 [1, 2, 3, 4]).psn.toNat = conn3.epsn ∧ (pkt 0
      4 [1, 2, 3, 4]).dmaLen ≤ 2 ^ 31 ∧ rkeyAdmits (roceSt conn3) (pkt 0 4 [1, 2, 3, 4]).rkey.toNat ((pkt 0 4 [1, 2, 3,
      4]).vaddr.toNat) (pkt 0 4 [1, 2, 3, 4]).dmaLen true = true ∧ (pkt 0 4 [1, 2, 3, 4]).payload.length = (pkt 0 4 [1, 2, 3,
      4]).dmaLen) ∧
    (openDram (roceSt conn3) ((pkt 0 4 [1, 2, 3, 4]).vaddr.toNat) (pkt 0 4 [1, 2, 3, 4]).dmaLen ∧ sized (roceSt conn3) = true ∧
      roceTaken (roceSt conn3) p3 16 (pkt 0 4 [1, 2, 3, 4]) conn3 = true ∧ (pkt 0 4 [1, 2, 3, 4]).psn.toNat = conn3.epsn ∧ (pkt 0
      4 [1, 2, 3, 4]).dmaLen ≤ 2 ^ 31 ∧ rkeyAdmits (roceSt conn3) (pkt 0 4 [1, 2, 3, 4]).rkey.toNat ((pkt 0 4 [1, 2, 3,
      4]).vaddr.toNat) (pkt 0 4 [1, 2, 3, 4]).dmaLen false = true) ∧
    ((let a := ((pkt 1 4 [1, 2, 3, 4]).vaddr.toNat); sized (roceSt conn3) = true ∧ roceTaken (roceSt conn3) p3 16 (pkt 1 4 [1, 2,
      3, 4]) conn3 = true ∧ (pkt 1 4 [1, 2, 3, 4]).psn.toNat = conn3.epsn ∧ rkeyAdmits (roceSt conn3) (pkt 1 4 [1, 2, 3,
      4]).rkey.toNat a (pkt 1 4 [1, 2, 3, 4]).dmaLen true = false ∧ (pkt 1 4 [1, 2, 3, 4]).payload.length = (pkt 1 4 [1, 2, 3,
      4]).dmaLen ∧ 0 < (pkt 1 4 [1, 2, 3, 4]).dmaLen ∧ (pkt 1 4 [1, 2, 3, 4]).dmaLen ≤ 2 ^ 31) ∧ (sized (roceSt conn3) = true ∧
      (Instr.roceRdmaWrite p3 RocePart.only (pktClass RoceClass.atomic) = Instr.roceRdmaWrite p3 RocePart.only (pktClass
      RoceClass.atomic) ∧ 16 = 16 ∨ Instr.roceRdmaWrite p3 RocePart.only (pktClass RoceClass.atomic) = Instr.roceSend p3 (pktClass
      RoceClass.atomic) ∧ 16 = 0) ∧ roceTaken (roceSt conn3) p3 16 { pktClass RoceClass.atomic with cls := RoceClass.listed }
      conn3 = true ∧ (pktClass RoceClass.atomic).cls ∈ [RoceClass.atomic, RoceClass.immediate, RoceClass.invalidate,
      RoceClass.otherSend]) ∧ (sized (roceSt conn3) = true ∧ roceTaken (roceSt conn3) p3 0 (pkt 0 256 (List.replicate 256 1))
      conn3 = true ∧ (pkt 0 256 (List.replicate 256 1)).psn.toNat = conn3.epsn ∧ 1 = connMbox conn3 ∧ 1 ≠ 0 ∧ mbxFabric (roceSt
      conn3) 1 = true ∧ (mbxAt (roceSt conn3) 1).owner = 0 ∧ (mbxAt (roceSt conn3) 1).fullAt = none ∧ smithReceives (roceSt conn3)
      1 = true ∧ receiverDead (roceSt conn3) 1 = false ∧ (pkt 0 256 (List.replicate 256 1)).payload.length = 256) ∧ (sized (roceSt
      (connOps RoceKind.write)) = true ∧ roceTaken (roceSt (connOps RoceKind.write)) p3 4 (pkt 0 4 [] 9) (connOps RoceKind.write)
      = true ∧ (connOps RoceKind.write).ops = [op9 RoceKind.write] ∧ (connOps RoceKind.write).waitq = [] ∧ (op9
      RoceKind.write).owner = Owner.line ∧ (op9 RoceKind.write).kind ≠ RoceKind.read ∧ 0 ≤ seqDiff (pkt 0 4 [] 9).psn.toNat
      (lastPsn (op9 RoceKind.write))) ∧ (sized (roceSt (connOps RoceKind.read)) = true ∧ roceTaken (roceSt (connOps
      RoceKind.read)) p3 4 (pkt 0 4 [] 9) (connOps RoceKind.read) = true ∧ (connOps RoceKind.read).ops = [op9 RoceKind.read] ∧
      (connOps RoceKind.read).waitq = [] ∧ (op9 RoceKind.read).owner = Owner.line ∧ (op9 RoceKind.read).kind = RoceKind.read ∧
      (op9 RoceKind.read).pkts = 1 ∧ (op9 RoceKind.read).got = 0 ∧ (pkt 0 4 [] 9).psn.toNat = (op9 RoceKind.read).psn)) ∧
    ((sized (roceSt (connOps RoceKind.write)) = true ∧ roceTaken (roceSt (connOps RoceKind.write)) p3 4 (pkt 0 4 [] 9) (connOps
      RoceKind.write) = true ∧ (connOps RoceKind.write).ops = [op9 RoceKind.write] ∧ (connOps RoceKind.write).waitq = [] ∧ (op9
      RoceKind.write).owner = Owner.line ∧ (op9 RoceKind.write).kind ≠ RoceKind.read ∧ seqDiff (seqAdd (pkt 0 4 [] 9).psn.toNat (2
      ^ 24 - 1)) (lastPsn (op9 RoceKind.write)) < 0 ∧ (connOps RoceKind.write).retries < 7) ∧ (sized (roceSt conn3) = true ∧
      roceTaken (roceSt conn3) p3 16 (pkt 0 4 [1, 2, 3, 4]) conn3 = true ∧ conn3.lastCut = none) ∧ (sized (roceSt (connOps
      RoceKind.read)) = true ∧ connAt (roceSt (connOps RoceKind.read)) (4) = some (connOps RoceKind.read) ∧ (connOps
      RoceKind.read).error = false ∧ fabCalm (roceSt (connOps RoceKind.read)) = true ∧ (connOps RoceKind.read).ops ≠ [] ∧ (connOps
      RoceKind.read).retries < 7 ∧ 16000 ≤ (roceSt (connOps RoceKind.read)).time.ns - (connOps RoceKind.read).sentAt) ∧ (sized
      (roceSt conn3) = true ∧ connAt (roceSt conn3) (4) = some conn3 ∧ conn3.error = false ∧ fabCalm (roceSt conn3) = true ∧ 1000
      * getF (roceSt conn3) FAB_ROCE_CC FAB_ROCE_CC_INC_PERIOD ≤ (roceSt conn3).time.ns - conn3.lastUp) ∧ (sized sConnTable = true
      ∧ mayWrite sConnTable smith.toNat FAB_CONN_CTL = true ∧ connAt sConnTable (4) = none ∧ connBad (readWords sConnTable
      (connTable sConnTable (4)) 8) = none ∧ sConnTable.intake.rings = [] ∧ sConnTable.surv.notices = [])) ∧
    ((sized sConnTable = true ∧ mayWrite sConnTable smith.toNat FAB_CONN_CTL = true ∧ connAt sConnTable (5) = none ∧ connBad
      (readWords sConnTable (connTable sConnTable (5)) 8) = some 0) ∧ (sized (roceSt conn3) = true ∧ mayWrite (roceSt conn3)
      smith.toNat FAB_CONN_CTL = true ∧ connAt (roceSt conn3) (4) = some conn3 ∧ conn3.ops = [] ∧ conn3.waitq = [] ∧ fabCalm
      (roceSt conn3) = true ∧ (∀ k < 8, getF (roceSt conn3) (PRT_CTL k) PRT_CTL_PFC_EN = 0))) :=
  ⟨
    openDram_and (by decide +kernel),
    openDram_and (by decide +kernel),
    by decide +kernel,
    by decide +kernel,
    by decide +kernel⟩

theorem witness_ControlLines :
    (∃ x, instOf sBcast (8) = some x ∧ ∃ l, l = readLine sBcast g2 24 ∧ ∃ c, c = tally 0 x.got ∧ ∃ n, n = bcastLen x.desc c ∧
      openDram sBcast (slotData g2 24) n ∧ openDram sBcast (descDst x.desc + 65536 * c) n ∧ sized sBcast = true ∧ quenched sBcast
      = false ∧ allOpen sBcast [(slotLine g2 24, 32)] = true ∧ collCalm sBcast = true ∧ groupAt sBcast (8) = some g2 ∧ g2.outq =
      [] ∧ l.gen = g2.gen ∧ l.inst = x.num ∧ l.rank ≠ g2.rank ∧ x.op = CollOp.broadcast ∧ l.kind = 1 ∧ 24 ≤ 24 ∧ g2.rank ≠ x.root
      ∧ l.rank = parentIn x.root g2.rank ∧ childrenIn g2.size x.root g2.rank = [] ∧ l.chunk = c ∧ c < bcastChunks x.desc ∧ l.len =
      n) ∧
    ((sized sBcast = true ∧ Instr.ctrlData 8 24 ∈ [Instr.ctrlData 8 24, Instr.ctrlArrive 8 24, Instr.ctrlRelease 8 24,
      Instr.ctrlReset 8 24, Instr.ctrlDone 8 24, Instr.ctrlAbort 8 24]) ∧ (((instOf (sArrive g3) (8)).any fun x => decide (let l
      := (readLine (sArrive g3) g3 1); sized (sArrive g3) = true ∧ quenched (sArrive g3) = false ∧ allOpen (sArrive g3) [(slotLine
      g3 1, 32)] = true ∧ collCalm (sArrive g3) = true ∧ groupAt (sArrive g3) (8) = some g3 ∧ g3.outq = [] ∧ l.gen = g3.gen ∧
      l.inst = x.num ∧ l.rank ≠ g3.rank ∧ x.op = CollOp.barrier ∧ x.own = true ∧ l.kind = 2 ∧ (awaitedKids g3 x).contains l.rank =
      true)) = true) ∧ (((instOf sRelease (8)).any fun x => decide (let l := (readLine sRelease g2 0); sized sRelease = true ∧
      quenched sRelease = false ∧ allOpen sRelease [(slotLine g2 0, 32)] = true ∧ collCalm sRelease = true ∧ groupAt sRelease (8)
      = some g2 ∧ g2.outq = [] ∧ l.gen = g2.gen ∧ l.inst = x.num ∧ l.rank ≠ g2.rank ∧ x.op = CollOp.barrier ∧ l.kind = 3 ∧
      sRelease.coll.reset = none ∧ g2.rank ≠ 0 ∧ l.rank = treeParent g2.rank)) = true) ∧ (((instOf sAbort (8)).any fun x => decide
      (let l := (readLine sAbort g2 0); sized sAbort = true ∧ quenched sAbort = false ∧ allOpen sAbort [(slotLine g2 0, 32)] =
      true ∧ collCalm sAbort = true ∧ groupAt sAbort (8) = some g2 ∧ g2.outq = [] ∧ l.gen = g2.gen ∧ l.inst = x.num ∧ l.rank ≠
      g2.rank ∧ l.kind = 6 ∧ assocGet l.inst g2.aborted = none)) = true)) :=
  ⟨
    some_wit (by decide +kernel) ⟨_, rfl, ⟨_, rfl, ⟨_, rfl, ⟨openDram_of (by decide +kernel), openDram_of (by decide +kernel),
      by decide +kernel⟩⟩⟩⟩,
    by decide +kernel⟩

theorem witness_GroupsAndStreams :
    sized sGrpTable = true :=
    by decide +kernel

theorem witness_ResetLines :
    (let l := (readLine sResetGo g3 0); sized sResetGo = true ∧ quenched sResetGo = false ∧ allOpen sResetGo [(slotLine g3 0, 32)]
      = true ∧ fabCalm sResetGo = true ∧ collCalm sResetGo = true ∧ groupAt sResetGo (8) = some g3 ∧ g3.outq = [] ∧ l.gen = g3.gen
      ∧ l.kind = 4 ∧ resetRuns sResetGo = false ∧ (g3.rank = 0 ∨ l.rank = treeParent g3.rank) ∧ childrenIn g3.size 0 g3.rank ≠ []) ∧
    (let l := (readLine (sResetIn [] g3) g3 1); (((sResetIn [] g3).coll.reset).any fun r => decide (sized (sResetIn [] g3) = true
      ∧ quenched (sResetIn [] g3) = false ∧ allOpen (sResetIn [] g3) [(slotLine g3 1, 32)] = true ∧ fabCalm (sResetIn [] g3) =
      true ∧ collCalm (sResetIn [] g3) = true ∧ groupAt (sResetIn [] g3) (8) = some g3 ∧ g3.outq = [] ∧ l.gen = g3.gen ∧ r.group =
      8 ∧ r.own = true ∧ l.kind = 5 ∧ l.inst = 4294967295 ∧ (childrenIn g3.size 0 g3.rank).contains l.rank = true ∧
      r.kids.contains l.rank = false ∧ (((childrenIn g3.size 0 g3.rank).any fun c => !(r.kids ++ [l.rank]).contains c) = true))) =
      true) ∧
    (let l := (readLine (sResetIn [2] g3) g3 1); (((sResetIn [2] g3).coll.reset).any fun r => decide (sized (sResetIn [2] g3) =
      true ∧ quenched (sResetIn [2] g3) = false ∧ allOpen (sResetIn [2] g3) [(slotLine g3 1, 32)] = true ∧ fabCalm (sResetIn [2]
      g3) = true ∧ collCalm (sResetIn [2] g3) = true ∧ groupAt (sResetIn [2] g3) (8) = some g3 ∧ g3.outq = [] ∧ l.gen = g3.gen ∧
      r.group = 8 ∧ r.own = true ∧ l.kind = 5 ∧ l.inst = 4294967295 ∧ (childrenIn g3.size 0 g3.rank).contains l.rank = true ∧
      r.kids.contains l.rank = false ∧ (((childrenIn g3.size 0 g3.rank).any fun c => !(r.kids ++ [l.rank]).contains c) = false) ∧
      g3.rank = 0)) = true) :=
  ⟨
    by decide +kernel,
    by decide +kernel,
    by decide +kernel⟩

theorem witness_Rings :
    (openDram (sWorkHeld ring0 []) ring0.doorbell 8 ∧ sized (sWorkHeld ring0 []) = true ∧ quenched (sWorkHeld ring0 []) = false ∧
      ringOf (sWorkHeld ring0 []) 0 = some ring0 ∧ ringAddrBad ring0 = false ∧ seqBefore (1) ring0.pseq = false ∧ seqBefore
      ring0.acc (1) = true ∧ intakeHeld (sWorkHeld ring0 []) = true) ∧
    (openDram sSlot ring0.doorbell 8 ∧ slotCase sSlot ring0 ring0.next = SlotCase.item slotItem ∧ sized sSlot = true ∧ quenched
      sSlot = false ∧ ringOf sSlot 0 = some ring0 ∧ ringAddrBad ring0 = false ∧ seqBefore (1) ring0.pseq = false ∧ seqBefore
      ring0.acc (1) = true ∧ intakeHeld sSlot = false ∧ sSlot.coll.capturing = false ∧ journalFull sSlot = false ∧
      sSlot.intake.heldRecs = [] ∧ 1 = seqNext ring0.next ∧ seqBefore ring0.next (1) = true) ∧
    (openDram (sWorkHeld ring0 []) (ring0.doorbell + 8) 8 ∧ sized (sWorkHeld ring0 []) = true ∧ quenched (sWorkHeld ring0 []) =
      false ∧ ringOf (sWorkHeld ring0 []) 0 = some ring0 ∧ ring0.ccons ≤ 1 ∧ (sWorkHeld ring0 []).intake.heldRecs = [] ∧
      intakeHeld (sWorkHeld ring0 []) = true) ∧
    ((sized (sWork slotWait []) = true ∧ quenched (sWork slotWait []) = false ∧ ringOf (sWork slotWait []) 0 = some slotWait ∧
      slotWait.waitAt = some (slotWait.next, 0) ∧ slotWait.stopped = false ∧ intakeHeld (sWork slotWait []) = false ∧ getF (sWork
      slotWait []) WRK_CTL WRK_CTL_ITEM_WAIT * 1000 ≤ (sWork slotWait []).time.ns - 0 ∧ slotCase (sWork slotWait []) slotWait
      slotWait.next = SlotCase.notYet) ∧ (((acceptee (sWork ring0 [jent JState.accepted]) ring0).any fun j => decide (sized (sWork
      ring0 [jent JState.accepted]) = true ∧ quenched (sWork ring0 [jent JState.accepted]) = false ∧ ringOf (sWork ring0 [jent
      JState.accepted]) 0 = some ring0 ∧ j.mirrored = true ∧ intakeHeld (sWork ring0 [jent JState.accepted]) = false ∧
      ring0.unreported < 15)) = true) ∧ (sized (sWork ringDone [jent JState.accepted]) = true ∧ quenched (sWork ringDone [jent
      JState.accepted]) = false ∧ ringOf (sWork ringDone [jent JState.accepted]) 0 = some ringDone ∧ ringDone.unreported ≠ 0 ∧
      2000 ≤ (sWork ringDone [jent JState.accepted]).time.ns - ringDone.firstAt) ∧ (((frontItem (sWork ringDone [jent
      JState.accepted]) 0).any fun j => decide (sized (sWork ringDone [jent JState.accepted]) = true ∧ quenched (sWork ringDone
      [jent JState.accepted]) = false ∧ ringOf (sWork ringDone [jent JState.accepted]) 0 = some ringDone ∧ fenced (sWork ringDone
      [jent JState.accepted]) = false ∧ j.st = JState.accepted ∧ seqBefore j.seq ringDone.acc = true)) = true) ∧ (((runningItem
      (sWork ringDone [{ jent JState.running with fin := true }]) 0).any fun j => decide (sized (sWork ringDone
      [{ jent JState.running with fin := true }]) = true ∧ quenched (sWork ringDone [{ jent JState.running with fin := true }]) =
      false ∧ ringOf (sWork ringDone [{ jent JState.running with fin := true }]) 0 = some ringDone ∧ j.fin = true)) = true)) ∧
    ((((List.find? (fun j => decide (j.ring = 0) && decide (j.st = JState.done) && !j.posted) (sWorkHeld ring0
      [{ jent JState.done with markAcked := true, cslot := some 0 }]).intake.journal).any fun j => decide (sized (sWorkHeld ring0
      [{ jent JState.done with markAcked := true, cslot := some 0 }]) = true ∧ quenched (sWorkHeld ring0
      [{ jent JState.done with markAcked := true, cslot := some 0 }]) = false ∧ fenced (sWorkHeld ring0
      [{ jent JState.done with markAcked := true, cslot := some 0 }]) = false ∧ j.markAcked = true)) = true) ∧ (let ws :=
      (ringEntry sRingTable 0); sized sRingTable = true ∧ quenched sRingTable = false ∧ mayWrite sRingTable smith.toNat
      WRK_RING_CTL = true ∧ ringOf sRingTable 0 = none ∧ wfield ws 5 63 63 = 0 ∧ ringReason sRingTable (0) ws = 0 ∧
      sRingTable.intake.heldRecs = []) ∧ (let ws := (ringEntry sRingTable 1); sized sRingTable = true ∧ quenched sRingTable =
      false ∧ mayWrite sRingTable smith.toNat WRK_RING_CTL = true ∧ ringOf sRingTable 1 = none ∧ wfield ws 5 63 63 = 0 ∧
      ringReason sRingTable (1) ws ≠ 0) ∧ (sized (sWorkHeld ring0 []) = true ∧ quenched (sWorkHeld ring0 []) = false ∧ mayWrite
      (sWorkHeld ring0 []) smith.toNat WRK_RING_CTL = true ∧ (ringOf (sWorkHeld ring0 []) 0).isSome = true ∧ (∀ j ∈ (sWorkHeld
      ring0 []).intake.journal, j.ring ≠ 0))) :=
  ⟨
    openDram_and (by decide +kernel),
    ⟨openDram_of (by decide +kernel), slot_case, by decide +kernel⟩,
    openDram_and (by decide +kernel),
    by decide +kernel,
    by decide +kernel⟩

theorem witness_WorkItems :
    ((sized (sItemNoJob 1 (jobDesc 1)) = true ∧ quenched (sItemNoJob 1 (jobDesc 1)) = false ∧ runningItem (sItemNoJob 1 (jobDesc
      1)) 0 = some (jent JState.running 1 (jobDesc 1)) ∧ entryAt (sItemNoJob 1 (jobDesc 1)) (jent JState.running 1 (jobDesc
      1)).jseq = some (jent JState.running 1 (jobDesc 1)) ∧ (jent JState.running 1 (jobDesc 1)).fin = false ∧ itemBad (jent
      JState.running 1 (jobDesc 1)).item = false ∧ itemKind (jent JState.running 1 (jobDesc 1)) = 1 ∧ (sItemNoJob 1 (jobDesc
      1)).job = none ∧ rejectReason
      { (sItemNoJob 1 (jobDesc 1)) with job := some (newJob (sItemNoJob 1 (jobDesc 1)) (0) (jent JState.running 1 (jobDesc 1))) }
      = none) ∧ (sized (sItemNoJob 1 (jobDesc 0)) = true ∧ quenched (sItemNoJob 1 (jobDesc 0)) = false ∧ runningItem (sItemNoJob 1
      (jobDesc 0)) 0 = some (jent JState.running 1 (jobDesc 0)) ∧ entryAt (sItemNoJob 1 (jobDesc 0)) (jent JState.running 1
      (jobDesc 0)).jseq = some (jent JState.running 1 (jobDesc 0)) ∧ (jent JState.running 1 (jobDesc 0)).fin = false ∧ itemBad
      (jent JState.running 1 (jobDesc 0)).item = false ∧ itemKind (jent JState.running 1 (jobDesc 0)) = 1 ∧ (sItemNoJob 1 (jobDesc
      0)).job = none ∧ rejectReason
      { (sItemNoJob 1 (jobDesc 0)) with job := some (newJob (sItemNoJob 1 (jobDesc 0)) (0) (jent JState.running 1 (jobDesc 0))) }
      = some (2, 0)) ∧ ((((sItem id 1 (jobDesc 1)).job).any fun j => decide (sized (sItem id 1 (jobDesc 1)) = true ∧ quenched
      (sItem id 1 (jobDesc 1)) = false ∧ runningItem (sItem id 1 (jobDesc 1)) 0 = some (jent JState.running 1 (jobDesc 1)) ∧
      entryAt (sItem id 1 (jobDesc 1)) (jent JState.running 1 (jobDesc 1)).jseq = some (jent JState.running 1 (jobDesc 1)) ∧ (jent
      JState.running 1 (jobDesc 1)).fin = false ∧ itemBad (jent JState.running 1 (jobDesc 1)).item = false ∧ itemKind (jent
      JState.running 1 (jobDesc 1)) = 1 ∧ j.item ≠ some (0, (jent JState.running 1 (jobDesc 1)).jseq))) = true) ∧ ((((sItem id 2
      [4]).job).any fun j => decide (sized (sItem id 2 [4]) = true ∧ quenched (sItem id 2 [4]) = false ∧ runningItem (sItem id 2
      [4]) 0 = some (jent JState.running 2 [4]) ∧ entryAt (sItem id 2 [4]) (jent JState.running 2 [4]).jseq = some (jent
      JState.running 2 [4]) ∧ (jent JState.running 2 [4]).fin = false ∧ itemBad (jent JState.running 2 [4]).item = false ∧
      itemKind (jent JState.running 2 [4]) = 2 ∧ j.relItem ≠ some (0, (jent JState.running 2 [4]).jseq) ∧ (j.stat ≠
      JobStat.heldWiden ∨ wfield (jent JState.running 2 [4]).item 8 63 0 ≠ j.step))) = true) ∧ ((((sItem (fun j =>
      { j with stat := JobStat.heldWiden }) 2 [4]).job).any fun j => decide (((groupAt (sItem (fun j =>
      { j with stat := JobStat.heldWiden }) 2 [4]) (jobGroup (sItem (fun j => { j with stat := JobStat.heldWiden }) 2 [4]))).any
      fun g => decide (sized (sItem (fun j => { j with stat := JobStat.heldWiden }) 2 [4]) = true ∧ quenched (sItem (fun j =>
      { j with stat := JobStat.heldWiden }) 2 [4]) = false ∧ runningItem (sItem (fun j => { j with stat := JobStat.heldWiden }) 2
      [4]) 0 = some (jent JState.running 2 [4]) ∧ entryAt (sItem (fun j => { j with stat := JobStat.heldWiden }) 2 [4]) (jent
      JState.running 2 [4]).jseq = some (jent JState.running 2 [4]) ∧ (jent JState.running 2 [4]).fin = false ∧ itemBad (jent
      JState.running 2 [4]).item = false ∧ itemKind (jent JState.running 2 [4]) = 2 ∧ j.relItem ≠ some (0, (jent JState.running 2
      [4]).jseq) ∧ j.stat = JobStat.heldWiden ∧ wfield (jent JState.running 2 [4]).item 8 63 0 = j.step ∧ wfield (jent
      JState.running 2 [4]).item 10 1 0 ≠ 3 ∧ childrenIn g.size 0 g.rank ≠ [])) = true)) = true)) ∧
    (((((sItem id 3 [4]).job).any fun j => decide (sized (sItem id 3 [4]) = true ∧ quenched (sItem id 3 [4]) = false ∧ runningItem
      (sItem id 3 [4]) 0 = some (jent JState.running 3 [4]) ∧ entryAt (sItem id 3 [4]) (jent JState.running 3 [4]).jseq = some
      (jent JState.running 3 [4]) ∧ (jent JState.running 3 [4]).fin = false ∧ itemBad (jent JState.running 3 [4]).item = false ∧
      itemKind (jent JState.running 3 [4]) = 3 ∧ (j.stat ≠ JobStat.heldRatio ∨ wfield (jent JState.running 3 [4]).item 8 63 0 ≠
      j.step))) = true) ∧ ((((atWalk (sItem (fun j => { j with stat := JobStat.heldRatio }) 3 [4]) 3
      [{ idx := 2, left := 1, failed := false }]).job).any fun j => decide (sized (atWalk (sItem (fun j =>
      { j with stat := JobStat.heldRatio }) 3 [4]) 3 [{ idx := 2, left := 1, failed := false }]) = true ∧ quenched (atWalk (sItem
      (fun j => { j with stat := JobStat.heldRatio }) 3 [4]) 3 [{ idx := 2, left := 1, failed := false }]) = false ∧ runningItem
      (atWalk (sItem (fun j => { j with stat := JobStat.heldRatio }) 3 [4]) 3 [{ idx := 2, left := 1, failed := false }]) 0 = some
      (jent JState.running 3 [4]) ∧ entryAt (atWalk (sItem (fun j => { j with stat := JobStat.heldRatio }) 3 [4]) 3
      [{ idx := 2, left := 1, failed := false }]) (jent JState.running 3 [4]).jseq = some (jent JState.running 3 [4]) ∧ (jent
      JState.running 3 [4]).fin = false ∧ itemBad (jent JState.running 3 [4]).item = false ∧ itemKind (jent JState.running 3 [4])
      = 3 ∧ j.stat = JobStat.heldRatio ∧ wfield (jent JState.running 3 [4]).item 8 63 0 = j.step ∧ wfield (jent JState.running 3
      [4]).item 9 1 0 ≤ 1 ∧ stepTasksOver (atWalk (sItem (fun j => { j with stat := JobStat.heldRatio }) 3 [4]) 3
      [{ idx := 2, left := 1, failed := false }]) = false)) = true) ∧ (((groupAt (sItem id 4 [8]) (wfield (jent JState.running 4
      [8]).item 8 15 0)).any fun g => decide (sized (sItem id 4 [8]) = true ∧ quenched (sItem id 4 [8]) = false ∧ runningItem
      (sItem id 4 [8]) 0 = some (jent JState.running 4 [8]) ∧ entryAt (sItem id 4 [8]) (jent JState.running 4 [8]).jseq = some
      (jent JState.running 4 [8]) ∧ (jent JState.running 4 [8]).fin = false ∧ itemBad (jent JState.running 4 [8]).item = false ∧
      (sItem id 4 [8]).job.isSome = true ∧ itemKind (jent JState.running 4 [8]) = 4 ∧ (sItem id 4 [8]).coll.reset = none ∧ g.rank
      = 0 ∧ childrenIn g.size 0 0 ≠ [] ∧ fabCalm (sItem id 4 [8]) = true)) = true) ∧ ((((atWalk (sItem id 5) 1 []).job).any fun j
      => decide (sized (atWalk (sItem id 5) 1 []) = true ∧ quenched (atWalk (sItem id 5) 1 []) = false ∧ runningItem (atWalk
      (sItem id 5) 1 []) 0 = some (jent JState.running 5) ∧ entryAt (atWalk (sItem id 5) 1 []) (jent JState.running 5).jseq = some
      (jent JState.running 5) ∧ (jent JState.running 5).fin = false ∧ itemBad (jent JState.running 5).item = false ∧ itemKind
      (jent JState.running 5) = 5 ∧ j.endItem = none ∧ j.stat = JobStat.running ∧ atBoundary (atWalk (sItem id 5) 1 []) = false))
      = true) ∧ (sized (sItem id 6) = true ∧ quenched (sItem id 6) = false ∧ runningItem (sItem id 6) 0 = some (jent
      JState.running) ∧ entryAt (sItem id 6) (jent JState.running).jseq = some (jent JState.running) ∧ (jent JState.running).fin =
      false ∧ itemBad (jent JState.running).item = false ∧ itemKind (jent JState.running) = 6)) ∧
    ((sized (sItemNoJob 2 [4]) = true ∧ quenched (sItemNoJob 2 [4]) = false ∧ runningItem (sItemNoJob 2 [4]) 0 = some (jent
      JState.running 2 [4]) ∧ entryAt (sItemNoJob 2 [4]) (jent JState.running 2 [4]).jseq = some (jent JState.running 2 [4]) ∧
      (jent JState.running 2 [4]).fin = false ∧ itemBad (jent JState.running 2 [4]).item = false ∧ (Instr.widenRelease 0 =
      Instr.widenRelease 0 ∧ itemKind (jent JState.running 2 [4]) = 2 ∨ Instr.widenRelease 0 = Instr.ratioRelease 0 ∧ itemKind
      (jent JState.running 2 [4]) = 3 ∨ Instr.widenRelease 0 = Instr.jobReset 0 ∧ itemKind (jent JState.running 2 [4]) = 4 ∨
      Instr.widenRelease 0 = Instr.jobEnd 0 ∧ itemKind (jent JState.running 2 [4]) = 5) ∧ (sItemNoJob 2 [4]).job = none) ∧ (sized
      (sItem id 9) = true ∧ quenched (sItem id 9) = false ∧ runningItem (sItem id 9) 0 = some (jent JState.running 9) ∧ entryAt
      (sItem id 9) (jent JState.running 9).jseq = some (jent JState.running 9) ∧ (jent JState.running 9).fin = false ∧ itemBad
      (jent JState.running 9).item = true)) :=
  ⟨
    by decide +kernel,
    by decide +kernel,
    by decide +kernel⟩

theorem witness_Mailboxes :
    ((sized sMbx = true ∧ isAgent smith.toNat = true ∧ (mbxAt sMbx 3).owner = 0) ∧ (sized sLocked = true ∧ isAgent smith.toNat =
      true ∧ (mbxAt sLocked 3).owner ≠ 0) ∧ (sized sLocked = true ∧ isAgent smith.toNat = true ∧ (mbxAt sLocked 3).owner =
      smith.toNat ∧ 1 % 256 = smith.toNat) ∧ (sized sLocked = true ∧ isAgent smith.toNat = true ∧ (mbxAt sLocked 3).owner =
      smith.toNat) ∧ (sized sMbx = true ∧ isAgent smith.toNat = true ∧ (mbxAt sMbx 3).owner ≠ smith.toNat)) ∧
    ((((mbxAt sFull3 3).fullAt).isSome = true ∧ sized sFull3 = true ∧ isAgent smith.toNat = true ∧ 3 ≠ 0 ∧ mbxOnChip sFull3 3 =
      true ∧ (mbxAt sFull3 3).owner = smith.toNat) ∧ (sized sLocked = true ∧ isAgent smith.toNat = true ∧ 3 ≠ 0 ∧ mbxOnChip
      sLocked 3 = true ∧ (mbxAt sLocked 3).owner = smith.toNat ∧ (mbxAt sLocked 3).fullAt = none ∧ smithReceives sLocked 3 = true
      ∧ receiverDead sLocked 3 = false) ∧ (sized sLocked = true ∧ isAgent smith.toNat = true ∧ (mbxAt sLocked 3).owner ≠ 0 ∧
      quenched sLocked = false ∧ mbxLimit sLocked ≤ sLocked.time.ns - (mbxAt sLocked 3).since - (mbxAt sLocked 3).quenched) ∧
      (sized sFull3 = true ∧ isAgent smith.toNat = true ∧ (mbxAt sFull3 3).fullAt = some 0 ∧ mbxLimit sFull3 ≤ sFull3.time.ns - 0
      ∧ senderOf sFull3 3 < 2 ^ 62)) :=
  ⟨
    by decide +kernel,
    by decide +kernel⟩

theorem witness_TakingClearsFull :
    (sized sMbx = true ∧ smith = 1 ∧ smithReceives sMbx 3 = true) ∧
    (sized sMbx = true ∧ (2 ≠ 1 ∨ smithReceives sMbx 3 = false)) ∧
    (sized sReadyM = true ∧ dispatchOpen sReadyM = true ∧ nextTask sReadyM h0.val = some (tkM, 0) ∧ wfield tkM.record 0 63 48 =
      2643 ∧ tkM.slot = none ∧ tkM.fails = 0 ∧ tkM.mbox = some 3) :=
  ⟨
    by decide +kernel,
    by decide +kernel,
    by decide +kernel⟩

theorem witness_SeedCopyAndLosses :
    (∃ w, wardNamed sWardCommit (9) = some w ∧ ∃ m, rowAt sWardCommit (3145728, 24).1 (3145728, 24).2 = some m ∧ ∃ d, rowAt
      sWardCommit (w.slot + slotDelta + masterOffset (wardExtents sWardCommit w kMaster) (3145728, 24).1) (3145728, 24).2 = some d
      ∧ openDram sWardCommit (3145728, 24).1 (3145728, 24).2 ∧ sized sWardCommit = true ∧ commitFresh sWardCommit w = true ∧
      quenched sWardCommit = false ∧ BitVec.toNat (readWord sWardCommit (w.slot + 128 + 16)) ≠ 0 ∧ BitVec.toNat (readWord
      sWardCommit (w.slot + 128 + 24)) = 0 ∧ wardRows sWardCommit w = [(3145728, 24)] ∧ w.refetch = [] ∧ ((d.codes.any fun c => c
      != 0) = true) ∧ (addDelta m d).length = (3145728, 24).2 ∧ (w.slot + 16 ≤ (3145728, 24).1 ∨ (3145728, 24).1 + (3145728, 24).2
      ≤ w.slot + 8) ∧ ((3145728, 24).1 + (3145728, 24).2 ≤ w.slot + 128 ∨ w.slot + 256 ≤ (3145728, 24).1)) ∧
    (((planBad (sPlan 3) (readWords (sPlan 3) (planAddr (sPlan 3)) 32)).isSome = true ∧ sized (sPlan 3) = true ∧ mayWrite (sPlan
      3) smith.toNat SURV_CTL = true ∧ (sPlan 3).job = none) ∧ (sized (sPlan 2) = true ∧ mayWrite (sPlan 2) smith.toNat SURV_CTL =
      true ∧ (sPlan 2).job = none ∧ planBad (sPlan 2) (readWords (sPlan 2) (planAddr (sPlan 2)) 32) = none) ∧ (sized (sPlan 2) =
      true ∧ mayWrite (sPlan 2) smith.toNat SURV_CTL = true) ∧ (sized sMasters = true ∧ ((sMasters.surv.wards.any fun x => decide
      (x.node = 10)) = false) ∧ windowOverlaps sMasters (10) (2097152) (4096) = true) ∧ (sized (survSt [5, 9, 10]) = true ∧
      (((survSt [5, 9, 10]).surv.wards.any fun x => decide (x.node = 10)) = false) ∧ windowOverlaps (survSt [5, 9, 10]) (10)
      (8388608) (4096) = false ∧ (survSt [5, 9, 10]).surv.wards.length < planMaxWards (survSt [5, 9, 10]).surv.plan ∧ slotFree
      (survSt [5, 9, 10]) (10) (67108864) = true)) ∧
    ((((sCopying.surv.partner).any fun p => decide (sized sCopying = true ∧ p.1 < 65536 ∧ quenched sCopying = false ∧
      sCopying.surv.copying = true ∧ ownerLeft sCopying Owner.copy = false ∧ sCopying.intake.journal = [] ∧ sCopying.intake.rings
      = [])) = true) ∧ (((sCommit.surv.partner).any fun p => decide ((sCommit.surv.commitDue).isSome = true ∧ sized sCommit = true
      ∧ p.1 < 65536 ∧ quenched sCommit = false ∧ sCommit.surv.commitStep = none ∧ partnerValid sCommit = true ∧
      sCommit.surv.copying = false ∧ fenced sCommit = false)) = true) ∧ (((sAck.surv.commitStep).any fun k => decide (sized sAck =
      true ∧ BitVec.toNat (readWord sAck (survArea sAck + 8192)) = k ∧ quenched sAck = false ∧ sAck.surv.later = [])) = true) ∧
      (sized sRow = true ∧ sRow.job.isSome = true ∧ 9 ≠ ownNode sRow ∧ fpWords (readWords sRow (655360) 1) = BitVec.toNat (w64
      (fpWords [5]))) ∧ (sized sRow = true ∧ sRow.job.isSome = true ∧ 9 ≠ ownNode sRow ∧ fpWords (readWords sRow (655360) 1) ≠ 5 ∧
      assocGet (655360) sRow.surv.rereads = none)) ∧
    ((sized (sPlan 2) = true ∧ mayWrite (sPlan 2) smith.toNat SURV_RST_CTL = true) ∧ (sized sCopying = true ∧ watched sCopying (9)
      = true ∧ silentTo sCopying (9) = true ∧ fenced sCopying = false ∧ joined sCopying = true) ∧ (((assocGet (9)
      sWatch.surv.heard).any fun t0 => decide (((survGroup sWatch).any fun g => decide (sized sWatch = true ∧ quenched sWatch =
      false ∧ hbLoss sWatch ≤ sWatch.time.ns - t0 ∧ fenced sWatch = false ∧ watched sWatch (9) = true ∧ reportRank sWatch (9) ≠
      g.rank)) = true)) = true) ∧ (((sUnanswered.surv.partner).any fun p => decide (sized sUnanswered = true ∧ (dstAt sUnanswered
      p.1).unacked ≠ [] ∧ hbLoss sUnanswered ≤ sUnanswered.time.ns - (dstAt sUnanswered p.1).advAt)) = true) ∧ (((connAt sNotice
      (noticeConn sNotice)).any fun c => decide (sized sNotice = true ∧ sNotice.surv.notices = [[1, 2]] ∧ sNotice.surv.plan ≠ [] ∧
      fenced sNotice = false ∧ c.error = false ∧ c.waitq = [])) = true)) :=
  ⟨
    some_wit (by decide +kernel) (some_wit (by decide +kernel) (some_wit (by decide +kernel) (openDram_and (by decide +kernel)))),
    by decide +kernel,
    by decide +kernel,
    by decide +kernel⟩

theorem witness_SurvivalLines :
    ((sized (sHoldoff 20000000) = true ∧ survGroup (sHoldoff 20000000) = some (gr 0 [5]) ∧ quenched (sHoldoff 20000000) = false ∧
      Instr.halt (SurvLoc.relation 1) ∈ [Instr.loss (SurvLoc.relation 1), Instr.join (SurvLoc.relation 1), Instr.change
      (SurvLoc.relation 1), Instr.resume (SurvLoc.relation 1), Instr.halt (SurvLoc.relation 1)] ∧ readSurv (sHoldoff 20000000)
      (survAddr (sHoldoff 20000000) (SurvLoc.relation 1)) = none) ∧ (((readSurv (sReport 1 [10] []) (survAddr (sReport 1 [10] [])
      inb9)).any fun l => decide (sized (sReport 1 [10] []) = true ∧ survGroup (sReport 1 [10] []) = some (gr 0 [5, 9, 10]) ∧
      quenched (sReport 1 [10] []) = false ∧ inb9 = SurvLoc.inbox 9 ∧ assocGet (survKey inb9) (sReport 1 [10] []).surv.lines ≠
      some l.seq ∧ fabCalm (sReport 1 [10] []) = true ∧ (sReport 1 [10] []).surv.change = some chg ∧ unconfirmed (sReport 1 [10]
      []) chg ≠ [] ∧ (gr 0 [5, 9, 10]).rank = 0 ∧ l.kind = 1 ∧ l.removed.contains (ownNode (sReport 1 [10] [])) = false)) = true)
      ∧ (((readSurv (sReport 6 [] [11]) (survAddr (sReport 6 [] [11]) inb9)).any fun l => decide (sized (sReport 6 [] [11]) = true
      ∧ survGroup (sReport 6 [] [11]) = some (gr 0 [5, 9, 10]) ∧ quenched (sReport 6 [] [11]) = false ∧ inb9 = SurvLoc.inbox 9 ∧
      assocGet (survKey inb9) (sReport 6 [] [11]).surv.lines ≠ some l.seq ∧ fabCalm (sReport 6 [] [11]) = true ∧ (sReport 6 []
      [11]).surv.change = some chg ∧ unconfirmed (sReport 6 [] [11]) chg ≠ [] ∧ (gr 0 [5, 9, 10]).rank = 0 ∧ l.kind = 6)) = true)
      ∧ (((readSurv (sChange 5 [5]) (survAddr (sChange 5 [5]) inb9)).any fun l => decide (sized (sChange 5 [5]) = true ∧ survGroup
      (sChange 5 [5]) = some (gr 1 [9, 5, 10]) ∧ quenched (sChange 5 [5]) = false ∧ inb9 = SurvLoc.inbox 9 ∧ assocGet (survKey
      inb9) (sChange 5 [5]).surv.lines ≠ some l.seq ∧ l.kind = 2 ∧ survMgen (sChange 5 [5]) < l.mgen ∧ l.removed.contains (ownNode
      (sChange 5 [5])) = true)) = true) ∧ (((readSurv (sChange 0 [10]) (survAddr (sChange 0 [10]) inb9)).any fun l => decide
      (sized (sChange 0 [10]) = true ∧ survGroup (sChange 0 [10]) = some (gr 1 [9, 5, 10]) ∧ quenched (sChange 0 [10]) = false ∧
      inb9 = SurvLoc.inbox 9 ∧ assocGet (survKey inb9) (sChange 0 [10]).surv.lines ≠ some l.seq ∧ l.kind = 2 ∧ l.mgen ≤ survMgen
      (sChange 0 [10]))) = true)) ∧
    ((((readSurv (sChange 5 [11]) (survAddr (sChange 5 [11]) inb9)).any fun l => decide (sized (sChange 5 [11]) = true ∧ survGroup
      (sChange 5 [11]) = some (gr 1 [9, 5, 10]) ∧ quenched (sChange 5 [11]) = false ∧ inb9 = SurvLoc.inbox 9 ∧ assocGet (survKey
      inb9) (sChange 5 [11]).surv.lines ≠ some l.seq ∧ l.kind = 2 ∧ survMgen (sChange 5 [11]) < l.mgen ∧ l.removed = [11] ∧ 11 ≠
      ownNode (sChange 5 [11]) ∧ l.added = [] ∧ fabCalm (sChange 5 [11]) = true ∧ (sChange 5 [11]).job = none ∧ (sChange 5
      [11]).surv.wards = [] ∧ (sChange 5 [11]).surv.reports = [] ∧ (sChange 5 [11]).intake.rings = [] ∧ (sChange 5
      [11]).coll.reset = none ∧ (sChange 5 [11]).ylp.tx = [])) = true) ∧ (((readSurv (sReport 4 [] []) (survAddr (sReport 4 [] [])
      inb9)).any fun l => decide (sized (sReport 4 [] []) = true ∧ survGroup (sReport 4 [] []) = some (gr 0 [5, 9, 10]) ∧ quenched
      (sReport 4 [] []) = false ∧ inb9 = SurvLoc.inbox 9 ∧ assocGet (survKey inb9) (sReport 4 [] []).surv.lines ≠ some l.seq ∧
      l.kind = 4 ∧ (sReport 4 [] []).surv.change = some chg ∧ chg.mgen = l.mgen)) = true) ∧ (((readSurv (sReport 5 [] [])
      (survAddr (sReport 5 [] []) inb9)).any fun l => decide (sized (sReport 5 [] []) = true ∧ survGroup (sReport 5 [] []) = some
      (gr 0 [5, 9, 10]) ∧ quenched (sReport 5 [] []) = false ∧ inb9 = SurvLoc.inbox 9 ∧ assocGet (survKey inb9) (sReport 5 []
      []).surv.lines ≠ some l.seq ∧ l.kind = 5 ∧ (sReport 5 [] []).surv.haltSeen = false)) = true) ∧ (((readSurv sConfirm
      (survAddr sConfirm (SurvLoc.relation 1))).any fun l => decide (sized sConfirm = true ∧ survGroup sConfirm = some (gr 0 [5,
      9, 10]) ∧ quenched sConfirm = false ∧ assocGet (survKey (SurvLoc.relation 1)) sConfirm.surv.lines ≠ some l.seq ∧ l.kind = 3
      ∧ l.mgen ≤ survMgen sConfirm ∧ sConfirm.surv.change = some chg ∧ chg.mgen = l.mgen ∧ chg.kids.contains (relationRank (gr 0
      [5, 9, 10]) 1) = false ∧ unconfirmed sConfirm { chg with kids := chg.kids ++ [relationRank (gr 0 [5, 9, 10]) 1] } ≠ [])) =
      true) ∧ (sized (sHoldoff 20000000) = true ∧ survGroup (sHoldoff 20000000) = some (gr 0 [5]) ∧ quenched (sHoldoff 20000000) =
      false ∧ (sHoldoff 20000000).surv.change = some chg ∧ (gr 0 [5]).rank = 0 ∧ unconfirmed (sHoldoff 20000000) chg = [] ∧
      (sHoldoff 20000000).surv.reports = [] ∧ holdoffTime (sHoldoff 20000000) ≤ (sHoldoff 20000000).time.ns - chg.sentAt)) :=
  ⟨
    by decide +kernel,
    by decide +kernel⟩

theorem witness_ShardsMove :
    (((assocGet (9) sLease.surv.removedAt).any fun t0 => decide (sized sLease = true ∧ fabCalm sLease = true ∧ quenched sLease =
      false ∧ fenced sLease = false ∧ wardNamed sLease (9) = some ward9 ∧ isMember sLease (9) = false ∧
      sLease.surv.adopts.contains (9) = false ∧ hbLoss sLease + leaseTime sLease ≤ sLease.time.ns - t0 ∧ BitVec.toNat (readWord
      sLease ward9.slot) % 4 = 2 ∧ sLease.surv.adopts.length < planMaxWards sLease.surv.plan ∧ commitFresh sLease ward9 = false ∧
      wardCursorsBad sLease ward9 = none ∧ journalRoom sLease (takenItems sLease ward9 (BitVec.toNat (readWord sLease (ward9.slot
      + 8)))).length = true)) = true) ∧
    (sized sAdopted = true ∧ fabCalm sAdopted = true ∧ quenched sAdopted = false ∧ fenced sAdopted = false ∧ handedWard sAdopted
      (9) = some ward9 ∧ (groupNodes sAdopted).contains (9) = true ∧ atBoundary sAdopted = true ∧ sAdopted.surv.change = none ∧
      sAdopted.surv.commitDue = none ∧ sAdopted.surv.commitStep = none) :=
  ⟨
    by decide +kernel,
    by decide +kernel⟩

theorem witness_PowerAndGrants :
    (standingGrants { sUpNow with power := { sUpNow.power with dither := none } } =
      { sUpNow with power := { sUpNow.power with dither := none } } ∧ sized sUpNow = true ∧ sUpNow.power.dither = some 20000000 ∧
      20000000 ≤ sUpNow.now ∧ quenched sUpNow = false ∧ sUpNow.power.grants = [GrantReq.up c0 3] ∧ grantFits sUpNow (GrantReq.up
      c0 3) = true) ∧
    ((sized sPwr = true ∧ quenched sPwr = false) ∧ (sized sPaced = true ∧ quenched sPaced = false ∧ mustPace sPaced = false ∧
      paceK sPaced < 16 ∧ 10000 ≤ sPaced.now - sPaced.power.paceAt ∧ (sPaced.power.hotPace = true → paceK sPaced < 8)) ∧ (sized
      sPwr = true ∧ (false = false ∨ sPwr.now - sPwr.power.paceAt < 10000)) ∧ (let u := (standingGrants sPwr); sized sPwr = true ∧
      nextGrant u = none) ∧ (let u := (standingGrants sUpFull); sized sUpFull = true ∧ quenched sUpFull = false ∧ u.power.grants =
      [GrantReq.up c0 3] ∧ grantFits u (GrantReq.up c0 3) = false)) ∧
    ((let u := (standingGrants sUpLate); sized sUpLate = true ∧ quenched sUpLate = false ∧ u.power.grants = [GrantReq.up c0 3] ∧
      ditherWaits u = true) ∧ (let u := (standingGrants sUp); sized sUp = true ∧ quenched sUp = false ∧ u.power.grants =
      [GrantReq.up c0 3] ∧ grantFits u (GrantReq.up c0 3) = true ∧ ditherWaits u = false) ∧ (let u := (standingGrants sDownQ);
      sized sDownQ = true ∧ quenched sDownQ = true ∧ nextGrant u = some (GrantReq.down c0 0) ∧ grantFits u (GrantReq.down c0 0) =
      true ∧ (anvilAt u c0.val 0).ramp = Ramp.waitDown) ∧ (sized sPwr = true ∧ (sPwr.power.dither = none ∨ sPwr.power.dither =
      some 20000000 ∧ sPwr.now < 20000000))) :=
  ⟨
    ⟨standing_of (by decide +kernel), by decide +kernel⟩,
    by decide +kernel,
    by decide +kernel⟩

theorem witness_VoltageAndLadder :
    ((sized sPwr = true ∧ 3 ≤ sPwr.boot.step) ∧ ((sized (pw sPwr fun p => { p with avsFails := 2 }) = true) ∧ (3 ≤ (pw sPwr fun p
      => { p with avsFails := 2 }).boot.step) ∧ ((pw sPwr fun p => { p with avsFails := 2 }).power.avsFails = 2) ∧ ((pw sPwr fun p
      => { p with avsFails := 2 }).power.avsDead = false)) ∧ (sized sPwr = true ∧ bellowsHolds sPwr = true ∧ 100000 ≤ sPwr.now -
      sPwr.power.vAt ∧ idleMillisecond sPwr = true ∧ forecastDue sPwr = false ∧ vfloor sPwr < vreq sPwr) ∧ (sized (sFcast 10) =
      true ∧ bellowsHolds (sFcast 10) = true ∧ 100000 ≤ (sFcast 10).now - (sFcast 10).power.vAt ∧ forecastDue (sFcast 10) = true ∧
      vreq (sFcast 10) < ladderLevel (sFcast 10) ∧ (sFcast 10).power.avsDead = false) ∧ (sized (sPower 20 1400) = true ∧
      bellowsHolds (sPower 20 1400) = true ∧ 100000 ≤ (sPower 20 1400).now - (sPower 20 1400).power.vAt ∧ dueAfter (sPower 20
      1400) 100000 (sPower 20 1400).power.ladderAt = true ∧ pAllow (sPower 20 1400) < ↑(pFast (sPower 20 1400)) ∧ vfloor (sPower
      20 1400) < ladderLevel (sPower 20 1400) ∧ vreq (sPower 20 1400) = ladderLevel (sPower 20 1400) ∧ (sPower 20
      1400).power.floored = false)) ∧
    ((sized (sParkEn 1400) = true ∧ bellowsHolds (sParkEn 1400) = true ∧ dueAfter (sParkEn 1400) 100000 (sParkEn
      1400).power.ladderAt = true ∧ pAllow (sParkEn 1400) < ↑(pFast (sParkEn 1400)) ∧ vfloor (sParkEn 1400) = ladderLevel (sParkEn
      1400) ∧ flag (sParkEn 1400) PWR_CTL PWR_CTL_PARK_EN = true ∧ nextPark (sParkEn 1400) = some 7) ∧ (sized (sPower 20 660) =
      true ∧ bellowsHolds (sPower 20 660) = true ∧ ↑(pFast (sPower 20 660)) ≤ pAllow (sPower 20 660) ∧ 95 / 100 * pAllow (sPower
      20 660) ≤ ↑(pFast (sPower 20 660))) ∧ ((sized (sPower 5 100 fun p => { p with parked := [1, 2] }) = true) ∧ (bellowsHolds
      (sPower 5 100 fun p => { p with parked := [1, 2] }) = true) ∧ (dueAfter (sPower 5 100 fun p => { p with parked := [1, 2] })
      100000 (sPower 5 100 fun p => { p with parked := [1, 2] }).power.ladderAt = true) ∧ (↑(pFast (sPower 5 100 fun p =>
      { p with parked := [1, 2] })) ≤ pAllow (sPower 5 100 fun p => { p with parked := [1, 2] })) ∧ (↑(pFast (sPower 5 100 fun p
      => { p with parked := [1, 2] })) < 95 / 100 * pAllow (sPower 5 100 fun p => { p with parked := [1, 2] })) ∧ ((sPower 5 100
      fun p => { p with parked := [1, 2] }).power.offDoms = []) ∧ ((sPower 5 100 fun p =>
      { p with parked := [1, 2] }).power.parked ≠ [])) ∧ ((sized (sPower 20 1400 fun p => { p with ladderAt := some 19999000 }) =
      true) ∧ (bellowsHolds (sPower 20 1400 fun p => { p with ladderAt := some 19999000 }) = false ∨ dueAfter (sPower 20 1400 fun
      p => { p with ladderAt := some 19999000 }) 100000 (sPower 20 1400 fun p =>
      { p with ladderAt := some 19999000 }).power.ladderAt = false))) :=
  ⟨
    by decide +kernel,
    by decide +kernel⟩

theorem witness_HeatAndQuench :
    ((sized sPwr = true ∧ 100 < celsius 93) ∧ (sized sPwr = true ∧ quenched sPwr = false ∧ celsius 95 ≤ 1530 ∧ 1530 < celsius
      (quenchT sPwr)) ∧ (sized sPwr = true ∧ quenched sPwr = false ∧ sPwr.therm.trip = false ∧ celsius (quenchT sPwr) ≤ 1700 ∧
      1700 < celsius 110) ∧ (sized (sHot 1500) = true ∧ dueAfter (sHot 1500) 1000000 (sHot 1500).power.allowAt = true ∧
      junctionHot (sHot 1500) = true) ∧ (sized sPwr = true ∧ dueAfter sPwr 1000000 sPwr.power.allowAt = true ∧ junction sPwr <
      celsius (tjLim sPwr) - celsius 3 ∧ junctionHot sPwr = false)) ∧
    ((sized (sHot 1400) = true ∧ (dueAfter (sHot 1400) 1000000 (sHot 1400).power.allowAt = false ∨ junctionHot (sHot 1400) = false
      ∧ celsius (tjLim (sHot 1400)) - celsius 3 ≤ junction (sHot 1400))) ∧ (sized sPwr = true ∧ 4 ≤ sPwr.boot.step ∧ 0 % 2 = 0) ∧
      (sized sSense2 = true ∧ 4 ≤ sSense2.boot.step ∧ 2 ≤ sSense2.therm.smbFails ∧ sSense2.therm.lost = false) ∧ (sized sPwr =
      true ∧ lowFlow sPwr = false) ∧ (sized sLowLate = true ∧ quenched sLowLate = false ∧ sLowLate.therm.trip = false ∧ lowFlow
      sLowLate = true)) ∧
    ((sized sPwr = true ∧ quenched sPwr = false ∧ sPwr.therm.trip = false ∧ mayWrite sPwr (1) THM_QCTL = true) ∧ (sized (quenchSt
      sPwr) = true ∧ (quenchSt sPwr).therm.quench = some 0 ∧ (quenchSt sPwr).therm.inSelfRefresh = false ∧ anvilsIdle (quenchSt
      sPwr) = true ∧ vreq (quenchSt sPwr) ≠ 0) ∧ (sized sDownQ = true ∧ sDownQ.therm.quench = some 0 ∧ anvilsIdle sDownQ = false)
      ∧ (sized (putF (quenchSt (sHot 1500)) PWR_VCTL PWR_VCTL_VREQ 9) = true ∧ (putF (quenchSt (sHot 1500)) PWR_VCTL PWR_VCTL_VREQ
      9).therm.quench = some 0 ∧ mayEnd (putF (quenchSt (sHot 1500)) PWR_VCTL PWR_VCTL_VREQ 9) = false) ∧ (sized sDownQ = true ∧
      sDownQ.therm.quench = some 0 ∧ mayEnd sDownQ = true ∧ queuesEmpty sDownQ = true ∧ sDownQ.intake.rings = [] ∧ domQuiet sDownQ
      = true)) ∧
    ((sized (sAwake 0) = true ∧ (sAwake 0).power.selfRefresh = [(128 * 1 + 2, 0)] ∧ 10000 ≤ (sAwake 0).now - 0) ∧ (sized (sAwake
      20000000) = true ∧ (sAwake 20000000).power.selfRefresh = [(128 * 1 + 2, 20000000)] ∧ (sAwake 20000000).now - 20000000 <
      10000)) :=
  ⟨
    by decide +kernel,
    by decide +kernel,
    by decide +kernel,
    by decide +kernel⟩

theorem witness_QuenchLeaves :
    ((sLeave 1000000000).therm.quench = some 0 ∧ getF (sLeave 1000000000) THM_QCTL THM_QCTL_LEAVE ≠ 0 ∧ (sLeave
      1000000000).therm.left = false ∧ getF (sLeave 1000000000) THM_QCTL THM_QCTL_LEAVE * 1000000000 ≤ (sLeave 1000000000).now -
      0) ∧
    ((sLeave 500000000).therm.quench = some 0 ∧ (getF (sLeave 500000000) THM_QCTL THM_QCTL_LEAVE = 0 ∨ (sLeave 500000000).now - 0
      < getF (sLeave 500000000) THM_QCTL THM_QCTL_LEAVE * 1000000000)) :=
  ⟨
    by decide +kernel,
    by decide +kernel⟩

theorem witness_TripsAndTests :
    ((sized (sRun sPwr) = true ∧ (sRun sPwr).therm.trip = false ∧ (sRun sPwr).boot.running = true) ∧ ((sized (th sSwing fun t =>
      { t with cycleAt := some 19000000 }) = true) ∧ (dueAfter (th sSwing fun t => { t with cycleAt := some 19000000 }) 10000000
      (th sSwing fun t => { t with cycleAt := some 19000000 }).therm.cycleAt = false)) ∧ (sized sSwing = true ∧ dueAfter sSwing
      10000000 sSwing.therm.cycleAt = true ∧ 1000 ≤ celsius 85 ∧ sSwing.therm.valid = true ∧ sSwing.therm.up = true ∧
      sSwing.therm.ext ≤ 1000 ∧ sSwing.therm.cand < 1000) ∧ (sized sSwing = true ∧ dueAfter sSwing 10000000 sSwing.therm.cycleAt =
      true ∧ 500 ≤ celsius 85 ∧ sSwing.therm.valid = true ∧ sSwing.therm.up = true ∧ sSwing.therm.ext ≤ 500 ∧ celsius 20 ≤
      sSwing.therm.cand - 500 ∧ swingBin ((sSwing.therm.cand - sSwing.therm.ext) / 16).toNat = some 2) ∧ (sized sWear = true ∧
      sWear.therm.wearDirty = true ∧ sWear.therm.wearAt = none ∧ sWear.boot.slotBusy = none)) ∧
    ((sized sRot = true ∧ getF sRot PWR_TEST PWR_TEST_PERIOD ≠ 0 ∧ sRot.boot.step = 8 ∧ rotationGap sRot ≤ sRot.now - (rotAt sRot
      0).2 ∧ (rotAt sRot 0).1 < 8 ∧ u0.val = 8 * 0 + (rotAt sRot 0).1 ∧ domQuiet sRot = true ∧ quenched sRot = false ∧ testRuns
      sRot 0 = false ∧ domState sRot u0.val = domOn ∧ inTransition sRot u0.val = false ∧ wouldStrand sRot u0.val = false ∧
      sRot.power.rot.length = 2) ∧ (sized (quenchSt sPwr) = true ∧ mayWrite (quenchSt sPwr) smith.toNat PWR_TEST = true ∧ quenched
      (quenchSt sPwr) = true) ∧ (sized (sRun sPwr) = true ∧ mayWrite (sRun sPwr) smith.toNat PWR_TEST = true ∧ quenched (sRun
      sPwr) = false ∧ domQuiet (sRun sPwr) = true ∧ (∀ (u : DomId), domState (sRun sPwr) ↑u = domOn ∧ inTransition (sRun sPwr) ↑u
      = false) ∧ testRuns (sRun sPwr) 0 = false ∧ testRuns (sRun sPwr) 1 = false ∧ wouldStrand (sRun sPwr) 0 = false ∧ wouldStrand
      (sRun sPwr) 8 = false) ∧ (sized sPortQueued = true ∧ mayWrite sPortQueued smith.toNat PWR_TEST = true ∧
      (sPortQueued.job.isSome = true ∨ testOn sPortQueued = true ∨ sPortQueued.queuedTests ≠ [])) ∧ (sized (sRun sPwr) = true ∧
      mayWrite (sRun sPwr) smith.toNat PWR_TEST = true ∧ (sRun sPwr).job.isNone = true ∧ testOn (sRun sPwr) = false ∧ (sRun
      sPwr).queuedTests = [] ∧ fabCalm (sRun sPwr) = true)) ∧
    ((sized (sQueuedTest [none]) = true ∧ testOn (sQueuedTest [none]) = false ∧ quenched (sQueuedTest [none]) = false ∧ atBoundary
      (sQueuedTest [none]) = true ∧ (sQueuedTest [none]).queuedTests = [none]) ∧ (sized (sQueuedTest [some 3]) = true ∧ testOn
      (sQueuedTest [some 3]) = false ∧ quenched (sQueuedTest [some 3]) = false ∧ atBoundary (sQueuedTest [some 3]) = true ∧
      (sQueuedTest [some 3]).queuedTests = [some p3] ∧ fabCalm (sQueuedTest [some 3]) = true)) :=
  ⟨
    by decide +kernel,
    by decide +kernel,
    by decide +kernel⟩

theorem witness_StartAndResets :
    (resetFrameOk sAnchor (p3.val) ethIn resetBytes = true) ∧
    (((Instr.powerGood = Instr.powerGood ∧ sGone.boot.running = false ∧ sGone.boot.brown = none ∨ Instr.powerGood =
      Instr.brownOutRecovery ∧ (∃ x, sGone.boot.brown = some x ∧ 1000000 ≤ sGone.now - x) ∧ sGone.boot.rst = false)) ∧ (True) ∧
      ((at_ 500 sBrown).boot.brown = some 5 ∧ (at_ 500 sBrown).now - 5 < 1000000) ∧ ((sRunning 8).boot.running = true ∧ (sRunning
      8).pins.thermTrip = false) ∧ (resetFrameOk sGone (p3.val) ethIn resetBytes = false)) ∧
    ((sized (sRunning 2) = true ∧ (sRunning 2).boot.running = true ∧ (sRunning 2).boot.stuck = false ∧ quenched (sRunning 2) =
      false ∧ (sRunning 2).boot.step = 2 ∧ (repBad.baseOk = false ∨ repBad.weldOk = false)) ∧ (sized (sRunning 2) = true ∧
      (sRunning 2).boot.running = true ∧ (sRunning 2).boot.stuck = false ∧ quenched (sRunning 2) = false ∧ (sRunning 2).boot.step
      = 2 ∧ rep0.baseOk = true ∧ rep0.weldOk = true ∧ rep0.coreFails = []) ∧ (sized (sRunning 3) = true ∧ (sRunning
      3).boot.running = true ∧ (sRunning 3).boot.stuck = false ∧ quenched (sRunning 3) = false ∧ (sRunning 3).boot.step = 3 ∧
      readRecord (sRunning 3) areaProt = none) ∧ (sized sTrained = true ∧ sTrained.boot.running = true ∧ sTrained.boot.stuck =
      false ∧ quenched sTrained = false ∧ sTrained.boot.step = 5 ∧ flag sTrained MEM_STATUS MEM_STATUS_TRAINED = true) ∧ (sized
      (sRunning 6) = true ∧ (sRunning 6).boot.running = true ∧ (sRunning 6).boot.stuck = false ∧ quenched (sRunning 6) = false ∧
      (sRunning 6).boot.step = 6 ∧ (sRunning 6).boot.portRetryAt = none ∧ rep0.portsUp = [] ∧ anyPlaneUp (sRunning 6) = false)) ∧
    (((sized (bo (sRunning 3) fun b => { b with stuck := true }) = true) ∧ ((bo (sRunning 3) fun b =>
      { b with stuck := true }).boot.stuck = true ∨ quenched (bo (sRunning 3) fun b => { b with stuck := true }) = true)) ∧ (sized
      (at_ 2000000000 (sRunning 3)) = true ∧ (at_ 2000000000 (sRunning 3)).boot.running = true ∧ (at_ 2000000000 (sRunning
      3)).boot.step < 4 ∧ 2000000000 ≤ (at_ 2000000000 (sRunning 3)).now) ∧ (sized (sRunning 8) = true ∧ 4 ≤ (sRunning
      8).boot.step) ∧ (sized (sRetry 5) = true ∧ (sRetry 5).boot.portRetryAt = some 100 ∧ quenched (sRetry 5) = false ∧ (sRetry
      5).now < 100) ∧ (sized (sRetry 100) = true ∧ (sRetry 100).boot.portRetryAt = some 100 ∧ quenched (sRetry 100) = false ∧ 100
      ≤ (sRetry 100).now ∧ anyPlaneUp (sRetry 100) = false)) ∧
    ((sized sRetryUp = true ∧ sRetryUp.boot.portRetryAt = some 100 ∧ quenched sRetryUp = false ∧ 100 ≤ sRetryUp.now ∧ anyPlaneUp
      sRetryUp = true ∧ siteRecord sRetryUp = none) ∧ (sized sGone = true ∧ sGone.now - sGone.boot.watchAt < 1000000000) ∧ (sized
      (at_ 2000000000 (sRunning 5)) = true ∧ (at_ 2000000000 (sRunning 5)).boot.running = true ∧ 4 ≤ (at_ 2000000000 (sRunning
      5)).boot.step ∧ 1000000000 ≤ (at_ 2000000000 (sRunning 5)).now - (at_ 2000000000 (sRunning 5)).boot.watchAt ∧ flag (at_
      2000000000 (sRunning 5)) DEV_STATUS DEV_STATUS_WEDGED = false)) :=
  ⟨
    frame_ok,
    by decide +kernel,
    by decide +kernel,
    by decide +kernel,
    by decide +kernel⟩

theorem witness_AdmissionAndRequests :
    ((sized (sAnswer 0) = true ∧ quenched (sAnswer 0) = false ∧ (mbxAt (sAnswer 0) 0).fullAt.isSome = true ∧ bodyField
      (windowBytes (sAnswer 0) 0) 0 63 48 = 3889 ∧ (sAnswer 0).boot.answerOk = true ∧ (sAnswer 0).boot.step = 7 ∧ bodyField
      (windowBytes (sAnswer 0) 0) 8 7 0 = 0) ∧ (sized (sAnswer 1) = true ∧ quenched (sAnswer 1) = false ∧ (mbxAt (sAnswer 1)
      0).fullAt.isSome = true ∧ bodyField (windowBytes (sAnswer 1) 0) 0 63 48 = 3889 ∧ (sAnswer 1).boot.answerOk = true ∧ (sAnswer
      1).boot.step = 7 ∧ bodyField (windowBytes (sAnswer 1) 0) 8 7 0 = 1) ∧ (sized (sAnswer 2) = true ∧ quenched (sAnswer 2) =
      false ∧ (mbxAt (sAnswer 2) 0).fullAt.isSome = true ∧ bodyField (windowBytes (sAnswer 2) 0) 0 63 48 = 3889 ∧ (sAnswer
      2).boot.answerOk = true ∧ (sAnswer 2).boot.step = 7 ∧ bodyField (windowBytes (sAnswer 2) 0) 8 7 0 = 2) ∧ (sized sNoAnswer =
      true ∧ quenched sNoAnswer = false ∧ (mbxAt sNoAnswer 0).fullAt.isSome = true ∧ sNoAnswer.boot.answerOk = false) ∧ ((sized
      (sWaits fun b => { b with admitAt := some 0 }) = true) ∧ (quenched (sWaits fun b => { b with admitAt := some 0 }) = false) ∧
      ((sWaits fun b => { b with admitAt := some 0 }).boot.admitAt = some 0) ∧ (getF (sWaits fun b =>
      { b with admitAt := some 0 }) CFG_JOIN CFG_JOIN_ADMIT_WAIT * 1000000000 ≤ (sWaits fun b => { b with admitAt := some 0 }).now
      - 0))) ∧
    ((let m := (protAttMbox sAttest.boot.prot); ((senderConn sAttest m).any fun idx => decide (sized sAttest = true ∧ quenched
      sAttest = false ∧ smithHas sAttest m = true ∧ connAt sAttest idx = some conn3 ∧ conn3.error = false ∧ conn3.waitq = [] ∧
      bodyField (windowBytes sAttest m) 0 63 48 = 3872)) = true) ∧ (let m := (protMgmtMbox sMgmtNone.boot.prot); let e := (slice
      (windowBytes sMgmtNone m) 16 16); sized sMgmtNone = true ∧ quenched sMgmtNone = false ∧ smithHas sMgmtNone m = true ∧
      senderConn sMgmtNone m = none ∧ remoteSender sMgmtNone m = false ∧ bodyField (windowBytes sMgmtNone m) 0 63 48 = 3920 ∧
      mgmtCount (windowBytes sMgmtNone m) = 1 ∧ entryAllowed (clearFull sMgmtNone m) false (senderOf sMgmtNone m % 256) (fieldLE e
      4 4) (decide (bodyField e 0 0 0 = 1)) = false) ∧ (let m := (protMgmtMbox (sMgmt 2).boot.prot); let e := (slice (windowBytes
      (sMgmt 2) m) 16 16); (regAt (fieldLE e 4 4)).isSome = true ∧ sized (sMgmt 2) = true ∧ quenched (sMgmt 2) = false ∧ smithHas
      (sMgmt 2) m = true ∧ senderConn (sMgmt 2) m = none ∧ remoteSender (sMgmt 2) m = false ∧ bodyField (windowBytes (sMgmt 2) m)
      0 63 48 = 3920 ∧ mgmtCount (windowBytes (sMgmt 2) m) = 1 ∧ bodyField e 0 0 0 = 1 ∧ plainReg (fieldLE e 4 4) = true ∧
      entryAllowed (clearFull (sMgmt 2) m) false (senderOf (sMgmt 2) m % 256) (fieldLE e 4 4) true = true)) :=
  ⟨
    by decide +kernel,
    by decide +kernel⟩

theorem witness_CommitAndRefusals :
    ((sized (sRunning 8) = true ∧ (sRunning 8).boot.running = true ∧ smith.toNat = agentSmith) ∧ (sized (sRunning 8) = true ∧ 2 ≠
      agentSmith) ∧ (sized (sSlotBusy true) = true ∧ mayWrite (sSlotBusy true) smith.toNat CFG_STAGE_CTL = true ∧ (sSlotBusy
      true).boot.slotBusy.isSome = true) ∧ (sized (sRunning 8) = true ∧ mayWrite (sRunning 8) smith.toNat CFG_STAGE_CTL = true ∧
      (sRunning 8).boot.slotBusy = none ∧ imgShapeBad (readBytes (sRunning 8) (getPair (sRunning 8) CFG_STAGE_LO CFG_STAGE_HI)
      headerLen) = true) ∧ (sized (sSlotBusy true) = true ∧ (sSlotBusy true).boot.slotBusy = some (32768, true) ∧ (sSlotBusy
      true).boot.retireDirty = false)) ∧
    (sized (sRunning 8) = true ∧ mayWrite (sRunning 8) smith.toNat TRU_CHG_CTL = true ∧ changeResult (sRunning 8) (changeBytes
      (sRunning 8)) ≠ 0) :=
  ⟨
    by decide +kernel,
    by decide +kernel⟩

theorem witness_SignedRequestsTakeEffect :
    (sized (sRunning 8) = true ∧ mayWrite (sRunning 8) smith.toNat CFG_STAGE_CTL = true ∧ (sRunning 8).boot.slotBusy = none) ∧
      (sized (sSlotBusy true) = true ∧ (sSlotBusy true).boot.slotBusy = some (32768, true) ∧ (sSlotBusy true).boot.retireDirty =
      false) ∧ (sized (sRunning 8) = true ∧ mayWrite (sRunning 8) smith.toNat TRU_CHG_CTL = true) ∧ (((connAt (sSpread 100)
      1023).any fun c => decide (sized (sSpread 100) = true ∧ (sSpread 100).boot.spreadAt = some 100 ∧ 100 ≤ (sSpread 100).now ∧
      quenched (sSpread 100) = false ∧ c.error = false ∧ c.waitq = [])) = true) ∧ (sized (sSpread 5) = true ∧ (sSpread
      5).boot.spreadAt = some 100 ∧ (sSpread 5).now < 100) :=
    by decide +kernel

theorem witness_RecorderLines :
    ((sized (sRec id) = true ∧ (sRec id).recorder.waiting = [rec0] ∧ (sRec id).recorder.frozen = none ∧ anchorCause (sRec
      id).recorder (sRec id).now = 0 ∧ (sRec id).recorder.head < ringBytes ∧ 8 * (rec0.body.length + 1) ≤ blockLeft (sRec
      id).recorder ∧ (sRec id).recorder.head % 256 ≠ 0) ∧ (sized sFrozen = true ∧ sFrozen.recorder.waiting = [rec0] ∧
      sFrozen.recorder.frozen.isSome = true ∧ holdBytes (sFrozen.recorder.hold ++ [rec0]) ≤ 65536) ∧ ((sized (sRec fun r =>
      { r with waiting := [] }) = true) ∧ ((sRec fun r => { r with waiting := [] }).recorder.waiting = [])) ∧ (sized (sRec id) =
      true ∧ mayWrite (sRec id) smith.toNat EVR_CTL = true ∧ (sRec id).recorder.frozen = none) ∧ (sized sFrozen = true ∧ mayWrite
      sFrozen smith.toNat EVR_CTL = true ∧ sFrozen.recorder.frozen.isSome = true)) ∧
    ((((sFrozenLong.recorder.frozen).any fun x => decide (sized sFrozenLong = true ∧ min 30000 (getF sFrozenLong EVR_CTL
      EVR_CTL_FREEZE_LIM) * 1000000 ≤ sFrozenLong.now - x)) = true) ∧ (((sFrozen.recorder.frozen).any fun x => decide (sized
      sFrozen = true ∧ sFrozen.now - x < min 30000 (getF sFrozen EVR_CTL EVR_CTL_FREEZE_LIM) * 1000000)) = true) ∧ (let off := ((4
      * getF (sRec id) EVR_CURSOR EVR_CURSOR_OFFSET + 4 * 3) % ringBytes); sized (sRec id) = true ∧ mayRead (sRec id) smith.toNat
      (EVR_WINDOW (3)) = true ∧ (sRec id).recorder.bad.contains (off / 8) = false) ∧ (sized (sRec id) = true ∧ mayRead (sRec id)
      smith.toNat (EVR_WINDOW (3)) = true)) :=
  ⟨
    by decide +kernel,
    by decide +kernel⟩

theorem witness_StepRunsFront :
    (True) ∧
    ((sRunning 8).pending = []) :=
  ⟨
    by decide +kernel,
    by decide +kernel⟩

theorem witness_PermissionsHold :
    (mayWrite sGone smith.toNat (32) = false) ∧ (mayWrite sGone smith.toNat CFG_STAGE_CTL = false) ∧ (mayWrite sGone smith.toNat
      PWR_TEST = false) ∧ (mayRead sGone smith.toNat (32) = false) ∧ (sGone.boot.running = false) :=
    by decide +kernel

theorem witness_PermissionsHold_commands :
    (∃ c a, (c, a) ∈ ([(.arm 9, SURV_CTL), (.run 9, PWR_TEST)] : List (Instr × Nat)) ∧ mayWrite .reset 9 a = false) ∧
    mayRead .reset 9 0x20 = false := ⟨⟨.run 9, PWR_TEST, by simp, by decide +kernel⟩, by decide +kernel⟩

theorem witness_GroupsAndStreams_clauses :
    (mayWrite sGrpTable 1 COL_GRP_CTL = true ∧ mayWrite sGrpTable 255 COL_GRP_CTL = false ∧
      groupAt sGrpTable 8 = none ∧ groupReason (writeGroupIndex sGrpTable 8) (readGroupEntry (writeGroupIndex sGrpTable 8) 8) = 0 ∧
      groupAt sGrpTable 9 = none ∧ groupReason (writeGroupIndex sGrpTable 9) (readGroupEntry (writeGroupIndex sGrpTable 9) 9) ≠ 0) ∧
    (mayWrite sIdleGrp 1 COL_GRP_CTL = true ∧ collCalm sIdleGrp = true ∧ instOf sIdleGrp 8 = none ∧ (groupAt sIdleGrp 8).isSome = true) ∧
    (quenched sCredit = false ∧ collCalm sCredit = true ∧ groupAt sCredit 8 = some gSent ∧ gSent.outq = [] ∧
      sCredit.coll.insts = [] ∧ (creditPeers gSent 1 (readWord sCredit (creditLine gSent 1)).toNat).head? = some 0) ∧
    (groupAt (sArrive g3) 8 = some g3 ∧ getF (sArrive g3) COL_CTL COL_CTL_STALL_MS ≠ 0 ∧
      ((instOf (sArrive g3) 8).any fun x => x.stalled = false ∧
        getF (sArrive g3) COL_CTL COL_CTL_STALL_MS * 1000000 ≤ (sArrive g3).time.ns - x.since) = true) ∧
    (groupAt sSnapCapt 8 = some g3 ∧ sSnapCapt.coll.capturing = true ∧ collCalm sSnapCapt = true ∧ sSnapCapt.intake.rings = [] ∧
      ((instOf sSnapCapt 8).any fun x => x.op = .snapshot ∧ x.phase = 1 ∧ x.own = false ∧ awaitedKids g3 x ≠ []) = true) ∧
    (streamLeft sStreamed = false ∧ collCalm sStreamed = true ∧ (sStreamed.coll.stream.any fun y => y.len ≤ y.sent) = true) := by
  decide +kernel

theorem witness_ControlLines_clauses :
    (quenched { sBcast with therm := { sBcast.therm with quench := some 0 } } = true ∧
      sized { sBcast with therm := { sBcast.therm with quench := some 0 } } = true) ∧
    ((instOf (sArrive g3) 8).any fun x => awaitedKids g3 { x with kids := x.kids ++ [1] } ≠ []) = true ∧
    ((instOf (sArrive (gr 0 [5, 9])) 8).any fun x => awaitedKids (gr 0 [5, 9]) { x with kids := x.kids ++ [1] } = []) = true := by
  decide +kernel

theorem witness_InvKept : Inv .reset ∧ ∃ t, step .reset = .next t := ⟨rfl, idle .reset, rfl⟩

theorem witness_SizedKept : sized .reset = true ∧ ∃ t, step .reset = .next t := ⟨by decide +kernel, idle .reset, rfl⟩

end Sys2Proof.Tests
end

section
/-! PROOFS. Reading a field of a management register after writing it, and what a write to SPLIT does (R149). -/

namespace Sys2Proof.Machine

/-! ## Fields of a register -/

theorem bitsOf_putBits {hi lo : Nat} (h : lo ≤ hi + 1) (v x : Nat) :
    bitsOf hi lo (putBits hi lo v x) = x % 2 ^ (hi + 1 - lo) := by
  have hpow : 2 ^ (hi + 1) = 2 ^ lo * 2 ^ (hi + 1 - lo) := by rw [← pow_add, Nat.add_sub_cancel' h]
  have hsplit : putBits hi lo v x =
      v % 2 ^ lo + 2 ^ lo * (x % 2 ^ (hi + 1 - lo) + 2 ^ (hi + 1 - lo) * (v / 2 ^ (hi + 1))) := by
    unfold putBits
    rw [hpow]; ring
  rw [bitsOf, hsplit, Nat.add_mul_div_left _ _ (by positivity), Nat.div_eq_of_lt (Nat.mod_lt _ (by positivity)),
    Nat.zero_add, Nat.add_mul_mod_self_left, Nat.mod_mod]

/-- A field reads nothing above its own bits. -/
theorem bitsOf_mod_two_pow {hi lo n : Nat} (hl : lo ≤ n) (hh : hi < n) (v : Nat) :
    bitsOf hi lo (v % 2 ^ n) = bitsOf hi lo v := by
  have hpow : 2 ^ n = 2 ^ lo * 2 ^ (n - lo) := by rw [← pow_add, Nat.add_sub_cancel' hl]
  rw [bitsOf, bitsOf, hpow, Nat.mod_mul_right_div_self, Nat.mod_mod_of_dvd _ (pow_dvd_pow 2 (by omega))]

/-- A field of a word reads the low bits of what was put in it. -/
theorem Fld.get_put {f : Fld} (hl : f.lo ≤ f.hi) (hh : f.hi < 32) (w : Word32) (x : Nat) :
    f.get (f.put w x) = x % 2 ^ (f.hi + 1 - f.lo) := by
  rw [Fld.get, Fld.put, BitVec.toNat_ofNat, bitsOf_mod_two_pow (by omega) hh, bitsOf_putBits (by omega)]

theorem getF_putF {f : Fld} (hl : f.lo ≤ f.hi) (hh : f.hi < 32) (s : State) (a x : Nat) :
    getF (putF s a f x) a f = x % 2 ^ (f.hi + 1 - f.lo) := by
  rw [getF, putF, getR_setR_self, Fld.get_put hl hh]

/-- A flag of one bit reads what was put in it. -/
theorem flag_putF_bit {f : Fld} (h1 : f.lo = f.hi) (hh : f.hi < 32) (s : State) (a : Nat) (v : Bool) :
    flag (putF s a f (bit v)) a f = v := by
  rw [flag, getF_putF h1.le hh, h1, Nat.add_sub_cancel_left]
  cases v <;> rfl

/-- A write to a field leaves every other register. -/
theorem regsSameBut_putF (s : State) (a : Nat) (f : Fld) (x : Nat) : regsSameBut s (putF s a f x) [a] := fun b hb =>
  getR_setR_ne (by simpa using hb) _

/-! ## SPLIT -/

@[simp] theorem isSplit_setSplit (s : State) (i : Nat) (v : Bool) : isSplit (setSplit s i v) i = v :=
  flag_putF_bit rfl (by decide) s (CORE_TILECTL i) v

theorem regsSameBut_setSplit (s : State) (i : Nat) (v : Bool) : regsSameBut s (setSplit s i v) [CORE_TILECTL i] :=
  regsSameBut_putF s _ _ _

/-- SPLIT stands in a register: a write to it changes nothing but the registers. -/
theorem setSplit_frame (s : State) (i : Nat) (v : Bool) : setSplit s i v = { s with regs := (setSplit s i v).regs } := rfl

theorem splitWrite_of_noTags {s : State} {i : Nat} (h : tagsLive s i = false) (v : Bool) :
    splitWrite s i v = setSplit s i v := by simp [splitWrite, h]

theorem splitWrite_of_tagsLive {s : State} {i : Nat} (h : tagsLive s i = true) (v : Bool) :
    splitWrite s i v = makeRecord s srcSmith 0x107 [] := by simp [splitWrite, h]

theorem exec_splitWrite (i : CoreId) (v : Bool) (s : State) : exec (.splitWrite i v) s = .next (splitWrite s i v) := rfl

/-- Settles O25: with no live tag the write is `setSplit`, whose bit reads back and whose frame is the register of the
core; with a live tag it is the record of the smith alone. -/
theorem splitWrites : Obligations.SplitWrites := by
  intro i v s
  constructor
  · intro hfree
    refine ⟨setSplit s i v, ?_, isSplit_setSplit s i v, regsSameBut_setSplit s i v, setSplit_frame s i v⟩
    rw [exec_splitWrite, splitWrite_of_noTags hfree]
  · intro hlive
    refine ⟨makeRecord s srcSmith 0x107 [], ?_, srcSmith, rfl⟩
    rw [exec_splitWrite, splitWrite_of_tagsLive hlive]

end Sys2Proof.Machine
end

section
/-! PROOFS. The atomics of a crucible: one word of open DRAM changes, and its line enters the slice (R252, R260). -/

namespace Sys2Proof.Machine

/-! ## Lines of DRAM -/

/-- The core-store windows begin above the last DRAM address (R244). -/
theorem isWindow_of_dram {a : Nat} (h : a < 2 ^ 40) : isWindow a = false := by
  have hbelow : ¬ windowBase ≤ a := by unfold windowBase; omega
  simp [isWindow, hbelow]

theorem clean.not_poisoned {s : State} {a n : Nat} (h : clean s a n) (hn : 0 < n) : poisoned s a = false :=
  h a le_rfl (Nat.lt_add_of_pos_right hn)

/-- An access to a line changes the slices of the hearths alone. -/
theorem touchLine_frame (s : State) (l : Nat) (w g : Bool) :
    touchLine s l w g = { s with hearths := (touchLine s l w g).hearths } := by
  unfold touchLine; split <;> rfl

@[simp] theorem readByte_touchLine (s : State) (l : Nat) (w g : Bool) (b : Nat) :
    readByte (touchLine s l w g) b = readByte s b := by rw [readByte, touchLine_mem, readByte]

@[simp] theorem readWord_touchLine (s : State) (l : Nat) (w g : Bool) (a : Nat) :
    readWord (touchLine s l w g) a = readWord s a := by rw [readWord, readBytes, touchLine_mem, readWord, readBytes]

@[simp] theorem readByte_answering (s : State) (x : Answer) (b : Nat) : readByte (answering s x) b = readByte s b := rfl

@[simp] theorem readWord_answering (s : State) (x : Answer) (a : Nat) : readWord (answering s x) a = readWord s a := rfl

/-! ## An atomic on a word of open DRAM -/

/-- Memory and slices once an atomic has written its word: the line of the word is installed, whatever its pair
allocates. -/
def atomicDone (s : State) (a op : Nat) (x cmp : Word64) : State :=
  touchLine (writeWord s a (atomicResult op (readWord s a) x cmp)) (lineBase a) true true

theorem readWord_atomicDone (s : State) (a op : Nat) (x cmp : Word64) :
    readWord (atomicDone s a op x cmp) a = atomicResult op (readWord s a) x cmp := by
  rw [atomicDone, readWord_touchLine, readWord_writeWord]

theorem memSameOutside_atomicDone (s : State) (a op : Nat) (x cmp : Word64) :
    memSameOutside s (atomicDone s a op x cmp) a 8 := fun b hb => by
  rw [atomicDone, readByte_touchLine, readByte_writeWord_outside s a b _ hb]

theorem atomicDone_frame (s : State) (a op : Nat) (x cmp : Word64) : atomicDone s a op x cmp =
    { s with mem := (atomicDone s a op x cmp).mem, hearths := (atomicDone s a op x cmp).hearths } := by
  rw [atomicDone, touchLine_frame]; rfl

/-- None of the refusals of the crucible (R244, R253, R256) meets open DRAM. -/
theorem atomicAt_of_openDram {s : State} {a : Nat} (h : openDram s a 8) (op : Nat) (x cmp : Word64) :
    atomicAt s a op x cmp = (atomicDone s a op x cmp, .ok (readWord s a)) := by
  obtain ⟨hdram, hpos, hassigned, hclean⟩ := h
  simp [atomicAt, atomicDone, isWindow_of_dram hdram, hassigned, hclean.not_poisoned hpos]

theorem crucibleAtomic_of_openDram {s : State} {a op : Nat} (hop : op ≤ 9) (halign : a % 8 = 0) (hopen : openDram s a 8)
    (hheld : channelHeld s a 8 = false) (x cmp : Word64) :
    crucibleAtomic s op a x cmp = answering (atomicDone s a op x cmp) (.data [readWord s a]) := by
  simp [crucibleAtomic, hop.not_gt, halign, hheld, atomicAt_of_openDram hopen, crucAnswer]

theorem exec_crucibleAtomic (ag : Agent) (op : BitVec 4) (addr : BitVec 48) (x cmp : Word64) (s : State) :
    exec (.crucibleAtomic ag op addr x cmp) s = .next (crucibleAtomic s op.toNat addr.toNat x cmp) := rfl

/-- Settles O29: on open DRAM the command is the write of `atomicResult` and the installation of its line; the operations
of Table 7-15 are then read off, one by one. -/
theorem crucibleAtomics : Obligations.CrucibleAtomics := by
  rintro ag addr s _ op x cmp - rfl hop halign hopen hheld
  refine ⟨answering (atomicDone s addr.toNat op.toNat x cmp) (.data [readWord s addr.toNat]), ?_, rfl, ?_, ?_, ?_⟩
  · rw [exec_crucibleAtomic, crucibleAtomic_of_openDram hop halign hopen hheld]
  · exact memSameOutside_atomicDone s addr.toNat op.toNat x cmp
  · rw [atomicDone_frame]; rfl
  · rw [readWord_answering, readWord_atomicDone]
    generalize op.toNat = n at hop
    interval_cases n <;> rfl

end Sys2Proof.Machine
end

section
/-! PROOFS. Taking a message: TAKE of a smith receiver, and the start of a mailbox's task (R349). -/

namespace Sys2Proof.Machine

theorem sized_mbx {s : State} (h : sized s = true) : s.mbx.length = 32 := by
  simp only [sized, Bool.and_eq_true, decide_eq_true_eq] at h
  exact h.2

/-! ## FULL of a mailbox -/

theorem mbxAt_clearFull {s : State} {m : Nat} (h : m < s.mbx.length) :
    mbxAt (clearFull s m) m = { (mbxAt s m) with fullAt := none } := mbxAt_setMbx h _

theorem mbxAt_clearFull_ne {m n : Nat} (h : n ≠ m) (s : State) : mbxAt (clearFull s m) n = mbxAt s n :=
  mbxAt_setMbx_ne h.symm s _

theorem clearFull_frame (s : State) (m : Nat) : clearFull s m = { s with mbx := (clearFull s m).mbx } := rfl

/-! ## TAKE -/

theorem takeMessage_of_smith {s : State} {m : Nat} (h : smithReceives s m = true) :
    takeMessage s agentSmith m = clearFull s m := by simp [takeMessage, h]

theorem takeMessage_of_not_smith {s : State} {agent m : Nat} (h : agent ≠ agentSmith ∨ smithReceives s m = false) :
    takeMessage s agent m = s := by
  rcases h with h | h <;> simp [takeMessage, h]

theorem exec_take (agent : BitVec 8) (m : Fin 32) (s : State) :
    exec (.take agent m) s = .next (takeMessage s agent.toNat m) := rfl

/-! ## Dispatch (R30) -/

/-- The dispatcher of a hearth starts a task on one of its own eight cores. -/
theorem nextTask_core_lt {s : State} {h : HearthId} {x : Task} {i : Nat} (hnext : nextTask s h = some (x, i)) : i < 128 := by
  obtain ⟨y, -, hy⟩ := List.exists_of_findSome?_eq_some hnext
  obtain ⟨j, hfind, hj⟩ := Option.map_eq_some_iff.1 hy
  obtain ⟨-, rfl⟩ := Prod.mk.inj hj
  obtain ⟨c, hc, rfl⟩ := List.mem_map.1 (List.mem_of_find?_eq_some hfind)
  have hc8 := List.mem_range.1 hc
  have hh := h.isLt
  unfold coreOf
  omega

theorem taskDispatch_of_nextTask {s : State} {h i : Nat} {x : Task} (hopen : dispatchOpen s = true)
    (hnext : nextTask s h = some (x, i)) (hmagic : wfield x.record 0 63 48 = 0x0A53) :
    taskDispatch s h = giveTask (modHearth s h fun y => { y with ready := y.ready.erase x }) i x := by
  simp [taskDispatch, hopen, hnext, hmagic]

theorem exec_taskDispatch (h : HearthId) (s : State) : exec (.taskDispatch h) s = .next (taskDispatch s h) := rfl

/-- A task that has not failed has not moved to another core. -/
theorem noteMoved_of_not_failed {x : Task} (h : x.fails = 0) (i : Nat) : noteMoved i x = x := by simp [noteMoved, h]

theorem unstartedOf_of_fresh {x : Task} {m : Nat} (hslot : x.slot = none) (hfails : x.fails = 0)
    (hmbox : x.mbox = some m) : unstartedOf m x = true := by simp [unstartedOf, hslot, hfails, hmbox]

/-- A mailbox's task that has not started takes the message as it starts. -/
theorem giveTask_of_fresh_mailbox {x : Task} {m : Nat} (hslot : x.slot = none) (hfails : x.fails = 0)
    (hmbox : x.mbox = some m) (s : State) (i : Nat) :
    giveTask s i x = startFresh (clearFull (writeWords (setSplit s i (taskSplit x))
      (csBase i + recordOff (setSplit s i (taskSplit x)) i) (padWords 8 x.record)) m) i x := by
  simp [giveTask, noteMoved_of_not_failed hfails, unstartedOf_of_fresh hslot hfails hmbox, hmbox, hslot]

theorem task_startFresh {s : State} {i : Nat} (hi : i < s.cores.length) (x : Task) :
    (coreAt (startFresh s i x) i).task = some x := by rw [startFresh, coreAt_modCore hi]

/-- The start of a mailbox's task is, on the mailboxes, the clearing of FULL. -/
theorem mbxAt_giveTask_of_fresh_mailbox {x : Task} {m : Nat} (hslot : x.slot = none) (hfails : x.fails = 0)
    (hmbox : x.mbox = some m) (s : State) (i n : Nat) : mbxAt (giveTask s i x) n = mbxAt (clearFull s m) n := by
  rw [giveTask_of_fresh_mailbox hslot hfails hmbox]; rfl

theorem task_giveTask_of_fresh_mailbox {x : Task} {m : Nat} (hslot : x.slot = none) (hfails : x.fails = 0)
    (hmbox : x.mbox = some m) {s : State} {i : Nat} (hi : i < s.cores.length) :
    (coreAt (giveTask s i x) i).task = some x := by
  rw [giveTask_of_fresh_mailbox hslot hfails hmbox, task_startFresh]
  exact hi

/-- Settles O42: TAKE of the smith and the start of a fresh mailbox task both act on the mailboxes as `clearFull`, which
changes FULL of its mailbox alone; every other TAKE leaves the state. -/
theorem takingClearsFull : Obligations.TakingClearsFull := by
  intro s m hs
  have hm : m.val < s.mbx.length := by rw [sized_mbx hs]; exact m.isLt
  refine ⟨?_, ?_, ?_⟩
  · rintro agent rfl hsmith
    refine ⟨clearFull s m, ?_, mbxAt_clearFull hm, clearFull_frame s m, fun n hn => ?_⟩
    · exact (exec_take 1 m s).trans (congrArg Host.Outcome.next (takeMessage_of_smith hsmith))
    · exact mbxAt_clearFull_ne (Fin.val_ne_of_ne hn) s
  · intro agent hnot
    refine ⟨s, ?_, rfl⟩
    have hagent : agent.toNat ≠ agentSmith ∨ smithReceives s m = false :=
      hnot.imp_left fun hne heq => hne (BitVec.eq_of_toNat_eq heq)
    rw [exec_take, takeMessage_of_not_smith hagent]
  · intro h x i hopen hnext hmagic hslot hfails hmbox
    have hi : i < s.cores.length := by rw [sized_cores hs]; exact nextTask_core_lt hnext
    refine ⟨giveTask (modHearth s h fun y => { y with ready := y.ready.erase x }) i x, ?_, ?_, ?_, fun n hn => ?_⟩
    · rw [exec_taskDispatch, taskDispatch_of_nextTask hopen hnext hmagic]
    · rw [noteMoved_of_not_failed hfails]
      exact task_giveTask_of_fresh_mailbox hslot hfails hmbox hi
    · rw [mbxAt_giveTask_of_fresh_mailbox hslot hfails hmbox]
      exact mbxAt_clearFull hm
    · rw [mbxAt_giveTask_of_fresh_mailbox hslot hfails hmbox]
      exact mbxAt_clearFull_ne (Fin.val_ne_of_ne hn) s

end Sys2Proof.Machine
end

section
/-! PROOFS. The quench that makes the device leave its job (R401): what the timer of LEAVE does when it is due, and the
states in which it does nothing. -/

namespace Sys2Proof.Machine

theorem exec_quenchLeaveTimer (s : State) : exec .quenchLeaveTimer s = .next (quenchLeave s) := rfl

/-- After LEAVE seconds of a quench the timer notes that it has acted and does what a write of LEAVE does. -/
theorem quenchLeave_of_due {s : State} {q : Nat} (hq : s.therm.quench = some q)
    (hn : getF s THM_QCTL THM_QCTL_LEAVE ≠ 0) (hleft : s.therm.left = false)
    (hdue : getF s THM_QCTL THM_QCTL_LEAVE * 1000000000 ≤ s.now - q) :
    quenchLeave s = leave { s with therm := { s.therm with left := true } } := by
  simp [quenchLeave, hq, hn, hleft, hdue, modTherm]

/-- The timer acts once in a quench. -/
theorem quenchLeave_of_left {s : State} (hleft : s.therm.left = true) : quenchLeave s = s := by
  cases hq : s.therm.quench <;> simp [quenchLeave, hq, hleft]

/-- With LEAVE at 0, or before LEAVE seconds have passed, the timer does nothing. -/
theorem quenchLeave_of_not_due {s : State} {q : Nat} (hq : s.therm.quench = some q)
    (h : getF s THM_QCTL THM_QCTL_LEAVE = 0 ∨ s.now - q < getF s THM_QCTL THM_QCTL_LEAVE * 1000000000) :
    quenchLeave s = s := by
  rcases h with h | h <;> simp [quenchLeave, hq, h]

@[simp] theorem leave_therm (s : State) : (leave s).therm = s.therm := rfl

/-- Leaving neither begins nor ends a quench. -/
@[simp] theorem quenched_leave (s : State) : quenched (leave s) = quenched s := rfl

@[simp] theorem leave_surv_leave (s : State) : (leave s).surv.leave = true := rfl

/-- Settles O49: the timer that is due acts as `leave` and sets the flag that holds it from acting again in this quench
(R401, R379; log entry 139); every other case of the timer leaves the state as it was. -/
theorem quenchLeaves : Obligations.QuenchLeaves := by
  intro s q hq
  refine ⟨fun hn hleft hdue => ?_, fun hnot => ⟨s, ?_, rfl⟩⟩
  · refine ⟨leave { s with therm := { s.therm with left := true } }, ?_, rfl, leave_surv_leave _, ?_, ?_⟩
    · rw [exec_quenchLeaveTimer, quenchLeave_of_due hq hn hleft hdue]
    · simp [quenched, hq]
    · refine ⟨_, ?_, rfl⟩
      rw [exec_quenchLeaveTimer, quenchLeave_of_left]
      rw [leave_therm]
  · rw [exec_quenchLeaveTimer, quenchLeave_of_not_due hq hnot]

end Sys2Proof.Machine
end

section
/-! PROOFS. What every step keeps, as a relation between two states: a memory in canonical form stays so, and so does the
shape of the state. It is reflexive and composes, so each operation of the model keeps it as its parts do. -/

namespace Sys2Proof.Machine

/-- From `s` to `t` the canonical form of memory and the shape of the state are kept. -/
structure Kept (s t : State) : Prop where
  wf : Memory.wf s.mem = true → Memory.wf t.mem = true
  shaped : sized s = true → sized t = true

/-- The part of a state that `Kept` looks at. -/
def shape (s : State) : Memory × List Core × Nat × Nat × Nat × Nat :=
  (s.mem, s.cores, s.hearths.length, s.domains.length, s.ports.length, s.mbx.length)

variable {s₀ s t : State}

theorem Kept.refl (s : State) : Kept s s := ⟨id, id⟩

theorem Kept.of_shape (h : Kept s₀ s) (ht : shape t = shape s) : Kept s₀ t := by
  simp only [shape, Prod.mk.injEq] at ht
  obtain ⟨hmem, hcores, hhearths, hdomains, hports, hmbx⟩ := ht
  refine ⟨fun h0 => by rw [hmem]; exact h.wf h0, fun h0 => ?_⟩
  have hs := h.shaped h0
  simp only [sized] at hs ⊢
  rw [hcores, hhearths, hdomains, hports, hmbx]
  exact hs

/-- A change of the fields that `Kept` does not look at is kept. -/
theorem Kept.upd {time regs memctl answer weld slacks recorder ylp conns egress coll intake job surv power therm boot pins
    queuedTests free pending} (h : Kept s₀ s) :
    Kept s₀ ⟨time, regs, s.mem, s.cores, s.hearths, memctl, answer, s.domains, weld, slacks, recorder, ylp, conns, s.ports,
      egress, coll, intake, s.mbx, job, surv, power, therm, boot, pins, queuedTests, free, pending⟩ := h.of_shape rfl

/-- So is one that changes every hearth besides. -/
theorem Kept.updHearths {time regs memctl answer weld slacks recorder ylp conns egress coll intake job surv power therm boot
    pins queuedTests free pending} {f : Hearth → Hearth} (h : Kept s₀ s) :
    Kept s₀ ⟨time, regs, s.mem, s.cores, s.hearths.map f, memctl, answer, s.domains, weld, slacks, recorder, ylp, conns,
      s.ports, egress, coll, intake, s.mbx, job, surv, power, therm, boot, pins, queuedTests, free, pending⟩ :=
  h.of_shape (by simp [shape])

theorem Kept.ite {c : Prop} {_ : Decidable c} (ht : Kept s₀ s) (he : Kept s₀ t) : Kept s₀ (if c then s else t) := by
  split <;> assumption

theorem Kept.ite1 {α : Type} {c : Prop} {_ : Decidable c} {p q : State × α} (hp : Kept s₀ p.1) (hq : Kept s₀ q.1) :
    Kept s₀ (if c then p else q).1 := by split <;> assumption

theorem Kept.foldl {α : Type} {f : State → α → State} (h : Kept s₀ s) (l : List α)
    (hf : ∀ t x, Kept s₀ t → Kept s₀ (f t x)) : Kept s₀ (l.foldl f s) := by
  induction l generalizing s with
  | nil => exact h
  | cons x l ih => exact ih (hf s x h)

theorem Kept.foldl1 {α β : Type} {f : State × β → α → State × β} {p : State × β} (h : Kept s₀ p.1) (l : List α)
    (hf : ∀ t x, Kept s₀ t.1 → Kept s₀ (f t x).1) : Kept s₀ (l.foldl f p).1 := by
  induction l generalizing p with
  | nil => exact h
  | cons x l ih => exact ih (hf p x h)

/-! ## Cores keep the sizes of their register files -/

theorem coreSized_iff {c : Core} :
    coreSized c = true ↔ c.g.length = 32 ∧ c.sc.length = 16 ∧ c.v.length = 64 ∧ c.anvils.length = 4 := by
  simp [coreSized, and_assoc]

@[simp] theorem coreSized_reset : coreSized .reset = true := rfl

@[simp] theorem coreSized_setCtx (c : Core) (k : CtxId) (x : Ctx) : coreSized (c.setCtx k x) = coreSized c := by
  unfold Core.setCtx; split <;> rfl

@[simp] theorem coreSized_setQueue (c : Core) (q : Queue) (l : List QEntry) : coreSized (c.setQueue q l) = coreSized c := by
  cases q <;> rfl

@[simp] theorem coreSized_setAnvil (c : Core) (a : Nat) (x : Anvil) : coreSized (c.setAnvil a x) = coreSized c := by
  rw [Bool.eq_iff_iff]
  simp [coreSized_iff, Core.setAnvil]

@[simp] theorem coreSized_dropHeld (c : Core) (k : CtxId) : coreSized (dropHeld c k) = coreSized c := rfl

@[simp] theorem coreSized_discardEntries (c : Core) (k : CtxId) : coreSized (discardEntries c k) = coreSized c := rfl

@[simp] theorem coreSized_clearPartition (c : Core) (l : List Nat) (b : Bool) :
    coreSized (clearPartition c l b) = coreSized c := by
  unfold clearPartition
  induction l generalizing c with
  | nil => rfl
  | cons a l ih => rw [List.foldl_cons, ih, coreSized_setAnvil]

@[simp] theorem coreSized_abortOther (c : Core) (k : CtxId) : coreSized (abortOther c k) = coreSized c := by
  have hsame (d : Core) (e : BitVec 2) (p q : Option PassRun) :
    coreSized { d with endedParts := e, pass0 := p, pass1 := q } = coreSized d := rfl
  unfold abortOther
  split
  · simp only [hsame, coreSized_setCtx, coreSized_clearPartition, coreSized_discardEntries, coreSized_dropHeld]
  · split
    · exact coreSized_setCtx ..
    · rfl

@[simp] theorem coreSized_abortCore (split : Bool) (c : Core) (k : CtxId) (code : Nat) (residue : Bool) :
    coreSized (abortCore split c k code residue) = coreSized c := by
  have hend (d : Core) (e : Option TaskEnd) (p : BitVec 2) (r : Option Nat) :
    coreSized { d with ended := e, endedParts := p, preq := r } = coreSized d := rfl
  have hpass (d : Core) (p q : Option PassRun) : coreSized { d with pass0 := p, pass1 := q } = coreSized d := rfl
  unfold abortCore
  simp only [hend, apply_ite coreSized, hpass, coreSized_abortOther, coreSized_setCtx,
    coreSized_clearPartition, coreSized_discardEntries, coreSized_dropHeld, ite_self]

theorem sized_iff {s : State} : sized s = true ↔ s.cores.length = 128 ∧ (∀ c ∈ s.cores, coreSized c = true) ∧
    s.hearths.length = 16 ∧ s.domains.length = 16 ∧ s.ports.length = 8 ∧ s.mbx.length = 32 := by
  simp [sized, and_assoc]

/-- A core that is changed and stays sized. -/
theorem Kept.setCore (h : Kept s₀ s) (i : Nat) {c : Core} (hc : (∀ d ∈ s.cores, coreSized d = true) → coreSized c = true) :
    Kept s₀ (setCore s i c) := by
  refine ⟨h.wf, fun h0 => ?_⟩
  obtain ⟨hcores, hall, hrest⟩ := sized_iff.1 (h.shaped h0)
  refine sized_iff.2 ⟨?_, fun d hd => ?_, hrest⟩
  · simpa [Machine.setCore] using hcores
  · rcases List.mem_or_eq_of_mem_set hd with hd | rfl
    · exact hall d hd
    · exact hc hall

theorem coreSized_coreAt {s : State} (hall : ∀ c ∈ s.cores, coreSized c = true) (i : Nat) : coreSized (coreAt s i) = true := by
  unfold coreAt
  by_cases hi : i < s.cores.length
  · simpa [List.getD_eq_getElem?_getD, hi] using hall _ (List.getElem_mem hi)
  · simp [List.getD_eq_getElem?_getD, List.getElem?_eq_none (Nat.le_of_not_lt hi)]

theorem Kept.modCore (h : Kept s₀ s) (i : Nat) {f : Core → Core}
    (hf : ∀ c, coreSized c = true → coreSized (f c) = true) : Kept s₀ (modCore s i f) :=
  h.setCore i fun hall => hf _ (coreSized_coreAt hall i)

/-- A change of the parts of a core that `coreSized` does not look at. -/
theorem Kept.modCoreRest (h : Kept s₀ s) (i : Nat) {f : Core → Core}
    (hf : ∀ c, coreSized (f c) = coreSized c := by intro c; rfl) : Kept s₀ (Machine.modCore s i f) :=
  h.modCore i fun c hc => (hf c).trans hc

/-- Every core is changed, and stays sized. -/
theorem Kept.mapCores (h : Kept s₀ s) {f : Core → Core} (hf : ∀ c, coreSized c = true → coreSized (f c) = true) :
    Kept s₀ { s with cores := s.cores.map f } := by
  refine ⟨h.wf, fun h0 => ?_⟩
  obtain ⟨hcores, hall, hrest⟩ := sized_iff.1 (h.shaped h0)
  refine sized_iff.2 ⟨(List.length_map f).trans hcores, fun d hd => ?_, hrest⟩
  obtain ⟨c, hc, rfl⟩ := List.mem_map.1 hd
  exact hf c (hall c hc)

/-- A core that a task starts on. -/
theorem coreSized_fresh {c : Core} (hc : coreSized c = true) {g : List Word64} (hg : g.length = 32) (d : Core)
    (hd : d.g = g ∧ d.sc = List.replicate 16 0 ∧ d.v = List.replicate 64 .clear ∧ d.anvils = c.anvils) :
    coreSized d = true := by
  obtain ⟨rfl, hsc, hv, ha⟩ := hd
  obtain ⟨-, -, -, hanvils⟩ := coreSized_iff.1 hc
  exact coreSized_iff.2 ⟨hg, by simp [hsc], by simp [hv], by rw [ha, hanvils]⟩

@[simp] theorem startG_length (s : State) (i off : Nat) (split : Bool) : (startG s i off split).length = 32 := by
  unfold startG; split <;> simp

end Sys2Proof.Machine
end

section
/-! PROOFS. The operations of Machine/Ops keep the canonical form of memory and the shape of the state. -/

namespace Sys2Proof.Machine

variable {s₀ s t : State}

theorem Kept.setR (h : Kept s₀ s) (a : Nat) (v : Word32) : Kept s₀ (setR s a v) := h.upd

theorem Kept.putF (h : Kept s₀ s) (a : Nat) (f : Fld) (x : Nat) : Kept s₀ (putF s a f x) := h.setR ..

theorem Kept.satF (h : Kept s₀ s) (a : Nat) (f : Fld) (n : Nat) : Kept s₀ (satF s a f n) := h.putF ..

theorem Kept.setPair (h : Kept s₀ s) (lo : Nat) (hi : Nat) (v : Nat) : Kept s₀ (setPair s lo hi v) := (h.setR
  ..).setR ..

theorem Kept.drawFree (h : Kept s₀ s) : Kept s₀ (drawFree s).2 := h.upd

theorem Kept.makeRecord (h : Kept s₀ s) (src : Nat) (typ : Nat) (body : List Word64) :
    Kept s₀ (makeRecord s src typ body) := by
  unfold Machine.makeRecord
  split
  · exact h
  · split
    · exact h.upd
    · exact h.upd

theorem Kept.requestService (h : Kept s₀ s) : Kept s₀ (requestService s) := (h.putF ..).upd

theorem Kept.emit (h : Kept s₀ s) (o : Out) : Kept s₀ (emit s o) := h.upd

theorem Kept.setDomState (h : Kept s₀ s) (u : Nat) (st : Nat) : Kept s₀ (setDomState s u st) := h.setR ..

theorem Kept.setHearth (h : Kept s₀ s) (hr : Nat) (x : Hearth) : Kept s₀ (setHearth s hr x) :=
  h.of_shape (by simp [shape, Machine.setHearth])

theorem Kept.modHearth (h : Kept s₀ s) (hr : Nat) (f : Hearth → Hearth) : Kept s₀ (modHearth s hr f) := h.setHearth ..

theorem Kept.setDomain (h : Kept s₀ s) (u : Nat) (d : Domain) : Kept s₀ (setDomain s u d) :=
  h.of_shape (by simp [shape, Machine.setDomain])

theorem Kept.writeBytes (h : Kept s₀ s) (a : Nat) (bs : List Byte) : Kept s₀ (writeBytes s a bs) :=
  ⟨fun h0 => writeBytes_wf (h.wf h0) a bs, h.shaped⟩

theorem Kept.writeWord (h : Kept s₀ s) (a : Nat) (v : Word64) : Kept s₀ (writeWord s a v) := h.writeBytes ..

theorem Kept.writeWords (h : Kept s₀ s) (a : Nat) (ws : List Word64) : Kept s₀ (writeWords s a ws) := h.writeBytes ..

theorem Kept.zeroBytes (h : Kept s₀ s) (a n : Nat) : Kept s₀ (zeroBytes s a n) :=
  ⟨fun h0 => zeroBytes_wf (h.wf h0) a n, h.shaped⟩

theorem Kept.setRegion (h : Kept s₀ s) (r : Region) : Kept s₀ (setRegion s r) := h.upd

theorem Kept.clearPoison (h : Kept s₀ s) (a : Nat) : Kept s₀ (clearPoison s a) := h.upd

theorem Kept.touchLine (h : Kept s₀ s) (line : Nat) (write : Bool) (force : Bool) :
    Kept s₀ (touchLine s line write force) := by
  unfold Machine.touchLine
  split
  · exact (h.modHearth ..)
  · exact h

theorem Kept.writeChunk {p : State × Acc} (h : Kept s₀ p.1) (c : Nat × List Byte) : Kept s₀ (writeChunk p c).1 := by
  unfold Machine.writeChunk
  split
  · exact h
  · exact (((h.clearPoison ..).writeBytes ..).touchLine ..)

theorem Kept.memWrite (h : Kept s₀ s) (a : Nat) (bs : List Byte) : Kept s₀ (memWrite s a bs).1 := by
  unfold Machine.memWrite
  split
  · exact h
  · split
    · exact h
    · split
      · exact (h.foldl1 _ (fun _ _ h1 => (h1.writeChunk ..)))
      · exact (h.writeBytes ..)

theorem Kept.touchRange (h : Kept s₀ s) (a : Nat) (n : Nat) : Kept s₀ (touchRange s a n) := by
  unfold Machine.touchRange
  split
  · exact (h.foldl _ (fun _ _ h1 => (h1.touchLine ..)))
  · exact h

theorem Kept.touchReads (h : Kept s₀ s) (rs : List (Nat × Nat)) : Kept s₀ (touchReads s rs) :=
  h.foldl _ (fun _ _ h1 => (h1.touchRange ..))

theorem Kept.memRead (h : Kept s₀ s) (a : Nat) (n : Nat) : Kept s₀ (memRead s a n).1 := by
  unfold Machine.memRead
  split
  · exact h
  · split
    · exact h
    · split
      · exact (h.foldl _ (fun _ _ h1 => (h1.touchLine ..)))
      · exact h

theorem Kept.poisonLine (h : Kept s₀ s) (a : Nat) : Kept s₀ (poisonLine s a) :=
  ((h.upd.satF ..).setPair ..).makeRecord ..

end Sys2Proof.Machine
end

section
/-! PROOFS. The operations of Machine/Clock keep the canonical form of memory and the shape of the state. -/

namespace Sys2Proof.Machine

variable {s₀ s t : State}

theorem Kept.idle (h : Kept s₀ s) : Kept s₀ (idle s) := h.upd

end Sys2Proof.Machine
end

section
/-! PROOFS. The operations of Machine/Flags keep the canonical form of memory and the shape of the state. -/

namespace Sys2Proof.Machine

variable {s₀ s t : State}

theorem Kept.raiseForced (h : Kept s₀ s) (i : Nat) : Kept s₀ (raiseForced s i) := h.putF ..

theorem Kept.raiseFlushed (h : Kept s₀ s) (i : Nat) : Kept s₀ (raiseFlushed s i) := h.putF ..

theorem Kept.countVoids (h : Kept s₀ s) (i : Nat) (n : Nat) (addr : Nat) : Kept s₀ (countVoids s i n addr) := by
  unfold Machine.countVoids
  split
  · exact h
  · dsimp only
    split
    · exact ((h.satF ..).makeRecord ..)
    · exact (h.satF ..)

theorem Kept.countVsat (h : Kept s₀ s) (i : Nat) (n : Nat) : Kept s₀ (countVsat s i n) := h.satF ..

theorem Kept.countQsat (h : Kept s₀ s) (i : Nat) (n : Nat) : Kept s₀ (countQsat s i n) := h.satF ..

theorem Kept.countQceil (h : Kept s₀ s) (i : Nat) (n : Nat) : Kept s₀ (countQceil s i n) := h.satF ..

theorem Kept.countQzero (h : Kept s₀ s) (i : Nat) (n : Nat) : Kept s₀ (countQzero s i n) := h.satF ..

theorem Kept.countFosat (h : Kept s₀ s) (i : Nat) (n : Nat) : Kept s₀ (countFosat s i n) := h.satF ..

theorem Kept.countUpdClamp (h : Kept s₀ s) (i : Nat) (n : Nat) : Kept s₀ (countUpdClamp s i n) := h.satF ..

theorem Kept.countTileSat (h : Kept s₀ s) (i : Nat) (n : Nat) : Kept s₀ (countTileSat s i n) := h.satF ..

theorem Kept.countCrucibleVoids (h : Kept s₀ s) (hr : Nat) (n : Nat) (addr : Nat) :
    Kept s₀ (countCrucibleVoids s hr n addr) := by
  unfold Machine.countCrucibleVoids
  split
  · exact h
  · dsimp only
    split
    · exact ((h.satF ..).makeRecord ..)
    · exact (h.satF ..)

end Sys2Proof.Machine
end

section
/-! PROOFS. The operations of Machine/Crucible keep the canonical form of memory and the shape of the state. -/

namespace Sys2Proof.Machine

variable {s₀ s t : State}

theorem Kept.atomicAt (h : Kept s₀ s) (a : Nat) (op : Nat) (x : Word64) (cmp : Word64) :
    Kept s₀ (atomicAt s a op x cmp).1 := by
  unfold Machine.atomicAt
  split
  · exact h
  · split
    · exact h
    · split
      · exact (h.satF ..)
      · exact ((h.writeWord ..).touchLine ..)

theorem Kept.reduceLine (h : Kept s₀ s) (a : Nat) (op : Nat) (ws : List Word64) : Kept s₀ (reduceLine s a op ws).1 :=
  by
  unfold Machine.reduceLine
  split
  · exact h
  · split
    · exact h
    · split
      · exact h
      · split
        · exact (h.satF ..)
        · exact (((h.writeWords ..).countCrucibleVoids ..).touchLine ..)

theorem Kept.reduceLines (op : Nat) (cs : List (Nat × List Word64)) {p : State × CrucAcc} (h : Kept s₀ p.1) :
    Kept s₀ (reduceLines op cs p).1 := by
  induction cs generalizing p with
  | nil => exact h
  | cons c cs ih => exact ih (h.reduceLine ..)

theorem Kept.reduceAt (h : Kept s₀ s) (a : Nat) (op : Nat) (ws : List Word64) : Kept s₀ (reduceAt s a op ws).1 :=
  h.reduceLines ..

end Sys2Proof.Machine
end

section
/-! PROOFS. The operations of Machine/Faults keep the canonical form of memory and the shape of the state. -/

namespace Sys2Proof.Machine

variable {s₀ s t : State}

theorem Kept.faultAbort (h : Kept s₀ s) (i : Nat) (k : CtxId) (queue : Nat) (code : Nat) (pc : Nat) (precise : Bool)
  (residue : Bool) :
    Kept s₀ (faultAbort s i k queue code pc precise residue) := by
  unfold Machine.faultAbort
  split
  · exact h
  · exact ((((((((h.modCore _ fun c hc => by simpa using hc).putF ..).putF ..).putF ..).putF ..).putF ..).satF
      ..).makeRecord ..)

theorem Kept.setEntry (h : Kept s₀ s) (i : Nat) (q : Queue) (qid : Nat) (f : QEntry → QEntry) :
    Kept s₀ (setEntry s i q qid f) := h.modCore _ fun c hc => by simpa using hc

theorem Kept.entryFault (h : Kept s₀ s) (i : Nat) (q : Queue) (e : QEntry) (code : Nat) (residue : Bool) :
    Kept s₀ (entryFault s i q e code residue) := by
  unfold Machine.entryFault
  split
  · exact (h.setEntry ..)
  · exact (h.faultAbort ..)

theorem Kept.raiseFailed (h : Kept s₀ s) (i : Nat) : Kept s₀ (raiseFailed s i) :=
  h.foldl _ (fun _ _ h1 => (by split; exacts [(h1.faultAbort ..), h1]))

theorem Kept.setTileFault (h : Kept s₀ s) (i : Nat) (part : Nat) (col : Nat) (row : Nat) (anvil : Nat) (cause : Nat) :
    Kept s₀ (setTileFault s i part col row anvil cause) := ((((h.putF ..).putF ..).putF ..).putF ..).putF ..

theorem Kept.countCsUe (h : Kept s₀ s) (i : Nat) : Kept s₀ (countCsUe s i) := h.satF ..

theorem Kept.coreStoreFault (h : Kept s₀ s) (i : Nat) (q : Queue) (e : QEntry) (part : Nat) (anvil : Nat) :
    Kept s₀ (coreStoreFault s i q e part anvil) := ((h.countCsUe ..).setTileFault ..).entryFault ..

end Sys2Proof.Machine
end

section
/-! PROOFS. The operations of Machine/Tx keep the canonical form of memory and the shape of the state. -/

namespace Sys2Proof.Machine

variable {s₀ s t : State}

theorem Kept.setPort (h : Kept s₀ s) (p : Nat) (x : PortSt) : Kept s₀ (setPort s p x) :=
  h.of_shape (by simp [shape, Machine.setPort])

theorem Kept.portEmit (h : Kept s₀ s) (p : Nat) (q : Nat) (o : Out) : Kept s₀ (portEmit s p q o) := by
  unfold Machine.portEmit
  split
  · exact (h.setPort ..)
  · exact (h.emit ..)

theorem Kept.setDst (h : Kept s₀ s) (d : TxDst) : Kept s₀ (setDst s d) := h.upd

theorem Kept.setRx (h : Kept s₀ s) (r : RxSrc) : Kept s₀ (setRx s r) := h.upd

theorem Kept.sendFrame (h : Kept s₀ s) (port : Nat) (f : YlpFrame) : Kept s₀ (sendFrame s port f) := by
  unfold Machine.sendFrame
  split
  · split
    · exact h.upd.portEmit ..
    · exact h
  · exact h

theorem Kept.sendOn (h : Kept s₀ s) (d : TxDst) (f : YlpFrame) : Kept s₀ (sendOn s d f) := by
  unfold Machine.sendOn
  split
  · exact (h.sendFrame ..)
  · exact h

theorem Kept.noteHigh (h : Kept s₀ s) (o : Owner) (node : Nat) (seq : Nat) : Kept s₀ (noteHigh s o node seq) := by
  unfold Machine.noteHigh
  split
  · exact (h.modCore _ fun c hc => by simpa using hc)
  · exact h

theorem Kept.sendNumbered (h : Kept s₀ s) (d : TxDst) (f : YlpFrame) (o : Owner) (dst : Nat) (skip : Nat) (len : Nat)
  :
    Kept s₀ (sendNumbered s d f o dst skip len) := ((h.setDst ..).sendOn ..).noteHigh ..

theorem Kept.drainWaiting (n : Nat) (h : Kept s₀ s) (node : Nat) : Kept s₀ (drainWaiting n s node) := by
  induction n generalizing s with
  | zero => exact h
  | succ n ih =>
    unfold Machine.drainWaiting
    dsimp only
    split
    · exact h
    · split
      · exact ih (h.sendNumbered ..)
      · exact h

theorem Kept.sendReply (h : Kept s₀ s) (port : Nat) (f : YlpFrame) : Kept s₀ (sendReply s port f) := by
  unfold Machine.sendReply
  dsimp only
  split
  · split
    · exact ((h.sendFrame ..).setRx ..)
    · exact (h.sendFrame ..)
  · exact (h.sendFrame ..)

theorem Kept.entryPart (h : Kept s₀ s) (i : Nat) (q : Queue) (qid : Nat) : Kept s₀ (entryPart s i q qid) :=
  h.modCore _ fun c hc => by simpa using hc

theorem Kept.modJournal (h : Kept s₀ s) (jseq : Nat) (f : JEntry → JEntry) : Kept s₀ (modJournal s jseq f) := h.upd

theorem Kept.ownerDone (h : Kept s₀ s) (o : Owner) (fault : Option Nat) : Kept s₀ (ownerDone s o fault) := by
  unfold Machine.ownerDone
  split
  · exact (h.entryPart ..)
  · split
    · exact (h.entryFault ..)
    · exact h
  · exact (h.modJournal ..)
  · exact (h.modJournal ..)
  · exact h.upd
  · exact h.upd
  · exact h.upd
  · exact h.upd
  · exact h.upd
  · exact h.upd
  · exact h.upd
  · exact h

theorem Kept.unreachable (h : Kept s₀ s) (node : Nat) : Kept s₀ (unreachable s node) :=
  ((h.setDst ..).satF ..).foldl _ (fun _ _ h1 => (h1.ownerDone ..))

theorem Kept.refuseNoPath (h : Kept s₀ s) (d : TxDst) (f : YlpFrame) (o : Owner) :
    Kept s₀ (refuseNoPath s d f o) := by
  unfold Machine.refuseNoPath
  split
  · exact (h.ownerDone ..)
  · exact ((h.setDst ..).unreachable ..)

theorem Kept.sendRequest (h : Kept s₀ s) (node : Nat) (f : YlpFrame) (o : Owner) (dst : Nat) (skip : Nat) (len : Nat)
  :
    Kept s₀ (sendRequest s node f o dst skip len) := by
  unfold Machine.sendRequest
  dsimp only
  split
  · exact (h.refuseNoPath ..)
  · split
    · exact (h.sendNumbered ..)
    · exact (h.setDst ..)

theorem Kept.takeAck (h : Kept s₀ s) (node : Nat) (ack : Nat) : Kept s₀ (takeAck s node ack) := by
  unfold Machine.takeAck
  split
  · exact h
  · exact (((h.setDst ..).foldl _ (fun _ _ h1 => (h1.ownerDone ..))).drainWaiting ..)

theorem Kept.markReplied (h : Kept s₀ s) (node : Nat) (seq : Nat) : Kept s₀ (markReplied s node seq) := by
  unfold Machine.markReplied
  dsimp only
  split
  · exact h
  · exact (h.setDst ..)

theorem Kept.dropRequest (h : Kept s₀ s) (node : Nat) (seq : Nat) : Kept s₀ (dropRequest s node seq) := by
  unfold Machine.dropRequest
  split
  · exact h
  · exact (h.setDst ..)

theorem Kept.resendAll (h : Kept s₀ s) (node : Nat) (lowest : Option Nat) : Kept s₀ (resendAll s node lowest) :=
  (h.setDst ..).foldl _ (fun _ _ h1 => ((h1.sendOn ..).satF ..))

theorem Kept.movePath (h : Kept s₀ s) (node : Nat) : Kept s₀ (movePath s node) := by
  unfold Machine.movePath
  dsimp only
  split
  · exact (((h.satF ..).setDst ..).resendAll ..)
  · exact (((h.satF ..).setDst ..).unreachable ..)

theorem Kept.sendWrites (h : Kept s₀ s) (node : Nat) (a : Nat) (bs : List Byte) (o : Owner) :
    Kept s₀ (sendWrites s node a bs o) := h.foldl _ (fun _ _ h1 => (h1.sendRequest ..))

theorem Kept.sendReads (h : Kept s₀ s) (node : Nat) (a : Nat) (n : Nat) (o : Owner) (dst : Nat) :
    Kept s₀ (sendReads s node a n o dst) := h.foldl _ (fun _ _ h1 => (h1.sendRequest ..))

theorem Kept.noteData (h : Kept s₀ s) (i : Nat) (q : Queue) (qid : Nat) (dst : Nat) (bs : List Byte) :
    Kept s₀ (noteData s i q qid dst bs) := h.modCore _ fun c hc => by simpa using hc

theorem Kept.setConn (h : Kept s₀ s) (c : Conn) : Kept s₀ (setConn s c) := h.upd

theorem Kept.rocePacketOut (h : Kept s₀ s) (c : Conn) (psn : Nat) (b : RoceBody) :
    Kept s₀ (rocePacketOut s c psn b) := by
  unfold Machine.rocePacketOut
  split
  · exact (h.portEmit ..)
  · exact h

theorem Kept.roceEmit (h : Kept s₀ s) (c : Conn) (o : RoceOp) : Kept s₀ (roceEmit s c o) :=
  h.foldl _ (fun _ _ h1 => (h1.rocePacketOut ..))

theorem Kept.roceIssue (h : Kept s₀ s) (c : Conn) (o : RoceOp) : Kept s₀ (roceIssue s c o) := by
  unfold Machine.roceIssue
  dsimp only
  split
  · exact (h.setConn ..)
  · exact ((h.setConn ..).roceEmit ..)

theorem Kept.roceSendOn (h : Kept s₀ s) (idx : Nat) (o : RoceOp) : Kept s₀ (roceSendOn s idx o).1 := by
  unfold Machine.roceSendOn
  split
  · split
    · exact h
    · exact (h.roceIssue ..)
  · exact h

theorem Kept.loseMember (h : Kept s₀ s) (node : Nat) : Kept s₀ (loseMember s node) := by
  unfold Machine.loseMember
  split
  · exact h
  · exact h.upd

theorem Kept.connectionError (h : Kept s₀ s) (c : Conn) : Kept s₀ (connectionError s c) :=
  (((h.setConn ..).makeRecord ..).foldl _ (fun _ _ h1 => (h1.loseMember ..))).foldl _ (fun _ _ h1 => (h1.ownerDone
    ..))

end Sys2Proof.Machine
end

section
/-! PROOFS. The operations of Machine/Groups keep the canonical form of memory and the shape of the state. -/

namespace Sys2Proof.Machine

variable {s₀ s t : State}

theorem Kept.setGroupEntry (h : Kept s₀ s) (g : Group) : Kept s₀ (setGroupEntry s g) := h.upd

theorem Kept.carry (h : Kept s₀ s) (g : Group) (rank : Nat) (a : Nat) (bs : List Byte) (o : Owner) :
    Kept s₀ (carry s g rank a bs o) := by
  unfold Machine.carry
  split
  · exact ((h.memWrite ..).ownerDone ..)
  · split
    · exact (h.sendWrites ..)
    · dsimp only
      split
      · exact (h.roceSendOn ..)
      · exact ((h.roceSendOn ..).loseMember ..)

end Sys2Proof.Machine
end

section
/-! PROOFS. The operations of Machine/Posting keep the canonical form of memory and the shape of the state. -/

namespace Sys2Proof.Machine

variable {s₀ s t : State}

theorem Kept.setRing (h : Kept s₀ s) (r : Ring) : Kept s₀ (setRing s r) := h.upd

theorem Kept.noteSlot (h : Kept s₀ s) (ring : Nat) (ws : List Word64) (cseq : Nat) :
    Kept s₀ (noteSlot s ring ws cseq) := by
  unfold Machine.noteSlot
  split
  · exact h.upd
  · exact h

theorem Kept.postNow (h : Kept s₀ s) (r : Ring) (ws : List Word64) : Kept s₀ (postNow s r ws).1 := by
  unfold Machine.postNow
  dsimp only
  split
  · exact ((((h.roceSendOn ..).setRing ..).writeWord ..).noteSlot ..)
  · exact h

theorem Kept.holdRecord (h : Kept s₀ s) (ring : Nat) (ws : List Word64) : Kept s₀ (holdRecord s ring ws) :=
  h.upd.putF ..

theorem Kept.postTo (h : Kept s₀ s) (ring : Nat) (ws : List Word64) : Kept s₀ (postTo s ring ws) := by
  unfold Machine.postTo
  split
  · exact h
  · split
    · exact (h.holdRecord ..)
    · split
      · exact (h.holdRecord ..)
      · dsimp only
        split
        · exact (h.postNow ..)
        · exact (h.holdRecord ..)

theorem Kept.postRecord (h : Kept s₀ s) (ws : List Word64) : Kept s₀ (postRecord s ws) := h.postTo ..

theorem Kept.releaseHeld (n : Nat) (h : Kept s₀ s) (ring : Nat) : Kept s₀ (releaseHeld n s ring) := by
  induction n generalizing s with
  | zero => exact h
  | succ n ih =>
    unfold Machine.releaseHeld
    split
    · split
      · exact h
      · dsimp only
        split
        · exact ih (.ite ((h.postNow ..).upd.putF ..) (h.postNow ..).upd)
        · exact h
    · exact h

theorem Kept.sendNotices (n : Nat) (h : Kept s₀ s) : Kept s₀ (sendNotices n s) := by
  induction n generalizing s with
  | zero => exact h
  | succ n ih =>
    unfold Machine.sendNotices
    split
    · exact h
    · split
      · exact h
      · dsimp only
        split
        · exact ih (h.roceSendOn ..).upd
        · exact h

theorem Kept.postNotice (h : Kept s₀ s) (typ : Nat) (ws : List Word64) : Kept s₀ (postNotice s typ ws) :=
  h.upd.sendNotices ..

theorem Kept.noteSurvSent (h : Kept s₀ s) (key : Nat) (seq : Nat) : Kept s₀ (noteSurvSent s key seq) := h.upd

theorem Kept.sendInbox (h : Kept s₀ s) (rank : Nat) (kind : Nat) (reason : Nat) (removed : List Nat) (added : List
  Nat) :
    Kept s₀ (sendInbox s rank kind reason removed added) := by
  unfold Machine.sendInbox
  split
  · exact h
  · exact ((h.carry ..).noteSurvSent ..)

theorem Kept.sendRelation (h : Kept s₀ s) (rank : Nat) (kind : Nat) (reason : Nat) (mgen : Nat) (removed : List Nat)
  (added : List Nat) :
    Kept s₀ (sendRelation s rank kind reason mgen removed added) := by
  unfold Machine.sendRelation
  split
  · exact h
  · dsimp only
    split
    · exact ((h.carry ..).noteSurvSent ..)
    · exact h.upd

theorem Kept.drainSurvLines (n : Nat) (h : Kept s₀ s) : Kept s₀ (drainSurvLines n s) := by
  induction n generalizing s with
  | zero => exact h
  | succ n ih =>
    unfold Machine.drainSurvLines
    split
    · dsimp only
      split
      · exact ih (h.upd.carry ..)
      · exact h
    · exact h

theorem Kept.selfFence (h : Kept s₀ s) : Kept s₀ (selfFence s) := h.putF ..

theorem Kept.serviceStanding (h : Kept s₀ s) : Kept s₀ (serviceStanding s) := (h.putF ..).requestService

theorem Kept.serviceNotice (h : Kept s₀ s) : Kept s₀ (serviceNotice s) := h.postNotice ..

theorem Kept.leaveJob (h : Kept s₀ s) : Kept s₀ (leaveJob s) := (h.sendInbox ..).selfFence

theorem Kept.wedge (h : Kept s₀ s) (cause : Nat) (unit : Nat) (row : Nat) : Kept s₀ (wedge s cause unit row) := by
  unfold Machine.wedge
  split
  · exact h
  · exact ((h.makeRecord ..).putF ..).serviceStanding.selfFence

theorem Kept.failWeld (h : Kept s₀ s) (dir : Nat) (cause : Nat) : Kept s₀ (failWeld s dir cause) :=
  ((h.makeRecord ..).upd.putF ..).wedge ..

end Sys2Proof.Machine
end

section
/-! PROOFS. The operations of Machine/Flash keep the canonical form of memory and the shape of the state. -/

namespace Sys2Proof.Machine

variable {s₀ s t : State}

theorem Kept.flashWrite (h : Kept s₀ s) (a : Nat) (bs : List Byte) : Kept s₀ (flashWrite s a bs) := h.upd

theorem Kept.flashErase (h : Kept s₀ s) (a : Nat) (n : Nat) : Kept s₀ (flashErase s a n) := h.upd

theorem Kept.writeRecord (h : Kept s₀ s) (area : Nat) (body : List Byte) : Kept s₀ (writeRecord s area body) :=
  (h.flashErase ..).flashWrite ..

theorem Kept.saveRetirement (h : Kept s₀ s) : Kept s₀ (saveRetirement s) := by
  unfold Machine.saveRetirement
  split
  · exact h.upd
  · exact (h.upd.writeRecord ..)

end Sys2Proof.Machine
end

section
/-! PROOFS. The operations of Machine/Quant keep the canonical form of memory and the shape of the state. -/

namespace Sys2Proof.Machine

variable {s₀ s t : State}

theorem Kept.countQuant (h : Kept s₀ s) (i : Nat) (q : Quant) (layer : Nat) (role : Nat) :
    Kept s₀ (countQuant s i q layer role) := by
  unfold Machine.countQuant
  dsimp only
  split
  · exact ((Kept.ite (Kept.ite ((((h.countQsat ..).countQzero ..).countQceil ..).makeRecord ..) (((h.countQsat
      ..).countQzero ..).countQceil ..)) ((h.countQsat ..).countQzero ..)).raiseFlushed ..)
  · split
    · split
      · exact ((((h.countQsat ..).countQzero ..).countQceil ..).makeRecord ..)
      · exact (((h.countQsat ..).countQzero ..).countQceil ..)
    · exact ((h.countQsat ..).countQzero ..)

theorem Kept.formPith (h : Kept s₀ s) (l : Nat) : Kept s₀ (formPith s l).1 := by
  unfold Machine.formPith
  dsimp only
  split
  · exact h
  · split
    · exact h
    · exact h.upd

theorem Kept.monPut (h : Kept s₀ s) (i : Nat) (a : Nat) (w : Nat) (hi : Nat) (lo : Nat) (x : Nat) :
    Kept s₀ (monPut s i a w hi lo x) := h.writeWord ..

theorem Kept.monAdd (h : Kept s₀ s) (i : Nat) (a : Nat) (w : Nat) (hi : Nat) (lo : Nat) (n : Nat) :
    Kept s₀ (monAdd s i a w hi lo n) := h.monPut ..

theorem Kept.placeEntries (h : Kept s₀ s) (i : Nat) (a : Nat) (layer : Nat) (role : Nat) (l : List (Nat × Bool)) :
    Kept s₀ (placeEntries s i a layer role l) := by
  unfold Machine.placeEntries
  dsimp only
  split
  · exact (((h.writeWords ..).monPut ..).makeRecord ..)
  · exact ((h.writeWords ..).monPut ..)

theorem Kept.bumpEntries (h : Kept s₀ s) (i : Nat) (a : Nat) (f : Nat → Bool → Option (Nat × Nat × Nat)) :
    Kept s₀ (bumpEntries s i a f) := by
  unfold Machine.bumpEntries
  dsimp only
  exact h.foldl _ (fun _ _ h1 => (by split; exacts [(h1.writeWord ..), h1]))

theorem Kept.addLevel (h : Kept s₀ s) (i : Nat) (a : Nat) (lv : Int) : Kept s₀ (addLevel s i a lv) :=
  ((h.monPut ..).monPut ..).monAdd ..

end Sys2Proof.Machine
end

section
/-! PROOFS. The operations of Machine/Domains keep the canonical form of memory and the shape of the state. -/

namespace Sys2Proof.Machine

variable {s₀ s t : State}

theorem Kept.modDomain (h : Kept s₀ s) (u : Nat) (f : Domain → Domain) : Kept s₀ (modDomain s u f) := h.setDomain ..

theorem Kept.addPending (h : Kept s₀ s) (u : Nat) (c : DomCmd) : Kept s₀ (addPending s u c) := h.modDomain ..

theorem Kept.holdCmd (h : Kept s₀ s) (u : Nat) (c : DomCmd) : Kept s₀ (holdCmd s u c) := by
  unfold Machine.holdCmd
  split
  · exact h
  · exact ((h.modDomain ..).makeRecord ..)

theorem Kept.beginLeaving (h : Kept s₀ s) (u : Nat) (c : DomCmd) : Kept s₀ (beginLeaving s u c) :=
  (h.setDomState ..).modDomain ..

theorem Kept.enterTest (h : Kept s₀ s) (u : Nat) (c : DomCmd) : Kept s₀ (enterTest s u c) :=
  (h.setDomState ..).modDomain ..

theorem Kept.beginOn (h : Kept s₀ s) (u : Nat) : Kept s₀ (beginOn s u) := (h.setDomState ..).modDomain ..

theorem Kept.startCmd (h : Kept s₀ s) (u : Nat) (c : DomCmd) : Kept s₀ (startCmd s u c) := by
  unfold Machine.startCmd
  split
  · split
    · exact (h.beginOn ..)
    · exact h
  · split
    · exact h
    · split
      · exact (h.holdCmd ..)
      · exact (h.beginLeaving ..)
  · split
    · exact (h.addPending ..)
    · split
      · split
        · exact (h.enterTest ..)
        · exact h
      · split
        · exact h
        · split
          · exact (h.holdCmd ..)
          · exact (h.beginLeaving ..)

theorem Kept.domCommand (h : Kept s₀ s) (u : Nat) (c : DomCmd) : Kept s₀ (domCommand s u c) := by
  unfold Machine.domCommand
  split
  · exact (h.addPending ..)
  · exact (h.startCmd ..)

theorem Kept.takeCmds (u : Nat) (cs : List DomCmd) (h : Kept s₀ s) : Kept s₀ (takeCmds u cs s) := by
  induction cs generalizing s with
  | nil => exact h
  | cons c cs ih =>
    have ht := (h.modDomain u fun d => { d with pending := d.pending.erase c }).startCmd u c
    unfold Machine.takeCmds
    split
    · exact h
    · exact .ite ht (ih ht)

theorem Kept.takePending (h : Kept s₀ s) (u : Nat) : Kept s₀ (takePending s u) := h.takeCmds ..

theorem Kept.retryDomain (h : Kept s₀ s) (u : Nat) : Kept s₀ (retryDomain s u) := by
  unfold Machine.retryDomain
  split
  · exact (h.takePending ..)
  · exact ((h.modDomain ..).takePending ..)

theorem Kept.retryHalf (h : Kept s₀ s) (half : Nat) : Kept s₀ (retryHalf s half) :=
  h.foldl _ (fun _ _ h1 => (h1.retryDomain ..))

theorem Kept.moveReady (h : Kept s₀ s) (hr : Nat) : Kept s₀ (moveReady s hr) := by
  unfold Machine.moveReady
  split
  · exact h
  · split
    · exact ((h.modHearth ..).modHearth ..)
    · exact (h.wedge ..)

theorem Kept.retireThresholds (h : Kept s₀ s) : Kept s₀ (retireThresholds s) :=
  (Kept.ite (Kept.ite h.serviceStanding.serviceNotice h).upd (Kept.ite h.serviceStanding.serviceNotice h))

theorem Kept.retireCore (h : Kept s₀ s) (i cause : Nat) : Kept s₀ (retireCore s i cause) :=
  .ite h ((((((h.setR ..).putF ..).putF ..).upd.modCoreRest i).saveRetirement.makeRecord
    ..).retireThresholds.moveReady ..)

theorem Kept.dueRetire (h : Kept s₀ s) (i : Nat) (cause : Nat) : Kept s₀ (dueRetire s i cause) := h.modCoreRest ..

theorem Kept.domainLeft (h : Kept s₀ s) (u : Nat) : Kept s₀ (domainLeft s u) := by
  unfold Machine.domainLeft
  split
  · exact h
  · split
    · exact (((h.setDomState ..).modDomain ..).takePending ..)
    · exact (h.enterTest ..)
    · exact h

theorem Kept.loadImage (h : Kept s₀ s) (i : Nat) : Kept s₀ (loadImage s i) := by
  unfold Machine.loadImage
  split
  · exact h
  · exact ((h.memRead ..).writeBytes ..)

theorem Kept.clearDone (h : Kept s₀ s) (u : Nat) : Kept s₀ (clearDone s u) := by
  unfold Machine.clearDone
  split
  · exact h
  · exact ((((h.foldl _ (fun _ _ h1 => (h1.zeroBytes ..))).foldl _ (fun _ _ h1 => (h1.loadImage ..))).modDomain
      ..).retryHalf ..)

theorem Kept.selfTestFail (h : Kept s₀ s) (u : Nat) (f : HearthId × Fin 4) : Kept s₀ (selfTestFail u s f) :=
  ((h.satF ..).makeRecord ..).retireCore ..

theorem Kept.selfTestComplete (h : Kept s₀ s) (u : Nat) (failed : List (HearthId × Fin 4)) :
    Kept s₀ (selfTestComplete s u failed) := by
  unfold Machine.selfTestComplete
  dsimp only
  split
  · exact h
  · exact (((h.foldl _ (fun _ _ h1 => (h1.selfTestFail ..))).putF ..).beginOn ..)

theorem Kept.coreRetireNow (h : Kept s₀ s) (i : Nat) : Kept s₀ (coreRetireNow s i) := by
  unfold Machine.coreRetireNow
  split
  · split
    · exact h
    · exact (h.retireCore ..)
  · exact h

end Sys2Proof.Machine
end

section
/-! PROOFS. The operations of Machine/Operands keep the canonical form of memory and the shape of the state. -/

namespace Sys2Proof.Machine

variable {s₀ s t : State}

theorem Kept.writeG (h : Kept s₀ s) (i : Nat) (k : CtxId) (n : Nat) (v : Word64) : Kept s₀ (writeG s i k n v) := by
  unfold Machine.writeG
  split
  · exact h
  · exact (h.modCore _ fun c hc => by simpa [coreSized] using hc)

theorem Kept.writeP (h : Kept s₀ s) (i : Nat) (k : CtxId) (n : Nat) (v : Bool) : Kept s₀ (writeP s i k n v) :=
  h.modCoreRest ..

theorem Kept.writeSc (h : Kept s₀ s) (i : Nat) (n : Nat) (v : Nat) : Kept s₀ (writeSc s i n v) :=
  h.modCore _ fun c hc => by simpa [coreSized] using hc

theorem Kept.addCounter (h : Kept s₀ s) (i : Nat) (k : CtxId) (n : Nat) (add : Nat) (queue : Nat) (pc : Nat) (precise
  : Bool) :
    Kept s₀ (addCounter s i k n add queue pc precise) := by
  unfold Machine.addCounter
  split
  · exact (h.faultAbort ..)
  · exact (h.writeSc ..)

theorem Kept.signalDone (h : Kept s₀ s) (i : Nat) (k : CtxId) (sigen : Bool) (sigc : Nat) (queue : Nat) (pc : Nat) :
    Kept s₀ (signalDone s i k sigen sigc queue pc) := by
  unfold Machine.signalDone
  split
  · exact (h.addCounter ..)
  · exact h

theorem Kept.setCtxAt (h : Kept s₀ s) (i : Nat) (k : CtxId) (x : Ctx) : Kept s₀ (setCtxAt s i k x) :=
  h.modCore _ fun c hc => by simpa using hc

theorem Kept.advance (h : Kept s₀ s) (i : Nat) (k : CtxId) : Kept s₀ (advance s i k) := h.setCtxAt ..

theorem Kept.branchTo (h : Kept s₀ s) (i : Nat) (k : CtxId) (target : Nat) : Kept s₀ (branchTo s i k target) :=
  h.setCtxAt ..

theorem Kept.issueFault (h : Kept s₀ s) (i : Nat) (k : CtxId) (code : Nat) : Kept s₀ (issueFault s i k code) :=
  h.faultAbort ..

theorem Kept.completeCtl (h : Kept s₀ s) (i : Nat) (k : CtxId) (f : Fields) : Kept s₀ (completeCtl s i k f) :=
  (h.advance ..).signalDone ..

theorem Kept.issueCtl (h : Kept s₀ s) (i : Nat) (k : CtxId) (f : Fields) (sh : Shape) (legal : Bool)
    (body : State → State) (hbody : ∀ t, Kept s₀ t → Kept s₀ (body t)) : Kept s₀ (issueCtl s i k f sh legal body) :=
      by
  unfold Machine.issueCtl
  split
  · exact h
  · split
    · exact h.issueFault ..
    · split
      · exact h.completeCtl ..
      · exact .ite h (hbody s h)

theorem Kept.enqueue (h : Kept s₀ s) (i : Nat) (k : CtxId) (q : Queue) (e : QEntry) : Kept s₀ (enqueue s i k q e) :=
  (h.modCore i fun c hc => by exact (coreSized_setQueue c q (c.queue q ++ [e])).trans hc).advance ..

theorem Kept.issueQ (h : Kept s₀ s) (i : Nat) (k : CtxId) (q : Queue) (op : Nat) (f : Fields) (sh : Shape) (legal :
  Bool) (check : QEntry → Option Nat) (ecc : Bool) :
    Kept s₀ (issueQ s i k q op f sh legal check ecc) := by
  unfold Machine.issueQ
  split
  · exact h
  · split
    · exact (h.issueFault ..)
    · split
      · exact h
      · split
        · exact (h.enqueue ..)
        · split
          · exact h
          · split
            · exact (h.issueFault ..)
            · exact (h.enqueue ..)

end Sys2Proof.Machine
end

section
/-! PROOFS. The operations of Machine/MovesRun keep the canonical form of memory and the shape of the state. -/

namespace Sys2Proof.Machine

variable {s₀ s t : State}

theorem Kept.readPlace (h : Kept s₀ s) (i : Nat) (p : Place) (n : Nat) : Kept s₀ (readPlace s i p n).1 := by
  unfold Machine.readPlace
  split
  · exact h
  · exact (h.memRead ..)
  · exact h

theorem Kept.writePlace (h : Kept s₀ s) (i : Nat) (p : Place) (bs : List Byte) : Kept s₀ (writePlace s i p bs).1 := by
  unfold Machine.writePlace
  split
  · exact (h.writeBytes ..)
  · exact (h.memWrite ..)
  · exact h

theorem Kept.setAwaits (h : Kept s₀ s) (i : Nat) (q : Queue) (qid : Nat) (n : Nat) : Kept s₀ (setAwaits s i q qid n)
  :=
  h.setEntry ..

theorem Kept.copyRow (h : Kept s₀ s) (i : Nat) (f : Fields) (dst : Place) (bs : List Byte) :
    Kept s₀ (copyRow i f dst bs s).1 := by
  unfold Machine.copyRow
  split
  · exact (h.writePlace ..)
  · split
    · exact h
    · split
      · exact h
      · split
        · split
          · exact (h.writePlace ..)
          · exact h
        · exact (h.writePlace ..)

theorem Kept.copyRows (i : Nat) (f : Fields) (bytes : Nat) (src dst : Place) (n r : Nat) (h : Kept s₀ s) :
    Kept s₀ (copyRows i f bytes src dst n r s).1 := by
  induction n generalizing r s with
  | zero => exact h
  | succ n ih =>
    have hread := h.readPlace i (src.add (r * srcStride f)) bytes
    unfold Machine.copyRows
    dsimp only
    split
    · exact hread
    · split
      · exact hread.copyRow ..
      · exact ih _ (hread.copyRow ..)

theorem Kept.placeRows (i : Nat) (f : Fields) (bytes : Nat) (dst : Place) (n r : Nat) (bs : List Byte) (h : Kept s₀
  s) :
    Kept s₀ (placeRows i f bytes dst n r bs s).1 := by
  induction n generalizing r bs s with
  | zero => exact h
  | succ n ih =>
    unfold Machine.placeRows
    dsimp only
    split
    · exact h.copyRow ..
    · exact ih _ _ (h.copyRow ..)

theorem Kept.sendRows (i : Nat) (f : Fields) (bytes : Nat) (src : Place) (n a : Nat) (o : Owner) (m r : Nat)
    (h : Kept s₀ s) : Kept s₀ (sendRows i f bytes src n a o m r s).1 := by
  induction m generalizing r s with
  | zero => exact h
  | succ m ih =>
    have hread := h.readPlace i (src.add (r * srcStride f)) bytes
    unfold Machine.sendRows
    dsimp only
    split
    · exact hread
    · split
      · exact hread
      · split
        · exact hread
        · split
          · exact hread
          · refine ih _ (Kept.sendWrites ?_ ..)
            split
            · exact hread.setEntry ..
            · exact hread

theorem Kept.fetchRows (h : Kept s₀ s) (n : Nat) (a : Nat) (stride : Nat) (bytes : Nat) (o : Owner) (rows : Nat) :
    Kept s₀ (fetchRows s n a stride bytes o rows) := h.foldl _ (fun _ _ h1 => (h1.sendReads ..))

theorem Kept.endEntry (h : Kept s₀ s) (i : Nat) (q : Queue) (e : QEntry) (fault : Option Nat) :
    Kept s₀ (endEntry s i q e fault) := by
  unfold Machine.endEntry
  split
  · exact (h.entryFault ..)
  · exact h

theorem Kept.runMcopy (h : Kept s₀ s) (i : Nat) (e : QEntry) : Kept s₀ (runMcopy s i e) := by
  unfold Machine.runMcopy
  dsimp only
  split
  · split
    · exact (h.entryFault ..)
    · exact ((h.setAwaits ..).fetchRows ..)
  · split
    · exact (h.entryFault ..)
    · exact ((h.sendRows ..).endEntry ..)
  · exact ((h.copyRows ..).endEntry ..)

theorem Kept.finishMcopy (h : Kept s₀ s) (i : Nat) (e : QEntry) : Kept s₀ (finishMcopy s i e) := by
  unfold Machine.finishMcopy
  split
  · exact ((h.placeRows ..).endEntry ..)
  · exact h

theorem Kept.runMfill (h : Kept s₀ s) (i : Nat) (e : QEntry) : Kept s₀ (runMfill s i e) := by
  unfold Machine.runMfill
  dsimp only
  split
  · split
    · exact (h.entryFault ..)
    · exact ((h.setAwaits ..).sendWrites ..)
  · exact ((h.writePlace ..).endEntry ..)

end Sys2Proof.Machine
end

section
/-! PROOFS. The operations of Machine/Lanes keep the canonical form of memory and the shape of the state. -/

namespace Sys2Proof.Machine

variable {s₀ s t : State}

theorem Kept.setVreg (h : Kept s₀ s) (i : Nat) (n : Nat) (r : VReg) : Kept s₀ (setVreg s i n r) :=
  h.modCore _ fun c hc => by simpa [coreSized] using hc

theorem Kept.setGroup (h : Kept s₀ s) (i : Nat) (k : CtxId) (n : Nat) (rs : List VReg) : Kept s₀ (setGroup s i k n
  rs) :=
  h.foldl _ (fun _ _ h1 => (h1.setVreg ..))

theorem Kept.writeLanes (h : Kept s₀ s) (i : Nat) (e : QEntry) (rs : List LaneRes) : Kept s₀ (writeLanes s i e rs) :=
  by
  unfold Machine.writeLanes
  split
  · exact (h.entryFault ..)
  · exact ((h.setGroup ..).countVsat ..)

end Sys2Proof.Machine
end

section
/-! PROOFS. The operations of Machine/VectorRun keep the canonical form of memory and the shape of the state. -/

namespace Sys2Proof.Machine

variable {s₀ s t : State}

theorem Kept.runVadd (h : Kept s₀ s) (i : Nat) (e : QEntry) : Kept s₀ (runVadd s i e) := h.writeLanes ..

theorem Kept.runVsub (h : Kept s₀ s) (i : Nat) (e : QEntry) : Kept s₀ (runVsub s i e) := h.writeLanes ..

theorem Kept.runVmin (h : Kept s₀ s) (i : Nat) (e : QEntry) : Kept s₀ (runVmin s i e) := h.writeLanes ..

theorem Kept.runVmax (h : Kept s₀ s) (i : Nat) (e : QEntry) : Kept s₀ (runVmax s i e) := h.writeLanes ..

theorem Kept.runVmul (h : Kept s₀ s) (i : Nat) (e : QEntry) : Kept s₀ (runVmul s i e) := by
  unfold Machine.runVmul
  split
  · exact (h.entryFault ..)
  · exact (h.setGroup ..)

theorem Kept.runVcmp (h : Kept s₀ s) (i : Nat) (e : QEntry) : Kept s₀ (runVcmp s i e) := h.writeLanes ..

theorem Kept.runVsel (h : Kept s₀ s) (i : Nat) (e : QEntry) : Kept s₀ (runVsel s i e) := h.writeLanes ..

theorem Kept.runVabs (h : Kept s₀ s) (i : Nat) (e : QEntry) : Kept s₀ (runVabs s i e) := h.writeLanes ..

theorem Kept.runVneg (h : Kept s₀ s) (i : Nat) (e : QEntry) : Kept s₀ (runVneg s i e) := h.writeLanes ..

theorem Kept.runVshl (h : Kept s₀ s) (i : Nat) (e : QEntry) : Kept s₀ (runVshl s i e) := h.writeLanes ..

theorem Kept.runVrsh (h : Kept s₀ s) (i : Nat) (e : QEntry) : Kept s₀ (runVrsh s i e) := h.writeLanes ..

theorem Kept.runVresc (h : Kept s₀ s) (i : Nat) (e : QEntry) : Kept s₀ (runVresc s i e) := by
  unfold Machine.runVresc
  dsimp only
  split
  · exact (h.writeLanes ..)
  · split
    · exact (h.entryFault ..)
    · split
      · split
        · exact (h.entryFault ..)
        · exact ((h.setGroup ..).countVsat ..)
      · split
        · exact (h.entryFault ..)
        · exact ((h.setGroup ..).countVsat ..)

theorem Kept.runVmov (h : Kept s₀ s) (i : Nat) (e : QEntry) : Kept s₀ (runVmov s i e) := h.setGroup ..

theorem Kept.runVsplat (h : Kept s₀ s) (i : Nat) (e : QEntry) : Kept s₀ (runVsplat s i e) :=
  (h.setGroup ..).countVsat ..

theorem Kept.runVmovg (h : Kept s₀ s) (i : Nat) (e : QEntry) : Kept s₀ (runVmovg s i e) := by
  unfold Machine.runVmovg
  dsimp only
  split
  · exact (h.entryFault ..)
  · exact (h.writeG ..)

theorem Kept.runVradd (h : Kept s₀ s) (i : Nat) (e : QEntry) : Kept s₀ (runVradd s i e) := h.writeLanes ..

theorem Kept.runVld (h : Kept s₀ s) (i : Nat) (e : QEntry) : Kept s₀ (runVld s i e) := by
  unfold Machine.runVld
  dsimp only
  split
  · exact (h.entryFault ..)
  · exact ((h.countVoids ..).setGroup ..)

theorem Kept.runVst (h : Kept s₀ s) (i : Nat) (e : QEntry) : Kept s₀ (runVst s i e) := by
  unfold Machine.runVst
  dsimp only
  split
  · exact (h.entryFault ..)
  · split
    · exact (h.entryFault ..)
    · split
      · exact ((h.countVsat ..).writeBytes ..)
      · exact (((h.countVsat ..).writeBytes ..).countQuant ..)

theorem Kept.trackMon (h : Kept s₀ s) {i : Nat} {k : CtxId} {a layer role : Nat}
    (ht : trackMon s i k a layer role = some t) : Kept s₀ t := by
  unfold Machine.trackMon at ht
  dsimp only at ht
  split at ht
  · cases ht; exact h.setCtxAt ..
  · split at ht
    · cases ht
    · cases ht; exact h.setCtxAt ..

theorem Kept.nameMonitor (h : Kept s₀ s) {i : Nat} {k : CtxId} {a layer role : Nat} {pith : List Nat}
    (ht : nameMonitor s i k a layer role pith = some t) : Kept s₀ t := by
  unfold Machine.nameMonitor at ht
  split at ht
  · cases ht
  · next htrack => cases ht; exact .ite (h.trackMon htrack) ((h.trackMon htrack).placeEntries ..)

theorem Kept.placeMonitor (h : Kept s₀ s) {i : Nat} {k : CtxId} {a layer role : Nat} {pith : List Nat}
    (ht : placeMonitor s i k a layer role pith = some t) : Kept s₀ t := by
  unfold Machine.placeMonitor at ht
  dsimp only at ht
  split at ht
  · cases ht; exact h
  · split at ht
    · cases ht
    · cases ht; exact (h.setCtxAt ..).placeEntries ..

theorem Kept.countMonitor (h : Kept s₀ s) (i : Nat) (d : QDesc) (x : Int) (xs : List Int) (pith : List Nat) (q :
  Quant) (side : Option Quant) :
    Kept s₀ (countMonitor s i d x xs pith q side) := by
  unfold Machine.countMonitor
  dsimp only
  split
  · split
    · exact (((((((h.monAdd ..).monAdd ..).monAdd ..).monAdd ..).monAdd ..).bumpEntries ..).addLevel ..)
    · exact ((((((h.monAdd ..).monAdd ..).monAdd ..).monAdd ..).monAdd ..).bumpEntries ..)
  · exact ((((((h.monAdd ..).monAdd ..).monAdd ..).monAdd ..).monAdd ..).bumpEntries ..)

theorem Kept.openPith (h : Kept s₀ s) (i : Nat) (d : QDesc) : Kept s₀ (openPith s i d) := by
  unfold Machine.openPith
  split
  · dsimp only
    split
    · exact ((h.formPith ..).writeBytes ..)
    · exact (h.formPith ..)
  · exact h

theorem Kept.fillPeaks (h : Kept s₀ s) (d : QDesc) (x : Int) (xs : List Int) : Kept s₀ (fillPeaks s d x xs) := by
  unfold Machine.fillPeaks
  dsimp only
  split
  · split
    · exact h.upd
    · exact h
  · exact h

theorem Kept.quantiseRow (h : Kept s₀ s) (i : Nat) (fr : FloorRule) (d : QDesc) (x : Int) (xs : List Int) (pith :
  List Nat) :
    Kept s₀ (quantiseRow s i fr d x xs pith) := by
  unfold Machine.quantiseRow
  dsimp only
  split
  · exact (Kept.countMonitor (by split; exacts [(((((h.fillPeaks ..).writeBytes ..).countQuant ..).writeBytes
      ..).countQuant ..), (((h.fillPeaks ..).writeBytes ..).countQuant ..)]) ..)
  · split
    · exact (((((h.fillPeaks ..).writeBytes ..).countQuant ..).writeBytes ..).countQuant ..)
    · exact (((h.fillPeaks ..).writeBytes ..).countQuant ..)

theorem Kept.runVqnt (h : Kept s₀ s) (i : Nat) (e : QEntry) : Kept s₀ (runVqnt s i e) := by
  have hfault (code : Nat) : Kept s₀ (Machine.entryFault s i .vec e code) := h.entryFault ..
  unfold Machine.runVqnt
  dsimp only
  split
  · exact hfault _
  · refine .ite (hfault _) (.ite (hfault _) (.ite (hfault _) (.ite (hfault _) (.ite (hfault _) (.ite (hfault _)
      ?_)))))
    split
    · exact hfault _
    · next hnamed =>
      refine Kept.quantiseRow (Kept.countVsat ?_ ..) ..
      split at hnamed
      · exact (h.openPith ..).nameMonitor hnamed
      · cases hnamed; exact h.openPith ..

theorem Kept.runVcvt (h : Kept s₀ s) (i : Nat) (e : QEntry) : Kept s₀ (runVcvt s i e) := by
  unfold Machine.runVcvt
  dsimp only
  split
  · exact (h.entryFault ..)
  · exact ((h.writeBytes ..).countVoids ..)

theorem Kept.putResult (h : Kept s₀ s) (i : Nat) (e : QEntry) (w : Bool) (x : Int) (cs : List Int) :
    Kept s₀ (putResult s i e w x cs) := h.setVreg ..

theorem Kept.runVrsum (h : Kept s₀ s) (i : Nat) (e : QEntry) : Kept s₀ (runVrsum s i e) := by
  unfold Machine.runVrsum
  split
  · exact (h.entryFault ..)
  · exact ((h.putResult ..).countVsat ..)

theorem Kept.runVrmax (h : Kept s₀ s) (i : Nat) (e : QEntry) : Kept s₀ (runVrmax s i e) := by
  unfold Machine.runVrmax
  split
  · exact (h.entryFault ..)
  · exact ((h.putResult ..).countVsat ..)

theorem Kept.runVrcnt (h : Kept s₀ s) (i : Nat) (e : QEntry) : Kept s₀ (runVrcnt s i e) := by
  unfold Machine.runVrcnt
  split
  · exact (h.entryFault ..)
  · exact ((h.putResult ..).countVsat ..)

theorem Kept.runVrssq (h : Kept s₀ s) (i : Nat) (e : QEntry) : Kept s₀ (runVrssq s i e) := by
  unfold Machine.runVrssq
  split
  · exact (h.entryFault ..)
  · exact ((h.putResult ..).countVsat ..)

theorem Kept.runVsqadd (h : Kept s₀ s) (i : Nat) (e : QEntry) : Kept s₀ (runVsqadd s i e) := by
  unfold Machine.runVsqadd
  dsimp only
  split
  · exact (h.entryFault ..)
  · split
    · exact ((h.setGroup ..).putF ..)
    · exact (h.setGroup ..)

theorem Kept.runVact (h : Kept s₀ s) (i : Nat) (e : QEntry) : Kept s₀ (runVact s i e) := by
  unfold Machine.runVact
  split
  · exact (h.entryFault ..)
  · exact (h.writeLanes ..)

theorem Kept.runVgacc (h : Kept s₀ s) (i : Nat) (e : QEntry) : Kept s₀ (runVgacc s i e) := by
  unfold Machine.runVgacc
  split
  · exact h.entryFault ..
  · split
    · exact h.entryFault ..
    · split
      · exact h.entryFault ..
      · have hcount (n a : Nat) (r : RowVal) := (h.countVsat i n).countVoids i r.voids a
        exact .ite ((hcount ..).writeBytes ..) (.ite (((hcount ..).writeBytes ..).raiseForced ..)
          (.ite ((((hcount ..).writeBytes ..).countQsat ..).countQuant ..) (((hcount ..).writeBytes ..).countQsat
            ..)))

theorem Kept.runVrand (h : Kept s₀ s) (i : Nat) (e : QEntry) : Kept s₀ (runVrand s i e) := h.setGroup ..

theorem Kept.monFlag (h : Kept s₀ s) (i : Nat) (a : Nat) (bit : Nat) : Kept s₀ (monFlag s i a bit) := h.monPut ..

theorem Kept.normWatch (h : Kept s₀ s) (i : Nat) (a : Nat) (layer : Nat) (role : Nat) :
    Kept s₀ (normWatch s i a layer role).1 := by
  unfold Machine.normWatch
  dsimp only
  split
  · exact h
  · exact ((((Kept.ite ((h.monFlag ..).makeRecord ..) h).monPut ..).monPut ..).monAdd ..)

theorem Kept.markRecord (h : Kept s₀ s) (i : Nat) (m : Nat × Nat × Nat) : Kept s₀ (markRecord s i m).1 :=
  ((Kept.ite ((Kept.ite (((Kept.ite (h.monFlag ..) h).normWatch ..).monFlag ..) ((Kept.ite (h.monFlag ..)
    h).normWatch ..)).monFlag ..) (Kept.ite (((Kept.ite (h.monFlag ..) h).normWatch ..).monFlag ..) ((Kept.ite
    (h.monFlag ..) h).normWatch ..))).writeWords ..).foldl _ (fun _ _ h1 => (h1.writeWord ..))

theorem Kept.markAll (i : Nat) (ms : List (Nat × Nat × Nat)) {p : State × List Nat} (h : Kept s₀ p.1) :
    Kept s₀ (markAll i ms p).1 := by
  induction ms generalizing p with
  | nil => exact h
  | cons m ms ih => exact ih (h.markRecord ..)

theorem Kept.runVmark (h : Kept s₀ s) (i : Nat) (e : QEntry) : Kept s₀ (runVmark s i e) := by
  unfold Machine.runVmark
  extract_lets x r o
  have hmark : Kept s₀ r.1 := Kept.markAll i _ (h.setCtxAt i e.ctx _)
  have hvote : Kept s₀ o.1 := hmark.reduceAt ..
  clear_value o
  obtain ⟨u, acc⟩ := o
  cases acc with
  | ok => exact hvote
  | poison => exact hvote.entryFault ..
  | unassigned => exact hvote.entryFault ..
  | window => exact hvote.entryFault ..

end Sys2Proof.Machine
end

section
/-! PROOFS. The operations of Machine/Anvil keep the canonical form of memory and the shape of the state. -/

namespace Sys2Proof.Machine

variable {s₀ s t : State}

theorem Kept.applyPass (h : Kept s₀ s) (i : Nat) (p : PassRun) (n : Nat) : Kept s₀ (applyPass s i p n) :=
  (h.countVoids ..).foldl _ (fun _ _ h1 => (h1.modCore _ fun c hc => by simpa using hc))

theorem Kept.beginAnvil (h : Kept s₀ s) (i : Nat) (a : Nat) (e : QEntry) : Kept s₀ (beginAnvil s i a e) := h.setEntry
  ..

theorem Kept.endAnvil (h : Kept s₀ s) (i : Nat) (a : Nat) (qid : Nat) : Kept s₀ (endAnvil s i a qid) := h.setEntry ..

theorem Kept.modAnvil (h : Kept s₀ s) (i : Nat) (a : Nat) (f : Anvil → Anvil) : Kept s₀ (modAnvil s i a f) :=
  h.modCore _ fun c hc => by simpa using hc

theorem Kept.setLanePass (h : Kept s₀ s) (i : Nat) (lane : CtxId) (p : Option PassRun) :
    Kept s₀ (setLanePass s i lane p) := h.modCore _ fun c hc => by split <;> exact hc

end Sys2Proof.Machine
end

section
/-! PROOFS. The operations of Machine/AnvilRun keep the canonical form of memory and the shape of the state. -/

namespace Sys2Proof.Machine

variable {s₀ s t : State}

theorem Kept.addGrants (h : Kept s₀ s) (gs : List GrantReq) : Kept s₀ (addGrants s gs) := by
  unfold Machine.addGrants
  split
  · exact h
  · exact h.upd

theorem Kept.syncGrants (h : Kept s₀ s) (i : CoreId) : Kept s₀ (syncGrants s i) := h.upd.addGrants ..

theorem Kept.settleRamp (h : Kept s₀ s) (i : Nat) (a : Nat) : Kept s₀ (settleRamp s i a) := by
  unfold Machine.settleRamp
  split
  · exact h
  · exact (h.modAnvil ..)

theorem Kept.noteIdle (h : Kept s₀ s) : Kept s₀ (noteIdle s) := by
  unfold Machine.noteIdle
  split
  · exact h.upd
  · exact h.upd

theorem Kept.rampStage (h : Kept s₀ s) (i : CoreId) (a : Nat) : Kept s₀ (rampStage s i a) :=
  (((h.modAnvil ..).settleRamp ..).syncGrants ..).noteIdle

theorem Kept.doZero (h : Kept s₀ s) (i : Nat) (a : Nat) : Kept s₀ (doZero s i a) := by
  unfold Machine.doZero
  split
  · split
    · exact h
    · exact (((h.beginAnvil ..).modAnvil ..).endAnvil ..)
  · exact h

theorem Kept.tileFault (h : Kept s₀ s) (i : Nat) (a : Nat) (e : QEntry) (col : Nat) (row : Nat) (cause : Nat)
  (residue : Bool) :
    Kept s₀ (tileFault s i a e col row cause residue) := (h.setTileFault ..).entryFault ..

theorem Kept.doLoad (h : Kept s₀ s) (i : Nat) (a : Nat) (ecc : Bool) : Kept s₀ (doLoad s i a ecc) := by
  unfold Machine.doLoad
  split
  · split
    · exact h
    · split
      · exact (h.tileFault ..)
      · split
        · exact (h.entryFault ..)
        · exact ((h.beginAnvil ..).modAnvil ..)
  · exact h

theorem Kept.doLoadComplete (h : Kept s₀ s) (i : Nat) (a : Nat) : Kept s₀ (doLoadComplete s i a) := by
  unfold Machine.doLoadComplete
  split
  · exact h
  · split
    · exact h
    · split
      · exact (h.modAnvil ..)
      · split
        · exact (h.entryFault ..)
        · exact (((h.modAnvil ..).endAnvil ..).countVoids ..)

theorem Kept.doSwap (h : Kept s₀ s) (i : Nat) (a : Nat) : Kept s₀ (doSwap s i a) := by
  unfold Machine.doSwap
  split
  · dsimp only
    split
    · exact h
    · exact (((h.beginAnvil ..).modAnvil ..).endAnvil ..)
  · exact h

theorem Kept.startPass (h : Kept s₀ s) (i : Nat) (lane : CtxId) (e : QEntry) : Kept s₀ (startPass s i lane e) :=
  ((h.foldl _ (fun _ _ h1 => (h1.modAnvil ..))).setLanePass ..).setEntry ..

theorem Kept.askRamp (h : Kept s₀ s) (i : CoreId) (m : Nat) : Kept s₀ (askRamp s i m) :=
  (h.foldl _ (fun _ _ h1 => (h1.modAnvil ..))).syncGrants ..

theorem Kept.doPass (h : Kept s₀ s) (i : CoreId) (lane : CtxId) (ecc : Bool) : Kept s₀ (doPass s i lane ecc) := by
  unfold Machine.doPass
  split
  · exact h
  · split
    · exact h
    · dsimp only
      split
      · exact (h.askRamp ..)
      · split
        · exact ((h.askRamp ..).tileFault ..)
        · split
          · exact ((h.askRamp ..).entryFault ..)
          · exact ((h.askRamp ..).startPass ..)

theorem Kept.passComplete (h : Kept s₀ s) (i : CoreId) (lane : CtxId) : Kept s₀ (passComplete s i lane) := by
  unfold Machine.passComplete
  split
  · exact h
  · split
    · exact h
    · split
      · exact (h.askRamp ..)
      · exact (((((h.applyPass ..).setLanePass ..).setEntry ..).foldl _ (fun _ _ h1 => (h1.settleRamp
          ..))).syncGrants ..)

theorem Kept.doDrain (h : Kept s₀ s) (i : Nat) (a : Nat) (err : Option DrainRead) : Kept s₀ (doDrain s i a err) := by
  unfold Machine.doDrain
  split
  · exact h
  · dsimp only
    split
    · exact h
    · split
      · exact (h.coreStoreFault ..)
      · split
        · exact (h.entryFault ..)
        · split
          · exact (h.tileFault ..)
          · split
            · exact (h.entryFault ..)
            · exact ((h.beginAnvil ..).modAnvil ..)

theorem Kept.noteResidue (h : Kept s₀ s) (i : Nat) : Kept s₀ (noteResidue s i) := by
  unfold Machine.noteResidue
  dsimp only
  split
  · exact ((h.modCoreRest ..).dueRetire ..)
  · exact (h.modCoreRest ..)

theorem Kept.reportResidue (h : Kept s₀ s) (i : Nat) (a : Nat) (col : Nat) (row : Nat) :
    Kept s₀ (reportResidue s i a col row) := (((h.satF ..).noteResidue ..).setTileFault ..).makeRecord ..

theorem Kept.residueFault (h : Kept s₀ s) (i : Nat) (a : Nat) (col : Nat) (row : Nat) (e : QEntry) :
    Kept s₀ (residueFault s i a col row e) := (h.reportResidue ..).tileFault ..

theorem Kept.rowOut (h : Kept s₀ s) (i : Nat) (a : Nat) (r : Nat) (d : DrainRun) : Kept s₀ (rowOut s i a r d) :=
  (Kept.modAnvil (by split; exacts [(h.writeBytes ..), h]) ..).countVoids ..

theorem Kept.doDrainRow (h : Kept s₀ s) (i : Nat) (a : Nat) (u : Option Upset) : Kept s₀ (doDrainRow s i a u) := by
  unfold Machine.doDrainRow
  split
  · exact h
  · split
    · exact h
    · dsimp only
      split
      · exact (h.residueFault ..)
      · exact (h.rowOut ..)

theorem Kept.writeNibble (h : Kept s₀ s) (a : Nat) (high : Bool) (v : Nat) : Kept s₀ (writeNibble s a high v) :=
  h.writeBytes ..

theorem Kept.writeHeaders (h : Kept s₀ s) (base : Nat) (d : FusedDesc) (c0 : Nat) (p : Piece) :
    Kept s₀ (writeHeaders s base d c0 p) := h.foldl _ (fun _ _ h1 => (h1.writeNibble ..))

theorem Kept.writePiece (h : Kept s₀ s) (i : Nat) (a : Nat) (r : Nat) (d : FusedDesc) (p : Piece) :
    Kept s₀ (writePiece s i a r d p) := (Kept.ite ((h.writeBytes ..).writeHeaders ..) (h.writeBytes ..)).writeBytes ..

theorem Kept.countPiece (h : Kept s₀ s) (i : Nat) (e : QEntry) (a : Nat) (d : FusedDesc) (zs : List (Int × Bool))
    (p : Piece) : Kept s₀ (countPiece s i e a d zs p) := by
  have hcount : Kept s₀ (Machine.countFosat s i (countTrue p.sats)) := h.countFosat ..
  unfold Machine.countPiece
  dsimp only
  split
  · exact hcount
  · split
    · exact hcount.entryFault ..
    · next hplaced => exact (((hcount.placeMonitor hplaced).monAdd ..).monAdd ..).bumpEntries ..

theorem Kept.countFusedVoids (h : Kept s₀ s) (i : Nat) (a : Nat) (r : Nat) (n : Nat) (d : FusedDesc) :
    Kept s₀ (countFusedVoids s i a r n d) := by
  unfold Machine.countFusedVoids
  dsimp only
  split
  · exact ((Kept.ite (h.countVoids ..) h).countVoids ..)
  · split
    · exact (h.countVoids ..)
    · exact h

theorem Kept.doFusedRow (h : Kept s₀ s) (i : Nat) (a : Nat) (ecc : Bool) : Kept s₀ (doFusedRow s i a ecc) := by
  unfold Machine.doFusedRow
  split
  · exact h
  · split
    · dsimp only
      split
      · exact (h.modAnvil ..)
      · split
        · exact ((h.modAnvil ..).coreStoreFault ..)
        · split
          · exact ((h.modAnvil ..).entryFault ..)
          · exact ((((h.modAnvil ..).countFusedVoids ..).writePiece ..).countPiece ..)
    · exact h

theorem Kept.flushOut (h : Kept s₀ s) (i : Nat) (d : FusedDesc) (r : Nat) : Kept s₀ (flushOut i d s r) := by
  unfold Machine.flushOut
  split
  · split
    · exact ((h.writeBytes ..).raiseForced ..)
    · exact h
  · exact h

theorem Kept.endFused (h : Kept s₀ s) (i : Nat) (e : QEntry) (d : FusedDesc) : Kept s₀ (endFused s i e d) := by
  have hflush (c : Prop) [Decidable c] :
      Kept s₀ (if c then (List.range 32).foldl (Machine.flushOut i d) s else s) :=
    .ite (h.foldl _ fun t r ht => ht.flushOut i d r) h
  unfold Machine.endFused
  dsimp only
  split
  · refine Kept.setCtxAt ?_ ..
    cases hname : Machine.nameMonitor _ i e.ctx d.monAt d.layer d.role (layerPith _ d.layer) with
    | none => exact hflush _
    | some t => exact (hflush _).nameMonitor hname
  · exact hflush _

theorem Kept.doDrainComplete (h : Kept s₀ s) (i : Nat) (a : Nat) : Kept s₀ (doDrainComplete s i a) := by
  unfold Machine.doDrainComplete
  split
  · exact h
  · split
    · exact h
    · dsimp only
      split
      · split
        · exact ((((h.countTileSat ..).modAnvil ..).endAnvil ..).endFused ..)
        · exact (((h.countTileSat ..).modAnvil ..).endAnvil ..)
      · exact (((h.countTileSat ..).modAnvil ..).endAnvil ..)

end Sys2Proof.Machine
end

section
/-! PROOFS. The operations of Machine/UpdateRun keep the canonical form of memory and the shape of the state. -/

namespace Sys2Proof.Machine

variable {s₀ s t : State}

theorem Kept.inputLayer (h : Kept s₀ s) (ws : List Word64) : Kept s₀ (inputLayer s ws).2 := by
  unfold Machine.inputLayer
  dsimp only
  split
  · exact h.drawFree
  · exact h.drawFree

theorem Kept.umuRecords (h : Kept s₀ s) (i : Nat) (ws : List Word64) (u : UmuIn) (o : UmuOut) :
    Kept s₀ (umuRecords s i ws u o) := by
  unfold Machine.umuRecords
  dsimp only
  split
  · exact ((Kept.ite ((Kept.ite ((Kept.ite (((h.inputLayer ..).putF ..).makeRecord ..) (h.inputLayer ..)).putF ..)
      (Kept.ite (((h.inputLayer ..).putF ..).makeRecord ..) (h.inputLayer ..))).putF ..) (Kept.ite ((Kept.ite
      (((h.inputLayer ..).putF ..).makeRecord ..) (h.inputLayer ..)).putF ..) (Kept.ite (((h.inputLayer ..).putF
      ..).makeRecord ..) (h.inputLayer ..)))).makeRecord ..)
  · split
    · exact ((Kept.ite ((Kept.ite (((h.inputLayer ..).putF ..).makeRecord ..) (h.inputLayer ..)).putF ..) (Kept.ite
        (((h.inputLayer ..).putF ..).makeRecord ..) (h.inputLayer ..))).putF ..)
    · split
      · exact ((Kept.ite (((h.inputLayer ..).putF ..).makeRecord ..) (h.inputLayer ..)).putF ..)
      · split
        · exact (((h.inputLayer ..).putF ..).makeRecord ..)
        · exact (h.inputLayer ..)

theorem Kept.rememberUpd (h : Kept s₀ s) (i : Nat) (off : Nat) (us : List Word64) : Kept s₀ (rememberUpd s i off us)
  :=
  h.modCoreRest ..

theorem Kept.runVumu (h : Kept s₀ s) (i : Nat) (e : QEntry) : Kept s₀ (runVumu s i e) := by
  unfold Machine.runVumu
  dsimp only
  split
  · exact (h.entryFault ..)
  · split
    · exact ((h.rememberUpd ..).drawFree.writeWords ..)
    · exact (((h.rememberUpd ..).drawFree.drawFree.umuRecords ..).writeWords ..)

theorem Kept.runVupd (h : Kept s₀ s) (i : Nat) (e : QEntry) : Kept s₀ (runVupd s i e) := by
  unfold Machine.runVupd
  split
  · exact (h.entryFault ..)
  · dsimp only
    split
    · exact (h.entryFault ..)
    · split
      · exact (h.writeBytes ..)
      · split
        · exact (h.entryFault ..)
        · split
          · exact ((((h.drawFree.countVoids ..).writeBytes ..).writeBytes ..).countUpdClamp ..)
          · exact (h.entryFault ..)

end Sys2Proof.Machine
end

section
/-! PROOFS. The operations of Machine/Clip keep the canonical form of memory and the shape of the state. -/

namespace Sys2Proof.Machine

variable {s₀ s t : State}

theorem Kept.holdLayer (ws : List Word64) (c : Nat × Int) (ls : List Nat) (h : Kept s₀ s) :
    Kept s₀ (holdLayer ws c ls s).1 := by
  induction ls generalizing s with
  | nil => exact h
  | cons l ls ih =>
    unfold Machine.holdLayer
    dsimp only
    split
    · split
      · exact h.drawFree.drawFree
      · exact ih h.drawFree.drawFree
    · exact ih h

theorem Kept.finishPayload (h : Kept s₀ s) (ws : List Word64) : Kept s₀ (finishPayload s ws).1 := by
  unfold Machine.finishPayload
  split
  · exact h
  · exact (h.holdLayer ..)

end Sys2Proof.Machine
end

section
/-! PROOFS. The operations of Machine/Coll keep the canonical form of memory and the shape of the state. -/

namespace Sys2Proof.Machine

variable {s₀ s t : State}

theorem Kept.countCollVoids (h : Kept s₀ s) (engine : Nat) (n : Nat) (a : Nat) : Kept s₀ (countCollVoids s engine n
  a) := by
  unfold Machine.countCollVoids
  split
  · exact h
  · dsimp only
    split
    · exact ((h.satF ..).makeRecord ..)
    · exact (h.satF ..)

theorem Kept.countMismatch (h : Kept s₀ s) (group : Nat) (rank : Nat) (inst : Nat) :
    Kept s₀ (countMismatch s group rank inst) := (h.satF ..).makeRecord ..

theorem Kept.setInst (h : Kept s₀ s) (x : Inst) : Kept s₀ (setInst s x) := h.upd

theorem Kept.dropInst (h : Kept s₀ s) (idx : Nat) : Kept s₀ (dropInst s idx) := h.upd

theorem Kept.aimDie (h : Kept s₀ s) (node : Nat) : Kept s₀ (aimDie s node) := by
  unfold Machine.aimDie
  dsimp only
  split
  · exact h
  · split
    · exact (h.setDst ..)
    · exact h

theorem Kept.sendLine (h : Kept s₀ s) (g : Group) (o : OutLine) (slot : Nat) : Kept s₀ (sendLine s g o slot) :=
  (Kept.ite (Kept.ite h (h.aimDie ..)) ((Kept.ite h (h.aimDie ..)).carry ..)).carry ..

theorem Kept.drainLines (idx : Nat) (os kept : List OutLine) (h : Kept s₀ s) : Kept s₀ (drainLines idx os kept s) :=
  by
  induction os generalizing kept s with
  | nil =>
    unfold Machine.drainLines
    split
    · exact h.setGroupEntry ..
    · exact h
  | cons o os ih =>
    unfold Machine.drainLines
    split
    · exact h
    · exact .ite (ih _ h) (ih _ ((h.setGroupEntry ..).sendLine ..))

theorem Kept.drainGroup (h : Kept s₀ s) (idx : Nat) : Kept s₀ (drainGroup s idx) := by
  unfold Machine.drainGroup
  split
  · exact (h.drainLines ..)
  · exact h

theorem Kept.queueLine (h : Kept s₀ s) (idx : Nat) (o : OutLine) : Kept s₀ (queueLine s idx o) := by
  unfold Machine.queueLine
  split
  · exact (h.setGroupEntry ..)
  · exact h

theorem Kept.sendSlot27 (h : Kept s₀ s) (g : Group) (rank : Nat) (inst : Nat) (kind : Nat) (status : Nat) :
    Kept s₀ (sendSlot27 s g rank inst kind status) := (h.queueLine ..).drainGroup ..

theorem Kept.queueUp (h : Kept s₀ s) (g : Group) (root : Nat) (inst : Nat) (kind : Nat) (value : Nat) (data : List
  Byte) :
    Kept s₀ (queueUp s g root inst kind value data) := (h.queueLine ..).drainGroup ..

theorem Kept.queueDown (h : Kept s₀ s) (g : Group) (root : Nat) (inst : Nat) (kind : Nat) (value : Nat) (data : List
  Byte) (chunk : Nat) :
    Kept s₀ (queueDown s g root inst kind value data chunk) := (h.foldl _ (fun _ _ h1 => (h1.queueLine
      ..))).drainGroup ..

theorem Kept.returnCredit (h : Kept s₀ s) (g : Group) (rel : Nat) (sender : Nat) :
    Kept s₀ (returnCredit s g rel sender) := by
  unfold Machine.returnCredit
  split
  · exact h
  · dsimp only
    split
    · exact ((h.setGroupEntry ..).carry ..)
    · exact (h.setGroupEntry ..)

theorem Kept.freePaths (h : Kept s₀ s) (idx : Nat) : Kept s₀ (freePaths s idx) := h.upd

theorem Kept.endInst (h : Kept s₀ s) (g : Group) (x : Inst) : Kept s₀ (endInst s g x) := by
  unfold Machine.endInst
  dsimp only
  split
  · exact ((Kept.ite ((h.dropInst ..).freePaths ..) (h.dropInst ..)).setGroupEntry ..)
  · split
    · exact ((h.dropInst ..).freePaths ..)
    · exact (h.dropInst ..)

theorem Kept.withdrawInst (h : Kept s₀ s) (g : Group) (x : Inst) : Kept s₀ (withdrawInst s g x) := by
  unfold Machine.withdrawInst
  dsimp only
  split
  · exact ((h.endInst ..).setGroupEntry ..)
  · exact (h.endInst ..)

theorem Kept.closeSnap (h : Kept s₀ s) (x : Inst) : Kept s₀ (closeSnap s x) := by
  unfold Machine.closeSnap
  split
  · exact (h.putF ..).upd
  · exact h

theorem Kept.completeInst (h : Kept s₀ s) (g : Group) (x : Inst) : Kept s₀ (completeInst s g x) := by
  unfold Machine.completeInst
  exact ((Kept.ite (h.putF ..) h).endInst ..).ownerDone ..

theorem Kept.failInst (h : Kept s₀ s) (g : Group) (x : Inst) (code : Nat) : Kept s₀ (failInst s g x code) := by
  unfold Machine.failInst
  exact (Kept.ite (((h.withdrawInst ..).closeSnap ..).satF ..) ((h.withdrawInst ..).closeSnap ..)).ownerDone ..

theorem Kept.spreadAbort (h : Kept s₀ s) (g : Group) (inst : Nat) (code : Nat) : Kept s₀ (spreadAbort s g inst code)
  := by
  unfold Machine.spreadAbort
  split
  · exact (h.foldl _ (fun _ _ h1 => (h1.sendSlot27 ..)))
  · exact (h.sendSlot27 ..)

theorem Kept.abortInst (h : Kept s₀ s) (g : Group) (x : Inst) (code : Nat) : Kept s₀ (abortInst s g x code) :=
  (h.spreadAbort ..).failInst ..

theorem Kept.mismatchInst (h : Kept s₀ s) (g : Group) (x : Inst) (rank : Nat) : Kept s₀ (mismatchInst s g x rank) :=
  (h.countMismatch ..).abortInst ..

theorem Kept.applyCounts (h : Kept s₀ s) (engine : Nat) (a : Nat) (c : CombCount) : Kept s₀ (applyCounts s engine a
  c) :=
  (Kept.ite ((((h.satF ..).satF ..).satF ..).putF ..) (((h.satF ..).satF ..).satF ..)).countCollVoids ..

theorem Kept.ownCount (h : Kept s₀ s) (desc : List Word64) : Kept s₀ (ownCount s desc).1 := by
  unfold Machine.ownCount
  split
  · exact h
  · exact (h.memRead ..)

theorem Kept.countFlushed (h : Kept s₀ s) (n : Nat) : Kept s₀ (countFlushed s n) := h.satF ..

theorem Kept.readUnits (h : Kept s₀ s) (n : Nat) (as : List Nat) : Kept s₀ (readUnits s n as).1 := by
  induction as generalizing s with
  | nil => exact h
  | cons a as ih => exact ih (h.memRead ..)

theorem Kept.writeUnits (h : Kept s₀ s) (ps : List (Nat × List Byte)) : Kept s₀ (writeUnits s ps).1 := by
  induction ps generalizing s with
  | nil => exact h
  | cons p ps ih => exact ih (h.memWrite ..)

theorem Kept.ownUnits (h : Kept s₀ s) (desc : List Word64) (us : List Nat) : Kept s₀ (ownUnits s desc us).1 := by
  unfold Machine.ownUnits
  split
  · exact h
  · exact (h.readUnits ..)

theorem Kept.queueChunk (h : Kept s₀ s) (g : Group) (x : Inst) (lane : Nat) (hr : Nat) (c : Nat) (value : Nat) (data
  : List Byte) :
    Kept s₀ (queueChunk s g x lane hr c value data) := (h.queueLine ..).drainGroup ..

theorem Kept.writeCount (h : Kept s₀ s) (x : Inst) (v : Nat) : Kept s₀ (writeCount s x v) := by
  unfold Machine.writeCount
  split
  · exact (h.memWrite ..)
  · exact h

theorem Kept.ringCheck (h : Kept s₀ s) (idx : Nat) : Kept s₀ (ringCheck s idx) := by
  unfold Machine.ringCheck
  split
  · split
    · exact (h.completeInst ..)
    · exact h
  · exact h

theorem Kept.sendBlock (g : Group) (x : Inst) (lane hop value : Nat) (cs : List (Nat × List (List Byte)))
    (h : Kept s₀ s) : Kept s₀ (sendBlock g x lane hop value cs s) := by
  induction cs generalizing s with
  | nil => exact h
  | cons c cs ih => exact ih (h.queueChunk ..)

theorem Kept.sendUnits (h : Kept s₀ s) (g : Group) (x : Inst) (lane : Nat) (n : Nat) (cnt : Nat) (us : List (List
  Byte)) :
    Kept s₀ (sendUnits g x lane n cnt us s) := (h.countFlushed ..).sendBlock ..

theorem Kept.startLane {p : State × Acc} (h : Kept s₀ p.1) (g : Group) (x : Inst) (cnt lane : Nat) :
    Kept s₀ (startLane g x cnt lane p).1 := by
  unfold Machine.startLane
  dsimp only
  split
  · exact .ite1 ((h.readUnits ..).writeUnits ..) (((h.readUnits ..).writeUnits ..).sendUnits ..)
  · refine .ite1 (h.ownUnits ..) (.ite1 (((h.ownUnits ..).writeUnits ..).writeCount ..) ((h.ownUnits ..).sendUnits
      ..))

theorem Kept.wantPath (h : Kept s₀ s) (g : Group) (lane : Nat) : Kept s₀ (wantPath g lane s) := by
  unfold Machine.wantPath
  dsimp only
  split
  · exact h
  · exact (h.setDst ..)

theorem Kept.startRing (h : Kept s₀ s) (g : Group) (x : Inst) : Kept s₀ (startRing s g x) := by
  have hlanes (ls : List Nat) (n : Nat) : Kept s₀
      (ls.foldl (fun p q => Machine.startLane g x n q p)
        ((Machine.ownCount (ls.foldl (fun s q => Machine.wantPath g q s) s) x.desc).1,
          (Machine.ownCount (ls.foldl (fun s q => Machine.wantPath g q s) s) x.desc).2.1)).1 :=
    ((h.foldl ls fun t q ht => ht.wantPath g q).ownCount x.desc).foldl1
      (p := ((Machine.ownCount (ls.foldl (fun s q => Machine.wantPath g q s) s) x.desc).1,
        (Machine.ownCount (ls.foldl (fun s q => Machine.wantPath g q s) s) x.desc).2.1)) ls
      fun p q hp => hp.startLane g x n q
  exact .ite ((hlanes ..).abortInst ..) ((hlanes ..).ringCheck ..)

theorem Kept.touchInst (h : Kept s₀ s) (x : Inst) : Kept s₀ (touchInst s x) := h.setInst ..

theorem Kept.reduceChunk (h : Kept s₀ s) (g : Group) (x : Inst) (lane : Nat) (hr : Nat) (c : Nat) (value : Nat) (us :
  List Nat) (arr : List (List Byte)) (slotAddr : Nat) :
    Kept s₀ (reduceChunk s g x lane hr c value us arr slotAddr) := by
  unfold Machine.reduceChunk
  dsimp only
  split
  · exact (((h.ownCount ..).ownUnits ..).abortInst ..)
  · split
    · exact (((h.ownCount ..).ownUnits ..).abortInst ..)
    · split
      · exact ((((h.ownCount ..).ownUnits ..).applyCounts ..).queueChunk ..)
      · split
        · exact (((((h.ownCount ..).ownUnits ..).applyCounts ..).writeUnits ..).abortInst ..)
        · split
          · exact ((((((h.ownCount ..).ownUnits ..).applyCounts ..).writeUnits ..).writeCount ..).queueChunk ..)
          · exact (((((h.ownCount ..).ownUnits ..).applyCounts ..).writeUnits ..).writeCount ..)

theorem Kept.gatherChunk (h : Kept s₀ s) (g : Group) (x : Inst) (lane : Nat) (hr : Nat) (c : Nat) (value : Nat) (us :
  List Nat) (arr : List (List Byte)) :
    Kept s₀ (gatherChunk s g x lane hr c value us arr) := by
  unfold Machine.gatherChunk
  dsimp only
  split
  · exact (((h.countFlushed ..).writeUnits ..).abortInst ..)
  · split
    · exact (((h.countFlushed ..).writeUnits ..).queueChunk ..)
    · exact ((h.countFlushed ..).writeUnits ..)

theorem Kept.ringData (h : Kept s₀ s) (g : Group) (x : Inst) (slot : Nat) (l : CtrlLine) :
    Kept s₀ (ringData s g x slot l) := by
  unfold Machine.ringData
  dsimp only
  split
  · exact (h.mismatchInst ..)
  · split
    · exact (h.mismatchInst ..)
    · split
      · exact ((h.memRead ..).abortInst ..)
      · exact (((Kept.ite (((h.memRead ..).setInst ..).reduceChunk ..) (((h.memRead ..).setInst ..).gatherChunk
          ..)).returnCredit ..).ringCheck ..)

theorem Kept.barrierUp (h : Kept s₀ s) (g : Group) (x : Inst) : Kept s₀ (barrierUp s g x) := by
  unfold Machine.barrierUp
  split
  · exact h
  · split
    · exact ((h.queueDown ..).completeInst ..)
    · exact (h.queueUp ..)

theorem Kept.bcastCheck (h : Kept s₀ s) (idx : Nat) : Kept s₀ (bcastCheck s idx) := by
  unfold Machine.bcastCheck
  split
  · split
    · exact (h.completeInst ..)
    · exact h
  · exact h

theorem Kept.bcastSend (g : Group) (x : Inst) (bs : List Byte) (n c : Nat) (h : Kept s₀ s) :
    Kept s₀ (bcastSend g x bs n c s) := by
  induction n generalizing c s with
  | zero => exact h
  | succ n ih => exact ih _ (h.queueDown ..)

theorem Kept.startBcast (h : Kept s₀ s) (g : Group) (x : Inst) : Kept s₀ (startBcast s g x) := by
  unfold Machine.startBcast
  split
  · exact h
  · dsimp only
    split
    · exact ((h.memRead ..).abortInst ..)
    · split
      · exact (((h.memRead ..).memWrite ..).abortInst ..)
      · exact ((((h.memRead ..).memWrite ..).bcastSend ..).bcastCheck ..)

theorem Kept.bcastData (h : Kept s₀ s) (g : Group) (x : Inst) (slot : Nat) (l : CtrlLine) :
    Kept s₀ (bcastData s g x slot l) := by
  unfold Machine.bcastData
  dsimp only
  split
  · exact (h.mismatchInst ..)
  · split
    · exact ((h.memRead ..).abortInst ..)
    · split
      · exact (((h.memRead ..).memWrite ..).abortInst ..)
      · exact ((((((h.memRead ..).memWrite ..).setInst ..).queueDown ..).returnCredit ..).bcastCheck ..)

theorem Kept.stepEndDeliver (h : Kept s₀ s) (g : Group) (x : Inst) (ws : List Word64) :
    Kept s₀ (stepEndDeliver s g x ws) := (Kept.ite ((Kept.ite1 h (h.memWrite ..)).abortInst ..) ((Kept.queueDown (by
      split; exacts [(Kept.ite1 h (h.memWrite ..)).upd, (Kept.ite1 h (h.memWrite ..))]) ..).completeInst ..))

theorem Kept.stepEndUp (h : Kept s₀ s) (g : Group) (x : Inst) : Kept s₀ (stepEndUp s g x) := by
  unfold Machine.stepEndUp
  split
  · exact h
  · split
    · exact ((h.finishPayload ..).stepEndDeliver ..)
    · exact (h.queueUp ..)

theorem Kept.startHold (h : Kept s₀ s) (g : Group) (x : Inst) : Kept s₀ (startHold s g x) :=
  (h.setInst ..).stepEndUp ..

theorem Kept.startStepEnd (h : Kept s₀ s) (g : Group) (x : Inst) : Kept s₀ (startStepEnd s g x) := by
  unfold Machine.startStepEnd
  split
  · exact (h.startHold ..)
  · dsimp only
    split
    · exact ((h.memRead ..).abortInst ..)
    · split
      · exact ((h.memRead ..).abortInst ..)
      · split
        · exact (((h.memRead ..).memRead ..).abortInst ..)
        · exact ((((h.memRead ..).memRead ..).setInst ..).stepEndUp ..)

theorem Kept.stepEndData (h : Kept s₀ s) (g : Group) (x : Inst) (slot : Nat) (l : CtrlLine) :
    Kept s₀ (stepEndData s g x slot l) := by
  unfold Machine.stepEndData
  dsimp only
  split
  · exact ((h.memRead ..).abortInst ..)
  · split
    · exact ((h.memRead ..).mismatchInst ..)
    · split
      · exact ((h.memRead ..).abortInst ..)
      · split
        · split
          · exact ((h.memRead ..).mismatchInst ..)
          · exact (((h.memRead ..).returnCredit ..).stepEndDeliver ..)
        · split
          · exact ((h.memRead ..).mismatchInst ..)
          · exact ((((h.memRead ..).returnCredit ..).setInst ..).stepEndUp ..)

end Sys2Proof.Machine
end

section
/-! PROOFS. The operations of Machine/FabricRun keep the canonical form of memory and the shape of the state. -/

namespace Sys2Proof.Machine

variable {s₀ s t : State}

theorem Kept.sendToNode (h : Kept s₀ s) (i : Nat) (q : Queue) (e : QEntry) (n : Nat) (a : Nat) (bs : List Byte) :
    Kept s₀ (sendToNode s i q e n a bs) := by
  unfold Machine.sendToNode
  split
  · exact (h.entryFault ..)
  · exact ((h.setAwaits ..).sendWrites ..)

theorem Kept.roceEntry (h : Kept s₀ s) (i : Nat) (e : QEntry) (o : RoceOp) : Kept s₀ (roceEntry s i e o) := by
  unfold Machine.roceEntry
  dsimp only
  split
  · exact ((h.setAwaits ..).roceSendOn ..)
  · exact (h.entryFault ..)

theorem Kept.runFput (h : Kept s₀ s) (i : Nat) (e : QEntry) : Kept s₀ (runFput s i e) := by
  unfold Machine.runFput
  dsimp only
  split
  · exact ((h.readPlace ..).entryFault ..)
  · split
    · exact ((h.readPlace ..).roceEntry ..)
    · split
      · exact ((h.readPlace ..).sendToNode ..)
      · exact (((h.readPlace ..).writePlace ..).endEntry ..)

theorem Kept.runFget (h : Kept s₀ s) (i : Nat) (e : QEntry) : Kept s₀ (runFget s i e) := by
  unfold Machine.runFget
  dsimp only
  split
  · exact (h.roceEntry ..)
  · split
    · split
      · exact (h.entryFault ..)
      · exact ((h.setAwaits ..).sendReads ..)
    · split
      · exact ((h.readPlace ..).entryFault ..)
      · exact ((h.readPlace ..).noteData ..)

theorem Kept.finishFget (h : Kept s₀ s) (i : Nat) (e : QEntry) : Kept s₀ (finishFget s i e) :=
  (h.writePlace ..).endEntry ..

theorem Kept.runFsend (h : Kept s₀ s) (i : Nat) (e : QEntry) : Kept s₀ (runFsend s i e) := h.roceEntry ..

theorem Kept.takeTag (h : Kept s₀ s) : Kept s₀ (takeTag s).2 := h.upd

theorem Kept.runFatom (h : Kept s₀ s) (i : Nat) (e : QEntry) : Kept s₀ (runFatom s i e) := by
  unfold Machine.runFatom
  split
  · split
    · exact (h.entryFault ..)
    · exact ((h.takeTag.setAwaits ..).sendRequest ..)
  · dsimp only
    split
    · exact ((h.atomicAt ..).noteData ..)
    · exact ((h.atomicAt ..).endEntry ..)
  · exact (h.entryFault ..)

theorem Kept.finishFatom (h : Kept s₀ s) (i : Nat) (e : QEntry) : Kept s₀ (finishFatom s i e) := h.writeG ..

theorem Kept.runFred (h : Kept s₀ s) (i : Nat) (e : QEntry) : Kept s₀ (runFred s i e) := by
  unfold Machine.runFred
  dsimp only
  split
  · split
    · exact (h.entryFault ..)
    · exact ((h.setAwaits ..).foldl _ (fun _ _ h1 => (h1.sendRequest ..)))
  · exact ((h.reduceAt ..).endEntry ..)
  · exact (h.entryFault ..)

theorem Kept.gatherOne {p : State × Option Nat} (h : Kept s₀ p.1) (i : Nat) (qid : Nat) (k : Nat) (v : Word64) :
    Kept s₀ (gatherOne i qid p k v).1 := by
  unfold Machine.gatherOne
  split
  · exact h
  · split
    · exact h
    · split
      · split
        · exact h
        · exact ((h.setEntry ..).sendRequest ..)
      · dsimp only
        split
        · exact (h.readPlace ..)
        · exact ((h.readPlace ..).noteData ..)

theorem Kept.gatherList (i qid : Nat) (l : List (Word64 × Nat)) {p : State × Option Nat} (h : Kept s₀ p.1) :
    Kept s₀ (gatherList i qid l p).1 := by
  induction l generalizing p with
  | nil => exact h
  | cons v l ih => exact ih (h.gatherOne ..)

theorem Kept.runFgath (h : Kept s₀ s) (i : Nat) (e : QEntry) : Kept s₀ (runFgath s i e) := (h.gatherList ..).endEntry
  ..

theorem Kept.finishFgath (h : Kept s₀ s) (i : Nat) (e : QEntry) : Kept s₀ (finishFgath s i e) := h.writeBytes ..

end Sys2Proof.Machine
end

section
/-! PROOFS. The operations of Machine/CollRun keep the canonical form of memory and the shape of the state. -/

namespace Sys2Proof.Machine

variable {s₀ s t : State}

theorem Kept.readPieces (h : Kept s₀ s) (ps : List (Nat × Nat)) : Kept s₀ (readPieces s ps).1 := by
  induction ps generalizing s with
  | nil => exact h
  | cons p ps ih => exact ih (h.memRead ..)

theorem Kept.beginCapture (h : Kept s₀ s) (g : Group) (x : Inst) : Kept s₀ (beginCapture s g x) := by
  unfold Machine.beginCapture
  dsimp only
  split
  · exact ((h.readPieces ..).abortInst ..)
  · split
    · exact (((h.readPieces ..).memWrite ..).abortInst ..)
    · exact (((h.readPieces ..).memWrite ..).upd.setInst ..)

theorem Kept.pumpStream (h : Kept s₀ s) : Kept s₀ (pumpStream s) := by
  unfold Machine.pumpStream
  split
  · exact h
  · split
    · exact h
    · exact ((h.memRead ..).upd.roceIssue ..)

theorem Kept.startStream (h : Kept s₀ s) (x : Inst) : Kept s₀ (startStream s x) := by
  unfold Machine.startStream
  dsimp only
  split
  · exact h
  · exact (h.upd.putF ..).pumpStream

theorem Kept.finishSnap (h : Kept s₀ s) (g : Group) (x : Inst) : Kept s₀ (finishSnap s g x) :=
  ((h.queueDown ..).startStream ..).completeInst ..

theorem Kept.snapUp (h : Kept s₀ s) (g : Group) (x : Inst) : Kept s₀ (snapUp s g x) := by
  unfold Machine.snapUp
  split
  · exact h
  · split
    · split
      · exact ((h.queueDown ..).beginCapture ..)
      · exact (h.finishSnap ..)
    · exact (h.queueUp ..)

theorem Kept.snapFence (h : Kept s₀ s) (g : Group) (x : Inst) : Kept s₀ (snapFence s g x) := by
  unfold Machine.snapFence
  split
  · exact ((h.setInst ..).snapUp ..)
  · exact h

theorem Kept.pollOne (h : Kept s₀ s) (x : Inst) : Kept s₀ (pollOne s x) := by
  unfold Machine.pollOne
  split
  · split
    · exact (h.snapFence ..)
    · split
      · exact (h.ringCheck ..)
      · exact (h.bcastCheck ..)
  · exact h

theorem Kept.pollColl (h : Kept s₀ s) : Kept s₀ (pollColl s) := (h.foldl _ (fun _ _ h1 => (h1.pollOne ..))).pumpStream

theorem Kept.startBarrier (h : Kept s₀ s) (g : Group) (x : Inst) : Kept s₀ (startBarrier s g x) :=
  (h.setInst ..).barrierUp ..

theorem Kept.startSnap (h : Kept s₀ s) (g : Group) (x : Inst) : Kept s₀ (startSnap s g x) := by
  unfold Machine.startSnap
  split
  · exact (h.abortInst ..)
  · exact ((h.putF ..).snapFence ..)

theorem Kept.runInst (h : Kept s₀ s) (g : Group) (x : Inst) : Kept s₀ (runInst s g x) := by
  unfold Machine.runInst
  split
  · exact (h.startBarrier ..)
  · exact (h.startSnap ..)
  · exact (h.startBcast ..)
  · exact (h.startStepEnd ..)
  · exact (h.startRing ..)

theorem Kept.runColl (h : Kept s₀ s) (i : CoreId) (e : QEntry) : Kept s₀ (runColl s i e) := by
  unfold Machine.runColl
  split
  · exact (h.entryFault ..)
  · dsimp only
    split
    · exact ((((h.setGroupEntry ..).setAwaits ..).setInst ..).failInst ..)
    · split
      · exact ((((h.setGroupEntry ..).setAwaits ..).setInst ..).abortInst ..)
      · exact ((((h.setGroupEntry ..).setAwaits ..).setInst ..).runInst ..)

theorem Kept.discardLine (h : Kept s₀ s) (g : Group) (slot : Nat) (l : CtrlLine) : Kept s₀ (discardLine s g slot l) :=
  h.returnCredit ..

theorem Kept.releaseAgain (h : Kept s₀ s) (g : Group) (x : Inst) (l : CtrlLine) : Kept s₀ (releaseAgain s g x l) := by
  unfold Machine.releaseAgain
  dsimp only
  split
  · exact (h.queueUp ..)
  · split
    · exact h
    · split
      · exact ((h.queueLine ..).drainGroup ..)
      · exact ((h.queueLine ..).drainGroup ..)
      · exact ((h.queueLine ..).drainGroup ..)
      · exact h

theorem Kept.runAgain (h : Kept s₀ s) (g : Group) (x : Inst) : Kept s₀ (runAgain s g x) :=
  ((h.setGroupEntry ..).setInst ..).runInst ..

theorem Kept.oldLine (h : Kept s₀ s) (g : Group) (slot : Nat) (l : CtrlLine)
    (f : Group → Inst → CtrlLine → State → State)
    (hf : ∀ g x l t, Kept s₀ t → Kept s₀ (f g x l t)) : Kept s₀ (oldLine s g slot l f) := by
  unfold Machine.oldLine
  split
  · exact h.discardLine ..
  · split
    · dsimp only
      split
      · exact hf _ _ _ _ (h.runAgain ..)
      · exact h.runAgain ..
    · exact .ite ((h.discardLine ..).releaseAgain ..) (h.discardLine ..)

theorem Kept.resumeOne (h : Kept s₀ s) (g : Group) : Kept s₀ (resumeOne s g) := by
  unfold Machine.resumeOne
  split
  · split
    · exact (((h.setGroupEntry ..).setInst ..).runInst ..)
    · exact h
  · exact h

theorem Kept.resumeLater (h : Kept s₀ s) : Kept s₀ (resumeLater s) := h.foldl _ (fun _ _ h1 => (h1.resumeOne ..))

theorem Kept.takeLine (h : Kept s₀ s) (idx slot kind : Nat) (f : Group → Inst → CtrlLine → State → State)
    (hf : ∀ g x l t, Kept s₀ t → Kept s₀ (f g x l t)) : Kept s₀ (takeLine s idx slot kind f) := by
  unfold Machine.takeLine
  refine Kept.resumeLater ?_
  split
  · exact h
  · exact h
  · exact (h.satF ..).discardLine ..
  · exact h.discardLine ..
  · exact h.oldLine _ _ _ _ hf
  · exact hf _ _ _ _ h
  · exact h.mismatchInst ..

theorem Kept.onData (h : Kept s₀ s) (slot : Nat) (g : Group) (x : Inst) (l : CtrlLine) :
    Kept s₀ (onData slot g x l s) := by
  unfold Machine.onData
  split
  · exact (h.bcastData ..)
  · exact (h.stepEndData ..)
  · exact (h.mismatchInst ..)
  · exact (h.mismatchInst ..)
  · split
    · exact (h.mismatchInst ..)
    · exact (h.ringData ..)

theorem Kept.kidIn (h : Kept s₀ s) (g : Group) (x : Inst) (l : CtrlLine) : Kept s₀ (kidIn s g x l).1 :=
  (h.returnCredit ..).setInst ..

theorem Kept.onArrive (h : Kept s₀ s) (g : Group) (x : Inst) (l : CtrlLine) : Kept s₀ (onArrive g x l s) := by
  unfold Machine.onArrive
  split
  · exact (h.mismatchInst ..)
  · dsimp only
    split
    · exact ((h.kidIn ..).barrierUp ..)
    · split
      · split
        · exact ((h.kidIn ..).snapUp ..)
        · exact ((h.kidIn ..).snapFence ..)
      · exact (h.mismatchInst ..)

theorem Kept.onRelease (h : Kept s₀ s) (g : Group) (x : Inst) (l : CtrlLine) : Kept s₀ (onRelease g x l s) := by
  unfold Machine.onRelease
  split
  · exact (h.mismatchInst ..)
  · dsimp only
    split
    · exact (((h.returnCredit ..).queueDown ..).completeInst ..)
    · split
      · exact (((h.returnCredit ..).queueDown ..).beginCapture ..)
      · split
        · exact ((h.returnCredit ..).finishSnap ..)
        · exact ((h.returnCredit ..).mismatchInst ..)

theorem Kept.onDone (h : Kept s₀ s) (g : Group) (x : Inst) (l : CtrlLine) : Kept s₀ (onDone g x l s) := by
  unfold Machine.onDone
  split
  · exact ((h.kidIn ..).snapUp ..)
  · exact (h.mismatchInst ..)

theorem Kept.captureComplete (h : Kept s₀ s) (idx : Nat) : Kept s₀ (captureComplete s idx) := by
  unfold Machine.captureComplete
  split
  · split
    · exact ((h.upd.setInst ..).snapUp ..)
    · exact h
  · exact h

theorem Kept.floodAbort (h : Kept s₀ s) (g : Group) (l : CtrlLine) : Kept s₀ (floodAbort s g l) :=
  h.foldl _ (fun _ _ h1 => (h1.sendSlot27 ..))

theorem Kept.noteAborted (h : Kept s₀ s) (g : Group) (l : CtrlLine) : Kept s₀ (noteAborted s g l) := by
  unfold Machine.noteAborted
  split
  · exact (h.setGroupEntry ..)
  · exact h

theorem Kept.onAbort (h : Kept s₀ s) (g : Group) (l : CtrlLine) : Kept s₀ (onAbort s g l) := by
  unfold Machine.onAbort
  dsimp only
  split
  · exact (h.returnCredit ..)
  · split
    · exact (((h.returnCredit ..).floodAbort ..).failInst ..)
    · split
      · exact (((h.returnCredit ..).floodAbort ..).noteAborted ..)
      · exact ((h.returnCredit ..).floodAbort ..)

theorem Kept.takeAbort (h : Kept s₀ s) (idx : Nat) (slot : Nat) : Kept s₀ (takeAbort s idx slot) := by
  unfold Machine.takeAbort
  split
  · exact h
  · dsimp only
    split
    · exact ((h.satF ..).discardLine ..)
    · split
      · exact h
      · split
        · exact (h.discardLine ..)
        · exact (h.onAbort ..)

theorem Kept.takeCredit (h : Kept s₀ s) (idx : Nat) (rel : Nat) : Kept s₀ (takeCredit s idx rel) := by
  unfold Machine.takeCredit
  split
  · exact h
  · split
    · exact h
    · dsimp only
      split
      · exact h
      · exact ((h.setGroupEntry ..).drainGroup ..).pollColl.resumeLater

theorem Kept.collStall (h : Kept s₀ s) (idx : Nat) : Kept s₀ (collStall s idx) := by
  unfold Machine.collStall
  split
  · dsimp only
    split
    · exact h
    · exact ((((h.setInst ..).satF ..).makeRecord ..).postRecord ..)
  · exact h

theorem Kept.groupAct (h : Kept s₀ s) (idx : Nat) : Kept s₀ (groupAct s idx) := by
  unfold Machine.groupAct
  split
  · exact h
  · dsimp only
    split
    · exact (h.setGroupEntry ..)
    · exact (h.makeRecord ..)

theorem Kept.groupDeact (h : Kept s₀ s) (idx : Nat) : Kept s₀ (groupDeact s idx) :=
  Kept.upd (by split; exacts [(h.failInst ..), h])

theorem Kept.offerLast (h : Kept s₀ s) (g : Group) : Kept s₀ (offerLast s g) := by
  unfold Machine.offerLast
  split
  · exact h
  · split
    · dsimp only
      split
      · exact ((h.memRead ..).bcastSend ..)
      · exact h
    · split
      · exact h
      · split
        · exact (h.queueUp ..)
        · exact (h.queueUp ..)

theorem Kept.restartInst (h : Kept s₀ s) (g : Group) : Kept s₀ (restartInst s g) := by
  unfold Machine.restartInst
  dsimp only
  split
  · exact (((((h.setGroupEntry ..).offerLast ..).satF ..).upd.setInst ..).runInst ..)
  · exact ((h.setGroupEntry ..).offerLast ..)

end Sys2Proof.Machine
end

section
/-! PROOFS. The operations of Machine/Pump keep the canonical form of memory and the shape of the state. -/

namespace Sys2Proof.Machine

variable {s₀ s t : State}

theorem Kept.runVec (h : Kept s₀ s) (i : Nat) (e : QEntry) : Kept s₀ (runVec s i e) := by
  unfold Machine.runVec
  split
  · exact (h.coreStoreFault ..)
  · split
    · exact (h.runVadd ..)
    · exact (h.runVsub ..)
    · exact (h.runVmul ..)
    · exact (h.runVmin ..)
    · exact (h.runVmax ..)
    · exact (h.runVcmp ..)
    · exact (h.runVsel ..)
    · exact (h.runVabs ..)
    · exact (h.runVneg ..)
    · exact (h.runVshl ..)
    · exact (h.runVrsh ..)
    · exact (h.runVresc ..)
    · exact (h.runVmov ..)
    · exact (h.runVsplat ..)
    · exact (h.runVmovg ..)
    · exact (h.runVradd ..)
    · exact (h.runVld ..)
    · exact (h.runVst ..)
    · exact (h.runVqnt ..)
    · exact (h.runVcvt ..)
    · exact (h.runVrsum ..)
    · exact (h.runVrmax ..)
    · exact (h.runVrcnt ..)
    · exact (h.runVrssq ..)
    · exact (h.runVsqadd ..)
    · exact (h.runVact ..)
    · exact (h.runVumu ..)
    · exact (h.runVupd ..)
    · exact (h.runVgacc ..)
    · exact (h.runVrand ..)
    · exact (h.runVmark ..)
    · exact h

theorem Kept.runTongs (h : Kept s₀ s) (i : Nat) (e : QEntry) : Kept s₀ (runTongs s i e) := by
  unfold Machine.runTongs
  split
  · exact (h.runMcopy ..)
  · exact (h.runMfill ..)

theorem Kept.runFab (h : Kept s₀ s) (i : CoreId) (e : QEntry) : Kept s₀ (runFab s i e) := by
  unfold Machine.runFab
  split
  · exact (h.runFput ..)
  · exact (h.runFget ..)
  · exact (h.runFsend ..)
  · exact (h.runFatom ..)
  · exact (h.runFred ..)
  · exact (h.runFgath ..)
  · exact (h.runColl ..)

theorem Kept.sourceFault (h : Kept s₀ s) {i : Nat} {q : Queue} {e : QEntry} (ht : sourceFault s i q e = some t) :
    Kept s₀ t := by
  unfold Machine.sourceFault at ht
  split at ht
  · cases ht
  · split at ht
    · cases ht; exact h.coreStoreFault ..
    · split at ht
      · cases ht; exact (h.countCsUe ..).entryFault ..
      · cases ht
    · cases ht

theorem Kept.finishEntry (h : Kept s₀ s) (i : Nat) (e : QEntry) : Kept s₀ (finishEntry s i e) := by
  unfold Machine.finishEntry
  split
  · exact h
  · split
    · exact (h.finishMcopy ..)
    · split
      · exact (h.finishFget ..)
      · split
        · exact (h.finishFatom ..)
        · split
          · exact (h.finishFgath ..)
          · exact h

theorem Kept.removeEntry (h : Kept s₀ s) (i : Nat) (q : Queue) (qid : Nat) : Kept s₀ (removeEntry s i q qid) :=
  h.modCore _ fun c hc => by simpa using hc

theorem Kept.entrySignal (h : Kept s₀ s) (i : Nat) (q : Queue) (e : QEntry) : Kept s₀ (entrySignal s i q e) :=
  h.signalDone ..

theorem Kept.markStarted (h : Kept s₀ s) (i : Nat) (q : Queue) (qid : Nat) (fin : Bool) :
    Kept s₀ (markStarted s i q qid fin) := h.setEntry ..

theorem Kept.holdWait (h : Kept s₀ s) (i : Nat) (k : CtxId) (place : WaitPlace) (counter : Nat) (n : Nat) (sigen :
  Bool) (sigc : Nat) (pc : Nat) :
    Kept s₀ (holdWait s i k place counter n sigen sigc pc) := h.modCoreRest ..

theorem Kept.askVector (h : Kept s₀ s) (i : CoreId) : Kept s₀ (askVector s i) := by
  unfold Machine.askVector
  split
  · exact h
  · exact (h.addGrants ..)

theorem Kept.startNext (h : Kept s₀ s) (i : CoreId) (q : Queue) : Kept s₀ (startNext s i q).1 := by
  unfold Machine.startNext
  split
  · exact h
  · refine .ite1 h (.ite1 (h.markStarted ..) (.ite1 (.ite1 (h.entryFault ..) ?_) (.ite1 (.ite1 ?_ (.ite1 h ?_)) ?_)))
    · exact ((h.writeSc ..).removeEntry ..).entrySignal ..
    · exact (h.removeEntry ..).entrySignal ..
    · exact h.holdWait ..
    · refine .ite1 h (.ite1 h ?_)
      split
      · refine .ite1 h (.ite1 (Kept.runVec ?_ ..) (h.askVector ..))
        exact (h.markStarted ..).modCore _ fun _ hc => hc
      · refine .ite1 h ?_
        split
        · next hfault => exact h.sourceFault hfault
        · exact (h.markStarted ..).runTongs ..
      · refine .ite1 h ?_
        split
        · next hfault => exact h.sourceFault hfault
        · exact (h.markStarted ..).runFab ..
      · exact h

theorem Kept.pumpN (i : CoreId) (q : Queue) (n : Nat) (h : Kept s₀ s) : Kept s₀ (pumpN i q n s) := by
  induction n generalizing s with
  | zero => exact h
  | succ n ih => exact .ite (ih (h.startNext ..)) (h.startNext ..)

theorem Kept.pumpQueue (h : Kept s₀ s) (i : CoreId) (q : Queue) : Kept s₀ (pumpQueue s i q) := h.pumpN ..

theorem Kept.pumpCore (h : Kept s₀ s) (i : CoreId) : Kept s₀ (pumpCore s i) :=
  h.foldl _ (fun _ _ h1 => (h1.pumpQueue ..))

theorem Kept.pumpFabrics (h : Kept s₀ s) : Kept s₀ (pumpFabrics s) :=
  h.foldl _ (fun _ _ h1 => ((h1.pumpQueue ..).pumpQueue ..))

theorem Kept.pumpAll (h : Kept s₀ s) : Kept s₀ (pumpAll s) := h.foldl _ (fun _ _ h1 => (h1.pumpCore ..))

theorem Kept.completeOldest (h : Kept s₀ s) (i : CoreId) (q : Queue) : Kept s₀ (completeOldest s i q) := by
  unfold Machine.completeOldest
  split
  · exact h
  · dsimp only
    split
    · exact (h.finishEntry ..)
    · exact (((h.finishEntry ..).removeEntry ..).entrySignal ..)

theorem Kept.instructionComplete (h : Kept s₀ s) (i : CoreId) (q : Queue) : Kept s₀ (instructionComplete s i q) := by
  unfold Machine.instructionComplete
  split
  · exact h
  · exact ((h.completeOldest ..).pollColl.pumpQueue ..).pumpFabrics

theorem Kept.lanesPump (h : Kept s₀ s) (i : CoreId) : Kept s₀ (lanesPump s i) := (h.pumpQueue ..).pumpQueue ..

theorem Kept.dropWait (h : Kept s₀ s) (i : Nat) (hr : Held) : Kept s₀ (dropWait s i hr) := h.modCoreRest ..

theorem Kept.waitRelease (h : Kept s₀ s) (i : CoreId) (place : WaitPlace) : Kept s₀ (waitRelease s i place) := by
  unfold Machine.waitRelease
  split
  · exact h
  · split
    · exact h
    · dsimp only
      split
      · exact (((((h.writeSc ..).dropWait ..).setCtxAt ..).advance ..).signalDone ..)
      · exact ((Kept.signalDone (by split; exacts [(((h.writeSc ..).dropWait ..).removeEntry ..), ((h.writeSc
          ..).dropWait ..)]) ..).pumpQueue ..)

theorem Kept.waitTimeout (h : Kept s₀ s) (i : CoreId) (place : WaitPlace) : Kept s₀ (waitTimeout s i place) := by
  unfold Machine.waitTimeout
  split
  · exact h
  · dsimp only
    split
    · exact h
    · split
      · exact (h.faultAbort ..)
      · exact (h.faultAbort ..)

theorem Kept.fenceRelease (h : Kept s₀ s) (i : Nat) (k : CtxId) : Kept s₀ (fenceRelease s i k) := by
  unfold Machine.fenceRelease
  split
  · split
    · exact h
    · exact (((h.setCtxAt ..).advance ..).signalDone ..)
  · exact h

end Sys2Proof.Machine
end

section
/-! PROOFS. The operations of Machine/Recorder keep the canonical form of memory and the shape of the state. -/

namespace Sys2Proof.Machine

variable {s₀ s t : State}

theorem Kept.placeRec (h : Kept s₀ s) (src : Nat) (typ : Nat) (time : Nat) (body : List Word64) :
    Kept s₀ (placeRec s src typ time body) := by
  unfold Machine.placeRec
  dsimp only
  split
  · exact (h.upd.putF ..)
  · exact h.upd

theorem Kept.anchorIfDue (h : Kept s₀ s) : Kept s₀ (anchorIfDue s) := by
  unfold Machine.anchorIfDue
  dsimp only
  split
  · exact h
  · exact (h.placeRec ..).upd

theorem Kept.writeRec (h : Kept s₀ s) (r : Rec) : Kept s₀ (writeRec s r) := h.anchorIfDue.placeRec ..

theorem Kept.holdRec (h : Kept s₀ s) (r : Rec) : Kept s₀ (holdRec s r) := by
  unfold Machine.holdRec
  split
  · exact (h.upd.putF ..)
  · exact h.upd

theorem Kept.eventRecord (h : Kept s₀ s) : Kept s₀ (eventRecord s) := by
  unfold Machine.eventRecord
  split
  · exact h
  · dsimp only
    split
    · exact (h.upd.holdRec ..)
    · exact (h.upd.writeRec ..)

theorem Kept.freezeRing (h : Kept s₀ s) : Kept s₀ (freezeRing s) := by
  unfold Machine.freezeRing
  split
  · exact h
  · exact (h.upd.putF ..)

theorem Kept.thawRing (h : Kept s₀ s) : Kept s₀ (thawRing s) := by
  unfold Machine.thawRing
  split
  · exact h
  · exact (((h.upd.putF ..).putF ..).anchorIfDue.foldl _ (fun _ _ h1 => (h1.writeRec ..)))

theorem Kept.evrControl (h : Kept s₀ s) (freeze : Bool) (thaw : Bool) : Kept s₀ (evrControl s freeze thaw) := by
  unfold Machine.evrControl
  split
  · exact h
  · split
    · exact h.freezeRing
    · split
      · exact h.thawRing
      · exact h

theorem Kept.freeze (h : Kept s₀ s) (agent : Nat) : Kept s₀ (freeze s agent) := by
  unfold Machine.freeze
  split
  · exact (h.evrControl ..)
  · exact h

theorem Kept.thaw (h : Kept s₀ s) (agent : Nat) : Kept s₀ (thaw s agent) := by
  unfold Machine.thaw
  split
  · exact (h.evrControl ..)
  · exact h

theorem Kept.freezeExpiry (h : Kept s₀ s) : Kept s₀ (freezeExpiry s) := by
  unfold Machine.freezeExpiry
  split
  · exact h
  · split
    · exact h
    · exact (h.thawRing.putF ..)

theorem Kept.damageBlock (h : Kept s₀ s) (word : Nat) : Kept s₀ (damageBlock s word) := h.upd

theorem Kept.windowWord (h : Kept s₀ s) (w : Nat) : Kept s₀ (windowWord s w).1 := by
  unfold Machine.windowWord
  dsimp only
  split
  · exact (h.damageBlock ..)
  · exact h

theorem Kept.evrWindowRead (h : Kept s₀ s) (agent : Nat) (w : Nat) (eccErr : Bool) :
    Kept s₀ (evrWindowRead s agent w eccErr) := by
  unfold Machine.evrWindowRead
  split
  · exact h.upd
  · exact ((Kept.ite h.upd h).windowWord ..).upd

end Sys2Proof.Machine
end

section
/-! PROOFS. The operations of Machine/Mailbox keep the canonical form of memory and the shape of the state. -/

namespace Sys2Proof.Machine

variable {s₀ s t : State}

theorem Kept.queueTail (h : Kept s₀ s) (hr : Nat) (t : Task) : Kept s₀ (queueTail s hr t) := h.modHearth ..

theorem Kept.queueHead (h : Kept s₀ s) (hr : Nat) (t : Task) : Kept s₀ (queueHead s hr t) := h.modHearth ..

theorem Kept.setMbx (h : Kept s₀ s) (m : Nat) (x : Mailbox) : Kept s₀ (setMbx s m x) :=
  h.of_shape (by simp [shape, Machine.setMbx])

theorem Kept.mailboxRefused (h : Kept s₀ s) (m : Nat) (who : Nat) : Kept s₀ (mailboxRefused s m who) := h.makeRecord
  ..

theorem Kept.lockRead (h : Kept s₀ s) (agent : Nat) (m : Nat) : Kept s₀ (lockRead s agent m).1 := by
  unfold Machine.lockRead
  split
  · exact (h.setMbx ..)
  · exact h

theorem Kept.mbxLockRead (h : Kept s₀ s) (agent : Nat) (m : Nat) : Kept s₀ (mbxLockRead s agent m) := by
  unfold Machine.mbxLockRead
  split
  · exact (h.lockRead ..).upd
  · exact h

theorem Kept.freeLock (h : Kept s₀ s) (m : Nat) : Kept s₀ (freeLock s m) := h.setMbx ..

theorem Kept.mbxLockWrite (h : Kept s₀ s) (agent : Nat) (m : Nat) (v : Nat) : Kept s₀ (mbxLockWrite s agent m v) := by
  unfold Machine.mbxLockWrite
  split
  · exact (h.freeLock ..)
  · exact h

theorem Kept.mbxWindowWrite (h : Kept s₀ s) (agent : Nat) (m : Nat) (w : Nat) (v : Word32) :
    Kept s₀ (mbxWindowWrite s agent m w v) := by
  unfold Machine.mbxWindowWrite
  split
  · exact h
  · split
    · exact (h.setR ..)
    · exact (h.mailboxRefused ..)

theorem Kept.setWindow (h : Kept s₀ s) (m : Nat) (bs : List Byte) : Kept s₀ (setWindow s m bs) :=
  h.foldl _ (fun _ _ h1 => (h1.setR ..))

theorem Kept.wakeHearth (h : Kept s₀ s) (hr : Nat) : Kept s₀ (wakeHearth s hr) := by
  unfold Machine.wakeHearth
  split
  · exact h
  · split
    · exact (h.domCommand ..)
    · exact h

theorem Kept.deliverTask (h : Kept s₀ s) (m : Nat) (senderWord : Word64) : Kept s₀ (deliverTask s m senderWord) :=
  (((h.memRead ..).memWrite ..).queueTail ..).wakeHearth ..

theorem Kept.deliver (h : Kept s₀ s) (m : Nat) (senderWord : Word64) : Kept s₀ (deliver s m senderWord) := by
  unfold Machine.deliver
  dsimp only
  split
  · exact (((h.setPair ..).setMbx ..).deliverTask ..)
  · exact ((h.setPair ..).setMbx ..)

theorem Kept.postMessage (h : Kept s₀ s) (agent : Nat) (m : Nat) : Kept s₀ (postMessage s agent m) := by
  unfold Machine.postMessage
  split
  · exact h
  · split
    · exact (h.mailboxRefused ..)
    · split
      · exact (h.putF ..)
      · split
        · exact ((h.putF ..).putF ..)
        · exact ((h.deliver ..).freeLock ..)

theorem Kept.clearFull (h : Kept s₀ s) (m : Nat) : Kept s₀ (clearFull s m) := h.setMbx ..

theorem Kept.takeMessage (h : Kept s₀ s) (agent : Nat) (m : Nat) : Kept s₀ (takeMessage s agent m) := by
  unfold Machine.takeMessage
  split
  · exact (h.clearFull ..)
  · exact h

theorem Kept.lockTimeout (h : Kept s₀ s) (m : Nat) : Kept s₀ (lockTimeout s m) := by
  unfold Machine.lockTimeout
  dsimp only
  split
  · exact h
  · exact ((((h.freeLock ..).setWindow ..).putF ..).mailboxRefused ..)

theorem Kept.dequeueMailbox (h : Kept s₀ s) (m : Nat) : Kept s₀ (dequeueMailbox s m) := h.updHearths

theorem Kept.messageTimeout (h : Kept s₀ s) (m : Nat) : Kept s₀ (messageTimeout s m) := by
  unfold Machine.messageTimeout
  split
  · exact h
  · split
    · exact h
    · dsimp only
      split
      · exact ((((h.dequeueMailbox ..).clearFull ..).putF ..).putF ..)
      · exact (((h.dequeueMailbox ..).clearFull ..).postRecord ..)

end Sys2Proof.Machine
end

section
/-! PROOFS. The operations of Machine/Registers keep the canonical form of memory and the shape of the state. -/

namespace Sys2Proof.Machine

variable {s₀ s t : State}

theorem Kept.clearRC (h : Kept s₀ s) (a : Nat) : Kept s₀ (clearRC s a) := by
  unfold Machine.clearRC
  dsimp only
  split
  · split
    · exact ((Kept.ite h.upd h).setR ..)
    · split
      · exact h.upd
      · exact h
  · split
    · exact h.upd
    · exact h

theorem Kept.mgmtRead (h : Kept s₀ s) (agent : Nat) (a : Nat) : Kept s₀ (mgmtRead s agent a).1 := by
  unfold Machine.mgmtRead
  split
  · exact h
  · split
    · exact (h.lockRead ..)
    · split
      · exact (h.windowWord ..)
      · exact (h.clearRC ..)

theorem Kept.readClear (h : Kept s₀ s) (agent : Nat) (a : Nat) : Kept s₀ (readClear s agent a) := by
  unfold Machine.readClear
  split
  · exact h.upd
  · exact (h.mgmtRead ..).upd

end Sys2Proof.Machine
end

section
/-! PROOFS. The operations of Machine/CoreControl keep the canonical form of memory and the shape of the state. -/

namespace Sys2Proof.Machine

variable {s₀ s t : State}

theorem Kept.orFault (h : Kept s₀ s) (i : Nat) (k : CtxId) (f : Option Nat) (ht : Kept s₀ t) : Kept s₀ (orFault s i k
  f t) := by
  unfold Machine.orFault
  split
  · exact h.issueFault ..
  · exact ht

theorem Kept.issueNop (h : Kept s₀ s) (i : Nat) (k : CtxId) (f : Fields) : Kept s₀ (issueNop s i k f) :=
  h.issueCtl _ _ _ _ _ _ (fun _ h1 => (h1.completeCtl ..))

theorem Kept.takeBranch (h : Kept s₀ s) (i : Nat) (k : CtxId) (f : Fields) (target : Nat) :
    Kept s₀ (takeBranch s i k f target) := (h.branchTo ..).signalDone ..

theorem Kept.issueBr (h : Kept s₀ s) (i : Nat) (k : CtxId) (f : Fields) : Kept s₀ (issueBr s i k f) :=
  h.issueCtl _ _ _ _ _ _ (fun _ h1 => (h1.orFault _ _ _ (h1.takeBranch ..)))

theorem Kept.issueBri (h : Kept s₀ s) (i : Nat) (k : CtxId) (f : Fields) : Kept s₀ (issueBri s i k f) :=
  h.issueCtl _ _ _ _ _ _ (fun _ h1 => (h1.orFault _ _ _ (h1.takeBranch ..)))

theorem Kept.issueBrl (h : Kept s₀ s) (i : Nat) (k : CtxId) (f : Fields) : Kept s₀ (issueBrl s i k f) :=
  h.issueCtl _ _ _ _ _ _ (fun _ h1 => (h1.orFault _ _ _ ((h1.writeG ..).takeBranch ..)))

theorem Kept.pushLoop (h : Kept s₀ s) (i : Nat) (k : CtxId) (f : Fields) (n : Nat) : Kept s₀ (pushLoop s i k f n) :=
  h.setCtxAt ..

theorem Kept.skipLoop (h : Kept s₀ s) (i : Nat) (k : CtxId) (f : Fields) : Kept s₀ (skipLoop s i k f) :=
  (h.setCtxAt ..).signalDone ..

theorem Kept.issueLoop (h : Kept s₀ s) (i : Nat) (k : CtxId) (f : Fields) : Kept s₀ (issueLoop s i k f) :=
  h.issueCtl _ _ _ _ _ _ (fun _ h1 => (h1.orFault _ _ _ (Kept.ite (h1.skipLoop ..) (Kept.ite (h1.issueFault ..)
    ((h1.pushLoop ..).signalDone ..)))))

theorem Kept.issueSetp (h : Kept s₀ s) (i : Nat) (k : CtxId) (f : Fields) : Kept s₀ (issueSetp s i k f) :=
  h.issueCtl _ _ _ _ _ _ (fun _ h1 => ((h1.writeP ..).completeCtl ..))

theorem Kept.issuePlog (h : Kept s₀ s) (i : Nat) (k : CtxId) (f : Fields) : Kept s₀ (issuePlog s i k f) :=
  h.issueCtl _ _ _ _ _ _ (fun _ h1 => ((h1.writeP ..).completeCtl ..))

theorem Kept.issueMovi (h : Kept s₀ s) (i : Nat) (k : CtxId) (f : Fields) : Kept s₀ (issueMovi s i k f) :=
  h.issueCtl _ _ _ _ _ _ (fun _ h1 => ((h1.writeG ..).completeCtl ..))

theorem Kept.issueAlu (h : Kept s₀ s) (i : Nat) (k : CtxId) (f : Fields) : Kept s₀ (issueAlu s i k f) :=
  h.issueCtl _ _ _ _ _ _ (fun _ h1 => ((h1.writeG ..).completeCtl ..))

theorem Kept.issueLdg (h : Kept s₀ s) (i : Nat) (k : CtxId) (f : Fields) (ecc : Bool) :
    Kept s₀ (issueLdg s i k f ecc) := h.issueCtl _ _ _ _ _ _ (fun _ h1 => (h1.orFault _ _ _ ((h1.writeG
      ..).completeCtl ..)))

theorem Kept.issueStg (h : Kept s₀ s) (i : Nat) (k : CtxId) (f : Fields) : Kept s₀ (issueStg s i k f) :=
  h.issueCtl _ _ _ _ _ _ (fun _ h1 => (h1.orFault _ _ _ ((h1.writeWord ..).completeCtl ..)))

theorem Kept.issueRdtime (h : Kept s₀ s) (i : Nat) (k : CtxId) (f : Fields) : Kept s₀ (issueRdtime s i k f) :=
  h.issueCtl _ _ _ _ _ _ (fun _ h1 => ((h1.writeG ..).completeCtl ..))

theorem Kept.issueRdreg (h : Kept s₀ s) (i : Nat) (k : CtxId) (f : Fields) : Kept s₀ (issueRdreg s i k f) :=
  h.issueCtl _ _ _ _ _ _ (fun _ h1 => (h1.orFault _ _ _ (((h1.mgmtRead ..).writeG ..).completeCtl ..)))

theorem Kept.wrregWrite (h : Kept s₀ s) (i : Nat) (off : Nat) (v : Nat) : Kept s₀ (wrregWrite s i off v) := by
  unfold Machine.wrregWrite
  split
  · exact (h.putF ..)
  · exact (h.setR ..)

theorem Kept.issueWrreg (h : Kept s₀ s) (i : Nat) (k : CtxId) (f : Fields) : Kept s₀ (issueWrreg s i k f) :=
  h.issueCtl _ _ _ _ _ _ (fun _ h1 => (h1.orFault _ _ _ ((h1.wrregWrite ..).completeCtl ..)))

theorem Kept.signalNow (h : Kept s₀ s) (i : Nat) (k : CtxId) (f : Fields) : Kept s₀ (signalNow s i k f) := by
  unfold Machine.signalNow
  dsimp only
  split
  · exact (h.issueFault ..)
  · exact ((h.writeSc ..).completeCtl ..)

theorem Kept.issueSignal (h : Kept s₀ s) (i : CoreId) (k : CtxId) (f : Fields) : Kept s₀ (issueSignal s i k f) := by
  unfold Machine.issueSignal
  split
  · exact (h.issueCtl _ _ _ _ _ _ (fun _ h1 => (h1.signalNow ..)))
  · exact ((h.issueQ ..).pumpQueue ..)

theorem Kept.waitNow (h : Kept s₀ s) (i : Nat) (k : CtxId) (f : Fields) : Kept s₀ (waitNow s i k f) := by
  unfold Machine.waitNow
  split
  · exact (h.completeCtl ..)
  · exact ((h.setCtxAt ..).holdWait ..)

theorem Kept.issueWait (h : Kept s₀ s) (i : CoreId) (k : CtxId) (f : Fields) : Kept s₀ (issueWait s i k f) := by
  unfold Machine.issueWait
  split
  · exact (h.issueCtl _ _ _ _ _ _ (fun _ h1 => (h1.waitNow ..)))
  · exact ((h.issueQ ..).pumpQueue ..)

theorem Kept.issueFence (h : Kept s₀ s) (i : Nat) (k : CtxId) (f : Fields) : Kept s₀ (issueFence s i k f) :=
  h.issueCtl _ _ _ _ _ _ (fun _ h1 => (h1.setCtxAt ..))

theorem Kept.issueDone (h : Kept s₀ s) (i : Nat) (k : CtxId) (f : Fields) : Kept s₀ (issueDone s i k f) :=
  h.issueCtl _ _ _ _ _ _ (fun _ h1 => (h1.setCtxAt ..))

theorem Kept.noteRecord (h : Kept s₀ s) (i : Nat) (k : CtxId) (f : Fields) : Kept s₀ (noteRecord s i k f) :=
  h.makeRecord ..

theorem Kept.issueNote (h : Kept s₀ s) (i : Nat) (k : CtxId) (f : Fields) : Kept s₀ (issueNote s i k f) :=
  h.issueCtl _ _ _ _ _ _ (fun _ h1 => ((h1.noteRecord ..).completeCtl ..))

theorem Kept.resumeYields (h : Kept s₀ s) (i : Nat) : Kept s₀ (resumeYields s i) :=
  (h.foldl _ (fun _ _ h1 => (Kept.ite (h1.setCtxAt ..) h1))).modCoreRest ..

theorem Kept.beginSave (h : Kept s₀ s) (i slot : Nat) : Kept s₀ (beginSave s i slot) := by
  unfold Machine.beginSave
  refine ((h.foldl ctxIds fun t k ht => ?_).modCoreRest i).modHearth ..
  split
  · exact ht.setCtxAt ..
  · exact ht

theorem Kept.settleYield (h : Kept s₀ s) (i : Nat) : Kept s₀ (settleYield s i) := by
  unfold Machine.settleYield
  split
  · exact h
  · split
    · exact (h.beginSave ..)
    · exact ((h.makeRecord ..).resumeYields ..)
    · exact h

theorem Kept.standAtYield (h : Kept s₀ s) (i : Nat) (k : CtxId) (f : Fields) (now : Bool) :
    Kept s₀ (standAtYield s i k f now) := by
  unfold Machine.standAtYield
  dsimp only
  split
  · exact (h.completeCtl ..)
  · exact (((h.completeCtl ..).setCtxAt ..).settleYield ..)

theorem Kept.issueYieldIf (h : Kept s₀ s) (i : Nat) (k : CtxId) (f : Fields) : Kept s₀ (issueYieldIf s i k f) :=
  h.issueCtl _ _ _ _ _ _ (fun _ h1 => (Kept.ite (h1.standAtYield ..) (h1.completeCtl ..)))

theorem Kept.issueYieldNow (h : Kept s₀ s) (i : Nat) (k : CtxId) (f : Fields) : Kept s₀ (issueYieldNow s i k f) :=
  h.issueCtl _ _ _ _ _ _ (fun _ h1 => (h1.standAtYield ..))

theorem Kept.doneRelease (h : Kept s₀ s) (i : Nat) (k : CtxId) : Kept s₀ (doneRelease s i k) := by
  unfold Machine.doneRelease
  split
  · split
    · exact h
    · dsimp only
      split
      · exact (h.signalDone ..)
      · exact (((h.signalDone ..).setCtxAt ..).settleYield ..)
  · exact h

end Sys2Proof.Machine
end

section
/-! PROOFS. The operations of Machine/CoreTile keep the canonical form of memory and the shape of the state. -/

namespace Sys2Proof.Machine

variable {s₀ s t : State}

theorem Kept.issueTile (h : Kept s₀ s) (i : CoreId) (k : CtxId) (op : Nat) (f : Fields) (sh : Shape) (legal : Bool)
  (check : QEntry → Option Nat) :
    Kept s₀ (issueTile s i k op f sh legal check) := (h.issueQ ..).pumpQueue ..

theorem Kept.issueAzero (h : Kept s₀ s) (i : CoreId) (k : CtxId) (f : Fields) : Kept s₀ (issueAzero s i k f) :=
  h.issueTile ..

theorem Kept.issueAload (h : Kept s₀ s) (i : CoreId) (k : CtxId) (f : Fields) : Kept s₀ (issueAload s i k f) :=
  h.issueTile ..

theorem Kept.issueAswap (h : Kept s₀ s) (i : CoreId) (k : CtxId) (f : Fields) : Kept s₀ (issueAswap s i k f) :=
  h.issueTile ..

theorem Kept.notePass (h : Kept s₀ s) (i : CoreId) (e : QEntry) : Kept s₀ (notePass s i e) :=
  (h.foldl _ (fun _ _ h1 => (h1.modAnvil ..))).syncGrants ..

theorem Kept.issueAmac (h : Kept s₀ s) (i : CoreId) (k : CtxId) (f : Fields) : Kept s₀ (issueAmac s i k f) := by
  unfold Machine.issueAmac
  dsimp only
  split
  · exact ((h.issueTile ..).notePass ..)
  · exact (h.issueTile ..)

theorem Kept.issueAdrain (h : Kept s₀ s) (i : CoreId) (k : CtxId) (f : Fields) : Kept s₀ (issueAdrain s i k f) :=
  h.issueTile ..

end Sys2Proof.Machine
end

section
/-! PROOFS. The operations of Machine/CoreVector keep the canonical form of memory and the shape of the state. -/

namespace Sys2Proof.Machine

variable {s₀ s t : State}

theorem Kept.issueVec (h : Kept s₀ s) (i : CoreId) (k : CtxId) (op : Nat) (f : Fields) (sh : Shape) (legal : Bool)
  (check : QEntry → Option Nat) (ecc : Bool) :
    Kept s₀ (issueVec s i k op f sh legal check ecc) := (h.issueQ ..).pumpQueue ..

theorem Kept.issueVadd (h : Kept s₀ s) (i : CoreId) (k : CtxId) (f : Fields) : Kept s₀ (issueVadd s i k f) :=
  h.issueVec ..

theorem Kept.issueVsub (h : Kept s₀ s) (i : CoreId) (k : CtxId) (f : Fields) : Kept s₀ (issueVsub s i k f) :=
  h.issueVec ..

theorem Kept.issueVmul (h : Kept s₀ s) (i : CoreId) (k : CtxId) (f : Fields) : Kept s₀ (issueVmul s i k f) :=
  h.issueVec ..

theorem Kept.issueVmin (h : Kept s₀ s) (i : CoreId) (k : CtxId) (f : Fields) : Kept s₀ (issueVmin s i k f) :=
  h.issueVec ..

theorem Kept.issueVmax (h : Kept s₀ s) (i : CoreId) (k : CtxId) (f : Fields) : Kept s₀ (issueVmax s i k f) :=
  h.issueVec ..

theorem Kept.issueVcmp (h : Kept s₀ s) (i : CoreId) (k : CtxId) (f : Fields) : Kept s₀ (issueVcmp s i k f) :=
  h.issueVec ..

theorem Kept.issueVsel (h : Kept s₀ s) (i : CoreId) (k : CtxId) (f : Fields) : Kept s₀ (issueVsel s i k f) :=
  h.issueVec ..

theorem Kept.issueVabs (h : Kept s₀ s) (i : CoreId) (k : CtxId) (f : Fields) : Kept s₀ (issueVabs s i k f) :=
  h.issueVec ..

theorem Kept.issueVneg (h : Kept s₀ s) (i : CoreId) (k : CtxId) (f : Fields) : Kept s₀ (issueVneg s i k f) :=
  h.issueVec ..

theorem Kept.issueVshl (h : Kept s₀ s) (i : CoreId) (k : CtxId) (f : Fields) : Kept s₀ (issueVshl s i k f) :=
  h.issueVec ..

theorem Kept.issueVrsh (h : Kept s₀ s) (i : CoreId) (k : CtxId) (f : Fields) : Kept s₀ (issueVrsh s i k f) :=
  h.issueVec ..

theorem Kept.issueVresc (h : Kept s₀ s) (i : CoreId) (k : CtxId) (f : Fields) : Kept s₀ (issueVresc s i k f) :=
  h.issueVec ..

theorem Kept.issueVmov (h : Kept s₀ s) (i : CoreId) (k : CtxId) (f : Fields) : Kept s₀ (issueVmov s i k f) :=
  h.issueVec ..

theorem Kept.issueVsplat (h : Kept s₀ s) (i : CoreId) (k : CtxId) (f : Fields) : Kept s₀ (issueVsplat s i k f) :=
  h.issueVec ..

theorem Kept.issueVmovg (h : Kept s₀ s) (i : CoreId) (k : CtxId) (f : Fields) : Kept s₀ (issueVmovg s i k f) :=
  h.issueVec ..

theorem Kept.issueVradd (h : Kept s₀ s) (i : CoreId) (k : CtxId) (f : Fields) : Kept s₀ (issueVradd s i k f) :=
  h.issueVec ..

theorem Kept.issueVld (h : Kept s₀ s) (i : CoreId) (k : CtxId) (f : Fields) (ecc : Bool) :
    Kept s₀ (issueVld s i k f ecc) := h.issueVec ..

theorem Kept.issueVst (h : Kept s₀ s) (i : CoreId) (k : CtxId) (f : Fields) : Kept s₀ (issueVst s i k f) :=
  h.issueVec ..

theorem Kept.issueVqnt (h : Kept s₀ s) (i : CoreId) (k : CtxId) (f : Fields) : Kept s₀ (issueVqnt s i k f) :=
  h.issueVec ..

theorem Kept.issueVcvt (h : Kept s₀ s) (i : CoreId) (k : CtxId) (f : Fields) : Kept s₀ (issueVcvt s i k f) :=
  h.issueVec ..

theorem Kept.issueVrsum (h : Kept s₀ s) (i : CoreId) (k : CtxId) (f : Fields) : Kept s₀ (issueVrsum s i k f) :=
  h.issueVec ..

theorem Kept.issueVrmax (h : Kept s₀ s) (i : CoreId) (k : CtxId) (f : Fields) : Kept s₀ (issueVrmax s i k f) :=
  h.issueVec ..

theorem Kept.issueVrcnt (h : Kept s₀ s) (i : CoreId) (k : CtxId) (f : Fields) : Kept s₀ (issueVrcnt s i k f) :=
  h.issueVec ..

theorem Kept.issueVrssq (h : Kept s₀ s) (i : CoreId) (k : CtxId) (f : Fields) : Kept s₀ (issueVrssq s i k f) :=
  h.issueVec ..

theorem Kept.issueVsqadd (h : Kept s₀ s) (i : CoreId) (k : CtxId) (f : Fields) : Kept s₀ (issueVsqadd s i k f) :=
  h.issueVec ..

theorem Kept.issueVact (h : Kept s₀ s) (i : CoreId) (k : CtxId) (f : Fields) : Kept s₀ (issueVact s i k f) :=
  h.issueVec ..

theorem Kept.issueVumu (h : Kept s₀ s) (i : CoreId) (k : CtxId) (f : Fields) : Kept s₀ (issueVumu s i k f) :=
  h.issueVec ..

theorem Kept.issueVupd (h : Kept s₀ s) (i : CoreId) (k : CtxId) (f : Fields) : Kept s₀ (issueVupd s i k f) :=
  h.issueVec ..

theorem Kept.issueVgacc (h : Kept s₀ s) (i : CoreId) (k : CtxId) (f : Fields) : Kept s₀ (issueVgacc s i k f) :=
  h.issueVec ..

theorem Kept.issueVrand (h : Kept s₀ s) (i : CoreId) (k : CtxId) (f : Fields) : Kept s₀ (issueVrand s i k f) :=
  h.issueVec ..

theorem Kept.issueVmark (h : Kept s₀ s) (i : CoreId) (k : CtxId) (f : Fields) : Kept s₀ (issueVmark s i k f) :=
  h.issueVec ..

end Sys2Proof.Machine
end

section
/-! PROOFS. The operations of Machine/CoreMove keep the canonical form of memory and the shape of the state. -/

namespace Sys2Proof.Machine

variable {s₀ s t : State}

theorem Kept.issueTongs (h : Kept s₀ s) (i : CoreId) (k : CtxId) (op : Nat) (f : Fields) (sh : Shape) (legal : Bool)
  (check : QEntry → Option Nat) :
    Kept s₀ (issueTongs s i k op f sh legal check) := (h.issueQ ..).pumpQueue ..

theorem Kept.issueMcopy (h : Kept s₀ s) (i : CoreId) (k : CtxId) (f : Fields) : Kept s₀ (issueMcopy s i k f) :=
  h.issueTongs ..

theorem Kept.issueMfill (h : Kept s₀ s) (i : CoreId) (k : CtxId) (f : Fields) : Kept s₀ (issueMfill s i k f) :=
  h.issueTongs ..

theorem Kept.issueFab (h : Kept s₀ s) (i : CoreId) (k : CtxId) (op : Nat) (f : Fields) (sh : Shape) (legal : Bool)
  (check : QEntry → Option Nat) :
    Kept s₀ (issueFab s i k op f sh legal check) := (h.issueQ ..).pumpQueue ..

theorem Kept.issueFput (h : Kept s₀ s) (i : CoreId) (k : CtxId) (f : Fields) : Kept s₀ (issueFput s i k f) :=
  h.issueFab ..

theorem Kept.issueFget (h : Kept s₀ s) (i : CoreId) (k : CtxId) (f : Fields) : Kept s₀ (issueFget s i k f) :=
  h.issueFab ..

theorem Kept.issueFsend (h : Kept s₀ s) (i : CoreId) (k : CtxId) (f : Fields) : Kept s₀ (issueFsend s i k f) :=
  h.issueFab ..

theorem Kept.issueFatom (h : Kept s₀ s) (i : CoreId) (k : CtxId) (f : Fields) : Kept s₀ (issueFatom s i k f) :=
  h.issueFab ..

theorem Kept.issueFred (h : Kept s₀ s) (i : CoreId) (k : CtxId) (f : Fields) : Kept s₀ (issueFred s i k f) :=
  h.issueFab ..

theorem Kept.issueFgath (h : Kept s₀ s) (i : CoreId) (k : CtxId) (f : Fields) : Kept s₀ (issueFgath s i k f) :=
  h.issueFab ..

theorem Kept.issueFbar (h : Kept s₀ s) (i : CoreId) (k : CtxId) (f : Fields) : Kept s₀ (issueFbar s i k f) :=
  h.issueFab ..

theorem Kept.issueFcoll (h : Kept s₀ s) (i : CoreId) (k : CtxId) (op : Nat) (f : Fields) :
    Kept s₀ (issueFcoll s i k op f) := h.issueFab ..

theorem Kept.issueFsnap (h : Kept s₀ s) (i : CoreId) (k : CtxId) (f : Fields) : Kept s₀ (issueFsnap s i k f) :=
  h.issueFab ..

end Sys2Proof.Machine
end

section
/-! PROOFS. The operations of Machine/Extents keep the canonical form of memory and the shape of the state. -/

namespace Sys2Proof.Machine

variable {s₀ s t : State}

theorem Kept.storeEntry (h : Kept s₀ s) (j : JEntry) : Kept s₀ (storeEntry s j) := h.memWrite ..

theorem Kept.setJournal (h : Kept s₀ s) (j : JEntry) : Kept s₀ (setJournal s j) := h.upd.storeEntry ..

theorem Kept.sendMirror (h : Kept s₀ s) (j : JEntry) (o : Owner) : Kept s₀ (sendMirror s j o) := by
  unfold Machine.sendMirror
  split
  · exact (h.sendWrites ..)
  · exact h

theorem Kept.settleHalt (h : Kept s₀ s) : Kept s₀ (settleHalt s) := by
  unfold Machine.settleHalt
  split
  · exact (h.putF ..).upd
  · exact h

theorem Kept.floodHalt (h : Kept s₀ s) (reason : Nat) : Kept s₀ (floodHalt s reason) :=
  (h.foldl _ (fun _ _ h1 => (h1.sendRelation ..))).upd.settleHalt

theorem Kept.haltJob (h : Kept s₀ s) (reason : Nat) (node : Nat) (row : Nat) : Kept s₀ (haltJob s reason node row) :=
  (Kept.ite (h.floodHalt ..) (h.sendInbox ..)).postNotice ..

theorem Kept.repairing (h : Kept s₀ s) : Kept s₀ (repairing s) := (h.putF ..).putF ..

theorem Kept.clearPartner (h : Kept s₀ s) : Kept s₀ (clearPartner s) := (h.setR ..).setR ..

theorem Kept.sendRanges (h : Kept s₀ s) (node : Nat) (o : Owner) (rs : List (Nat × Nat)) :
    Kept s₀ (sendRanges s node o rs) := h.foldl _ (fun _ _ h1 => ((h1.touchRange ..).sendWrites ..))

theorem Kept.sendFps (h : Kept s₀ s) (node : Nat) (at_ : Nat) (o : Owner) (rows : List (Nat × Nat)) :
    Kept s₀ (sendFps s node at_ o rows) := h.sendWrites ..

theorem Kept.startCopy (h : Kept s₀ s) (node : Nat) (slot : Nat) : Kept s₀ (startCopy s node slot) :=
  ((((h.sendWrites ..).sendRanges ..).sendFps ..).foldl _ (fun _ _ h1 => (h1.sendWrites ..))).upd

theorem Kept.copyStep (h : Kept s₀ s) : Kept s₀ (copyStep s) := h.upd

theorem Kept.choosePartner (h : Kept s₀ s) : Kept s₀ (choosePartner s) := by
  unfold Machine.choosePartner
  dsimp only
  split
  · exact (h.repairing.clearPartner.upd.copyStep.startCopy ..)
  · exact (h.repairing.clearPartner.upd.makeRecord ..)

theorem Kept.settlePartner (h : Kept s₀ s) : Kept s₀ (settlePartner s) := by
  unfold Machine.settlePartner
  split
  · exact (h.putF ..)
  · exact h

theorem Kept.settleCopy (h : Kept s₀ s) : Kept s₀ (settleCopy s) := by
  unfold Machine.settleCopy
  dsimp only
  split
  · split
    · exact h.settlePartner.upd.choosePartner
    · exact h.settlePartner.upd
  · exact h.settlePartner

theorem Kept.refetch (h : Kept s₀ s) (node : Nat) (a : Nat) (n : Nat) : Kept s₀ (refetch s node a n) :=
  (h.satF ..).sendReads ..

theorem Kept.refetchSeed (h : Kept s₀ s) (a : Nat) (n : Nat) : Kept s₀ (refetchSeed s a n) := by
  unfold Machine.refetchSeed
  split
  · split
    · exact (h.haltJob ..)
    · exact (h.refetch ..)
  · exact (h.haltJob ..)

theorem Kept.refetchRow (h : Kept s₀ s) (r : Nat × Nat) : Kept s₀ (refetchRow s r) := by
  unfold Machine.refetchRow
  split
  · exact h.upd
  · exact (h.refetchSeed ..)

theorem Kept.refetchMirror (h : Kept s₀ s) (a : Nat) : Kept s₀ (refetchMirror s a) := by
  unfold Machine.refetchMirror
  dsimp only
  split
  · exact ((h.satF ..).sendReads ..)
  · exact (h.haltJob ..)

theorem Kept.setWard (h : Kept s₀ s) (w : Ward) : Kept s₀ (setWard s w) := h.upd

theorem Kept.smithPoison (h : Kept s₀ s) (a : Nat) : Kept s₀ (smithPoison s a) := by
  unfold Machine.smithPoison
  dsimp only
  split
  · exact (h.foldl _ (fun _ _ h1 => (h1.refetchRow ..)))
  · split
    · exact (h.refetchSeed ..)
    · split
      · exact (h.refetchMirror ..)
      · split
        · exact (h.setWard ..)
        · exact (h.writeWord ..)
        · exact h

theorem Kept.poisonAndReport (h : Kept s₀ s) (a : Nat) : Kept s₀ (poisonAndReport s a) :=
  (h.poisonLine ..).smithPoison ..

end Sys2Proof.Machine
end

section
/-! PROOFS. The operations of Machine/Items keep the canonical form of memory and the shape of the state. -/

namespace Sys2Proof.Machine

variable {s₀ s t : State}

theorem Kept.finishItem (h : Kept s₀ s) (jseq : Nat) (status : Nat) (detail : Nat) (step : Nat) :
    Kept s₀ (finishItem s jseq status detail step) := by
  unfold Machine.finishItem
  split
  · exact h
  · split
    · exact h
    · exact (h.setJournal ..)

theorem Kept.finishIf (h : Kept s₀ s) (x : Option (Nat × Nat)) (status : Nat) (step : Nat) :
    Kept s₀ (finishIf s x status step) := by
  unfold Machine.finishIf
  split
  · exact (h.finishItem ..)
  · exact h

end Sys2Proof.Machine
end

section
/-! PROOFS. The operations of Machine/StepEnd keep the canonical form of memory and the shape of the state. -/

namespace Sys2Proof.Machine

variable {s₀ s t : State}

theorem Kept.modJob (h : Kept s₀ s) (f : Job → Job) : Kept s₀ (modJob s f) := h.upd

theorem Kept.clearGrad (h : Kept s₀ s) (step : Nat) (l : Nat) : Kept s₀ (clearGrad step s l) :=
  (h.memWrite ..).memWrite ..

theorem Kept.clearGrads (h : Kept s₀ s) (step : Nat) : Kept s₀ (clearGrads s step) :=
  h.foldl _ (fun _ _ h1 => (h1.clearGrad ..))

theorem Kept.clearArrival (h : Kept s₀ s) (p : Nat × Nat) : Kept s₀ (clearArrival s p) := h.memWrite ..

theorem Kept.clearArrivals (h : Kept s₀ s) : Kept s₀ (clearArrivals s) :=
  h.foldl _ (fun _ _ h1 => (h1.clearArrival ..))

theorem Kept.settleEnd (h : Kept s₀ s) : Kept s₀ (settleEnd s) := by
  unfold Machine.settleEnd
  split
  · split
    · exact (h.finishIf ..)
    · exact h
  · exact h

theorem Kept.leaveIdle (h : Kept s₀ s) : Kept s₀ (leaveIdle s) := by
  unfold Machine.leaveIdle
  split
  · split
    · exact (h.putF ..).upd
    · exact h
  · exact h

theorem Kept.storeGroup (h : Kept s₀ s) (g : Group) : Kept s₀ (storeGroup s g) :=
  (((h.writeWord ..).writeWord ..).writeBytes ..).writeBytes ..

theorem Kept.fillPlace (h : Kept s₀ s) (p : Nat × Nat × Nat) : Kept s₀ (fillPlace s p) := by
  unfold Machine.fillPlace
  split
  · exact h
  · exact ((h.setGroupEntry ..).storeGroup ..)

theorem Kept.fillPlaces (h : Kept s₀ s) : Kept s₀ (fillPlaces s) := h.upd.foldl _ (fun _ _ h1 => (h1.fillPlace ..))

theorem Kept.advanceStep (h : Kept s₀ s) : Kept s₀ (advanceStep s) := by
  unfold Machine.advanceStep
  split
  · exact h
  · exact (h.clearGrads ..).clearArrivals.updHearths.fillPlaces.leaveIdle.settleHalt.settleEnd

theorem Kept.settleStep (h : Kept s₀ s) : Kept s₀ (settleStep s) := by
  unfold Machine.settleStep
  split
  · split
    · exact h.advanceStep
    · exact h
  · exact h

theorem Kept.writeInputs (h : Kept s₀ s) (j : Job) : Kept s₀ (writeInputs s j) :=
  h.foldl _ (fun _ _ h1 => (h1.memWrite ..))

theorem Kept.proceedStep (h : Kept s₀ s) : Kept s₀ (proceedStep s) := by
  unfold Machine.proceedStep
  split
  · exact h
  · exact (h.writeInputs ..).upd.settleStep

theorem Kept.layerOutcome (h : Kept s₀ s) (ws : List Word64) (l : Nat) : Kept s₀ (layerOutcome s ws l).1 :=
  h.drawFree.drawFree

theorem Kept.ratioRecord (h : Kept s₀ s) (j : Job) (l : Nat) : Kept s₀ (ratioRecord s j l) :=
  (h.layerOutcome ..).postRecord ..

theorem Kept.holdRatio (h : Kept s₀ s) : Kept s₀ (holdRatio s) := by
  unfold Machine.holdRatio
  split
  · exact h
  · dsimp only
    split
    · exact ((h.modJob ..).ratioRecord ..)
    · exact (h.modJob ..)

theorem Kept.passHold (h : Kept s₀ s) : Kept s₀ (passHold s) := by
  unfold Machine.passHold
  split
  · split
    · exact h.holdRatio
    · exact h.proceedStep
  · exact h

theorem Kept.startHoldRound (h : Kept s₀ s) (g : Group) : Kept s₀ (startHoldRound s g) :=
  (((h.modJob ..).setGroupEntry ..).setInst ..).startHold ..

theorem Kept.holdWiden (h : Kept s₀ s) : Kept s₀ (holdWiden s) := by
  unfold Machine.holdWiden
  split
  · exact h
  · dsimp only
    split
    · exact ((((h.finishIf ..).modJob ..).makeRecord ..).postRecord ..)
    · exact ((h.finishIf ..).modJob ..)

theorem Kept.stepEndResult (h : Kept s₀ s) (idx : Nat) : Kept s₀ (stepEndResult s idx) := by
  unfold Machine.stepEndResult
  split
  · split
    · exact h
    · dsimp only
      split
      · exact ((h.modJob ..).startHoldRound ..)
      · exact (h.modJob ..).passHold
  · exact h

theorem Kept.holdRoundResult (h : Kept s₀ s) (idx : Nat) : Kept s₀ (holdRoundResult s idx) := by
  unfold Machine.holdRoundResult
  split
  · exact h
  · split
    · exact h
    · split
      · exact h.holdWiden
      · exact ((h.finishIf ..).modJob ..).passHold

end Sys2Proof.Machine
end

section
/-! PROOFS. The operations of Machine/Tasks keep the canonical form of memory and the shape of the state. -/

namespace Sys2Proof.Machine

variable {s₀ s t : State}

theorem Kept.entryTaskOver (h : Kept s₀ s) (t : Task) (failed : Bool) : Kept s₀ (entryTaskOver s t failed) := by
  unfold Machine.entryTaskOver
  split
  · exact h
  · exact (h.modHearth ..)

theorem Kept.failTask (h : Kept s₀ s) (i : Nat) (t : Task) (code : Nat) (pc : Nat) : Kept s₀ (failTask s i t code pc)
  :=
  ((h.postRecord ..).entryTaskOver ..).settleStep

theorem Kept.setSplit (h : Kept s₀ s) (i : Nat) (v : Bool) : Kept s₀ (setSplit s i v) := h.putF ..

theorem Kept.startFresh (h : Kept s₀ s) (i : Nat) (x : Task) : Kept s₀ (startFresh s i x) := by
  unfold Machine.startFresh
  exact h.modCore i fun c hc => coreSized_fresh hc (startG_length s i _ _) _ ⟨rfl, rfl, rfl, rfl⟩

theorem Kept.startRestore (h : Kept s₀ s) (i : Nat) (t : Task) : Kept s₀ (startRestore s i t) := h.modCoreRest ..

theorem Kept.giveTask (h : Kept s₀ s) (i : Nat) (t : Task) : Kept s₀ (giveTask s i t) := by
  unfold Machine.giveTask
  dsimp only
  split
  · exact (Kept.startRestore (by split; exacts [(Kept.ite (((h.setSplit ..).writeWords ..).clearFull ..) ((h.setSplit
      ..).writeWords ..)), ((h.setSplit ..).writeWords ..)]) ..)
  · exact (Kept.startFresh (by split; exacts [(Kept.ite (((h.setSplit ..).writeWords ..).clearFull ..) ((h.setSplit
      ..).writeWords ..)), ((h.setSplit ..).writeWords ..)]) ..)

theorem Kept.taskDispatch (h : Kept s₀ s) (hr : Nat) : Kept s₀ (taskDispatch s hr) := by
  unfold Machine.taskDispatch
  split
  · exact h
  · split
    · exact h
    · dsimp only
      split
      · exact ((h.modHearth ..).failTask ..)
      · exact ((h.modHearth ..).giveTask ..)

theorem Kept.clearTask (h : Kept s₀ s) (i : Nat) : Kept s₀ (clearTask s i) :=
  h.modCore _ fun c hc => by simpa [coreSized] using hc

theorem Kept.noteReexec (h : Kept s₀ s) (i : Nat) (t : Task) : Kept s₀ (noteReexec s i t) := by
  unfold Machine.noteReexec
  split
  · exact (h.modCoreRest ..)
  · exact h

theorem Kept.taskComplete (h : Kept s₀ s) (i : Nat) (k : CtxId) : Kept s₀ (taskComplete s i k) := by
  unfold Machine.taskComplete
  split
  · exact h
  · split
    · exact h
    · dsimp only
      split
      · exact ((((h.modCoreRest ..).noteReexec ..).entryTaskOver ..).clearTask ..).settleStep
      · exact (h.modCoreRest ..)

theorem Kept.dropSlot (h : Kept s₀ s) (t : Task) : Kept s₀ (dropSlot s t) := by
  unfold Machine.dropSlot
  split
  · exact (h.modHearth ..)
  · exact h

theorem Kept.noteReFail (h : Kept s₀ s) (i : Nat) (t : Task) (residue : Bool) : Kept s₀ (noteReFail s i t residue) :=
  by
  unfold Machine.noteReFail
  split
  · exact h
  · dsimp only
    split
    · exact ((h.modCoreRest ..).dueRetire ..)
    · exact (h.modCoreRest ..)

theorem Kept.returnFaulted (h : Kept s₀ s) (i : Nat) (t : Task) (code : Nat) (residue : Bool) :
    Kept s₀ (returnFaulted s i t code residue) := by
  unfold Machine.returnFaulted
  dsimp only
  split
  · exact ((((h.dropSlot ..).noteReFail ..).clearTask ..).failTask ..)
  · exact ((((h.dropSlot ..).noteReFail ..).clearTask ..).queueHead ..)

theorem Kept.returnFailed (h : Kept s₀ s) (i : Nat) (t : Task) : Kept s₀ (returnFailed s i t) :=
  ((h.dropSlot ..).clearTask ..).failTask ..

theorem Kept.taskReturn (h : Kept s₀ s) (i : Nat) : Kept s₀ (taskReturn s i) := by
  unfold Machine.taskReturn
  split
  · split
    · exact h
    · split
      · exact ((h.clearTask ..).queueTail ..)
      · exact ((h.clearTask ..).queueHead ..)
      · exact (h.returnFailed ..)
      · exact (h.returnFaulted ..)
  · exact h

theorem Kept.resumeIfs (h : Kept s₀ s) (i : Nat) : Kept s₀ (resumeIfs s i) :=
  (h.foldl _ (fun _ _ h1 => (Kept.ite (h1.setCtxAt ..) h1))).modCoreRest ..

theorem Kept.giveUpRequest (h : Kept s₀ s) (i : Nat) : Kept s₀ (giveUpRequest s i) :=
  ((h.makeRecord ..).satF ..).resumeIfs ..

theorem Kept.dispatcherRequest (h : Kept s₀ s) (i : Nat) : Kept s₀ (dispatcherRequest s i) := by
  unfold Machine.dispatcherRequest
  dsimp only
  split
  · exact h
  · split
    · exact (((h.modCoreRest ..).settleYield ..).giveUpRequest ..)
    · exact ((h.modCoreRest ..).settleYield ..)

theorem Kept.yieldTimeout (h : Kept s₀ s) (i : Nat) : Kept s₀ (yieldTimeout s i) := by
  unfold Machine.yieldTimeout
  split
  · exact h
  · split
    · exact h
    · exact (h.giveUpRequest ..)

theorem Kept.splitWrite (h : Kept s₀ s) (i : Nat) (v : Bool) : Kept s₀ (splitWrite s i v) := by
  unfold Machine.splitWrite
  split
  · exact (h.makeRecord ..)
  · exact (h.setSplit ..)

end Sys2Proof.Machine
end

section
/-! PROOFS. The operations of Machine/Save keep the canonical form of memory and the shape of the state. -/

namespace Sys2Proof.Machine

variable {s₀ s t : State}

theorem Kept.stopPass (h : Kept s₀ s) (fed : List Nat) (i : Nat) (lane : CtxId) : Kept s₀ (stopPass fed i s lane) :=
  by
  unfold Machine.stopPass
  split
  · exact h
  · dsimp only
    split
    · exact (((h.applyPass ..).setLanePass ..).setEntry ..)
    · exact ((h.applyPass ..).setLanePass ..)

theorem Kept.retireLane (h : Kept s₀ s) (i : CoreId) (lane : CtxId) : Kept s₀ (retireLane i s lane) :=
  h.foldl _ (fun _ _ h1 => (h1.completeOldest ..))

theorem Kept.saveAnvil (h : Kept s₀ s) (i : Nat) (a : Nat) : Kept s₀ (saveAnvil i s a) := by
  unfold Machine.saveAnvil
  dsimp only
  split
  · exact ((Kept.ite ((h.writeWords ..).writeBytes ..) (h.writeWords ..)).writeBytes ..)
  · split
    · exact ((h.writeWords ..).writeBytes ..)
    · exact (h.writeWords ..)

theorem Kept.saveSeq (h : Kept s₀ s) (i : Nat) : Kept s₀ (saveSeq s i) :=
  (h.writeBytes ..).foldl _ (fun _ _ h1 => (Kept.ite (h1.writeBytes ..) h1))

theorem Kept.copyToSlot (h : Kept s₀ s) (i : Nat) (k : Nat) : Kept s₀ (copyToSlot s i k) := h.memWrite ..

theorem Kept.leaveCore (h : Kept s₀ s) (i : CoreId) (voluntary : Bool) : Kept s₀ (leaveCore s i voluntary) :=
  (h.modCore i fun c hc => by exact (coreSized_clearPartition c [0, 1, 2, 3] false).trans hc).syncGrants ..

theorem Kept.upsetSlot (h : Kept s₀ s) (i : Nat) (u : SaveUpset) : Kept s₀ (upsetSlot s i u) := h.modAnvil ..

theorem Kept.saveResidue (h : Kept s₀ s) (i : Nat) (a : Nat) (col : Nat) (row : Nat) : Kept s₀ (saveResidue s i a col
  row) :=
  (h.reportResidue ..).faultAbort ..

theorem Kept.saveComplete (h : Kept s₀ s) (i : CoreId) (fed : List Nat) (upset : Option SaveUpset) :
    Kept s₀ (saveComplete s i fed upset) := by
  have hlanes := (h.foldl lanes2 fun t x ht => ht.stopPass fed i.val x).foldl lanes2 fun t x ht => ht.retireLane i x
  have hupset : Kept s₀ ((upset.map (Machine.upsetSlot
      (lanes2.foldl (Machine.retireLane i) (lanes2.foldl (Machine.stopPass fed i.val) s)) i.val)).getD
      (lanes2.foldl (Machine.retireLane i) (lanes2.foldl (Machine.stopPass fed i.val) s))) := by
    cases upset with
    | none => exact hlanes
    | some u => exact hlanes.upsetSlot ..
  unfold Machine.saveComplete
  split
  · exact h
  · refine .ite h ?_
    dsimp only
    split
    · exact hupset.saveResidue ..
    · refine Kept.leaveCore (Kept.copyToSlot (Kept.saveSeq ?_ ..) ..) ..
      exact hupset.foldl _ fun t a ht => ht.saveAnvil i.val a

theorem Kept.restoreAnvil (h : Kept s₀ s) (i : Nat) (a : Nat) : Kept s₀ (restoreAnvil i s a) := by
  unfold Machine.restoreAnvil
  exact h.modAnvil ..

theorem Kept.reenter (h : Kept s₀ s) (i : Nat) (k : CtxId) (old : Option QEntry) (pos : Nat) (lo hi : Word64) :
    Kept s₀ (reenter i k old pos s lo hi) := by
  unfold Machine.reenter
  refine Kept.modCore (.ite h h.drawFree) i fun c hc => ?_
  exact (coreSized_setQueue c (laneQueue k) _).trans hc

theorem Kept.reissue (h : Kept s₀ s) (i : Nat) (lane : CtxId) (old : Option QEntry) (ws : List Word64) :
    Kept s₀ (reissue i s lane old ws) := h.reenter ..

theorem Kept.restoreLane (h : Kept s₀ s) (i : Nat) (lane : CtxId) : Kept s₀ (restoreLane i s lane) := by
  unfold Machine.restoreLane
  refine Kept.foldl ?_ _ fun t p ht => ht.reenter ..
  split
  · exact h.reissue ..
  · exact h

theorem Kept.restoreSeq (h : Kept s₀ s) (i : Nat) : Kept s₀ (restoreSeq s i) := by
  unfold Machine.restoreSeq
  refine h.modCore i fun c hc => ?_
  obtain ⟨-, -, -, hanvils⟩ := coreSized_iff.1 hc
  exact coreSized_iff.2 ⟨by simp [readWords], by simp, by simp, hanvils⟩

theorem Kept.copyFromSlot (h : Kept s₀ s) (i : Nat) (t : Task) (bs : List Byte) : Kept s₀ (copyFromSlot s i t bs) :=
  by
  unfold Machine.copyFromSlot
  exact (((h.writeBytes ..).writeBytes ..).dropSlot ..).modCoreRest ..

theorem Kept.restoreTask (h : Kept s₀ s) (i : CoreId) (ecc : Bool) : Kept s₀ (restoreTask s i ecc) := by
  unfold Machine.restoreTask
  split
  · exact ((h.setTileFault ..).faultAbort ..)
  · split
    · exact (h.faultAbort ..)
    · exact (((((h.restoreSeq ..).foldl _ (fun _ _ h1 => (h1.restoreAnvil ..))).foldl _ (fun _ _ h1 =>
        (h1.restoreLane ..))).modCoreRest ..).lanesPump ..)

theorem Kept.taskRestore (h : Kept s₀ s) (i : CoreId) (ecc : Bool) : Kept s₀ (taskRestore s i ecc) := by
  unfold Machine.taskRestore
  split
  · exact h
  · split
    · exact h
    · split
      · exact h
      · dsimp only
        split
        · exact ((h.dropSlot ..).faultAbort ..)
        · split
          · exact ((h.memRead ..).faultAbort ..)
          · exact ((h.memRead ..).faultAbort ..)
          · exact (((h.memRead ..).copyFromSlot ..).restoreTask ..)

end Sys2Proof.Machine
end

section
/-! PROOFS. The operations of Machine/Schedule keep the canonical form of memory and the shape of the state. -/

namespace Sys2Proof.Machine

variable {s₀ s t : State}

theorem Kept.queueTasks (h : Kept s₀ s) (hr : Nat) (k : Nat) (mb : Nat) (tasks : List (List Word64)) :
    Kept s₀ (queueTasks s hr k mb tasks) := by
  unfold Machine.queueTasks
  exact (h.foldl _ (fun _ _ h1 => (h1.queueTail ..))).modHearth ..

theorem Kept.walkOn (h : Kept s₀ s) (hr : Nat) : Kept s₀ (walkOn s hr) := h.modHearth ..

theorem Kept.noteStarted (h : Kept s₀ s) : Kept s₀ (noteStarted s) := by
  unfold Machine.noteStarted
  split
  · split
    · exact h
    · exact ((h.finishIf ..).modJob ..)
  · exact h

theorem Kept.phaseRelease (h : Kept s₀ s) (hr : Nat) : Kept s₀ (phaseRelease s hr) := by
  unfold Machine.phaseRelease
  split
  · exact h
  · dsimp only
    split
    · exact h
    · exact (((h.noteStarted.touchReads ..).queueTasks ..).walkOn ..)

theorem Kept.dropNext (h : Kept s₀ s) (e : Nat) : Kept s₀ (dropNext s e) := by
  unfold Machine.dropNext
  dsimp only
  split
  · exact h
  · split
    · exact (h.takeTag.sendRequest ..)
    · exact (h.atomicAt ..)
    · exact h

theorem Kept.phaseSkip (h : Kept s₀ s) (hr : Nat) : Kept s₀ (phaseSkip s hr) := by
  unfold Machine.phaseSkip
  split
  · exact h
  · dsimp only
    split
    · exact (((h.noteStarted.touchReads ..).dropNext ..).walkOn ..)
    · exact h

theorem Kept.dropRun (h : Kept s₀ s) (k : Nat) : Kept s₀ (dropRun s k) := h.updHearths

theorem Kept.countLayer (h : Kept s₀ s) (l : Nat) : Kept s₀ (countLayer s l) := h.memWrite ..

theorem Kept.taintLayer (h : Kept s₀ s) (l : Nat) : Kept s₀ (taintLayer s l) := h.memWrite ..

theorem Kept.backwardComplete (h : Kept s₀ s) (hr : Nat) : Kept s₀ (backwardComplete s hr) := by
  unfold Machine.backwardComplete
  split
  · exact h
  · split
    · exact h
    · exact ((Kept.ite h (h.foldl _ (fun _ _ h1 => (h1.countLayer ..)))).dropRun ..)

theorem Kept.phaseFail (h : Kept s₀ s) (hr : Nat) : Kept s₀ (phaseFail s hr) := by
  unfold Machine.phaseFail
  split
  · exact h
  · split
    · exact h
    · exact ((Kept.ite ((h.dropNext ..).foldl _ (fun _ _ h1 => (h1.taintLayer ..))) (h.dropNext ..)).dropRun ..)

theorem Kept.scheduleStall (h : Kept s₀ s) (hr : Nat) : Kept s₀ (scheduleStall s hr) := by
  unfold Machine.scheduleStall
  dsimp only
  split
  · split
    · exact h
    · exact (((h.modHearth ..).makeRecord ..).postRecord ..)
  · exact h

theorem Kept.stepEndRelease (h : Kept s₀ s) : Kept s₀ (stepEndRelease s) := by
  unfold Machine.stepEndRelease
  split
  · exact h
  · dsimp only
    split
    · exact h
    · exact (((h.noteStarted.touchReads ..).modJob ..).foldl _ (fun _ _ h1 => ((h1.queueTasks ..).walkOn ..)))

end Sys2Proof.Machine
end

section
/-! PROOFS. The operations of Machine/Ctrl keep the canonical form of memory and the shape of the state. -/

namespace Sys2Proof.Machine

variable {s₀ s t : State}

theorem Kept.failFabrics (h : Kept s₀ s) (i : Nat) (k : CtxId) : Kept s₀ (failFabrics s i k) := by
  unfold Machine.failFabrics
  split
  · exact (h.faultAbort ..)
  · exact h

theorem Kept.abandonCore (h : Kept s₀ s) (i : Nat) : Kept s₀ (abandonCore s i) := by
  unfold Machine.abandonCore
  split
  · exact h
  · refine .ite h ((Kept.dropSlot (Kept.modCore ((h.failFabrics ..).failFabrics ..) _ fun c hc => ?_) ..).clearTask
      ..)
    dsimp only
    split <;> simpa using hc

theorem Kept.abandonReady (h : Kept s₀ s) (hr : Nat) : Kept s₀ (abandonReady s hr) := by
  unfold Machine.abandonReady
  exact (h.foldl _ (fun _ _ h1 => (h1.dropSlot ..))).modHearth ..

theorem Kept.abandonTasks (h : Kept s₀ s) : Kept s₀ (abandonTasks s) :=
  (h.foldl _ (fun _ _ h1 => (h1.abandonCore ..))).foldl _ (fun _ _ h1 => (h1.abandonReady ..))

theorem Kept.abandonInst (h : Kept s₀ s) (x : Inst) : Kept s₀ (abandonInst s x) := by
  unfold Machine.abandonInst
  split
  · exact (h.dropInst ..)
  · exact ((h.withdrawInst ..).closeSnap ..)

theorem Kept.rewindJob (h : Kept s₀ s) : Kept s₀ (rewindJob s) :=
  Kept.modJob (by split; exacts [(h.finishIf ..), h]) ..

theorem Kept.resetMember (h : Kept s₀ s) (group : Nat) : Kept s₀ (resetMember s group) := by
  unfold Machine.resetMember
  dsimp only
  split
  · exact ((h.abandonTasks.foldl _ (fun _ _ h1 => (h1.abandonInst ..))).rewindJob.clearGrads ..).clearArrivals
  · exact (h.abandonTasks.foldl _ (fun _ _ h1 => (h1.abandonInst ..)))

theorem Kept.resetReleased (h : Kept s₀ s) (g : Group) : Kept s₀ (resetReleased s g) :=
  ((h.queueDown ..).updHearths.foldl _ (fun _ _ h1 => (h1.finishItem ..))).settleHalt.settleEnd

theorem Kept.resetUp (h : Kept s₀ s) (g : Group) : Kept s₀ (resetUp s g) := by
  unfold Machine.resetUp
  split
  · exact h
  · split
    · exact h
    · split
      · exact (h.resetReleased ..)
      · exact (h.queueUp ..)

theorem Kept.startReset (h : Kept s₀ s) (g : Group) : Kept s₀ (startReset s g) :=
  ((h.upd.resetMember ..).foldl _ (fun _ _ h1 => (h1.sendSlot27 ..))).resetUp ..

theorem Kept.requestReset (h : Kept s₀ s) (g : Group) : Kept s₀ (requestReset s g) := by
  unfold Machine.requestReset
  split
  · exact h
  · split
    · exact (h.startReset ..)
    · exact (h.upd.sendSlot27 ..)

theorem Kept.takeReset (h : Kept s₀ s) (idx : Nat) (slot : Nat) : Kept s₀ (takeReset s idx slot) := by
  unfold Machine.takeReset
  split
  · exact h
  · dsimp only
    split
    · exact ((h.satF ..).discardLine ..)
    · split
      · exact h
      · split
        · exact (h.discardLine ..)
        · split
          · exact (h.returnCredit ..)
          · exact ((h.returnCredit ..).startReset ..)

theorem Kept.resetDone (h : Kept s₀ s) (g : Group) (l : CtrlLine) : Kept s₀ (resetDone s g l) := by
  unfold Machine.resetDone
  dsimp only
  split
  · exact (h.returnCredit ..)
  · split
    · exact (h.returnCredit ..)
    · exact ((h.returnCredit ..).upd.resetUp ..)

theorem Kept.resetRelease (h : Kept s₀ s) (g : Group) (l : CtrlLine) : Kept s₀ (resetRelease s g l) := by
  unfold Machine.resetRelease
  dsimp only
  split
  · exact ((h.returnCredit ..).resetReleased ..)
  · exact (h.returnCredit ..)

theorem Kept.atLine (h : Kept s₀ s) (idx slot : Nat) (f : State → State) (hf : ∀ t, Kept s₀ t → Kept s₀ (f t)) :
    Kept s₀ (atLine s idx slot f) := .ite h (hf _ (h.touchReads ..)).pumpFabrics

theorem Kept.ctrlData (h : Kept s₀ s) (idx : Nat) (slot : Nat) : Kept s₀ (ctrlData s idx slot) :=
  h.atLine _ _ _ (fun _ h1 => (h1.takeLine _ _ _ _ (fun _ _ _ _ h2 => (h2.onData ..))))

theorem Kept.ctrlArrive (h : Kept s₀ s) (idx : Nat) (slot : Nat) : Kept s₀ (ctrlArrive s idx slot) :=
  h.atLine _ _ _ (fun _ h1 => (h1.takeLine _ _ _ _ (fun _ _ _ _ h2 => (h2.onArrive ..))))

theorem Kept.ctrlRelease (h : Kept s₀ s) (idx : Nat) (slot : Nat) : Kept s₀ (ctrlRelease s idx slot) :=
  h.atLine _ _ _ (fun _ h1 => (by split; exacts [(h1.resetRelease ..), (h1.takeLine _ _ _ _ (fun _ _ _ _ h2 =>
    (h2.onRelease ..)))]))

theorem Kept.ctrlDone (h : Kept s₀ s) (idx : Nat) (slot : Nat) : Kept s₀ (ctrlDone s idx slot) :=
  h.atLine _ _ _ (fun _ h1 => (by split; exacts [(h1.resetDone ..), (h1.takeLine _ _ _ _ (fun _ _ _ _ h2 =>
    (h2.onDone ..)))]))

theorem Kept.writeGroupIndex (h : Kept s₀ s) (idx : Nat) : Kept s₀ (writeGroupIndex s idx) := h.putF ..

theorem Kept.grpActBy (h : Kept s₀ s) (agent : Nat) (idx : Nat) : Kept s₀ (grpActBy s agent idx) := by
  unfold Machine.grpActBy
  split
  · exact ((h.writeGroupIndex ..).groupAct ..)
  · exact h

theorem Kept.grpDeactBy (h : Kept s₀ s) (agent : Nat) (idx : Nat) : Kept s₀ (grpDeactBy s agent idx) := by
  unfold Machine.grpDeactBy
  split
  · exact ((h.writeGroupIndex ..).groupDeact ..).pumpFabrics
  · exact h

theorem Kept.streamComplete (h : Kept s₀ s) : Kept s₀ (streamComplete s) := by
  unfold Machine.streamComplete
  split
  · exact h
  · split
    · exact h
    · exact ((h.upd.putF ..).postRecord ..).pumpFabrics

end Sys2Proof.Machine
end

section
/-! PROOFS. The operations of Machine/Jobs keep the canonical form of memory and the shape of the state. -/

namespace Sys2Proof.Machine

variable {s₀ s t : State}

theorem Kept.sendJoin (h : Kept s₀ s) : Kept s₀ (sendJoin s) := by
  unfold Machine.sendJoin
  split
  · exact (h.sendInbox ..)
  · exact h

theorem Kept.acceptJob (h : Kept s₀ s) : Kept s₀ (acceptJob s) :=
  ((h.foldl _ (fun _ _ h1 => (h1.loadImage ..))).clearGrads ..).clearArrivals.updHearths.sendJoin

theorem Kept.startJob (h : Kept s₀ s) (ring : Nat) (e : JEntry) : Kept s₀ (startJob s ring e) := by
  unfold Machine.startJob
  split
  · exact (h.finishItem ..)
  · dsimp only
    split
    · exact (h.finishItem ..)
    · exact h.upd.acceptJob

theorem Kept.jobStart (h : Kept s₀ s) (ring : Nat) : Kept s₀ (jobStart s ring) := by
  unfold Machine.jobStart
  split
  · split
    · exact h
    · exact (h.startJob ..)
  · exact h

theorem Kept.withJob (h : Kept s₀ s) (ring kind : Nat) (f : JEntry → Job → State) (hf : ∀ e j, Kept s₀ (f e j)) :
    Kept s₀ (withJob s ring kind f) := by
  unfold Machine.withJob
  split
  · exact .ite h (hf _ _)
  · exact .ite h (h.finishItem ..)
  · exact h

theorem Kept.ignoreRelease (h : Kept s₀ s) (e : JEntry) (kind : Nat) (mode : Nat) :
    Kept s₀ (ignoreRelease s e kind mode) := (h.finishItem ..).makeRecord ..

theorem Kept.widenRelease (h : Kept s₀ s) (ring : Nat) : Kept s₀ (widenRelease s ring) :=
  h.withJob _ _ _ (fun _ _ => (Kept.ite h (Kept.ite (h.finishItem ..) (Kept.ite (h.ignoreRelease ..) (Kept.ite h (by
    split; exacts [h, ((h.modJob ..).startHoldRound ..)]))))))

theorem Kept.ratioRelease (h : Kept s₀ s) (ring : Nat) : Kept s₀ (ratioRelease s ring) :=
  h.withJob _ _ _ (fun _ _ => (Kept.ite (h.finishItem ..) (Kept.ite h (Kept.ite (h.ignoreRelease ..) ((h.finishItem
    ..).modJob ..).proceedStep))))

theorem Kept.jobReset (h : Kept s₀ s) (ring : Nat) : Kept s₀ (jobReset s ring) :=
  h.withJob _ _ _ (fun _ _ => (by split; exacts [(h.finishItem ..), (h.requestReset ..).pumpFabrics]))

theorem Kept.jobEnd (h : Kept s₀ s) (ring : Nat) : Kept s₀ (jobEnd s ring) :=
  h.withJob _ _ _ (fun _ _ => (Kept.ite h (Kept.ite ((h.modJob ..).finishItem ..) (h.modJob ..).settleEnd)))

theorem Kept.workNop (h : Kept s₀ s) (ring : Nat) : Kept s₀ (workNop s ring) := by
  unfold Machine.workNop
  split
  · split
    · exact h
    · exact (h.finishItem ..)
  · exact h

theorem Kept.badkindItem (h : Kept s₀ s) (ring : Nat) : Kept s₀ (badkindItem s ring) := by
  unfold Machine.badkindItem
  split
  · split
    · exact h
    · exact (h.finishItem ..)
  · exact h

end Sys2Proof.Machine
end

section
/-! PROOFS. The operations of Machine/Lines keep the canonical form of memory and the shape of the state. -/

namespace Sys2Proof.Machine

variable {s₀ s t : State}

theorem Kept.answering (h : Kept s₀ s) (x : Answer) : Kept s₀ (answering s x) := h.upd

theorem Kept.dropLine (h : Kept s₀ s) (a : Nat) : Kept s₀ (dropLine s a) := h.modHearth ..

theorem Kept.sliceError (h : Kept s₀ s) (a : Nat) (bits : Nat) : Kept s₀ (sliceError s a bits) := by
  unfold Machine.sliceError
  split
  · exact h
  · dsimp only
    split
    · exact h
    · split
      · exact (h.satF ..)
      · split
        · exact ((h.satF ..).poisonAndReport ..)
        · exact ((h.satF ..).dropLine ..)

theorem Kept.countCorrected (h : Kept s₀ s) (a : Nat) : Kept s₀ (countCorrected s a) :=
  (Kept.ite (h.satF ..).upd (Kept.ite (h.satF ..).upd.upd (Kept.ite (h.satF ..).upd ((h.satF ..).upd.upd.makeRecord
    ..))))

theorem Kept.dramRead (h : Kept s₀ s) (a : Nat) (r : ReadResult) : Kept s₀ (dramRead s a r) := by
  unfold Machine.dramRead
  split
  · exact h
  · exact (h.countCorrected ..)
  · exact (h.satF ..)
  · exact (h.poisonAndReport ..)
  · split
    · exact h
    · exact (h.countCorrected ..)
    · split
      · exact (h.satF ..)
      · exact (h.poisonAndReport ..)

theorem Kept.wakeChannel (h : Kept s₀ s) (a : Nat) : Kept s₀ (wakeChannel s a) := by
  unfold Machine.wakeChannel
  split
  · exact h.upd
  · exact h

theorem Kept.missFill (h : Kept s₀ s) (a : Nat) (r : ReadResult) : Kept s₀ (missFill s a r) := by
  unfold Machine.missFill
  split
  · exact h
  · exact (((h.wakeChannel ..).dramRead ..).touchLine ..)

theorem Kept.lineRead (h : Kept s₀ s) (a : Nat) (n : Nat) (bits : Nat) : Kept s₀ (lineRead s a n bits) := by
  unfold Machine.lineRead
  split
  · exact (h.answering ..)
  · split
    · exact (h.answering ..)
    · exact (((h.sliceError ..).memRead ..).answering ..)

theorem Kept.writeMasked (h : Kept s₀ s) (a : Nat) (mask : Nat) (ws : List Word64) : Kept s₀ (writeMasked s a mask
  ws) :=
  h.foldl _ (fun _ _ h1 => (Kept.ite (h1.writeWord ..) h1))

theorem Kept.lineWrite (h : Kept s₀ s) (a : Nat) (mask : Nat) (ws : List Word64) : Kept s₀ (lineWrite s a mask ws) :=
  by
  unfold Machine.lineWrite
  dsimp only
  split
  · exact (h.answering ..)
  · split
    · exact (h.answering ..)
    · split
      · exact ((h.memWrite ..).answering ..)
      · split
        · exact (h.answering ..)
        · exact (((h.writeMasked ..).touchLine ..).answering ..)

theorem Kept.crucibleAtomic (h : Kept s₀ s) (op : Nat) (a : Nat) (x : Word64) (cmp : Word64) :
    Kept s₀ (crucibleAtomic s op a x cmp) := by
  unfold Machine.crucibleAtomic
  split
  · exact (h.answering ..)
  · split
    · exact (h.answering ..)
    · exact ((h.atomicAt ..).answering ..)

theorem Kept.crucibleReduction (h : Kept s₀ s) (op : Nat) (a : Nat) (ws : List Word64) :
    Kept s₀ (crucibleReduction s op a ws) := by
  unfold Machine.crucibleReduction
  split
  · exact (h.answering ..)
  · split
    · exact (h.answering ..)
    · exact ((h.reduceAt ..).answering ..)

theorem Kept.windowAccess (h : Kept s₀ s) (agent : Agent) (a : Nat) (acc : WinAccess) (eccErr : Bool) :
    Kept s₀ (windowAccess s agent a acc eccErr) := by
  unfold Machine.windowAccess
  dsimp only
  split
  · exact (h.answering ..)
  · split
    · exact (h.answering ..)
    · split
      · exact (h.answering ..)
      · split
        · exact ((h.satF ..).answering ..)
        · exact ((h.memRead ..).answering ..)
    · split
      · exact (h.answering ..)
      · exact ((h.memWrite ..).answering ..)

theorem Kept.refresh (h : Kept s₀ s) (hr : Nat) (hot : Bool) : Kept s₀ (refresh s hr hot) := h.modHearth ..

theorem Kept.strobeRecentre (h : Kept s₀ s) (hr : Nat) (chan : Nat) : Kept s₀ (strobeRecentre s hr chan) :=
  h.modHearth ..

theorem Kept.scrubDram (h : Kept s₀ s) (a : Nat) (r : ReadResult) : Kept s₀ (scrubDram s a r) := by
  unfold Machine.scrubDram
  split
  · exact h
  · exact (((h.modHearth ..).missFill ..).touchLine ..)

theorem Kept.scrubCoreStore (h : Kept s₀ s) (i : Nat) (bits : Nat) : Kept s₀ (scrubCoreStore s i bits) := by
  unfold Machine.scrubCoreStore
  split
  · exact (h.satF ..)
  · exact h

theorem Kept.scrubRead (h : Kept s₀ s) (t : ScrubTarget) : Kept s₀ (scrubRead s t) := by
  unfold Machine.scrubRead
  split
  · exact (h.scrubDram ..)
  · split
    · exact (h.sliceError ..)
    · exact h
  · exact (h.scrubCoreStore ..)
  · split
    · exact (h.damageBlock ..)
    · exact h

theorem Kept.regionWrite (h : Kept s₀ s) (w : Nat) : Kept s₀ (regionWrite s w) := by
  unfold Machine.regionWrite
  dsimp only
  split
  · exact (h.makeRecord ..)
  · exact (h.setRegion ..)

theorem Kept.regionCommand (h : Kept s₀ s) (agent : Nat) (f : Region → Nat) : Kept s₀ (regionCommand s agent f) := by
  unfold Machine.regionCommand
  split
  · exact (h.regionWrite ..)
  · exact h

theorem Kept.migrationComplete (h : Kept s₀ s) (p : Nat) : Kept s₀ (migrationComplete s p) := by
  unfold Machine.migrationComplete
  dsimp only
  split
  · exact (h.setRegion ..).updHearths
  · exact h

theorem Kept.mrgStart (h : Kept s₀ s) : Kept s₀ (mrgStart s) := by
  unfold Machine.mrgStart
  split
  · exact h
  · dsimp only
    split
    · exact h.upd.upd
    · exact h.upd

theorem Kept.mrgStartBy (h : Kept s₀ s) (agent : Nat) : Kept s₀ (mrgStartBy s agent) := by
  unfold Machine.mrgStartBy
  split
  · exact h.mrgStart
  · exact h

theorem Kept.startRerun (h : Kept s₀ s) : Kept s₀ (startRerun s) := h.upd

theorem Kept.marginRerun (h : Kept s₀ s) : Kept s₀ (marginRerun s) := by
  unfold Machine.marginRerun
  split
  · exact h
  · split
    · exact h.startRerun
    · exact h

theorem Kept.marginRecord (h : Kept s₀ s) (typ : Nat) (c : Nat) (m : MarginResult) : Kept s₀ (marginRecord s typ c m)
  :=
  h.makeRecord ..

theorem Kept.marginRerunComplete (h : Kept s₀ s) (m : MarginResult) : Kept s₀ (marginRerunComplete s m) := by
  unfold Machine.marginRerunComplete
  split
  · exact h
  · dsimp only
    split
    · exact h.upd
    · exact (h.upd.marginRecord ..).requestService

theorem Kept.wipeDram (h : Kept s₀ s) : Kept s₀ (wipeDram s) :=
  ⟨fun h0 => Memory.wf_filter (h.wf h0) _, (h.of_shape (t := { Machine.wipeDram s with mem := s.mem }) (by
    simp [shape, Machine.wipeDram])).shaped⟩

theorem Kept.trainingComplete (h : Kept s₀ s) (rs : List MarginResult) : Kept s₀ (trainingComplete s rs) := by
  unfold Machine.trainingComplete
  split
  · exact h
  · dsimp only
    split
    · exact ((h.putF ..).upd.putF ..).wipeDram
    · exact (((h.putF ..).upd.putF ..).foldl _ (fun _ _ h1 => (h1.marginRecord ..))).upd.requestService

end Sys2Proof.Machine
end

section
/-! PROOFS. The operations of Machine/Intake keep the canonical form of memory and the shape of the state. -/

namespace Sys2Proof.Machine

variable {s₀ s t : State}

theorem Kept.noteFull (h : Kept s₀ s) : Kept s₀ (noteFull s) := h.putF ..

theorem Kept.journalItem (h : Kept s₀ s) (r : Ring) (ws : List Word64) : Kept s₀ (journalItem s r ws) :=
  (((h.upd.setRing ..).storeEntry ..).sendMirror ..).noteFull

theorem Kept.stopRing (h : Kept s₀ s) (r : Ring) (k : Nat) : Kept s₀ (stopRing s r k) :=
  (((h.setRing ..).satF ..).makeRecord ..).postTo ..

theorem Kept.noteWait (h : Kept s₀ s) (r : Ring) (k : Nat) : Kept s₀ (noteWait s r k) := h.setRing ..

theorem Kept.readSlots (idx n : Nat) (h : Kept s₀ s) : Kept s₀ (readSlots idx n s) := by
  induction n generalizing s with
  | zero => exact h
  | succ n ih =>
    unfold Machine.readSlots
    split
    · exact h
    · refine .ite h (.ite h.noteFull ?_)
      split
      · exact .ite h (ih (h.journalItem ..))
      · exact h.noteWait ..
      · exact h.stopRing ..

theorem Kept.pumpRing (h : Kept s₀ s) (idx : Nat) : Kept s₀ (pumpRing s idx) := by
  unfold Machine.pumpRing
  split
  · exact (h.readSlots ..)
  · exact h

theorem Kept.pumpIntake (h : Kept s₀ s) : Kept s₀ (pumpIntake s) :=
  h.noteFull.foldl _ (fun _ _ h1 => (h1.pumpRing ..))

theorem Kept.postAccepted (h : Kept s₀ s) (r : Ring) : Kept s₀ (postAccepted s r) := (h.setRing ..).postTo ..

theorem Kept.reportAgain (h : Kept s₀ s) (r : Ring) (v : Nat) : Kept s₀ (reportAgain s r v) := by
  unfold Machine.reportAgain
  split
  · exact h
  · exact (h.postAccepted ..)

theorem Kept.takePseq (h : Kept s₀ s) (idx : Nat) (v : Word64) : Kept s₀ (takePseq s idx v) := by
  unfold Machine.takePseq
  split
  · exact h
  · split
    · exact (h.reportAgain ..)
    · exact (((h.setRing ..).reportAgain ..).pumpRing ..)

theorem Kept.ringBell (h : Kept s₀ s) (idx : Nat) (word : Bool) (v : Word64) (f : State → State)
    (hf : ∀ t, Kept s₀ t → Kept s₀ (f t)) : Kept s₀ (ringBell s idx word v f) := by
  unfold Machine.ringBell
  split
  · exact h
  · exact .ite (h.memWrite ..) (.ite (h.memWrite ..).upd (hf _ (h.memWrite ..)))

theorem Kept.doorbellPseq (h : Kept s₀ s) (idx : Nat) (v : Word64) : Kept s₀ (doorbellPseq s idx v) :=
  h.ringBell _ _ _ _ (fun _ h1 => (h1.takePseq ..))

theorem Kept.freeEntry (h : Kept s₀ s) (j : JEntry) : Kept s₀ (freeEntry s j) := (h.memWrite ..).upd

theorem Kept.freeEntries (h : Kept s₀ s) (r : Ring) : Kept s₀ (freeEntries s r) :=
  h.foldl _ (fun _ _ h1 => (h1.freeEntry ..))

theorem Kept.takeCcons (h : Kept s₀ s) (idx : Nat) (v : Word64) : Kept s₀ (takeCcons s idx v) := by
  unfold Machine.takeCcons
  split
  · exact h
  · split
    · exact h
    · exact (((h.setRing ..).releaseHeld ..).freeEntries ..).pumpIntake

theorem Kept.doorbellCcons (h : Kept s₀ s) (idx : Nat) (v : Word64) : Kept s₀ (doorbellCcons s idx v) :=
  h.ringBell _ _ _ _ (fun _ h1 => (h1.takeCcons ..))

theorem Kept.releaseBells (h : Kept s₀ s) : Kept s₀ (releaseBells s) :=
  h.upd.foldl _ (fun _ _ h1 => (Kept.ite (h1.takeCcons ..) (h1.takePseq ..)))

theorem Kept.itemWaitExpiry (h : Kept s₀ s) (idx : Nat) : Kept s₀ (itemWaitExpiry s idx) := by
  unfold Machine.itemWaitExpiry
  split
  · exact h
  · split
    · exact h
    · split
      · exact h
      · split
        · exact (h.stopRing ..)
        · exact (h.pumpRing ..)

theorem Kept.takeForecast (h : Kept s₀ s) (ws : List Word64) : Kept s₀ (takeForecast s ws) := by
  unfold Machine.takeForecast
  split
  · exact h
  · exact h.upd

theorem Kept.itemAccepted (h : Kept s₀ s) (idx : Nat) : Kept s₀ (itemAccepted s idx) := by
  unfold Machine.itemAccepted
  split
  · exact h
  · split
    · exact h
    · split
      · exact h
      · dsimp only
        split
        · exact (((((h.setRing ..).satF ..).writeWord ..).takeForecast ..).postAccepted ..)
        · exact ((((h.setRing ..).satF ..).writeWord ..).takeForecast ..)

theorem Kept.acceptanceTimer (h : Kept s₀ s) (idx : Nat) : Kept s₀ (acceptanceTimer s idx) := by
  unfold Machine.acceptanceTimer
  split
  · exact h
  · split
    · exact h
    · exact (h.postAccepted ..)

theorem Kept.itemStart (h : Kept s₀ s) (idx : Nat) : Kept s₀ (itemStart s idx) := by
  unfold Machine.itemStart
  split
  · split
    · exact h
    · exact (h.setJournal ..)
  · exact h

theorem Kept.sendMark (h : Kept s₀ s) (j : JEntry) : Kept s₀ (sendMark s j) := by
  unfold Machine.sendMark
  split
  · exact ((h.setJournal ..).sendMirror ..)
  · exact h

theorem Kept.jobLeaves (h : Kept s₀ s) (ring : Nat) (jseq : Nat) : Kept s₀ (jobLeaves s ring jseq) := by
  unfold Machine.jobLeaves
  split
  · exact (h.upd.putF ..)
  · exact h

theorem Kept.itemDone (h : Kept s₀ s) (idx : Nat) : Kept s₀ (itemDone s idx) := by
  unfold Machine.itemDone
  split
  · split
    · exact h
    · exact (((((h.setJournal ..).setRing ..).writeWord ..).sendMark ..).jobLeaves ..)
  · exact h

theorem Kept.doneMirrored (h : Kept s₀ s) (idx : Nat) : Kept s₀ (doneMirrored s idx) := by
  unfold Machine.doneMirrored
  split
  · exact h
  · split
    · exact h
    · exact ((h.modJournal ..).postTo ..)

theorem Kept.ringRefused (h : Kept s₀ s) (idx : Nat) (reason : Nat) : Kept s₀ (ringRefused s idx reason) :=
  h.makeRecord ..

theorem Kept.adoptItems (h : Kept s₀ s) (idx : Nat) (t : Nat × Nat × Nat × Nat) : Kept s₀ (adoptItems s idx t) :=
  (h.foldl _ (fun _ _ h1 => ((h1.setJournal ..).sendMirror ..))).upd

theorem Kept.writeDoorbell (h : Kept s₀ s) (r : Ring) : Kept s₀ (writeDoorbell s r) := h.writeWords ..

theorem Kept.activateRing (h : Kept s₀ s) (idx : Nat) (ws : List Word64) : Kept s₀ (activateRing s idx ws) := by
  unfold Machine.activateRing
  dsimp only
  refine Kept.releaseHeld _ ?_ _
  split
  · exact (h.upd.writeDoorbell ..).adoptItems ..
  · exact h.upd.writeDoorbell ..

theorem Kept.ringAct (h : Kept s₀ s) (idx : Nat) : Kept s₀ (ringAct s idx) := by
  unfold Machine.ringAct
  split
  · exact h
  · dsimp only
    split
    · exact (h.activateRing ..)
    · exact (h.ringRefused ..)

theorem Kept.writeRingIndex (h : Kept s₀ s) (idx : Nat) : Kept s₀ (writeRingIndex s idx) := h.putF ..

theorem Kept.ringActBy (h : Kept s₀ s) (agent : Nat) (idx : Nat) : Kept s₀ (ringActBy s agent idx) := by
  unfold Machine.ringActBy
  split
  · exact ((h.writeRingIndex ..).ringAct ..)
  · exact h

theorem Kept.ringDeact (h : Kept s₀ s) (idx : Nat) : Kept s₀ (ringDeact s idx) := by
  unfold Machine.ringDeact
  split
  · exact h
  · dsimp only
    split
    · exact (h.ringRefused ..)
    · exact (h.foldl _ (fun _ _ h1 => (h1.freeEntry ..))).noteFull.upd

theorem Kept.ringDeactBy (h : Kept s₀ s) (agent : Nat) (idx : Nat) : Kept s₀ (ringDeactBy s agent idx) := by
  unfold Machine.ringDeactBy
  split
  · exact ((h.writeRingIndex ..).ringDeact ..)
  · exact h

end Sys2Proof.Machine
end

section
/-! PROOFS. The operations of Machine/Ports keep the canonical form of memory and the shape of the state. -/

namespace Sys2Proof.Machine

variable {s₀ s t : State}

theorem Kept.lateFrame (h : Kept s₀ s) (node : Nat) : Kept s₀ (lateFrame s node) := by
  unfold Machine.lateFrame
  split
  · exact h.upd
  · exact h

theorem Kept.heardFrom (h : Kept s₀ s) (node : Nat) : Kept s₀ (heardFrom s node) := by
  unfold Machine.heardFrom
  dsimp only
  split
  · exact (h.lateFrame ..).upd
  · exact (h.lateFrame ..)

theorem Kept.declareLoss (h : Kept s₀ s) (node : Nat) (reason : Nat) : Kept s₀ (declareLoss s node reason) := by
  unfold Machine.declareLoss
  split
  · exact h
  · exact (((h.upd.satF ..).makeRecord ..).sendInbox ..)

theorem Kept.reportLost (h : Kept s₀ s) (p : Nat × Bool) : Kept s₀ (reportLost s p) := by
  unfold Machine.reportLost
  split
  · exact h
  · exact (((h.upd.satF ..).makeRecord ..).sendInbox ..)

theorem Kept.reportUnreached (h : Kept s₀ s) : Kept s₀ (reportUnreached s) :=
  (h.foldl _ (fun _ _ h1 => (h1.declareLoss ..))).foldl _ (fun _ _ h1 => (h1.reportLost ..))

theorem Kept.rowFailed (h : Kept s₀ s) (row : Nat) : Kept s₀ (rowFailed s row) := by
  unfold Machine.rowFailed
  split
  · split
    · exact (h.wedge ..)
    · exact h
  · exact (h.haltJob ..)

theorem Kept.settleRows (h : Kept s₀ s) : Kept s₀ (settleRows s) := h.upd.foldl _ (fun _ _ h1 => (h1.rowFailed ..))

theorem Kept.setPausing (h : Kept s₀ s) (p : Nat) (q : Nat) (on : Bool) : Kept s₀ (setPausing s p q on) := h.setPort
  ..

theorem Kept.settlePause (h : Kept s₀ s) (p : PortId) (q : Nat) : Kept s₀ (settlePause p s q) := by
  unfold Machine.settlePause
  dsimp only
  split
  · exact h
  · split
    · exact ((h.setPausing ..).emit ..)
    · split
      · exact ((h.setPausing ..).emit ..)
      · exact h

theorem Kept.settlePauses (h : Kept s₀ s) : Kept s₀ (settlePauses s) :=
  h.foldl _ (fun _ _ h1 => (Kept.ite h1 (h1.foldl _ (fun _ _ h2 => (h2.settlePause ..)))))

theorem Kept.flushHeld (h : Kept s₀ s) (p : Nat) : Kept s₀ (flushHeld s p) :=
  (h.setPort ..).foldl _ (fun _ _ h1 => (h1.emit ..))

theorem Kept.settleFabric (h : Kept s₀ s) : Kept s₀ (settleFabric s) :=
  h.settlePauses.reportUnreached.settleCopy.settleRows.pollColl.pumpFabrics

theorem Kept.failPortPath (h : Kept s₀ s) (p : Nat) (node : Nat) : Kept s₀ (failPortPath p s node) := by
  unfold Machine.failPortPath
  split
  · exact h
  · dsimp only
    split
    · exact (h.movePath ..)
    · exact (h.setDst ..)

theorem Kept.takePortDown (h : Kept s₀ s) (p : PortId) (lanes : Nat) : Kept s₀ (takePortDown s p lanes) := by
  unfold Machine.takePortDown
  split
  · exact h
  · exact (((((h.makeRecord ..).satF ..).setR ..).setPort ..).upd.foldl _ (fun _ _ h1 => (h1.failPortPath
      ..))).settleFabric

theorem Kept.portEnable (h : Kept s₀ s) (p : Nat) : Kept s₀ (portEnable s p) := h.putF ..

theorem Kept.portDisable (h : Kept s₀ s) (p : PortId) : Kept s₀ (portDisable s p) := (h.putF ..).takePortDown ..

theorem Kept.portTrained (h : Kept s₀ s) (p : Nat) : Kept s₀ (portTrained s p) := by
  unfold Machine.portTrained
  split
  · exact h
  · exact ((((h.putF ..).putF ..).putF ..).putF ..)

theorem Kept.portUp (h : Kept s₀ s) (p : Nat) (o : LinkOffer) : Kept s₀ (portUp s p o) := by
  unfold Machine.portUp
  dsimp only
  split
  · exact ((h.setPort ..).portTrained ..)
  · exact (h.setPort ..)

theorem Kept.filterFrame (h : Kept s₀ s) (p : Nat) : Kept s₀ (filterFrame s p) := h.satF ..

theorem Kept.frameFiltered (h : Kept s₀ s) (p : Nat) (c : FilterCause) : Kept s₀ (frameFiltered s p c) := by
  unfold Machine.frameFiltered
  split
  · exact h
  · split
    · exact (h.satF ..)
    · exact ((h.satF ..).satF ..)
    · exact (h.satF ..)
    · split
      · exact h
      · exact (h.filterFrame ..)

theorem Kept.pfcFrame (h : Kept s₀ s) (p : Nat) (prio : Nat) (pause : Bool) : Kept s₀ (pfcFrame s p prio pause) := by
  unfold Machine.pfcFrame
  split
  · exact h
  · exact (((h.setPort ..).putF ..).flushHeld ..)

end Sys2Proof.Machine
end

section
/-! PROOFS. The operations of Machine/Ylp keep the canonical form of memory and the shape of the state. -/

namespace Sys2Proof.Machine

variable {s₀ s t : State}

theorem Kept.dropReplay (h : Kept s₀ s) (p : Replay → Bool) : Kept s₀ (dropReplay p s) := h.updHearths

theorem Kept.retireTags (h : Kept s₀ s) (f : YlpFrame) : Kept s₀ (retireTags s f) := by
  unfold Machine.retireTags
  dsimp only
  split
  · exact h
  · exact (h.dropReplay ..)

theorem Kept.notePeak (h : Kept s₀ s) (n : Nat) : Kept s₀ (notePeak s n) := h.upd

theorem Kept.reserveReplay (h : Kept s₀ s) {n : Nat} {f : YlpFrame} (ht : reserveReplay s n f = some t) : Kept s₀ t
  := by
  unfold Machine.reserveReplay at ht
  dsimp only at ht
  split at ht
  · cases ht
  · cases ht; exact (h.modHearth ..).notePeak ..

theorem Kept.recordReplay (h : Kept s₀ s) (hr : Nat) (f : YlpFrame) (status : Nat) (v : Word64) :
    Kept s₀ (recordReplay s hr f status v) := h.modHearth ..

theorem Kept.lapse (h : Kept s₀ s) (r : Refused) : Kept s₀ (lapse s r) := by
  unfold Machine.lapse
  split
  · split
    · exact (h.setRx ..)
    · exact h
  · exact h

theorem Kept.addRefusal (h : Kept s₀ s) (r : Refused) : Kept s₀ (addRefusal s r) := by
  unfold Machine.addRefusal
  split
  · split
    · exact h
    · exact (h.upd.lapse ..)
  · exact h.upd

theorem Kept.noteRefusal (h : Kept s₀ s) (f : YlpFrame) (status : Nat) : Kept s₀ (noteRefusal s f status) :=
  h.addRefusal ..

theorem Kept.refuseReply (h : Kept s₀ s) (port : Nat) (f : YlpFrame) (status : Nat) :
    Kept s₀ (refuseReply s port f status) := h.sendReply ..

theorem Kept.readLines (n a : Nat) (h : Kept s₀ s) : Kept s₀ (readLines n a s).1 := by
  induction n generalizing a s with
  | zero => exact h
  | succ n ih => exact .ite1 (ih _ h.upd) (ih _ (h.memRead ..))

theorem Kept.answerRead (h : Kept s₀ s) (port : Nat) (f : YlpFrame) : Kept s₀ (answerRead s port f) :=
  (h.readLines ..).sendReply ..

theorem Kept.applyMasked (h : Kept s₀ s) (f : YlpFrame) : Kept s₀ (applyMasked s f).1 := by
  unfold Machine.applyMasked
  split
  · exact h
  · exact ((h.writeMasked ..).touchLine ..)

theorem Kept.atomicReply (h : Kept s₀ s) (port : Nat) (f : YlpFrame) (status : Nat) (v : Word64) :
    Kept s₀ (atomicReply s port f status v) := h.sendReply ..

theorem Kept.applyAtomic (h : Kept s₀ s) (port : Nat) (f : YlpFrame) : Kept s₀ (applyAtomic s port f).1 := by
  unfold Machine.applyAtomic
  dsimp only
  split
  · exact (((h.atomicAt ..).recordReplay ..).atomicReply ..)
  · exact (((h.atomicAt ..).recordReplay ..).atomicReply ..)

theorem Kept.applyRequest (h : Kept s₀ s) (port : Nat) (f : YlpFrame) : Kept s₀ (applyRequest s port f).1 := by
  unfold Machine.applyRequest
  split
  · exact (h.answerRead ..)
  · exact (h.memWrite ..)
  · exact (h.applyMasked ..)
  · exact (h.applyAtomic ..)
  · exact (h.reduceAt ..)
  · exact h

theorem Kept.ackReply (h : Kept s₀ s) (port : Nat) (node : Nat) : Kept s₀ (ackReply s port node) := h.sendReply ..

theorem Kept.ackIfMany (h : Kept s₀ s) (node : Nat) : Kept s₀ (ackIfMany s node) := by
  unfold Machine.ackIfMany
  split
  · split
    · exact (h.ackReply ..)
    · exact h
  · exact h

theorem Kept.finishRequest (h : Kept s₀ s) (r : RxSrc) (o : OpenReq) : Kept s₀ (finishRequest s r o) :=
  ((Kept.ite (h.setRx ..) (((h.setRx ..).noteRefusal ..).refuseReply ..)).ackIfMany ..).settlePauses

theorem Kept.homeCompletion (h : Kept s₀ s) (node : Nat) (seq : Nat) : Kept s₀ (homeCompletion s node seq) := by
  unfold Machine.homeCompletion
  split
  · exact h
  · split
    · exact (h.finishRequest ..)
    · exact h

theorem Kept.duplicate (h : Kept s₀ s) (r : RxSrc) (port : Nat) (f : YlpFrame) : Kept s₀ (duplicate s r port f) := by
  unfold Machine.duplicate
  dsimp only
  split
  · exact ((h.satF ..).refuseReply ..)
  · split
    · exact (h.satF ..)
    · split
      · exact ((h.satF ..).answerRead ..)
      · split
        · split
          · split
            · exact (((h.satF ..).satF ..).atomicReply ..)
            · exact (h.satF ..)
          · exact (h.satF ..)
        · split
          · exact (h.satF ..)
          · exact ((h.satF ..).ackReply ..)

theorem Kept.refuseTaken (h : Kept s₀ s) (r : RxSrc) (port : Nat) (f : YlpFrame) (status : Nat) :
    Kept s₀ (refuseTaken s r port f status) := (((h.setRx ..).noteRefusal ..).refuseReply ..).ackIfMany ..

theorem Kept.acceptRequest (h : Kept s₀ s) (r : RxSrc) (port : PortId) (f : YlpFrame) :
    Kept s₀ (acceptRequest s r port f) := by
  unfold Machine.acceptRequest
  dsimp only
  split
  · exact ((h.applyRequest ..).setRx ..)
  · split
    · exact (((h.setRx ..).applyRequest ..).ackReply ..)
    · exact (((h.setRx ..).applyRequest ..).ackIfMany ..)

theorem Kept.busyReply (h : Kept s₀ s) (port : PortId) (f : YlpFrame) : Kept s₀ (busyReply s port f) :=
  (h.satF ..).sendReply ..

theorem Kept.takeRequest (h : Kept s₀ s) (r : RxSrc) (port : PortId) (f : YlpFrame) :
    Kept s₀ (takeRequest s r port f) := by
  unfold Machine.takeRequest
  refine .ite (h.refuseTaken ..) (.ite (h.refuseTaken ..) (.ite (h.busyReply ..) (.ite ?_ (h.acceptRequest ..))))
  split
  · next hres => exact (h.reserveReplay hres).acceptRequest ..
  · exact h.busyReply ..

theorem Kept.startEpoch (h : Kept s₀ s) (port : PortId) (f : YlpFrame) : Kept s₀ (startEpoch s port f).1 :=
  (h.dropReplay ..).upd.setRx ..

theorem Kept.sequenced (h : Kept s₀ s) (r : RxSrc) (port : PortId) (f : YlpFrame) :
    Kept s₀ (sequenced s r port f) := by
  unfold Machine.sequenced
  dsimp only
  split
  · exact ((h.setRx ..).duplicate ..)
  · split
    · exact ((h.setRx ..).satF ..)
    · exact ((h.setRx ..).takeRequest ..)

theorem Kept.receiveRequest (h : Kept s₀ s) (port : PortId) (f : YlpFrame) : Kept s₀ (receiveRequest s port f) := by
  unfold Machine.receiveRequest
  split
  · split
    · exact (h.sequenced ..)
    · exact h
  · split
    · exact (h.refuseReply ..)
    · exact ((h.startEpoch ..).sequenced ..)

theorem Kept.frameIn (h : Kept s₀ s) (port : PortId) (f : YlpFrame) (take : State → State)
    (htake : ∀ t, Kept s₀ t → Kept s₀ (take t)) : Kept s₀ (frameIn s port f take) :=
  .ite h (.ite (h.filterFrame ..) (.ite (h.satF ..) (.ite ((h.lateFrame ..).filterFrame ..)
    (htake _ ((h.heardFrom ..).takeAck ..)).settleFabric)))

theorem Kept.requestIn (h : Kept s₀ s) (port : PortId) (f : YlpFrame) : Kept s₀ (requestIn s port f) :=
  (Kept.ite h (h.retireTags ..)).receiveRequest ..

theorem Kept.ylpRequest (h : Kept s₀ s) (op : Nat) (port : PortId) (f : YlpFrame) :
    Kept s₀ (ylpRequest s op port f) := by
  unfold Machine.ylpRequest
  split
  · exact (h.frameIn _ _ _ (fun _ h1 => (h1.requestIn ..)))
  · exact h

theorem Kept.ylpReadIn (h : Kept s₀ s) (port : PortId) (f : YlpFrame) : Kept s₀ (ylpReadIn s port f) := by
  unfold Machine.ylpReadIn
  split
  · exact (h.frameIn _ _ _ (fun _ h1 => (h1.requestIn ..)))
  · exact h

theorem Kept.ylpProbeIn (h : Kept s₀ s) (port : PortId) (f : YlpFrame) : Kept s₀ (ylpProbeIn s port f) := by
  unfold Machine.ylpProbeIn
  split
  · exact (h.frameIn _ _ _ (fun _ h1 => ((h1.retireTags ..).sendReply ..)))
  · exact h

theorem Kept.ylpRetireIn (h : Kept s₀ s) (port : PortId) (f : YlpFrame) : Kept s₀ (ylpRetireIn s port f) := by
  unfold Machine.ylpRetireIn
  split
  · exact (h.frameIn _ _ _ (fun _ h1 => (h1.retireTags ..)))
  · exact h

theorem Kept.sweepNode (h : Kept s₀ s) (node : Nat) : Kept s₀ (sweepNode s node) := by
  unfold Machine.sweepNode
  split
  · exact (h.takeAck ..)
  · exact h

theorem Kept.failRequest (h : Kept s₀ s) (node : Nat) (r : TxReq) (status : Nat) :
    Kept s₀ (failRequest s node r status) := (h.dropRequest ..).ownerDone ..

theorem Kept.resync (h : Kept s₀ s) (node : Nat) : Kept s₀ (resync s node) :=
  (h.setDst ..).foldl _ (fun _ _ h1 => (h1.ownerDone ..))

theorem Kept.markBusy (h : Kept s₀ s) (f : YlpFrame) : Kept s₀ (markBusy s f) := h.setDst ..

theorem Kept.takeStatus (h : Kept s₀ s) (f : YlpFrame) (r : TxReq) : Kept s₀ (takeStatus s f r) := by
  unfold Machine.takeStatus
  split
  · exact (h.markBusy ..)
  · split
    · exact (h.resync ..)
    · exact (h.failRequest ..)

theorem Kept.storeReply (h : Kept s₀ s) (r : TxReq) (bs : List Byte) : Kept s₀ (storeReply s r bs) := by
  unfold Machine.storeReply
  split
  · exact (h.noteData ..)
  · exact (h.memWrite ..)
  · exact h

theorem Kept.takeReadData (h : Kept s₀ s) (f : YlpFrame) : Kept s₀ (takeReadData s f) := by
  unfold Machine.takeReadData
  split
  · exact h
  · split
    · exact h
    · split
      · exact (h.takeStatus ..)
      · split
        · exact (h.failRequest ..)
        · exact (((h.storeReply ..).markReplied ..).sweepNode ..)

theorem Kept.queueRetire (h : Kept s₀ s) (node : Nat) (tag : Nat) : Kept s₀ (queueRetire s node tag) := by
  unfold Machine.queueRetire
  split
  · exact (h.setDst ..)
  · exact h

theorem Kept.takeAtomicResult (h : Kept s₀ s) (f : YlpFrame) : Kept s₀ (takeAtomicResult s f) := by
  unfold Machine.takeAtomicResult
  split
  · exact h
  · split
    · exact h
    · split
      · exact (h.takeStatus ..)
      · dsimp only
        split
        · exact ((h.queueRetire ..).failRequest ..)
        · exact ((((h.queueRetire ..).storeReply ..).markReplied ..).sweepNode ..)

theorem Kept.takeRefuse (h : Kept s₀ s) (f : YlpFrame) : Kept s₀ (takeRefuse s f) := by
  unfold Machine.takeRefuse
  split
  · exact h
  · split
    · exact (h.resync ..)
    · split
      · exact h
      · split
        · exact (h.failRequest ..)
        · exact (h.takeStatus ..)

theorem Kept.takeBusy (h : Kept s₀ s) (f : YlpFrame) : Kept s₀ (takeBusy s f) := by
  unfold Machine.takeBusy
  split
  · exact h
  · exact (h.markBusy ..)

theorem Kept.takeProbeAck (h : Kept s₀ s) (port : PortId) (f : YlpFrame) : Kept s₀ (takeProbeAck s port f) := by
  unfold Machine.takeProbeAck
  split
  · exact (h.setDst ..)
  · exact h

theorem Kept.ylpReply (h : Kept s₀ s) (op : Nat) (port : PortId) (f : YlpFrame) (take : State → State)
    (htake : ∀ t, Kept s₀ t → Kept s₀ (take t)) : Kept s₀ (ylpReply s op port f take) :=
  .ite (h.frameIn _ _ _ htake) h

theorem Kept.ylpAckIn (h : Kept s₀ s) (port : PortId) (f : YlpFrame) : Kept s₀ (ylpAckIn s port f) := by
  unfold Machine.ylpAckIn
  split
  · exact (h.frameIn _ _ _ (fun _ h1 => h1))
  · exact h

theorem Kept.ackDelay (h : Kept s₀ s) (node : Nat) : Kept s₀ (ackDelay s node) := by
  unfold Machine.ackDelay
  split
  · exact h
  · split
    · exact h
    · split
      · exact h
      · exact (h.ackReply ..)

theorem Kept.busyWait (h : Kept s₀ s) (node : Nat) : Kept s₀ (busyWait s node) := by
  unfold Machine.busyWait
  split
  · exact h
  · split
    · exact h
    · exact (((h.setDst ..).resendAll ..).drainWaiting ..)

theorem Kept.retransmit (h : Kept s₀ s) (node : Nat) : Kept s₀ (retransmit s node) := by
  unfold Machine.retransmit
  dsimp only
  split
  · exact h
  · split
    · exact h
    · split
      · exact (h.movePath ..).settleFabric
      · exact ((h.setDst ..).resendAll ..)

theorem Kept.frameLifeExpiry (h : Kept s₀ s) (node : Nat) : Kept s₀ (frameLifeExpiry s node) := by
  unfold Machine.frameLifeExpiry
  dsimp only
  split
  · exact (h.unreachable ..).settleFabric
  · exact h

theorem Kept.probePort (h : Kept s₀ s) (p : Nat) : Kept s₀ (probePort s p) := by
  unfold Machine.probePort
  split
  · exact (h.sendFrame ..).upd
  · exact h

theorem Kept.probeTimer (h : Kept s₀ s) : Kept s₀ (probeTimer s) := by
  unfold Machine.probeTimer
  split
  · exact h
  · exact (h.upd.foldl _ (fun _ _ h1 => (h1.probePort ..))).reportUnreached

theorem Kept.retireTimer (h : Kept s₀ s) (node : Nat) : Kept s₀ (retireTimer s node) := by
  unfold Machine.retireTimer
  dsimp only
  split
  · exact h
  · split
    · exact h
    · exact ((h.setDst ..).sendOn ..)

theorem Kept.replayAged (h : Kept s₀ s) (hr : Nat) : Kept s₀ (replayAged s hr) := by
  unfold Machine.replayAged
  split
  · exact h
  · exact (((h.modHearth ..).satF ..).makeRecord ..)

theorem Kept.refusalExpiry (h : Kept s₀ s) : Kept s₀ (refusalExpiry s) := h.upd.foldl _ (fun _ _ h1 => (h1.lapse ..))

theorem Kept.discoverPeer (h : Kept s₀ s) (port : PortId) (node : Nat) (epoch : Nat) (slot : Nat) :
    Kept s₀ (discoverPeer s port node epoch slot) := by
  unfold Machine.discoverPeer
  split
  · exact h
  · exact ((h.upd.emit ..).heardFrom ..)

end Sys2Proof.Machine
end

section
/-! PROOFS. The operations of Machine/Roce keep the canonical form of memory and the shape of the state. -/

namespace Sys2Proof.Machine

variable {s₀ s t : State}

theorem Kept.roceAckOut (h : Kept s₀ s) (c : Conn) (psn : Nat) : Kept s₀ (roceAckOut s c psn) := h.rocePacketOut ..

theorem Kept.roceNakOut (h : Kept s₀ s) (c : Conn) (psn : Nat) (code : Nat) : Kept s₀ (roceNakOut s c psn code) :=
  h.rocePacketOut ..

theorem Kept.markCnp (h : Kept s₀ s) (c : Conn) (ce : Bool) : Kept s₀ (markCnp s c ce) := by
  unfold Machine.markCnp
  exact .ite h ((h.setConn ..).rocePacketOut ..)

theorem Kept.roceIn (h : Kept s₀ s) (port : PortId) (ext : Nat) (p : RocePkt) (take : State → Conn → State)
    (htake : ∀ t c, Kept s₀ t → Kept s₀ (take t c)) : Kept s₀ (roceIn s port ext p take) := by
  unfold Machine.roceIn
  refine .ite h (.ite (h.filterFrame ..) (.ite (h.satF ..) (.ite (h.filterFrame ..) ?_)))
  split
  · exact h.filterFrame ..
  · exact Kept.settleFabric (.ite (htake _ _ (h.markCnp ..)) ((h.markCnp ..).roceNakOut ..))

theorem Kept.expectNext (h : Kept s₀ s) (c : Conn) (n : Nat) : Kept s₀ (expectNext s c n) := h.setConn ..

theorem Kept.outOfOrder (h : Kept s₀ s) (c : Conn) (p : RocePkt) (again : State → State)
    (hagain : ∀ t, Kept s₀ t → Kept s₀ (again t)) : Kept s₀ (outOfOrder s c p again) :=
  .ite (hagain s h) (h.roceNakOut ..)

theorem Kept.rocePiece (h : Kept s₀ s) (c : Conn) (a : Nat) (left : Nat) (last : Bool) (p : RocePkt) :
    Kept s₀ (rocePiece s c a left last p) := by
  unfold Machine.rocePiece
  dsimp only
  split
  · exact (h.roceNakOut ..)
  · exact ((h.memWrite ..).roceNakOut ..)
  · split
    · exact (((h.memWrite ..).setConn ..).roceAckOut ..)
    · exact ((h.memWrite ..).setConn ..)

theorem Kept.startWrite (h : Kept s₀ s) (c : Conn) (last : Bool) (p : RocePkt) : Kept s₀ (startWrite s c last p) := by
  unfold Machine.startWrite
  split
  · exact (h.roceNakOut ..)
  · split
    · exact (h.roceNakOut ..)
    · exact (h.rocePiece ..)

theorem Kept.nextWrite (h : Kept s₀ s) (c : Conn) (last : Bool) (p : RocePkt) : Kept s₀ (nextWrite s c last p) := by
  unfold Machine.nextWrite
  split
  · exact (h.roceNakOut ..)
  · exact (h.rocePiece ..)

theorem Kept.roceWrite (h : Kept s₀ s) (c : Conn) (part : RocePart) (p : RocePkt) :
    Kept s₀ (roceWrite s c part p) := by
  unfold Machine.roceWrite
  split
  · exact (h.outOfOrder _ _ _ (fun _ h1 => (h1.roceAckOut ..)))
  · split
    · exact (h.startWrite ..)
    · exact (h.nextWrite ..)
    · exact (h.nextWrite ..)
    · exact (h.startWrite ..)

theorem Kept.answerRoceRead (h : Kept s₀ s) (c : Conn) (p : RocePkt) (count : Nat) :
    Kept s₀ (answerRoceRead s c p count) := by
  unfold Machine.answerRoceRead
  dsimp only
  split
  · exact (((h.memRead ..).expectNext ..).foldl _ (fun _ _ h1 => (h1.rocePacketOut ..)))
  · exact (h.roceNakOut ..)
  · exact ((h.memRead ..).roceNakOut ..)

theorem Kept.roceRead (h : Kept s₀ s) (c : Conn) (p : RocePkt) : Kept s₀ (roceRead s c p) := by
  unfold Machine.roceRead
  dsimp only
  split
  · exact (h.outOfOrder _ _ _ (fun _ h1 => (Kept.ite (h1.roceNakOut ..) (Kept.ite (h1.roceNakOut ..)
      (h1.answerRoceRead ..)))))
  · split
    · exact (h.roceNakOut ..)
    · split
      · exact (h.roceNakOut ..)
      · exact (h.answerRoceRead ..)

theorem Kept.writeWindow (h : Kept s₀ s) (m : Nat) (bs : List Byte) : Kept s₀ (writeWindow s m bs) := h.setWindow ..

theorem Kept.roceSendIn (h : Kept s₀ s) (c : Conn) (p : RocePkt) : Kept s₀ (roceSendIn s c p) := by
  unfold Machine.roceSendIn
  dsimp only
  split
  · exact (h.outOfOrder _ _ _ (fun _ h1 => (h1.roceAckOut ..)))
  · split
    · exact (h.roceNakOut ..)
    · split
      · exact ((h.mailboxRefused ..).roceNakOut ..)
      · split
        · exact (h.roceNakOut ..)
        · exact ((((h.writeWindow ..).deliver ..).expectNext ..).roceAckOut ..)

theorem Kept.drainConn (n : Nat) (h : Kept s₀ s) (idx : Nat) : Kept s₀ (drainConn n s idx) := by
  induction n generalizing s with
  | zero => exact h
  | succ n ih =>
    unfold Machine.drainConn
    split
    · exact h
    · split
      · exact h
      · refine .ite h ?_
        dsimp only
        split
        · exact ih ((h.roceIssue ..).setConn ..)
        · exact h.roceIssue ..

theorem Kept.endOps (h : Kept s₀ s) (idx : Nat) (ops : List RoceOp) (fault : Option Nat) :
    Kept s₀ (endOps s idx ops fault) := by
  unfold Machine.endOps
  split
  · exact h
  · split
    · exact h
    · exact (((h.setConn ..).foldl _ (fun _ _ h1 => (h1.ownerDone ..))).drainConn ..)

theorem Kept.ackUpTo (h : Kept s₀ s) (c : Conn) (psn : Nat) : Kept s₀ (ackUpTo s c psn) := h.endOps ..

theorem Kept.storeResponse (h : Kept s₀ s) (c : Conn) (o : RoceOp) (bs : List Byte) :
    Kept s₀ (storeResponse s c o bs) := by
  unfold Machine.storeResponse
  split
  · exact (h.noteData ..)
  · exact (h.memWrite ..)
  · exact h

theorem Kept.readResponse (h : Kept s₀ s) (c : Conn) (p : RocePkt) : Kept s₀ (readResponse s c p) := by
  unfold Machine.readResponse
  dsimp only
  split
  · exact (h.ackUpTo ..)
  · split
    · exact (h.ackUpTo ..)
    · split
      · exact ((((h.ackUpTo ..).storeResponse ..).setConn ..).endOps ..)
      · exact (((h.ackUpTo ..).storeResponse ..).setConn ..)

theorem Kept.goBack (h : Kept s₀ s) (c : Conn) : Kept s₀ (goBack s c) := by
  unfold Machine.goBack
  split
  · exact (h.connectionError ..)
  · exact ((h.setConn ..).foldl _ (fun _ _ h1 => (h1.roceEmit ..)))

theorem Kept.takeNak (h : Kept s₀ s) (c : Conn) (psn : Nat) (retryable : Bool) :
    Kept s₀ (takeNak s c psn retryable) := by
  unfold Machine.takeNak
  dsimp only
  split
  · exact ((h.ackUpTo ..).goBack ..)
  · split
    · exact ((h.ackUpTo ..).endOps ..)
    · exact (h.ackUpTo ..)

theorem Kept.roceTimeout (h : Kept s₀ s) (idx : Nat) : Kept s₀ (roceTimeout s idx) := by
  unfold Machine.roceTimeout
  split
  · exact h
  · split
    · exact h
    · exact (h.goBack ..).settleFabric

theorem Kept.cutRate (h : Kept s₀ s) (c : Conn) : Kept s₀ (cutRate s c) := by
  unfold Machine.cutRate
  dsimp only
  split
  · exact (h.setConn ..)
  · exact (h.setConn ..)

theorem Kept.raiseRate (h : Kept s₀ s) (idx : Nat) : Kept s₀ (raiseRate s idx) := by
  unfold Machine.raiseRate
  split
  · exact h
  · split
    · exact h
    · exact (h.setConn ..)

theorem Kept.connReady (h : Kept s₀ s) : Kept s₀ (connReady s) :=
  ((h.foldl _ (fun _ _ h1 => (h1.releaseHeld ..))).sendNotices ..).pumpStream

theorem Kept.installConn (h : Kept s₀ s) (idx : Nat) (ws : List Word64) : Kept s₀ (installConn s idx ws) :=
  h.upd.upd.connReady

theorem Kept.activateConn (h : Kept s₀ s) (idx : Nat) : Kept s₀ (activateConn s idx) := by
  unfold Machine.activateConn
  split
  · exact h
  · dsimp only
    split
    · exact (h.makeRecord ..)
    · exact (h.installConn ..)

theorem Kept.writeIndex (h : Kept s₀ s) (idx : Nat) : Kept s₀ (writeIndex s idx) := h.putF ..

theorem Kept.connActBy (h : Kept s₀ s) (agent : Nat) (idx : Nat) : Kept s₀ (connActBy s agent idx) := by
  unfold Machine.connActBy
  split
  · exact ((h.writeIndex ..).activateConn ..)
  · exact h

theorem Kept.endConn (h : Kept s₀ s) (idx : Nat) : Kept s₀ (endConn s idx) := by
  unfold Machine.endConn
  split
  · exact h
  · exact (h.upd.foldl _ (fun _ _ h1 => (h1.ownerDone ..))).settleFabric

theorem Kept.connDeactBy (h : Kept s₀ s) (agent : Nat) (idx : Nat) : Kept s₀ (connDeactBy s agent idx) := by
  unfold Machine.connDeactBy
  split
  · exact ((h.writeIndex ..).endConn ..)
  · exact h

end Sys2Proof.Machine
end

section
/-! PROOFS. The operations of Machine/Commit keep the canonical form of memory and the shape of the state. -/

namespace Sys2Proof.Machine

variable {s₀ s t : State}

theorem Kept.startWatch (h : Kept s₀ s) : Kept s₀ (startWatch s) := h.foldl _ (fun _ _ h1 => (h1.heardFrom ..))

theorem Kept.planRefused (h : Kept s₀ s) (off : Nat) : Kept s₀ (planRefused s off) := h.makeRecord ..

theorem Kept.armWith (h : Kept s₀ s) (ws : List Word64) : Kept s₀ (armWith s ws) :=
  ((h.upd.putF ..).putF ..).choosePartner.startWatch

theorem Kept.armPlan (h : Kept s₀ s) : Kept s₀ (armPlan s) := by
  unfold Machine.armPlan
  split
  · exact (h.planRefused ..)
  · dsimp only
    split
    · exact (h.planRefused ..)
    · exact (h.armWith ..)

theorem Kept.armBy (h : Kept s₀ s) (agent : Nat) : Kept s₀ (armBy s agent) := by
  unfold Machine.armBy
  split
  · exact h.armPlan
  · exact h

theorem Kept.wardRefused (h : Kept s₀ s) (node : Nat) (reason : Nat) : Kept s₀ (wardRefused s node reason) :=
  (h.makeRecord ..).upd

theorem Kept.wardArm (h : Kept s₀ s) (node : Nat) (slot : Nat) (base : Nat) (len : Nat) :
    Kept s₀ (wardArm s node slot base len) := by
  unfold Machine.wardArm
  dsimp only
  split
  · exact (h.setWard ..)
  · split
    · exact (h.wardRefused ..)
    · split
      · exact (h.wardRefused ..)
      · exact (h.upd.heardFrom ..)

theorem Kept.namePartner (h : Kept s₀ s) (node : Nat) (cand : Nat) (slot : Nat) : Kept s₀ (namePartner s node cand
  slot) :=
  (((((h.putF ..).putF ..).putF ..).putF ..).putF ..).setPair ..

theorem Kept.sendDoneMark (h : Kept s₀ s) (j : JEntry) : Kept s₀ (sendDoneMark s j) := (h.setJournal ..).sendMirror ..

theorem Kept.resendMarks (h : Kept s₀ s) : Kept s₀ (resendMarks s) :=
  h.upd.foldl _ (fun _ _ h1 => (h1.sendDoneMark ..))

theorem Kept.fullCopyComplete (h : Kept s₀ s) : Kept s₀ (fullCopyComplete s) := by
  unfold Machine.fullCopyComplete
  split
  · exact h
  · split
    · exact h
    · exact (((((h.sendWrites ..).upd.putF ..).putF ..).putF ..).namePartner ..).resendMarks.pumpIntake

theorem Kept.leave (h : Kept s₀ s) : Kept s₀ (leave s) := h.upd

theorem Kept.leaveBy (h : Kept s₀ s) (agent : Nat) : Kept s₀ (leaveBy s agent) := by
  unfold Machine.leaveBy
  split
  · exact h.leave
  · exact h

theorem Kept.leaveIfAsked (h : Kept s₀ s) : Kept s₀ (leaveIfAsked s) := by
  unfold Machine.leaveIfAsked
  split
  · exact h.leaveJob
  · exact h

theorem Kept.ownerTally (h : Kept s₀ s) (tally : Bool) (r : Nat × Nat) : Kept s₀ (ownerTally tally s r) := by
  unfold Machine.ownerTally
  dsimp only
  split
  · exact h.upd
  · split
    · split
      · exact (h.refetchRow ..)
      · exact h
    · exact h.upd

theorem Kept.commitAdopted (h : Kept s₀ s) (step : Nat) (tally : Nat) (w : Ward) :
    Kept s₀ (commitAdopted step tally s w) := by
  unfold Machine.commitAdopted
  split
  · exact h
  · exact (((h.sendWrites ..).sendFps ..).sendWrites ..)

theorem Kept.sendCommit (h : Kept s₀ s) (node : Nat) (slot : Nat) (step : Nat) : Kept s₀ (sendCommit s node slot
  step) :=
  (((((((h.upd.foldl _ (fun _ _ h1 => (h1.ownerTally ..))).sendWrites ..).sendFps ..).foldl _ (fun _ _ h1 =>
    (h1.sendWrites ..))).foldl _ (fun _ _ h1 => (h1.sendDoneMark ..))).sendWrites ..).foldl _ (fun _ _ h1 =>
    (h1.commitAdopted ..))).leaveIfAsked

theorem Kept.closingCommit (h : Kept s₀ s) (node : Nat) (slot : Nat) : Kept s₀ (closingCommit s node slot) := by
  unfold Machine.closingCommit
  dsimp only
  split
  · exact h
  · exact ((h.upd.foldl _ (fun _ _ h1 => (h1.sendDoneMark ..))).sendWrites ..).leaveIfAsked

theorem Kept.commit (h : Kept s₀ s) : Kept s₀ (commit s) := by
  unfold Machine.commit
  split
  · exact h
  · split
    · exact h
    · split
      · exact (h.sendCommit ..)
      · exact (h.closingCommit ..)

theorem Kept.applyDelta (h : Kept s₀ s) (row : Nat × Nat) (delta : Nat) : Kept s₀ (applyDelta s row delta) := by
  unfold Machine.applyDelta
  split
  · split
    · exact (h.memWrite ..)
    · exact h
  · exact h

theorem Kept.fetchFrom (h : Kept s₀ s) (node : Nat) (row : Nat × Nat) : Kept s₀ (fetchFrom s node row) := h.refetch ..

theorem Kept.countMiss (h : Kept s₀ s) : Kept s₀ (countMiss s) := h.satF ..

theorem Kept.tallyRow (h : Kept s₀ s) (tally : Bool) (node : Nat) (row : Nat × Nat) (sent : Nat) (copy : Nat) (record
  : Nat) :
    Kept s₀ (tallyRow s tally node row sent copy record) := by
  unfold Machine.tallyRow
  split
  · split
    · exact h
    · exact (h.countMiss.fetchFrom ..)
  · split
    · exact h
    · split
      · exact (h.countMiss.fetchFrom ..)
      · split
        · exact h.countMiss
        · exact (h.countMiss.haltJob ..)

theorem Kept.updWard (h : Kept s₀ s) (node : Nat) (f : Ward → Ward) : Kept s₀ (updWard s node f) := h.upd

theorem Kept.noteFp (h : Kept s₀ s) (node : Nat) (row : Nat) (fp : Nat) : Kept s₀ (noteFp s node row fp) := h.updWard
  ..

theorem Kept.commitRow (h : Kept s₀ s) (w : Ward) (es : List (Nat × Nat)) (tally : Bool) (p : (Nat × Nat) × Nat) :
    Kept s₀ (commitRow w es tally s p) := by
  unfold Machine.commitRow
  dsimp only
  split
  · exact (h.fetchFrom ..)
  · exact (((h.applyDelta ..).noteFp ..).tallyRow ..)

theorem Kept.ackCommit (h : Kept s₀ s) (w : Ward) (step : Nat) : Kept s₀ (ackCommit s w step) := h.sendWrites ..

theorem Kept.applyCommit (h : Kept s₀ s) (w : Ward) : Kept s₀ (applyCommit s w) := by
  unfold Machine.applyCommit
  dsimp only
  split
  · exact h
  · exact ((((h.foldl _ (fun _ _ h1 => (h1.commitRow ..))).foldl _ (fun _ _ h1 => (h1.fetchFrom ..))).updWard
      ..).writeWord ..)

theorem Kept.commitApply (h : Kept s₀ s) (node : Nat) : Kept s₀ (commitApply s node) := by
  unfold Machine.commitApply
  split
  · exact h
  · split
    · exact ((h.applyCommit ..).ackCommit ..)
    · exact h

theorem Kept.runLater (h : Kept s₀ s) : Kept s₀ (runLater s) := h.upd.foldl _ (fun _ _ h1 => (h1.refetchSeed ..))

theorem Kept.commitAck (h : Kept s₀ s) : Kept s₀ (commitAck s) := by
  unfold Machine.commitAck
  split
  · exact h
  · split
    · exact h.upd.runLater
    · exact h

theorem Kept.reread (h : Kept s₀ s) (owner : Nat) (row : Nat) (n : Nat) : Kept s₀ (reread s owner row n) := by
  unfold Machine.reread
  dsimp only
  split
  · exact (h.upd.sendReads ..)
  · split
    · exact (h.upd.roceSendOn ..)
    · exact h.upd

theorem Kept.workingRow (h : Kept s₀ s) (owner : Nat) (row : Nat) (words : Nat) (fp : Nat) :
    Kept s₀ (workingRow s owner row words fp) := by
  unfold Machine.workingRow
  split
  · exact h
  · split
    · exact h.upd
    · dsimp only
      split
      · exact ((h.satF ..).wedge ..)
      · exact ((h.satF ..).reread ..)

end Sys2Proof.Machine
end

section
/-! PROOFS. The operations of Machine/Members keep the canonical form of memory and the shape of the state. -/

namespace Sys2Proof.Machine

variable {s₀ s t : State}

theorem Kept.heartbeat (h : Kept s₀ s) (node : Nat) : Kept s₀ (heartbeat s node) := by
  unfold Machine.heartbeat
  split
  · exact h
  · exact (h.sendRequest ..)

theorem Kept.hbLossExpiry (h : Kept s₀ s) (node : Nat) : Kept s₀ (hbLossExpiry s node) := by
  unfold Machine.hbLossExpiry
  split
  · split
    · exact h
    · exact (h.declareLoss ..)
  · exact h

theorem Kept.selfFenceCheck (h : Kept s₀ s) : Kept s₀ (selfFenceCheck s) := by
  unfold Machine.selfFenceCheck
  split
  · exact h
  · dsimp only
    split
    · exact h
    · exact h.selfFence

theorem Kept.ackSurv (h : Kept s₀ s) (loc : SurvLoc) (seq : Nat) : Kept s₀ (ackSurv s loc seq) := by
  unfold Machine.ackSurv
  split
  · dsimp only
    split
    · exact (h.carry ..)
    · exact h
  · exact h

theorem Kept.noteTaken (h : Kept s₀ s) (loc : SurvLoc) (seq : Nat) : Kept s₀ (noteTaken s loc seq) := h.upd.ackSurv ..

theorem Kept.takeSurv (h : Kept s₀ s) (loc : SurvLoc) (kind : Nat) (f : State → SurvLine → State)
    (hf : ∀ t l, Kept s₀ t → Kept s₀ (f t l)) : Kept s₀ (takeSurv s loc kind f) := by
  unfold Machine.takeSurv
  refine .ite h ?_
  split
  · exact h.satF ..
  · exact .ite h (hf _ _ (h.noteTaken ..))

theorem Kept.notePlaces (h : Kept s₀ s) (g : Group) (removed : List Nat) : Kept s₀ (notePlaces s g removed) := by
  unfold Machine.notePlaces
  split
  · exact h.upd
  · exact h

theorem Kept.changeGroup (h : Kept s₀ s) (removed : List Nat) (added : List Nat) (g : Group) :
    Kept s₀ (changeGroup removed added s g) := by
  unfold Machine.changeGroup
  split
  · exact ((((h.notePlaces ..).setGroupEntry ..).storeGroup ..).restartInst ..)
  · exact h

theorem Kept.joinPlaces (h : Kept s₀ s) (node : Nat) : Kept s₀ (joinPlaces s node) := h.upd

theorem Kept.adoptGroup (h : Kept s₀ s) (w : Ward) : Kept s₀ (adoptGroup s w) := by
  unfold Machine.adoptGroup
  split
  · exact h
  · dsimp only
    split
    · exact h
    · exact ((h.setGroupEntry ..).storeGroup ..)

theorem Kept.removeNode (h : Kept s₀ s) (node : Nat) : Kept s₀ (removeNode s node) :=
  ((h.unreachable ..).dropReplay ..).upd

theorem Kept.addNode (h : Kept s₀ s) (node : Nat) : Kept s₀ (addNode s node) :=
  Kept.upd (by split; exacts [h, h.drawFree])

theorem Kept.idleReplica (h : Kept s₀ s) (removed : List Nat) (added : List Nat) :
    Kept s₀ (idleReplica s removed added) := by
  unfold Machine.idleReplica
  dsimp only
  split
  · exact h.upd
  · exact (h.upd.putF ..).upd

theorem Kept.freshRelation (h : Kept s₀ s) (q : Nat) : Kept s₀ (freshRelation s q) := h.writeWord ..

theorem Kept.freshRelations (h : Kept s₀ s) : Kept s₀ (freshRelations s) :=
  (h.foldl _ (fun _ _ h1 => (h1.freshRelation ..))).upd.drainSurvLines ..

theorem Kept.rerunReset (h : Kept s₀ s) : Kept s₀ (rerunReset s) := by
  unfold Machine.rerunReset
  split
  · exact h
  · split
    · exact h.upd
    · split
      · exact (h.startReset ..)
      · exact (h.upd.sendSlot27 ..)

theorem Kept.dropPhase (h : Kept s₀ s) (p : Nat × Nat) : Kept s₀ (dropPhase s p) :=
  h.foldl _ (fun _ _ h1 => (h1.atomicAt ..))

theorem Kept.dropFed (h : Kept s₀ s) (removed : List Nat) : Kept s₀ (dropFed s removed) := by
  unfold Machine.dropFed
  split
  · exact h
  · exact (h.foldl _ (fun _ _ h1 => (h1.dropPhase ..)))

theorem Kept.takeWidths (h : Kept s₀ s) (added : List Nat) : Kept s₀ (takeWidths s added) := by
  unfold Machine.takeWidths
  split
  · exact (h.modJob ..)
  · exact h

theorem Kept.lostPairs (h : Kept s₀ s) (removed : List Nat) : Kept s₀ (lostPairs s removed) := by
  unfold Machine.lostPairs
  split
  · exact (h.foldl _ (fun _ _ h1 => (h1.haltJob ..)))
  · exact h

theorem Kept.changeMember (h : Kept s₀ s) (removed : List Nat) (added : List Nat) :
    Kept s₀ (changeMember s removed added) := (((Kept.ite (((((((h.foldl _ (fun _ _ h1 => (h1.removeNode ..))).foldl
      _ (fun _ _ h1 => (h1.addNode ..))).foldl _ (fun _ _ h1 => (h1.adoptGroup ..))).foldl _ (fun _ _ h1 =>
      (h1.joinPlaces ..))).foldl _ (fun _ _ h1 => (h1.changeGroup ..))).freshRelations.dropFed ..).putF
      ..).upd.choosePartner (((((((h.foldl _ (fun _ _ h1 => (h1.removeNode ..))).foldl _ (fun _ _ h1 => (h1.addNode
      ..))).foldl _ (fun _ _ h1 => (h1.adoptGroup ..))).foldl _ (fun _ _ h1 => (h1.joinPlaces ..))).foldl _ (fun _ _
      h1 => (h1.changeGroup ..))).freshRelations.dropFed ..).putF ..).upd).idleReplica ..).takeWidths
      ..).rerunReset.startWatch

theorem Kept.sendChildren (h : Kept s₀ s) (kind : Nat) (mgen : Nat) (removed : List Nat) (added : List Nat) :
    Kept s₀ (sendChildren s kind mgen removed added) := h.foldl _ (fun _ _ h1 => (h1.sendRelation ..))

theorem Kept.makeChange (h : Kept s₀ s) (mgen : Nat) (removed : List Nat) (added : List Nat) :
    Kept s₀ (makeChange s mgen removed added) := (((h.setR ..).changeMember ..).lostPairs ..).upd.sendChildren ..

theorem Kept.changeNotice (h : Kept s₀ s) (mgen : Nat) (subjects : List Nat) : Kept s₀ (changeNotice s mgen subjects)
  :=
  h.postNotice ..

theorem Kept.startChange (h : Kept s₀ s) : Kept s₀ (startChange s) := (h.upd.makeChange ..).changeNotice ..

theorem Kept.nextChange (h : Kept s₀ s) : Kept s₀ (nextChange s) := (Kept.ite h.startChange h)

theorem Kept.confirmUp (h : Kept s₀ s) : Kept s₀ (confirmUp s) := by
  unfold Machine.confirmUp
  split
  · split
    · exact h
    · split
      · exact h.nextChange
      · exact (h.sendRelation ..)
  · exact h

theorem Kept.confirmFrom (h : Kept s₀ s) (rank : Nat) (mgen : Nat) : Kept s₀ (confirmFrom s rank mgen) := by
  unfold Machine.confirmFrom
  split
  · exact h
  · split
    · exact h
    · exact h.upd

theorem Kept.pollConfirm (h : Kept s₀ s) (q : Fin 9) : Kept s₀ (pollConfirm s q) := by
  unfold Machine.pollConfirm
  split
  · split
    · exact ((h.noteTaken ..).confirmFrom ..)
    · exact h
  · exact h

theorem Kept.changeFlow (h : Kept s₀ s) (mgen : Nat) (removed : List Nat) (added : List Nat) :
    Kept s₀ (changeFlow s mgen removed added) := ((h.makeChange ..).foldl _ (fun _ _ h1 => (h1.pollConfirm
      ..))).confirmUp.pumpIntake.settleFabric

theorem Kept.onChange (h : Kept s₀ s) (l : SurvLine) : Kept s₀ (onChange s l) := by
  unfold Machine.onChange
  split
  · exact h
  · split
    · exact h.selfFence
    · exact (h.changeFlow ..)

theorem Kept.onConfirm (h : Kept s₀ s) (loc : SurvLoc) (l : SurvLine) : Kept s₀ (onConfirm s loc l) := by
  unfold Machine.onConfirm
  split
  · exact (h.confirmFrom ..).confirmUp
  · exact h

theorem Kept.confirmIn (h : Kept s₀ s) (loc : SurvLoc) : Kept s₀ (confirmIn s loc) := by
  unfold Machine.confirmIn
  split
  · exact h
  · exact (h.takeSurv _ _ _ (fun _ _ h1 => (h1.onConfirm ..)))

theorem Kept.addReport (h : Kept s₀ s) (removed : Bool) (node : Nat) : Kept s₀ (addReport s removed node) := by
  unfold Machine.addReport
  dsimp only
  split
  · exact h
  · exact h.upd

theorem Kept.takeOver (h : Kept s₀ s) (lost : List Nat) : Kept s₀ (takeOver s lost) :=
  (h.upd.changeFlow ..).changeNotice ..

theorem Kept.onLoss (h : Kept s₀ s) (l : SurvLine) : Kept s₀ (onLoss s l) := by
  unfold Machine.onLoss
  split
  · exact h
  · split
    · exact h
    · split
      · exact (h.foldl _ (fun _ _ h1 => (h1.addReport ..))).nextChange.settleFabric
      · split
        · exact (h.takeOver ..)
        · exact h

theorem Kept.onJoin (h : Kept s₀ s) (l : SurvLine) : Kept s₀ (onJoin s l) := by
  unfold Machine.onJoin
  split
  · exact (h.foldl _ (fun _ _ h1 => (h1.addReport ..))).nextChange.settleFabric
  · exact h

theorem Kept.rejoinNotice (h : Kept s₀ s) (node : Nat) : Kept s₀ (rejoinNotice s node) := h.postNotice ..

theorem Kept.endChange (h : Kept s₀ s) (c : Change) : Kept s₀ (endChange s c) :=
  (Kept.ite ((Kept.ite h.upd.upd h.upd).foldl _ (fun _ _ h1 => (h1.rejoinNotice ..))) (Kept.ite h.upd.upd h.upd))

theorem Kept.holdoff (h : Kept s₀ s) : Kept s₀ (holdoff s) := by
  unfold Machine.holdoff
  split
  · exact h
  · split
    · exact h
    · exact ((h.sendChildren ..).endChange ..)

theorem Kept.onResume (h : Kept s₀ s) (l : SurvLine) : Kept s₀ (onResume s l) := by
  unfold Machine.onResume
  split
  · split
    · exact ((h.sendChildren ..).endChange ..)
    · exact h
  · exact h

theorem Kept.onHalt (h : Kept s₀ s) (l : SurvLine) : Kept s₀ (onHalt s l) := by
  unfold Machine.onHalt
  split
  · exact h
  · exact (h.floodHalt ..)

theorem Kept.copyItem (h : Kept s₀ s) (node : Nat) (j : JEntry) : Kept s₀ (copyItem node s j) :=
  (h.upd.storeEntry ..).sendMirror ..

theorem Kept.postTakeover (h : Kept s₀ s) (node : Nat) (rings : List (Nat × Nat × Nat)) :
    Kept s₀ (postTakeover s node rings) := h.foldl _ (fun _ _ h1 => (h1.postRecord ..))

theorem Kept.takeMirror (h : Kept s₀ s) (w : Ward) (commit : Nat) : Kept s₀ (takeMirror s w commit) :=
  (h.foldl _ (fun _ _ h1 => (h1.copyItem ..))).noteFull.upd.postTakeover ..

theorem Kept.nameStream (h : Kept s₀ s) (k : Option Nat) : Kept s₀ (nameStream s k) := h.upd

theorem Kept.zeroRange (h : Kept s₀ s) (r : Nat × Nat) : Kept s₀ (zeroRange s r) := (h.zeroBytes ..).upd

theorem Kept.setWardState (h : Kept s₀ s) (w : Ward) (st : Nat) : Kept s₀ (setWardState s w st) := h.writeWord ..

theorem Kept.copyAdopted (h : Kept s₀ s) (w : Ward) : Kept s₀ (copyAdopted s w) := by
  unfold Machine.copyAdopted
  split
  · exact h
  · exact ((((h.sendWrites ..).sendRanges ..).sendFps ..).sendWrites ..)

theorem Kept.adoptShard (h : Kept s₀ s) (w : Ward) (commit : Nat) : Kept s₀ (adoptShard s w commit) :=
  (((((h.foldl _ (fun _ _ h1 => (h1.zeroRange ..))).takeMirror ..).satF ..).upd.setWardState ..).copyAdopted
    ..).postNotice ..

theorem Kept.promote (h : Kept s₀ s) (w : Ward) : Kept s₀ (promote s w) :=
  (Kept.ite (h.haltJob ..) (Kept.ite (((Kept.ite (h.applyCommit ..) h).nameStream ..).haltJob ..) (Kept.ite h
    ((Kept.ite (h.applyCommit ..) h).adoptShard ..))))

theorem Kept.leaseExpiry (h : Kept s₀ s) (node : Nat) : Kept s₀ (leaseExpiry s node) := by
  unfold Machine.leaseExpiry
  split
  · split
    · exact h
    · exact (h.promote ..).settleFabric
  · exact h

theorem Kept.leaveShardGroup (h : Kept s₀ s) (w : Ward) : Kept s₀ (leaveShardGroup s w) := by
  unfold Machine.leaveShardGroup
  split
  · dsimp only
    split
    · exact h
    · exact (h.groupDeact ..)
  · exact h

theorem Kept.handover (h : Kept s₀ s) (node : Nat) : Kept s₀ (handover s node) := by
  unfold Machine.handover
  split
  · exact h
  · split
    · exact h
    · exact (((h.sendRanges ..).leaveShardGroup ..).setWardState ..).upd.settleFabric

theorem Kept.restoreRegions (rs : List (Nat × Nat)) (a : Nat) (h : Kept s₀ s) : Kept s₀ (restoreRegions rs a s) := by
  induction rs generalizing a s with
  | nil => exact h
  | cons r rs ih => exact ih _ (h.memWrite ..)

theorem Kept.restoreCursorLines (h : Kept s₀ s) : Kept s₀ (restoreCursorLines s) :=
  h.foldl _ (fun _ _ h1 => (h1.memWrite ..))

theorem Kept.restore (h : Kept s₀ s) : Kept s₀ (restore s) := by
  unfold Machine.restore
  dsimp only
  split
  · split
    · exact (((h.putF ..).putF ..).nameStream ..)
    · exact ((h.putF ..).putF ..)
  · exact (((Kept.ite ((h.putF ..).putF ..).restoreCursorLines ((h.putF ..).putF ..)).restoreRegions ..).upd.putF ..)

theorem Kept.restoreBy (h : Kept s₀ s) (agent : Nat) : Kept s₀ (restoreBy s agent) := by
  unfold Machine.restoreBy
  split
  · exact h.restore
  · exact h

end Sys2Proof.Machine
end

section
/-! PROOFS. The operations of Machine/Power keep the canonical form of memory and the shape of the state. -/

namespace Sys2Proof.Machine

variable {s₀ s t : State}

theorem Kept.modPower (h : Kept s₀ s) (f : Power → Power) : Kept s₀ (modPower s f) := h.upd

theorem Kept.addSample (h : Kept s₀ s) (watts : Nat) (amps : Nat) : Kept s₀ (addSample s watts amps) :=
  ((h.modPower ..).putF ..).putF ..

theorem Kept.noteOver (h : Kept s₀ s) : Kept s₀ (noteOver s) := h.modPower ..

theorem Kept.noteExcursion (h : Kept s₀ s) : Kept s₀ (noteExcursion s) := by
  unfold Machine.noteExcursion
  split
  · split
    · exact h
    · exact (((h.modPower ..).putF ..).satF ..)
  · exact ((h.modPower ..).putF ..)

theorem Kept.setPace (h : Kept s₀ s) (k : Nat) : Kept s₀ (setPace s k) := by
  unfold Machine.setPace
  exact ((Kept.ite (h.satF ..) h).putF ..).modPower ..

theorem Kept.paceDown (h : Kept s₀ s) : Kept s₀ (paceDown s) := by
  unfold Machine.paceDown
  split
  · exact h
  · exact (h.drawFree.setPace ..)

theorem Kept.settleLimit (h : Kept s₀ s) : Kept s₀ (settleLimit s) := h.putF ..

theorem Kept.powerEstimate (h : Kept s₀ s) (watts : Nat) (amps : Nat) : Kept s₀ (powerEstimate s watts amps) := by
  unfold Machine.powerEstimate
  dsimp only
  split
  · exact (h.addSample ..).settleLimit
  · exact (Kept.ite (h.addSample ..).noteOver.noteExcursion.paceDown (h.addSample
      ..).noteOver.noteExcursion).settleLimit

theorem Kept.paceRaise (h : Kept s₀ s) (gone : Bool) : Kept s₀ (paceRaise s gone) := by
  unfold Machine.paceRaise
  split
  · exact h
  · exact (h.setPace ..)

theorem Kept.avsRead (h : Kept s₀ s) (mv : Nat) (rails : List (BitVec 16)) : Kept s₀ (avsRead s mv rails) := by
  unfold Machine.avsRead
  exact ((h.putF ..).putF ..).modPower ..

theorem Kept.avsFail (h : Kept s₀ s) : Kept s₀ (avsFail s) := by
  unfold Machine.avsFail
  dsimp only
  split
  · exact (((h.modPower ..).modPower ..).makeRecord ..)
  · exact (h.modPower ..)

theorem Kept.avsCurrentRead (h : Kept s₀ s) (ok : Bool) (mv : Nat) (rails : List (BitVec 16)) :
    Kept s₀ (avsCurrentRead s ok mv rails) := by
  unfold Machine.avsCurrentRead
  split
  · exact h
  · split
    · exact (h.avsRead ..)
    · exact h.avsFail

theorem Kept.requestV (h : Kept s₀ s) (v : Nat) : Kept s₀ (requestV s v) := by
  unfold Machine.requestV
  split
  · exact h
  · exact (((h.modPower ..).putF ..).emit ..)

theorem Kept.startVoltage (h : Kept s₀ s) : Kept s₀ (startVoltage s) := by
  unfold Machine.startVoltage
  split
  · exact h
  · exact (((h.modPower ..).putF ..).emit ..)

theorem Kept.moveV (h : Kept s₀ s) : Kept s₀ (moveV s) := by
  unfold Machine.moveV
  split
  · exact h
  · split
    · exact (h.requestV ..)
    · split
      · exact (h.requestV ..)
      · exact h

theorem Kept.standingGrants (h : Kept s₀ s) : Kept s₀ (standingGrants s) := by
  unfold Machine.standingGrants
  exact (h.foldl _ (fun _ _ h1 => (h1.syncGrants ..))).modPower ..

theorem Kept.applyGrant (h : Kept s₀ s) (a : GrantReq) : Kept s₀ (applyGrant s a) := by
  unfold Machine.applyGrant
  split
  · exact (h.foldl _ (fun _ _ h1 => (h1.modAnvil ..)))
  · exact (h.modAnvil ..)
  · exact (h.modAnvil ..)
  · exact ((h.modCoreRest ..).pumpQueue ..)

theorem Kept.grant (h : Kept s₀ s) : Kept s₀ (grant s) := by
  unfold Machine.grant
  dsimp only
  split
  · exact h.standingGrants
  · split
    · exact h.standingGrants
    · exact ((h.standingGrants.modPower ..).applyGrant ..).noteIdle

theorem Kept.ditherExpiry (h : Kept s₀ s) : Kept s₀ (ditherExpiry s) := by
  unfold Machine.ditherExpiry
  split
  · exact h
  · exact (h.modPower ..).grant

theorem Kept.idleVfloor (h : Kept s₀ s) : Kept s₀ (idleVfloor s) := by
  unfold Machine.idleVfloor
  split
  · exact (h.modPower ..).moveV
  · exact h

theorem Kept.forecastWindowDue (h : Kept s₀ s) : Kept s₀ (forecastWindowDue s) := by
  unfold Machine.forecastWindowDue
  dsimp only
  split
  · exact ((h.modPower ..).modPower ..).moveV
  · exact (h.modPower ..)

theorem Kept.noteParked (h : Kept s₀ s) : Kept s₀ (noteParked s) := h.modPower ..

theorem Kept.ladderDown (h : Kept s₀ s) (ht : ladderDown s = some t) : Kept s₀ t := by
  unfold Machine.ladderDown at ht
  split at ht
  · cases ht; exact h.modPower ..
  · split at ht
    · cases ht
    · split at ht
      · cases ht; exact (h.modPower ..).noteParked
      · obtain ⟨u, -, rfl⟩ := Option.map_eq_some_iff.1 ht
        exact (h.modPower ..).domCommand ..

theorem Kept.unparkFirst (h : Kept s₀ s) (u : Nat) : Kept s₀ (unparkFirst s u) := by
  unfold Machine.unparkFirst
  split
  · exact (h.modPower ..)
  · exact h

theorem Kept.ladderUp (h : Kept s₀ s) : Kept s₀ (ladderUp s) := by
  unfold Machine.ladderUp
  split
  · exact (((h.modPower ..).unparkFirst ..).domCommand ..)
  · split
    · exact (h.modPower ..)
    · split
      · exact (h.modPower ..)
      · exact h

theorem Kept.ladderMove (h : Kept s₀ s) : Kept s₀ (ladderMove s) := by
  unfold Machine.ladderMove
  refine .ite ?_ (.ite h.ladderUp h)
  cases hdown : Machine.ladderDown s with
  | none => exact h.paceDown
  | some t => exact h.ladderDown hdown

theorem Kept.ladderStep (h : Kept s₀ s) : Kept s₀ (ladderStep s) := by
  unfold Machine.ladderStep
  split
  · exact (h.modPower ..).noteParked.ladderMove.noteParked.moveV.settleLimit
  · exact h

end Sys2Proof.Machine
end

section
/-! PROOFS. The operations of Machine/Thermal keep the canonical form of memory and the shape of the state. -/

namespace Sys2Proof.Machine

variable {s₀ s t : State}

theorem Kept.modTherm (h : Kept s₀ s) (f : Therm → Therm) : Kept s₀ (modTherm s f) := h.upd

theorem Kept.rampAllOff (h : Kept s₀ s) : Kept s₀ (rampAllOff s) :=
  h.mapCores fun c hc => by simpa [coreSized] using hc

theorem Kept.quenchDomain (h : Kept s₀ s) (u : Nat) : Kept s₀ (quenchDomain s u) := by
  unfold Machine.quenchDomain
  dsimp only
  split
  · exact (h.modDomain ..)
  · split
    · exact (((h.setDomState ..).modDomain ..).addPending ..)
    · exact (h.beginOn ..)

theorem Kept.declareQuench (h : Kept s₀ s) (cause : Nat) : Kept s₀ (declareQuench s cause) := by
  unfold Machine.declareQuench
  split
  · exact h
  · exact (((((((h.modTherm ..).putF ..).satF ..).modPower ..).putF ..).foldl _ (fun _ _ h1 => (h1.quenchDomain
      ..))).rampAllOff.foldl _ (fun _ _ h1 => (h1.syncGrants ..))).settleLimit

theorem Kept.quenchBy (h : Kept s₀ s) (agent : Nat) : Kept s₀ (quenchBy s agent) := by
  unfold Machine.quenchBy
  split
  · exact (h.declareQuench ..)
  · exact h

theorem Kept.quenchIdle (h : Kept s₀ s) : Kept s₀ (quenchIdle s) := by
  unfold Machine.quenchIdle
  split
  · exact h
  · exact ((h.modTherm ..).requestV ..)

theorem Kept.selfRefreshReentry (h : Kept s₀ s) (hr : Nat) (chan : Nat) : Kept s₀ (selfRefreshReentry s hr chan) := by
  unfold Machine.selfRefreshReentry
  split
  · exact h
  · split
    · exact h
    · exact (h.modPower ..)

theorem Kept.shiftTimes (h : Kept s₀ s) (q : Nat) : Kept s₀ (shiftTimes s q) :=
  (h.mapCores (f := fun c => { c with
      heldWaits := c.heldWaits.map fun w => { w with quenched := w.quenched + quenchPart s q w.since }
      preq := c.preq.map fun t => t + quenchPart s q t }) fun _ hc => hc).of_shape (by simp [shape,
        Machine.shiftTimes])

theorem Kept.resumeStart (h : Kept s₀ s) : Kept s₀ (resumeStart s) := by
  unfold Machine.resumeStart
  split
  · exact h.startVoltage
  · exact h

theorem Kept.releaseAll (h : Kept s₀ s) : Kept s₀ (releaseAll s) :=
  ((h.foldl _ (fun _ _ h1 => (h1.retryHalf ..))).foldl _ (fun _ _ h1 => (h1.raiseFailed
    ..))).releaseBells.pumpIntake.pumpAll.pumpFabrics

theorem Kept.endQuench (h : Kept s₀ s) (since : Nat) : Kept s₀ (endQuench s since) :=
  (((((h.requestV ..).resumeStart.modTherm ..).putF ..).modPower ..).shiftTimes ..).releaseAll.settleLimit

theorem Kept.quenchEnd (h : Kept s₀ s) : Kept s₀ (quenchEnd s) := by
  unfold Machine.quenchEnd
  split
  · exact h
  · split
    · exact (h.endQuench ..)
    · exact h

theorem Kept.quenchLeave (h : Kept s₀ s) : Kept s₀ (quenchLeave s) := by
  unfold Machine.quenchLeave
  split
  · exact h
  · dsimp only
    split
    · exact h
    · exact (h.modTherm ..).leave

theorem Kept.coresLost (h : Kept s₀ s) : Kept s₀ (coresLost s) := h.mapCores fun _ _ => coreSized_reset

theorem Kept.thermalTrip (h : Kept s₀ s) (sensor : Nat) (reading : Nat) : Kept s₀ (thermalTrip s sensor reading) := by
  unfold Machine.thermalTrip
  split
  · exact h
  · exact ((((h.upd.makeRecord ..).writeRecord ..).putF ..).serviceStanding.selfFence.modTherm ..).coresLost.noteIdle

theorem Kept.hotPacing (h : Kept s₀ s) : Kept s₀ (hotPacing s) := by
  unfold Machine.hotPacing
  split
  · dsimp only
    split
    · exact ((h.modPower ..).setPace ..)
    · exact (h.modPower ..)
  · split
    · exact (h.modPower ..)
    · exact h

theorem Kept.thermalSample (h : Kept s₀ s) (tj : Nat) (sensor : Nat) : Kept s₀ (thermalSample s tj sensor) :=
  (Kept.ite ((Kept.ite ((Kept.ite ((h.putF ..).putF ..) ((h.putF ..).putF ..).hotPacing).declareQuench ..) (Kept.ite
    ((h.putF ..).putF ..) ((h.putF ..).putF ..).hotPacing)).thermalTrip ..) (Kept.ite ((Kept.ite ((h.putF ..).putF
    ..) ((h.putF ..).putF ..).hotPacing).declareQuench ..) (Kept.ite ((h.putF ..).putF ..) ((h.putF ..).putF
    ..).hotPacing)))

theorem Kept.allowanceStep (h : Kept s₀ s) : Kept s₀ (allowanceStep s) := by
  unfold Machine.allowanceStep
  dsimp only
  split
  · exact h
  · split
    · exact (h.modPower ..)
    · split
      · exact (h.modPower ..)
      · exact h

theorem Kept.senseLost (h : Kept s₀ s) (cause : Nat) : Kept s₀ (senseLost s cause) := by
  unfold Machine.senseLost
  dsimp only
  split
  · exact ((h.modTherm ..).putF ..)
  · exact ((((h.modTherm ..).putF ..).modTherm ..).makeRecord ..)

theorem Kept.senseBack (h : Kept s₀ s) : Kept s₀ (senseBack s) := by
  unfold Machine.senseBack
  dsimp only
  split
  · exact (((h.putF ..).modTherm ..).makeRecord ..)
  · exact (h.putF ..)

theorem Kept.noteFlow (h : Kept s₀ s) (flow : Nat) : Kept s₀ (noteFlow s flow) := by
  unfold Machine.noteFlow
  exact h.modTherm ..

theorem Kept.requestFlow (h : Kept s₀ s) : Kept s₀ (requestFlow s) := by
  unfold Machine.requestFlow
  dsimp only
  split
  · exact h
  · exact (((h.putF ..).modPower ..).emit ..)

theorem Kept.coolantRead (h : Kept s₀ s) (ok : Bool) (inlet : Nat) (flow : Nat) (faults : Nat) :
    Kept s₀ (coolantRead s ok inlet flow faults) := by
  unfold Machine.coolantRead
  split
  · dsimp only
    split
    · exact ((h.modTherm ..).senseLost ..)
    · exact (h.modTherm ..)
  · dsimp only
    split
    · exact (((((h.modTherm ..).putF ..).putF ..).modTherm ..).senseLost ..)
    · exact ((((h.modTherm ..).putF ..).putF ..).senseBack.noteFlow ..)

theorem Kept.coolantPoll (h : Kept s₀ s) (ok : Bool) (inlet : Nat) (flow : Nat) (faults : Nat) :
    Kept s₀ (coolantPoll s ok inlet flow faults) := by
  unfold Machine.coolantPoll
  split
  · exact h
  · exact (h.coolantRead ..).requestFlow.settleLimit

theorem Kept.lowFlowQuench (h : Kept s₀ s) : Kept s₀ (lowFlowQuench s) := by
  unfold Machine.lowFlowQuench
  split
  · exact (h.declareQuench ..)
  · exact h

theorem Kept.settleLife (h : Kept s₀ s) : Kept s₀ (settleLife s) := by
  unfold Machine.settleLife
  dsimp only
  split
  · exact (((h.putF ..).modTherm ..).makeRecord ..)
  · exact (h.putF ..)

theorem Kept.countSwing (h : Kept s₀ s) (a : Int) : Kept s₀ (countSwing s a) := by
  unfold Machine.countSwing
  split
  · exact (h.satF ..).settleLife
  · exact h

theorem Kept.setCycle (h : Kept s₀ s) (up : Bool) (ext : Int) (cand : Int) : Kept s₀ (setCycle s up ext cand) :=
  h.modTherm ..

theorem Kept.cycleSample (h : Kept s₀ s) (tj : Int) : Kept s₀ (cycleSample s tj) := by
  unfold Machine.cycleSample
  dsimp only
  split
  · exact (h.setCycle ..)
  · split
    · split
      · exact (h.setCycle ..)
      · split
        · exact (h.setCycle ..)
        · split
          · exact ((h.setCycle ..).countSwing ..)
          · exact h
    · split
      · exact (h.setCycle ..)
      · split
        · exact (h.setCycle ..)
        · split
          · exact ((h.setCycle ..).countSwing ..)
          · exact h

theorem Kept.countHot (h : Kept s₀ s) (tj : Int) : Kept s₀ (countHot s tj) := by
  unfold Machine.countHot
  split
  · exact h
  · dsimp only
    split
    · exact (h.modTherm ..)
    · exact (((h.modTherm ..).modTherm ..).satF ..)

theorem Kept.wearRecordWrite (h : Kept s₀ s) : Kept s₀ (wearRecordWrite s) :=
  (Kept.ite ((h.writeRecord ..).modTherm ..) h)

theorem Kept.loadWear (h : Kept s₀ s) : Kept s₀ (loadWear s) := by
  unfold Machine.loadWear
  split
  · exact h
  · exact (((Kept.ite ((h.foldl _ (fun _ _ h1 => (h1.setR ..))).putF ..) (((h.foldl _ (fun _ _ h1 => (h1.setR
      ..))).putF ..).modTherm ..)).putF ..).modTherm ..)

end Sys2Proof.Machine
end

section
/-! PROOFS. The operations of Machine/Rotation keep the canonical form of memory and the shape of the state. -/

namespace Sys2Proof.Machine

variable {s₀ s t : State}

theorem Kept.rotateTest (h : Kept s₀ s) (half : Nat) : Kept s₀ (rotateTest s half) := by
  unfold Machine.rotateTest
  dsimp only
  split
  · exact h
  · exact ((h.modPower ..).domCommand ..)

theorem Kept.runAll (h : Kept s₀ s) : Kept s₀ (runAll s) := h.foldl _ (fun _ _ h1 => (h1.domCommand ..))

theorem Kept.runBy (h : Kept s₀ s) (agent : Nat) : Kept s₀ (runBy s agent) := by
  unfold Machine.runBy
  split
  · exact h.runAll
  · exact h

theorem Kept.startPortTest (h : Kept s₀ s) (p : PortId) : Kept s₀ (startPortTest s p) :=
  (h.takePortDown ..).setPort ..

theorem Kept.portTest (h : Kept s₀ s) (p : PortId) : Kept s₀ (portTest s p) := by
  unfold Machine.portTest
  dsimp only
  split
  · exact ((h.putF ..).startPortTest ..)
  · exact (h.putF ..).upd

theorem Kept.portTestBy (h : Kept s₀ s) (agent : Nat) (p : PortId) : Kept s₀ (portTestBy s agent p) := by
  unfold Machine.portTestBy
  split
  · exact (h.portTest ..)
  · exact h

theorem Kept.queuedTestRun (h : Kept s₀ s) : Kept s₀ (queuedTestRun s) := by
  unfold Machine.queuedTestRun
  split
  · exact h
  · split
    · exact h
    · exact h.startRerun
    · exact (h.upd.startPortTest ..)

theorem Kept.captureDone (h : Kept s₀ s) (idx : Nat) : Kept s₀ (captureDone s idx) :=
  (h.captureComplete ..).pumpFabrics.pumpIntake

end Sys2Proof.Machine
end

section
/-! PROOFS. The operations of Machine/Trust keep the canonical form of memory and the shape of the state. -/

namespace Sys2Proof.Machine

variable {s₀ s t : State}

theorem Kept.modBoot (h : Kept s₀ s) (f : Boot → Boot) : Kept s₀ (modBoot s f) := h.upd

theorem Kept.setBootRecord (h : Kept s₀ s) (pref : Bool) (tries : Nat) : Kept s₀ (setBootRecord s pref tries) :=
  ((h.writeRecord ..).putF ..).putF ..

theorem Kept.saveStart (h : Kept s₀ s) : Kept s₀ (saveStart s) := h.writeRecord ..

theorem Kept.requestRefused (h : Kept s₀ s) (a : Nat) : Kept s₀ (requestRefused s a) := h.makeRecord ..

theorem Kept.setStage (h : Kept s₀ s) (busy : Nat) (result : Nat) : Kept s₀ (setStage s busy result) :=
  (h.putF ..).putF ..

theorem Kept.stageWrite (h : Kept s₀ s) (setPref : Bool) : Kept s₀ (stageWrite s setPref) := by
  unfold Machine.stageWrite
  split
  · exact ((h.putF ..).requestRefused ..)
  · dsimp only
    split
    · exact (((h.flashErase ..).modBoot ..).setStage ..)
    · exact (h.putF ..)

theorem Kept.stageBy (h : Kept s₀ s) (agent : Nat) (setPref : Bool) : Kept s₀ (stageBy s agent setPref) := by
  unfold Machine.stageBy
  split
  · exact (h.stageWrite ..)
  · exact h

theorem Kept.programSlot (h : Kept s₀ s) (a : Nat) : Kept s₀ (programSlot s a) := (h.flashErase ..).flashWrite ..

theorem Kept.flushRetire (h : Kept s₀ s) : Kept s₀ (flushRetire s) := by
  unfold Machine.flushRetire
  split
  · exact h.saveRetirement
  · exact h

theorem Kept.slotWriteComplete (h : Kept s₀ s) (flashOk : Bool) : Kept s₀ (slotWriteComplete s flashOk) := by
  unfold Machine.slotWriteComplete
  split
  · exact h
  · dsimp only
    split
    · exact (((h.modBoot ..).flashErase ..).setStage ..).flushRetire
    · split
      · exact (((h.modBoot ..).programSlot ..).setStage ..).flushRetire
      · exact ((Kept.ite (((h.modBoot ..).programSlot ..).setBootRecord ..) ((h.modBoot ..).programSlot ..)).setStage
          ..).flushRetire

theorem Kept.commitConfig (h : Kept s₀ s) (agent : Nat) : Kept s₀ (commitConfig s agent) := by
  unfold Machine.commitConfig
  split
  · exact (h.putF ..)
  · exact h

theorem Kept.burnFuses (h : Kept s₀ s) (bs : List Byte) : Kept s₀ (burnFuses s bs) := by
  unfold Machine.burnFuses
  exact h.modBoot ..

theorem Kept.clearRetire (h : Kept s₀ s) (bs : List Byte) : Kept s₀ (clearRetire s bs) := by
  unfold Machine.clearRetire
  split
  · exact (h.modBoot ..).saveRetirement
  · exact h

theorem Kept.applyChange (h : Kept s₀ s) (bs : List Byte) : Kept s₀ (applyChange s bs) :=
  (((h.writeRecord ..).burnFuses ..).modBoot ..).saveStart.clearRetire ..

theorem Kept.applyRecord (h : Kept s₀ s) : Kept s₀ (applyRecord s) := by
  unfold Machine.applyRecord
  dsimp only
  split
  · exact ((h.putF ..).applyChange ..)
  · exact ((h.putF ..).requestRefused ..)

theorem Kept.applyBy (h : Kept s₀ s) (agent : Nat) : Kept s₀ (applyBy s agent) := by
  unfold Machine.applyBy
  split
  · exact h.applyRecord
  · exact h

theorem Kept.adoptProt (h : Kept s₀ s) (bs : List Byte) : Kept s₀ (adoptProt s bs) := h.modBoot ..

theorem Kept.completeChange (h : Kept s₀ s) (bs : List Byte) : Kept s₀ (completeChange s bs) :=
  ((h.burnFuses ..).modBoot ..).clearRetire ..

theorem Kept.acceptProt (h : Kept s₀ s) (ht : acceptProt s = some t) : Kept s₀ t := by
  unfold Machine.acceptProt at ht
  split at ht
  · cases ht
  · split at ht
    · cases ht
    · split at ht
      · cases ht; exact h.adoptProt ..
      · split at ht
        · cases ht; exact (h.completeChange ..).adoptProt ..
        · split at ht
          · cases ht; exact (h.burnFuses ..).adoptProt ..
          · cases ht

end Sys2Proof.Machine
end

section
/-! PROOFS. The operations of Machine/RegWrite keep the canonical form of memory and the shape of the state. -/

namespace Sys2Proof.Machine

variable {s₀ s t : State}

theorem Kept.storeWrite (h : Kept s₀ s) (agent : Nat) (a : Nat) (v : Nat) (d : RegDesc) :
    Kept s₀ (storeWrite s agent a v d) := h.setR ..

theorem Kept.lockedWrite (h : Kept s₀ s) (a : Nat) (v : Nat) (d : RegDesc) : Kept s₀ (lockedWrite s a v d) := by
  unfold Machine.lockedWrite
  split
  · exact (h.makeRecord ..)
  · exact h

theorem Kept.actDeact (act deact : Bool) (on off : State → State) (h : Kept s₀ s)
    (hon : ∀ t, Kept s₀ t → Kept s₀ (on t)) (hoff : ∀ t, Kept s₀ t → Kept s₀ (off t)) :
    Kept s₀ (actDeact act deact on off s) := .ite (hon s h) (.ite (hoff s h) h)

theorem Kept.tileAction (h : Kept s₀ s) (a : Nat) (v : Nat) : Kept s₀ (tileAction s a v) := by
  unfold Machine.tileAction
  dsimp only
  split
  · exact h
  · exact (h.splitWrite ..)

theorem Kept.settlePfc (h : Kept s₀ s) (p : Nat) : Kept s₀ (settlePfc s p) := ((h.setPort ..).putF ..).flushHeld ..

theorem Kept.portAction (h : Kept s₀ s) (p : PortId) (v : Nat) : Kept s₀ (portAction s p v) := by
  unfold Machine.portAction
  dsimp only
  split
  · exact ((h.settlePfc ..).portEnable ..)
  · split
    · exact ((h.settlePfc ..).portDisable ..)
    · exact (h.settlePfc ..)

theorem Kept.mboxAction (h : Kept s₀ s) (agent : Nat) (m : Nat) (v : Nat) : Kept s₀ (mboxAction s agent m v) := by
  unfold Machine.mboxAction
  dsimp only
  split
  · exact ((Kept.ite (h.takeMessage ..) h).postMessage ..)
  · split
    · exact (h.takeMessage ..)
    · exact h

theorem Kept.survAction (h : Kept s₀ s) (v : Nat) : Kept s₀ (survAction s v) := by
  unfold Machine.survAction
  dsimp only
  split
  · exact (Kept.ite h.armPlan h).leave
  · split
    · exact h.armPlan
    · exact h

theorem Kept.testAction (h : Kept s₀ s) (v : Nat) : Kept s₀ (testAction s v) := by
  unfold Machine.testAction
  dsimp only
  split
  · exact ((Kept.ite h.runAll h).portTest ..)
  · split
    · exact h.runAll
    · exact h

theorem Kept.writeAction (h : Kept s₀ s) (agent : Nat) (a : Nat) (v : Nat) : Kept s₀ (writeAction s agent a v) :=
  (Kept.ite (h.actDeact _ _ _ _ (fun _ h1 => (h1.activateConn ..)) (fun _ h1 => (h1.endConn ..))) (Kept.ite
    (h.actDeact _ _ _ _ (fun _ h1 => (h1.groupAct ..)) (fun _ h1 => (h1.groupDeact ..).pumpFabrics)) (Kept.ite
    (h.actDeact _ _ _ _ (fun _ h1 => (h1.ringAct ..)) (fun _ h1 => (h1.ringDeact ..))) (Kept.ite h.pumpIntake
    (Kept.ite (Kept.ite h.mrgStart h) (Kept.ite (h.survAction ..) (Kept.ite (Kept.ite h.restore h) (Kept.ite
    (h.testAction ..) (Kept.ite (Kept.ite (h.declareQuench ..) h) (Kept.ite (Kept.ite (h.commitConfig ..) h)
    (Kept.ite (Kept.ite (h.stageWrite ..) h) (Kept.ite (Kept.ite h.applyRecord h) (Kept.ite (h.evrControl ..)
    (Kept.ite (h.mboxAction ..) (Kept.ite (h.tileAction ..) (Kept.ite (h.portAction ..) h))))))))))))))))

theorem Kept.mgmtWrite (h : Kept s₀ s) (agent : Nat) (a : Nat) (v : Nat) : Kept s₀ (mgmtWrite s agent a v) := by
  unfold Machine.mgmtWrite
  split
  · exact h
  · split
    · exact (h.mbxLockWrite ..)
    · split
      · exact (h.mbxWindowWrite ..)
      · split
        · exact (h.regionWrite ..)
        · exact (((h.storeWrite ..).lockedWrite ..).writeAction ..)

theorem Kept.registerWrite (h : Kept s₀ s) (agent : Nat) (a : Nat) (v : Nat) : Kept s₀ (registerWrite s agent a v) :=
  by
  unfold Machine.registerWrite
  split
  · exact (h.mgmtWrite ..)
  · exact h

theorem Kept.maskedWrite (h : Kept s₀ s) (agent : Nat) (a : Nat) (mask : Nat) (v : Nat) :
    Kept s₀ (maskedWrite s agent a mask v) := by
  unfold Machine.maskedWrite
  split
  · exact h
  · exact (h.mgmtWrite ..)

theorem Kept.applyConfig (h : Kept s₀ s) (bs : List Byte) : Kept s₀ (applyConfig s bs) :=
  h.foldl _ (fun _ _ h1 => (h1.maskedWrite ..))

end Sys2Proof.Machine
end

section
/-! PROOFS. The operations of Machine/Trim keep the canonical form of memory and the shape of the state. -/

namespace Sys2Proof.Machine

variable {s₀ s t : State}

theorem Kept.trimRecords (h : Kept s₀ s) (src : Nat) (unit : Nat) (old : Nat) (new : Nat) (replica : Nat) (slack :
  Nat) :
    Kept s₀ (trimRecords s src unit old new replica slack) := by
  unfold Machine.trimRecords
  dsimp only
  split
  · exact ((Kept.ite ((Kept.ite (h.makeRecord ..) h).upd.makeRecord ..) (Kept.ite (h.makeRecord ..) h)).makeRecord ..)
  · split
    · exact ((Kept.ite (h.makeRecord ..) h).upd.makeRecord ..)
    · split
      · exact (h.makeRecord ..)
      · exact h

theorem Kept.noteSlacks (h : Kept s₀ s) (ps : List (Nat × Nat)) : Kept s₀ (noteSlacks s ps) := h.upd

theorem Kept.trimDomain (h : Kept s₀ s) (u : Nat) (ps : List (Nat × Nat)) : Kept s₀ (trimDomain s u ps) := by
  unfold Machine.trimDomain
  split
  · exact h
  · dsimp only
    split
    · exact ((((h.noteSlacks ..).setDomain ..).trimRecords ..).foldl _ (fun _ _ h1 => (h1.dueRetire ..)))
    · exact (((h.noteSlacks ..).setDomain ..).trimRecords ..)

theorem Kept.windowNatural (h : Kept s₀ s) (u : Nat) : Kept s₀ (windowNatural s u) := by
  unfold Machine.windowNatural
  split
  · exact (h.modDomain ..)
  · exact h

theorem Kept.windowForced (h : Kept s₀ s) (u : Nat) : Kept s₀ (windowForced s u) := by
  unfold Machine.windowForced
  split
  · exact (h.domCommand ..)
  · exact h

theorem Kept.sweepDomain (h : Kept s₀ s) (u : Nat) (slacks : List (BitVec 5)) : Kept s₀ (sweepDomain s u slacks) :=
  (h.trimDomain ..).modDomain ..

theorem Kept.windowComplete (h : Kept s₀ s) (u : Nat) (slacks : List (BitVec 5)) :
    Kept s₀ (windowComplete s u slacks) := by
  unfold Machine.windowComplete
  split
  · exact h
  · split
    · exact h
    · dsimp only
      split
      · exact (((h.sweepDomain ..).modDomain ..).beginOn ..)
      · exact (((h.sweepDomain ..).modDomain ..).takePending ..)

theorem Kept.setWeldDir (h : Kept s₀ s) (w : Nat) (d : WeldDir) : Kept s₀ (setWeldDir s w d) := h.upd

theorem Kept.weldMeasure (h : Kept s₀ s) (w : Nat) (slacks : List (BitVec 5)) : Kept s₀ (weldMeasure s w slacks) := by
  unfold Machine.weldMeasure
  dsimp only
  split
  · exact h
  · split
    · exact h
    · split
      · exact ((((h.noteSlacks ..).setWeldDir ..).trimRecords ..).failWeld ..)
      · exact (((h.noteSlacks ..).setWeldDir ..).trimRecords ..)

theorem Kept.weldRetry (h : Kept s₀ s) (w : Nat) (ok : Bool) : Kept s₀ (weldRetry s w ok) := by
  unfold Machine.weldRetry
  split
  · exact h
  · dsimp only
    split
    · exact (h.setWeldDir ..)
    · split
      · exact ((h.setWeldDir ..).failWeld ..)
      · exact (h.setWeldDir ..)

theorem Kept.timeCorrection (h : Kept s₀ s) : Kept s₀ (timeCorrection s) := by
  unfold Machine.timeCorrection
  split
  · exact h.upd
  · exact h

theorem Kept.trimRecordWrite (h : Kept s₀ s) : Kept s₀ (trimRecordWrite s) := (Kept.ite (h.writeRecord ..).upd h)

end Sys2Proof.Machine
end

section
/-! PROOFS. The operations of Machine/Start keep the canonical form of memory and the shape of the state. -/

namespace Sys2Proof.Machine

variable {s₀ s t : State}

/-- A reset gives a canonical memory and a sized state whatever stood before. -/
theorem Kept.resetState (s₀ s : State) (latch : Option (List Byte)) : Kept s₀ (resetState s latch) :=
  ⟨fun _ => rfl, fun _ => by simp [Machine.resetState, sized_iff, State.reset]⟩

theorem Kept.absentState (s₀ s : State) (latch : Option (List Byte)) (pg : BitVec 5) (rst : Bool) (brown : Option
  Nat) :
    Kept s₀ (absentState s latch pg rst brown) := (Kept.resetState ..).modBoot ..

theorem Kept.powerGood (h : Kept s₀ s) : Kept s₀ (powerGood s) := .ite h (.resetState ..)

theorem Kept.keepTrip (s : State) (h : Kept s₀ t) : Kept s₀ (keepTrip s t) := h.upd

theorem Kept.powerLoss (s₀ s : State) (rail : Nat) : Kept s₀ (powerLoss s rail) :=
  .ite (.keepTrip _ (.absentState ..)) (.absentState ..)

theorem Kept.rstAssert (s₀ s : State) : Kept s₀ (rstAssert s) := .absentState ..

theorem Kept.brownOut (h : Kept s₀ s) : Kept s₀ (brownOut s) := .ite (.absentState ..) h

theorem Kept.brownRecovery (h : Kept s₀ s) : Kept s₀ (brownRecovery s) := by
  unfold Machine.brownRecovery
  split
  · exact .ite h (.resetState ..)
  · exact h

theorem Kept.resetFrame (h : Kept s₀ s) (p : Nat) (e : Eth) (bs : List Byte) : Kept s₀ (resetFrame s p e bs) :=
  .ite (.resetState ..) h

theorem Kept.holdStart (h : Kept s₀ s) : Kept s₀ (holdStart s) := (h.modBoot ..).requestService

theorem Kept.loadRetired (h : Kept s₀ s) : Kept s₀ (loadRetired s) := by
  unfold Machine.loadRetired
  split
  · exact h
  · dsimp only
    split
    · exact ((h.foldl _ (fun _ _ h1 => (h1.setR ..))).modBoot ..)
    · exact (((h.foldl _ (fun _ _ h1 => (h1.setR ..))).modBoot ..).putF ..)

theorem Kept.loadTrim (h : Kept s₀ s) : Kept s₀ (loadTrim s) := by
  unfold Machine.loadTrim
  split
  · exact h
  · exact (((h.foldl _ (fun _ _ h1 => (h1.modDomain ..))).setWeldDir ..).setWeldDir ..)

theorem Kept.weldUp (h : Kept s₀ s) : Kept s₀ (weldUp s) := (h.upd.putF ..).upd

theorem Kept.startDomains (h : Kept s₀ s) (fails : List (CoreId × Fin 4)) : Kept s₀ (startDomains s fails) :=
  h.foldl _ (fun _ _ h1 => (h1.beginOn ..))

theorem Kept.startFail (h : Kept s₀ s) (f : CoreId × Fin 4) : Kept s₀ (startFail s f) :=
  ((h.satF ..).makeRecord ..).retireCore ..

theorem Kept.atStep (h : Kept s₀ s) (n : Nat) : Kept s₀ (atStep s n) := h.modBoot ..

theorem Kept.startWindows (h : Kept s₀ s) (slacks : List (List (BitVec 5))) : Kept s₀ (startWindows s slacks) :=
  h.foldl _ (fun _ _ h1 => (h1.sweepDomain ..))

theorem Kept.step2 (h : Kept s₀ s) (r : StartReport) : Kept s₀ (step2 s r) := by
  unfold Machine.step2
  split
  · exact (h.wedge ..).holdStart
  · exact ((((h.loadRetired.loadTrim.weldUp.startWindows ..).startDomains ..).foldl _ (fun _ _ h1 => (h1.startFail
      ..))).atStep ..).startVoltage

theorem Kept.loadStart (h : Kept s₀ s) : Kept s₀ (loadStart s) := by
  unfold Machine.loadStart
  split
  · exact ((h.modBoot ..).putF ..)
  · exact (h.modBoot ..)

theorem Kept.takeLatch (h : Kept s₀ s) : Kept s₀ (takeLatch s) := by
  unfold Machine.takeLatch
  split
  · exact ((h.modBoot ..).satF ..)
  · exact h

theorem Kept.anchorOr (h : Kept s₀ s) : Kept s₀ (anchorOr s) := by
  unfold Machine.anchorOr
  split
  · exact (h.modBoot ..)
  · exact h

theorem Kept.saveStartIfAnchored (h : Kept s₀ s) : Kept s₀ (saveStartIfAnchored s) := by
  unfold Machine.saveStartIfAnchored
  split
  · exact h
  · exact h.saveStart

theorem Kept.step3 (h : Kept s₀ s) : Kept s₀ (step3 s) := by
  have hload : Kept s₀ (Machine.saveStartIfAnchored (Machine.takeLatch (Machine.loadStart (Machine.loadWear s)))) :=
    h.loadWear.loadStart.takeLatch.saveStartIfAnchored
  unfold Machine.step3
  dsimp only
  split
  · next haccept => exact Kept.modBoot (((hload.acceptProt haccept).anchorOr.saveStart).atStep ..) ..
  · exact (hload.putF ..).holdStart

theorem Kept.trySlot (h : Kept s₀ s) (b : Bool) : Kept s₀ (trySlot s b).1 := h.putF ..

theorem Kept.preferred (h : Kept s₀ s) : Kept s₀ (preferred s).1 := by
  unfold Machine.preferred
  dsimp only
  split
  · exact (h.setBootRecord ..)
  · exact ((h.putF ..).putF ..)

theorem Kept.freeBytes (n : Nat) (h : Kept s₀ s) : Kept s₀ (freeBytes n s).1 := by
  induction n generalizing s with
  | zero => exact h
  | succ n ih => exact ih h.drawFree

theorem Kept.measure (h : Kept s₀ s) (b : Bool) : Kept s₀ (measure s b) := by
  unfold Machine.measure
  exact Kept.modBoot (by split; exacts [h, (h.freeBytes ..)]) ..

theorem Kept.runSlot (h : Kept s₀ s) (b : Bool) (pref : Bool) (tries : Nat) : Kept s₀ (runSlot s b pref tries) :=
  ((((((((h.setBootRecord ..).putF ..).setR ..).modBoot ..).measure ..).applyConfig ..).commitConfig ..).putF
    ..).atStep ..

theorem Kept.step4 (h : Kept s₀ s) : Kept s₀ (step4 s) := by
  unfold Machine.step4
  dsimp only
  split
  · exact ((h.preferred.trySlot ..).runSlot ..)
  · split
    · exact (((h.preferred.trySlot ..).trySlot ..).runSlot ..)
    · exact (((h.preferred.trySlot ..).trySlot ..).putF ..).holdStart

theorem Kept.step5 (h : Kept s₀ s) : Kept s₀ (step5 s) := by
  unfold Machine.step5
  split
  · exact ((h.foldl _ (fun _ _ h1 => (h1.portEnable ..))).atStep ..)
  · exact h

theorem Kept.startSpread (h : Kept s₀ s) : Kept s₀ (startSpread s) := h.modBoot ..

theorem Kept.setEpoch (h : Kept s₀ s) : Kept s₀ (setEpoch s) := h.putF ..

theorem Kept.installJoin (h : Kept s₀ s) (ws : List Word64) : Kept s₀ (installJoin s ws) := by
  unfold Machine.installJoin
  split
  · exact (h.installConn ..)
  · exact (h.makeRecord ..)

theorem Kept.beginJoin (h : Kept s₀ s) : Kept s₀ (beginJoin s) := by
  unfold Machine.beginJoin
  dsimp only
  split
  · exact ((h.atStep ..).modBoot ..)
  · exact ((((((h.atStep ..).modBoot ..).putF ..).setEpoch.putF ..).putF ..).upd.installJoin ..).startSpread

theorem Kept.joinOrRetry (h : Kept s₀ s) : Kept s₀ (joinOrRetry s) := by
  unfold Machine.joinOrRetry
  split
  · exact h.beginJoin
  · exact (h.modBoot ..)

theorem Kept.step6 (h : Kept s₀ s) (r : StartReport) : Kept s₀ (step6 s r) :=
  (h.foldl _ (fun _ _ h1 => (h1.portTrained ..))).joinOrRetry

theorem Kept.startStep (h : Kept s₀ s) (r : StartReport) : Kept s₀ (startStep s r) := by
  unfold Machine.startStep
  split
  · exact h
  · split
    · exact (h.step2 ..)
    · exact h.step3
    · exact h.step4
    · exact h.step5
    · split
      · exact h
      · exact (h.step6 ..)
    · exact h

theorem Kept.startTimer (h : Kept s₀ s) : Kept s₀ (startTimer s) := by
  unfold Machine.startTimer
  split
  · exact h.upd
  · exact h

theorem Kept.portRetry (h : Kept s₀ s) : Kept s₀ (portRetry s) := by
  unfold Machine.portRetry
  split
  · exact h
  · split
    · exact h
    · exact h.joinOrRetry

theorem Kept.watchdog (h : Kept s₀ s) : Kept s₀ (watchdog s) := by
  unfold Machine.watchdog
  split
  · exact (h.wedge ..)
  · exact h

end Sys2Proof.Machine
end

section
/-! PROOFS. The operations of Machine/Attest keep the canonical form of memory and the shape of the state. -/

namespace Sys2Proof.Machine

variable {s₀ s t : State}

theorem Kept.sendReport (h : Kept s₀ s) (conn : Nat) (remote : Nat) (nonce : List Byte) (certs : Bool) (join : Bool) :
    Kept s₀ (sendReport s conn remote nonce certs join) := (h.roceSendOn ..).roceSendOn ..

theorem Kept.joinReport (h : Kept s₀ s) : Kept s₀ (joinReport s) := by
  unfold Machine.joinReport
  split
  · exact h
  · exact ((h.sendReport ..).modBoot ..)

theorem Kept.joinSpread (h : Kept s₀ s) : Kept s₀ (joinSpread s) := by
  unfold Machine.joinSpread
  split
  · exact h
  · split
    · exact h
    · exact h.joinReport

theorem Kept.admitWait (h : Kept s₀ s) : Kept s₀ (admitWait s) := by
  unfold Machine.admitWait
  split
  · exact h
  · split
    · exact h
    · exact h.startSpread

theorem Kept.raiseMinSvn (h : Kept s₀ s) : Kept s₀ (raiseMinSvn s) := by
  unfold Machine.raiseMinSvn
  split
  · exact (h.modBoot ..)
  · exact h

theorem Kept.becomeReady (h : Kept s₀ s) : Kept s₀ (becomeReady s) :=
  (((((h.putF ..).putF ..).atStep ..).setR ..).setBootRecord ..).raiseMinSvn

theorem Kept.admitted (h : Kept s₀ s) : Kept s₀ (admitted s) := (h.upd.modBoot ..).becomeReady

theorem Kept.newEpoch (h : Kept s₀ s) (emin : Nat) : Kept s₀ (newEpoch s emin) :=
  (h.modBoot ..).saveStart.setEpoch.startSpread

theorem Kept.refusedIdentity (h : Kept s₀ s) : Kept s₀ (refusedIdentity s) :=
  ((h.modBoot ..).putF ..).requestService.makeRecord ..

theorem Kept.admission (h : Kept s₀ s) (result : Nat) (emin : Nat) : Kept s₀ (admission s result emin) := by
  unfold Machine.admission
  split
  · exact h.admitted
  · exact (h.newEpoch ..)
  · exact h.refusedIdentity
  · exact h.startSpread

theorem Kept.admissionAnswer (h : Kept s₀ s) : Kept s₀ (admissionAnswer s) := by
  unfold Machine.admissionAnswer
  split
  · exact h
  · dsimp only
    split
    · exact (h.clearFull ..)
    · exact ((h.clearFull ..).admission ..)

theorem Kept.attestation (h : Kept s₀ s) : Kept s₀ (attestation s) := by
  unfold Machine.attestation
  dsimp only
  split
  · exact h
  · split
    · exact (h.clearFull ..)
    · split
      · exact (h.clearFull ..)
      · exact ((h.clearFull ..).sendReport ..)

theorem Kept.mgmtEntry {p : State × List Byte} (h : Kept s₀ p.1) (remote : Bool) (agent : Nat) (e : List Byte) :
    Kept s₀ (mgmtEntry remote agent p e).1 := by
  unfold Machine.mgmtEntry
  dsimp only
  split
  · exact h
  · split
    · exact (h.maskedWrite ..)
    · exact (h.mgmtRead ..)

theorem Kept.mgmtMailbox (h : Kept s₀ s) : Kept s₀ (mgmtMailbox s) := by
  unfold Machine.mgmtMailbox
  dsimp only
  split
  · exact h
  · split
    · exact (h.clearFull ..)
    · split
      · exact (((h.clearFull ..).foldl1 _ (fun _ _ h1 => (h1.mgmtEntry ..))).roceSendOn ..)
      · exact ((h.clearFull ..).foldl1 _ (fun _ _ h1 => (h1.mgmtEntry ..)))

end Sys2Proof.Machine
end

section
/-! PROOFS. The operations of Tests/Slice0 keep the canonical form of memory and the shape of the state. -/

namespace Sys2Proof.Machine

variable {s₀ s t : State}

theorem Kept.atomicDone (h : Kept s₀ s) (a : Nat) (op : Nat) (x : Word64) (cmp : Word64) :
    Kept s₀ (atomicDone s a op x cmp) := (h.writeWord ..).touchLine ..

end Sys2Proof.Machine
end

section
/-! PROOFS. Every command keeps the canonical form of memory and the shape of the state: each is one of the operations
above. -/

namespace Sys2Proof.Machine

variable {s t : State}

/-- An answer that keeps: the next state, if there is one, is related to `s`. -/
def KeptBy (s : State) (o : Host.Outcome State Fault Refusal) : Prop := ∀ t, o = .next t → Kept s t

theorem Kept.next (h : Kept s t) : KeptBy s (.next t) := fun _ ht => by cases ht; exact h

theorem exec_kept (c : Instr) (s : State) : KeptBy s (exec c s) := by
  have hs := Kept.refl s
  match c with
  | .registerWrite .. => exact .next (hs.registerWrite ..)
  | .readClearRegister .. => exact .next (hs.readClear ..)
  | .domainSwitchOff .. => exact .next (hs.domCommand ..)
  | .domainSelfTestStart .. => exact .next (hs.domCommand ..)
  | .domainSwitchOn .. => exact .next (hs.domCommand ..)
  | .domainLeft .. => exact .next (hs.domainLeft ..)
  | .coreStoreClearDone .. => exact .next (hs.clearDone ..)
  | .domainSelfTestComplete .. => exact .next (hs.selfTestComplete ..)
  | .taskDispatch .. => exact .next (hs.taskDispatch ..)
  | .taskComplete .. => exact .next (hs.taskComplete ..)
  | .taskReturn .. => exact .next (hs.taskReturn ..)
  | .coreRetire .. => exact .next (hs.coreRetireNow ..)
  | .weldTransferRetry .. => exact .next (hs.weldRetry ..)
  | .measurementWindowNatural .. => exact .next (hs.windowNatural ..)
  | .measurementWindowForced .. => exact .next (hs.windowForced ..)
  | .measurementWindowComplete .. => exact .next (hs.windowComplete ..)
  | .weldMeasurement .. => exact .next (hs.weldMeasure ..)
  | .trimRecordWrite => exact .next hs.trimRecordWrite
  | .timeCopyCorrection => exact .next hs.timeCorrection
  | .nop .. => exact .next (hs.issueNop ..)
  | .br .. => exact .next (hs.issueBr ..)
  | .bri .. => exact .next (hs.issueBri ..)
  | .brl .. => exact .next (hs.issueBrl ..)
  | .loop .. => exact .next (hs.issueLoop ..)
  | .setp .. => exact .next (hs.issueSetp ..)
  | .plog .. => exact .next (hs.issuePlog ..)
  | .movi .. => exact .next (hs.issueMovi ..)
  | .alu .. => exact .next (hs.issueAlu ..)
  | .ldg .. => exact .next (hs.issueLdg ..)
  | .stg .. => exact .next (hs.issueStg ..)
  | .rdtime .. => exact .next (hs.issueRdtime ..)
  | .rdreg .. => exact .next (hs.issueRdreg ..)
  | .wrreg .. => exact .next (hs.issueWrreg ..)
  | .signal .. => exact .next (hs.issueSignal ..)
  | .wait .. => exact .next (hs.issueWait ..)
  | .fence .. => exact .next (hs.issueFence ..)
  | .yieldIf .. => exact .next (hs.issueYieldIf ..)
  | .yieldNow .. => exact .next (hs.issueYieldNow ..)
  | .done .. => exact .next (hs.issueDone ..)
  | .note .. => exact .next (hs.issueNote ..)
  | .azero .. => exact .next (hs.issueAzero ..)
  | .aload .. => exact .next (hs.issueAload ..)
  | .aswap .. => exact .next (hs.issueAswap ..)
  | .amac .. => exact .next (hs.issueAmac ..)
  | .adrain .. => exact .next (hs.issueAdrain ..)
  | .vadd .. => exact .next (hs.issueVadd ..)
  | .vsub .. => exact .next (hs.issueVsub ..)
  | .vmul .. => exact .next (hs.issueVmul ..)
  | .vmin .. => exact .next (hs.issueVmin ..)
  | .vmax .. => exact .next (hs.issueVmax ..)
  | .vcmp .. => exact .next (hs.issueVcmp ..)
  | .vsel .. => exact .next (hs.issueVsel ..)
  | .vabs .. => exact .next (hs.issueVabs ..)
  | .vneg .. => exact .next (hs.issueVneg ..)
  | .vshl .. => exact .next (hs.issueVshl ..)
  | .vrsh .. => exact .next (hs.issueVrsh ..)
  | .vresc .. => exact .next (hs.issueVresc ..)
  | .vmov .. => exact .next (hs.issueVmov ..)
  | .vsplat .. => exact .next (hs.issueVsplat ..)
  | .vmovg .. => exact .next (hs.issueVmovg ..)
  | .vradd .. => exact .next (hs.issueVradd ..)
  | .vld .. => exact .next (hs.issueVld ..)
  | .vst .. => exact .next (hs.issueVst ..)
  | .vqnt .. => exact .next (hs.issueVqnt ..)
  | .vcvt .. => exact .next (hs.issueVcvt ..)
  | .vrsum .. => exact .next (hs.issueVrsum ..)
  | .vrmax .. => exact .next (hs.issueVrmax ..)
  | .vrcnt .. => exact .next (hs.issueVrcnt ..)
  | .vrssq .. => exact .next (hs.issueVrssq ..)
  | .vsqadd .. => exact .next (hs.issueVsqadd ..)
  | .vact .. => exact .next (hs.issueVact ..)
  | .vumu .. => exact .next (hs.issueVumu ..)
  | .vupd .. => exact .next (hs.issueVupd ..)
  | .vgacc .. => exact .next (hs.issueVgacc ..)
  | .vrand .. => exact .next (hs.issueVrand ..)
  | .vmark .. => exact .next (hs.issueVmark ..)
  | .mcopy .. => exact .next (hs.issueMcopy ..)
  | .mfill .. => exact .next (hs.issueMfill ..)
  | .fput .. => exact .next (hs.issueFput ..)
  | .fget .. => exact .next (hs.issueFget ..)
  | .fsend .. => exact .next (hs.issueFsend ..)
  | .fatom .. => exact .next (hs.issueFatom ..)
  | .fred .. => exact .next (hs.issueFred ..)
  | .fgath .. => exact .next (hs.issueFgath ..)
  | .fbar .. => exact .next (hs.issueFbar ..)
  | .fcollReduceScatter .. => exact .next (hs.issueFcoll ..)
  | .fcollAllGather .. => exact .next (hs.issueFcoll ..)
  | .fcollAllReduce .. => exact .next (hs.issueFcoll ..)
  | .fcollBroadcast .. => exact .next (hs.issueFcoll ..)
  | .fcollStepEnd .. => exact .next (hs.issueFcoll ..)
  | .fsnap .. => exact .next (hs.issueFsnap ..)
  | .instructionComplete .. => exact .next (hs.instructionComplete ..)
  | .waitRelease .. => exact .next (hs.waitRelease ..)
  | .waitTimeout .. => exact .next (hs.waitTimeout ..)
  | .fenceRelease .. => exact .next (hs.fenceRelease ..)
  | .doneRelease .. => exact .next (hs.doneRelease ..)
  | .dispatcherRequest .. => exact .next (hs.dispatcherRequest ..)
  | .yieldTimeout .. => exact .next (hs.yieldTimeout ..)
  | .saveComplete .. => exact .next (hs.saveComplete ..)
  | .taskRestore .. => exact .next (hs.taskRestore ..)
  | .zero .. => exact .next ((hs.doZero ..).lanesPump ..)
  | .load .. => exact .next ((hs.doLoad ..).lanesPump ..)
  | .loadComplete .. => exact .next ((hs.doLoadComplete ..).lanesPump ..)
  | .swap .. => exact .next ((hs.doSwap ..).lanesPump ..)
  | .multiplyAccumulate .. => exact .next ((hs.doPass ..).lanesPump ..)
  | .passComplete .. => exact .next (hs.passComplete ..)
  | .rampStage .. => exact .next (hs.rampStage ..)
  | .drain .. => exact .next ((hs.doDrain ..).lanesPump ..)
  | .drainRow .. => exact .next (hs.doDrainRow ..)
  | .drainComplete .. => exact .next (hs.doDrainComplete ..)
  | .fusedOutputRow .. => exact .next (hs.doFusedRow ..)
  | .splitWrite .. => exact .next (hs.splitWrite ..)
  | .phaseRelease .. => exact .next (hs.phaseRelease ..)
  | .phaseSkip .. => exact .next (hs.phaseSkip ..)
  | .backwardEntryComplete .. => exact .next (hs.backwardComplete ..)
  | .phaseFail .. => exact .next (hs.phaseFail ..)
  | .scheduleStall .. => exact .next (hs.scheduleStall ..)
  | .stepEndRelease => exact .next hs.stepEndRelease
  | .stepEndResult .. => exact .next (hs.stepEndResult ..)
  | .holdRoundResult .. => exact .next (hs.holdRoundResult ..)
  | .lineRead .. => exact .next (hs.lineRead ..)
  | .lineWrite .. => exact .next (hs.lineWrite ..)
  | .sliceMissFill .. => exact .next (hs.missFill ..)
  | .crucibleAtomic .. => exact .next (hs.crucibleAtomic ..)
  | .crucibleReduction .. => exact .next (hs.crucibleReduction ..)
  | .windowAccess .. => exact .next (hs.windowAccess ..)
  | .refresh .. => exact .next (hs.refresh ..)
  | .strobeRecentre .. => exact .next (hs.strobeRecentre ..)
  | .scrubRead .. => exact .next (hs.scrubRead ..)
  | .memRgnClose .. => exact .next (hs.regionCommand ..)
  | .memRgnOpen .. => exact .next (hs.regionCommand ..)
  | .memRgnPolicy .. => exact .next (hs.regionCommand ..)
  | .memRgnAlloc .. => exact .next (hs.regionCommand ..)
  | .migrationComplete .. => exact .next (hs.migrationComplete ..)
  | .mrgStart .. => exact .next (hs.mrgStartBy ..)
  | .marginRerun => exact .next hs.marginRerun
  | .marginRerunComplete .. => exact .next (hs.marginRerunComplete ..)
  | .dramTrainingComplete .. => exact .next (hs.trainingComplete ..)
  | .portEnable .. => exact .next (hs.portEnable ..)
  | .portDisable .. => exact .next (hs.portDisable ..)
  | .portUp .. => exact .next (hs.portUp ..)
  | .portDown .. => exact .next (hs.takePortDown ..)
  | .frameFiltered .. => exact .next (hs.frameFiltered ..)
  | .pfcFrame .. => exact .next (hs.pfcFrame ..)
  | .ylpRead .. => exact .next (hs.ylpReadIn ..)
  | .ylpWrite .. => exact .next (hs.ylpRequest ..)
  | .ylpWriteMasked .. => exact .next (hs.ylpRequest ..)
  | .ylpAtomic .. => exact .next (hs.ylpRequest ..)
  | .ylpReduce .. => exact .next (hs.ylpRequest ..)
  | .ylpFence .. => exact .next (hs.ylpRequest ..)
  | .ylpProbe .. => exact .next (hs.ylpProbeIn ..)
  | .ylpRetire .. => exact .next (hs.ylpRetireIn ..)
  | .ylpReadData .. => exact .next (hs.ylpReply _ _ _ _ (fun _ h1 => (h1.takeReadData ..)))
  | .ylpAck .. => exact .next (hs.ylpAckIn ..)
  | .ylpAtomicResult .. => exact .next (hs.ylpReply _ _ _ _ (fun _ h1 => (h1.takeAtomicResult ..)))
  | .ylpProbeAck .. => exact .next (hs.ylpReply _ _ _ _ (fun _ h1 => (h1.takeProbeAck ..)))
  | .ylpBusy .. => exact .next (hs.ylpReply _ _ _ _ (fun _ h1 => (h1.takeBusy ..)))
  | .ylpRefuse .. => exact .next (hs.ylpReply _ _ _ _ (fun _ h1 => (h1.takeRefuse ..)))
  | .homeCompletion .. => exact .next (hs.homeCompletion ..)
  | .ackDelayExpiry .. => exact .next (hs.ackDelay ..)
  | .busyWaitExpiry .. => exact .next (hs.busyWait ..)
  | .retransmissionTimeout .. => exact .next (hs.retransmit ..)
  | .frameLifeExpiry .. => exact .next (hs.frameLifeExpiry ..)
  | .probeTimer => exact .next hs.probeTimer
  | .retireTimer .. => exact .next (hs.retireTimer ..)
  | .replayAged .. => exact .next (hs.replayAged ..)
  | .refusalEntryExpiry => exact .next hs.refusalExpiry
  | .roceRdmaWrite .. => exact .next (hs.roceIn _ _ _ _ (fun _ _ h1 => (h1.roceWrite ..)))
  | .roceRdmaReadRequest .. => exact .next (hs.roceIn _ _ _ _ (fun _ _ h1 => (h1.roceRead ..)))
  | .roceRdmaReadResponse .. => exact .next (hs.roceIn _ _ _ _ (fun _ _ h1 => (h1.readResponse ..)))
  | .roceSend .. => exact .next (hs.roceIn _ _ _ _ (fun _ _ h1 => (h1.roceSendIn ..)))
  | .roceAck .. => exact .next (hs.roceIn _ _ _ _ (fun _ _ h1 => (h1.ackUpTo ..)))
  | .roceNak .. => exact .next (hs.roceIn _ _ _ _ (fun _ _ h1 => (h1.takeNak ..)))
  | .roceCnp .. => exact .next (hs.roceIn _ _ _ _ (fun _ _ h1 => (h1.cutRate ..)))
  | .roceAckTimeout .. => exact .next (hs.roceTimeout ..)
  | .roceRateIncrease .. => exact .next (hs.raiseRate ..)
  | .connAct .. => exact .next (hs.connActBy ..)
  | .connDeact .. => exact .next (hs.connDeactBy ..)
  | .grpAct .. => exact .next (hs.grpActBy ..)
  | .grpDeact .. => exact .next (hs.grpDeactBy ..)
  | .ctrlData .. => exact .next (hs.ctrlData ..)
  | .ctrlArrive .. => exact .next (hs.ctrlArrive ..)
  | .ctrlRelease .. => exact .next (hs.ctrlRelease ..)
  | .ctrlReset .. => exact .next (hs.atLine _ _ _ (fun _ h1 => (h1.takeReset ..)))
  | .ctrlDone .. => exact .next (hs.ctrlDone ..)
  | .ctrlAbort .. => exact .next (hs.atLine _ _ _ (fun _ h1 => (h1.takeAbort ..)))
  | .creditReturn .. => exact .next (hs.takeCredit ..).pumpFabrics
  | .collectiveStall .. => exact .next (hs.collStall ..)
  | .snapshotStreamComplete => exact .next hs.streamComplete
  | .doorbellPseqWrite .. => exact .next (hs.doorbellPseq ..)
  | .doorbellCconsWrite .. => exact .next (hs.doorbellCcons ..)
  | .itemWaitExpiry .. => exact .next (hs.itemWaitExpiry ..)
  | .itemAccepted .. => exact .next (hs.itemAccepted ..)
  | .acceptanceRecordTimer .. => exact .next (hs.acceptanceTimer ..)
  | .itemStart .. => exact .next (hs.itemStart ..)
  | .jobStart .. => exact .next (hs.jobStart ..)
  | .widenRelease .. => exact .next (hs.widenRelease ..)
  | .ratioRelease .. => exact .next (hs.ratioRelease ..)
  | .jobReset .. => exact .next (hs.jobReset ..)
  | .jobEnd .. => exact .next (hs.jobEnd ..)
  | .workNop .. => exact .next (hs.workNop ..)
  | .badkindItem .. => exact .next (hs.badkindItem ..)
  | .itemDone .. => exact .next (hs.itemDone ..)
  | .doneMarkMirrored .. => exact .next (hs.doneMirrored ..)
  | .ringAct .. => exact .next (hs.ringActBy ..)
  | .ringDeact .. => exact .next (hs.ringDeactBy ..)
  | .mbxLockRead .. => exact .next (hs.mbxLockRead ..)
  | .mbxLockWrite .. => exact .next (hs.mbxLockWrite ..)
  | .mbxWindowWrite .. => exact .next (hs.mbxWindowWrite ..)
  | .post .. => exact .next (hs.postMessage ..)
  | .take .. => exact .next (hs.takeMessage ..)
  | .mbxLockTimeout .. => exact .next (hs.lockTimeout ..)
  | .mbxMessageTimeout .. => exact .next (hs.messageTimeout ..)
  | .arm .. => exact .next (hs.armBy ..)
  | .wardArmCheck .. => exact .next (hs.wardArm ..)
  | .fullCopyComplete => exact .next hs.fullCopyComplete
  | .leave .. => exact .next (hs.leaveBy ..)
  | .commit => exact .next hs.commit
  | .commitApply .. => exact .next (hs.commitApply ..)
  | .commitAck => exact .next hs.commitAck
  | .workingRowTally .. => exact .next (hs.workingRow ..)
  | .heartbeatTimer .. => exact .next (hs.heartbeat ..)
  | .hbLossExpiry .. => exact .next (hs.hbLossExpiry ..)
  | .selfFence => exact .next hs.selfFenceCheck
  | .loss .. => exact .next (hs.takeSurv _ _ _ (fun _ _ h1 => (h1.onLoss ..)))
  | .join .. => exact .next (hs.takeSurv _ _ _ (fun _ _ h1 => (h1.onJoin ..)))
  | .change .. => exact .next (hs.takeSurv _ _ _ (fun _ _ h1 => (h1.onChange ..)))
  | .confirm .. => exact .next (hs.confirmIn ..)
  | .holdoffExpiry => exact .next hs.holdoff
  | .resume .. => exact .next (hs.takeSurv _ _ _ (fun _ _ h1 => (h1.onResume ..)))
  | .halt .. => exact .next (hs.takeSurv _ _ _ (fun _ _ h1 => (h1.onHalt ..)))
  | .leaseExpiry .. => exact .next (hs.leaseExpiry ..)
  | .handover .. => exact .next (hs.handover ..)
  | .noticeRetry => exact .next (hs.sendNotices ..)
  | .restoreGo .. => exact .next (hs.restoreBy ..)
  | .powerEstimate .. => exact .next (hs.powerEstimate ..)
  | .avsCurrentRead .. => exact .next (hs.avsCurrentRead ..)
  | .grant => exact .next hs.grant
  | .startDitherExpiry => exact .next hs.ditherExpiry
  | .paceRaise .. => exact .next (hs.paceRaise ..)
  | .ladderStep => exact .next hs.ladderStep
  | .idleVfloor => exact .next hs.idleVfloor
  | .thermalSample .. => exact .next (hs.thermalSample ..)
  | .thermalAllowanceStep => exact .next hs.allowanceStep
  | .coolantPoll .. => exact .next (hs.coolantPoll ..)
  | .lowFlowQuench => exact .next hs.lowFlowQuench
  | .quench .. => exact .next (hs.quenchBy ..)
  | .quenchIdle => exact .next hs.quenchIdle
  | .quenchEnd => exact .next hs.quenchEnd
  | .quenchLeaveTimer => exact .next hs.quenchLeave
  | .thermalTrip .. => exact .next (hs.thermalTrip ..)
  | .thermalCycleSample .. => exact .next (Kept.ite (((hs.modTherm ..).countHot ..).cycleSample ..) hs)
  | .wearRecordWrite => exact .next hs.wearRecordWrite
  | .selfTestRotation .. => exact .next (hs.rotateTest ..)
  | .run .. => exact .next (hs.runBy ..)
  | .portTest .. => exact .next (hs.portTestBy ..)
  | .queuedTestRun => exact .next hs.queuedTestRun
  | .powerGood => exact .next hs.powerGood
  | .powerLoss .. => exact .next (.powerLoss ..)
  | .rstNAssert => exact .next (.rstAssert ..)
  | .startStepComplete .. => exact .next (hs.startStep ..)
  | .startTimerExpiry => exact .next hs.startTimer
  | .portRetryTimer => exact .next hs.portRetry
  | .joinSpreadExpiry => exact .next hs.joinSpread
  | .admissionAnswer => exact .next hs.admissionAnswer
  | .admitWaitExpiry => exact .next hs.admitWait
  | .watchdogExpiry => exact .next hs.watchdog
  | .attestationRequest => exact .next hs.attestation
  | .mgmtMailboxRequest => exact .next hs.mgmtMailbox
  | .resetFrame .. => exact .next (hs.resetFrame ..)
  | .cfgStageWrite .. => exact .next (hs.stageBy ..)
  | .slotWriteComplete .. => exact .next (hs.slotWriteComplete ..)
  | .cfgCommit .. => exact .next (hs.commitConfig ..)
  | .apply .. => exact .next (hs.applyBy ..)
  | .eventRecord => exact .next hs.eventRecord
  | .freeze .. => exact .next (hs.freeze ..)
  | .thaw .. => exact .next (hs.thaw ..)
  | .freezeLimitExpiry => exact .next hs.freezeExpiry
  | .evrWindowRead .. => exact .next (hs.evrWindowRead ..)
  | .brownOut => exact .next hs.brownOut
  | .brownOutRecovery => exact .next hs.brownRecovery
  | .selfRefreshReentry .. => exact .next (hs.selfRefreshReentry ..)
  | .forecastWindowDue => exact .next hs.forecastWindowDue
  | .captureComplete .. => exact .next (hs.captureDone ..)
  | .trayPeerDiscovery .. => exact .next (hs.discoverPeer ..)

theorem step_kept (s : State) : KeptBy s (step s) := by
  unfold step
  split
  · exact (Kept.refl s).idle.next
  · next c rest _ =>
    intro t ht
    have hk := exec_kept c { s with pending := rest } t ht
    exact ⟨hk.wf, hk.shaped⟩

/-- Settles O58: every operation of the model keeps a memory in canonical form, so every command does. -/
theorem invKept : Obligations.InvKept := by
  unfold Obligations.InvKept
  exact fun s t hs ht => (step_kept s t ht).wf hs

/-- Settles O59: every operation of the model keeps the sizes of the lists of the state, so every command does. -/
theorem sizedKept : Obligations.SizedKept := by
  unfold Obligations.SizedKept
  exact fun s t hs ht => (step_kept s t ht).shaped hs
end Sys2Proof.Machine
end

section
/-! PROOFS. What a step runs, what reset leaves, and the permissions of management commands. -/

namespace Sys2Proof.Machine

/-! ## A step -/

theorem step_cons (c : Instr) (rest : List Instr) (s : State) :
    step { s with pending := c :: rest } = exec c { s with pending := rest } := rfl

theorem step_nil {s : State} (h : s.pending = []) : step s = .next (idle s) := by rw [step, h]

/-- The reference cycles of R53 in turn. -/
theorem cycleNs_eq (p : Nat) : cycleNs p = [6, 6, 7, 6, 7].getD (p % 5) 0 := by
  have hp : p % 5 < 5 := Nat.mod_lt _ (by decide)
  unfold cycleNs
  interval_cases p % 5 <;> rfl

/-- Settles O56: `step` is `exec` of the front by definition, and a tick on the empty queue. -/
theorem stepRunsFront : Obligations.StepRunsFront := by
  unfold Obligations.StepRunsFront
  refine fun c rest s => ⟨step_cons c rest s, fun h => ⟨_, step_nil h, rfl, rfl, ?_⟩⟩
  simp only [idle, tick, cycleNs_eq]

/-! ## Reset -/

/-- Each field of a table entry reads its reset value in the register that `regReset` builds from them all. -/
def fieldsReset (d : RegDesc) : Bool :=
  d.fields.all fun f => bitsOf f.hi f.lo (BitVec.ofNat 32 (d.fields.foldl fieldReset 0)).toNat == f.reset

theorem tables_fieldsReset : ∀ l ∈ [devRegs, cfgRegs, truRegs, mbxRegs, evrRegs, pwrRegs, prtRegs, fabRegs, colRegs, memRegs,
    hchRegs, coreRegs, survRegs, wrkRegs], l.all fieldsReset = true := by decide

/-- Every block of Table 1-7 is one of the tables. -/
theorem blockOf_mem (a : Nat) : blockOf a ∈ [devRegs, cfgRegs, truRegs, mbxRegs, evrRegs, pwrRegs, prtRegs, fabRegs, colRegs,
    memRegs, hchRegs, coreRegs, survRegs, wrkRegs] := by
  have hite {c : Prop} [Decidable c] {l m : List RegDesc} {ls : List (List RegDesc)} (hl : l ∈ ls) (hm : m ∈ ls) :
      (if c then l else m) ∈ ls := by split <;> assumption
  unfold blockOf
  generalize devRegs = l1, cfgRegs = l2, truRegs = l3, mbxRegs = l4, evrRegs = l5, pwrRegs = l6, prtRegs = l7, fabRegs = l8,
    colRegs = l9, memRegs = l10, hchRegs = l11, coreRegs = l12, survRegs = l13, wrkRegs = l14
  iterate 13 refine hite (by simp) ?_
  simp

theorem blockOf_fieldsReset (a : Nat) : (blockOf a).all fieldsReset = true := tables_fieldsReset _ (blockOf_mem a)

/-- The addresses whose reset value is a core index are those of CORE_IDENT. -/
theorem coreIdent_of_range {a : Nat} (h : 0x100024 ≤ a ∧ a < 0x180000 ∧ (a - 0x100024) % 0x1000 = 0) :
    ∃ i, i < 128 ∧ a = CORE_IDENT i := ⟨(a - 0x100024) / 0x1000, by omega, by unfold CORE_IDENT; omega⟩

theorem getR_reset_field {a : Nat} {d : RegDesc} (hd : regAt a = some d) (hlo : a ≠ TRU_SERIAL_LO) (hhi : a ≠ TRU_SERIAL_HI)
    (hid : ∀ i, i < 128 → a ≠ CORE_IDENT i) {f : RegField} (hf : f ∈ d.fields) :
    bitsOf f.hi f.lo (getR State.reset a).toNat = f.reset := by
  have hrange : ¬(0x100024 ≤ a ∧ a < 0x180000 ∧ (a - 0x100024) % 0x1000 = 0) := fun h => by
    obtain ⟨i, hi, rfl⟩ := coreIdent_of_range h
    exact hid i hi rfl
  have hreset : getR State.reset a = BitVec.ofNat 32 (d.fields.foldl fieldReset 0) := by
    show regReset a = _
    simp only [regReset, if_neg hlo, if_neg hhi, if_neg hrange, hd]
  have hall := List.all_eq_true.1 (blockOf_fieldsReset a) d (List.mem_of_find?_eq_some hd)
  rw [hreset]
  exact beq_iff_eq.1 (List.all_eq_true.1 hall f hf)

theorem getR_reset_coreIdent (i : CoreId) : (getR State.reset (CORE_IDENT i)).toNat = i.val := by
  have hi := i.isLt
  have hlo : CORE_IDENT i ≠ TRU_SERIAL_LO := by unfold CORE_IDENT TRU_SERIAL_LO; omega
  have hhi : CORE_IDENT i ≠ TRU_SERIAL_HI := by unfold CORE_IDENT TRU_SERIAL_HI; omega
  have hrange : 0x100024 ≤ CORE_IDENT i ∧ CORE_IDENT i < 0x180000 ∧ (CORE_IDENT i - 0x100024) % 0x1000 = 0 := by
    unfold CORE_IDENT; omega
  show (regReset (CORE_IDENT i)).toNat = i.val
  rw [regReset, if_neg hlo, if_neg hhi, if_pos hrange, BitVec.toNat_ofNat]
  unfold CORE_IDENT; omega

/-- Settles O57: the reset state is one value; its registers read the reset values of their tables. -/
theorem Settled.resetState : Obligations.ResetState := by
  unfold Obligations.ResetState
  refine ⟨rfl, ?_, rfl, rfl, rfl, rfl, rfl, ?_, ?_, ?_, ?_, ?_, ?_, fun a d hd hlo hhi hid f hf =>
    getR_reset_field hd hlo hhi hid hf, getR_reset_coreIdent⟩
  · simp [sized_iff, State.reset]
  all_goals decide

/-! ## Permissions -/

section
variable {s : State} {n a : Nat}

theorem registerWrite_denied (h : mayWrite s n a = false) (v : Nat) : registerWrite s n a v = s := by simp [registerWrite, h]

theorem readClear_denied (h : mayRead s n a = false) : readClear s n a = { s with answer := .value 0 } := by
  simp [readClear, h]

theorem mayRead_absent (h : s.boot.running = false) : mayRead s n a = false := by simp [mayRead, h]

theorem mayWrite_absent (h : s.boot.running = false) : mayWrite s n a = false := by simp [mayWrite, h]
end

/-- Settles O60: every management command asks `mayWrite` or `mayRead` first, and both ask that the device runs. -/
theorem permissionsHold : Obligations.PermissionsHold := by
  unfold Obligations.PermissionsHold
  refine fun agent s => ⟨?_, fun a v h => ?_, fun pref h => ?_, fun p h => ?_, fun a h => ?_,
    fun h a => ⟨mayRead_absent h, mayWrite_absent h⟩⟩
  · intro c a hc h
    simp only [List.mem_cons, Prod.mk.injEq, List.not_mem_nil, or_false] at hc
    rcases hc with ⟨rfl, rfl⟩ | ⟨rfl, rfl⟩ | ⟨rfl, rfl⟩ | ⟨rfl, rfl⟩ | ⟨rfl, rfl⟩ | ⟨rfl, rfl⟩ | ⟨rfl, rfl⟩ | ⟨rfl, rfl⟩ |
      ⟨rfl, rfl⟩
    · exact congrArg _ (if_neg (by simp [h]) : armBy s agent.toNat = s)
    · exact congrArg _ (if_neg (by simp [h]) : leaveBy s agent.toNat = s)
    · exact congrArg _ (if_neg (by simp [h]) : restoreBy s agent.toNat = s)
    · exact congrArg _ (if_neg (by simp [h]) : quenchBy s agent.toNat = s)
    · exact congrArg _ (if_neg (by simp [h]) : runBy s agent.toNat = s)
    · exact congrArg _ (if_neg (by simp [h]) : mrgStartBy s agent.toNat = s)
    · exact congrArg _ (if_neg (by simp [h]) : applyBy s agent.toNat = s)
    · exact congrArg _ (if_neg (by simp [h]) : freeze s agent.toNat = s)
    · exact congrArg _ (if_neg (by simp [h]) : thaw s agent.toNat = s)
  · exact congrArg _ (registerWrite_denied h _)
  · exact congrArg _ (if_neg (by simp [h]) : stageBy s agent.toNat pref = s)
  · exact congrArg _ (if_neg (by simp [h]) : portTestBy s agent.toNat p = s)
  · exact congrArg _ (readClear_denied h)

end Sys2Proof.Machine
end

section
/-! PROOFS. Fields of a register beside one another, and lists of registers written in turn. -/

namespace Sys2Proof.Machine

/-! ## Fields that do not overlap -/

/-- Two fields of a register have no bit in common. -/
def Fld.apart (f g : Fld) : Bool := f.hi < g.lo || g.hi < f.lo

theorem bitsOf_putBits_above {hi lo i j : Nat} (hl : lo ≤ hi + 1) (h : hi < j) (v x : Nat) :
    bitsOf i j (putBits hi lo v x) = bitsOf i j v := by
  have hpow : 2 ^ (hi + 1) = 2 ^ lo * 2 ^ (hi + 1 - lo) := by rw [← pow_add, Nat.add_sub_cancel' hl]
  have hj : 2 ^ j = 2 ^ (hi + 1) * 2 ^ (j - (hi + 1)) := by rw [← pow_add, Nat.add_sub_cancel' h]
  have hlow : v % 2 ^ lo + x % 2 ^ (hi + 1 - lo) * 2 ^ lo < 2 ^ (hi + 1) := by
    have h1 := Nat.mod_lt v (Nat.two_pow_pos lo)
    have h2 := Nat.mod_lt x (Nat.two_pow_pos (hi + 1 - lo))
    have h3 := Nat.mul_le_mul_left (2 ^ lo) (Nat.succ_le_of_lt h2)
    rw [hpow]
    rw [Nat.mul_succ, Nat.mul_comm] at h3
    omega
  rw [bitsOf, bitsOf, putBits, hj, ← Nat.div_div_eq_div_mul, ← Nat.div_div_eq_div_mul, Nat.mul_comm (v / _),
    Nat.add_mul_div_left _ _ (Nat.two_pow_pos _), Nat.div_eq_of_lt hlow, Nat.zero_add]

theorem bitsOf_putBits_below {hi lo i j : Nat} (hl : lo ≤ hi + 1) (hj : j ≤ i + 1) (h : i < lo) (v x : Nat) :
    bitsOf i j (putBits hi lo v x) = bitsOf i j v := by
  have hmod (y : Nat) : bitsOf i j y = bitsOf i j (y % 2 ^ lo) := (bitsOf_mod_two_pow (by omega) h y).symm
  have hput : putBits hi lo v x % 2 ^ lo = v % 2 ^ lo := by
    have hpow : 2 ^ (hi + 1) = 2 ^ (hi + 1 - lo) * 2 ^ lo := by rw [← pow_add, Nat.sub_add_cancel hl]
    rw [putBits, hpow, ← Nat.mul_assoc, Nat.add_mul_mod_self_right, Nat.add_mul_mod_self_right, Nat.mod_mod]
  rw [hmod, hput, ← hmod]

theorem Fld.get_put_apart {f g : Fld} (hf : f.lo ≤ f.hi) (hg : g.lo ≤ g.hi) (hg32 : g.hi < 32)
    (h : f.apart g = true) (w : Word32) (x : Nat) : g.get (f.put w x) = g.get w := by
  rw [Fld.get, Fld.put, BitVec.toNat_ofNat, bitsOf_mod_two_pow (by omega) hg32]
  rcases Bool.or_eq_true_iff.1 h with h | h
  · exact bitsOf_putBits_above (by omega) (of_decide_eq_true h) _ _
  · exact bitsOf_putBits_below (by omega) (by omega) (of_decide_eq_true h) _ _

theorem getF_putF_apart {f g : Fld} (hf : f.lo ≤ f.hi) (hg : g.lo ≤ g.hi) (hg32 : g.hi < 32) (h : f.apart g = true)
    (s : State) (a x : Nat) : getF (putF s a f x) a g = getF s a g := by
  rw [getF, putF, getR_setR_self, Fld.get_put_apart hf hg hg32 h, getF]

theorem getR_putF_ne {a b : Nat} (h : b ≠ a) (s : State) (f : Fld) (x : Nat) : getR (putF s a f x) b = getR s b :=
  getR_setR_ne h _

theorem getF_putF_ne {a b : Nat} (h : b ≠ a) (s : State) (f g : Fld) (x : Nat) : getF (putF s a f x) b g = getF s b g := by
  rw [getF, getR_putF_ne h, getF]

theorem flag_putF_ne {a b : Nat} (h : b ≠ a) (s : State) (f g : Fld) (x : Nat) : flag (putF s a f x) b g = flag s b g := by
  rw [flag, getF_putF_ne h, flag]

/-- A flag reads true once it holds 1. -/
theorem flag_putF_one {f : Fld} (hl : f.lo ≤ f.hi) (hh : f.hi < 32) (s : State) (a : Nat) : flag (putF s a f 1) a f = true := by
  have h : 1 % 2 ^ (f.hi + 1 - f.lo) = 1 := Nat.mod_eq_of_lt (Nat.one_lt_two_pow (by omega))
  rw [flag, getF_putF hl hh, h]; rfl

theorem flag_putF_zero {f : Fld} (hl : f.lo ≤ f.hi) (hh : f.hi < 32) (s : State) (a : Nat) : flag (putF s a f 0) a f = false := by
  rw [flag, getF_putF hl hh, Nat.zero_mod]; rfl

theorem flag_putF_apart {f g : Fld} (hf : f.lo ≤ f.hi) (hg : g.lo ≤ g.hi) (hg32 : g.hi < 32) (h : f.apart g = true)
    (s : State) (a x : Nat) : flag (putF s a f x) a g = flag s a g := by rw [flag, getF_putF_apart hf hg hg32 h, flag]

/-! ## What two states with one register file read -/

theorem getR_congr {s t : State} (h : t.regs = s.regs) (a : Nat) : getR t a = getR s a := by rw [getR, h, getR]

theorem getF_congr {s t : State} (h : t.regs = s.regs) (a : Nat) (f : Fld) : getF t a f = getF s a f := by
  rw [getF, getR_congr h, getF]

theorem flag_congr {s t : State} (h : t.regs = s.regs) (a : Nat) (f : Fld) : flag t a f = flag s a f := by
  rw [flag, getF_congr h, flag]

theorem domState_congr {s t : State} (h : t.regs = s.regs) (u : Nat) : domState t u = domState s u := by
  rw [domState, getR_congr h, domState]

theorem isSplit_congr {s t : State} (h : t.regs = s.regs) (i : Nat) : isSplit t i = isSplit s i := flag_congr h ..

theorem coreAt_congr {s t : State} (h : t.cores = s.cores) (i : Nat) : coreAt t i = coreAt s i := by
  rw [coreAt, h, coreAt]

theorem hearthAt_congr {s t : State} (h : t.hearths = s.hearths) (i : Nat) : hearthAt t i = hearthAt s i := by
  rw [hearthAt, h, hearthAt]

theorem domainAt_congr {s t : State} (h : t.domains = s.domains) (u : Nat) : domainAt t u = domainAt s u := by
  rw [domainAt, h, domainAt]

theorem portAt_congr {s t : State} (h : t.ports = s.ports) (p : Nat) : portAt t p = portAt s p := by
  rw [portAt, h, portAt]

theorem mbxAt_congr {s t : State} (h : t.mbx = s.mbx) (m : Nat) : mbxAt t m = mbxAt s m := by rw [mbxAt, h, mbxAt]

theorem connAt_congr {s t : State} (h : t.conns = s.conns) (c : Nat) : connAt t c = connAt s c := by
  rw [connAt, h, connAt]

theorem rxAt_congr {s t : State} (h : t.ylp = s.ylp) (n : Nat) : rxAt t n = rxAt s n := by rw [rxAt, h, rxAt]

theorem groupAt_congr {s t : State} (h : t.coll = s.coll) (g : Nat) : groupAt t g = groupAt s g := by
  rw [groupAt, h, groupAt]

theorem instOf_congr {s t : State} (h : t.coll = s.coll) (g : Nat) : instOf t g = instOf s g := by
  rw [instOf, h, instOf]

theorem ringOf_congr {s t : State} (h : t.intake = s.intake) (r : Nat) : ringOf t r = ringOf s r := by
  rw [ringOf, h, ringOf]

theorem readBytes_congr {s t : State} (h : t.mem = s.mem) (a n : Nat) : readBytes t a n = readBytes s a n := by
  rw [readBytes, h, readBytes]

theorem readWord_congr {s t : State} (h : t.mem = s.mem) (a : Nat) : readWord t a = readWord s a := by
  rw [readWord, readBytes_congr h, readWord]

theorem readWords_congr {s t : State} (h : t.mem = s.mem) (a n : Nat) : readWords t a n = readWords s a n := by
  simp only [readWords, readWord_congr h]

theorem readByte_congr {s t : State} (h : t.mem = s.mem) (a : Nat) : readByte t a = readByte s a := by
  rw [readByte, h, readByte]

theorem memSame_of_mem {s t : State} (h : t.mem = s.mem) : memSame s t := readByte_congr h

@[simp] theorem getR_makeRecord (s : State) (src typ : Nat) (b : List Word64) (a : Nat) :
    getR (makeRecord s src typ b) a = getR s a := getR_congr (makeRecord_regs ..) a

@[simp] theorem getF_makeRecord (s : State) (src typ : Nat) (b : List Word64) (a : Nat) (f : Fld) :
    getF (makeRecord s src typ b) a f = getF s a f := getF_congr (makeRecord_regs ..) a f

@[simp] theorem flag_makeRecord (s : State) (src typ : Nat) (b : List Word64) (a : Nat) (f : Fld) :
    flag (makeRecord s src typ b) a f = flag s a f := flag_congr (makeRecord_regs ..) a f

/-! ## Two states with the same fields -/

theorem State.ext_fields {s t : State} (htime : s.time = t.time) (hregs : s.regs = t.regs) (hmem : s.mem =
    t.mem) (hcores : s.cores = t.cores) (hhearths : s.hearths = t.hearths) (hmemctl : s.memctl = t.memctl) (hanswer
    : s.answer = t.answer) (hdomains : s.domains = t.domains) (hweld : s.weld = t.weld) (hslacks : s.slacks =
    t.slacks) (hrecorder : s.recorder = t.recorder) (hylp : s.ylp = t.ylp) (hconns : s.conns = t.conns) (hports :
    s.ports = t.ports) (hegress : s.egress = t.egress) (hcoll : s.coll = t.coll) (hintake : s.intake = t.intake)
    (hmbx : s.mbx = t.mbx) (hjob : s.job = t.job) (hsurv : s.surv = t.surv) (hpower : s.power = t.power) (htherm :
    s.therm = t.therm) (hboot : s.boot = t.boot) (hpins : s.pins = t.pins) (hqueuedTests : s.queuedTests =
    t.queuedTests) (hfree : s.free = t.free) (hpending : s.pending = t.pending) : s = t := by
  cases s; cases t; simp_all only

/-! ## Answers -/

/-- A command answers the state that its operation is equal to. -/
theorem Answers.of {c : Instr} {s t u : State} {P : State → Prop} (he : exec c s = .next u) (hu : u = t) (ht : P t) :
    Answers c s P := ⟨u, he, hu ▸ ht⟩

/-! ## What is left alone, step by step -/

theorem regsSameBut.refl (s : State) (as : List Nat) : regsSameBut s s as := fun _ _ => rfl

theorem regsSameBut.trans {s t u : State} {as : List Nat} (h1 : regsSameBut s t as) (h2 : regsSameBut t u as) :
    regsSameBut s u as := fun a ha => (h2 a ha).trans (h1 a ha)

theorem regsSameBut_of_regs {s t : State} (h : t.regs = s.regs) (as : List Nat) : regsSameBut s t as :=
  fun a _ => getR_congr h a

theorem regsSameBut.setR {s t : State} {as : List Nat} (h : regsSameBut s t as) {a : Nat} (ha : a ∈ as) (v : Word32) :
    regsSameBut s (setR t a v) as := 
  h.trans fun b hb => getR_setR_ne (by rintro rfl; exact hb ha) v

theorem regsSameBut.putF {s t : State} {as : List Nat} (h : regsSameBut s t as) {a : Nat} (ha : a ∈ as) (f : Fld) (x : Nat) :
    regsSameBut s (putF t a f x) as := h.setR ha _

theorem regsSameBut.satF {s t : State} {as : List Nat} (h : regsSameBut s t as) {a : Nat} (ha : a ∈ as) (f : Fld) (x : Nat) :
    regsSameBut s (satF t a f x) as := h.putF ha _ _

theorem regsSameBut.of_regs {s t u : State} {as : List Nat} (h : regsSameBut s t as) (hu : u.regs = t.regs) :
    regsSameBut s u as := h.trans (regsSameBut_of_regs hu as)

theorem memSame.refl (s : State) : memSame s s := fun _ => rfl

theorem memSame.trans {s t u : State} (h1 : memSame s t) (h2 : memSame t u) : memSame s u := fun a => (h2 a).trans (h1 a)

/-! ## Registers written in turn -/

theorem getR_foldl_setR_ne {α : Type} (f : α → Nat) (g : α → Word32) (l : List α) (s : State) {a : Nat}
    (h : ∀ x ∈ l, a ≠ f x) : getR (l.foldl (fun t x => setR t (f x) (g x)) s) a = getR s a := by
  induction l generalizing s with
  | nil => rfl
  | cons x l ih =>
    rw [List.foldl_cons, ih _ fun y hy => h y (List.mem_cons_of_mem _ hy), getR_setR_ne (h x List.mem_cons_self)]

theorem getR_foldl_setR {α : Type} (f : α → Nat) (g : α → Word32) (l : List α) (s : State) (hf : Function.Injective f)
    {x : α} (hx : x ∈ l) (hl : l.Nodup) : getR (l.foldl (fun t x => setR t (f x) (g x)) s) (f x) = g x := by
  induction l generalizing s with
  | nil => cases hx
  | cons y l ih =>
    obtain ⟨hy, hl⟩ := List.nodup_cons.1 hl
    rw [List.foldl_cons]
    rcases List.mem_cons.1 hx with rfl | hx
    · rw [getR_foldl_setR_ne f g l _ fun z hz e => hy (by rw [hf e]; exact hz), getR_setR_self]
    · exact ih _ hx hl

end Sys2Proof.Machine
end

section
/-! PROOFS. Mailboxes: the lock, the window, POST to a smith receiver, and the two time-outs (R347 to R351). -/

namespace Sys2Proof.Machine

variable {s : State} {agent m : Nat}

/-! ## What each command of a mailbox does, by case -/

theorem mbxLockRead_free (ha : isAgent agent = true) (h : (mbxAt s m).owner = 0) : mbxLockRead s agent m =
    { setMbx s m { (mbxAt s m) with owner := agent, since := s.time.ns, quenched := 0 } with answer := .value 0 } := by
  simp [mbxLockRead, lockRead, ha, h, State.now]

theorem mbxLockRead_taken (ha : isAgent agent = true) (h : (mbxAt s m).owner ≠ 0) :
    mbxLockRead s agent m = { s with answer := .value (BitVec.ofNat 32 (mbxAt s m).owner) } := by
  simp [mbxLockRead, lockRead, ha, h]

theorem mbxLockWrite_owner (ha : isAgent agent = true) (h : (mbxAt s m).owner = agent) {v : Nat} (hv : v % 256 = agent) :
    mbxLockWrite s agent m v = freeLock s m := by simp [mbxLockWrite, ha, h, hv]

theorem mbxLockWrite_other (h : (mbxAt s m).owner ≠ agent) (v : Nat) : mbxLockWrite s agent m v = s := by
  simp [mbxLockWrite, h]

theorem mbxWindowWrite_owner (ha : isAgent agent = true) (h : (mbxAt s m).owner = agent) (w : Nat) (v : Word32) :
    mbxWindowWrite s agent m w v = setR s (MBX_DATA (64 * m + w)) v := by simp [mbxWindowWrite, ha, h]

theorem mbxWindowWrite_other (ha : isAgent agent = true) (h : (mbxAt s m).owner ≠ agent) (w : Nat) (v : Word32) :
    mbxWindowWrite s agent m w v = mailboxRefused s m agent := by simp [mbxWindowWrite, ha, h]

theorem postMessage_other (ha : isAgent agent = true) (h : (mbxAt s m).owner ≠ agent) :
    postMessage s agent m = mailboxRefused s m agent := by simp [postMessage, ha, h]

theorem postMessage_full (ha : isAgent agent = true) (hm : m ≠ 0) (hchip : mbxOnChip s m = true)
    (h : (mbxAt s m).owner = agent) (hf : (mbxAt s m).fullAt.isSome = true) :
    postMessage s agent m = putF s (MBX_STAT m) MBX_STAT_REFUSED 1 := by simp [postMessage, ha, hm, hchip, h, hf]

theorem postMessage_free (ha : isAgent agent = true) (hm : m ≠ 0) (hchip : mbxOnChip s m = true)
    (h : (mbxAt s m).owner = agent) (hf : (mbxAt s m).fullAt = none) (hd : receiverDead s m = false) :
    postMessage s agent m = freeLock (deliver s m (agentWord agent)) m := by
  simp [postMessage, ha, hm, hchip, h, hf, hd]

/-! ## The time-outs -/

theorem mailboxRefused_frame (s : State) (m who : Nat) :
    mailboxRefused s m who = { s with recorder := (mailboxRefused s m who).recorder } := makeRecord_eq ..

/-- A window with no bytes reads zero. -/
theorem getR_setWindow_nil (s : State) (m : Nat) (w : Fin 64) : getR (setWindow s m []) (MBX_DATA (64 * m + w)) = 0 := by
  have hinj : Function.Injective fun w => MBX_DATA (64 * m + w) := fun a b h => by
    simp only [MBX_DATA] at h; omega
  rw [setWindow, getR_foldl_setR (fun w => MBX_DATA (64 * m + w)) _ _ s hinj (List.mem_range.2 w.isLt) List.nodup_range]
  simp [fieldLE, ofLE]

theorem setWindow_frame (s : State) (m : Nat) (bs : List Byte) :
    setWindow s m bs = { s with regs := (setWindow s m bs).regs } := by
  unfold setWindow
  induction List.range 64 generalizing s with
  | nil => rfl
  | cons w l ih => rw [List.foldl_cons, ih]; rfl

/-- The lock is freed, the window cleared and the time-out marked (R347). -/
def lockFreed (s : State) (m : Nat) : State := putF (setWindow (freeLock s m) m []) (MBX_STAT m) MBX_STAT_LOCK_TO 1

theorem lockFreed_frame (s : State) (m : Nat) : lockFreed s m =
    { s with regs := (lockFreed s m).regs, mbx := (freeLock s m).mbx } := by
  rw [lockFreed, putF, setR, setWindow_frame]; rfl

@[simp] theorem lockFreed_mbx (s : State) (m : Nat) : (lockFreed s m).mbx = (freeLock s m).mbx := by rw [lockFreed_frame]

theorem flag_lockFreed (s : State) (m : Nat) : flag (lockFreed s m) (MBX_STAT m) MBX_STAT_LOCK_TO = true :=
  flag_putF_one (by decide) (by decide) ..

theorem lockTimeout_due (hq : quenched s = false) (ho : (mbxAt s m).owner ≠ 0)
    (hdue : mbxLimit s ≤ s.time.ns - (mbxAt s m).since - (mbxAt s m).quenched) : lockTimeout s m = 
      mailboxRefused (lockFreed s m) m (mbxAt s m).owner := by
  have hnot : ¬ s.now - (mbxAt s m).since - (mbxAt s m).quenched < mbxLimit s := by unfold State.now; omega
  simp [lockTimeout, lockFreed, hq, ho, hnot]

/-- A mailbox's status register is none of its window. -/
theorem mbxData_ne_stat (m : Fin 32) (w : Nat) : MBX_DATA w ≠ MBX_STAT m := by
  have hm := m.isLt
  unfold MBX_DATA MBX_STAT; omega

theorem getR_lockFreed (s : State) (m : Fin 32) (w : Fin 64) : getR (lockFreed s m) (MBX_DATA (64 * m + w)) = 0 :=
  (getR_putF_ne (mbxData_ne_stat m _) ..).trans (getR_setWindow_nil ..)

/-- A lock that is freed for its time-out leaves the record of the mailbox besides. -/
theorem lockTimeout_answers {m : Fin 32} (hm : m.val < s.mbx.length) (who : Nat) :
    (mbxAt (mailboxRefused (lockFreed s m) m who) m).owner = 0 ∧
    flag (mailboxRefused (lockFreed s m) m who) (MBX_STAT m) MBX_STAT_LOCK_TO = true ∧
    (∀ w : Fin 64, getR (mailboxRefused (lockFreed s m) m who) (MBX_DATA (64 * m + w)) = 0) ∧
    mailboxRefused (lockFreed s m) m who = { s with
      regs := (mailboxRefused (lockFreed s m) m who).regs, mbx := (mailboxRefused (lockFreed s m) m who).mbx
      recorder := (mailboxRefused (lockFreed s m) m who).recorder } := by
  have hregs : (mailboxRefused (lockFreed s m) m who).regs = (lockFreed s m).regs := makeRecord_regs ..
  have hmbx : (mailboxRefused (lockFreed s m) m who).mbx = (freeLock s m).mbx :=
    (makeRecord_mbx ..).trans (lockFreed_mbx ..)
  refine ⟨?_, ?_, fun w => ?_, ?_⟩
  · rw [mbxAt, hmbx]
    exact congrArg Mailbox.owner (mbxAt_setMbx hm _)
  · rw [flag_congr hregs, flag_lockFreed]
  · rw [getR_congr hregs, getR_lockFreed]
  · rw [hregs, hmbx, mailboxRefused_frame, lockFreed_frame]

/-- The message of mailbox `m` is given up, and its sender marked (R351). -/
def messageDropped (s : State) (m : Nat) : State := putF (putF (clearFull (dequeueMailbox s m) m) (MBX_STAT m)
  MBX_STAT_TIMEOUT 1) (MBX_STAT m) MBX_STAT_TO_AGENT (senderOf s m % 256)

theorem messageDropped_mbx (s : State) (m : Nat) : (messageDropped s m).mbx = (clearFull s m).mbx := by
  rw [messageDropped, putF_mbx, putF_mbx]; rfl

theorem messageDropped_frame (s : State) (m : Nat) : messageDropped s m = { s with
    regs := (messageDropped s m).regs, mbx := (messageDropped s m).mbx, hearths := (messageDropped s m).hearths } := by
  apply State.ext_fields
  case hregs | hmbx | hhearths => rfl
  all_goals simp -implicitDefEqProofs [messageDropped, clearFull, setMbx, dequeueMailbox]

theorem messageDropped_hearths (s : State) (m : Nat) : (messageDropped s m).hearths = (dequeueMailbox s m).hearths := by
  rw [messageDropped, putF_hearths, putF_hearths]; rfl

theorem flag_messageDropped (s : State) (m : Nat) : flag (messageDropped s m) (MBX_STAT m) MBX_STAT_TIMEOUT = true := by
  rw [messageDropped, flag_putF_apart (by decide) (by decide) (by decide) (by decide)]
  exact flag_putF_one (by decide) (by decide) ..

theorem messageTimeout_onChip {t0 : Nat} (hf : (mbxAt s m).fullAt = some t0) (hdue : mbxLimit s ≤ s.time.ns - t0)
    (hs : senderOf s m < 2 ^ 62) : messageTimeout s m = messageDropped s m := by
  have hnot : ¬ s.now - t0 < mbxLimit s := by unfold State.now; omega
  have hword : bitsOf 63 62 (senderOf s m) = 0 := by rw [bitsOf, Nat.div_eq_of_lt hs]; rfl
  simp [messageTimeout, messageDropped, hf, hnot, hword]

/-- Of a mailbox's tasks those that have started stay in their queues. -/
theorem mem_ready_dequeueMailbox (hz : sized s = true) (h : HearthId) (x : Task) :
    x ∈ (hearthAt (dequeueMailbox s m) h).ready ↔ x ∈ (hearthAt s h).ready ∧ unstartedOf m x = false := by
  have hlt : h.val < s.hearths.length := by
    obtain ⟨-, -, hh, -⟩ := sized_iff.1 hz
    rw [hh]; exact h.isLt
  simp [hearthAt, dequeueMailbox, List.getD_eq_getElem?_getD, hlt]

theorem unstartedOf_iff {x : Task} : unstartedOf m x = true ↔ x.mbox = some m ∧ x.fails = 0 ∧ x.slot = none := by
  simp [unstartedOf, and_assoc]

/-! ## POST -/

/-- A message to a smith receiver sets FULL and stamps its sender. -/
theorem deliver_smith (hs : smithReceives s m = true) (hm : m ≠ 0) (w : Word64) : deliver s m w =
    setMbx (setPair s (MBX_SENDER_LO m) (MBX_SENDER_HI m) w.toNat) m { (mbxAt s m) with fullAt := some s.time.ns } := by
  have hkind : getF (setPair s (MBX_SENDER_LO m) (MBX_SENDER_HI m) w.toNat) (MBX_CFG m) MBX_CFG_RKIND = 1 := by
    have hlo : MBX_CFG m ≠ MBX_SENDER_LO m := by unfold MBX_CFG MBX_SENDER_LO; omega
    have hhi : MBX_CFG m ≠ MBX_SENDER_HI m := by unfold MBX_CFG MBX_SENDER_HI; omega
    rw [getF, setPair, getR_setR_ne hhi, getR_setR_ne hlo, ← getF]
    simpa [smithReceives, hm] using hs
  have hnot : taskReceives (setMbx (setPair s (MBX_SENDER_LO m) (MBX_SENDER_HI m) w.toNat) m
      { (mbxAt s m) with fullAt := some s.time.ns }) m = false := by
    have hregs (x : Mailbox) : getF (setMbx (setPair s (MBX_SENDER_LO m) (MBX_SENDER_HI m) w.toNat) m x) (MBX_CFG m)
      MBX_CFG_RKIND = 1 := hkind
    simp [taskReceives, hregs]
  exact if_neg (Bool.eq_false_iff.1 hnot)

/-- A pair of registers reads back the number that was put in it. -/
theorem getPair_setPair {lo hi : Nat} (h : lo ≠ hi) (s : State) {v : Nat} (hv : v < 2 ^ 64) :
    getPair (setPair s lo hi v) lo hi = v := by
  have h1 : v / 2 ^ 32 < 2 ^ 32 := by omega
  rw [getPair, setPair, getR_setR_self, getR_setR_ne h, getR_setR_self, BitVec.toNat_ofNat, BitVec.toNat_ofNat,
    Nat.mod_eq_of_lt h1]
  omega

/-- What a POST to a smith receiver leaves (R348, R350). -/
def posted (s : State) (agent m : Nat) : State := freeLock (setMbx (setPair s (MBX_SENDER_LO m) (MBX_SENDER_HI m)
  (agentWord agent).toNat) m { (mbxAt s m) with fullAt := some s.time.ns }) m

theorem postMessage_smith (ha : isAgent agent = true) (hm : m ≠ 0) (hchip : mbxOnChip s m = true)
    (h : (mbxAt s m).owner = agent) (hf : (mbxAt s m).fullAt = none) (hs : smithReceives s m = true)
    (hd : receiverDead s m = false) : postMessage s agent m = posted s agent m := by
  rw [postMessage_free ha hm hchip h hf hd, deliver_smith hs hm, posted]

theorem mbxAt_posted (hm : m < s.mbx.length) (agent : Nat) :
    mbxAt (posted s agent m) m = { (mbxAt s m) with fullAt := some s.time.ns, owner := 0 } := by
  rw [posted, freeLock, mbxAt_setMbx (by simpa [setMbx] using hm), mbxAt_setMbx (by simpa using hm)]

theorem senderOf_posted (s : State) (agent : BitVec 8) (m : Nat) : senderOf (posted s agent.toNat m) m = agent.toNat := by
  have hne : MBX_SENDER_LO m ≠ MBX_SENDER_HI m := by unfold MBX_SENDER_LO MBX_SENDER_HI; omega
  have hagent : (agentWord agent.toNat).toNat = agent.toNat := by
    simp only [agentWord, w64, BitVec.toNat_ofNat]
    omega
  have hregs : (posted s agent.toNat m).regs =
      (setPair s (MBX_SENDER_LO m) (MBX_SENDER_HI m) (agentWord agent.toNat).toNat).regs := rfl
  rw [senderOf, getPair, getR_congr hregs, getR_congr hregs, ← getPair, getPair_setPair hne _ (BitVec.isLt _), hagent]

theorem posted_frame (s : State) (agent m : Nat) :
    posted s agent m = { s with regs := (posted s agent m).regs, mbx := (posted s agent m).mbx } := rfl

/-- Settles O41: each clause is the case of one command, and what that case leaves. -/
theorem mailboxes : Obligations.Mailboxes := by
  unfold Obligations.Mailboxes
  intro agent m s hz ha
  have hm : m.val < s.mbx.length := by rw [sized_mbx hz]; exact m.isLt
  refine ⟨fun h0 => ?_, fun h0 => ?_, fun val ho => ⟨fun hv => ?_, fun w => ?_⟩, fun val w ho => ⟨?_, ?_, ?_⟩,
    fun hm0 hchip ho => ⟨fun f hf => ?_, fun hf hsmith hdead => ?_⟩, fun ho hq hdue => ?_, fun t0 hf hdue hs => ?_⟩
  · exact .of rfl (mbxLockRead_free ha h0) ⟨rfl, mbxAt_setMbx hm _, rfl⟩
  · exact .of rfl (mbxLockRead_taken ha h0) rfl
  · exact .of rfl (mbxLockWrite_owner ha ho hv) ⟨congrArg Mailbox.owner (mbxAt_setMbx hm _), rfl⟩
  · exact .of rfl (mbxWindowWrite_owner ha ho _ _)
      ⟨getR_setR_self .., (regsSameBut.refl s _).setR (List.mem_singleton_self _) _, rfl⟩
  · exact .of rfl (mbxLockWrite_other ho _) rfl
  · exact .of rfl (mbxWindowWrite_other ha ho _ _) rfl
  · exact .of rfl (postMessage_other ha ho) rfl
  · exact .of rfl (postMessage_full ha hm0 hchip ho (by simp [hf]))
      ⟨flag_putF_one (by decide) (by decide) .., regsSameBut_putF s _ _ _, rfl⟩
  · have hmbx := mbxAt_posted hm agent.toNat
    exact .of rfl (postMessage_smith ha hm0 hchip ho hf hsmith hdead)
      ⟨congrArg Mailbox.fullAt hmbx, congrArg Mailbox.owner hmbx, senderOf_posted s agent m, posted_frame ..⟩
  · exact .of rfl (lockTimeout_due hq ho hdue) (lockTimeout_answers hm _)
  · refine .of rfl (messageTimeout_onChip hf hdue hs) ⟨?_, ?_, fun h x hx => ?_, messageDropped_frame ..⟩
    · rw [mbxAt_congr (messageDropped_mbx s m), mbxAt_clearFull hm]
    · exact flag_messageDropped ..
    · rw [hearthAt_congr (messageDropped_hearths s m), mem_ready_dequeueMailbox hz, ← unstartedOf_iff, Bool.not_eq_true]
      exact and_iff_right hx

end Sys2Proof.Machine
end

section
/-! PROOFS. The event recorder: the words of the ring, what the writing of a record leaves alone, the freeze and its end, and
the window (R437 to R445). -/

namespace Sys2Proof.Machine

/-! ## Words of the ring -/

theorem ringWord_putWord (rc : Recorder) (i j : Nat) (w : Word64) :
    ringWord (rc.putWord i w) j = if j = i then w else ringWord rc j := assocGet_sparseSet 0 i j w rc.ring

theorem ringWord_putWords (ws : List Word64) (rc : Recorder) (i j : Nat) :
    ringWord (rc.putWords i ws) j = if i ≤ j ∧ j < i + ws.length then ws.getD (j - i) 0 else ringWord rc j := by
  induction ws generalizing rc i with
  | nil => simp [Recorder.putWords, show ¬(i ≤ j ∧ j < i) by omega]
  | cons w ws ih =>
    rw [Recorder.putWords, ih, ringWord_putWord]
    by_cases hj : j = i
    · subst hj; simp
    · by_cases hin : i + 1 ≤ j ∧ j < i + 1 + ws.length
      · rw [if_pos hin, if_pos (by simp only [List.length_cons]; omega), show j - i = (j - (i + 1)) + 1 by omega]
        rfl
      · rw [if_neg hin, if_neg hj, if_neg (by simp only [List.length_cons]; omega)]

/-- The words written change the ring and its errors alone. -/
theorem putWords_frame (ws : List Word64) (rc : Recorder) (i : Nat) :
    rc.putWords i ws = { rc with ring := (rc.putWords i ws).ring, bad := (rc.putWords i ws).bad } := by
  induction ws generalizing rc i with
  | nil => rfl
  | cons w ws ih => rw [Recorder.putWords, ih]; rfl

/-! ## A record written inside a block -/

/-- The ring once a record of `body` stands at its head. -/
def Recorder.placed (rc : Recorder) (src typ time : Nat) (body : List Word64) : Recorder :=
  let rc := rc.putWords (rc.head / 8) (headerWord (body.length + 1) typ src rc.seq time :: body)
  { rc with head := (rc.head + 8 * (body.length + 1)) % ringBytes, seq := (rc.seq + 1) % 2 ^ 64 }

theorem placed_frame (rc : Recorder) (src typ time : Nat) (body : List Word64) : rc.placed src typ time body = { rc with
    ring := (rc.placed src typ time body).ring, bad := (rc.placed src typ time body).bad
    head := (rc.head + 8 * (body.length + 1)) % ringBytes, seq := (rc.seq + 1) % 2 ^ 64 } := by
  unfold Recorder.placed
  dsimp only
  rw [putWords_frame]

/-- The ring that a record finds: after a pad and without the oldest block, where they are due. -/
def Recorder.roomFor (rc : Recorder) (body : List Word64) (now : Nat) : Recorder × Bool :=
  (rc.pad (body.length + 1) now).evict

theorem placeRec_eq (s : State) (src typ time : Nat) (body : List Word64) : placeRec s src typ time body =
    if (s.recorder.roomFor body s.now).2 then
      putF { s with recorder := (s.recorder.roomFor body s.now).1.placed src typ time body } EVR_STATUS EVR_STATUS_WRAPPED 1
    else { s with recorder := (s.recorder.roomFor body s.now).1.placed src typ time body } := rfl

/-- Where the record fits in the block and the block is begun, neither a pad nor the oldest block comes in. -/
theorem placeRec_inside {s : State} {src typ time : Nat} {body : List Word64}
    (hfit : 8 * (body.length + 1) ≤ blockLeft s.recorder) (hin : s.recorder.head % 256 ≠ 0) :
    placeRec s src typ time body = { s with recorder := s.recorder.placed src typ time body } := by
  have hpad : s.recorder.pad (body.length + 1) s.now = s.recorder := if_neg (by omega)
  have hroom : s.recorder.roomFor body s.now = (s.recorder, false) := by
    simp [Recorder.roomFor, hpad, Recorder.evict, hin]
  rw [placeRec_eq, hroom, if_neg Bool.false_ne_true]

theorem anchorIfDue_none {s : State} (h : anchorCause s.recorder s.now = 0) : anchorIfDue s = s := if_pos h

theorem ringWord_placed (rc : Recorder) (src typ time : Nat) (body : List Word64) (j : Nat) :
    ringWord (rc.placed src typ time body) j = if rc.head / 8 ≤ j ∧ j < rc.head / 8 + (body.length + 1) then
      (headerWord (body.length + 1) typ src rc.seq time :: body).getD (j - rc.head / 8) 0 else ringWord rc j :=
  ringWord_putWords ..

/-! ## What the writing of records leaves alone -/

/-- From `s` to `t` records were written: in the recorder the ring, its numbers and its anchor changed, and of the registers
EVR_STATUS alone, whose freeze is as it was. -/
structure RingWrites (s t : State) : Prop where
  frame : t = { s with regs := t.regs, recorder := t.recorder }
  regs : regsSameBut s t [EVR_STATUS]
  frozenFlag : flag t EVR_STATUS EVR_STATUS_FROZEN = flag s EVR_STATUS EVR_STATUS_FROZEN
  frozen : t.recorder.frozen = s.recorder.frozen
  hold : t.recorder.hold = s.recorder.hold
  waiting : t.recorder.waiting = s.recorder.waiting

namespace RingWrites
variable {s t u : State}

theorem refl (s : State) : RingWrites s s := ⟨rfl, .refl s _, rfl, rfl, rfl, rfl⟩

theorem trans (h1 : RingWrites s t) (h2 : RingWrites t u) : RingWrites s u where
  frame := by rw [h2.frame, h1.frame]
  regs := h1.regs.trans h2.regs
  frozenFlag := h2.frozenFlag.trans h1.frozenFlag
  frozen := h2.frozen.trans h1.frozen
  hold := h2.hold.trans h1.hold
  waiting := h2.waiting.trans h1.waiting

theorem now (h : RingWrites s t) : t.now = s.now := by rw [h.frame]; rfl

theorem memSame (h : RingWrites s t) : memSame s t := memSame_of_mem (by rw [h.frame])

/-- A change of the ring alone. -/
theorem ring (s : State) {rc : Recorder} (hf : rc.frozen = s.recorder.frozen) (hh : rc.hold = s.recorder.hold)
    (hw : rc.waiting = s.recorder.waiting) : RingWrites s { s with recorder := rc } :=
  ⟨rfl, regsSameBut_of_regs rfl _, flag_congr rfl .., hf, hh, hw⟩

theorem wrapped (s : State) : RingWrites s (putF s EVR_STATUS EVR_STATUS_WRAPPED 1) :=
  ⟨rfl, regsSameBut_putF s _ _ _, flag_putF_apart (by decide) (by decide) (by decide) (by decide) .., rfl, rfl, rfl⟩

end RingWrites

/-- The parts of a recorder that no record changes as it is written. -/
def Recorder.kept (rc : Recorder) : Option Nat × List Rec × List Rec × Option Nat :=
  (rc.frozen, rc.hold, rc.waiting, rc.anchored)

theorem kept_putWords (ws : List Word64) (rc : Recorder) (i : Nat) : (rc.putWords i ws).kept = rc.kept := by
  rw [putWords_frame]; rfl

theorem kept_pad (rc : Recorder) (n now : Nat) : (rc.pad n now).kept = rc.kept := by
  unfold Recorder.pad
  split
  · exact kept_putWords ..
  · rfl

theorem kept_evict (rc : Recorder) : rc.evict.1.kept = rc.kept := by unfold Recorder.evict; split <;> rfl

theorem kept_roomFor_placed (s : State) (src typ time : Nat) (body : List Word64) :
    ((s.recorder.roomFor body s.now).1.placed src typ time body).kept = s.recorder.kept := by
  rw [placed_frame]
  exact (kept_evict _).trans (kept_pad ..)

theorem ringWrites_placeRec (s : State) (src typ time : Nat) (body : List Word64) :
    RingWrites s (placeRec s src typ time body) := by
  have hkept := kept_roomFor_placed s src typ time body
  simp only [Recorder.kept, Prod.mk.injEq] at hkept
  obtain ⟨hf, hh, hw, -⟩ := hkept
  have hring := RingWrites.ring s hf hh hw
  rw [placeRec_eq]
  split
  · exact hring.trans (.wrapped _)
  · exact hring

theorem placeRec_anchored (s : State) (src typ time : Nat) (body : List Word64) :
    (placeRec s src typ time body).recorder.anchored = s.recorder.anchored := by
  have h : ((s.recorder.roomFor body s.now).1.placed src typ time body).anchored = s.recorder.anchored :=
    congrArg (·.2.2.2) (kept_roomFor_placed s src typ time body)
  rw [placeRec_eq]
  split <;> exact h

theorem ringWrites_anchorIfDue (s : State) : RingWrites s (anchorIfDue s) := by
  unfold anchorIfDue
  dsimp only
  split
  · exact .refl s
  · exact (ringWrites_placeRec ..).trans (.ring _ rfl rfl rfl)

theorem anchorIfDue_anchored_due {s : State} (h : anchorCause s.recorder s.now ≠ 0) :
    (anchorIfDue s).recorder.anchored = some s.now := by
  unfold anchorIfDue
  rw [if_neg h]

theorem anchorIfDue_anchored {s : State} (h : s.recorder.anchored = some s.now) :
    (anchorIfDue s).recorder.anchored = some s.now := by
  unfold anchorIfDue
  dsimp only
  split
  · exact h
  · rfl

theorem ringWrites_writeRec (s : State) (r : Rec) : RingWrites s (writeRec s r) :=
  (ringWrites_anchorIfDue s).trans (ringWrites_placeRec ..)

theorem writeRec_anchored {s : State} (h : s.recorder.anchored = some s.now) (r : Rec) :
    (writeRec s r).recorder.anchored = some s.now := by rw [writeRec, placeRec_anchored, anchorIfDue_anchored h]

theorem ringWrites_writeRecs (l : List Rec) (s : State) : RingWrites s (l.foldl writeRec s) := by
  induction l generalizing s with
  | nil => exact .refl s
  | cons r l ih => exact (ringWrites_writeRec s r).trans (ih _)

theorem writeRecs_anchored (l : List Rec) {s : State} (h : s.recorder.anchored = some s.now) :
    (l.foldl writeRec s).recorder.anchored = some s.now := by
  induction l generalizing s with
  | nil => exact h
  | cons r l ih =>
    have hnow := (ringWrites_writeRec s r).now
    rw [List.foldl_cons, ← hnow]
    exact ih (hnow ▸ writeRec_anchored h r)

/-! ## The oldest waiting record (R437, R443) -/

section
variable {s : State} {r : Rec} {rest : List Rec}

theorem eventRecord_thawed (hw : s.recorder.waiting = r :: rest) (hf : s.recorder.frozen = none) :
    eventRecord s = writeRec { s with recorder := { s.recorder with waiting := rest } } r := by simp [eventRecord, hw, hf]

theorem eventRecord_frozen (hw : s.recorder.waiting = r :: rest) (hf : s.recorder.frozen.isSome = true) :
    eventRecord s = holdRec { s with recorder := { s.recorder with waiting := rest } } r := by simp [eventRecord, hw, hf]

theorem holdRec_room (h : holdBytes (s.recorder.hold ++ [r]) ≤ 0x10000) :
    holdRec s r = { s with recorder := { s.recorder with hold := s.recorder.hold ++ [r] } } := if_neg (by omega)

/-- With no anchor due and room in a begun block, the oldest waiting record is placed at the head of the ring. -/
theorem eventRecord_inside (hw : s.recorder.waiting = r :: rest) (hf : s.recorder.frozen = none)
    (ha : anchorCause s.recorder s.now = 0) (hfit : 8 * (r.body.length + 1) ≤ blockLeft s.recorder)
    (hin : s.recorder.head % 256 ≠ 0) : eventRecord s = { s with
      recorder := { s.recorder with waiting := rest }.placed r.src r.typ r.time r.body } := by
  have hdue : anchorIfDue { s with recorder := { s.recorder with waiting := rest } } =
    { s with recorder := { s.recorder with waiting := rest } } := anchorIfDue_none ha
  rw [eventRecord_thawed hw hf, writeRec, hdue]
  exact placeRec_inside hfit hin

end

/-- What stands in the ring once a record is placed: its header, its body, and every other word as before. -/
theorem placed_words (rc : Recorder) (r : Rec) :
    ringWord (rc.placed r.src r.typ r.time r.body) (rc.head / 8) =
      headerWord (r.body.length + 1) r.typ r.src rc.seq r.time ∧
    (∀ k, k < r.body.length → ringWord (rc.placed r.src r.typ r.time r.body) (rc.head / 8 + 1 + k) = r.body.getD k 0) ∧
    (∀ k, k < rc.head / 8 ∨ rc.head / 8 + r.body.length < k →
      ringWord (rc.placed r.src r.typ r.time r.body) k = ringWord rc k) := by
  refine ⟨?_, fun k hk => ?_, fun k hk => ?_⟩
  · rw [ringWord_placed, if_pos (by omega), Nat.sub_self]; rfl
  · rw [ringWord_placed, if_pos (by omega), show rc.head / 8 + 1 + k - rc.head / 8 = k + 1 by omega]; rfl
  · rw [ringWord_placed, if_neg (by omega)]

/-! ## The freeze and its end (R443) -/

theorem freeze_thawed {s : State} {agent : Nat} (hm : mayWrite s agent EVR_CTL = true) (hf : s.recorder.frozen = none) :
    freeze s agent = putF { s with recorder := { s.recorder with frozen := some s.now } } EVR_STATUS EVR_STATUS_FROZEN 1 := by
  simp [freeze, hm, evrControl, freezeRing, hf]

theorem thaw_of_may {s : State} {agent : Nat} (hm : mayWrite s agent EVR_CTL = true) : thaw s agent = thawRing s := by
  simp [thaw, hm, evrControl]

theorem thawRing_thawed {s : State} (hf : s.recorder.frozen = none) : thawRing s = s := by simp [thawRing, hf]

/-- The recorder as the ring opens again, before its anchor: nothing is held, and the head may move (R444). -/
def Recorder.thawed (rc : Recorder) : Recorder := { rc with
  frozen := none, hold := [], thawDue := true, moveHead := false, head := if rc.moveHead then nextBlock rc else rc.head }

/-- The state as the ring opens again, before its anchor. -/
def thawOpened (s : State) : State :=
  putF (putF { s with recorder := s.recorder.thawed } EVR_STATUS EVR_STATUS_FROZEN 0) EVR_STATUS EVR_STATUS_HOLD_FULL 0

theorem thawRing_frozen {s : State} (hf : s.recorder.frozen.isSome = true) :
    thawRing s = s.recorder.hold.foldl writeRec (anchorIfDue (thawOpened s)) := by
  obtain ⟨x, hx⟩ := Option.isSome_iff_exists.1 hf
  simp [thawRing, hx, thawOpened, Recorder.thawed]

theorem thawOpened_recorder (s : State) : (thawOpened s).recorder = s.recorder.thawed := by
  rw [thawOpened, putF_recorder, putF_recorder]

theorem thawOpened_mem (s : State) : (thawOpened s).mem = s.mem := by rw [thawOpened, putF_mem, putF_mem]

theorem thawOpened_now (s : State) : (thawOpened s).now = s.now := by
  rw [State.now, thawOpened, putF_time, putF_time, State.now]

theorem thawOpened_regs (s : State) : regsSameBut s (thawOpened s) [EVR_STATUS] :=
  ((regsSameBut_of_regs rfl _).putF (List.mem_singleton_self _) _ _).putF (List.mem_singleton_self _) _ _

theorem thawOpened_flag (s : State) : flag (thawOpened s) EVR_STATUS EVR_STATUS_FROZEN = false := by
  rw [thawOpened, flag_putF_apart (by decide) (by decide) (by decide) (by decide)]
  exact flag_putF_zero (by decide) (by decide) ..

theorem ringWrites_thawRing {s : State} (hf : s.recorder.frozen.isSome = true) : RingWrites (thawOpened s) (thawRing s) := by
  rw [thawRing_frozen hf]
  exact (ringWrites_anchorIfDue _).trans (ringWrites_writeRecs ..)

/-- The anchor of a thaw is always due. -/
theorem thawRing_anchored {s : State} (hf : s.recorder.frozen.isSome = true) :
    (thawRing s).recorder.anchored = some s.now := by
  have hdue : anchorCause (thawOpened s).recorder (thawOpened s).now ≠ 0 := by
    rw [thawOpened_recorder]; simp [anchorCause, Recorder.thawed]
  have hanchor := anchorIfDue_anchored_due hdue
  have hnow := (ringWrites_anchorIfDue (thawOpened s)).now
  rw [thawOpened_now] at hnow hanchor
  rw [thawRing_frozen hf, ← hnow]
  exact writeRecs_anchored _ (hnow ▸ hanchor)

/-- What the end of a freeze leaves. -/
theorem thawRing_opens {s : State} (hf : s.recorder.frozen.isSome = true) :
    (thawRing s).recorder.frozen = none ∧ flag (thawRing s) EVR_STATUS EVR_STATUS_FROZEN = false ∧
    (thawRing s).recorder.hold = [] ∧ (thawRing s).recorder.anchored = some s.now ∧
    (thawRing s).recorder.waiting = s.recorder.waiting ∧ memSame s (thawRing s) ∧
    regsSameBut s (thawRing s) [EVR_STATUS] := by
  have h := ringWrites_thawRing hf
  refine ⟨?_, ?_, ?_, thawRing_anchored hf, ?_, ?_, (thawOpened_regs s).trans h.regs⟩
  · rw [h.frozen, thawOpened_recorder]; rfl
  · rw [h.frozenFlag, thawOpened_flag]
  · rw [h.hold, thawOpened_recorder]; rfl
  · rw [h.waiting, thawOpened_recorder]; rfl
  · exact (memSame_of_mem (thawOpened_mem s)).trans h.memSame

theorem freezeExpiry_due {s : State} {x : Nat} (hf : s.recorder.frozen = some x)
    (h : min 30000 (getF s EVR_CTL EVR_CTL_FREEZE_LIM) * 1000000 ≤ s.now - x) :
    freezeExpiry s = putF (thawRing s) EVR_STATUS EVR_STATUS_TIMED_OUT 1 := by
  rw [freezeExpiry, hf]
  exact if_neg (by omega)

theorem freezeExpiry_early {s : State} {x : Nat} (hf : s.recorder.frozen = some x)
    (h : s.now - x < min 30000 (getF s EVR_CTL EVR_CTL_FREEZE_LIM) * 1000000) : freezeExpiry s = s := by
  rw [freezeExpiry, hf]
  exact if_pos h

/-! ## The window (R444, R445) -/

/-- The words of a damaged-block record. -/
def damageWords (now : Nat) : List Word64 := headerWord 32 0x002 srcRecorder 0 now :: List.replicate 31 0

/-- `damageBlock` writes the words of the block and counts it; only the head may move besides. -/
theorem damageBlock_recorder (s : State) (word : Nat) : ∃ rc, damageBlock s word = { s with recorder := rc } ∧
    rc.ring = (s.recorder.putWords (32 * (word / 32)) (damageWords s.now)).ring ∧
    rc.damaged = satAdd 255 s.recorder.damaged 1 := by
  refine ⟨(damageBlock s word).recorder, rfl, ?_⟩
  have hwords : headerWord 32 0x002 srcRecorder 0 s.now :: List.replicate 31 0 = damageWords s.now := rfl
  unfold damageBlock
  rw [hwords]
  generalize damageWords s.now = ws
  dsimp only
  split
  · exact ⟨rfl, rfl⟩
  · split <;> exact ⟨rfl, rfl⟩

theorem ringWord_congr {rc rd : Recorder} (h : rc.ring = rd.ring) (i : Nat) : ringWord rc i = ringWord rd i := by
  rw [ringWord, h, ringWord]

theorem length_damageWords (now : Nat) : (damageWords now).length = 32 := by simp [damageWords]

theorem ringWord_damageWords (rc : Recorder) (b now : Nat) :
    ringWord (rc.putWords (32 * b) (damageWords now)) (b * 32) = headerWord 32 0x002 srcRecorder 0 now ∧
    ∀ k, 0 < k → k < 32 → ringWord (rc.putWords (32 * b) (damageWords now)) (b * 32 + k) = 0 := by
  refine ⟨?_, fun k h0 hk => ?_⟩
  · rw [ringWord_putWords, length_damageWords, if_pos (by omega), show b * 32 - 32 * b = 0 by omega]; rfl
  · obtain ⟨j, rfl⟩ := Nat.exists_eq_succ_of_ne_zero h0.ne'
    rw [ringWord_putWords, length_damageWords, if_pos (by omega), show b * 32 + (j + 1) - 32 * b = j + 1 by omega,
      damageWords, List.getD_cons_succ]
    exact List.getD_replicate _ (by omega)

theorem evrWindowRead_good {s : State} {agent w off : Nat} (hm : mayRead s agent (EVR_WINDOW w) = true)
    (hoff : off = (4 * getF s EVR_CURSOR EVR_CURSOR_OFFSET + 4 * w) % ringBytes)
    (hgood : s.recorder.bad.contains (off / 8) = false) : evrWindowRead s agent w false =
      { s with answer := .value (BitVec.ofNat 32 ((ringWord s.recorder (off / 8)).toNat / 2 ^ (8 * (off % 8)))) } := by
  subst hoff
  simp only [evrWindowRead, hm, windowWord, hgood, Bool.not_true, Bool.false_eq_true, if_false]

/-- The recorder with an error in one ring word. -/
def Recorder.withError (rc : Recorder) (i : Nat) : Recorder := { rc with bad := i :: rc.bad.filter (· != i) }

theorem evrWindowRead_error {s : State} {agent w off : Nat} (hm : mayRead s agent (EVR_WINDOW w) = true)
    (hoff : off = (4 * getF s EVR_CURSOR EVR_CURSOR_OFFSET + 4 * w) % ringBytes) : evrWindowRead s agent w true =
      { damageBlock { s with recorder := s.recorder.withError (off / 8) } (off / 8) with answer := .value 0 } := by
  subst hoff
  have hcur (i : Nat) : getF { s with recorder := s.recorder.withError i } EVR_CURSOR EVR_CURSOR_OFFSET =
    getF s EVR_CURSOR EVR_CURSOR_OFFSET := getF_congr rfl ..
  unfold Recorder.withError at hcur ⊢
  simp [evrWindowRead, hm, windowWord, hcur]

/-- Settles O55: each clause is a case of the recorder's operation, and what the records it writes leave alone. -/
theorem recorderLines : Obligations.RecorderLines := by
  unfold Obligations.RecorderLines
  refine fun s _ => ⟨fun r rest hw => ⟨fun hf ha _ hfit hin => ?_, fun hf hroom => ?_⟩, fun hw => ?_,
    fun agent hm => ⟨fun hf => ⟨?_, ?_⟩, fun hf => ?_⟩, fun x hf => ⟨fun hdue => ?_, fun hearly => ?_⟩,
    fun agent w off hm hoff => ⟨fun hgood => ?_, ?_⟩⟩
  · obtain ⟨hhead, hbody, hrest⟩ := placed_words { s.recorder with waiting := rest } r
    exact .of rfl (eventRecord_inside hw hf ha hfit hin)
      ⟨by rw [placed_frame], by rw [placed_frame], by rw [placed_frame], rfl, .refl s, hhead, hbody, hrest⟩
  · exact .of rfl ((eventRecord_frozen hw hf).trans (holdRec_room hroom)) rfl
  · exact .of rfl (by rw [eventRecord, hw]) rfl
  · exact .of rfl (freeze_thawed hm hf) ⟨rfl, flag_putF_one (by decide) (by decide) .., regsSameBut_putF _ _ _ _, rfl⟩
  · exact .of rfl ((thaw_of_may hm).trans (thawRing_thawed hf)) rfl
  · exact .of rfl (thaw_of_may hm) (thawRing_opens hf)
  · obtain ⟨hfrozen, hflag, -⟩ := thawRing_opens (s := s) (by rw [hf]; rfl)
    refine .of rfl (freezeExpiry_due hf hdue) ⟨hfrozen, flag_putF_one (by decide) (by decide) .., ?_⟩
    rw [flag_putF_apart (by decide) (by decide) (by decide) (by decide), hflag]
  · exact .of rfl (freezeExpiry_early hf hearly) rfl
  · exact .of rfl (evrWindowRead_good hm hoff hgood) rfl
  · obtain ⟨rc, hrc, hring, hdamaged⟩ :=
      damageBlock_recorder { s with recorder := s.recorder.withError (off / 8) } (off / 8)
    obtain ⟨hhead, hzero⟩ := ringWord_damageWords (s.recorder.withError (off / 8)) (off / 256) s.now
    rw [Nat.div_div_eq_div_mul] at hring
    refine .of (t := { s with recorder := rc, answer := .value 0 }) rfl
      ((evrWindowRead_error hm hoff).trans (congrArg (fun t : State => { t with answer := .value 0 }) hrc)) ⟨rfl, hdamaged, rfl, .refl s, ?_, fun k h0 hk => ?_⟩
    · exact (ringWord_congr hring _).trans hhead
    · exact (ringWord_congr hring _).trans (hzero k h0 hk)

end Sys2Proof.Machine
end

section
/-! PROOFS. The commit of the configuration, the staging of an image, and the change of the protection record (R420, R422,
R428). -/

namespace Sys2Proof.Machine

/-- What a record leaves in the recorder depends on the recorder, the weld and local time alone. -/
theorem makeRecord_recorder_congr {s t : State} (hr : t.recorder = s.recorder) (hw : t.weld = s.weld) (ht : t.time = s.time)
    (src typ : Nat) (b : List Word64) : (makeRecord t src typ b).recorder = (makeRecord s src typ b).recorder := by
  unfold makeRecord srcTime
  rw [hr, hw, ht]
  split
  · exact hr
  · split <;> rfl

/-! ## The flash -/

theorem flashGet_flashErase (s : State) (a n k : Nat) :
    flashGet (flashErase s a n) k = if a ≤ k ∧ k < a + n then 0xFF else flashGet s k := by
  unfold flashGet flashErase
  rw [assocGet_filter _ (fun k => !(decide (a ≤ k) && decide (k < a + n))) fun _ => rfl]
  by_cases h : a ≤ k ∧ k < a + n
  · simp [h]
  · rw [if_neg h, if_pos]
    simp only [Bool.not_eq_true', Bool.and_eq_false_iff, decide_eq_false_iff_not]
    omega

/-- A record changes the flash alone. -/
theorem writeRecord_frame (s : State) (area : Nat) (body : List Byte) : writeRecord s area body =
    { s with boot := { s.boot with flash := (writeRecord s area body).boot.flash } } := rfl

theorem programSlot_frame (s : State) (a : Nat) : programSlot s a =
    { s with boot := { s.boot with flash := (programSlot s a).boot.flash } } := rfl

theorem flashGet_congr {s t : State} (h : t.boot.flash = s.boot.flash) (k : Nat) : flashGet t k = flashGet s k := by
  rw [flashGet, h, flashGet]

/-- A retirement record changes the flash and the mark of a record that waits. -/
theorem saveRetirement_frame (s : State) : saveRetirement s = { s with boot := { s.boot with
    flash := (saveRetirement s).boot.flash, retireDirty := (saveRetirement s).boot.retireDirty } } := by
  unfold saveRetirement; split <;> rfl

theorem flushRetire_of_clean {s : State} (h : s.boot.retireDirty = false) : flushRetire s = s := by simp [flushRetire, h]

/-! ## Verification of an image -/

/-- What an image is checked against is the authorities and the fuses. -/
theorem verifyImage_congr {s t : State} (ha : t.boot.auths = s.boot.auths) (hf : t.boot.fuses = s.boot.fuses) (rd : Medium) :
    verifyImage t rd = verifyImage s rd := by
  unfold verifyImage imgChecks
  rw [ha, hf]

theorem verifyImage_lt (s : State) (rd : Medium) : verifyImage s rd < 16 := by
  have hcodes : ∀ c ∈ imgChecks s rd, c.1 ≤ 9 := by simp [imgChecks]
  unfold verifyImage
  cases hfind : (imgChecks s rd).find? (·.2) with
  | none => decide
  | some c => exact Nat.lt_of_le_of_lt (hcodes c (List.mem_of_find?_eq_some hfind)) (by decide)

theorem verifyImage_shape {s : State} {rd : Medium} (h : imgShapeBad (rd 0 headerLen) = true) : verifyImage s rd = 1 := by
  simp [verifyImage, imgChecks, h]

/-! ## Staging -/

section
variable {s : State} {agent : Nat} {pref : Bool}

theorem getF_setStage_busy (s : State) (busy result : Nat) :
    getF (setStage s busy result) CFG_STAGE_CTL CFG_STAGE_CTL_BUSY = busy % 2 := by
  rw [setStage, getF_putF_apart (by decide) (by decide) (by decide) (by decide), getF_putF (by decide) (by decide)]
  rfl

theorem getF_setStage_result (s : State) (busy result : Nat) :
    getF (setStage s busy result) CFG_STAGE_CTL CFG_STAGE_CTL_RESULT = result % 16 := by
  rw [setStage, getF_putF (by decide) (by decide)]
  rfl

theorem setStage_frame (s : State) (busy result : Nat) :
    setStage s busy result = { s with regs := (setStage s busy result).regs } := rfl

theorem regsSameBut_setStage {s t : State} {as : List Nat} (h : regsSameBut s t as) (ha : CFG_STAGE_CTL ∈ as)
    (busy result : Nat) : regsSameBut s (setStage t busy result) as := (h.putF ha _ _).putF ha _ _

theorem stageBy_busy (hm : mayWrite s agent CFG_STAGE_CTL = true) (hb : s.boot.slotBusy.isSome = true) :
    stageBy s agent pref = requestRefused (putF s CFG_STAGE_CTL CFG_STAGE_CTL_RESULT 12) CFG_STAGE_CTL := by
  simp [stageBy, hm, stageWrite, hb]

theorem stageBy_failed (hm : mayWrite s agent CFG_STAGE_CTL = true) (hb : s.boot.slotBusy = none)
    (hk : verifyImage s (dramImage s (getPair s CFG_STAGE_LO CFG_STAGE_HI)) ≠ 0) : stageBy s agent pref =
      putF s CFG_STAGE_CTL CFG_STAGE_CTL_RESULT (verifyImage s (dramImage s (getPair s CFG_STAGE_LO CFG_STAGE_HI))) := by
  simp [stageBy, hm, stageWrite, hb, hk]

/-- The write of the inactive slot has begun: it is erased, and CFG_STAGE_CTL shows BUSY. -/
def stageBegun (s : State) (pref : Bool) : State :=
  setStage (modBoot (flashErase s (slotBase (!activeSlot s)) slotLen) fun b =>
    { b with slotBusy := some (getPair s CFG_STAGE_LO CFG_STAGE_HI, pref) }) 1 0

theorem stageBy_passed (hm : mayWrite s agent CFG_STAGE_CTL = true) (hb : s.boot.slotBusy = none)
    (hk : verifyImage s (dramImage s (getPair s CFG_STAGE_LO CFG_STAGE_HI)) = 0) :
    stageBy s agent pref = stageBegun s pref := by simp [stageBy, hm, stageWrite, hb, hk, stageBegun]

/-! ## The end of a slot write -/

/-- A write that the flash fails leaves the slot erased. -/
def slotFailed (s : State) : State :=
  setStage (flashErase (modBoot s fun b => { b with slotBusy := none }) (slotBase (!activeSlot s)) slotLen) 0 11

theorem slotWriteComplete_failed {x : Nat × Bool} (hb : s.boot.slotBusy = some x) (hd : s.boot.retireDirty = false) :
    slotWriteComplete s false = slotFailed s := by
  simp only [slotWriteComplete, hb, Bool.not_false, if_true]
  exact flushRetire_of_clean hd

end

/-! ## The change of the protection record -/

theorem changeResult_lt (s : State) (bs : List Byte) : changeResult s bs < 8 := by
  unfold changeResult
  split_ifs <;> decide

theorem applyBy_of_may {s : State} {agent : Nat} (hm : mayWrite s agent TRU_CHG_CTL = true) :
    applyBy s agent = applyRecord s := if_pos hm

theorem applyRecord_refused {s : State} (hk : changeResult s (changeBytes s) ≠ 0) : applyRecord s =
    requestRefused (putF s TRU_CHG_CTL TRU_CHG_CTL_RESULT (changeResult s (changeBytes s))) TRU_CHG_CTL := if_neg hk

theorem applyRecord_verified {s : State} (hk : changeResult s (changeBytes s) = 0) : applyRecord s =
    applyChange (putF s TRU_CHG_CTL TRU_CHG_CTL_RESULT (changeResult s (changeBytes s))) (changeBytes s) := if_pos hk

/-- A request that is refused reports its code and leaves its record (R434). -/
theorem requestRefused_putF (s : State) (a : Nat) {f : Fld} (hl : f.lo ≤ f.hi) (hh : f.hi < 32) (x : Nat) :
    getF (requestRefused (putF s a f x) a) a f = x % 2 ^ (f.hi + 1 - f.lo) ∧
    (requestRefused (putF s a f x) a).boot = s.boot ∧ regsSameBut s (requestRefused (putF s a f x) a) [a] ∧
    (requestRefused (putF s a f x) a).recorder = (makeRecord s srcSmith 0x481 [w64 a]).recorder ∧
    (requestRefused (putF s a f x) a).mem = s.mem := by
  refine ⟨?_, ?_, ?_, makeRecord_recorder_congr (s := s) (t := putF s a f x) rfl rfl rfl _ _ _, ?_⟩
  · rw [requestRefused, getF_makeRecord, getF_putF hl hh]
  · rw [requestRefused, makeRecord_boot, putF_boot]
  · exact (regsSameBut_putF s a f x).of_regs (makeRecord_regs ..)
  · rw [requestRefused, makeRecord_mem, putF_mem]

/-! ## The commit -/

theorem commitConfig_smith {s : State} (hr : s.boot.running = true) :
    commitConfig s agentSmith = putF s CFG_COMMIT CFG_COMMIT_COMMITTED 1 := by simp [commitConfig, hr]

theorem commitConfig_other {s : State} {agent : Nat} (h : agent ≠ agentSmith) : commitConfig s agent = s := by
  simp [commitConfig, h]

/-- Settles O53: the commit is one field; the refusals are the early cases of their requests. -/
theorem commitAndRefusals : Obligations.CommitAndRefusals := by
  unfold Obligations.CommitAndRefusals
  refine fun agent s _ => ⟨fun hr ha => ?_, fun ha => ?_, fun hm pref => ⟨fun hb => ?_, fun hb hshape => ?_⟩,
    fun a pref hb hd => ?_, fun hm hk => ?_⟩
  · exact .of rfl ((congrArg (commitConfig s) ha).trans (commitConfig_smith hr))
      ⟨flag_putF_one (by decide) (by decide) .., regsSameBut_putF s _ _ _, rfl⟩
  · exact .of rfl (commitConfig_other ha) rfl
  · obtain ⟨hres, hboot, hregs, hrec, -⟩ :=
      requestRefused_putF s CFG_STAGE_CTL (f := CFG_STAGE_CTL_RESULT) (by decide) (by decide) 12
    exact .of rfl (stageBy_busy hm hb) ⟨hboot, hres, hregs, hrec⟩
  · have hcode := verifyImage_shape (s := s) (rd := dramImage s (getPair s CFG_STAGE_LO CFG_STAGE_HI)) hshape
    refine .of rfl ((stageBy_failed hm hb (by rw [hcode]; decide)).trans (by rw [hcode])) ⟨?_, regsSameBut_putF s _ _ _, rfl⟩
    exact getF_putF (by decide) (by decide) ..
  · refine .of rfl (slotWriteComplete_failed hb hd) ⟨getF_setStage_result .., getF_setStage_busy .., rfl, ?_, fun k => ?_⟩
    · exact regsSameBut_setStage (regsSameBut_of_regs rfl _) (List.mem_singleton_self _) _ _
    · exact (flashGet_congr rfl k).trans (flashGet_flashErase ..)
  · obtain ⟨hres, hboot, hregs, hrec, -⟩ := requestRefused_putF s TRU_CHG_CTL (f := TRU_CHG_CTL_RESULT) (by decide) (by decide)
      (changeResult s (changeBytes s))
    exact .of rfl ((applyBy_of_may hm).trans (applyRecord_refused hk))
      ⟨hres.trans (Nat.mod_eq_of_lt (changeResult_lt s _)), hboot, hregs, hrec⟩

end Sys2Proof.Machine
end

section
/-! PROOFS. What a request backed by a signature leaves when it verifies: the slot, the record, the join report (R422, R426,
R428). -/

namespace Sys2Proof.Machine

/-! ## Messages on a connection -/

/-- What leaves on a connection goes to the outputs, or stands behind a pause of its port. -/
theorem rocePacketOut_frame (s : State) (c : Conn) (psn : Nat) (b : RoceBody) : rocePacketOut s c psn b =
    { s with ports := (rocePacketOut s c psn b).ports, egress := (rocePacketOut s c psn b).egress } := by
  unfold rocePacketOut
  split
  · exact portEmit_frame ..
  · rfl

theorem roceEmit_frame (s : State) (c : Conn) (o : RoceOp) :
    roceEmit s c o = { s with ports := (roceEmit s c o).ports, egress := (roceEmit s c o).egress } := by
  unfold roceEmit
  induction rocePackets c o generalizing s with
  | nil => rfl
  | cons p l ih => rw [List.foldl_cons, ih, rocePacketOut_frame]

/-- A connection after an operation took its PSNs. -/
def Conn.issued (c : Conn) (now : Nat) (o : RoceOp) : Conn :=
  { c with spsn := seqAdd c.spsn (rocePkts c o.kind o.bytes)
           ops := c.ops ++ [{ o with psn := c.spsn, pkts := rocePkts c o.kind o.bytes }]
           sentAt := if c.ops.isEmpty then now else c.sentAt }

theorem roceIssue_write_or_send {s : State} {c : Conn} {o : RoceOp} (hk : o.kind ≠ .read) (hw : c.waitq = []) :
    roceIssue s c o = roceEmit (setConn s (c.issued s.now o)) (c.issued s.now o)
      { o with psn := c.spsn, pkts := rocePkts c o.kind o.bytes } := by
  simp [roceIssue, hk, hw, Conn.issued]

/-- A message that is no read goes out on an active connection with nothing waiting: its operation joins those
outstanding. -/
theorem roceSendOn_issued {s : State} {idx : Nat} {c : Conn} {o : RoceOp} (hc : connAt s idx = some c)
    (he : c.error = false) (hw : c.waitq = []) (hk : o.kind ≠ .read) :
    connAt (roceSendOn s idx o).1 idx = some (c.issued s.now o) ∧ (roceSendOn s idx o).1 =
      { s with conns := (roceSendOn s idx o).1.conns, ports := (roceSendOn s idx o).1.ports
               egress := (roceSendOn s idx o).1.egress } := by
  have hidx : c.index = idx := by simpa using List.find?_some hc
  subst hidx
  have hsend : (roceSendOn s c.index o).1 = roceEmit (setConn s (c.issued s.now o)) (c.issued s.now o)
      { o with psn := c.spsn, pkts := rocePkts c o.kind o.bytes } := by
    rw [← roceIssue_write_or_send hk hw]
    simp [roceSendOn, hc, he]
  rw [hsend, roceEmit_frame]
  exact ⟨connAt_setConn (c := c.issued s.now o) (by rw [Conn.issued, hc]; rfl), rfl⟩

/-- A report is two operations on its connection. -/
theorem sendReport_ops {s : State} {idx : Nat} {c : Conn} (hc : connAt s idx = some c) (he : c.error = false)
    (hw : c.waitq = []) (remote : Nat) (nonce : List Byte) (certs join : Bool) :
    (connAt (sendReport s idx remote nonce certs join) idx).map (fun y => y.ops.map (·.data)) = some (c.ops.map (·.data) ++
      [report s nonce certs join, leBytes 8 (0x0F22 * 2 ^ 48) ++ padTo 8 nonce]) ∧
    sendReport s idx remote nonce certs join = { s with
      conns := (sendReport s idx remote nonce certs join).conns
      ports := (sendReport s idx remote nonce certs join).ports
      egress := (sendReport s idx remote nonce certs join).egress } := by
  obtain ⟨h1, hframe1⟩ := roceSendOn_issued (o := rdmaWrite .line remote (report s nonce certs join)) hc he hw nofun
  obtain ⟨h2, hframe2⟩ := roceSendOn_issued (o := rdmaSend .line (leBytes 8 (0x0F22 * 2 ^ 48) ++ padTo 8 nonce)) h1 he hw nofun
  unfold sendReport
  dsimp only
  refine ⟨?_, ?_⟩
  · rw [h2]
    simp [Conn.issued, rdmaWrite, rdmaSend]
  · rw [hframe2, hframe1]

/-! ## Fields that a record of the flash leaves -/

theorem setStage_boot (s : State) (busy result : Nat) : (setStage s busy result).boot = s.boot := by
  rw [setStage, putF_boot, putF_boot]

theorem setStage_mem (s : State) (busy result : Nat) : (setStage s busy result).mem = s.mem := by
  rw [setStage, putF_mem, putF_mem]

/-- The boot state, but for the flash and the retirement records. -/
def Boot.steady (b : Boot) : Boot := { b with flash := [], retireDirty := false, retireCauses := [] }

theorem steady_writeRecord (s : State) (area : Nat) (body : List Byte) :
    (writeRecord s area body).boot.steady = s.boot.steady ∧ (writeRecord s area body).regs = s.regs ∧
    (writeRecord s area body).mem = s.mem := by
  rw [writeRecord_frame]; exact ⟨rfl, rfl, rfl⟩

theorem steady_saveStart (s : State) : (saveStart s).boot.steady = s.boot.steady ∧ (saveStart s).regs = s.regs ∧
    (saveStart s).mem = s.mem := steady_writeRecord ..

theorem steady_saveRetirement (s : State) : (saveRetirement s).boot.steady = s.boot.steady ∧
    (saveRetirement s).regs = s.regs ∧ (saveRetirement s).mem = s.mem := by
  rw [saveRetirement_frame]; exact ⟨rfl, rfl, rfl⟩

theorem steady_clearRetire (s : State) (bs : List Byte) : (clearRetire s bs).boot.steady = s.boot.steady ∧
    (clearRetire s bs).regs = s.regs ∧ (clearRetire s bs).mem = s.mem := by
  unfold clearRetire
  split
  · exact steady_saveRetirement _
  · exact ⟨rfl, rfl, rfl⟩

/-- A change that verifies puts the record in force, burns its fuses and replaces the anchor; nothing else of the boot state
changes but the flash and the retirement records. -/
theorem steady_applyChange (s : State) (bs : List Byte) : (applyChange s bs).boot.steady =
      { s.boot with prot := bs, anchor := protAnchor bs, fuses := (burnFuses s bs).boot.fuses }.steady ∧
    (applyChange s bs).regs = s.regs ∧ (applyChange s bs).mem = s.mem := by
  have hburn : burnFuses (writeRecord s areaProt bs) bs = { s with boot := { s.boot with
      flash := (writeRecord s areaProt bs).boot.flash, fuses := (burnFuses s bs).boot.fuses } } := by
    rw [writeRecord_frame]; rfl
  unfold applyChange
  rw [hburn]
  generalize (writeRecord s areaProt bs).boot.flash = fl
  dsimp only
  obtain ⟨hboot, hregs, hmem⟩ := steady_clearRetire (saveStart (modBoot { s with boot := { s.boot with
    flash := fl, fuses := (burnFuses s bs).boot.fuses } } fun b => { b with prot := bs, anchor := protAnchor bs })) bs
  obtain ⟨hboot2, hregs2, hmem2⟩ := steady_saveStart (modBoot { s with boot := { s.boot with
    flash := fl, fuses := (burnFuses s bs).boot.fuses } } fun b => { b with prot := bs, anchor := protAnchor bs })
  exact ⟨hboot.trans hboot2, hregs.trans hregs2, hmem.trans hmem2⟩

/-! ## The join report (R426) -/

section
variable {s : State}

theorem joinSpread_due {x : Nat} (hx : s.boot.spreadAt = some x) (hdue : x ≤ s.now) (hq : quenched s = false) :
    joinSpread s = joinReport s := by simp [joinSpread, hx, hq, hdue.not_gt]

theorem joinSpread_early {x : Nat} (hx : s.boot.spreadAt = some x) (h : s.now < x) : joinSpread s = s := by
  simp [joinSpread, hx, h]

theorem joinReport_noSite (h : siteRecord s = none) : joinReport s = s := by rw [joinReport, h]

/-- What the join report leaves besides its two operations. -/
def joinReported (s t : State) : State :=
  modBoot t fun b => { b with spreadAt := none, admitAt := some s.now, answerOk := true }

theorem joinReport_site {bs : List Byte} (h : siteRecord s = some bs) {c : Conn} (hc : connAt s 1023 = some c)
    (he : c.error = false) (hw : c.waitq = []) : ∃ t, joinReport s = joinReported s t ∧
      (connAt t 1023).map (fun y => (y.ops.map (·.data)).length) = some (c.ops.length + 2) := by
  obtain ⟨hops, hframe⟩ := sendReport_ops hc he hw (siteJoinRemote bs + 0x2000 * (ownNode s % 4096)) [] false true
  refine ⟨sendReport s 1023 (siteJoinRemote bs + 0x2000 * (ownNode s % 4096)) [] false true, ?_, ?_⟩
  · have hnow : (sendReport s 1023 (siteJoinRemote bs + 0x2000 * (ownNode s % 4096)) [] false true).now = s.now := by
      rw [hframe]; rfl
    rw [joinReport, h]
    simp only [hnow]
    rfl
  · have hlen := congrArg (Option.map List.length) hops
    simpa [Function.comp_def] using hlen

end

/-! ## The write of the inactive slot begins (R422) -/

theorem regsSameBut_stageBegun (s : State) (pref : Bool) : regsSameBut s (stageBegun s pref) [CFG_STAGE_CTL] :=
  regsSameBut_setStage (regsSameBut_of_regs rfl _) (List.mem_singleton_self _) _ _

theorem flashGet_stageBegun (s : State) (pref : Bool) (a : Nat) (h1 : slotBase (!activeSlot s) ≤ a)
    (h2 : a < slotBase (!activeSlot s) + slotLen) : flashGet (stageBegun s pref) a = 0xFF := by
  have hflash : (stageBegun s pref).boot.flash = (flashErase s (slotBase (!activeSlot s)) slotLen).boot.flash := by
    rw [stageBegun, setStage_boot]; rfl
  rw [flashGet_congr hflash, flashGet_flashErase, if_pos ⟨h1, h2⟩]

/-! ## The end of a slot write (R422) -/

section
variable {s : State} {a : Nat} {pref : Bool}

/-- The slot that is verified again does not look at the write in progress. -/
def slotCode (s : State) (a : Nat) : Nat := verifyImage (programSlot s a) (flashSlot (programSlot s a) (!activeSlot s))

/-- The write is over. -/
def slotFreed (s : State) : State := modBoot s fun b => { b with slotBusy := none }

theorem programSlot_slotFreed_boot (s : State) (a : Nat) :
    (programSlot (slotFreed s) a).boot = { (programSlot s a).boot with slotBusy := none } := rfl

theorem programSlot_slotFreed_regs (s : State) (a : Nat) : (programSlot (slotFreed s) a).regs = s.regs := by
  rw [programSlot_frame]; rfl

theorem programSlot_slotFreed_mem (s : State) (a : Nat) : (programSlot (slotFreed s) a).mem = s.mem := by
  rw [programSlot_frame]; rfl

theorem activeSlot_programSlot_slotFreed (s : State) (a : Nat) : activeSlot (programSlot (slotFreed s) a) = activeSlot s :=
  flag_congr (programSlot_slotFreed_regs ..) ..

theorem slotCode_slotFreed (s : State) (a : Nat) : verifyImage (programSlot (slotFreed s) a)
    (flashSlot (programSlot (slotFreed s) a) (!activeSlot s)) = slotCode s a := by
  have hboot := programSlot_slotFreed_boot s a
  have hflash : flashSlot (programSlot (slotFreed s) a) (!activeSlot s) = flashSlot (programSlot s a) (!activeSlot s) := by
    have hfl : (programSlot (slotFreed s) a).boot.flash = (programSlot s a).boot.flash := by rw [hboot]
    funext off n
    simp only [flashSlot, flashBytes, flashGet_congr hfl]
  rw [hflash]
  exact verifyImage_congr (by rw [hboot]) (by rw [hboot]) _

/-- The state with the slot written, as the flash took it. -/
def slotWritten (s : State) (a : Nat) (pref : Bool) : State :=
  if pref then setBootRecord (programSlot (slotFreed s) a) (!activeSlot s) (bootRecord (programSlot (slotFreed s) a)).2
  else programSlot (slotFreed s) a

theorem slotWritten_retireDirty (s : State) (a : Nat) (pref : Bool) :
    (slotWritten s a pref).boot.retireDirty = s.boot.retireDirty := by
  unfold slotWritten
  split
  · rw [setBootRecord, putF_boot, putF_boot, writeRecord_frame]; rfl
  · rfl

theorem slotWritten_mem (s : State) (a : Nat) (pref : Bool) : (slotWritten s a pref).mem = s.mem := by
  unfold slotWritten
  split
  · rw [setBootRecord, putF_mem, putF_mem, writeRecord_frame]; rfl
  · rfl

theorem slotWritten_slotBusy (s : State) (a : Nat) (pref : Bool) : (slotWritten s a pref).boot.slotBusy = none := by
  unfold slotWritten
  split
  · rw [setBootRecord, putF_boot, putF_boot, writeRecord_frame]; rfl
  · rfl

theorem slotWritten_unpreferred_flash (s : State) (a : Nat) :
    (slotWritten s a false).boot.flash = (programSlot s a).boot.flash := by
  rw [slotWritten, if_neg (by decide), programSlot_slotFreed_boot]

theorem slotWriteComplete_ok (hb : s.boot.slotBusy = some (a, pref)) : slotWriteComplete s true =
    if slotCode s a != 0 then flushRetire (setStage (programSlot (slotFreed s) a) 0 (slotCode s a))
    else flushRetire (setStage (slotWritten s a pref) 0 0) := by
  have hfreed : (modBoot s fun b => { b with slotBusy := none }) = slotFreed s := rfl
  simp only [slotWriteComplete, hb, hfreed, activeSlot_programSlot_slotFreed, slotCode_slotFreed, slotWritten, Bool.not_true,
    Bool.false_eq_true, if_false]

theorem slotWriteComplete_bad (hb : s.boot.slotBusy = some (a, pref)) (hd : s.boot.retireDirty = false)
    (hk : slotCode s a ≠ 0) : slotWriteComplete s true = setStage (programSlot (slotFreed s) a) 0 (slotCode s a) := by
  rw [slotWriteComplete_ok hb, if_pos (by simpa using hk)]
  exact flushRetire_of_clean (by rw [setStage_boot, programSlot_frame]; exact hd)

theorem slotWriteComplete_good (hb : s.boot.slotBusy = some (a, pref)) (hd : s.boot.retireDirty = false)
    (hk : slotCode s a = 0) : slotWriteComplete s true = setStage (slotWritten s a pref) 0 0 := by
  rw [slotWriteComplete_ok hb, if_neg (by simp [hk])]
  exact flushRetire_of_clean (by rw [setStage_boot, slotWritten_retireDirty]; exact hd)

theorem regsSameBut_slotWritten (s : State) (a : Nat) (pref : Bool) :
    regsSameBut s (slotWritten s a pref) [CFG_STAGE_CTL, CFG_BOOT] := by
  unfold slotWritten setBootRecord
  split
  · have hregs := programSlot_slotFreed_regs s a
    rw [← (steady_writeRecord _ areaBoot _).2.1] at hregs
    exact ((regsSameBut_of_regs hregs _).putF (by simp) _ _).putF (by simp) _ _
  · exact regsSameBut_of_regs (programSlot_slotFreed_regs ..) _

theorem getF_slotWritten_pref (s : State) (a : Nat) :
    getF (slotWritten s a true) CFG_BOOT CFG_BOOT_PREF = bit (!activeSlot s) := by
  rw [slotWritten, if_pos rfl, setBootRecord, getF_putF_apart (by decide) (by decide) (by decide) (by decide),
    getF_putF (by decide) (by decide)]
  cases activeSlot s <;> rfl

end

/-! ## The change of the protection record (R428) -/

section
variable {s : State}

theorem changeResult_counter {bs : List Byte} (h : changeResult s bs = 0) : protCounter bs = s.boot.fuses.pcount + 1 := by
  unfold changeResult at h
  split_ifs at h with _ hcounter
  simpa using hcounter

end

/-- Settles O54: whatever `Config.mldsaVerify` answers, each request reports its code; its success is one state, whose fields
are read off. -/
theorem signedRequestsTakeEffect : Obligations.SignedRequestsTakeEffect := by
  unfold Obligations.SignedRequestsTakeEffect
  refine fun agent s _ => ⟨fun pref k hm hb hk => ?_, fun a pref k hb hd hk => ?_, fun k hm hk => ?_,
    fun x c hx hdue hq hc he hw => ?_, fun x hx h => ?_⟩
  · by_cases h0 : k = 0
    · rw [hk] at h0
      refine .of rfl (stageBy_passed hm hb h0) ⟨?_, regsSameBut_stageBegun s pref, .refl s, ?_⟩
      · rw [hk, h0]; exact getF_setStage_result ..
      · rw [hk, if_pos h0]
        exact ⟨getF_setStage_busy .., by rw [stageBegun, setStage_boot]; rfl, flashGet_stageBegun s pref⟩
    · rw [hk] at h0
      refine .of rfl (stageBy_failed hm hb h0) ⟨?_, regsSameBut_putF s _ _ _, .refl s, ?_⟩
      · rw [hk]
        exact (getF_putF (by decide) (by decide) ..).trans (Nat.mod_eq_of_lt (verifyImage_lt ..))
      · rw [hk, if_neg h0]; exact putF_boot ..
  · by_cases h0 : k = 0
    · rw [hk] at h0
      refine .of rfl (slotWriteComplete_good hb hd h0) ⟨getF_setStage_busy .., ?_, ?_, ?_, ?_, fun hp => ?_, fun hne => ?_⟩
      · rw [hk]; exact (getF_setStage_result ..).trans h0.symm
      · rw [setStage_boot, slotWritten_slotBusy]
      · exact memSame_of_mem (by rw [setStage_mem, slotWritten_mem])
      · exact regsSameBut_setStage (regsSameBut_slotWritten s a pref) (by simp) _ _
      · rw [hp.2, setStage, getF_putF_ne (by decide), getF_putF_ne (by decide), getF_slotWritten_pref]
      · obtain rfl := hne.resolve_left (not_not_intro (hk.trans h0))
        rw [setStage_boot, slotWritten_unpreferred_flash]
    · rw [hk] at h0
      refine .of rfl (slotWriteComplete_bad hb hd h0) ⟨getF_setStage_busy .., ?_, ?_, ?_, ?_, fun hp => ?_, fun hne => ?_⟩
      · rw [hk]; exact (getF_setStage_result ..).trans (Nat.mod_eq_of_lt (verifyImage_lt ..))
      · rw [setStage_boot, programSlot_slotFreed_boot]
      · exact memSame_of_mem (by rw [setStage_mem, programSlot_slotFreed_mem])
      · exact regsSameBut_setStage (regsSameBut_of_regs (programSlot_slotFreed_regs ..) _) (by simp) _ _
      · exact absurd (hk.symm.trans hp.1) h0
      · rw [setStage_boot, programSlot_slotFreed_boot]
  · by_cases h0 : k = 0
    · rw [hk] at h0
      obtain ⟨hboot, hregs, hmem⟩ := steady_applyChange (putF s TRU_CHG_CTL TRU_CHG_CTL_RESULT (changeResult s (changeBytes s)))
        (changeBytes s)
      have hauths := congrArg Boot.auths hboot
      have hprot := congrArg Boot.prot hboot
      have hanchor := congrArg Boot.anchor hboot
      have hfuses := congrArg Boot.fuses hboot
      refine .of rfl ((applyBy_of_may hm).trans (applyRecord_verified h0)) ⟨?_, memSame_of_mem hmem, ?_, ?_, ?_⟩
      · rw [hk, getF_congr hregs]
        exact (getF_putF (by decide) (by decide) ..).trans (Nat.mod_eq_of_lt (changeResult_lt ..))
      · exact hauths
      · exact (regsSameBut_putF s _ _ _).of_regs hregs
      · rw [hk, if_pos h0, ← changeResult_counter h0]
        exact ⟨hprot, congrArg Fuses.pcount hfuses, hanchor⟩
    · rw [hk] at h0
      obtain ⟨hres, hboot, hregs, -, hmem⟩ := requestRefused_putF s TRU_CHG_CTL (f := TRU_CHG_CTL_RESULT) (by decide)
        (by decide) (changeResult s (changeBytes s))
      refine .of rfl ((applyBy_of_may hm).trans (applyRecord_refused h0))
        ⟨?_, memSame_of_mem hmem, by rw [hboot], hregs, by rw [hk, if_neg h0]; exact hboot⟩
      rw [hk]
      exact hres.trans (Nat.mod_eq_of_lt (changeResult_lt s _))
  · refine .of rfl (joinSpread_due hx hdue hq) ?_
    cases hsite : siteRecord s with
    | none => exact joinReport_noSite hsite
    | some bs =>
      obtain ⟨t, ht, hops⟩ := joinReport_site hsite hc he hw
      rw [if_neg nofun, ht]
      exact ⟨rfl, rfl, rfl, hops⟩
  · exact .of rfl (joinSpread_early hx h) rfl

end Sys2Proof.Machine
end

section
/-! PROOFS. Management reads and writes: each field of a register by its access code (R13, R14). -/

namespace Sys2Proof.Machine

/-! ## The fields of a register do not overlap -/

def RegField.fld (f : RegField) : Fld := ⟨f.hi, f.lo⟩

/-- A field lies in its word and its reset value in the field. -/
def RegField.ok (f : RegField) : Bool := f.lo ≤ f.hi && f.hi < 32 && f.reset < 2 ^ (f.hi + 1 - f.lo)

/-- The fields of a table entry lie in the word, no two on one bit. -/
def RegDesc.ok (d : RegDesc) : Bool :=
  d.fields.all RegField.ok && decide (d.fields.Pairwise fun f g => f.fld.apart g.fld = true)

theorem tables_ok : ∀ l ∈ [devRegs, cfgRegs, truRegs, mbxRegs, evrRegs, pwrRegs, prtRegs, fabRegs, colRegs, memRegs,
    hchRegs, coreRegs, survRegs, wrkRegs], l.all RegDesc.ok = true := by decide

theorem regAt_ok {a : Nat} {d : RegDesc} (h : regAt a = some d) : d.ok = true :=
  List.all_eq_true.1 (tables_ok _ (blockOf_mem a)) d (List.mem_of_find?_eq_some h)

theorem RegField.ok_iff {f : RegField} : f.ok = true ↔ f.lo ≤ f.hi ∧ f.hi < 32 ∧ f.reset < 2 ^ (f.hi + 1 - f.lo) := by
  simp [RegField.ok, and_assoc]

theorem RegDesc.ok_iff {d : RegDesc} : d.ok = true ↔
    (∀ f ∈ d.fields, f.ok = true) ∧ d.fields.Pairwise fun f g => f.fld.apart g.fld = true := by
  simp [RegDesc.ok, List.all_eq_true]

theorem Fld.apart_symm {f g : Fld} (h : f.apart g = true) : g.apart f = true := by
  simp only [Fld.apart, Bool.or_eq_true, decide_eq_true_eq] at *
  omega

theorem bitsOf_putBits_apart {f g : RegField} (hf : f.ok = true) (hg : g.ok = true) (h : f.fld.apart g.fld = true) (v x : Nat) :
    bitsOf g.hi g.lo (putBits f.hi f.lo v x) = bitsOf g.hi g.lo v := by
  obtain ⟨hf1, -, -⟩ := RegField.ok_iff.1 hf
  obtain ⟨hg1, -, -⟩ := RegField.ok_iff.1 hg
  rcases Bool.or_eq_true_iff.1 h with h | h
  · exact bitsOf_putBits_above (Nat.le_succ_of_le hf1) (of_decide_eq_true h) v x
  · exact bitsOf_putBits_below (Nat.le_succ_of_le hf1) (Nat.le_succ_of_le hg1) (of_decide_eq_true h) v x

/-- A change of a word field by field: `upd` touches its own field alone, and makes of its bits what `F` says. -/
structure FieldWise (upd : Nat → RegField → Nat) (F : RegField → Nat → Nat) : Prop where
  own : ∀ (w : Nat) (f : RegField), f.ok = true → bitsOf f.hi f.lo (upd w f) = F f (bitsOf f.hi f.lo w)
  other : ∀ (w : Nat) (f g : RegField), f.ok = true → g.ok = true → f.fld.apart g.fld = true →
    bitsOf g.hi g.lo (upd w f) = bitsOf g.hi g.lo w

section
variable {upd : Nat → RegField → Nat} {F : RegField → Nat → Nat}

theorem FieldWise.foldl_other (h : FieldWise upd F) {g : RegField} (hg : g.ok = true) (l : List RegField) (w : Nat)
    (hl : ∀ f ∈ l, f.ok = true ∧ f.fld.apart g.fld = true) : bitsOf g.hi g.lo (l.foldl upd w) = bitsOf g.hi g.lo w := by
  induction l generalizing w with
  | nil => rfl
  | cons f l ih =>
    obtain ⟨hf, hfg⟩ := hl f List.mem_cons_self
    rw [List.foldl_cons, ih _ fun y hy => hl y (List.mem_cons_of_mem _ hy), h.other w f g hf hg hfg]

/-- Each field of a register takes its own change. -/
theorem FieldWise.foldl (h : FieldWise upd F) {l : List RegField} (hok : ∀ f ∈ l, f.ok = true)
    (hapart : l.Pairwise fun f g => f.fld.apart g.fld = true) {g : RegField} (hg : g ∈ l) (w : Nat) :
    bitsOf g.hi g.lo (l.foldl upd w) = F g (bitsOf g.hi g.lo w) := by
  induction l generalizing w with
  | nil => cases hg
  | cons f l ih =>
    obtain ⟨hfl, hrest⟩ := List.pairwise_cons.1 hapart
    have hokl : ∀ x ∈ l, x.ok = true := fun x hx => hok x (List.mem_cons_of_mem _ hx)
    have hf := hok f List.mem_cons_self
    rw [List.foldl_cons]
    rcases List.mem_cons.1 hg with rfl | hg
    · rw [h.foldl_other hf l _ fun x hx => ⟨hokl x hx, Fld.apart_symm (hfl x hx)⟩, h.own w g hf]
    · rw [ih hokl hrest hg, h.other w f g hf (hokl g hg) (hfl g hg)]

theorem FieldWise.of_desc (h : FieldWise upd F) {d : RegDesc} (hd : d.ok = true) {g : RegField} (hg : g ∈ d.fields)
    (w : Nat) : bitsOf g.hi g.lo (BitVec.ofNat 32 (d.fields.foldl upd w)).toNat = F g (bitsOf g.hi g.lo w) := by
  obtain ⟨hok, hapart⟩ := RegDesc.ok_iff.1 hd
  obtain ⟨hle, hlt, -⟩ := RegField.ok_iff.1 (hok g hg)
  rw [BitVec.toNat_ofNat, bitsOf_mod_two_pow (by omega) hlt, h.foldl hok hapart hg]

end

/-! ## A write, field by field (Table 0-4) -/

/-- What a field holds after a write of `v` by an agent. -/
def fieldAfter (s : State) (agent a v : Nat) (f : RegField) (old : Nat) : Nat := match f.acc with
  | .rw => if fieldKept s a v f then old else bitsOf f.hi f.lo v
  | .rwl => if committed s || agent != agentSmith || fieldKept s a v f then old else bitsOf f.hi f.lo v
  | .rw1c => old &&& (2 ^ (f.hi + 1 - f.lo) - 1 - bitsOf f.hi f.lo v)
  | _ => old

theorem bitsOf_lt (hi lo v : Nat) : bitsOf hi lo v < 2 ^ (hi + 1 - lo) := Nat.mod_lt _ (by positivity)

theorem bitsOf_putBits_bits {f : RegField} (hf : f.ok = true) (w v : Nat) :
    bitsOf f.hi f.lo (putBits f.hi f.lo w (bitsOf f.hi f.lo v)) = bitsOf f.hi f.lo v := by
  obtain ⟨hle, -, -⟩ := RegField.ok_iff.1 hf
  rw [bitsOf_putBits (by omega), Nat.mod_eq_of_lt (bitsOf_lt ..)]

/-- The complement of the bits of a field within it. -/
theorem xor_two_pow_sub_one {x n : Nat} (h : x < 2 ^ n) : x ^^^ (2 ^ n - 1) = 2 ^ n - 1 - x := by
  apply Nat.eq_of_testBit_eq
  intro i
  rw [Nat.testBit_xor, Nat.testBit_two_pow_sub_one, Nat.sub_sub, Nat.add_comm 1 x, Nat.testBit_two_pow_sub_succ h]
  by_cases hi : i < n
  · simp [hi]
  · simp [hi, Nat.testBit_lt_two_pow (Nat.lt_of_lt_of_le h (Nat.pow_le_pow_right (by decide) (Nat.le_of_not_lt hi)))]

theorem fieldWise_writeField (s : State) (agent a v : Nat) :
    FieldWise (writeField s agent a v) (fieldAfter s agent a v) where
  own w f hf := by
    obtain ⟨hle, -, -⟩ := RegField.ok_iff.1 hf
    have hput := bitsOf_putBits_bits hf w v
    have hclear : bitsOf f.hi f.lo w &&& (2 ^ (f.hi + 1 - f.lo) - 1 - bitsOf f.hi f.lo v) < 2 ^ (f.hi + 1 - f.lo) :=
      Nat.lt_of_le_of_lt Nat.and_le_left (bitsOf_lt ..)
    cases hacc : f.acc with
    | rw => simp only [writeField, fieldAfter, hacc, apply_ite (bitsOf f.hi f.lo), hput]
    | rwl => simp only [writeField, fieldAfter, hacc, apply_ite (bitsOf f.hi f.lo), hput]
    | rw1c =>
      simp only [writeField, fieldAfter, hacc]
      rw [xor_two_pow_sub_one (bitsOf_lt ..), bitsOf_putBits (by omega), Nat.mod_eq_of_lt hclear]
    | _ => simp only [writeField, fieldAfter, hacc]
  other w f g hf hg h := by
    unfold writeField
    dsimp only
    split
    · split
      · rfl
      · exact bitsOf_putBits_apart hf hg h ..
    · split
      · rfl
      · exact bitsOf_putBits_apart hf hg h ..
    · exact bitsOf_putBits_apart hf hg h ..
    · rfl

/-- What a write to a plain register leaves: the register, and the record of a locked write. -/
def plainWritten (s : State) (agent a v : Nat) (d : RegDesc) : State := lockedWrite (storeWrite s agent a v d) a v d

theorem writeAction_plain {a : Nat} (h : plainReg a = true) (s : State) (agent v : Nat) : writeAction s agent a v = s := by
  simp only [plainReg, Bool.and_eq_true, Bool.not_eq_true', List.contains_eq_mem, decide_eq_false_iff_not, List.mem_cons,
    List.not_mem_nil, not_or, or_false] at h
  obtain ⟨⟨⟨⟨⟨⟨-, -⟩, hmbox⟩, htile⟩, hport⟩, -⟩, -, h1, h2, h3, h4, h5, h6, h7, h8, h9, h10, h11, h12, h13⟩ := h
  simp [writeAction, *]

theorem mgmtWrite_plain {a : Nat} {d : RegDesc} (hd : regAt a = some d) (h : plainReg a = true) (s : State) (agent v : Nat) :
    mgmtWrite s agent a v = plainWritten s agent a v d := by
  have hplain := h
  simp only [plainReg, Bool.and_eq_true, Bool.not_eq_true', List.contains_eq_mem, decide_eq_false_iff_not, List.mem_cons,
    List.not_mem_nil, not_or, or_false] at h
  obtain ⟨⟨⟨⟨⟨⟨hlock, hdata⟩, -⟩, -⟩, -⟩, -⟩, hrgn, -⟩ := h
  simp [mgmtWrite, hd, hlock, hdata, hrgn, writeAction_plain hplain, plainWritten]

theorem mgmtWrite_unassigned {a : Nat} (hd : regAt a = none) (s : State) (agent v : Nat) : mgmtWrite s agent a v = s := by
  simp [mgmtWrite, hd]

theorem lockedWrite_frame (s : State) (a v : Nat) (d : RegDesc) :
    lockedWrite s a v d = { s with recorder := (lockedWrite s a v d).recorder } := by
  unfold lockedWrite
  split
  · exact makeRecord_eq ..
  · rfl

theorem plainWritten_regs (s : State) (agent a v : Nat) (d : RegDesc) :
    (plainWritten s agent a v d).regs = (storeWrite s agent a v d).regs := by rw [plainWritten, lockedWrite_frame]

theorem plainWritten_frame (s : State) (agent a v : Nat) (d : RegDesc) : plainWritten s agent a v d =
    { s with regs := (plainWritten s agent a v d).regs, recorder := (plainWritten s agent a v d).recorder } := by
  rw [plainWritten, lockedWrite_frame]; rfl

theorem regsSameBut_plainWritten (s : State) (agent a v : Nat) (d : RegDesc) :
    regsSameBut s (plainWritten s agent a v d) [a] :=
  ((regsSameBut.refl s _).setR (List.mem_singleton_self a) _).of_regs (plainWritten_regs ..)

/-- Each field of a written register, by its access code. -/
theorem bitsOf_plainWritten {a : Nat} {d : RegDesc} (hd : regAt a = some d) {f : RegField} (hf : f ∈ d.fields) (s : State)
    (agent v : Nat) : bitsOf f.hi f.lo (getR (plainWritten s agent a v d) a).toNat =
      fieldAfter s agent a v f (bitsOf f.hi f.lo (getR s a).toNat) := by
  rw [getR_congr (plainWritten_regs ..), storeWrite, getR_setR_self]
  exact (fieldWise_writeField s agent a v).of_desc (regAt_ok hd) hf _

/-! ## A read -/

theorem fieldWise_clearField : FieldWise clearField fun f old => if f.acc = .rc then f.reset else old where
  own w f hf := by
    obtain ⟨hle, -, hreset⟩ := RegField.ok_iff.1 hf
    unfold clearField
    split
    · rw [bitsOf_putBits (by omega), Nat.mod_eq_of_lt hreset]
    · rfl
  other w f g hf hg h := by
    unfold clearField
    split
    · exact bitsOf_putBits_apart hf hg h ..
    · rfl

/-- The state whose register `clearRC` clears: the read of FAB_REPLAY clears its peak besides. -/
def replayRead (s : State) (a : Nat) : State :=
  if a = FAB_REPLAY then { s with ylp := { s.ylp with replayPeak := 0 } } else s

theorem replayRead_frame (s : State) (a : Nat) : replayRead s a = { s with ylp := (replayRead s a).ylp } := by
  unfold replayRead; split <;> rfl

theorem replayRead_regs (s : State) (a : Nat) : (replayRead s a).regs = s.regs := by rw [replayRead_frame]

theorem clearRC_eq {a : Nat} {d : RegDesc} (hd : regAt a = some d) (s : State) : clearRC s a =
    if d.fields.any (·.acc = .rc) then
      setR (replayRead s a) a (BitVec.ofNat 32 (d.fields.foldl clearField (getR (replayRead s a) a).toNat))
    else replayRead s a := by
  unfold clearRC
  rw [hd]
  rfl

theorem clearRC_frame {a : Nat} {d : RegDesc} (hd : regAt a = some d) (s : State) :
    clearRC s a = { s with regs := (clearRC s a).regs, ylp := (clearRC s a).ylp } := by
  rw [clearRC_eq hd]
  split
  · rw [replayRead_frame]; rfl
  · rw [replayRead_frame]

theorem regsSameBut_clearRC {a : Nat} {d : RegDesc} (hd : regAt a = some d) (s : State) :
    regsSameBut s (clearRC s a) [a] := by
  rw [clearRC_eq hd]
  have h := regsSameBut_of_regs (replayRead_regs s a) [a]
  split
  · exact h.setR (List.mem_singleton_self a) _
  · exact h

/-- A read clears the read-to-clear fields of its register alone. -/
theorem bitsOf_clearRC {a : Nat} {d : RegDesc} (hd : regAt a = some d) {f : RegField} (hf : f ∈ d.fields) (s : State) :
    bitsOf f.hi f.lo (getR (clearRC s a) a).toNat = if f.acc = .rc then f.reset else bitsOf f.hi f.lo (getR s a).toNat := by
  rw [clearRC_eq hd]
  split
  · rw [getR_setR_self, getR_congr (replayRead_regs s a)]
    exact fieldWise_clearField.of_desc (regAt_ok hd) hf _
  · next hnone =>
    have hrc : ¬ f.acc = .rc := fun h => hnone (List.any_eq_true.2 ⟨f, hf, by simpa using h⟩)
    rw [if_neg hrc, getR_congr (replayRead_regs s a)]

theorem readClear_register {s : State} {agent a : Nat} {d : RegDesc} (hm : mayRead s agent a = true) (hd : regAt a = some d)
    (hlock : isLockReg a = false) (hwindow : isWindowReg a = false) :
    readClear s agent a = { clearRC s a with answer := .value (regView s a) } := by
  simp [readClear, hm, mgmtRead, hd, hlock, hwindow]

theorem readClear_unassigned {s : State} {agent a : Nat} (hd : (regAt a).isNone = true) :
    readClear s agent a = { s with answer := .value 0 } := by
  unfold readClear mgmtRead
  rw [if_pos hd]
  split <;> rfl

/-- Settles O22: a write folds the access codes over fields that do not overlap, and a read the clearing of the
read-to-clear ones. -/
theorem managementRegisters : Obligations.ManagementRegisters := by
  unfold Obligations.ManagementRegisters
  refine ⟨fun agent addr val s => ⟨fun d f hm hd hplain hf => ?_, fun h => ?_⟩,
    fun agent addr s => ⟨fun d f hm hd hlock hwindow hf => ?_, fun h => ?_⟩⟩
  · refine .of (t := plainWritten s agent.toNat addr.toNat val.toNat d) rfl ?_
      ⟨bitsOf_plainWritten hd hf .., regsSameBut_plainWritten s _ _ _ _, plainWritten_frame ..⟩
    rw [registerWrite, if_pos hm, mgmtWrite_plain hd hplain]
  · refine .of (t := s) rfl ?_ rfl
    rcases h with hm | hd
    · exact registerWrite_denied hm _
    · rw [registerWrite, mgmtWrite_unassigned (Option.isNone_iff_eq_none.1 hd), ite_self]
  · refine .of rfl (readClear_register hm hd hlock hwindow)
      ⟨rfl, bitsOf_clearRC hd hf s, regsSameBut_clearRC hd s, by rw [clearRC_frame hd]⟩
  · refine .of (t := { s with answer := .value 0 }) rfl ?_ rfl
    rcases h with hm | hd
    · exact readClear_denied hm
    · exact readClear_unassigned hd

end Sys2Proof.Machine
end

section
/-! PROOFS. The admission's answers, the report on request, and the management mailbox (R425, R426, R429). -/

namespace Sys2Proof.Machine

/-! ## Fields under a mask -/

theorem testBit_bitsOf (hi lo v i : Nat) : (bitsOf hi lo v).testBit i = (decide (i < hi + 1 - lo) && v.testBit (i + lo)) := by
  rw [bitsOf, Nat.testBit_mod_two_pow, Nat.testBit_div_two_pow]

theorem testBit_fieldBits {f : RegField} (hf : f.lo ≤ f.hi) {i : Nat} (h1 : f.lo ≤ i) (h2 : i ≤ f.hi) :
    (fieldBits f).testBit i = true := by
  have heq : fieldBits f = 2 ^ f.lo * (2 ^ (f.hi + 1 - f.lo) - 1) := by
    rw [fieldBits, Nat.mul_sub, ← pow_add, Nat.mul_one, Nat.add_sub_cancel' (by omega)]
  rw [heq, Nat.testBit_two_pow_mul, Nat.testBit_two_pow_sub_one]
  simp only [Bool.and_eq_true, decide_eq_true_eq]
  omega

/-- A mask that covers a field takes the value's bits there. -/
theorem bitsOf_mergedValue {f : RegField} (hf : f.ok = true) {mask : Nat} (hm : mask &&& fieldBits f = fieldBits f) (s : State)
    (a v : Nat) (d : RegDesc) : bitsOf f.hi f.lo (mergedValue s a mask v d) = bitsOf f.hi f.lo v := by
  obtain ⟨hle, hlt, -⟩ := RegField.ok_iff.1 hf
  apply Nat.eq_of_testBit_eq
  intro i
  rw [testBit_bitsOf, testBit_bitsOf]
  by_cases hi : i < f.hi + 1 - f.lo
  · have hbits := testBit_fieldBits hle (i := i + f.lo) (by omega) (by omega)
    have hmask : mask.testBit (i + f.lo) = true := by
      have h := congrArg (Nat.testBit · (i + f.lo)) hm
      simpa [Nat.testBit_and, hbits] using h
    have hword : i + f.lo < 32 := by omega
    have hall : (2 ^ 32 - 1).testBit (i + f.lo) = true := by
      rw [Nat.testBit_two_pow_sub_one, decide_eq_true hword]
    simp only [mergedValue, Nat.testBit_or, Nat.testBit_and, Nat.testBit_xor, hmask, hall, Bool.true_or, Bool.xor_self,
      Bool.and_false, Bool.false_or, Bool.and_true]
  · simp [hi]

/-! ## What the admission service answers (Table 15-6) -/

section
variable {s : State}

theorem admissionAnswer_taken (hf : (mbxAt s 0).fullAt.isSome = true) (ht : bodyField (windowBytes s 0) 0 63 48 = 0x0F31)
    (ha : s.boot.answerOk = true) (hstep : s.boot.step = 7) (hq : quenched s = false) : admissionAnswer s =
      admission (clearFull s 0) (bodyField (windowBytes s 0) 8 7 0) (bodyField (windowBytes s 0) 8 15 8) := by
  have hok : (clearFull s 0).boot.answerOk = true := ha
  have hstep' : (clearFull s 0).boot.step = 7 := hstep
  have hq' : quenched (clearFull s 0) = false := hq
  unfold admissionAnswer
  rw [if_neg (by simpa [Option.isSome_iff_ne_none] using hf)]
  simp [ht, hok, hstep', hq']

theorem admissionAnswer_discarded (hf : (mbxAt s 0).fullAt.isSome = true) (ha : s.boot.answerOk = false) :
    admissionAnswer s = clearFull s 0 := by
  have hok : (clearFull s 0).boot.answerOk = false := ha
  unfold admissionAnswer
  rw [if_neg (by simpa [Option.isSome_iff_ne_none] using hf)]
  simp [hok]

theorem admitWait_due {x : Nat} (hx : s.boot.admitAt = some x)
    (h : getF s CFG_JOIN CFG_JOIN_ADMIT_WAIT * 1000000000 ≤ s.now - x) (hq : quenched s = false) :
    admitWait s = startSpread s := by simp [admitWait, hx, hq, h.not_gt]

end

/-! ### Admitted -/

theorem setBootRecord_frame (s : State) (pref : Bool) (tries : Nat) : setBootRecord s pref tries =
    { s with regs := (setBootRecord s pref tries).regs
             boot := { s.boot with flash := (setBootRecord s pref tries).boot.flash } } := rfl

theorem raiseMinSvn_frame (s : State) : raiseMinSvn s =
    { s with boot := { s.boot with raise := (raiseMinSvn s).boot.raise, fuses := (raiseMinSvn s).boot.fuses } } := by
  unfold raiseMinSvn; split <;> rfl

theorem raiseMinSvn_regs (s : State) : (raiseMinSvn s).regs = s.regs := by rw [raiseMinSvn_frame]

theorem atStep_regs (s : State) (n : Nat) : (atStep s n).regs = s.regs := rfl

theorem getR_setBootRecord {a : Nat} (h : a ≠ CFG_BOOT) (s : State) (pref : Bool) (tries : Nat) :
    getR (setBootRecord s pref tries) a = getR s a := by
  rw [setBootRecord, getR_putF_ne h, getR_putF_ne h, getR_congr (steady_writeRecord ..).2.1]

/-- READY and JSTATE as the device becomes ready, before the start time and the boot record are written. -/
def readyMarked (s : State) : State := putF (putF s DEV_STATUS DEV_STATUS_READY 1) CFG_JOIN CFG_JOIN_JSTATE 2

theorem becomeReady_eq (s : State) : ∃ b v, becomeReady s = raiseMinSvn (setBootRecord
    (setR (atStep (readyMarked s) 8) CFG_START v) b 0) := ⟨_, _, rfl⟩

/-- What becoming ready shows; memory, mailboxes and the rest of the boot state stay. -/
theorem becomeReady_shows (s : State) : flag (becomeReady s) DEV_STATUS DEV_STATUS_READY = true ∧
    getF (becomeReady s) CFG_JOIN CFG_JOIN_JSTATE = 2 ∧ (becomeReady s).boot.step = 8 ∧
    (becomeReady s).mbx = s.mbx ∧ (becomeReady s).mem = s.mem := by
  obtain ⟨b, v, h⟩ := becomeReady_eq s
  have hgetR (a : Nat) (hb : a ≠ CFG_BOOT) (hs : a ≠ CFG_START) : getR (becomeReady s) a = getR (readyMarked s) a := by
    rw [h, getR_congr (raiseMinSvn_regs _), getR_setBootRecord hb, getR_setR_ne hs, getR_congr (atStep_regs ..)]
  refine ⟨?_, ?_, ?_, ?_, ?_⟩
  · rw [flag, getF, hgetR _ (by decide) (by decide), ← getF, ← flag, readyMarked, flag_putF_ne (by decide)]
    exact flag_putF_one (by decide) (by decide) ..
  · rw [getF, hgetR _ (by decide) (by decide), ← getF, readyMarked]
    exact getF_putF (by decide) (by decide) ..
  · rw [h, raiseMinSvn_frame, setBootRecord_frame]; rfl
  · rw [h, raiseMinSvn_frame, setBootRecord_frame]
    simp only [setR_mbx, atStep, modBoot, readyMarked, putF_mbx]
  · rw [h, raiseMinSvn_frame, setBootRecord_frame]
    simp only [setR_mem, atStep, modBoot, readyMarked, putF_mem]

/-- The state that an admitted device becomes ready from. -/
def admitStart (s : State) : State :=
  modBoot { s with ylp := { s.ylp with members := joinList s (((siteRecord s).map siteJoinArea).getD 0) } }
    fun b => { b with admitAt := none, spreadAt := none, answerOk := false }

theorem admitted_eq (s : State) : admitted s = becomeReady (admitStart s) := rfl

theorem admitStart_mbx (s : State) : (admitStart s).mbx = s.mbx := by simp only [admitStart, modBoot]

theorem admitStart_mem (s : State) : (admitStart s).mem = s.mem := by simp only [admitStart, modBoot]

/-- What an admitted device shows. -/
theorem admitted_shows (s : State) : flag (admitted s) DEV_STATUS DEV_STATUS_READY = true ∧
    getF (admitted s) CFG_JOIN CFG_JOIN_JSTATE = 2 ∧ (admitted s).boot.step = 8 ∧
    (admitted s).mbx = s.mbx ∧ (admitted s).mem = s.mem := by
  rw [admitted_eq]
  obtain ⟨hready, hjstate, hstep, hmbx, hmem⟩ := becomeReady_shows (admitStart s)
  exact ⟨hready, hjstate, hstep, hmbx.trans (admitStart_mbx s), hmem.trans (admitStart_mem s)⟩

/-! ### A new epoch -/

/-- The counter that a new epoch calls for has EMIN in its low byte. -/
theorem newEpoch_counter {c emin : Nat} (h : emin < 256) :
    (c + (emin + 256 - c % 256) % 256) % 2 ^ 32 % 256 = emin := by omega

theorem bodyField_lt (bs : List Byte) (off : Nat) : bodyField bs off 15 8 < 256 := bitsOf_lt 15 8 _

theorem startSpread_regs (s : State) : (startSpread s).regs = s.regs := rfl

theorem joinDelay_congr {s t : State} (h : t.regs = s.regs) : joinDelay t = joinDelay s := by
  rw [joinDelay, getF_congr h, joinDelay]

/-- The state that a new epoch starts its spread from. -/
def epochRaised (s : State) (emin : Nat) : State := setEpoch (saveStart (modBoot s fun b => { b with
  startCount := (s.boot.startCount + (emin + 256 - s.boot.startCount % 256) % 256) % 2 ^ 32, answerOk := false }))

theorem newEpoch_eq (s : State) (emin : Nat) : newEpoch s emin = startSpread (epochRaised s emin) := rfl

theorem saveStart_frame (s : State) :
    saveStart s = { s with boot := { s.boot with flash := (saveStart s).boot.flash } } := rfl

theorem joinDelay_epochRaised (s : State) (emin : Nat) : joinDelay (epochRaised s emin) = joinDelay s := by
  rw [joinDelay, epochRaised, setEpoch, getF_putF_ne (by decide), saveStart_frame]
  rfl

/-- What a new epoch leaves: EPOCH is EMIN, and the join waits for its spread. -/
theorem newEpoch_shows {emin : Nat} (h : emin < 256) (s : State) :
    getF (newEpoch s emin) FAB_NODE FAB_NODE_EPOCH = emin ∧ (newEpoch s emin).boot.admitAt = none ∧
    (newEpoch s emin).boot.spreadAt = some (s.now + joinDelay s) ∧ (newEpoch s emin).mbx = s.mbx := by
  refine ⟨?_, rfl, ?_, ?_⟩
  · rw [newEpoch_eq, getF_congr (startSpread_regs _), epochRaised, setEpoch, getF_putF (by decide) (by decide),
      saveStart_frame]
    exact (Nat.mod_mod _ _).trans (newEpoch_counter h)
  · have hnow : (epochRaised s emin).now = s.now := by
      rw [State.now, epochRaised, setEpoch, putF_time, saveStart_frame]; rfl
    rw [newEpoch_eq, ← joinDelay_epochRaised s emin, ← hnow]
    rfl
  · have hmbx : (startSpread (epochRaised s emin)).mbx = (epochRaised s emin).mbx := rfl
    rw [newEpoch_eq, hmbx, epochRaised, setEpoch, putF_mbx, saveStart_frame]
    rfl

/-! ### Refused -/

/-- The refused device before its record: JSTATE is 3, and nothing waits. -/
def identityRefused (s : State) : State :=
  putF (modBoot s fun b => { b with admitAt := none, spreadAt := none, answerOk := false }) CFG_JOIN CFG_JOIN_JSTATE 3

theorem refusedIdentity_shows (s : State) : getF (refusedIdentity s) CFG_JOIN CFG_JOIN_JSTATE = 3 ∧
    flag (refusedIdentity s) DEV_STATUS DEV_STATUS_SVC_REQ = true ∧ (refusedIdentity s).boot.spreadAt = none ∧
    (refusedIdentity s).recorder = (makeRecord s srcSmith 0x480 [w64 2]).recorder := by
  have heq : refusedIdentity s = makeRecord (requestService (identityRefused s)) srcSmith 0x480 [w64 2] := rfl
  have hregs : (requestService (identityRefused s)).regs =
    (putF (identityRefused s) DEV_STATUS DEV_STATUS_SVC_REQ 1).regs := rfl
  refine ⟨?_, ?_, ?_, ?_⟩
  · rw [heq, getF_makeRecord, getF_congr hregs, getF_putF_ne (by decide)]
    exact getF_putF (by decide) (by decide) ..
  · rw [heq, flag_makeRecord, flag_congr hregs]
    exact flag_putF_one (by decide) (by decide) ..
  · rw [heq, makeRecord_boot, requestService_boot, identityRefused, putF_boot]; rfl
  · rw [heq]
    refine makeRecord_recorder_congr ?_ ?_ ?_ ..
    · rw [requestService_recorder, identityRefused, putF_recorder]; rfl
    · rw [requestService_weld, identityRefused, putF_weld]; rfl
    · rw [requestService_time, identityRefused, putF_time]; rfl

/-! ## Attestation on request (R425) -/

section
variable {s : State} {m : Nat}

/-- The bytes of a window are 256. -/
theorem length_windowBytes (s : State) (m : Nat) : (windowBytes s m).length = 256 := by
  simp [windowBytes, List.length_flatMap, leBytes_length]

theorem padTo_slice {bs : List Byte} (h : bs.length = 256) : padTo 8 (slice bs 8 32) = slice bs 8 8 := by
  simp [padTo, slice, List.take_take, h]

theorem attestation_asked (hm : m = protAttMbox s.boot.prot) (hh : smithHas s m = true) {idx : Nat}
    (hc : senderConn s m = some idx) (ht : bodyField (windowBytes s m) 0 63 48 = 0x0F20) : attestation s =
      sendReport (clearFull s m) idx (fieldLE (windowBytes s m) 0x28 8) (slice (windowBytes s m) 8 32)
        (bodyField (windowBytes s m) 0 0 0 = 1) false := by
  subst hm
  simp [attestation, hh, hc, ht]

/-! ## The management mailbox (R429) -/

theorem mgmtMailbox_one (hm : m = protMgmtMbox s.boot.prot) (hh : smithHas s m = true) (hc : senderConn s m = none)
    (hr : remoteSender s m = false) (ht : bodyField (windowBytes s m) 0 63 48 = 0x0F50)
    (hn : mgmtCount (windowBytes s m) = 1) : mgmtMailbox s =
      (mgmtEntry false (senderOf s m % 256) (clearFull s m, []) (slice (windowBytes s m) 0x10 16)).1 := by
  subst hm
  simp [mgmtMailbox, hh, hc, hr, ht, hn]

theorem mgmtEntry_denied {agent : Nat} {e : List Byte}
    (h : entryAllowed s false agent (fieldLE e 4 4) (decide (bodyField e 0 0 0 = 1)) = false) (bs : List Byte) :
    (mgmtEntry false agent (s, bs) e).1 = s := by simp [mgmtEntry, h]

theorem mgmtEntry_write {agent : Nat} {e : List Byte} (hw : bodyField e 0 0 0 = 1)
    (h : entryAllowed s false agent (fieldLE e 4 4) true = true) (bs : List Byte) :
    (mgmtEntry false agent (s, bs) e).1 = maskedWrite s agentSmith (fieldLE e 4 4) (fieldLE e 8 4) (fieldLE e 12 4) := by
  simp [mgmtEntry, h, hw]

theorem maskedWrite_plain {a : Nat} {d : RegDesc} (hd : regAt a = some d) (hp : plainReg a = true) (agent mask v : Nat) :
    maskedWrite s agent a mask v = plainWritten s agent a (mergedValue s a mask v d) d := by
  rw [maskedWrite, hd]
  exact mgmtWrite_plain hd hp ..

end

/-- Settles O52: the smith takes the message and answers by its kind; each clause is one kind. -/
theorem admissionAndRequests : Obligations.AdmissionAndRequests := by
  unfold Obligations.AdmissionAndRequests
  intro s hz hq
  have hmbx (m : Nat) (hm : m < 32) : (mbxAt (clearFull s m) m).fullAt = none := by
    rw [mbxAt_clearFull (by rw [sized_mbx hz]; exact hm)]
  refine ⟨fun hf ht ha hstep => ⟨fun hr => ?_, fun hr => ?_, fun hr => ?_⟩, fun hf ha => ?_, fun x hx hdue => ?_,
    fun c m idx hm hh hc hconn he hw ht => ?_, fun m e hm hh hc hr ht hn he => ⟨fun hd => ?_, fun d hw hd hp hal => ?_⟩⟩
  · refine .of rfl ((admissionAnswer_taken hf ht ha hstep hq).trans (by rw [hr, admission])) ?_
    obtain ⟨hready, hjstate, hstep8, hmbx', hmem⟩ := admitted_shows (clearFull s 0)
    exact ⟨hready, hjstate, hstep8, by rw [mbxAt_congr hmbx']; exact hmbx 0 (by decide), memSame_of_mem hmem⟩
  · refine .of rfl ((admissionAnswer_taken hf ht ha hstep hq).trans (by rw [hr, admission])) ?_
    obtain ⟨hepoch, hadmit, hspread, hmbx'⟩ := newEpoch_shows (bodyField_lt (windowBytes s 0) 8) (clearFull s 0)
    exact ⟨hepoch, hadmit, hspread.trans (by rw [joinDelay_congr (s := s) rfl]; rfl),
      by rw [mbxAt_congr hmbx']; exact hmbx 0 (by decide)⟩
  · refine .of rfl ((admissionAnswer_taken hf ht ha hstep hq).trans (by rw [hr, admission])) ?_
    obtain ⟨hjstate, hsvc, hspread, hrec⟩ := refusedIdentity_shows (clearFull s 0)
    exact ⟨hjstate, hsvc, hspread, hrec.trans (makeRecord_recorder_congr (s := s) (t := clearFull s 0) rfl rfl rfl ..)⟩
  · exact .of rfl (admissionAnswer_discarded hf ha) ⟨hmbx 0 (by decide), rfl⟩
  · exact .of rfl (admitWait_due hx hdue hq) rfl
  · obtain ⟨hops, hframe⟩ := sendReport_ops (s := clearFull s m) hconn he hw (fieldLE (windowBytes s m) 0x28 8)
      (slice (windowBytes s m) 8 32) (bodyField (windowBytes s m) 0 0 0 = 1) false
    rw [padTo_slice (length_windowBytes s m)] at hops
    have hm32 : m < 32 := hm ▸ bitsOf_lt 25 21 _
    refine .of rfl (attestation_asked hm hh hc ht) ⟨?_, ?_, memSame_of_mem ?_, hops⟩
    · rw [mbxAt_congr (s := clearFull s m) (by rw [hframe])]; exact hmbx m hm32
    · rw [hframe]; rfl
    · rw [hframe]; rfl
  · rw [he] at hd
    exact .of rfl ((mgmtMailbox_one hm hh hc hr ht hn).trans (mgmtEntry_denied hd [])) rfl
  · rw [he] at hw hd hp hal ⊢
    have hm32 : m < 32 := hm ▸ bitsOf_lt 20 16 _
    have hframe := plainWritten_frame (clearFull s m) agentSmith (fieldLE (slice (windowBytes s m) 0x10 16) 4 4)
      (mergedValue (clearFull s m) (fieldLE (slice (windowBytes s m) 0x10 16) 4 4)
        (fieldLE (slice (windowBytes s m) 0x10 16) 8 4) (fieldLE (slice (windowBytes s m) 0x10 16) 12 4) d) d
    refine .of rfl ((mgmtMailbox_one hm hh hc hr ht hn).trans ((mgmtEntry_write hw hal []).trans (maskedWrite_plain hd hp ..)))
      ⟨?_, memSame_of_mem ?_, ?_, fun f hf hacc hkept hmask => ?_⟩
    · rw [mbxAt_congr (s := clearFull s m) (by rw [hframe])]; exact hmbx m hm32
    · rw [hframe]; rfl
    · exact (regsSameBut_of_regs rfl _).trans (regsSameBut_plainWritten (clearFull s m) _ _ _ _)
    · rw [bitsOf_plainWritten hd hf, fieldAfter, hacc]
      simp only [hkept, Bool.false_eq_true, if_false]
      exact bitsOf_mergedValue ((RegDesc.ok_iff.1 (regAt_ok hd)).1 f hf) hmask ..

end Sys2Proof.Machine
end

section
/-! PROOFS. Control instructions that issue: their results, and the register or the memory that they write (R182, R189 to R191). -/

namespace Sys2Proof.Machine

/-! ## What issue asks for -/

section
variable {s : State} {i : CoreId} {k : CtxId} {f : Fields} {sh : Shape} {l : Bool}

theorem issues_sized (h : issues s i k f sh l = true) : sized s = true := (issues_iff.1 h).1

theorem core_lt (h : sized s = true) (i : CoreId) : i.val < s.cores.length := by rw [sized_cores h]; exact i.isLt

/-- An instruction that issues and whose signal has room runs its body, on a device of full size. -/
theorem issueCtl_ctlGo (h : ctlGo s i k f sh l = true) (body : State → State) :
    sized s = true ∧ sigRoom s i k f = true ∧ issueCtl s i k f sh l body = body s := by
  obtain ⟨hi, hr⟩ := ctlGo_iff.1 h
  exact ⟨issues_sized hi, hr, issueCtl_go hi⟩

/-! ## A change of the core that completes -/

theorem setG_sc (s : State) (i : Nat) (k : CtxId) (n : Nat) (v : Word64) (c : Core) : (setG s i k n v c).sc = c.sc := by
  unfold setG; split <;> rfl

theorem setP_sc (s : State) (i : Nat) (k : CtxId) (n : Nat) (v : Bool) (c : Core) : (setP s i k n v c).sc = c.sc := rfl

theorem writeP_eq (s : State) (i : Nat) (k : CtxId) (n : Nat) (v : Bool) : writeP s i k n v = modCore s i (setP s i k n v) := rfl

theorem branchTo_eq (s : State) (i : Nat) (k : CtxId) (n : Nat) : branchTo s i k n = modCore s i (branched k n) := rfl

/-- What the end of a core's change with a signal leaves. -/
theorem signalDone_answers (g : Core → Core) (hz : sized s = true) (hsc : (g (coreAt s i)).sc = (coreAt s i).sc)
    (hr : sigRoom s i k f = true) (q pc : Nat) :
    coreOnly s (signalDone (modCore s i g) i k f.sigen f.sigc.toNat q pc) i ∧
    coreAt (signalDone (modCore s i g) i k f.sigen f.sigc.toNat q pc) i = signalled s i k f (g (coreAt s i)) := by
  have hl := core_lt hz i
  have hroom : sigRoom (modCore s i g) i k f = true := by
    simp only [sigRoom, Bool.or_eq_true, decide_eq_true_eq] at hr ⊢
    rwa [isSplit_modCore, readSc, coreAt_modCore hl, hsc, ← readSc]
  rw [signalDone_ok hroom, modCore_modCore hl]
  exact ⟨coreOnly_modCore hl _, by rw [coreAt_modCore hl]; rfl⟩

theorem completeCtl_answers (hz : sized s = true) (hr : sigRoom s i k f = true) :
    coreOnly s (completeCtl s i k f) i ∧ coreAt (completeCtl s i k f) i = ctlEnd s i k f (coreAt s i) := by
  have h := ctl_answers (s := s) (i := i) (k := k) (f := f) (fun c => c) (sized_cores hz) (fun _ => rfl) hr
  rwa [modCore_id] at h

theorem writeG_answers (hz : sized s = true) (hr : sigRoom s i k f = true) (n : Nat) (v : Word64) :
    coreOnly s (completeCtl (writeG s i k n v) i k f) i ∧
    coreAt (completeCtl (writeG s i k n v) i k f) i = ctlEnd s i k f (setG s i k n v (coreAt s i)) := by
  rw [writeG_eq s i (sized_cores hz)]
  exact ctl_answers _ (sized_cores hz) (setG_sc s i k n v) hr

theorem writeP_answers (hz : sized s = true) (hr : sigRoom s i k f = true) (n : Nat) (v : Bool) :
    coreOnly s (completeCtl (writeP s i k n v) i k f) i ∧
    coreAt (completeCtl (writeP s i k n v) i k f) i = ctlEnd s i k f (setP s i k n v (coreAt s i)) :=
  ctl_answers _ (sized_cores hz) (setP_sc s i k n v) hr

/-- The scratch counters of a core that took a branch. -/
theorem branched_sc (k : CtxId) (n : Nat) (c : Core) : (branched k n c).sc = c.sc := setCtx_sc ..

theorem takeBranch_answers (hz : sized s = true) (hr : sigRoom s i k f = true) (n : Nat) :
    coreOnly s (takeBranch s i k f n) i ∧ coreAt (takeBranch s i k f n) i = signalled s i k f (branched k n (coreAt s i)) :=
  signalDone_answers _ hz (branched_sc ..) hr ..

/-- A branch that links writes gD on the way. -/
theorem takeBranch_writeG_answers (hz : sized s = true) (hr : sigRoom s i k f = true) (d n : Nat) (v : Word64) :
    coreOnly s (takeBranch (writeG s i k d v) i k f n) i ∧
    coreAt (takeBranch (writeG s i k d v) i k f n) i = signalled s i k f (branched k n (setG s i k d v (coreAt s i))) := by
  have heq : branchTo (modCore s i (setG s i k d v)) i k n = modCore s i fun c => branched k n (setG s i k d v c) := by
    rw [branchTo_eq, modCore_modCore (core_lt hz i)]
  rw [takeBranch, writeG_eq s i (sized_cores hz), heq]
  exact signalDone_answers (fun c => branched k n (setG s i k d v c)) hz ((branched_sc ..).trans (setG_sc ..)) hr ..

/-! ## Loops -/

theorem skipLoop_answers (hz : sized s = true) (hr : sigRoom s i k f = true) :
    coreOnly s (skipLoop s i k f) i ∧ coreAt (skipLoop s i k f) i =
      signalled s i k f ((coreAt s i).setCtx k { (ctxAt s i k) with pc := (brTarget f + 16) % 2 ^ 21 }) :=
  signalDone_answers (·.setCtx k { (ctxAt s i k) with pc := (brTarget f + 16) % 2 ^ 21 }) hz (setCtx_sc ..) hr ..

/-- A context that has entered a loop body. -/
def loopEntered (s : State) (i : Nat) (k : CtxId) (f : Fields) (n : Nat) : Ctx :=
  { (ctxAt s i k) with
    pc := ((ctxAt s i k).pc + 16) % 2 ^ 21
    loops := ⟨n, (ctxAt s i k).pc + 16, brTarget f⟩ :: (ctxAt s i k).loops }

theorem pushLoop_answers (hz : sized s = true) (hr : sigRoom s i k f = true) (n pc : Nat) :
    coreOnly s (signalDone (pushLoop s i k f n) i k f.sigen f.sigc.toNat 0 pc) i ∧
    coreAt (signalDone (pushLoop s i k f n) i k f.sigen f.sigc.toNat 0 pc) i =
      signalled s i k f ((coreAt s i).setCtx k (loopEntered s i k f n)) :=
  signalDone_answers (·.setCtx k (loopEntered s i k f n)) hz (setCtx_sc ..) hr ..

end

/-- The local time of the core's half is the time its records carry. -/
theorem coreTime_eq (s : State) (i : CoreId) : coreTime s i = if i.val < 64 then s.time.ns else s.time.half1 := by
  have hsrc : srcHalf1 (srcCore i) = decide (64 ≤ i.val) := by
    have hn : ∀ n : Fin 128, srcHalf1 n = decide (64 ≤ n.val) := by decide
    exact hn i
  by_cases h : i.val < 64 <;> simp [coreTime, srcTime, hsrc, h, Nat.not_le.2, Nat.not_lt.1]

/-- Settles O1: each form issues, changes its own core alone, and ends with its signal. -/
theorem controlResults : Obligations.ControlResults := by
  unfold Obligations.ControlResults
  refine ⟨fun i k f s => ⟨fun h => ?_, fun h => ?_, fun h => ?_, fun h => ?_, fun h => ?_, fun h => ?_⟩,
    fun i k f s => ⟨fun h ht => ?_, fun h ht => ?_, fun h ht => ?_, fun h ht hn => ?_⟩⟩
  all_goals obtain ⟨hz, hr, hgo⟩ := issueCtl_ctlGo h _
  · exact .of rfl hgo (completeCtl_answers hz hr)
  · exact .of rfl hgo (writeG_answers hz hr ..)
  · exact .of rfl hgo (writeG_answers hz hr ..)
  · exact .of rfl hgo (writeP_answers hz hr ..)
  · exact .of rfl hgo (writeP_answers hz hr ..)
  · rw [← coreTime_eq]
    exact .of rfl hgo (writeG_answers hz hr ..)
  · exact .of rfl (hgo.trans (by rw [ht]; rfl)) (takeBranch_answers hz hr _)
  · exact .of rfl (hgo.trans (by simp only [ht]; rfl)) (takeBranch_answers hz hr _)
  · exact .of rfl (hgo.trans (by rw [ht]; rfl)) (takeBranch_writeG_answers hz hr ..)
  · by_cases h0 : readG s i k f.a.toNat = 0
    · rw [if_pos h0]
      exact .of rfl (hgo.trans (by simp [ht, orFault, h0])) (skipLoop_answers hz hr)
    · rw [if_neg h0]
      have hn0 : (readG s i k f.a.toNat).toNat ≠ 0 := fun e => h0 (BitVec.eq_of_toNat_eq e)
      have hdepth : ¬ loopDepth s i ≤ (ctxAt s i k).loops.length := not_le.2 (hn.resolve_left h0)
      exact .of rfl (hgo.trans (by simp only [ht, orFault, if_neg hn0, if_neg hdepth]; rfl)) (pushLoop_answers hz hr ..)

end Sys2Proof.Machine
end

section
/-! PROOFS. Words of the core store, and the registers of a core's own block (R189, R191). -/

namespace Sys2Proof.Machine

theorem sigRoom_congr {s t : State} {i : CoreId} (hs : isSplit t i = isSplit s i) (hc : t.cores = s.cores) (k : CtxId) (f : Fields) :
    sigRoom t i k f = sigRoom s i k f := by
  rw [sigRoom, sigRoom, hs, readSc, readSc, coreAt_congr hc]

theorem ctlEnd_congr {s t : State} {i : CoreId} (hs : isSplit t i = isSplit s i) (k : CtxId) (f : Fields) (c : Core) :
    ctlEnd t i k f c = ctlEnd s i k f c := by
  rw [ctlEnd, signalled, hs, ← signalled, ← ctlEnd]

section
variable {s t : State} {i : CoreId} {k : CtxId} {f : Fields}

/-- A completion writes its core into the state it completes from. -/
theorem completeCtl_frame (hz : s.cores.length = 128) (hr : sigRoom s i k f = true) :
    completeCtl s i k f = { s with cores := s.cores.set i (ctlEnd s i k f (coreAt s i)) } := completeCtl_go hz hr

/-- A change beside the cores, and then the completion. -/
theorem completeCtl_after (hz : sized s = true) (hr : sigRoom s i k f = true) (hs : isSplit t i = isSplit s i)
    (hc : t.cores = s.cores) :
    completeCtl t i k f = { t with cores := s.cores.set i (ctlEnd s i k f (coreAt s i)) } := by
  rw [completeCtl_frame (by rw [hc]; exact sized_cores hz) ((sigRoom_congr hs hc k f).trans hr), ctlEnd_congr hs, hc,
    coreAt_congr hc]

end

theorem orFault_none {s : State} {i : Nat} {k : CtxId} {o : Option Nat} (h : o = none) (t : State) : orFault s i k o t = t := by
  rw [h, orFault]

/-! ## Registers of the own block -/

theorem ownBlock_ge (i : Nat) (f : Fields) : 0x100000 ≤ blockBase i + regOffset f := by unfold blockBase; omega

theorem ownBlock_not_lock (i : CoreId) (f : Fields) : isLockReg (blockBase i + regOffset f) = false := by
  have h : ¬ blockBase i + regOffset f < 0x30400 := by have := ownBlock_ge i f; omega
  simp [isLockReg, h]

theorem ownBlock_not_window (i : CoreId) (f : Fields) : isWindowReg (blockBase i + regOffset f) = false := by
  have h : ¬ blockBase i + regOffset f < 0x42000 := by have := ownBlock_ge i f; omega
  simp [isWindowReg, h]

theorem mgmtRead_ownBlock (s : State) (i : CoreId) (f : Fields) : mgmtRead s 0 (blockBase i + regOffset f) =
    if (regAt (blockBase i + regOffset f)).isNone then (s, 0)
    else (clearRC s (blockBase i + regOffset f), regView s (blockBase i + regOffset f)) := by
  simp [mgmtRead, ownBlock_not_lock, ownBlock_not_window]

/-- A read of the own block leaves the units of the device as they are. -/
theorem mgmtRead_ownBlock_frame (s : State) (i : CoreId) (f : Fields) :
    ∃ r y, (mgmtRead s 0 (blockBase i + regOffset f)).1 = { s with regs := r, ylp := y } := by
  rw [mgmtRead_ownBlock]
  cases hd : regAt (blockBase i + regOffset f) with
  | none => exact ⟨s.regs, s.ylp, rfl⟩
  | some d =>
    simp only [Option.isNone_some, Bool.false_eq_true, if_false]
    exact ⟨_, _, clearRC_frame hd s⟩

theorem sized_mgmtRead_ownBlock {s : State} (hz : sized s = true) (i : CoreId) (f : Fields) :
    sized (mgmtRead s 0 (blockBase i + regOffset f)).1 = true := by
  obtain ⟨r, y, h⟩ := mgmtRead_ownBlock_frame s i f
  rw [h]
  exact hz

theorem coreAt_mgmtRead_ownBlock (s : State) (i : CoreId) (f : Fields) :
    coreAt (mgmtRead s 0 (blockBase i + regOffset f)).1 i = coreAt s i := by
  obtain ⟨r, y, h⟩ := mgmtRead_ownBlock_frame s i f
  rw [h]
  rfl

/-! ## WRREG -/

theorem wrregCheck_none {f : Fields} (h : wrregCheck f = none) : regOffset f ∈ [0x040, 0x044, 0x08C] := by
  by_contra hn
  simp only [List.mem_cons, List.not_mem_nil, or_false, not_or] at hn
  obtain ⟨h1, h2, h3⟩ := hn
  by_cases h4 : regOffset f % 4 = 0 <;> simp [wrregCheck, firstFault, faultIf, h1, h2, h3, h4] at h

theorem wrregWrite_frame (s : State) (i off v : Nat) : wrregWrite s i off v = { s with regs := (wrregWrite s i off v).regs } := by
  unfold wrregWrite; split <;> rfl

theorem regsSameBut_wrregWrite (s : State) (i off v : Nat) : regsSameBut s (wrregWrite s i off v) [blockBase i + off] := by
  unfold wrregWrite
  split
  next h =>
    have haddr : CORE_NUMCTL i = blockBase i + off := by unfold CORE_NUMCTL blockBase; omega
    rw [← haddr]
    exact regsSameBut_putF s _ _ _
  next => exact (regsSameBut.refl s _).setR List.mem_cons_self _

theorem getF_wrregWrite {off : Nat} (h : off = 0x040) (s : State) (i v : Nat) :
    getF (wrregWrite s i off v) (CORE_NUMCTL i) CORE_NUMCTL_FLOOR_MODE = v % 2 := by
  rw [wrregWrite, if_pos h]
  exact getF_putF (by decide) (by decide) ..

theorem getR_wrregWrite {off : Nat} (h : off ≠ 0x040) (s : State) (i v : Nat) :
    getR (wrregWrite s i off v) (blockBase i + off) = keepBits s (blockBase i + off) v := by
  rw [wrregWrite, if_neg h, getR_setR_self]

theorem isSplit_wrregWrite {f : Fields} (h : wrregCheck f = none) (s : State) (i v : Nat) :
    isSplit (wrregWrite s i (regOffset f) v) i = isSplit s i := by
  have hne : CORE_TILECTL i ≠ blockBase i + regOffset f := by
    have hoff := wrregCheck_none h
    simp only [List.mem_cons, List.not_mem_nil, or_false] at hoff
    unfold CORE_TILECTL blockBase
    omega
  rw [isSplit, flag, getF, regsSameBut_wrregWrite s i _ v _ (by simpa using hne), ← getF, ← flag, ← isSplit]

/-- Settles O2: what each form reads or writes, and its completion. -/
theorem wordsAndOwnRegisters : Obligations.WordsAndOwnRegisters := by
  unfold Obligations.WordsAndOwnRegisters
  refine ⟨fun i k f s => ⟨fun h hc => ?_, fun h hc => ?_⟩, fun i k f s => ⟨fun h ha hr => ?_, fun h hc => ?_, fun h => ?_⟩⟩
  · obtain ⟨hz, hr, hgo⟩ := issueCtl_ctlGo h _
    refine .of rfl (hgo.trans (?_ : _ = completeCtl (writeG s i k f.d.toNat
      (readWord s (csBase i + addrOf (readG s i k f.a.toNat) f))) i k f)) (writeG_answers hz hr ..)
    simp only [hc, firstFault, faultIf, Bool.false_eq_true, if_false]
    rfl
  · obtain ⟨hz, hr, hgo⟩ := issueCtl_ctlGo h _
    have hend := completeCtl_after (t := writeWord s (csBase i + addrOf (readG s i k f.a.toNat) f) (readG s i k f.b.toNat))
      hz hr rfl rfl
    refine .of rfl (hgo.trans ((orFault_none hc _).trans hend)) ⟨rfl, ?_, fun a ha => ?_⟩
    · exact (readWord_congr (s := writeWord s _ _) rfl _).trans (readWord_writeWord s _ _)
    · exact (readByte_congr (s := writeWord s _ _) rfl a).trans (readByte_writeWord_outside s _ a _ ha)
  · have hz := sized_mgmtRead_ownBlock (issues_sized h) i f
    obtain ⟨honly, hat⟩ := writeG_answers hz hr f.d.toNat (w64 (mgmtRead s 0 (blockBase i + regOffset f)).2.toNat)
    rw [coreAt_mgmtRead_ownBlock] at hat
    refine .of rfl ((issueCtl_go h).trans (by simp [orFault, faultIf, ha])) ⟨honly, hat, ?_⟩
    rw [mgmtRead_ownBlock]
    split <;> rfl
  · obtain ⟨hz, hr, hgo⟩ := issueCtl_ctlGo h _
    have hframe := wrregWrite_frame s i (regOffset f) (readG s i k f.b.toNat).toNat
    have hend := completeCtl_after (t := wrregWrite s i (regOffset f) (readG s i k f.b.toNat).toNat)
      hz hr (isSplit_wrregWrite hc ..) (by rw [hframe])
    refine .of rfl (hgo.trans ((orFault_none hc _).trans hend)) ⟨by rw [hframe],
      (regsSameBut_wrregWrite s i _ _).of_regs rfl, fun h40 => ?_, fun h40 => ?_⟩
    · exact (getF_congr (s := wrregWrite s i (regOffset f) _) rfl ..).trans (getF_wrregWrite h40 s i _)
    · exact (getR_congr (s := wrregWrite s i (regOffset f) _) rfl _).trans (getR_wrregWrite h40 s i _)
  · obtain ⟨hz, hr, hgo⟩ := issueCtl_ctlGo h _
    have hend := completeCtl_after (t := noteRecord s i k f) hz hr (isSplit_congr (makeRecord_regs ..) _) (makeRecord_cores ..)
    refine .of rfl (hgo.trans hend) ?_
    rw [noteRecord, makeRecord_eq]
    rfl

end Sys2Proof.Machine
end

section
/-! PROOFS. Instructions that enter a queue: issue into an empty queue, and the entry at its head (R172, R182, R183). -/

namespace Sys2Proof.Machine

/-! ## One form for the instructions of every queue -/

/-- Issue by the form of an instruction, and the look at its queue. -/
def QForm.issue (x : QForm) (s : State) (ecc : Bool) : State :=
  pumpQueue (issueQ s x.i.val x.k x.q x.op x.f x.sh x.legal x.check ecc) x.i x.q

/-- AMAC tells its anvils of the pass that arrives (R121). -/
def QForm.told (x : QForm) (s t : State) : State :=
  if x.op = opAmac then match newPass s t x.i.val x.q with
    | some e => notePass t x.i e
    | none => t
  else t

theorem exec_tileOf {c : Instr} {s : State} {x : QForm} (h : tileOf s c = some x) :
    exec c s = .next (x.told s (x.issue s false)) := by
  cases c <;> simp only [tileOf, reduceCtorEq, Option.some.injEq] at h <;> subst h <;> rfl

/-- VLD comes with the error of the row it reads. -/
def eccOf : Instr → Bool
  | .vld _ _ _ ecc => ecc
  | _ => false

theorem exec_laneOpOf {c : Instr} {s : State} {x : QForm} (h : laneOpOf s c = some x) :
    exec c s = .next (x.issue s false) := by
  cases c <;> simp only [laneOpOf, reduceCtorEq, Option.some.injEq] at h <;> subst h <;> rfl

theorem exec_vecOf {c : Instr} {s : State} {x : QForm} (h : vecOf s c = some x) :
    exec c s = .next (x.issue s (eccOf c)) := by
  cases c <;> simp only [vecOf, reduceCtorEq, Option.some.injEq] at h <;> subst h <;> rfl

theorem exec_moveOf {c : Instr} {s : State} {x : QForm} (h : moveOf c = some x) :
    exec c s = .next (x.issue s false) := by
  cases c <;> simp only [moveOf, reduceCtorEq, Option.some.injEq] at h <;> subst h <;> rfl

/-! ## Changes of one core in turn -/

theorem modCore_setCore {s : State} {i : Nat} (h : i < s.cores.length) (c : Core) (g : Core → Core) :
    modCore (setCore s i c) i g = setCore s i (g c) := by
  rw [modCore, coreAt_setCore h, setCore, setCore, List.set_set]
  rfl

theorem sized_setCore_cores {s : State} {i : Nat} (c : Core) : (setCore s i c).cores.length = s.cores.length :=
  List.length_set

/-! ## An entry alone in its queue -/

theorem stepped_queue (k : CtxId) (c : Core) (q : Queue) : (stepped k c).queue q = c.queue q := setCtx_queue ..

theorem queue_setQueue_next (c : Core) (q : Queue) (l : List QEntry) (n : Nat) :
    ({ c.setQueue q l with nextQid := n } : Core).queue q = l := by cases q <;> rfl

theorem queued_queue (x : QForm) (e : QEntry) (c : Core) : (queued x e c).queue x.q = [e] := by
  rw [queued, stepped_queue, queue_setQueue_next]

theorem stepped_setQueue (k : CtxId) (c : Core) (q : Queue) (l : List QEntry) :
    (stepped k c).setQueue q l = stepped k (c.setQueue q l) := by
  unfold stepped Core.setCtx
  cases q <;> (split <;> rfl)

theorem queued_setQueue (x : QForm) (e e' : QEntry) (c : Core) : (queued x e c).setQueue x.q [e'] = queued x e' c := by
  rw [queued, stepped_setQueue, queued]
  cases x.q <;> rfl

section
variable {s : State} {x : QForm}

/-- The state in which the empty queue of a form took an entry. -/
def QForm.taken (x : QForm) (s : State) (e : QEntry) : State := setCore s x.i (queued x e (coreAt s x.i))

theorem coreAt_taken (hz : sized s = true) (e : QEntry) : coreAt (x.taken s e) x.i = queued x e (coreAt s x.i) :=
  coreAt_setCore (core_lt hz x.i) _

theorem coreOnly_taken (hz : sized s = true) (e : QEntry) : coreOnly s (x.taken s e) x.i := by
  unfold coreOnly
  rw [coreAt_taken hz]
  rfl

theorem queue_taken (hz : sized s = true) (e : QEntry) : (coreAt (x.taken s e) x.i).queue x.q = [e] := by
  rw [coreAt_taken hz, queued_queue]

theorem advance_eq (s : State) (i : Nat) (k : CtxId) : advance s i k = modCore s i (stepped k) := rfl

theorem enqueue_empty (hz : sized s = true) (hq : (coreAt s x.i).queue x.q = []) (e : QEntry) :
    enqueue s x.i x.k x.q e = x.taken s e := by
  rw [enqueue, advance_eq, modCore_modCore (core_lt hz x.i), modCore, hq]
  rfl

theorem pump_taken (hz : sized s = true) (e : QEntry) : pumpQueue (x.taken s e) x.i x.q = (startNext (x.taken s e) x.i x.q).1 := by
  rw [pumpQueue, queue_taken hz]
  simp only [List.length_singleton, pumpN]
  split <;> rfl

theorem headEntry_taken (hz : sized s = true) {e : QEntry} (he : e.started = false) :
    headEntry (x.taken s e) x.i x.q = some e := by
  rw [headEntry, queue_taken hz]
  simp [he]

theorem markStarted_taken (hz : sized s = true) (e : QEntry) (fin : Bool) :
    markStarted (x.taken s e) x.i x.q e.qid fin = x.taken s { e with started := true, finished := fin } := by
  rw [markStarted, setEntry, QForm.taken, modCore_setCore (core_lt hz x.i), queued_queue]
  simp only [List.map_cons, List.map_nil, if_true, queued_setQueue]
  rfl

theorem stepped_stat (k : CtxId) (c : Core) : (stepped k c).ctx0.stat = c.ctx0.stat ∧ (stepped k c).ctx1.stat = c.ctx1.stat := by
  by_cases h : k = 0 <;> simp [stepped, Core.setCtx, Core.ctx, h]

theorem queued_stat (x : QForm) (e : QEntry) (c : Core) :
    (queued x e c).ctx0.stat = c.ctx0.stat ∧ (queued x e c).ctx1.stat = c.ctx1.stat := by
  obtain ⟨h0, h1⟩ := stepped_stat x.k { c.setQueue x.q [e] with nextQid := c.nextQid + 1 }
  cases hq : x.q <;> rw [queued, hq] <;> rw [hq] at h0 h1 <;> exact ⟨h0, h1⟩

theorem coreSaving_taken (hz : sized s = true) (e : QEntry) : coreSaving (x.taken s e) x.i = coreSaving s x.i := by
  obtain ⟨h0, h1⟩ := queued_stat x e (coreAt s x.i)
  rw [coreSaving, coreAt_taken hz, h0, h1, coreSaving]

theorem quenched_taken (e : QEntry) : quenched (x.taken s e) = quenched s := rfl

/-! ## Issue into an empty queue -/

/-- Lane 1 of the anvils is there in split mode alone (R177). -/
def QForm.placed (x : QForm) (s : State) : Prop := x.q = .anv1 → isSplit s x.i = true

theorem placed_tileOf {c : Instr} (h : tileOf s c = some x) : x.placed s := by
  have hlane (i : CoreId) (k : CtxId) : laneOf s i k = .anv1 → isSplit s i = true := by
    unfold laneOf
    split
    next h => exact fun _ => (Bool.and_eq_true _ _ ▸ h).1
    next => exact nofun
  cases c <;> simp only [tileOf, reduceCtorEq, Option.some.injEq] at h <;> subst h <;> exact hlane _ _

theorem laneOpOf_queue {c : Instr} (h : laneOpOf s c = some x) : x.q = .vec := by
  cases c <;> simp only [laneOpOf, reduceCtorEq, Option.some.injEq] at h <;> subst h <;> rfl

theorem vecOf_queue {c : Instr} (h : vecOf s c = some x) : x.q = .vec := by
  cases c <;> simp only [vecOf, reduceCtorEq, Option.some.injEq] at h <;> subst h <;> rfl

theorem moveOf_queue {c : Instr} (h : moveOf c = some x) : x.q = .tongs ∨ x.q = .fab := by
  cases c <;> simp only [moveOf, reduceCtorEq, Option.some.injEq] at h <;> subst h <;> simp [fcollForm]

theorem placed_of_queue (h : x.q ≠ .anv1) : x.placed s := fun h' => absurd h' h

theorem room_of_empty (hp : x.placed s) (hq : (coreAt s x.i).queue x.q = []) :
    ¬ queueSize (isSplit s x.i) x.q ≤ ((coreAt s x.i).queue x.q).length := by
  rw [hq]
  by_cases h1 : x.q = .anv1
  · simp [h1, hp h1, queueSize]
  · cases hx : x.q <;> cases isSplit s x.i <;> simp_all [queueSize]

/-- An entry that no operand bars enters its empty queue and is looked at. -/
theorem issue_enters (hp : x.placed s) (hi : issues s x.i x.k x.f x.sh x.legal = true) (hq : (coreAt s x.i).queue x.q = [])
    (hc : x.check (x.entry s false) = none) (ecc : Bool) :
    x.issue s ecc = (startNext (x.taken s (x.entry s false ecc)) x.i x.q).1 := by
  obtain ⟨hz, hissue, hfields, hl, hpred, hg⟩ := issues_iff.1 hi
  rw [QForm.entry] at hc
  have henq : issueQ s x.i.val x.k x.q x.op x.f x.sh x.legal x.check ecc = x.taken s (x.entry s false ecc) := by
    rw [← enqueue_empty hz hq]
    simp [issueQ, hissue, hfields, hl, hpred, hg, room_of_empty hp hq, hc, QForm.entry]
  rw [QForm.issue, henq, pump_taken hz]

theorem queueGo_iff : queueGo s x = true ↔ issues s x.i x.k x.f x.sh x.legal = true ∧ (coreAt s x.i).queue x.q = [] ∧
    x.check (x.entry s false) = none ∧ x.f.dataBad = false := by
  simp [queueGo, and_assoc]

theorem issue_queueGo (hp : x.placed s) (hgo : queueGo s x = true) (ecc : Bool) :
    x.issue s ecc = (startNext (x.taken s (x.entry s false ecc)) x.i x.q).1 := by
  obtain ⟨hi, hq, hc, -⟩ := queueGo_iff.1 hgo
  exact issue_enters hp hi hq hc ecc

theorem canIssue_quenched {i : Nat} {k : CtxId} (h : canIssue s i k = true) : quenched s = false := by
  simp only [canIssue, Bool.and_eq_true, Bool.not_eq_true'] at h
  exact h.1.2

theorem issues_quenched {i : Nat} {k : CtxId} {f : Fields} {sh : Shape} {l : Bool} (h : issues s i k f sh l = true) :
    quenched s = false := canIssue_quenched (issues_iff.1 h).2.1

/-- An instruction with a false predicate enters as an empty entry, which is over at once. -/
theorem issue_off (hp : x.placed s) (hz : sized s = true) (hissue : canIssue s x.i x.k = true)
    (hl : (fieldsOk (isSplit s x.i) x.sh x.f && x.legal) = true) (hq : (coreAt s x.i).queue x.q = [])
    (hsave : coreSaving s x.i = false) (hpred : predicate s x.i x.k x.f = false) (ecc : Bool) :
    x.issue s ecc = x.taken s { x.entry s true with started := true, finished := true } := by
  have henq : issueQ s x.i.val x.k x.q x.op x.f x.sh x.legal x.check ecc = x.taken s (x.entry s true) := by
    rw [← enqueue_empty hz hq]
    simp [issueQ, hissue, hl, hpred, room_of_empty hp hq, QForm.entry]
  have hquench := canIssue_quenched hissue
  have hsave' : coreSaving (x.taken s (x.entry s true)) x.i = false := (coreSaving_taken hz _).trans hsave
  rw [QForm.issue, henq, pump_taken hz, startNext, headEntry_taken hz rfl]
  simp only [quenched_taken, hquench, hsave', Bool.false_and, Bool.or_self, Bool.false_eq_true, if_false]
  exact markStarted_taken hz ..

/-! ## A tile entry waits for its anvils -/

theorem startNext_tile {t : State} {i : CoreId} {q : Queue} {e : QEntry} (hh : headEntry t i q = some e) (hoff : e.off = false)
    (ht : isTile e = true) : (startNext t i q).1 = t := by
  have hsig : e.op ≠ opSignal := by rintro h; rw [isTile, h] at ht; exact absurd ht (by decide)
  have hwait : e.op ≠ opWait := by rintro h; rw [isTile, h] at ht; exact absurd ht (by decide)
  simp only [startNext, hh, hoff, if_neg hsig, if_neg hwait, ht, if_true, Bool.false_eq_true, if_false, ite_self]

/-! ## A vector entry runs at once -/

theorem coreAt_entry_veGrant (hz : sized s = true) (e : QEntry) :
    (coreAt (x.taken s e) x.i).veGrant = (coreAt s x.i).veGrant := by
  rw [coreAt_taken hz]
  unfold queued stepped Core.setCtx
  cases x.q <;> (split <;> rfl)

theorem startNext_vec {t : State} {i : CoreId} {e : QEntry} (hh : headEntry t i .vec = some e) (hoff : e.off = false)
    (hop : 0x40 ≤ e.op) (hquench : quenched t = false) (hq : (coreAt t i).queue .vec = [e]) (hst : e.started = false)
    (hu : updateHeld t i e = false) (hg : (coreAt t i).veGrant = true) : (startNext t i .vec).1 =
      runVec (modCore (markStarted t i .vec e.qid true) i fun c => { c with veGrant := false }) i e := by
  have hsig : e.op ≠ opSignal := by unfold opSignal; omega
  have hwait : e.op ≠ opWait := by unfold opWait; omega
  have htile : isTile e = false := by
    have h : ¬ e.op ≤ opAdrain := by unfold opAdrain; omega
    simp [isTile, h]
  have hlater : ((coreAt t i).queue .vec).any writesLater = false := by simp [hq, writesLater, hst]
  have hmay : veMay t i = true := by simp [veMay, hg]
  simp [startNext, hh, hquench, hoff, hsig, hwait, htile, hlater, hu, hmay]

/-- The vector engine runs the entry of a form whose queue is empty and whose start is granted. -/
theorem issue_vecGo (hv : x.q = .vec) (hop : 0x40 ≤ x.op) (hgo : vecGo s x = true) (ecc : Bool)
    (hu : updateHeld (x.taken s (x.entry s false ecc)) x.i (x.entry s false ecc) = false) :
    x.issue s ecc = runVec (setCore s x.i (vecStarted s x ecc)) x.i (x.entry s false ecc) := by
  obtain ⟨hqgo, hgrant⟩ := Bool.and_eq_true_iff.1 hgo
  have hi := (queueGo_iff.1 hqgo).1
  have hz := issues_sized hi
  have hquench := issues_quenched hi
  have hh := headEntry_taken (x := x) (e := x.entry s false ecc) hz rfl
  have hq := queue_taken (x := x) hz (x.entry s false ecc)
  have hmark := markStarted_taken (x := x) hz (x.entry s false ecc) true
  rw [hv] at hh hq hmark
  rw [issue_queueGo (placed_of_queue (by rw [hv]; decide)) hqgo, hv,
    startNext_vec hh rfl hop hquench hq rfl hu ((coreAt_entry_veGrant hz _).trans hgrant), hmark, QForm.taken,
    modCore_setCore (core_lt hz x.i)]
  rfl

end

end Sys2Proof.Machine
end

section
/-! PROOFS. SIGNAL, WAIT, FENCE and DONE: at the sequencer, and at the head of a queue (R183, R186 to R189). -/

namespace Sys2Proof.Machine

section
variable {s : State} {i : CoreId} {k : CtxId} {f : Fields}

/-! ## At the sequencer -/

/-- A change of the core and its completion, when the signal has room after the change. -/
theorem completeCtl_modCore_answers (g : Core → Core) (hz : sized s = true) (hr : sigRoom (modCore s i g) i k f = true) :
    coreOnly s (completeCtl (modCore s i g) i k f) i ∧
    coreAt (completeCtl (modCore s i g) i k f) i = ctlEnd s i k f (g (coreAt s i)) := by
  have hl := core_lt hz i
  rw [completeCtl_go (by rw [modCore_cores_length]; exact sized_cores hz) hr, modCore_modCore hl]
  exact ⟨coreOnly_modCore hl _, by rw [coreAt_modCore hl]; rfl⟩

theorem modCore_answers (g : Core → Core) (hz : sized s = true) :
    coreOnly s (modCore s i g) i ∧ coreAt (modCore s i g) i = g (coreAt s i) :=
  ⟨coreOnly_modCore (core_lt hz i) g, coreAt_modCore (core_lt hz i) g⟩

theorem signalNow_room (h : readSc s i (physSc (isSplit s i) k (sigCounter f)) + sigAmount f ≤ 0xFFFFFFFF) :
    signalNow s i k f = completeCtl (writeSc s i (physSc (isSplit s i) k (sigCounter f))
      (readSc s i (physSc (isSplit s i) k (sigCounter f)) + sigAmount f)) i k f := if_neg (by omega)

theorem waitNow_none (h : sigAmount f = 0) : waitNow s i k f = completeCtl s i k f := if_pos h

/-- The WAIT that stands at a place, from a context. -/
def waitAt (s : State) (i : CoreId) (k : CtxId) (f : Fields) (p : WaitPlace) : Held :=
  ⟨p, physSc (isSplit s i) k (sigCounter f), sigAmount f, s.time.ns, 0, f.sigen, f.sigc.toNat, (ctxAt s i k).pc, k⟩

theorem waitNow_holds (hz : sized s = true) (h : sigAmount f ≠ 0) : waitNow s i k f = modCore s i fun c =>
    { (c.setCtx k { (ctxAt s i k) with hold := .wait, stat := .held }) with
      heldWaits := (c.setCtx k { (ctxAt s i k) with hold := .wait, stat := .held }).heldWaits ++ [waitAt s i k f (.seq k)] } := by
  rw [waitNow, if_neg h, holdWait, setCtxAt, modCore_modCore (core_lt hz i)]
  rfl

end

/-! ## At the head of a queue -/

/-- The form of SIGNAL and WAIT of a queue. -/
def sigForm (s : State) (i : CoreId) (k : CtxId) (op : Nat) (f : Fields) : QForm :=
  ⟨i, k, sigTarget s i k f, op, f, sigShape, sigLegal s i f, fun _ => none⟩

section
variable {s : State} {i : CoreId} {k : CtxId} {f : Fields}

theorem exec_signal_queue (h : sigQueue f ≠ 0) : exec (.signal i k f) s = .next ((sigForm s i k opSignal f).issue s false) :=
  congrArg Host.Outcome.next (if_neg h)

theorem exec_wait_queue (h : sigQueue f ≠ 0) : exec (.wait i k f) s = .next ((sigForm s i k opWait f).issue s false) :=
  congrArg Host.Outcome.next (if_neg h)

theorem placed_sigForm (op : Nat) : (sigForm s i k op f).placed s := by
  show sigTarget s i k f = .anv1 → _
  unfold sigTarget laneOf
  split
  · split
    next h => exact fun _ => (Bool.and_eq_true _ _ ▸ h).1
    next => exact nofun
  all_goals exact nofun

/-- The counter that the instruction names is one of the core's sixteen. -/
theorem physSc_lt (h : sigLegal s i f = true) : physSc (isSplit s i) k (sigCounter f) < 16 := by
  have hc : sigCounter f < 16 := Nat.mod_lt _ (by decide)
  have hk := k.isLt
  simp only [sigLegal, Bool.and_eq_true, Bool.or_eq_true, Bool.not_eq_true', decide_eq_true_eq] at h
  unfold physSc
  split
  next hs =>
    have := h.2.resolve_left (by rw [hs]; decide)
    omega
  next => exact hc

theorem queued_sc (x : QForm) (e : QEntry) (c : Core) : (queued x e c).sc = c.sc := by
  rw [queued, stepped, setCtx_sc]
  cases x.q <;> rfl

theorem queued_heldWaits (x : QForm) (e : QEntry) (c : Core) : (queued x e c).heldWaits = c.heldWaits := by
  rw [queued, stepped, setCtx_heldWaits]
  cases x.q <;> rfl

theorem queued_ctx (x : QForm) (e : QEntry) (c : Core) : (queued x e c).ctx x.k = (stepped x.k c).ctx x.k := by
  have h : ({ c.setQueue x.q [e] with nextQid := c.nextQid + 1 } : Core).ctx x.k = c.ctx x.k := ctx_setQueue c x.q [e] x.k
  rw [queued, stepped, ctx_setCtx, h, stepped, ctx_setCtx]

theorem readSc_setCore (hl : i.val < s.cores.length) {c : Core} {sc : List Word32} (h : c.sc = sc) (n : Nat) :
    readSc (setCore s i c) i n = (sc.getD n 0).toNat := by
  rw [readSc, coreAt_setCore hl, h]

/-- What a counter reads once an amount is added to one of them. -/
theorem readSc_added (hz : sized s = true) {m a : Nat} (hm : m < 16) (hroom : readSc s i m + a ≤ 0xFFFFFFFF) (n : Nat) :
    (((coreAt s i).sc.set m (BitVec.ofNat 32 (readSc s i m + a))).getD n 0).toNat =
      if n = m then readSc s i n + a else readSc s i n := by
  have hlen := (coreSized_iff.1 (sized_core hz i)).2.1
  rw [List.getD_eq_getElem?_getD, List.getElem?_set]
  by_cases h : n = m
  · subst h
    rw [if_pos rfl, if_pos (by omega), if_pos rfl]
    simp only [Option.getD_some, BitVec.toNat_ofNat]
    omega
  · rw [if_neg (Ne.symm h), if_neg h, readSc, List.getD_eq_getElem?_getD]

theorem readSc_taken {x : QForm} (hz : sized s = true) (e : QEntry) (n : Nat) : readSc (x.taken s e) x.i n = readSc s x.i n := by
  rw [readSc, coreAt_taken hz, queued_sc, readSc]

end

/-- A core with a value in a counter. -/
def countSet (n v : Nat) (c : Core) : Core := { c with sc := c.sc.set n (BitVec.ofNat 32 v) }

theorem writeSc_eq (s : State) (i n v : Nat) : writeSc s i n v = modCore s i (countSet n v) := rfl

theorem countSet_queue (n v : Nat) (c : Core) (q : Queue) : (countSet n v c).queue q = c.queue q := by cases q <;> rfl

/-- A core on which one more WAIT is held. -/
def waitAdded (h : Held) (c : Core) : Core := { c with heldWaits := c.heldWaits ++ [h] }

theorem waitAdded_queue (h : Held) (c : Core) (q : Queue) : (waitAdded h c).queue q = c.queue q := by cases q <;> rfl

/-- A core whose SIGNAL has left the head of its queue: the counter holds `v`, the queue nothing. -/
def signalLeft (x : QForm) (e : QEntry) (n v : Nat) (c : Core) : Core := (countSet n v (queued x e c)).setQueue x.q []

theorem setQueue_sc (c : Core) (q : Queue) (l : List QEntry) : (c.setQueue q l).sc = c.sc := by cases q <;> rfl

theorem signalLeft_sc (x : QForm) (e : QEntry) (n v : Nat) (c : Core) : (signalLeft x e n v c).sc = c.sc.set n (BitVec.ofNat 32 v) := by
  rw [signalLeft, setQueue_sc, countSet, queued_sc]

theorem signalLeft_queue (x : QForm) (e : QEntry) (n v : Nat) (c : Core) : (signalLeft x e n v c).queue x.q = [] :=
  queue_setQueue ..

theorem signalLeft_ctx (x : QForm) (e : QEntry) (n v : Nat) (c : Core) :
    (signalLeft x e n v c).ctx x.k = (stepped x.k c).ctx x.k := by
  rw [signalLeft, ctx_setQueue, ← queued_ctx x e c]
  rfl

section
variable {s : State} {x : QForm}

/-- SIGNAL at the head of its queue adds and leaves. -/
theorem startNext_signal (hz : sized s = true) {e : QEntry} {n : Nat} (hop : e.op = opSignal) (hst : e.started = false)
    (hoff : e.off = false) (hsig : e.f.sigen = false) (hquench : quenched s = false) (hsave : coreSaving s x.i = false)
    (hn : n = physSc (isSplit s x.i) e.ctx (sigCounter e.f)) (hroom : readSc s x.i n + sigAmount e.f ≤ 0xFFFFFFFF) :
    (startNext (x.taken s e) x.i x.q).1 = setCore s x.i (signalLeft x e n (readSc s x.i n + sigAmount e.f) (coreAt s x.i)) := by
  subst hn
  have hl := core_lt hz x.i
  have hsplit : isSplit (x.taken s e) x.i = isSplit s x.i := rfl
  rw [startNext, headEntry_taken hz hst]
  simp only [quenched_taken, hquench, coreSaving_taken hz, hsave, Bool.false_and, Bool.or_self, Bool.false_eq_true, if_false,
    hoff, hop, if_true, hsplit, readSc_taken hz, if_neg (not_lt.2 hroom), entrySignal, signalDone, hsig]
  rw [removeEntry, writeSc_eq, QForm.taken, modCore_setCore hl, modCore_setCore hl, countSet_queue, queued_queue]
  simp [signalLeft]

/-- WAIT with an amount is held at the head of its queue. -/
theorem startNext_wait (hz : sized s = true) {e : QEntry} (hop : e.op = opWait) (hst : e.started = false)
    (hoff : e.off = false) (hquench : quenched s = false) (hsave : coreSaving s x.i = false) (hamt : sigAmount e.f ≠ 0)
    (hheld : (coreAt s x.i).heldWaits.all (·.place != .inQueue x.q) = true) :
    (startNext (x.taken s e) x.i x.q).1 = setCore s x.i (waitAdded ⟨.inQueue x.q, physSc (isSplit s x.i) e.ctx
      (sigCounter e.f), sigAmount e.f, s.time.ns, 0, e.f.sigen, e.f.sigc.toNat, e.pc, e.ctx⟩ (queued x e (coreAt s x.i))) := by
  have hwait : waitHeld (x.taken s e) x.i (.inQueue x.q) = false := by
    rw [waitHeld, coreAt_taken hz, queued_heldWaits]
    simpa using hheld
  have hsplit : isSplit (x.taken s e) x.i = isSplit s x.i := rfl
  have hnow : (x.taken s e).now = s.time.ns := rfl
  have hsig : ¬ opWait = opSignal := by decide
  rw [startNext, headEntry_taken hz hst]
  simp only [quenched_taken, hquench, coreSaving_taken hz, hsave, Bool.false_and, Bool.or_self, Bool.false_eq_true, if_false,
    hoff, hop, hsig, if_true, if_neg hamt, hwait, hsplit]
  rw [holdWait, hnow, QForm.taken, modCore_setCore (core_lt hz x.i)]
  rfl

end

/-- Settles O3: SIGNAL, WAIT, FENCE and DONE at the sequencer, then SIGNAL and WAIT of a queue. -/
theorem signalsAndWaits : Obligations.SignalsAndWaits := by
  unfold Obligations.SignalsAndWaits
  refine ⟨fun i k f s => ⟨fun h hq hroom hr => ?_, fun h hq ha => ?_, fun h hq ha => ?_, fun h => ?_, fun h => ?_⟩,
    fun i k f s h hq hempty hsave => ⟨fun hsig hroom => ?_, fun ha hheld => ?_⟩⟩
  · refine .of rfl ((if_pos hq).trans ((issueCtl_go h).trans (signalNow_room hroom))) ?_
    exact completeCtl_modCore_answers _ (issues_sized h) hr
  · obtain ⟨hz, hr, hgo⟩ := issueCtl_ctlGo h fun s => waitNow s i k f
    exact .of rfl ((if_pos hq).trans (hgo.trans (waitNow_none ha))) (completeCtl_answers hz hr)
  · have hz := issues_sized h
    refine .of rfl ((if_pos hq).trans ((issueCtl_go h).trans (waitNow_holds hz ha))) ?_
    obtain ⟨honly, hcore⟩ := modCore_answers (i := i) (fun c =>
      { (c.setCtx k { (ctxAt s i k) with hold := .wait, stat := .held }) with
        heldWaits := (c.setCtx k { (ctxAt s i k) with hold := .wait, stat := .held }).heldWaits ++
          [waitAt s i k f (.seq k)] }) hz
    refine ⟨honly, hcore.trans ?_⟩
    simp only [setCtx_heldWaits]
    rfl
  · exact .of rfl (issueCtl_go h) (modCore_answers _ (issues_sized h))
  · exact .of rfl (issueCtl_go h) (modCore_answers _ (issues_sized h))
  · have hz := issues_sized h
    have hl := core_lt hz i
    have hphys := physSc_lt (k := k) (issues_iff.1 h).2.2.2.1
    refine .of (exec_signal_queue hq) ((issue_enters (placed_sigForm _) h hempty rfl false).trans
      (startNext_signal hz rfl rfl rfl hsig (issues_quenched h) hsave rfl hroom)) ⟨?_, ?_, fun n => ?_, ?_⟩
    · unfold coreOnly
      rw [show (sigForm s i k opSignal f).i = i from rfl, coreAt_setCore hl]
      rfl
    · exact (congrArg (Core.queue · _) (coreAt_setCore hl _)).trans (signalLeft_queue ..)
    · exact (readSc_setCore hl (signalLeft_sc ..) n).trans (readSc_added hz hphys hroom n)
    · exact (congrArg (Core.ctx · k) (coreAt_setCore hl _)).trans (signalLeft_ctx (sigForm s i k opSignal f) ..)
  · have hz := issues_sized h
    have hl := core_lt hz i
    refine .of (exec_wait_queue hq) ((issue_enters (placed_sigForm _) h hempty rfl false).trans
      (startNext_wait hz rfl rfl rfl (issues_quenched h) hsave ha hheld)) ⟨?_, ?_, ?_, ?_⟩
    · unfold coreOnly
      rw [show (sigForm s i k opWait f).i = i from rfl, coreAt_setCore hl]
      rfl
    · have hqueue := congrArg (fun c : Core => (c.queue (sigTarget s i k f)).length) (coreAt_setCore hl (waitAdded
        (waitAt s i k f (.inQueue (sigTarget s i k f))) (queued (sigForm s i k opWait f)
          ((sigForm s i k opWait f).entry s false) (coreAt s i))))
      exact hqueue.trans (by rw [waitAdded_queue]; exact congrArg List.length (queued_queue (sigForm s i k opWait f) ..))
    · exact (congrArg Core.heldWaits (coreAt_setCore hl _)).trans (congrArg (· ++ _) (queued_heldWaits ..))
    · exact (congrArg (Core.ctx · k) (coreAt_setCore hl _)).trans (queued_ctx (sigForm s i k opWait f) ..)

end Sys2Proof.Machine
end

section
/-! PROOFS. A false predicate: a control instruction completes, a queued one enters as an empty entry (R182). -/

namespace Sys2Proof.Machine

/-! ## One form for the control instructions -/

theorem exec_ctlForm {c : Instr} {s : State} {i : CoreId} {k : CtxId} {f : Fields} {sh : Shape} {legal : Bool}
    (h : ctlForm s c = some (i, k, f, sh, legal)) : ∃ body, exec c s = .next (issueCtl s i k f sh legal body) := by
  cases c
  case signal | wait =>
    simp only [ctlForm] at h
    split at h <;> cases h
    next hq => exact ⟨_, congrArg Host.Outcome.next (if_pos hq)⟩
  all_goals
    simp only [ctlForm, reduceCtorEq, Option.some.injEq, Prod.mk.injEq] at h <;>
      (obtain ⟨rfl, rfl, rfl, rfl, rfl⟩ := h; exact ⟨_, rfl⟩)

/-! ## One form for the instructions that enter a queue -/

theorem queueForm_cases {c : Instr} {s : State} {x : QForm} (h : queueForm s c = some x) :
    tileOf s c = some x ∨ laneOpOf s c = some x ∨ vecOf s c = some x ∨ moveOf c = some x := by
  unfold queueForm at h
  cases ht : tileOf s c with
  | some y => rw [ht] at h; exact .inl h
  | none =>
    cases hl : laneOpOf s c with
    | some y => rw [ht, hl] at h; exact .inr (.inl h)
    | none =>
      cases hv : vecOf s c with
      | some y => rw [ht, hl, hv] at h; exact .inr (.inr (.inl h))
      | none => rw [ht, hl, hv] at h; exact .inr (.inr (.inr h))

theorem laneOpOf_op {c : Instr} {s : State} {x : QForm} (h : laneOpOf s c = some x) : 0x40 ≤ x.op ∧ x.op ≤ 0x4F := by
  cases c <;> simp only [laneOpOf, reduceCtorEq, Option.some.injEq] at h <;> subst h <;>
    exact ⟨Nat.le_of_ble_eq_true rfl, Nat.le_of_ble_eq_true rfl⟩

theorem vecOf_op {c : Instr} {s : State} {x : QForm} (h : vecOf s c = some x) : 0x40 ≤ x.op ∧ x.op ≤ 0x5E := by
  cases c <;> simp only [vecOf, reduceCtorEq, Option.some.injEq] at h <;> subst h <;>
    exact ⟨Nat.le_of_ble_eq_true rfl, Nat.le_of_ble_eq_true rfl⟩

theorem moveOf_op {c : Instr} {x : QForm} (h : moveOf c = some x) : 0x80 ≤ x.op := by
  cases c <;> simp only [moveOf, reduceCtorEq, Option.some.injEq] at h <;> subst h <;>
    exact Nat.le_of_ble_eq_true rfl

theorem told_of_op {x : QForm} (h : x.op ≠ opAmac) (s t : State) : x.told s t = t := if_neg h

/-- Every instruction of a queue issues by its form, and AMAC tells its anvils. -/
theorem exec_queueForm {c : Instr} {s : State} {x : QForm} (h : queueForm s c = some x) :
    x.placed s ∧ ∃ ecc, exec c s = .next (x.told s (x.issue s ecc)) := by
  rcases queueForm_cases h with h | h | h | h
  · exact ⟨placed_tileOf h, false, exec_tileOf h⟩
  · refine ⟨placed_of_queue (by rw [laneOpOf_queue h]; decide), false, ?_⟩
    rw [told_of_op (by have := laneOpOf_op h; unfold opAmac; omega)]
    exact exec_laneOpOf h
  · refine ⟨placed_of_queue (by rw [vecOf_queue h]; decide), eccOf c, ?_⟩
    rw [told_of_op (by have := vecOf_op h; unfold opAmac; omega)]
    exact exec_vecOf h
  · refine ⟨placed_of_queue (by rcases moveOf_queue h with h | h <;> rw [h] <;> decide), false, ?_⟩
    rw [told_of_op (by have := moveOf_op h; unfold opAmac; omega)]
    exact exec_moveOf h

/-- AMAC tells its anvils of no pass when its queue holds none. -/
theorem told_of_none {x : QForm} {s t : State} (h : ∀ e ∈ (coreAt t x.i).queue x.q, e.off = true) : x.told s t = t := by
  unfold QForm.told
  split
  · have hnone : newPass s t x.i.val x.q = none := by
      rw [newPass, List.find?_eq_none]
      intro e he
      simp [h e he]
    rw [hnone]
  · rfl

/-- Settles O4: the control instruction completes, and the queued one stands as an empty entry that is over. -/
theorem falsePredicates : Obligations.FalsePredicates := by
  unfold Obligations.FalsePredicates
  refine ⟨fun c s i k f sh legal hform hz hissue hl hpred hr => ?_, fun c s x hform hz hissue hl hq hsave hpred => ?_⟩
  · obtain ⟨body, hexec⟩ := exec_ctlForm hform
    refine .of hexec (?_ : _ = completeCtl s i k f) (completeCtl_answers hz hr)
    simp [issueCtl, hissue, hl, hpred]
  · obtain ⟨hp, ecc, hexec⟩ := exec_queueForm hform
    refine .of hexec (?_ : _ = x.taken s { x.entry s true with started := true, finished := true })
      ⟨coreOnly_taken hz _, coreAt_taken hz _⟩
    rw [issue_off hp hz hissue hl hq hsave hpred]
    refine told_of_none fun e he => ?_
    rw [queue_taken hz, List.mem_singleton] at he
    rw [he]
    rfl

end Sys2Proof.Machine
end

section
/-! PROOFS. Refusals at issue: what a fault records, and the codes that the checks of operands raise (R181, R189 to R192, R200,
R204, R205). -/

namespace Sys2Proof.Machine

/-! ## The core of a context that is abandoned -/

theorem setAnvil_ctx (c : Core) (a : Nat) (x : Anvil) : (c.setAnvil a x).ctx = c.ctx := rfl

theorem clearPartition_frame (c : Core) (as : List Nat) (p : Bool) :
    clearPartition c as p = { c with anvils := (clearPartition c as p).anvils } := by
  unfold clearPartition
  induction as generalizing c with
  | nil => rfl
  | cons a as ih => rw [List.foldl_cons, ih]; rfl

theorem clearPartition_queue (c : Core) (as : List Nat) (p : Bool) (q : Queue) : (clearPartition c as p).queue q = c.queue q := by
  rw [clearPartition_frame]; cases q <;> rfl

theorem clearPartition_ctx (c : Core) (as : List Nat) (p : Bool) (k : CtxId) : (clearPartition c as p).ctx k = c.ctx k := by
  rw [clearPartition_frame]; rfl

theorem discardEntries_nil {c : Core} {q : Queue} (h : c.queue q = []) (k : CtxId) : (discardEntries c k).queue q = [] := by
  cases q <;> exact (congrArg (List.filter _) h).trans rfl

theorem dropHeld_queue (c : Core) (k : CtxId) (q : Queue) : (dropHeld c k).queue q = c.queue q := by cases q <;> rfl

theorem ctx_setCtx_ne {k o : CtxId} (h : k ≠ o) (c : Core) (x : Ctx) : (c.setCtx o x).ctx k = c.ctx k := by
  unfold Core.setCtx Core.ctx
  by_cases hk : k = 0 <;> by_cases ho : o = 0
  · exact absurd (hk.trans ho.symm) h
  · simp [hk, ho]
  · simp [hk, ho]
  · exact absurd ((Fin.eq_one_of_ne_zero k hk).trans (Fin.eq_one_of_ne_zero o ho).symm) h

theorem ctx_ne_other : ∀ k : CtxId, k ≠ if k = 0 then 1 else 0 := by decide

theorem abortOther_queue_nil {c : Core} {q : Queue} (h : c.queue q = []) (o : CtxId) : (abortOther c o).queue q = [] := by
  have hd : (clearPartition (discardEntries (dropHeld c o) o) (partition true o) true).queue q = [] := by
    rw [clearPartition_queue]
    exact discardEntries_nil ((dropHeld_queue ..).trans h) o
  unfold abortOther
  split
  · rw [← hd, ← setCtx_queue (clearPartition (discardEntries (dropHeld c o) o) (partition true o) true) o]
    cases q <;> rfl
  · split
    · rw [setCtx_queue, h]
    · exact h

theorem abortOther_ctx {k o : CtxId} (h : k ≠ o) (c : Core) : (abortOther c o).ctx k = c.ctx k := by
  have hd : (clearPartition (discardEntries (dropHeld c o) o) (partition true o) true).ctx k = c.ctx k := clearPartition_ctx ..
  unfold abortOther
  split
  · rw [← hd, ← ctx_setCtx_ne h (clearPartition (discardEntries (dropHeld c o) o) (partition true o) true)]
    rfl
  · split
    · exact ctx_setCtx_ne h ..
    · rfl

/-- The core that `abortCore` closes, with its passes gone. -/
def abortBase (split : Bool) (c : Core) (k : CtxId) : Core :=
  let c := clearPartition (discardEntries (dropHeld c k) k) (partition split k) true
  if split ∧ k = 1 then { c with pass1 := none }
  else if split then { c with pass0 := none }
  else { c with pass0 := none, pass1 := none }

/-- The context that is abandoned. -/
def abortedCtx (x : Ctx) : Ctx := { x with stat := .aborting, hold := .none, yieldNow := false, mons := [], placed := [] }

theorem abortCore_frame (split : Bool) (c : Core) (k : CtxId) (code : Nat) (residue : Bool) : ∃ e p,
    abortCore split c k code residue =
      { (if split then abortOther ((abortBase split c k).setCtx k (abortedCtx ((abortBase split c k).ctx k))) (if k = 0 then 1 else 0)
         else (abortBase split c k).setCtx k (abortedCtx ((abortBase split c k).ctx k))) with
        ended := e, endedParts := p, preq := none } := ⟨_, _, rfl⟩

theorem abortBase_queue_nil {c : Core} {q : Queue} (h : c.queue q = []) (split : Bool) (k : CtxId) :
    (abortBase split c k).queue q = [] := by
  have hd : (clearPartition (discardEntries (dropHeld c k) k) (partition split k) true).queue q = [] := by
    rw [clearPartition_queue]
    exact discardEntries_nil ((dropHeld_queue ..).trans h) k
  rw [← hd]
  unfold abortBase
  cases q <;> (dsimp only; repeat' split) <;> rfl

theorem abortCore_queue_nil {c : Core} {q : Queue} (h : c.queue q = []) (split : Bool) (k : CtxId) (code : Nat) (residue : Bool) :
    (abortCore split c k code residue).queue q = [] := by
  obtain ⟨e, p, heq⟩ := abortCore_frame split c k code residue
  have hset : ((abortBase split c k).setCtx k (abortedCtx ((abortBase split c k).ctx k))).queue q = [] := by
    rw [setCtx_queue, abortBase_queue_nil h]
  have hall : (if split then abortOther ((abortBase split c k).setCtx k (abortedCtx ((abortBase split c k).ctx k)))
      (if k = 0 then 1 else 0) else (abortBase split c k).setCtx k (abortedCtx ((abortBase split c k).ctx k))).queue q = [] := by
    split
    · exact abortOther_queue_nil hset _
    · exact hset
  rw [heq, ← hall]
  cases q <;> rfl

theorem abortCore_stat (split : Bool) (c : Core) (k : CtxId) (code : Nat) (residue : Bool) :
    ((abortCore split c k code residue).ctx k).stat = .aborting := by
  obtain ⟨e, p, heq⟩ := abortCore_frame split c k code residue
  have hall : (if split then abortOther ((abortBase split c k).setCtx k (abortedCtx ((abortBase split c k).ctx k)))
      (if k = 0 then 1 else 0) else (abortBase split c k).setCtx k (abortedCtx ((abortBase split c k).ctx k))).ctx k =
        abortedCtx ((abortBase split c k).ctx k) := by
    split
    · rw [abortOther_ctx (ctx_ne_other k), ctx_setCtx]
    · rw [ctx_setCtx]
  rw [heq]
  exact congrArg Ctx.stat hall

/-! ## What a fault shows -/

section
variable {s : State} {i : CoreId} {k : CtxId}

/-- The state whose fault is about to be recorded. -/
def faultNoted (s : State) (i : Nat) (k : CtxId) (queue code pc : Nat) (precise : Bool) (residue : Bool) : State :=
  putF (putF (putF (putF (putF (modCore s i fun c => abortCore (isSplit s i) c k code residue)
    (CORE_FAULT i) CORE_FAULT_PRECISE (if precise then 1 else 0)) (CORE_FAULT i) CORE_FAULT_CTX k.val)
    (CORE_FAULT i) CORE_FAULT_QUEUE queue) (CORE_FAULT i) CORE_FAULT_CODE code) (CORE_FAULTPC i) CORE_FAULTPC_PC pc

theorem faultAbort_eq (h : ((coreAt s i).ctx k).over = false) (queue code pc : Nat) (precise residue : Bool) : ∃ fld body,
    faultAbort s i k queue code pc precise residue =
      makeRecord (satF (faultNoted s i k queue code pc precise residue) (CORE_FAULTCNT i) fld 1) (srcCore i) 0x10A body :=
  ⟨_, _, if_neg (by simp [h])⟩

theorem coreAt_faultAbort (hz : sized s = true) (h : ((coreAt s i).ctx k).over = false) (queue code pc : Nat) (precise residue : Bool) :
    coreAt (faultAbort s i k queue code pc precise residue) i = abortCore (isSplit s i) (coreAt s i) k code residue := by
  obtain ⟨fld, body, heq⟩ := faultAbort_eq h queue code pc precise residue
  rw [heq, coreAt_congr (makeRecord_cores ..), coreAt_congr (satF_cores ..), faultNoted, coreAt_congr (putF_cores ..),
    coreAt_congr (putF_cores ..), coreAt_congr (putF_cores ..), coreAt_congr (putF_cores ..), coreAt_congr (putF_cores ..),
    coreAt_modCore (core_lt hz i)]

theorem coreRegsRec_faultAbort (hz : sized s = true) (h : ((coreAt s i).ctx k).over = false) (queue code pc : Nat)
    (precise residue : Bool) : coreRegsRec s (faultAbort s i k queue code pc precise residue) i := by
  obtain ⟨fld, body, heq⟩ := faultAbort_eq h queue code pc precise residue
  have hcore := coreAt_faultAbort hz h queue code pc precise residue
  have hcores : (faultAbort s i k queue code pc precise residue).cores =
      s.cores.set i (abortCore (isSplit s i) (coreAt s i) k code residue) := by
    rw [heq, makeRecord_cores, satF_cores, faultNoted, putF_cores, putF_cores, putF_cores, putF_cores, putF_cores]
    rfl
  apply State.ext_fields
  case hcores => rw [hcore, hcores]
  case hregs | hrecorder => rfl
  all_goals rw [heq]; simp -implicitDefEqProofs [faultNoted]

theorem getF_faultAbort (h : ((coreAt s i).ctx k).over = false) (queue code pc : Nat) (precise residue : Bool) {a : Nat}
    (ha : a ≠ CORE_FAULTCNT i) (f : Fld) :
    getF (faultAbort s i k queue code pc precise residue) a f = getF (faultNoted s i k queue code pc precise residue) a f := by
  obtain ⟨fld, body, heq⟩ := faultAbort_eq h queue code pc precise residue
  rw [heq, getF_makeRecord, satF, getF_putF_ne ha]

/-- A fault of a context that is not over: its record in the registers of its core. -/
theorem faultAbort_shows (hz : sized s = true) (h : ((coreAt s i).ctx k).over = false) {queue code : Nat} (hq : queue < 8)
    (hc : code < 256) (pc : Nat) (precise residue : Bool) :
    (ctxAt (faultAbort s i k queue code pc precise residue) i k).stat = .aborting ∧
    getF (faultAbort s i k queue code pc precise residue) (CORE_FAULT i) CORE_FAULT_CODE = code ∧
    getF (faultAbort s i k queue code pc precise residue) (CORE_FAULT i) CORE_FAULT_QUEUE = queue ∧
    getF (faultAbort s i k queue code pc precise residue) (CORE_FAULTPC i) CORE_FAULTPC_PC = pc % 2 ^ 21 ∧
    coreRegsRec s (faultAbort s i k queue code pc precise residue) i := by
  have hne1 : CORE_FAULT i ≠ CORE_FAULTCNT i := by unfold CORE_FAULT CORE_FAULTCNT; omega
  have hne2 : CORE_FAULTPC i ≠ CORE_FAULTCNT i := by unfold CORE_FAULTPC CORE_FAULTCNT; omega
  have hne3 : CORE_FAULT i ≠ CORE_FAULTPC i := by unfold CORE_FAULT CORE_FAULTPC; omega
  refine ⟨?_, ?_, ?_, ?_, coreRegsRec_faultAbort hz h ..⟩
  · rw [ctxAt, coreAt_faultAbort hz h, abortCore_stat]
  · rw [getF_faultAbort h _ _ _ _ _ hne1, faultNoted, getF_putF_ne hne3, getF_putF (by decide) (by decide)]
    exact Nat.mod_eq_of_lt hc
  · rw [getF_faultAbort h _ _ _ _ _ hne1, faultNoted, getF_putF_ne hne3,
      getF_putF_apart (by decide) (by decide) (by decide) (by decide), getF_putF (by decide) (by decide)]
    exact Nat.mod_eq_of_lt hq
  · rw [getF_faultAbort h _ _ _ _ _ hne2, faultNoted]
    exact getF_putF (by decide) (by decide) ..

theorem live_iff : live s i k = true ↔ sized s = true ∧ canIssue s i k = true ∧ (ctxAt s i k).over = false := by
  simp [live, and_assoc]

/-- A fault at issue is precise, of QUEUE 0. -/
theorem issueFault_faulted (h : live s i k = true) {code : Nat} (hc : code < 256) :
    faulted s (issueFault s i k code) i k 0 code := by
  obtain ⟨hz, -, hover⟩ := live_iff.1 h
  exact faultAbort_shows hz hover (by decide) hc ..

theorem issueFault_queue_nil (h : live s i k = true) {q : Queue} (hq : (coreAt s i).queue q = []) (code : Nat) :
    (coreAt (issueFault s i k code) i).queue q = [] := by
  obtain ⟨hz, -, hover⟩ := live_iff.1 h
  rw [issueFault, coreAt_faultAbort hz hover, abortCore_queue_nil hq]

end

/-! ## The codes that checks raise -/

/-- A check that raises codes of CORE_FAULT alone. -/
structure FaultCode (o : Option Nat) : Prop where
  lt : ∀ c, o = some c → c < 256

theorem FaultCode.none : FaultCode none := ⟨nofun⟩

theorem FaultCode.faultIf (b : Bool) {c : Nat} (h : c < 256) : FaultCode (faultIf b c) := by
  refine ⟨fun x hx => ?_⟩
  unfold Machine.faultIf at hx
  split at hx <;> cases hx
  exact h

theorem FaultCode.csCheck (off len al : Nat) : FaultCode (csCheck off len al) := by
  refine ⟨fun x hx => ?_⟩
  unfold Machine.csCheck at hx
  split at hx
  · cases hx; decide
  · split at hx <;> cases hx
    decide

theorem FaultCode.firstFault {l : List (Option Nat)} (h : ∀ o ∈ l, FaultCode o) : FaultCode (firstFault l) := by
  induction l with
  | nil => exact .none
  | cons o l ih =>
    cases o with
    | none => exact ih fun o ho => h o (List.mem_cons_of_mem _ ho)
    | some c => exact h _ List.mem_cons_self

theorem FaultCode.firstFault1 {a : Option Nat} (ha : FaultCode a) : FaultCode (Machine.firstFault [a]) :=
  .firstFault (by simpa using ha)

theorem FaultCode.firstFault2 {a b : Option Nat} (ha : FaultCode a) (hb : FaultCode b) : FaultCode (Machine.firstFault [a, b]) :=
  .firstFault (by simpa using ⟨ha, hb⟩)

theorem FaultCode.firstFault3 {a b c : Option Nat} (ha : FaultCode a) (hb : FaultCode b) (hc : FaultCode c) :
    FaultCode (Machine.firstFault [a, b, c]) := .firstFault (by simpa using ⟨ha, hb, hc⟩)

theorem FaultCode.groupsCheck (s : State) (i : Nat) (f : Fields) (gs : List (BitVec 6 × Nat)) :
    FaultCode (groupsCheck s i f gs) := .faultIf _ (by decide)

theorem FaultCode.tileCheck (s : State) (i : Nat) (k : CtxId) (e : QEntry) : FaultCode (tileCheck s i k e) := by
  refine ⟨fun c hc => ?_⟩
  unfold Machine.tileCheck at hc
  split at hc <;> cases hc
  decide

theorem FaultCode.rawRowsCheck (m base stride : Nat) : FaultCode (rawRowsCheck m base stride) :=
  .firstFault2 (.faultIf _ (by decide)) (.faultIf _ (by decide))

theorem FaultCode.slotsCheck (m base : Nat) : FaultCode (slotsCheck m base) :=
  .firstFault2 (.faultIf _ (by decide)) (.faultIf _ (by decide))

theorem FaultCode.aloadCheck (e : QEntry) : FaultCode (aloadCheck e) := by
  unfold Machine.aloadCheck
  split
  · exact .slotsCheck ..
  · exact .rawRowsCheck ..

theorem FaultCode.adrainFillCheck (e : QEntry) : FaultCode (adrainFillCheck e) := by
  unfold Machine.adrainFillCheck
  split
  · exact .rawRowsCheck ..
  · exact .slotsCheck ..
  · exact .none

theorem FaultCode.adrainCheck (e : QEntry) : FaultCode (adrainCheck e) := by
  refine .firstFault2 ?_ (.adrainFillCheck e)
  split
  · exact .csCheck ..
  · exact .rawRowsCheck ..

theorem FaultCode.putCheck (e : QEntry) (a b : Word64) : FaultCode (putCheck e a b) := by
  unfold Machine.putCheck
  split
  · exact .firstFault3 (.faultIf _ (by decide)) (.faultIf _ (by decide)) (.faultIf _ (by decide))
  · exact .firstFault2 (.faultIf _ (by decide)) (.faultIf _ (by decide))

theorem tileOf_code {c : Instr} {s : State} {x : QForm} (h : tileOf s c = some x) (e : QEntry) : FaultCode (x.check e) := by
  cases c <;> simp only [tileOf, reduceCtorEq, Option.some.injEq] at h <;> subst h <;> refine .firstFault2 ?_ (.tileCheck ..)
  case azero | aswap => exact .none
  case aload => exact .aloadCheck e
  case amac => exact .csCheck ..
  case adrain => exact .adrainCheck e

theorem laneOpOf_code {c : Instr} {s : State} {x : QForm} (h : laneOpOf s c = some x) (e : QEntry) : FaultCode (x.check e) := by
  cases c <;> simp only [laneOpOf, reduceCtorEq, Option.some.injEq] at h <;> subst h <;> exact .groupsCheck ..

theorem vecOf_code {c : Instr} {s : State} {x : QForm} (h : vecOf s c = some x) (e : QEntry) : FaultCode (x.check e) := by
  cases c <;> simp only [vecOf, reduceCtorEq, Option.some.injEq] at h <;> subst h
  case vmovg => exact .none
  case vld | vst => exact .firstFault3 (.groupsCheck ..) (.faultIf _ (by decide)) (.csCheck ..)
  case vqnt => exact .firstFault2 (.groupsCheck ..) (.csCheck ..)
  case vcvt => exact .firstFault3 (.faultIf _ (by decide)) (.csCheck ..) (.csCheck ..)
  case vact => exact .firstFault2 (.groupsCheck ..) (.csCheck ..)
  case vumu => exact .firstFault3 (.csCheck ..) (.csCheck ..) (.csCheck ..)
  case vupd => exact .firstFault (by simpa using ⟨.csCheck .., .csCheck .., .csCheck .., .csCheck ..⟩)
  case vgacc => exact .firstFault3 (.groupsCheck ..) (.faultIf _ (by decide)) (.csCheck ..)
  case vmark => exact .firstFault2 (.faultIf _ (by decide)) (.faultIf _ (by decide))
  all_goals exact .groupsCheck ..

theorem moveOf_code {c : Instr} {x : QForm} (h : moveOf c = some x) (e : QEntry) : FaultCode (x.check e) := by
  cases c <;> simp only [moveOf, reduceCtorEq, Option.some.injEq] at h <;> subst h
  case mcopy | mfill => exact .firstFault3 (.faultIf _ (by decide)) (.faultIf _ (by decide)) (.faultIf _ (by decide))
  case fput | fget => exact .putCheck ..
  case fsend => exact .firstFault2 (.faultIf _ (by decide)) (.csCheck ..)
  case fatom | fred => exact .firstFault2 (.faultIf _ (by decide)) (.faultIf _ (by decide))
  case fgath => exact .firstFault3 (.faultIf _ (by decide)) (.csCheck ..) (.csCheck ..)
  case fbar | fsnap => exact .none
  all_goals exact .csCheck ..

theorem queueForm_code {c : Instr} {s : State} {x : QForm} (h : queueForm s c = some x) (e : QEntry) : FaultCode (x.check e) := by
  rcases queueForm_cases h with h | h | h | h
  · exact tileOf_code h e
  · exact laneOpOf_code h e
  · exact vecOf_code h e
  · exact moveOf_code h e

/-! ## Refusals -/

section
variable {s : State} {x : QForm}

/-- A fault at issue of an instruction of an empty queue leaves nothing to look at. -/
theorem told_issue_fault (h : live s x.i x.k = true) (hq : (coreAt s x.i).queue x.q = []) {code : Nat} {ecc : Bool}
    (hissue : issueQ s x.i.val x.k x.q x.op x.f x.sh x.legal x.check ecc = issueFault s x.i x.k code) :
    x.told s (x.issue s ecc) = issueFault s x.i x.k code := by
  have hempty := issueFault_queue_nil h hq code
  have heq : x.issue s ecc = issueFault s x.i x.k code := by
    rw [QForm.issue, hissue, pumpQueue, hempty]
    rfl
  rw [heq]
  exact told_of_none (by simp [hempty])

theorem issueQ_illegal (h : canIssue s x.i x.k = true) (hl : (fieldsOk (isSplit s x.i) x.sh x.f && x.legal) = false) (ecc : Bool) :
    issueQ s x.i.val x.k x.q x.op x.f x.sh x.legal x.check ecc = issueFault s x.i x.k (badFault x.f) := by
  simp [issueQ, h, hl]

theorem issueQ_checked (hp : x.placed s) (hi : issues s x.i x.k x.f x.sh x.legal = true) (hq : (coreAt s x.i).queue x.q = [])
    {code : Nat} (hc : x.check (x.entry s false) = some code) (ecc : Bool) :
    issueQ s x.i.val x.k x.q x.op x.f x.sh x.legal x.check ecc = issueFault s x.i x.k code := by
  obtain ⟨hz, hissue, hfields, hl, hpred, hg⟩ := issues_iff.1 hi
  rw [QForm.entry] at hc
  simp [issueQ, hissue, hfields, hl, hpred, hg, room_of_empty hp hq, hc]

end

theorem badFault_eq (f : Fields) : badFault f = if f.fetchBad then 0x0F else 0x01 := rfl

theorem badFault_lt (f : Fields) : badFault f < 256 := by unfold badFault; split <;> decide

theorem orFault_some {s : State} {i : Nat} {k : CtxId} {o : Option Nat} {code : Nat} (h : o = some code) (t : State) :
    orFault s i k o t = issueFault s i k code := by rw [h, orFault]

theorem wrregCheck_access {f : Fields} (ha : regOffset f % 4 = 0) (h : regOffset f ∉ [0x040, 0x044, 0x08C]) :
    wrregCheck f = some faultRegAccess := by
  simp only [List.mem_cons, List.not_mem_nil, or_false, not_or] at h
  obtain ⟨h1, h2, h3⟩ := h
  simp [wrregCheck, firstFault, faultIf, ha, h1, h2, h3]

/-- Settles O5: what holds changes nothing, and each refusal raises its code. -/
theorem issueRefusals : Obligations.IssueRefusals := by
  unfold Obligations.IssueRefusals
  refine ⟨fun c s i k f sh legal hform h => ?_, ⟨fun c s i k f sh legal hform hlive hl => ?_, fun c s x hform hlive hq hl => ?_⟩,
    fun i k f s hlive => ?_, fun c s x code hform hlive hi hq hc => ?_⟩
  · obtain ⟨body, hexec⟩ := exec_ctlForm hform
    refine .of hexec (?_ : _ = s) rfl
    rcases h with h | ⟨hl, hp, hg⟩
    · simp [issueCtl, h]
    · simp [issueCtl, hl, hp, hg]
  · obtain ⟨body, hexec⟩ := exec_ctlForm hform
    refine .of hexec (?_ : _ = issueFault s i k (badFault f)) (issueFault_faulted hlive (badFault_lt f))
    simp [issueCtl, (live_iff.1 hlive).2.1, hl]
  · obtain ⟨hp, ecc, hexec⟩ := exec_queueForm hform
    exact .of hexec (told_issue_fault hlive hq (issueQ_illegal (live_iff.1 hlive).2.1 hl ecc))
      (issueFault_faulted hlive (badFault_lt _))
  · refine ⟨fun code h ht => ?_, fun code h ht => ?_, fun code h ht => ?_, fun h ht hn hd => ?_, fun code h hc ecc => ?_,
      fun h hc => ?_, fun code h hc => ?_, fun h ha ho => ?_, fun h hq hroom => ?_⟩
    · exact .of rfl ((issueCtl_go h).trans (orFault_some ht _)) (issueFault_faulted hlive ((FaultCode.csCheck ..).lt _ ht))
    · exact .of rfl ((issueCtl_go h).trans (orFault_some ht _)) (issueFault_faulted hlive ((FaultCode.csCheck ..).lt _ ht))
    · exact .of rfl ((issueCtl_go h).trans (orFault_some ht _)) (issueFault_faulted hlive ((FaultCode.csCheck ..).lt _ ht))
    · have hn0 : (readG s i k f.a.toNat).toNat ≠ 0 := fun e => hn (BitVec.eq_of_toNat_eq e)
      refine .of rfl ((issueCtl_go h).trans (?_ : _ = issueFault s i k faultLoopStack)) (issueFault_faulted hlive (by decide))
      simp only [ht, orFault, if_neg hn0, if_pos hd]
    · refine .of rfl ((issueCtl_go h).trans (orFault_some (code := code) ?_ _))
        (issueFault_faulted hlive ((FaultCode.csCheck ..).lt _ hc))
      rw [hc, firstFault]
    · refine .of rfl ((issueCtl_go h).trans (orFault_some (code := faultCsRead) ?_ _)) (issueFault_faulted hlive (by decide))
      rw [hc]
      rfl
    · exact .of rfl ((issueCtl_go h).trans (orFault_some hc _)) (issueFault_faulted hlive ((FaultCode.csCheck ..).lt _ hc))
    · exact .of rfl ((issueCtl_go h).trans (orFault_some (wrregCheck_access ha ho) _)) (issueFault_faulted hlive (by decide))
    · exact .of rfl ((if_pos hq).trans ((issueCtl_go h).trans (if_pos hroom))) (issueFault_faulted hlive (by decide))
  · obtain ⟨hp, ecc, hexec⟩ := exec_queueForm hform
    exact .of hexec (told_issue_fault hlive hq (issueQ_checked hp hi hq hc ecc))
      (issueFault_faulted hlive ((queueForm_code hform _).lt _ hc))

end Sys2Proof.Machine
end

section
/-! PROOFS. The tile instructions enter their lane, and AMAC tells its anvils (R121, R172, R183). -/

namespace Sys2Proof.Machine

/-! ## Changing anvils one by one -/

/-- A core whose listed anvils have changed in turn. -/
def foldAnvils (g : Anvil → Anvil) (l : List Nat) (c : Core) : Core := l.foldl (fun c a => c.setAnvil a (g (c.anvil a))) c

theorem foldAnvils_frame (g : Anvil → Anvil) (l : List Nat) (c : Core) :
    foldAnvils g l c = { c with anvils := (foldAnvils g l c).anvils } := by
  unfold foldAnvils
  induction l generalizing c with
  | nil => rfl
  | cons a l ih => rw [List.foldl_cons, ih]; rfl

theorem anvil_setAnvil {c : Core} {a : Nat} (h : a < c.anvils.length) (x : Anvil) : (c.setAnvil a x).anvil a = x := by
  simp [Core.setAnvil, Core.anvil, List.getD_eq_getElem?_getD, h]

theorem anvil_setAnvil_ne {a b : Nat} (h : a ≠ b) (c : Core) (x : Anvil) : (c.setAnvil a x).anvil b = c.anvil b := by
  simp [Core.setAnvil, Core.anvil, List.getD_eq_getElem?_getD, List.getElem?_set_ne h]

theorem anvil_foldAnvils_not_mem (g : Anvil → Anvil) {l : List Nat} {b : Nat} (h : b ∉ l) (c : Core) :
    (foldAnvils g l c).anvil b = c.anvil b := by
  unfold foldAnvils
  induction l generalizing c with
  | nil => rfl
  | cons a l ih =>
    obtain ⟨hne, hl⟩ := List.ne_and_not_mem_of_not_mem_cons h
    rw [List.foldl_cons, ih hl, anvil_setAnvil_ne hne.symm]

theorem anvil_foldAnvils_mem (g : Anvil → Anvil) {l : List Nat} (hl : l.Nodup) {b : Nat} (h : b ∈ l) {c : Core}
    (hb : b < c.anvils.length) : (foldAnvils g l c).anvil b = g (c.anvil b) := by
  induction l generalizing c with
  | nil => cases h
  | cons a l ih =>
    obtain ⟨ha, hl⟩ := List.nodup_cons.1 hl
    have hstep : foldAnvils g (a :: l) c = foldAnvils g l (c.setAnvil a (g (c.anvil a))) := rfl
    rw [hstep]
    rcases List.mem_cons.1 h with rfl | h
    · rw [anvil_foldAnvils_not_mem g ha, anvil_setAnvil hb]
    · have hne : a ≠ b := by rintro rfl; exact ha h
      rw [ih hl h (by simpa [Core.setAnvil] using hb), anvil_setAnvil_ne hne]

theorem foldl_modAnvil {s : State} {i : Nat} (hi : i < s.cores.length) (g : Anvil → Anvil) (l : List Nat) :
    l.foldl (fun t a => modAnvil t i a g) s = modCore s i (foldAnvils g l) := by
  induction l generalizing s with
  | nil => exact (modCore_id s i).symm
  | cons a l ih =>
    have hi' : i < (modAnvil s i a g).cores.length := by rw [modAnvil, modCore_cores_length]; exact hi
    rw [List.foldl_cons, ih hi', modAnvil, modCore_modCore hi]
    rfl

theorem nodup_anvList (m : Nat) : (anvList m).Nodup := List.nodup_range.filter _

theorem mem_anvList {m : Nat} (a : AnvilId) : a.val ∈ anvList m ↔ m.testBit a = true := by
  simp [anvList, List.mem_filter]

/-! ## Requests for grants -/

theorem addGrants_frame (s : State) (gs : List GrantReq) : addGrants s gs = { s with power := (addGrants s gs).power } := by
  unfold addGrants; split <;> rfl

theorem syncGrants_frame (s : State) (i : CoreId) : syncGrants s i = { s with power := (syncGrants s i).power } := by
  unfold syncGrants
  exact addGrants_frame ..

/-! ## The tile instructions -/

section
variable {s : State} {x : QForm}

theorem tileOf_op {c : Instr} (h : tileOf s c = some x) : 0x20 ≤ x.op ∧ x.op ≤ 0x24 := by
  cases c <;> simp only [tileOf, reduceCtorEq, Option.some.injEq] at h <;> subst h <;>
    exact ⟨Nat.le_of_ble_eq_true rfl, Nat.le_of_ble_eq_true rfl⟩

theorem queued_anvils (x : QForm) (e : QEntry) (c : Core) : (queued x e c).anvils = c.anvils := by
  unfold queued stepped Core.setCtx
  cases x.q <;> (split <;> rfl)

theorem isTile_entry (h1 : 0x20 ≤ x.op) (h2 : x.op ≤ 0x24) : isTile (x.entry s false) = true := by
  simpa [isTile, QForm.entry, newEntry, opAzero, opAdrain] using ⟨h1, h2⟩

theorem issue_tile {c : Instr} (h : tileOf s c = some x) (hgo : queueGo s x = true) :
    x.issue s false = x.taken s (x.entry s false) := by
  obtain ⟨hi, -⟩ := queueGo_iff.1 hgo
  obtain ⟨h1, h2⟩ := tileOf_op h
  rw [issue_queueGo (placed_tileOf h) hgo,
    startNext_tile (headEntry_taken (issues_sized hi) rfl) rfl (isTile_entry h1 h2)]

/-- What the anvils learn of a pass that arrives. -/
def passTold (e : QEntry) (a : Anvil) : Anvil := { a with lastPass := some (tagOf e), ramp := passArrives a.ramp }

theorem told_pass (hz : sized s = true) (hop : x.op = opAmac) : x.told s (x.taken s (x.entry s false)) =
    syncGrants (setCore s x.i (foldAnvils (passTold (x.entry s false)) (anvList (anvMask x.f))
      (queued x (x.entry s false) (coreAt s x.i)))) x.i := by
  have hl := core_lt hz x.i
  have hnew : newPass s (x.taken s (x.entry s false)) x.i x.q = some (x.entry s false) := by
    rw [newPass, queue_taken hz]
    simp [QForm.entry, newEntry, hop]
  have hl' : x.i.val < (x.taken s (x.entry s false)).cores.length := by rw [QForm.taken, sized_setCore_cores]; exact hl
  rw [QForm.told, if_pos hop, hnew]
  refine congrArg (syncGrants · x.i) ?_
  refine (foldl_modAnvil hl' (passTold (x.entry s false)) _).trans ?_
  rw [QForm.taken, modCore_setCore hl]
  rfl

end

/-- Settles O6: the entry stands in its lane, and of a pass the anvils keep the tag. -/
theorem tileIssue : Obligations.TileIssue := by
  unfold Obligations.TileIssue
  intro c s x hform hgo
  have hz := issues_sized (queueGo_iff.1 hgo).1
  have hl := core_lt hz x.i
  by_cases hop : x.op = 0x23
  · refine .of (exec_tileOf hform) ((congrArg (x.told s) (issue_tile hform hgo)).trans (told_pass hz hop)) ?_
    generalize hC : foldAnvils (passTold (x.entry s false)) (anvList (anvMask x.f))
      (queued x (x.entry s false) (coreAt s x.i)) = C
    rw [syncGrants_frame]
    generalize (syncGrants (setCore s x.i C) x.i).power = p
    have hcore : coreAt { setCore s x.i C with power := p } x.i = C := (coreAt_setCore hl C : _)
    refine ⟨by rw [hcore]; rfl, by rw [hcore, ← hC]; exact foldAnvils_frame .., fun h => absurd hop h, fun _ a => ?_⟩
    have hlen : a.val < (queued x (x.entry s false) (coreAt s x.i)).anvils.length := by
      rw [queued_anvils, (coreSized_iff.1 (sized_core hz x.i)).2.2.2]
      exact a.isLt
    have hanvil : (queued x (x.entry s false) (coreAt s x.i)).anvil a = (coreAt s x.i).anvil a := by
      rw [Core.anvil, queued_anvils, Core.anvil]
    rw [hcore, ← hC, ← hanvil]
    split
    next h => exact anvil_foldAnvils_mem _ (nodup_anvList _) ((mem_anvList a).2 h) hlen
    next h => exact anvil_foldAnvils_not_mem _ (mt (mem_anvList a).1 h) _
  · refine .of (exec_tileOf hform) ((congrArg (x.told s) (issue_tile hform hgo)).trans (told_of_op hop ..)) ?_
    have hanvils : (coreAt (x.taken s (x.entry s false)) x.i).anvils = (coreAt s x.i).anvils := by
      rw [coreAt_taken hz, queued_anvils]
    exact ⟨coreOnly_taken hz _, by rw [coreAt_taken hz], fun _ => ⟨rfl, hanvils⟩, fun h => absurd h hop⟩

end Sys2Proof.Machine
end

section
/-! PROOFS. The vector engine: the state in which an entry runs, groups of registers written, and what a run leaves (R151 to
R153, R195, R385). -/

namespace Sys2Proof.Machine

/-! ## Registers written from a base on -/

/-- Registers with a list of them written from `b` on. -/
def putAt (v : List VReg) (b : Nat) (rs : List VReg) : List VReg := rs.zipIdx.foldl (fun v p => v.set (b + p.2) p.1) v

theorem foldl_set_zipIdx (rs : List VReg) (v : List VReg) (b m n : Nat) (h : b + m + rs.length ≤ v.length) :
    ((rs.zipIdx m).foldl (fun v p => v.set (b + p.2) p.1) v).getD n .clear =
      if b + m ≤ n ∧ n < b + m + rs.length then rs.getD (n - (b + m)) .clear else v.getD n .clear := by
  induction rs generalizing v m with
  | nil => simp only [List.zipIdx_nil, List.foldl_nil, List.length_nil]; rw [if_neg (by omega)]
  | cons r rs ih =>
    simp only [List.length_cons] at h
    rw [List.zipIdx_cons, List.foldl_cons, ih _ _ (by rw [List.length_set]; omega)]
    by_cases hn : n = b + m
    · subst hn
      rw [if_neg (by omega), if_pos (by simp), List.getD_eq_getElem?_getD, List.getElem?_set_self (by omega)]
      simp
    · have hset : (v.set (b + m) r).getD n .clear = v.getD n .clear := by
        rw [List.getD_eq_getElem?_getD, List.getElem?_set_ne (by omega), List.getD_eq_getElem?_getD]
      rw [hset]
      by_cases hin : b + (m + 1) ≤ n ∧ n < b + (m + 1) + rs.length
      · have hidx : n - (b + m) = n - (b + (m + 1)) + 1 := by omega
        rw [if_pos hin, if_pos (by simp only [List.length_cons]; omega), hidx, List.getD_cons_succ]
      · rw [if_neg hin, if_neg (by simp only [List.length_cons]; omega)]

theorem getD_putAt {v : List VReg} {b : Nat} {rs : List VReg} (h : b + rs.length ≤ v.length) (n : Nat) :
    (putAt v b rs).getD n .clear = if b ≤ n ∧ n < b + rs.length then rs.getD (n - b) .clear else v.getD n .clear :=
  foldl_set_zipIdx rs v b 0 n h

/-- A core whose group of registers was written. -/
def groupPut (b : Nat) (rs : List VReg) (c : Core) : Core := { c with v := putAt c.v b rs }

theorem setGroup_fold {s : State} {i : Nat} (hi : i < s.cores.length) (k : CtxId) (n : Nat) (l : List (VReg × Nat)) :
    l.foldl (fun t p => setVreg t i (physV (isSplit t i) k n + p.2) p.1) s =
      modCore s i fun c => { c with v := l.foldl (fun v p => v.set (physV (isSplit s i) k n + p.2) p.1) c.v } := by
  induction l generalizing s with
  | nil => exact (modCore_id s i).symm
  | cons p l ih =>
    rw [List.foldl_cons, ih (by rw [setVreg, modCore_cores_length]; exact hi), setVreg, modCore_modCore hi]
    rfl

theorem setGroup_eq {s : State} {i : Nat} (hi : i < s.cores.length) (k : CtxId) (n : Nat) (rs : List VReg) :
    setGroup s i k n rs = modCore s i (groupPut (physV (isSplit s i) k n) rs) := setGroup_fold hi k n rs.zipIdx

/-- A group that fits ends inside v0 to v63. -/
theorem physV_fits {split : Bool} {k : CtxId} {n len : Nat} (h : groupFits split n len = true) : physV split k n + len ≤ 64 := by
  have hk := k.isLt
  cases split <;> simp only [groupFits, physV, decide_eq_true_eq, if_true, Bool.false_eq_true, if_false] at h ⊢ <;> omega

/-- A single register of a legal v field. -/
theorem regFieldOk_fits {split : Bool} {n : Nat} (h : regFieldOk split .v n = true) : groupFits split n 1 = true := by
  cases split <;> simp [groupFits, regFieldOk] at h ⊢ <;> omega

theorem length_of_allSome {α : Type} {l : List (Option α)} {m : List α} (h : allSome l = some m) : m.length = l.length := by
  induction l generalizing m with
  | nil => cases h; rfl
  | cons o l ih =>
    cases o with
    | none => cases h
    | some a =>
      rw [allSome] at h
      split at h <;> cases h
      next l' hl => rw [List.length_cons, ih hl, List.length_cons]

/-! ## The state in which a vector entry runs -/

section
variable {s : State} {x : QForm} {ecc : Bool}

/-- The entry has started and the grant is used. -/
def QForm.started (x : QForm) (s : State) (ecc : Bool) : State := setCore s x.i (vecStarted s x ecc)

theorem vecGo_iff : vecGo s x = true ↔ queueGo s x = true ∧ (coreAt s x.i).veGrant = true := by simp [vecGo]

theorem vecGo_sized (h : vecGo s x = true) : sized s = true := issues_sized (queueGo_iff.1 (vecGo_iff.1 h).1).1

theorem coreAt_started (hz : sized s = true) : coreAt (x.started s ecc) x.i = vecStarted s x ecc := coreAt_setCore (core_lt hz x.i) _

theorem started_cores_length : (x.started s ecc).cores.length = s.cores.length := sized_setCore_cores _

theorem queued_v (x : QForm) (e : QEntry) (c : Core) : (queued x e c).v = c.v := by
  rw [queued, stepped, setCtx_v]; cases x.q <;> rfl

theorem queued_g (x : QForm) (e : QEntry) (c : Core) : (queued x e c).g = c.g := by
  rw [queued, stepped, setCtx_g]; cases x.q <;> rfl

theorem vecStarted_v : (vecStarted s x ecc).v = (coreAt s x.i).v := queued_v ..

theorem vecStarted_stat : ((vecStarted s x ecc).ctx x.k).over = ((coreAt s x.i).ctx x.k).over := by
  have h : (vecStarted s x ecc).ctx x.k = (stepped x.k (coreAt s x.i)).ctx x.k := queued_ctx ..
  rw [h, stepped, ctx_setCtx]
  rfl

theorem vregAt_started (hz : sized s = true) (n : Nat) : vregAt (x.started s ecc) x.i n = vregAt s x.i n := by
  rw [vregAt, coreAt_started hz, vecStarted_v, vregAt]

theorem group_started (hz : sized s = true) (k : CtxId) (n len : Nat) :
    group (x.started s ecc) x.i k n len = group s x.i k n len := by
  have hsplit : isSplit (x.started s ecc) x.i = isSplit s x.i := rfl
  simp only [group, vregAt_started hz, hsplit]

theorem opA_started (hz : sized s = true) : x.opA (x.started s ecc) = x.opA s := group_started hz ..
theorem opB_started (hz : sized s = true) : x.opB (x.started s ecc) = x.opB s := group_started hz ..
theorem opC_started (hz : sized s = true) : x.opC (x.started s ecc) = x.opC s := group_started hz ..
theorem opD_started (hz : sized s = true) : x.opD (x.started s ecc) = x.opD s := group_started hz ..

theorem length_opA (x : QForm) (s : State) : (x.opA s).length = nregOf x.f := by simp [QForm.opA, group]
theorem length_opB (x : QForm) (s : State) : (x.opB s).length = nregOf x.f := by simp [QForm.opB, group]
theorem length_opC (x : QForm) (s : State) : (x.opC s).length = nregOf x.f := by simp [QForm.opC, group]
theorem length_opD (x : QForm) (s : State) : (x.opD s).length = nregOf x.f := by simp [QForm.opD, group]

/-- Only VUMU and VUPD are held for the step. -/
theorem updateHeld_other {t : State} {i : Nat} {e : QEntry} (h1 : e.op ≠ 0x5A) (h2 : e.op ≠ 0x5B) : updateHeld t i e = false := by
  simp [updateHeld, h1, h2]

theorem exec_lane_go {c : Instr} (h : laneOpOf s c = some x) (hgo : vecGo s x = true) :
    exec c s = .next (runVec (x.started s false) x.i (x.entry s false)) := by
  obtain ⟨h1, h2⟩ := laneOpOf_op h
  rw [exec_laneOpOf h, issue_vecGo (laneOpOf_queue h) h1 hgo]
  · rfl
  · exact updateHeld_other (by show x.op ≠ _; omega) (by show x.op ≠ _; omega)

theorem exec_vec_go {c : Instr} (h : vecOf s c = some x) (hgo : vecGo s x = true) (h1 : x.op ≠ 0x5A) (h2 : x.op ≠ 0x5B) :
    exec c s = .next (runVec (x.started s (eccOf c)) x.i (x.entry s false (eccOf c))) := by
  rw [exec_vecOf h, issue_vecGo (vecOf_queue h) (vecOf_op h).1 hgo _ (updateHeld_other h1 h2)]
  rfl

theorem vecGo_clean (hgo : vecGo s x = true) : (x.entry s false).ecc = false := (queueGo_iff.1 (vecGo_iff.1 hgo).1).2.2.2

theorem vecGo_check (hgo : vecGo s x = true) : x.check (x.entry s false) = none := (queueGo_iff.1 (vecGo_iff.1 hgo).1).2.2.1

theorem vecGo_fields (hgo : vecGo s x = true) : fieldsOk (isSplit s x.i) x.sh x.f = true :=
  (issues_iff.1 (queueGo_iff.1 (vecGo_iff.1 hgo).1).1).2.2.1

/-! ## What a run leaves -/

/-- A run that changed vector registers, and registers of the core's block, leaves the rest alone. -/
theorem vecFrame_of {t : State} (hz : sized s = true) {v : List VReg} {as : List Nat}
    (ht : t = { s with cores := s.cores.set x.i { vecStarted s x ecc with v := v }, regs := t.regs })
    (hr : regsSameBut s t as) : vecFrame s t x as ecc ∧ (coreAt t x.i).v = v := by
  have hcore : coreAt t x.i = { vecStarted s x ecc with v := v } := by
    rw [ht]
    exact coreAt_setCore (s := { s with regs := t.regs }) (core_lt hz x.i) _
  refine ⟨⟨by rw [hcore]; exact ht, hr, by rw [hcore]⟩, by rw [hcore]⟩

theorem groupIs_of {t : State} (hz : sized s = true) {d : Nat} {rs : List VReg} {len : Nat}
    (hv : (coreAt t x.i).v = putAt (coreAt s x.i).v (physV (isSplit s x.i) x.k d) rs)
    (hlen : rs.length = len) (hf : groupFits (isSplit s x.i) d len = true) : groupIs s t x d rs := by
  intro n
  have hsize := (coreSized_iff.1 (sized_core hz x.i)).2.2.1
  have hfits := physV_fits (k := x.k) hf
  rw [vregAt, hv, getD_putAt (by rw [hsize, hlen]; exact hfits), vregAt]

/-- A group written in the state of the run. -/
theorem setGroup_started (hz : sized s = true) (d : Nat) (rs : List VReg) : setGroup (x.started s ecc) x.i x.k d rs =
    { s with cores := s.cores.set x.i { vecStarted s x ecc with
      v := putAt (coreAt s x.i).v (physV (isSplit s x.i) x.k d) rs } } := by
  rw [setGroup_eq (by rw [started_cores_length]; exact core_lt hz x.i), QForm.started, modCore_setCore (core_lt hz x.i)]
  rw [groupPut, vecStarted_v]
  rfl

/-- A group is written and one counter of the core's block counts. -/
theorem setGroup_satF_shows (hz : sized s = true) {d len : Nat} {rs : List VReg} (hlen : rs.length = len)
    (hf : groupFits (isSplit s x.i) d len = true) (a : Nat) (fld : Fld) (n : Nat) :
    vecFrame s (satF (setGroup (x.started s ecc) x.i x.k d rs) a fld n) x [a] ecc ∧
    groupIs s (satF (setGroup (x.started s ecc) x.i x.k d rs) a fld n) x d rs := by
  rw [setGroup_started hz]
  generalize hw : ({ s with cores := s.cores.set x.i { vecStarted s x ecc with
    v := putAt (coreAt s x.i).v (physV (isSplit s x.i) x.k d) rs } } : State) = w
  have hregs : w.regs = s.regs := by rw [← hw]
  obtain ⟨h1, h2⟩ := vecFrame_of (t := satF w a fld n) (ecc := ecc) hz (by rw [← hw]; rfl)
    (((regsSameBut_of_regs hregs [a]).satF List.mem_cons_self fld n))
  exact ⟨h1, groupIs_of hz h2 hlen hf⟩

theorem setGroup_shows (hz : sized s = true) {d len : Nat} {rs : List VReg} (hlen : rs.length = len)
    (hf : groupFits (isSplit s x.i) d len = true) (as : List Nat) :
    vecFrame s (setGroup (x.started s ecc) x.i x.k d rs) x as ecc ∧ groupIs s (setGroup (x.started s ecc) x.i x.k d rs) x d rs := by
  rw [setGroup_started hz]
  obtain ⟨h1, h2⟩ := vecFrame_of (t := { s with cores := s.cores.set x.i { vecStarted s x ecc with
    v := putAt (coreAt s x.i).v (physV (isSplit s x.i) x.k d) rs } }) (ecc := ecc) hz rfl (regsSameBut_of_regs rfl as)
  exact ⟨h1, groupIs_of hz h2 hlen hf⟩

theorem getF_satF {f : Fld} (hl : f.lo ≤ f.hi) (hh : f.hi < 32) (s : State) (a n : Nat) :
    getF (satF s a f n) a f = satAdd f.cap (getF s a f) n := by
  have hcap : f.cap < 2 ^ (f.hi + 1 - f.lo) := Nat.sub_lt (by positivity) (by decide)
  rw [satF, getF_putF hl hh, Nat.mod_eq_of_lt (lt_of_le_of_lt (satAdd_le ..) hcap)]

/-- The count of saturations after a group was written. -/
theorem vsatIs_setGroup (hz : sized s = true) (d : Nat) (rs : List VReg) (n : Nat) :
    vsatIs s (countVsat (setGroup (x.started s ecc) x.i x.k d rs) x.i n) x.i n := by
  rw [vsatIs, countVsat, getF_satF (by decide) (by decide), setGroup_started hz]
  rfl

end

end Sys2Proof.Machine
end

section
/-! PROOFS. The lane operations: a group written register by register, or the format fault (R84, R153). -/

namespace Sys2Proof.Machine

section
variable {s : State} {x : QForm}

theorem laneResults_started (hz : sized s = true) : laneResults (x.started s false) x = laneResults s x := by
  simp only [laneResults, opA_started hz, opB_started hz, opC_started hz]

/-- A clean lane operation writes its results. -/
theorem runVec_lane {c : Instr} {t : State} (h : laneOpOf t c = some x) (hecc : (x.entry t false).ecc = false) (u : State) :
    runVec u x.i (x.entry t false) = writeLanes u x.i (x.entry t false) (laneResults u x) := by
  unfold runVec
  rw [hecc, Bool.false_and, if_neg Bool.false_ne_true]
  cases c <;> simp only [laneOpOf, reduceCtorEq, Option.some.injEq] at h <;> subst h <;> rfl

theorem laneOpOf_fits {c : Instr} (h : laneOpOf s c = some x) (hc : x.check (x.entry s false) = none) :
    groupFits (isSplit s x.i) x.f.d.toNat (nregOf x.f) = true := by
  cases c <;> simp only [laneOpOf, reduceCtorEq, Option.some.injEq] at h <;> subst h <;>
    simp [laneForm, vecForm, groupsCheck, faultIf] at hc ⊢ <;> simp [hc]

theorem length_laneResults {c : Instr} (h : laneOpOf s c = some x) (t : State) : (laneResults t x).length = nregOf x.f := by
  cases c <;> simp only [laneOpOf, reduceCtorEq, Option.some.injEq] at h <;> subst h <;>
    simp [laneResults, laneForm, vecForm, zipLanes, length_opA, length_opB, length_opC]

theorem exec_laneOp {c : Instr} (h : laneOpOf s c = some x) (hgo : vecGo s x = true) : exec c s =
    .next (writeLanes (x.started s false) x.i (x.entry s false) (laneResults s x)) := by
  rw [exec_lane_go h hgo, runVec_lane h (vecGo_clean hgo), laneResults_started (vecGo_sized hgo)]

/-! ## The format fault of a vector entry -/

theorem abortCore_v (split : Bool) (c : Core) (k : CtxId) (code : Nat) (residue : Bool) :
    (abortCore split c k code residue).v = c.v := by
  have hcl (c : Core) (as : List Nat) (p : Bool) : (clearPartition c as p).v = c.v := by rw [clearPartition_frame]
  have hbase : (abortBase split c k).v = c.v := by
    unfold abortBase
    dsimp only
    split
    · exact hcl ..
    · split <;> exact hcl ..
  have hother (c : Core) (o : CtxId) : (abortOther c o).v = c.v := by
    unfold abortOther
    split
    · exact (setCtx_v ..).trans (hcl ..)
    · split
      · exact setCtx_v ..
      · rfl
  obtain ⟨e, p, heq⟩ := abortCore_frame split c k code residue
  rw [heq]
  show Core.v (if split then _ else _) = c.v
  split
  · rw [hother, setCtx_v, hbase]
  · rw [setCtx_v, hbase]

theorem sized_started (hz : sized s = true) (ecc : Bool) : sized (x.started s ecc) = true := by
  obtain ⟨hg, hsc, hv, ha⟩ := coreSized_iff.1 (sized_core hz x.i)
  refine (Kept.setCore (.refl s) x.i fun _ => coreSized_iff.2 ⟨?_, ?_, ?_, ?_⟩).shaped hz
  · exact (congrArg List.length (queued_g ..)).trans hg
  · exact (congrArg List.length (queued_sc ..)).trans hsc
  · exact (congrArg List.length (queued_v ..)).trans hv
  · exact (congrArg List.length (queued_anvils ..)).trans ha

/-- A fault found as a vector entry runs: its record, and every vector register as it was. -/
theorem entryFault_started (hlive : live s x.i x.k = true) {code : Nat} (hc : code < 256) (ecc : Bool) :
    faulted s (entryFault (x.started s ecc) x.i .vec (x.entry s false ecc) code) x.i x.k 3 code ∧
    (coreAt (entryFault (x.started s ecc) x.i .vec (x.entry s false ecc) code) x.i).v = (coreAt s x.i).v := by
  obtain ⟨hz, hissue, hover⟩ := live_iff.1 hlive
  have hq : quenched (x.started s ecc) = false := canIssue_quenched (s := s) hissue
  have hz' := sized_started (x := x) hz ecc
  have hover' : ((coreAt (x.started s ecc) x.i).ctx x.k).over = false := by
    rw [coreAt_started hz, vecStarted_stat]
    exact hover
  have heq : entryFault (x.started s ecc) x.i .vec (x.entry s false ecc) code =
      faultAbort (x.started s ecc) x.i x.k 3 code (ctxAt s x.i x.k).pc false false := if_neg (by rw [hq]; decide)
  obtain ⟨hstat, hcode, hqueue, hpc, hframe⟩ := faultAbort_shows hz' hover' (queue := 3) (by decide) hc (ctxAt s x.i x.k).pc false false
  rw [heq]
  refine ⟨⟨hstat, hcode, hqueue, hpc, ?_⟩, ?_⟩
  · have hset : ∀ c, (x.started s ecc).cores.set x.i.val c = s.cores.set x.i.val c := fun c => List.set_set ..
    unfold coreRegsRec at hframe ⊢
    rw [hset] at hframe
    exact hframe
  · rw [coreAt_faultAbort hz' hover', abortCore_v, coreAt_started hz, vecStarted_v]

end

/-- Settles O7: the results of the lanes are written and counted, or none is. -/
theorem laneOperations : Obligations.LaneOperations := by
  unfold Obligations.LaneOperations
  intro c s x hform hgo
  have hz := vecGo_sized hgo
  refine ⟨fun l hl => ?_, fun hl hlive => ?_⟩
  · have hlen : (l.map (·.1)).length = nregOf x.f := by
      rw [List.length_map, length_of_allSome hl, length_laneResults hform]
    obtain ⟨hframe, hgroup⟩ := setGroup_satF_shows (x := x) (ecc := false) hz hlen (laneOpOf_fits hform (vecGo_check hgo))
      (CORE_VSATCNT x.i) CORE_VSATCNT_VSAT (l.map (·.2)).sum
    refine .of (exec_laneOp hform hgo) ?_ ⟨hframe, hgroup, vsatIs_setGroup hz ..⟩
    rw [writeLanes, hl]
    rfl
  · refine .of (exec_laneOp hform hgo) ?_ (entryFault_started hlive (by decide) false)
    rw [writeLanes, hl]
    rfl

end Sys2Proof.Machine
end

section
/-! PROOFS. Moves, products, reductions and draws of the vector engine (R153 to R158, R238). -/

namespace Sys2Proof.Machine

theorem groupsCheck_fits {s : State} {i : Nat} {f : Fields} {gs : List (BitVec 6 × Nat)} (h : groupsCheck s i f gs = none)
    {g : BitVec 6 × Nat} (hg : g ∈ gs) : groupFits (isSplit s i) g.1.toNat (g.2 * nregOf f) = true := by
  unfold groupsCheck faultIf at h
  split at h
  · cases h
  next hn =>
    rw [Bool.not_eq_true, List.any_eq_false] at hn
    simpa using hn g hg

/-- The register that a legal D field of v names. -/
theorem fieldsOk_d {split : Bool} {sh : Shape} {f : Fields} (h : fieldsOk split sh f = true) : regFieldOk split sh.d f.d.toNat = true := by
  simp only [fieldsOk, Bool.and_eq_true] at h
  exact h.1.1.1.1.1.2

section
variable {s : State} {x : QForm}

/-- The engine runs an instruction whose data holds no error. -/
theorem exec_clean {c : Instr} (h : vecOf s c = some x) (hgo : vecGo s x = true) (h1 : x.op ≠ 0x5A) (h2 : x.op ≠ 0x5B)
    (hecc : eccOf c = false) {run : State → Nat → QEntry → State}
    (hrun : ∀ u e, e.op = x.op → e.ecc = false → runVec u x.i e = run u x.i e) :
    exec c s = .next (run (x.started s false) x.i (x.entry s false)) := by
  rw [exec_vec_go h hgo h1 h2, hecc, hrun _ _ rfl (vecGo_clean hgo)]

/-- One opcode of the engine. -/
theorem runVec_op {u : State} {i : Nat} {e : QEntry} (hecc : e.ecc = false) {n : Nat} (hop : e.op = n) :
    runVec u i e = runVec u i { e with op := n, ecc := false } := by
  rw [← hop, ← hecc]

/-- A group is written and a field of the core's block. -/
theorem setGroup_putF_shows (hz : sized s = true) {d len : Nat} {rs : List VReg} (hlen : rs.length = len)
    (hf : groupFits (isSplit s x.i) d len = true) (a : Nat) (fld : Fld) (n : Nat) :
    vecFrame s (putF (setGroup (x.started s false) x.i x.k d rs) a fld n) x [a] ∧
    groupIs s (putF (setGroup (x.started s false) x.i x.k d rs) a fld n) x d rs := by
  rw [setGroup_started hz]
  generalize hw : ({ s with cores := s.cores.set x.i { vecStarted s x with
    v := putAt (coreAt s x.i).v (physV (isSplit s x.i) x.k d) rs } } : State) = w
  have hregs : w.regs = s.regs := by rw [← hw]
  obtain ⟨h1, h2⟩ := vecFrame_of (t := putF w a fld n) hz (by rw [← hw]; rfl)
    (((regsSameBut_of_regs hregs [a]).putF List.mem_cons_self fld n))
  exact ⟨h1, groupIs_of hz h2 hlen hf⟩

/-- A reduction writes one register and counts. -/
theorem putResult_shows (hz : sized s = true) (hd : regFieldOk (isSplit s x.i) .v x.f.d.toNat = true) (w : Bool) (ex : Int)
    (cs : List Int) (n : Nat) :
    vecFrame s (countVsat (putResult (x.started s false) x.i (x.entry s false) w ex cs) x.i n) x [CORE_VSATCNT x.i] ∧
    vsatIs s (countVsat (putResult (x.started s false) x.i (x.entry s false) w ex cs) x.i n) x.i n ∧
    groupIs s (countVsat (putResult (x.started s false) x.i (x.entry s false) w ex cs) x.i n) x x.f.d.toNat
      [putCodes (vregAt s x.i (physV (isSplit s x.i) x.k x.f.d.toNat)) w ex cs] := by
  have heq : putResult (x.started s false) x.i (x.entry s false) w ex cs = setGroup (x.started s false) x.i x.k x.f.d.toNat
      [putCodes (vregAt s x.i (physV (isSplit s x.i) x.k x.f.d.toNat)) w ex cs] := by
    rw [← vregAt_started (ecc := false) hz]
    rfl
  rw [heq]
  obtain ⟨h1, h2⟩ := setGroup_satF_shows (ecc := false) hz (rs := [_]) rfl (regFieldOk_fits hd) (CORE_VSATCNT x.i) CORE_VSATCNT_VSAT n
  exact ⟨h1, vsatIs_setGroup hz .., h2⟩

end

/-- The core, context and fields that a form stands for. -/
def QForm.of (x : QForm) (i : CoreId) (k : CtxId) (f : Fields) (op : Nat) : Prop := x.i = i ∧ x.k = k ∧ x.f = f ∧ x.op = op

/-! ## Moves, products and pairs -/

section
variable {i : CoreId} {k : CtxId} {f : Fields} {s : State} {x : QForm}

theorem vecOf_vmov (h : vecOf s (.vmov i k f) = some x) : x.of i k f 0x4C := by
  obtain rfl := Option.some.inj h
  exact ⟨rfl, rfl, rfl, rfl⟩

theorem vmov_fits (h : vecOf s (.vmov i k f) = some x) (hc : x.check (x.entry s false) = none) :
    groupFits (isSplit s x.i) x.f.d.toNat (nregOf x.f) = true := by
  obtain rfl := Option.some.inj h
  rw [← Nat.one_mul (nregOf _)]
  exact groupsCheck_fits hc (g := (f.d, 1)) (by simp)

theorem vmov_answers (h : vecOf s (.vmov i k f) = some x) (hgo : vecGo s x = true) : Answers (.vmov i k f) s fun t =>
    vecFrame s t x [] ∧ groupIs s t x f.d.toNat (x.opA s) := by
  have hz := vecGo_sized hgo
  have hfits := vmov_fits h (vecGo_check hgo)
  obtain ⟨rfl, rfl, rfl, hop⟩ := vecOf_vmov h
  have hrun := exec_clean h hgo (by rw [hop]; decide) (by rw [hop]; decide) rfl (run := runVmov) fun u e ho he => by
    rw [runVec_op he (ho.trans hop)]; rfl
  refine .of hrun ?_ (setGroup_shows hz (length_opA ..) hfits [])
  rw [← opA_started hz]
  rfl

theorem vecOf_vsplat (h : vecOf s (.vsplat i k f) = some x) : x.of i k f 0x4D := by
  obtain rfl := Option.some.inj h
  exact ⟨rfl, rfl, rfl, rfl⟩

theorem vsplat_fits (h : vecOf s (.vsplat i k f) = some x) (hc : x.check (x.entry s false) = none) :
    groupFits (isSplit s x.i) x.f.d.toNat (nregOf x.f) = true := by
  obtain rfl := Option.some.inj h
  rw [← Nat.one_mul (nregOf _)]
  exact groupsCheck_fits hc (g := (f.d, 1)) (by simp)

theorem vsplat_answers (h : vecOf s (.vsplat i k f) = some x) (hgo : vecGo s x = true) : Answers (.vsplat i k f) s fun t =>
    vecFrame s t x [CORE_VSATCNT i] ∧
    groupIs s t x f.d.toNat (List.replicate (nregOf f) (mkVreg (f.modBits 104 104 = 1) (sext 12 (f.immBits 11 0)) false
      (List.replicate (perReg (f.modBits 104 104 = 1))
        (clampCode (f.modBits 104 104 = 1) (readG s i k f.a.toNat).toInt).1))) := by
  have hz := vecGo_sized hgo
  have hfits := vsplat_fits h (vecGo_check hgo)
  obtain ⟨rfl, rfl, rfl, hop⟩ := vecOf_vsplat h
  have hrun := exec_clean h hgo (by rw [hop]; decide) (by rw [hop]; decide) rfl (run := runVsplat) fun u e ho he => by
    rw [runVec_op he (ho.trans hop)]; rfl
  exact .of hrun rfl (setGroup_satF_shows hz List.length_replicate hfits ..)

theorem vecOf_vmul (h : vecOf s (.vmul i k f) = some x) : x.of i k f 0x42 := by
  obtain rfl := Option.some.inj h
  exact ⟨rfl, rfl, rfl, rfl⟩

theorem vmul_fits (h : vecOf s (.vmul i k f) = some x) (hc : x.check (x.entry s false) = none) :
    groupFits (isSplit s x.i) x.f.d.toNat (2 * nregOf x.f) = true := by
  obtain rfl := Option.some.inj h
  exact groupsCheck_fits hc (g := (f.d, 2)) (by simp)

theorem vmul_answers {l : List (VReg × VReg)} (h : vecOf s (.vmul i k f) = some x) (hgo : vecGo s x = true)
    (hl : allSome (((x.opA s).zip (x.opB s)).map fun p => laneMul p.1 p.2) = some l) : Answers (.vmul i k f) s fun t =>
    vecFrame s t x [] ∧ groupIs s t x f.d.toNat (l.flatMap fun p => [p.1, p.2]) := by
  have hz := vecGo_sized hgo
  have hlen : l.length = nregOf x.f := by rw [length_of_allSome hl]; simp [length_opA, length_opB]
  have hflat : (l.flatMap fun p => [p.1, p.2]).length = 2 * nregOf x.f := by
    rw [← hlen, List.length_flatMap]; simp [Nat.mul_comm]
  have hfits := vmul_fits h (vecGo_check hgo)
  obtain ⟨rfl, rfl, rfl, hop⟩ := vecOf_vmul h
  have hrun := exec_clean h hgo (by rw [hop]; decide) (by rw [hop]; decide) rfl (run := runVmul) fun u e ho he => by
    rw [runVec_op he (ho.trans hop)]; rfl
  have hA : groupA (x.started s false) x.i (x.entry s false) = x.opA s := opA_started hz
  have hB : groupB (x.started s false) x.i (x.entry s false) = x.opB s := opB_started hz
  refine .of hrun ?_ (setGroup_shows hz hflat hfits [])
  rw [runVmul, hA, hB, hl]
  rfl

theorem vecOf_vsqadd (h : vecOf s (.vsqadd i k f) = some x) : x.of i k f 0x58 := by
  obtain rfl := Option.some.inj h
  exact ⟨rfl, rfl, rfl, rfl⟩

theorem vsqadd_fits (h : vecOf s (.vsqadd i k f) = some x) (hc : x.check (x.entry s false) = none) :
    groupFits (isSplit s x.i) x.f.d.toNat (nregOf x.f) = true := by
  obtain rfl := Option.some.inj h
  rw [← Nat.one_mul (nregOf _)]
  exact groupsCheck_fits hc (g := (f.d, 1)) (by simp)

/-- What VSQADD leaves in its group: the first pair of each register is the pairs' sum. -/
theorem vsqadd_answers (h : vecOf s (.vsqadd i k f) = some x) (hgo : vecGo s x = true)
    (hab : ((x.opA s) ++ (x.opB s)).any (fun r => r.raw || !r.w) = false) : Answers (.vsqadd i k f) s fun t =>
    vecFrame s t x [CORE_UPDSTAT i] ∧
    groupIs s t x f.d.toNat (((x.opD s).zip (((x.opA s).zip (x.opB s)).map fun p =>
      combinePairs (pairOfReg p.1) (pairOfReg p.2))).map fun p => putCodes p.1 true 0 [(p.2.1.sum : Int), p.2.1.ex]) := by
  have hz := vecGo_sized hgo
  have hfits := vsqadd_fits h (vecGo_check hgo)
  obtain ⟨rfl, rfl, rfl, hop⟩ := vecOf_vsqadd h
  have hrun := exec_clean h hgo (by rw [hop]; decide) (by rw [hop]; decide) rfl (run := runVsqadd) fun u e ho he => by
    rw [runVec_op he (ho.trans hop)]; rfl
  have hA : groupA (x.started s false) x.i (x.entry s false) = x.opA s := opA_started hz
  have hB : groupB (x.started s false) x.i (x.entry s false) = x.opB s := opB_started hz
  have hD : groupD (x.started s false) x.i (x.entry s false) = x.opD s := opD_started hz
  refine .of hrun rfl ?_
  rw [runVsqadd, hA, hB, hD, hab]
  simp only [Bool.false_eq_true, if_false]
  generalize hrs : ((x.opD s).zip (((x.opA s).zip (x.opB s)).map fun p =>
      combinePairs (pairOfReg p.1) (pairOfReg p.2))).map (fun p => putCodes p.1 true 0 [(p.2.1.sum : Int), p.2.1.ex]) = rs
  have hlen : rs.length = nregOf x.f := by rw [← hrs]; simp [length_opA, length_opB, length_opD]
  split
  · exact setGroup_putF_shows hz hlen hfits ..
  · exact setGroup_shows hz hlen hfits _

theorem vecOf_vmovg (h : vecOf s (.vmovg i k f) = some x) : x.of i k f 0x4E := by
  obtain rfl := Option.some.inj h
  exact ⟨rfl, rfl, rfl, rfl⟩

theorem setG_vecStarted (hz : sized s = true) (n : Nat) (v : Word64) :
    writeG (x.started s false) x.i x.k n v = setCore s x.i (setG s x.i x.k n v (vecStarted s x)) := by
  rw [writeG_eq _ _ (started_cores_length.trans (sized_cores hz)), QForm.started, modCore_setCore (core_lt hz x.i)]
  rfl

theorem vmovg_answers (h : vecOf s (.vmovg i k f) = some x) (hgo : vecGo s x = true)
    (hraw : (vregAt s i (physV (isSplit s i) k f.a.toNat)).raw = false)
    (hw : (vregAt s i (physV (isSplit s i) k f.a.toNat)).w = true → f.immBits 7 0 < 128) :
    Answers (.vmovg i k f) s fun t => coreOnly s t i ∧
      coreAt t i = setG s i k f.d.toNat (w64 (wrapBits 64
        (if f.modBits 104 104 = 1 then (vregAt s i (physV (isSplit s i) k f.a.toNat)).x
        else (vregAt s i (physV (isSplit s i) k f.a.toNat)).codes.getD (f.immBits 7 0) 0))) (vecStarted s x) := by
  have hz := vecGo_sized hgo
  obtain ⟨rfl, rfl, rfl, hop⟩ := vecOf_vmovg h
  have hl := core_lt hz x.i
  have hrun := exec_clean h hgo (by rw [hop]; decide) (by rw [hop]; decide) rfl (run := runVmovg) fun u e ho he => by
    rw [runVec_op he (ho.trans hop)]; rfl
  have hreg : vregAt (x.started s false) x.i (physV (isSplit (x.started s false) x.i) (x.entry s false).ctx
      (x.entry s false).f.a.toNat) = vregAt s x.i (physV (isSplit s x.i) x.k x.f.a.toNat) := vregAt_started hz _
  generalize vregAt s x.i (physV (isSplit s x.i) x.k x.f.a.toNat) = r at hreg hraw hw
  have hok : (r.raw || (r.w && decide (128 ≤ x.f.immBits 7 0))) = false := by
    rw [hraw, Bool.false_or, Bool.and_eq_false_imp]
    exact fun h => decide_eq_false (not_le.2 (hw h))
  refine .of hrun (t := setCore s x.i (setG s x.i x.k x.f.d.toNat (w64 (wrapBits 64
    (if x.f.modBits 104 104 = 1 then r.x else r.codes.getD (x.f.immBits 7 0) 0))) (vecStarted s x))) ?_
    ⟨by rw [coreOnly, coreAt_setCore hl]; rfl, coreAt_setCore hl _⟩
  rw [runVmovg, hreg, ← setG_vecStarted hz]
  exact if_neg (by rw [show (x.entry s false).f = x.f from rfl, hok]; decide)

theorem vecOf_vrand (h : vecOf s (.vrand i k f) = some x) : x.of i k f 0x5D := by
  obtain rfl := Option.some.inj h
  exact ⟨rfl, rfl, rfl, rfl⟩

theorem vrand_fits (h : vecOf s (.vrand i k f) = some x) (hc : x.check (x.entry s false) = none) :
    groupFits (isSplit s x.i) x.f.d.toNat (nregOf x.f) = true := by
  obtain rfl := Option.some.inj h
  rw [← Nat.one_mul (nregOf _)]
  exact groupsCheck_fits hc (g := (f.d, 1)) (by simp)

theorem vrand_answers (h : vecOf s (.vrand i k f) = some x) (hgo : vecGo s x = true) : Answers (.vrand i k f) s fun t =>
    vecFrame s t x [] ∧
    groupIs s t x f.d.toNat ((List.range (nregOf f)).map fun r => mkVreg false (sext 12 (f.immBits 11 0)) false
      ((List.range 256).map fun l => ((stream (jobSeed s) (readG s i k f.a.toNat).toNat
        (((readG s i k f.b.toNat).toNat + 256 * r + l) % 2 ^ 64) / 2 ^ 33 : Nat) : Int))) := by
  have hz := vecGo_sized hgo
  have hfits := vrand_fits h (vecGo_check hgo)
  obtain ⟨rfl, rfl, rfl, hop⟩ := vecOf_vrand h
  have hrun := exec_clean h hgo (by rw [hop]; decide) (by rw [hop]; decide) rfl (run := runVrand) fun u e ho he => by
    rw [runVec_op he (ho.trans hop)]; rfl
  exact .of hrun rfl (setGroup_shows hz ((List.length_map _).trans List.length_range) hfits [])

/-! ## Reductions -/

theorem vecOf_vrsum (h : vecOf s (.vrsum i k f) = some x) : x.of i k f 0x54 := by
  obtain rfl := Option.some.inj h
  exact ⟨rfl, rfl, rfl, rfl⟩

theorem vecOf_vrmax (h : vecOf s (.vrmax i k f) = some x) : x.of i k f 0x55 := by
  obtain rfl := Option.some.inj h
  exact ⟨rfl, rfl, rfl, rfl⟩

theorem vecOf_vrcnt (h : vecOf s (.vrcnt i k f) = some x) : x.of i k f 0x56 := by
  obtain rfl := Option.some.inj h
  exact ⟨rfl, rfl, rfl, rfl⟩

theorem vecOf_vrssq (h : vecOf s (.vrssq i k f) = some x) : x.of i k f 0x57 := by
  obtain rfl := Option.some.inj h
  exact ⟨rfl, rfl, rfl, rfl⟩

theorem lane2_d (hsh : x.sh = lane2) (hgo : vecGo s x = true) : regFieldOk (isSplit s x.i) .v x.f.d.toNat = true := by
  have h := fieldsOk_d (vecGo_fields hgo)
  rwa [hsh] at h

theorem vrsum_answers {g : GroupRow} (hg : groupRow (x.opA s) = some g) (h : vecOf s (.vrsum i k f) = some x)
    (hgo : vecGo s x = true) : Answers (.vrsum i k f) s fun t => vecFrame s t x [CORE_VSATCNT i] ∧ vsatIs s t i (g.clamped + (clampCode true g.codes.sum).2) ∧
      groupIs s t x f.d.toNat [putCodes (vregAt s i (physV (isSplit s i) k f.d.toNat)) true g.x
        [(clampCode true g.codes.sum).1]] := by
  have hz := vecGo_sized hgo
  have hd := lane2_d (by obtain rfl := Option.some.inj h; rfl) hgo
  obtain ⟨rfl, rfl, rfl, hop⟩ := vecOf_vrsum h
  have hrun := exec_clean h hgo (by rw [hop]; decide) (by rw [hop]; decide) rfl (run := runVrsum) fun u e ho he => by
    rw [runVec_op he (ho.trans hop)]; rfl
  have hA : groupA (x.started s false) x.i (x.entry s false) = x.opA s := opA_started hz
  exact .of hrun (by rw [runVrsum, hA, hg]) (putResult_shows hz hd ..)

theorem vrmax_answers {g : GroupRow} (hg : groupRow (x.opA s) = some g) (h : vecOf s (.vrmax i k f) = some x)
    (hgo : vecGo s x = true) : Answers (.vrmax i k f) s fun t => vecFrame s t x [CORE_VSATCNT i] ∧ vsatIs s t i g.clamped ∧
      groupIs s t x f.d.toNat [putCodes (vregAt s i (physV (isSplit s i) k f.d.toNat)) g.w g.x
        [(maxMag g.codes : Int)]] := by
  have hz := vecGo_sized hgo
  have hd := lane2_d (by obtain rfl := Option.some.inj h; rfl) hgo
  obtain ⟨rfl, rfl, rfl, hop⟩ := vecOf_vrmax h
  have hrun := exec_clean h hgo (by rw [hop]; decide) (by rw [hop]; decide) rfl (run := runVrmax) fun u e ho he => by
    rw [runVec_op he (ho.trans hop)]; rfl
  have hA : groupA (x.started s false) x.i (x.entry s false) = x.opA s := opA_started hz
  exact .of hrun (by rw [runVrmax, hA, hg]) (putResult_shows hz hd ..)

theorem vrcnt_answers {g : GroupRow} (hg : groupRow (x.opA s) = some g) (h : vecOf s (.vrcnt i k f) = some x)
    (hgo : vecGo s x = true) : Answers (.vrcnt i k f) s fun t => vecFrame s t x [CORE_VSATCNT i] ∧ vsatIs s t i g.clamped ∧
      groupIs s t x f.d.toNat [putCodes (vregAt s i (physV (isSplit s i) k f.d.toNat)) false 0
        [((g.codes.filter (· != 0)).length : Int)]] := by
  have hz := vecGo_sized hgo
  have hd := lane2_d (by obtain rfl := Option.some.inj h; rfl) hgo
  obtain ⟨rfl, rfl, rfl, hop⟩ := vecOf_vrcnt h
  have hrun := exec_clean h hgo (by rw [hop]; decide) (by rw [hop]; decide) rfl (run := runVrcnt) fun u e ho he => by
    rw [runVec_op he (ho.trans hop)]; rfl
  have hA : groupA (x.started s false) x.i (x.entry s false) = x.opA s := opA_started hz
  exact .of hrun (by rw [runVrcnt, hA, hg]) (putResult_shows hz hd ..)

theorem vrssq_answers {g : GroupRow} (hg : groupRow (x.opA s) = some g) (h : vecOf s (.vrssq i k f) = some x)
    (hgo : vecGo s x = true) : Answers (.vrssq i k f) s fun t => vecFrame s t x [CORE_VSATCNT i] ∧ vsatIs s t i g.clamped ∧
      groupIs s t x f.d.toNat [putCodes (vregAt s i (physV (isSplit s i) k f.d.toNat)) true 0
        [((squareSum g.x g.codes).sum : Int), (squareSum g.x g.codes).ex]] := by
  have hz := vecGo_sized hgo
  have hd := lane2_d (by obtain rfl := Option.some.inj h; rfl) hgo
  obtain ⟨rfl, rfl, rfl, hop⟩ := vecOf_vrssq h
  have hrun := exec_clean h hgo (by rw [hop]; decide) (by rw [hop]; decide) rfl (run := runVrssq) fun u e ho he => by
    rw [runVec_op he (ho.trans hop)]; rfl
  have hA : groupA (x.started s false) x.i (x.entry s false) = x.opA s := opA_started hz
  exact .of hrun (by rw [runVrssq, hA, hg]) (putResult_shows hz hd ..)

end

/-- Settles O8: each form by the lemma of its name. -/
theorem movesReductionsDraws : Obligations.MovesReductionsDraws := by
  unfold Obligations.MovesReductionsDraws
  exact ⟨fun i k f s x => ⟨vmov_answers, vsplat_answers, vmovg_answers, fun l => vmul_answers, vsqadd_answers⟩,
    fun i k f s x g hg => ⟨vrsum_answers hg, vrmax_answers hg, vrcnt_answers hg, vrssq_answers hg, vrand_answers⟩⟩

end Sys2Proof.Machine
end

section
/-! PROOFS. Rescaling, activation and quantisation (R88, R100, R153, R160, R161). -/

namespace Sys2Proof.Machine

theorem length_groupsOf {α : Type} (k m : Nat) (l : List α) : (groupsOf k m l).length = m := by
  induction m generalizing l with
  | zero => rfl
  | succ m ih => rw [groupsOf, List.length_cons, ih]

/-! ## Rescale and activate -/

section
variable {i : CoreId} {k : CtxId} {f : Fields} {s : State} {x : QForm}

theorem vecOf_vresc (h : vecOf s (.vresc i k f) = some x) : x.of i k f 0x4B := by
  obtain rfl := Option.some.inj h
  exact ⟨rfl, rfl, rfl, rfl⟩

theorem vresc_fits (h : vecOf s (.vresc i k f) = some x) (hc : x.check (x.entry s false) = none) (hmod : f.modBits 104 104 = 0) :
    groupFits (isSplit s x.i) x.f.d.toNat (nregOf x.f) = true := by
  obtain rfl := Option.some.inj h
  rw [← Nat.one_mul (nregOf _)]
  refine groupsCheck_fits hc (g := (f.d, 1)) ?_
  rw [if_neg (by rw [hmod]; decide)]
  simp

theorem exec_vresc (h : vecOf s (.vresc i k f) = some x) (hgo : vecGo s x = true) :
    exec (.vresc i k f) s = .next (runVresc (x.started s false) x.i (x.entry s false)) := by
  obtain ⟨rfl, rfl, rfl, hop⟩ := vecOf_vresc h
  exact exec_clean h hgo (by rw [hop]; decide) (by rw [hop]; decide) rfl (run := runVresc) fun u e ho he => by
    rw [runVec_op he (ho.trans hop)]; rfl

/-- Lane results are written and counted. -/
theorem writeLanes_shows (hz : sized s = true) {rs : List LaneRes} {l : List (VReg × Nat)} (hl : allSome rs = some l)
    (hlen : rs.length = nregOf x.f) (hf : groupFits (isSplit s x.i) x.f.d.toNat (nregOf x.f) = true) :
    vecFrame s (writeLanes (x.started s false) x.i (x.entry s false) rs) x [CORE_VSATCNT x.i] ∧
    groupIs s (writeLanes (x.started s false) x.i (x.entry s false) rs) x x.f.d.toNat (l.map (·.1)) ∧
    vsatIs s (writeLanes (x.started s false) x.i (x.entry s false) rs) x.i (l.map (·.2)).sum := by
  have heq : writeLanes (x.started s false) x.i (x.entry s false) rs =
      countVsat (setGroup (x.started s false) x.i x.k x.f.d.toNat (l.map (·.1))) x.i (l.map (·.2)).sum := by
    rw [writeLanes, hl]
    rfl
  have hlen' : (l.map (·.1)).length = nregOf x.f := by rw [List.length_map, length_of_allSome hl, hlen]
  rw [heq]
  obtain ⟨h1, h2⟩ := setGroup_satF_shows (x := x) (ecc := false) hz hlen' hf (CORE_VSATCNT x.i) CORE_VSATCNT_VSAT (l.map (·.2)).sum
  exact ⟨h1, h2, vsatIs_setGroup hz ..⟩

theorem vresc_same_answers {l : List (VReg × Nat)} (h : vecOf s (.vresc i k f) = some x) (hgo : vecGo s x = true)
    (hmod : f.modBits 104 104 = 0) (hl : allSome ((x.opA s).map (laneResc (sext 12 (f.immBits 11 0)))) = some l) :
    Answers (.vresc i k f) s fun t => vecFrame s t x [CORE_VSATCNT i] ∧ groupIs s t x f.d.toNat (l.map (·.1)) ∧
      vsatIs s t i (l.map (·.2)).sum := by
  have hz := vecGo_sized hgo
  have hfits := vresc_fits h (vecGo_check hgo) hmod
  have hrun := exec_vresc h hgo
  obtain ⟨rfl, rfl, rfl, hop⟩ := vecOf_vresc h
  have hA : groupA (x.started s false) x.i (x.entry s false) = x.opA s := opA_started hz
  refine .of hrun ?_ (writeLanes_shows hz hl (by rw [List.length_map, length_opA]) hfits)
  rw [runVresc, hA]
  exact if_pos hmod

theorem length_widenResc (tgt : Int) (r : VReg) : (widenResc tgt r).1.length = 2 := rfl

theorem vresc_widen_answers (h : vecOf s (.vresc i k f) = some x) (hgo : vecGo s x = true) (hmod : f.modBits 104 104 = 1)
    (hall : (x.opA s).all (fun r => !r.raw && !r.w) = true) (hfits : groupFits (isSplit s i) f.d.toNat (2 * nregOf f) = true) :
    Answers (.vresc i k f) s fun t => vecFrame s t x [CORE_VSATCNT i] ∧
      groupIs s t x f.d.toNat ((x.opA s).flatMap fun r => (widenResc (sext 12 (f.immBits 11 0)) r).1) := by
  have hz := vecGo_sized hgo
  have hrun := exec_vresc h hgo
  obtain ⟨rfl, rfl, rfl, hop⟩ := vecOf_vresc h
  have hA : groupA (x.started s false) x.i (x.entry s false) = x.opA s := opA_started hz
  have hflat : ((x.opA s).flatMap fun r => (widenResc (sext 12 (x.f.immBits 11 0)) r).1).length = 2 * nregOf x.f := by
    rw [List.length_flatMap]
    simp [length_widenResc, length_opA, Nat.mul_comm]
  have hraw : (x.opA s).any (·.raw) = false := by
    rw [List.any_eq_false]
    intro r hr
    have := List.all_eq_true.1 hall r hr
    simp only [Bool.and_eq_true, Bool.not_eq_true'] at this
    simp [this.1]
  have hwide (r : VReg) (hr : r ∈ x.opA s) : r.w = false := by
    have := List.all_eq_true.1 hall r hr
    simp only [Bool.and_eq_true, Bool.not_eq_true'] at this
    exact this.2
  have hhead : ((x.opA s).head?.map (·.w)).getD false = false := by
    cases hl : x.opA s with
    | nil => rfl
    | cons r l => exact hwide r (by rw [hl]; exact List.mem_cons_self)
  have hsame : (x.opA s).any (fun r => r.w != false) = false := by
    rw [List.any_eq_false]
    intro r hr
    simp [hwide r hr]
  refine .of hrun ?_ (setGroup_satF_shows hz hflat hfits (CORE_VSATCNT x.i) CORE_VSATCNT_VSAT
    (((x.opA s).map (widenResc (sext 12 (x.f.immBits 11 0)))).map (·.2)).sum)
  have hmod0 : ¬ (x.entry s false).f.modBits 104 104 = 0 := fun h => absurd (h.symm.trans hmod) (by decide)
  have hfits' : groupFits (isSplit (x.started s false) x.i) (x.entry s false).f.d.toNat (2 * nregOf (x.entry s false).f) = true := hfits
  rw [runVresc, hA]
  simp only [if_neg hmod0, hraw, hhead, hsame, Bool.or_self, Bool.false_eq_true, if_false, hfits', Bool.not_true,
    List.flatMap_map]
  rfl

theorem vresc_narrow_answers (h : vecOf s (.vresc i k f) = some x) (hgo : vecGo s x = true) (hmod : f.modBits 104 104 = 1)
    (hall : (x.opA s).all (fun r => !r.raw && r.w) = true) (heven : nregOf f % 2 = 0)
    (hfits : groupFits (isSplit s i) f.d.toNat (nregOf f / 2) = true) :
    Answers (.vresc i k f) s fun t => vecFrame s t x [CORE_VSATCNT i] ∧
      groupIs s t x f.d.toNat ((groupsOf 2 (nregOf f / 2) (x.opA s)).map fun p =>
        (narrowResc (sext 12 (f.immBits 11 0)) p).1) := by
  have hz := vecGo_sized hgo
  have hrun := exec_vresc h hgo
  obtain ⟨rfl, rfl, rfl, hop⟩ := vecOf_vresc h
  have hA : groupA (x.started s false) x.i (x.entry s false) = x.opA s := opA_started hz
  have hlen : ((groupsOf 2 (nregOf x.f / 2) (x.opA s)).map fun p =>
      (narrowResc (sext 12 (x.f.immBits 11 0)) p).1).length = nregOf x.f / 2 := by
    rw [List.length_map, length_groupsOf]
  have hraw : (x.opA s).any (·.raw) = false := by
    rw [List.any_eq_false]
    intro r hr
    have := List.all_eq_true.1 hall r hr
    simp only [Bool.and_eq_true, Bool.not_eq_true'] at this
    simp [this.1]
  have hwide (r : VReg) (hr : r ∈ x.opA s) : r.w = true := by
    have := List.all_eq_true.1 hall r hr
    simp only [Bool.and_eq_true, Bool.not_eq_true'] at this
    exact this.2
  have hhead : ((x.opA s).head?.map (·.w)).getD false = true := by
    cases hl : x.opA s with
    | nil =>
      have := length_opA x s
      rw [hl] at this
      exact absurd this (by simp [nregOf])
    | cons r l => exact hwide r (by rw [hl]; exact List.mem_cons_self)
  have hsame : (x.opA s).any (fun r => r.w != true) = false := by
    rw [List.any_eq_false]
    intro r hr
    simp [hwide r hr]
  refine .of hrun ?_ (setGroup_satF_shows hz hlen hfits (CORE_VSATCNT x.i) CORE_VSATCNT_VSAT
    (((groupsOf 2 (nregOf x.f / 2) (x.opA s)).map (narrowResc (sext 12 (x.f.immBits 11 0)))).map (·.2)).sum)
  have hmod0 : ¬ (x.entry s false).f.modBits 104 104 = 0 := fun h => absurd (h.symm.trans hmod) (by decide)
  have hfits' : groupFits (isSplit (x.started s false) x.i) (x.entry s false).f.d.toNat (nregOf (x.entry s false).f / 2) = true := hfits
  have heven' : ¬ nregOf (x.entry s false).f % 2 = 1 := by
    show ¬ nregOf x.f % 2 = 1
    omega
  rw [runVresc, hA]
  simp only [if_neg hmod0, hraw, hhead, hsame, Bool.or_self, Bool.false_eq_true, if_false, if_true, hfits', Bool.not_true,
    decide_eq_false heven', List.map_map]
  rfl

theorem vecOf_vact (h : vecOf s (.vact i k f) = some x) : x.of i k f 0x59 := by
  obtain rfl := Option.some.inj h
  exact ⟨rfl, rfl, rfl, rfl⟩

theorem firstFault_head_none {a : Option Nat} {l : List (Option Nat)} (h : firstFault (a :: l) = none) : a = none := by
  cases a with
  | none => rfl
  | some c => cases h

theorem vact_fits (h : vecOf s (.vact i k f) = some x) (hc : x.check (x.entry s false) = none) :
    groupFits (isSplit s x.i) x.f.d.toNat (nregOf x.f) = true := by
  obtain rfl := Option.some.inj h
  rw [← Nat.one_mul (nregOf _)]
  exact groupsCheck_fits (firstFault_head_none hc) (g := (f.d, 1)) (List.mem_cons_of_mem _ List.mem_cons_self)

theorem vact_answers {tab : ActTable} {l : List (VReg × Nat)} (h : vecOf s (.vact i k f) = some x) (hgo : vecGo s x = true)
    (htab : readTable s i (addrOf (readG s i k f.b.toNat) f) = some tab) (hl : allSome ((x.opA s).map (laneAct tab)) = some l) :
    Answers (.vact i k f) s fun t => vecFrame s t x [CORE_VSATCNT i] ∧
      groupIs s t x f.d.toNat (l.map (·.1)) ∧ vsatIs s t i (l.map (·.2)).sum := by
  have hz := vecGo_sized hgo
  have hfits := vact_fits h (vecGo_check hgo)
  obtain ⟨rfl, rfl, rfl, hop⟩ := vecOf_vact h
  have hrun := exec_clean h hgo (by rw [hop]; decide) (by rw [hop]; decide) rfl (run := runVact) fun u e ho he => by
    rw [runVec_op he (ho.trans hop)]; rfl
  have hA : groupA (x.started s false) x.i (x.entry s false) = x.opA s := opA_started hz
  have htab' : readTable (x.started s false) x.i (addrOf (x.entry s false).gb (x.entry s false).f) = some tab := htab
  refine .of hrun ?_ (writeLanes_shows hz hl (by rw [List.length_map, length_opA]) hfits)
  rw [runVact, htab', hA]

end

/-! ## Rows stored -/

theorem regsSameBut.mono {s t : State} {as bs : List Nat} (h : regsSameBut s t as) (hs : as ⊆ bs) : regsSameBut s t bs :=
  fun a ha => h a fun hm => ha (hs hm)

/-- From `s` to `t` registers and waiting records alone may have changed. -/
def RegsRec (s t : State) : Prop := ∃ r rec, t = { s with regs := r, recorder := rec }

theorem RegsRec.refl (s : State) : RegsRec s s := ⟨s.regs, s.recorder, rfl⟩

theorem RegsRec.setR {s t : State} (h : RegsRec s t) (a : Nat) (v : Word32) : RegsRec s (setR t a v) := by
  obtain ⟨r, rec, rfl⟩ := h
  exact ⟨_, _, rfl⟩

theorem RegsRec.putF {s t : State} (h : RegsRec s t) (a : Nat) (f : Fld) (n : Nat) : RegsRec s (putF t a f n) := h.setR ..

theorem RegsRec.satF {s t : State} (h : RegsRec s t) (a : Nat) (f : Fld) (n : Nat) : RegsRec s (satF t a f n) := h.putF ..

theorem RegsRec.makeRecord {s t : State} (h : RegsRec s t) (src typ : Nat) (b : List Word64) :
    RegsRec s (makeRecord t src typ b) := by
  obtain ⟨r, rec, rfl⟩ := h
  exact ⟨r, _, makeRecord_eq ..⟩

theorem RegsRec.countQuant {s t : State} (h : RegsRec s t) (i : Nat) (q : Quant) (layer role : Nat) :
    RegsRec s (countQuant t i q layer role) := by
  unfold Machine.countQuant
  extract_lets t1 t2 t3 t4
  have h2 : RegsRec s t2 := (h.satF ..).satF ..
  have h4 : RegsRec s t4 := by
    unfold t4
    split
    · split
      · exact (h2.satF ..).makeRecord ..
      · exact h2.satF ..
    · exact h2
  split
  · exact h4.putF ..
  · exact h4

theorem RegsRec.countVoids {s t : State} (h : RegsRec s t) (i n addr : Nat) : RegsRec s (countVoids t i n addr) := by
  unfold Machine.countVoids
  split
  · exact h
  · dsimp only
    split
    · exact (h.satF ..).makeRecord ..
    · exact h.satF ..

theorem regsSameBut_countQuant (s : State) (i : Nat) (q : Quant) (layer role : Nat) : regsSameBut s (countQuant s i q layer role)
    [CORE_QSATCNT i, CORE_QZEROCNT i, CORE_QCEILCNT i, CORE_NUMSTAT i] := by
  unfold countQuant
  extract_lets t1 t2 t3 t4
  have h2 : regsSameBut s t2 [CORE_QSATCNT i, CORE_QZEROCNT i, CORE_QCEILCNT i, CORE_NUMSTAT i] :=
    ((regsSameBut.refl s _).satF (by simp) _ _).satF (by simp) _ _
  have h4 : regsSameBut s t4 [CORE_QSATCNT i, CORE_QZEROCNT i, CORE_QCEILCNT i, CORE_NUMSTAT i] := by
    unfold t4
    split
    · split
      · exact (h2.satF (by simp) _ _).of_regs (makeRecord_regs ..)
      · exact h2.satF (by simp) _ _
    · exact h2
  split
  · exact h4.putF (by simp) _ _
  · exact h4

theorem RegsRec.writeBytes {s t : State} (h : RegsRec s t) (a : Nat) (bs : List Byte) :
    RegsRec (writeBytes s a bs) (writeBytes t a bs) := by
  obtain ⟨r, rec, rfl⟩ := h
  exact ⟨r, rec, rfl⟩

/-- The registers that a store with counts may change. -/
theorem regsSameBut_storeCounted {s u : State} (h : u.regs = s.regs) (i n a : Nat) (bs : List Byte) (q : Quant) (layer role : Nat) :
    regsSameBut s (countQuant (Machine.writeBytes (countVsat u i n) a bs) i q layer role)
      [CORE_VSATCNT i, CORE_QSATCNT i, CORE_QZEROCNT i, CORE_QCEILCNT i, CORE_NUMSTAT i] := by
  have h1 : regsSameBut s (Machine.writeBytes (countVsat u i n) a bs) [CORE_VSATCNT i, CORE_QSATCNT i, CORE_QZEROCNT i,
      CORE_QCEILCNT i, CORE_NUMSTAT i] :=
    ((regsSameBut_of_regs h _).satF List.mem_cons_self CORE_VSATCNT_VSAT n).of_regs rfl
  exact h1.trans ((regsSameBut_countQuant _ i q layer role).mono (List.subset_cons_self _ _))

section
variable {s t : State} {x : QForm}

/-- A run that stored bytes, and changed registers and records besides. -/
theorem vecStoreFrame_of {as : List Nat} {off : Nat} {bs : List Byte}
    (ht : RegsRec (writeBytes (x.started s false) (csBase x.i + off) bs) t) (hr : regsSameBut s t as) :
    readBytes t (csBase x.i + off) bs.length = bs ∧ vecStoreFrame s t x as off bs.length := by
  obtain ⟨r, rec, ht⟩ := ht
  have hmem : t.mem = (writeBytes (x.started s false) (csBase x.i + off) bs).mem := by rw [ht]
  refine ⟨?_, by rw [ht]; rfl, hr, fun a ha => ?_⟩
  · rw [readBytes_congr hmem, readBytes_writeBytes]
  · rw [readByte_congr hmem, readByte_writeBytes, if_neg (by omega)]
    rfl

end

/-! ## Quantisation into a row -/

section
variable {i : CoreId} {k : CtxId} {f : Fields} {s : State} {x : QForm}

theorem vecOf_vqnt (h : vecOf s (.vqnt i k f) = some x) : x.of i k f 0x52 := by
  obtain rfl := Option.some.inj h
  exact ⟨rfl, rfl, rfl, rfl⟩

/-- Without a job no layer selects channels. -/
theorem openPith_of_no_job {u : State} (h : u.job = none) (i : Nat) (d : QDesc) : openPith u i d = u := by
  have hcw : controlWord u d.layer = 0 := by simp [controlWord, h]
  simp [openPith, hcw, bitsOf]

theorem fillPeaks_of_no_job {u : State} (h : u.job = none) (d : QDesc) (x : Int) (xs : List Int) : fillPeaks u d x xs = u := by
  simp [fillPeaks, h]

/-- What a quantisation without pith columns and without a monitor record makes of a row. -/
def plainQuant (fr : FloorRule) (d : QDesc) (x : Int) (xs : List Int) : Quant :=
  if d.given then quantGiven d.fmt d.exp x xs else quantFit d.fmt fr x xs

theorem quantiseRow_plain {u : State} (hjob : u.job = none) {d : QDesc} (hmon : d.mon = false) (i : Nat) (fr : FloorRule)
    (x : Int) (xs : List Int) : quantiseRow u i fr d x xs [] =
      countQuant (writeBytes u (csBase i + d.dest) ((plainQuant fr d x xs).row d.fmt d.lane)) i (plainQuant fr d x xs) d.layer d.role := by
  have hxs : (xs.zipIdx).map (fun p => if ([] : List Nat).contains p.2 then 0 else p.1) = xs := by
    simp
  simp only [quantiseRow, hxs, fillPeaks_of_no_job hjob, hmon, List.isEmpty_nil, if_true, Bool.false_eq_true, if_false]
  rfl

theorem runVqnt_plain {u : State} {i : Nat} {e : QEntry} {ws : List Word64} {d : QDesc} {g : GroupRow}
    (hws : readWords u (csBase i + addrOf e.ga e.f) 8 = ws) (hd : qdescOf ws = d) (hg : groupRow (groupD u i e) = some g)
    (hbad : qdescBad ws d = false) (hlen : d.len ≤ g.codes.length) (halign : d.dest % 8 = 0)
    (hrange : csRangeOk d.dest (rowSize d.fmt d.lane d.len) = true) (hpith : d.pith = false) (hmon : d.mon = false)
    (hjob : u.job = none) : runVqnt u i e =
      quantiseRow (countVsat u i g.clamped) i (floorOf e.hold) d g.x (g.codes.take d.len) [] := by
  simp [runVqnt, hws, hd, hg, hbad, not_lt.2 hlen, halign, hrange, hpith, hmon, openPith_of_no_job hjob]

theorem vqnt_answers {ws : List Word64} {d : QDesc} {g : GroupRow} {q : Quant}
    (h : vecOf s (.vqnt i k f) = some x) (hgo : vecGo s x = true)
    (hws : ws = readWords s (csBase i + addrOf (readG s i k f.a.toNat) f) 8) (hd : d = qdescOf ws)
    (hg : groupRow (x.opD s) = some g) (hbad : qdescBad ws d = false) (hlen : d.len ≤ g.codes.length) (halign : d.dest % 8 = 0)
    (hrange : csRangeOk d.dest (rowSize d.fmt d.lane d.len) = true) (hpith : d.pith = false) (hmon : d.mon = false)
    (hjob : s.job = none) (hq : q = plainQuant (floorRule s i) d g.x (g.codes.take d.len)) :
    Answers (.vqnt i k f) s fun t =>
      readBytes t (csBase i + d.dest) (q.row d.fmt d.lane).length = q.row d.fmt d.lane ∧
      vecStoreFrame s t x [CORE_VSATCNT i, CORE_QSATCNT i, CORE_QZEROCNT i, CORE_QCEILCNT i, CORE_NUMSTAT i]
        d.dest (q.row d.fmt d.lane).length := by
  have hz := vecGo_sized hgo
  obtain ⟨rfl, rfl, rfl, hop⟩ := vecOf_vqnt h
  have hrun := exec_clean h hgo (by rw [hop]; decide) (by rw [hop]; decide) rfl (run := runVqnt) fun u e ho he => by
    rw [runVec_op he (ho.trans hop)]; rfl
  have hD : groupD (x.started s false) x.i (x.entry s false) = x.opD s := opD_started hz
  have hread : readWords (x.started s false) (csBase x.i + addrOf (x.entry s false).ga (x.entry s false).f) 8 = ws :=
    (readWords_congr rfl _ _).trans hws.symm
  have hrow := runVqnt_plain hread hd.symm (by rw [hD, hg]) hbad hlen halign hrange hpith hmon hjob
  have hfloor : floorOf (x.entry s false).hold = floorRule s x.i := rfl
  have hjob' : (countVsat (x.started s false) x.i g.clamped).job = none := by rw [countVsat, satF_job]; exact hjob
  rw [quantiseRow_plain hjob' hmon, hfloor, ← hq] at hrow
  exact .of hrun hrow (vecStoreFrame_of ((((RegsRec.refl _).satF ..).writeBytes ..).countQuant ..)
    (regsSameBut_storeCounted (u := x.started s false) rfl _ _ _ _ _ _ _))

end

/-- Settles O9: VRESC by its three forms, VACT by its table, VQNT into the row that its descriptor names. -/
theorem rescaleAndActivate : Obligations.RescaleAndActivate := by
  unfold Obligations.RescaleAndActivate
  refine ⟨fun i k f s x => ⟨fun h hgo => ⟨fun l => vresc_same_answers h hgo, vresc_widen_answers h hgo, vresc_narrow_answers h hgo⟩,
    fun tab l => vact_answers⟩, fun i k f s x ws d g q h hgo hws hd hg hbad hlen halign hrange hpith hmon hjob hq => ?_⟩
  exact vqnt_answers h hgo hws hd hg hbad hlen halign hrange hpith hmon hjob hq

end Sys2Proof.Machine
end

section
/-! PROOFS. A vector instruction that reads a bad word while the step holds it raises no fault yet (R230, R257, R359). -/

namespace Sys2Proof.Machine

/-- VUMU of zero operands whose data words could not be read. -/
def badUpdate : Fields :=
  { pneg := false, pred := 0, sigen := false, sigc := 0, mod := 0, d := 0, a := 0, b := 0, c := 0, sub := 0, imm := 0, dataBad := true }

/-- The job's step end is at its second action. -/
def heldStepJob : Job :=
  { desc := [], stat := .running, step := 0, item := none, endItem := none, fwdWide := [], agWide := [], clean := [], vector := []
    dramRes := 0, csRes := 0, ratio := false, widenDue := false, relItem := none, stepEnd := 2, skipUpdate := false
    started := true, idleRep := false, payload := [], peaks := [], piths := [], vecAt := 0, inputs := [] }

/-- Core 0 runs a task of the schedule, its vector engine granted, while the step end holds the updates. -/
def heldUpdateState : State :=
  { modCore .reset 0 fun c => { c with
      ctx0 := { Ctx.reset with stat := .running }
      veGrant := true
      task := some { record := [], entry := some 0, mbox := none, slot := none, fails := 0, lastCore := none, parts := 1 } }
    with job := some heldStepJob }

/-- The context of core 0 is abandoned after a command. -/
def abortsAfter (c : Instr) (s : State) : Bool :=
  match exec c s with
  | .next t => (ctxAt t 0 0).stat = .aborting
  | _ => false

theorem abortsAfter_of_faulted {c : Instr} {s : State} {k : CtxId} {q code : Nat} {P : State → Prop} (hk : k = 0)
    (h : Answers c s fun t => faulted s t 0 k q code ∧ P t) : abortsAfter c s = true := by
  subst hk
  obtain ⟨t, he, ⟨hstat, -⟩, -⟩ := h
  rw [abortsAfter, he]
  exact decide_eq_true hstat

/-- Refutes O10, in its last clause: VUMU of a task of the schedule that R230 holds, with a bad word to read, raises no fault
when it issues. -/
theorem not_rowsLoadedAndStored : ¬ Obligations.RowsLoadedAndStored := by
  unfold Obligations.RowsLoadedAndStored
  intro ⟨_, h⟩
  have hfault := h (.vumu 0 0 badUpdate) heldUpdateState
    (vecForm 0 0 0x5A badUpdate { d := .g, a := .g, b := .g } true vumuCheck) rfl (by decide +kernel) (by decide +kernel)
    (by decide +kernel) (by decide +kernel) (by decide +kernel) (by decide +kernel) rfl
  exact absurd (abortsAfter_of_faulted rfl hfault) (by decide +kernel)

end Sys2Proof.Machine
end

section
/-! PROOFS. Waits, fences and yield points that end (R186 to R188, R206, R208, R210). -/

namespace Sys2Proof.Machine

/-! ## Waits and fences -/

section
variable {s : State} {i : CoreId} {k : CtxId}

/-- A core whose held context goes on with the next instruction. -/
def goesOn (k : CtxId) (c : Core) : Core := stepped k (c.setCtx k { (c.ctx k) with hold := .none, stat := .running })

theorem goesOn_ctx (k : CtxId) (c : Core) :
    (goesOn k c).ctx k = { (stepped k c).ctx k with hold := .none, stat := .running } := by
  rw [goesOn, stepped, ctx_setCtx, ctx_setCtx, stepped, ctx_setCtx]

theorem goesOn_sc (k : CtxId) (c : Core) : (goesOn k c).sc = c.sc := (setCtx_sc ..).trans (setCtx_sc ..)

theorem goesOn_heldWaits (k : CtxId) (c : Core) : (goesOn k c).heldWaits = c.heldWaits :=
  (setCtx_heldWaits ..).trans (setCtx_heldWaits ..)

theorem advance_running (hi : i.val < s.cores.length) :
    advance (setCtxAt s i k { (ctxAt s i k) with hold := .none, stat := .running }) i k = modCore s i (goesOn k) := by
  rw [advance_eq, setCtxAt, modCore_modCore hi]
  rfl

/-- A core whose WAIT has gone, its amount taken. -/
def waitTaken (h : Held) (v : Nat) (c : Core) : Core := { (countSet h.counter v c) with heldWaits := c.heldWaits.erase h }

theorem dropWait_writeSc (hi : i.val < s.cores.length) (h : Held) (v : Nat) :
    dropWait (writeSc s i h.counter v) i h = modCore s i (waitTaken h v) := by
  rw [dropWait, writeSc_eq, modCore_modCore hi]
  rfl

theorem waitRelease_seq {h : Held} (hi : i.val < s.cores.length) (hq : quenched s = false)
    (hf : (coreAt s i).heldWaits.find? (·.place = .seq k) = some h) (hfirst : firstHeld (coreAt s i) h = true)
    (hn : h.n ≤ readSc s i h.counter) (hsig : h.sigen = false) :
    waitRelease s i (.seq k) = modCore s i fun c => goesOn k (waitTaken h (readSc s i h.counter - h.n) c) := by
  have hi' : i.val < (modCore s i (waitTaken h (readSc s i h.counter - h.n))).cores.length := by
    rw [modCore_cores_length]; exact hi
  simp only [waitRelease, hf, hq, hfirst, decide_eq_false (not_lt.2 hn), Bool.not_true, Bool.or_self, Bool.false_eq_true, if_false,
    dropWait_writeSc hi, hsig, signalDone]
  rw [advance_running hi', modCore_modCore hi]

/-- What a counter reads once an amount is taken. -/
theorem readSc_taken_amount (hz : sized s = true) {m : Nat} (hm : m < 16) (a n : Nat) :
    (((coreAt s i).sc.set m (BitVec.ofNat 32 (readSc s i m - a))).getD n 0).toNat =
      if n = m then readSc s i n - a else readSc s i n := by
  have hlen := (coreSized_iff.1 (sized_core hz i)).2.1
  have hlt : readSc s i m < 2 ^ 32 := ((coreAt s i).sc.getD m 0).isLt
  rw [List.getD_eq_getElem?_getD, List.getElem?_set]
  by_cases h : n = m
  · subst h
    rw [if_pos rfl, if_pos (by omega), if_pos rfl]
    simp only [Option.getD_some, BitVec.toNat_ofNat]
    omega
  · rw [if_neg (Ne.symm h), if_neg h, readSc, List.getD_eq_getElem?_getD]

theorem waitTimeout_seq {h : Held} (hq : quenched s = false) (hf : (coreAt s i).heldWaits.find? (·.place = .seq k) = some h)
    (hlim : getF s (CORE_SEQCTL i) CORE_SEQCTL_WAIT_LIM ≠ 0)
    (hlate : getF s (CORE_SEQCTL i) CORE_SEQCTL_WAIT_LIM * 1000000 < s.time.ns - h.since - h.quenched) :
    waitTimeout s i (.seq k) = faultAbort s i k 0 faultWaitTimeout h.pc true := by
  have hlate' : ¬ s.now - h.since - h.quenched ≤ getF s (CORE_SEQCTL i) CORE_SEQCTL_WAIT_LIM * 1000000 := not_le.2 hlate
  simp [waitTimeout, hf, hq, hlim, hlate']

/-- A core whose fence has opened, its signal given. -/
def fencePassed (split : Bool) (k : CtxId) (sigen : Bool) (sigc : Nat) (c : Core) : Core :=
  if sigen then countSet (physSc split k sigc) ((c.sc.getD (physSc split k sigc) 0).toNat + 1) (goesOn k c) else goesOn k c

theorem fencePassed_ctx (split : Bool) (k : CtxId) (sigen : Bool) (sigc : Nat) (c : Core) :
    (fencePassed split k sigen sigc c).ctx k = { (stepped k c).ctx k with hold := .none, stat := .running } := by
  rw [← goesOn_ctx]
  unfold fencePassed
  split <;> rfl

theorem fenceRelease_open {mask : BitVec 4} {sigen : Bool} {sigc : Nat} (hi : i.val < s.cores.length) (hq : quenched s = false)
    (hh : (ctxAt s i k).hold = .fence mask sigen sigc) (ho : fenceOpen s i k mask.toNat = true)
    (hr : sigen = true → readSc s i (physSc (isSplit s i) k sigc) < 0xFFFFFFFF) :
    fenceRelease s i k = modCore s i (fencePassed (isSplit s i) k sigen sigc) := by
  simp only [fenceRelease, hh, hq, ho, Bool.not_true, Bool.or_self, Bool.false_eq_true, if_false]
  refine (congrArg (signalDone · i.val k sigen sigc 0 (ctxAt s i k).pc) (advance_running hi)).trans ?_
  cases sigen with
  | false => rfl
  | true =>
    have hsc : readSc (modCore s i (goesOn k)) i (physSc (isSplit s i) k sigc) = readSc s i (physSc (isSplit s i) k sigc) := by
      rw [readSc, coreAt_modCore hi, goesOn_sc, readSc]
    simp only [signalDone, if_true, addCounter, isSplit_modCore, hsc]
    rw [if_neg (by have := hr rfl; omega), writeSc_eq, modCore_modCore hi]
    rfl

theorem readSc_fencePassed (hz : sized s = true) {sigen : Bool} {sigc : Nat}
    (hr : sigen = true → physSc (isSplit s i) k sigc < 16 ∧ readSc s i (physSc (isSplit s i) k sigc) < 0xFFFFFFFF) (n : Nat) :
    readSc (modCore s i (fencePassed (isSplit s i) k sigen sigc)) i n =
      if sigen ∧ n = physSc (isSplit s i) k sigc then readSc s i n + 1 else readSc s i n := by
  rw [readSc, coreAt_modCore (core_lt hz i)]
  cases sigen with
  | false =>
    rw [if_neg (by simp)]
    exact congrArg (fun l => (List.getD l n 0).toNat) (goesOn_sc ..)
  | true =>
    obtain ⟨hlt, hroom⟩ := hr rfl
    have hadd := readSc_added (i := i) (a := 1) hz hlt (by omega) n
    have hsc : (fencePassed (isSplit s i) k true sigc (coreAt s i)).sc = (coreAt s i).sc.set (physSc (isSplit s i) k sigc)
        (BitVec.ofNat 32 (readSc s i (physSc (isSplit s i) k sigc) + 1)) :=
      congrArg (List.set · _ _) (goesOn_sc ..)
    rw [hsc, hadd]
    simp

theorem doneRelease_unready {sigc : Nat} (hq : quenched s = false)
    (hh : (ctxAt s i k).hold = .done false sigc) (ho : fenceOpen s i k 15 = true) (hover : (ctxAt s i k).over = false)
    (hy : yieldReady (setCtxAt s i k { (ctxAt s i k) with hold := .none, stat := .noTask, partDone := true }) i = false) :
    doneRelease s i k = setCtxAt s i k { (ctxAt s i k) with hold := .none, stat := .noTask, partDone := true } := by
  simp only [doneRelease, hh, hq, ho, Bool.not_true, Bool.or_self, Bool.false_eq_true, if_false, signalDone, hover]
  rw [settleYield, hy]
  rfl

end

/-! ## Yield points -/

section
variable (P : Ctx → Prop) [DecidablePred P] (g : Ctx → Ctx)

/-- A core in which the contexts of one kind have changed. -/
def onCtxs (c : Core) : Core := ctxIds.foldl (fun c k => if P (c.ctx k) then c.setCtx k (g (c.ctx k)) else c) c

theorem foldl_onCtxs {s : State} {i : Nat} (hi : i < s.cores.length) (ks : List CtxId) :
    ks.foldl (fun t k => if P (ctxAt t i k) then setCtxAt t i k (g (ctxAt t i k)) else t) s =
      modCore s i fun c => ks.foldl (fun c k => if P (c.ctx k) then c.setCtx k (g (c.ctx k)) else c) c := by
  induction ks generalizing s with
  | nil => exact (modCore_id s i).symm
  | cons k ks ih =>
    rw [List.foldl_cons]
    by_cases h : P (ctxAt s i k)
    · rw [if_pos h, ih (by rw [setCtxAt, modCore_cores_length]; exact hi), setCtxAt, modCore_modCore hi]
      simp only [modCore, List.foldl_cons]
      rw [if_pos (show P ((coreAt s i).ctx k) from h)]
      rfl
    · rw [if_neg h, ih hi]
      simp only [modCore, List.foldl_cons]
      rw [if_neg (show ¬ P ((coreAt s i).ctx k) from h)]

theorem onCtxs_frame (c : Core) : onCtxs P g c =
    { c with ctx0 := if P c.ctx0 then g c.ctx0 else c.ctx0, ctx1 := if P c.ctx1 then g c.ctx1 else c.ctx1 } := by
  by_cases h0 : P c.ctx0 <;> by_cases h1 : P c.ctx1 <;> simp [onCtxs, ctxIds, Core.ctx, Core.setCtx, h0, h1]

end

/-- A core whose contexts at a yield point have changed. -/
def onYield (g : Ctx → Ctx) (c : Core) : Core := onCtxs (·.stat = .atYield) g c

/-- The context at its yield point. -/
def yieldStood (f : Fields) (now : Bool) (x : Ctx) : Ctx := { x with stat := .atYield, yieldNow := now, live := f.imm }

/-- A core at the yield point of its context 0. -/
def yieldCore (s : State) (i : Nat) (f : Fields) (now : Bool) : Core :=
  (ctlEnd s i 0 f (coreAt s i)).setCtx 0 (yieldStood f now ((ctlEnd s i 0 f (coreAt s i)).ctx 0))

theorem signalled_ctx (s : State) (i : Nat) (k : CtxId) (f : Fields) (c : Core) (k' : CtxId) :
    (signalled s i k f c).ctx k' = c.ctx k' := by
  unfold signalled; dsimp only; split <;> rfl

theorem ctlEnd_ctx (s : State) (i : Nat) (k : CtxId) (f : Fields) (c : Core) (k' : CtxId) :
    (ctlEnd s i k f c).ctx k' = (stepped k c).ctx k' := signalled_ctx ..

theorem ctlEnd_frame (s : State) (i : Nat) (k : CtxId) (f : Fields) (c : Core) : (ctlEnd s i k f c).preq = c.preq ∧
    (ctlEnd s i k f c).task = c.task ∧ (ctlEnd s i k f c).ended = c.ended := by
  unfold ctlEnd signalled stepped Core.setCtx
  dsimp only
  split <;> split <;> exact ⟨rfl, rfl, rfl⟩

section
variable {s : State} {i : CoreId} {f : Fields}

theorem over_ctlEnd (hrun : (ctxAt s i 0).stat = .running) (hpart : (ctxAt s i 0).partDone = false) :
    ((ctlEnd s i 0 f (coreAt s i)).ctx 0).over = false := by
  have hrun' : ((coreAt s i).ctx 0).stat = .running := hrun
  have hpart' : ((coreAt s i).ctx 0).partDone = false := hpart
  rw [ctlEnd_ctx, stepped, ctx_setCtx]
  simp [Ctx.over, hrun', hpart']

/-- The state in which the core stands at its yield point. -/
def yieldState (s : State) (i : CoreId) (f : Fields) (now : Bool) : State := setCore s i (yieldCore s i f now)

theorem standAtYield_eq (hz : sized s = true) (hr : sigRoom s i 0 f = true) (hrun : (ctxAt s i 0).stat = .running)
    (hpart : (ctxAt s i 0).partDone = false) (hend : (coreAt s i).ended = none) (now : Bool) :
    standAtYield s i 0 f now = settleYield (yieldState s i f now) i := by
  have hl := core_lt hz i
  have hc : completeCtl s i 0 f = setCore s i (ctlEnd s i 0 f (coreAt s i)) := completeCtl_go (sized_cores hz) hr
  have hcore := coreAt_setCore hl (ctlEnd s i 0 f (coreAt s i))
  have hover := over_ctlEnd (f := f) hrun hpart
  obtain ⟨-, -, hend'⟩ := ctlEnd_frame s i 0 f (coreAt s i)
  rw [standAtYield, hc]
  simp only [ctxAt, hcore, hover, hend', hend, Option.isSome_none, Bool.or_self, Bool.false_eq_true, if_false]
  rw [setCtxAt, modCore_setCore hl]
  rfl

theorem coreAt_yieldState (hz : sized s = true) (now : Bool) : coreAt (yieldState s i f now) i = yieldCore s i f now :=
  coreAt_setCore (core_lt hz i) _

theorem yieldCore_frame (now : Bool) : (yieldCore s i f now).preq = (coreAt s i).preq ∧ (yieldCore s i f now).task = (coreAt s i).task ∧
    (yieldCore s i f now).ctx0 = yieldStood f now ((stepped 0 (coreAt s i)).ctx 0) := by
  obtain ⟨hp, ht, -⟩ := ctlEnd_frame s i 0 f (coreAt s i)
  rw [← ctlEnd_ctx s i 0 f]
  exact ⟨hp, ht, rfl⟩

/-- In the whole core a yield point with a request, or YIELD.NOW, is ready. -/
theorem yieldReady_yieldState (hz : sized s = true) (hsplit : isSplit s i = false) (hpart : (ctxAt s i 0).partDone = false)
    (now : Bool) (hnow : now = true ∨ (coreAt s i).preq.isSome = true) : yieldReady (yieldState s i f now) i = true := by
  have hcore := coreAt_yieldState (i := i) (f := f) hz now
  obtain ⟨hpreq, -, hctx⟩ := yieldCore_frame (s := s) (i := i) (f := f) now
  have h0 : ctxAt (yieldState s i f now) i 0 = yieldStood f now ((stepped 0 (coreAt s i)).ctx 0) := by
    rw [ctxAt, hcore]; exact hctx
  have hpart' : ((stepped 0 (coreAt s i)).ctx 0).partDone = false := by rw [stepped, ctx_setCtx]; exact hpart
  have hsplit' : isSplit (yieldState s i f now) i = false := hsplit
  have hlive : liveCtxs (yieldState s i f now) i = [0] := by
    simp [liveCtxs, ctxIds, hsplit', h0, yieldStood, hpart']
  have hst : (ctxAt (yieldState s i f now) i 0).stat = .atYield := by rw [h0]; rfl
  have hyn : (ctxAt (yieldState s i f now) i 0).yieldNow = now := by rw [h0]; rfl
  have hpq : (coreAt (yieldState s i f now) i).preq = (coreAt s i).preq := by rw [hcore]; exact hpreq
  simp only [yieldReady, hlive, List.isEmpty_cons, List.all_cons, List.all_nil, hst, hyn, hpq]
  rcases hnow with h | h <;> simp [h]

theorem saveObstacle_yieldState (now : Bool) : saveObstacle (yieldState s i f now) i = saveObstacle s i := rfl

theorem freeSlot_yieldState (now : Bool) (h : Nat) : freeSlot (yieldState s i f now) h = freeSlot s h := rfl

/-! ### The save begins -/

/-- The core of a task whose save has begun. -/
def savingCore (i n : Nat) (c : Core) : Core :=
  { (onYield (fun x => { x with stat := .saving }) c) with
    task := c.task.map fun t => { t with slot := some (256 * hearthOf i + n) } }

theorem beginSave_eq {u : State} (hi : i.val < u.cores.length) (n : Nat) : beginSave u i n =
    modHearth (modCore u i (savingCore i n)) (hearthOf i) fun h => { h with slots := h.slots ++ [n] } := by
  have hfold := foldl_onCtxs (·.stat = .atYield) (fun x => { x with stat := .saving }) hi ctxIds
  rw [beginSave]
  refine congrArg (modHearth · (hearthOf i) fun h => { h with slots := h.slots ++ [n] }) ?_
  rw [hfold, modCore_modCore hi]
  congr 1
  funext c
  have htask : (onYield (fun x => { x with stat := .saving }) c).task = c.task := by rw [onYield, onCtxs_frame]
  rw [savingCore, ← htask]
  rfl

theorem settleYield_save (hz : sized s = true) (hsplit : isSplit s i = false) (hpart : (ctxAt s i 0).partDone = false)
    {now : Bool} (hnow : now = true ∨ (coreAt s i).preq.isSome = true) (ho : saveObstacle s i = none) {n : Nat}
    (hn : freeSlot s (hearthOf i) = some n) : settleYield (yieldState s i f now) i =
      modHearth (setCore s i (savingCore i n (yieldCore s i f now))) (hearthOf i) fun h => { h with slots := h.slots ++ [n] } := by
  have hl := core_lt hz i
  rw [settleYield, yieldReady_yieldState hz hsplit hpart now hnow, saveObstacle_yieldState, freeSlot_yieldState, ho, hn]
  simp only [Bool.not_true, Bool.false_eq_true, if_false]
  rw [beginSave_eq (by rw [yieldState, sized_setCore_cores]; exact hl), yieldState, modCore_setCore hl]

theorem hearthAt_modHearth {u : State} {h : Nat} (hh : h < u.hearths.length) (g : Hearth → Hearth) :
    hearthAt (modHearth u h g) h = g (hearthAt u h) := by
  simp [hearthAt, modHearth, setHearth, List.getD_eq_getElem?_getD, hh]

theorem hearthOf_lt (hz : sized s = true) (i : CoreId) : hearthOf i < s.hearths.length := by
  have h := (sized_iff.1 hz).2.2.1
  have := i.isLt
  rw [h, hearthOf]
  omega

theorem coreAt_setCore_ne {i j : Nat} (h : j ≠ i) (c : Core) : coreAt (setCore s i c) j = coreAt s j := by
  simp [coreAt, setCore, List.getD_eq_getElem?_getD, List.getElem?_set_ne h.symm]

/-- What a save that begins at a yield point shows. -/
theorem save_shows (hz : sized s = true) (now : Bool) (n : Nat) {t : State}
    (ht : t = modHearth (setCore s i (savingCore i n (yieldCore s i f now))) (hearthOf i) fun h => { h with slots := h.slots ++ [n] }) :
    (ctxAt t i 0).stat = .saving ∧ (ctxAt t i 0).pc = ((stepped 0 (coreAt s i)).ctx 0).pc ∧
    (ctxAt t i 0).live = f.imm ∧ (hearthAt t (hearthOf i)).slots = (hearthAt s (hearthOf i)).slots ++ [n] ∧
    (coreAt t i).task = (coreAt s i).task.map (fun (x : Task) => { x with slot := some (256 * hearthOf i + n) }) ∧
    memSame s t ∧ regsSameBut s t [] ∧ (∀ j, j ≠ i.val → coreAt t j = coreAt s j) := by
  have hcores : t.cores = (setCore s i (savingCore i n (yieldCore s i f now))).cores := by rw [ht]; rfl
  have hcore : coreAt t i = savingCore i n (yieldCore s i f now) := (coreAt_congr hcores _).trans (coreAt_setCore (core_lt hz i) _)
  obtain ⟨-, htask, hctx⟩ := yieldCore_frame (s := s) (i := i) (f := f) now
  have hctx0 : (savingCore i n (yieldCore s i f now)).ctx0 =
      { yieldStood f now ((stepped 0 (coreAt s i)).ctx 0) with stat := .saving } := by
    rw [savingCore, onYield, onCtxs_frame, hctx]
    rfl
  have h0 : ctxAt t i 0 = { yieldStood f now ((stepped 0 (coreAt s i)).ctx 0) with stat := .saving } := by
    rw [ctxAt, hcore]; exact hctx0
  refine ⟨by rw [h0], by rw [h0]; rfl, by rw [h0]; rfl, ?_, ?_, ?_, ?_, fun j hj => ?_⟩
  · rw [ht, hearthAt_modHearth (u := setCore s i (savingCore i n (yieldCore s i f now))) (hearthOf_lt hz i)]; rfl
  · rw [hcore, savingCore, htask]
  · exact memSame_of_mem (by rw [ht]; rfl)
  · exact regsSameBut_of_regs (by rw [ht]; rfl) _
  · rw [coreAt_congr hcores, coreAt_setCore_ne hj]

/-! ### An obstacle -/

/-- A core whose yield points go on, its request withdrawn. -/
def resumedCore (c : Core) : Core := { (onYield (fun x => { x with stat := .running, yieldNow := false }) c) with preq := none }

theorem resumeYields_eq {u : State} (hi : i.val < u.cores.length) : resumeYields u i = modCore u i resumedCore := by
  have hfold := foldl_onCtxs (·.stat = .atYield) (fun x => { x with stat := .running, yieldNow := false }) hi ctxIds
  rw [resumeYields, hfold, modCore_modCore hi]
  rfl

theorem settleYield_obstacle (hz : sized s = true) (hsplit : isSplit s i = false) (hpart : (ctxAt s i 0).partDone = false)
    {o : Nat × Nat} (ho : saveObstacle s i = some o) : settleYield (yieldState s i f true) i =
      modCore (makeRecord (yieldState s i f true) (srcCore i) 0x108 [w64 (o.1 + o.2 * 2 ^ 16)]) i resumedCore := by
  have hl : i.val < (makeRecord (yieldState s i f true) (srcCore i) 0x108 [w64 (o.1 + o.2 * 2 ^ 16)]).cores.length := by
    rw [makeRecord_cores, yieldState, sized_setCore_cores]; exact core_lt hz i
  rw [← resumeYields_eq hl, settleYield, yieldReady_yieldState hz hsplit hpart true (.inl rfl), saveObstacle_yieldState, ho]
  rfl

theorem obstacle_shows (hz : sized s = true) {o : Nat × Nat} {t : State}
    (ht : t = modCore (makeRecord (yieldState s i f true) (srcCore i) 0x108 [w64 (o.1 + o.2 * 2 ^ 16)]) i resumedCore) :
    (ctxAt t i 0).stat = .running ∧ (coreAt t i).preq = none ∧
    (ctxAt t i 0).pc = ((stepped 0 (coreAt s i)).ctx 0).pc ∧ memSame s t ∧
    t.recorder = (makeRecord s i 0x108 [w64 (o.1 + o.2 * 2 ^ 16)]).recorder := by
  have hl : i.val < (makeRecord (yieldState s i f true) (srcCore i) 0x108 [w64 (o.1 + o.2 * 2 ^ 16)]).cores.length := by
    rw [makeRecord_cores, yieldState, sized_setCore_cores]; exact core_lt hz i
  have hcore : coreAt t i = resumedCore (yieldCore s i f true) := by
    rw [ht, coreAt_modCore hl, coreAt_congr (makeRecord_cores ..), coreAt_yieldState hz]
  obtain ⟨-, -, hctx⟩ := yieldCore_frame (s := s) (i := i) (f := f) true
  have h0 : ctxAt t i 0 = { yieldStood f true ((stepped 0 (coreAt s i)).ctx 0) with stat := .running, yieldNow := false } := by
    have hctx0 : (resumedCore (yieldCore s i f true)).ctx0 =
        { yieldStood f true ((stepped 0 (coreAt s i)).ctx 0) with stat := .running, yieldNow := false } := by
      rw [resumedCore, onYield, onCtxs_frame, hctx]
      rfl
    rw [ctxAt, hcore]; exact hctx0
  refine ⟨by rw [h0], by rw [hcore]; rfl, by rw [h0]; rfl, ?_, ?_⟩
  · refine memSame_of_mem ?_
    rw [ht]
    exact makeRecord_mem ..
  · rw [ht]
    exact makeRecord_recorder_congr (s := s) (t := yieldState s i f true) rfl rfl rfl ..

end

theorem issues_running {s : State} {i : Nat} {k : CtxId} {f : Fields} {sh : Shape} {l : Bool} (h : issues s i k f sh l = true) :
    (ctxAt s i k).stat = .running := by
  have hc := (issues_iff.1 h).2.1
  simp only [canIssue, Bool.and_eq_true, decide_eq_true_eq] at hc
  exact hc.1.1.1

/-- Settles O12: what ends a hold, and what a yield point begins. -/
theorem holdsAndYields : Obligations.HoldsAndYields := by
  unfold Obligations.HoldsAndYields
  refine ⟨fun i k s hz hq => ⟨fun h hf hfirst hn hcnt hsig => ?_, fun h hf hover hlim hlate => ?_,
    fun mask sigen sigc hh ho hr => ?_, fun sigc hh ho hover hy => ?_, fun mask sigen sigc hh ho => ?_⟩,
    fun i f s => ⟨fun k h hp => ?_, fun c n hc hsplit hpart hend ho hn => ?_, fun o h hsplit hpart hend ho => ?_⟩⟩
  · have hl := core_lt hz i
    refine .of rfl (waitRelease_seq hl hq hf hfirst hn hsig) ⟨coreOnly_modCore hl _, ?_, fun n => ?_, ?_⟩
    · rw [coreAt_modCore hl, goesOn_heldWaits]; rfl
    · rw [readSc, coreAt_modCore hl, goesOn_sc]
      exact readSc_taken_amount hz hcnt h.n n
    · rw [ctxAt, coreAt_modCore hl, goesOn_ctx, stepped, ctx_setCtx, stepped, ctx_setCtx]; rfl
  · obtain ⟨hstat, hcode, -, hpc, hframe⟩ := faultAbort_shows hz hover (queue := 0) (code := faultWaitTimeout) (by decide)
      (by decide) h.pc true false
    exact .of rfl (waitTimeout_seq hq hf hlim hlate) ⟨hstat, hcode, hpc, hframe⟩
  · have hl := core_lt hz i
    refine .of rfl (fenceRelease_open hl hq hh ho fun h => (hr h).2.2) ⟨coreOnly_modCore hl _,
      readSc_fencePassed hz fun h => (hr h).2, ?_⟩
    rw [ctxAt, coreAt_modCore hl, fencePassed_ctx]
  · have hl := core_lt hz i
    exact .of rfl (doneRelease_unready hq hh ho hover hy) ⟨coreOnly_modCore hl _, coreAt_modCore hl _⟩
  · refine .of rfl (?_ : _ = s) rfl
    simp [fenceRelease, hh, hq, ho]
  · obtain ⟨hz, hr, hgo⟩ := issueCtl_ctlGo h fun s => if (coreAt s i).preq.isSome then standAtYield s i k f false else completeCtl s i k f
    refine .of rfl (hgo.trans (if_neg (by simp [hp]))) (completeCtl_answers hz hr)
  · have hshape : yieldShape false = yieldShape (isSplit s i) := by rw [hsplit]
    rcases hc with ⟨rfl, h⟩ | ⟨rfl, h, hp⟩
    · rw [hshape] at h
      obtain ⟨hz, hr, hgo⟩ := issueCtl_ctlGo h fun s => standAtYield s i 0 f true
      have hrun := issues_running (ctlGo_iff.1 h).1
      exact .of rfl (hgo.trans ((standAtYield_eq hz hr hrun hpart hend true).trans
        (settleYield_save hz hsplit hpart (.inl rfl) ho hn))) (save_shows hz true n rfl)
    · rw [hshape] at h
      obtain ⟨hz, hr, hgo⟩ := issueCtl_ctlGo h fun s => if (coreAt s i).preq.isSome then standAtYield s i 0 f false else completeCtl s i 0 f
      have hrun := issues_running (ctlGo_iff.1 h).1
      exact .of rfl (hgo.trans ((if_pos hp).trans ((standAtYield_eq hz hr hrun hpart hend false).trans
        (settleYield_save hz hsplit hpart (.inr hp) ho hn)))) (save_shows hz false n rfl)
  · rw [show yieldShape false = yieldShape (isSplit s i) by rw [hsplit]] at h
    obtain ⟨hz, hr, hgo⟩ := issueCtl_ctlGo h fun s => standAtYield s i 0 f true
    have hrun := issues_running (ctlGo_iff.1 h).1
    exact .of rfl (hgo.trans ((standAtYield_eq hz hr hrun hpart hend true).trans (settleYield_obstacle hz hsplit hpart ho)))
      (obstacle_shows hz rfl)

end Sys2Proof.Machine
end

section
/-! PROOFS. Requests of the dispatcher (R207). -/

namespace Sys2Proof.Machine

/-- A context that stands at a YIELD.IF. -/
def atYieldIf (x : Ctx) : Bool := x.stat = .atYield && !x.yieldNow

/-- A core of which the request is withdrawn. -/
def unasked (c : Core) : Core := { (onCtxs (atYieldIf · = true) (fun x => { x with stat := .running }) c) with preq := none }

theorem resumeIfs_eq {u : State} {i : Nat} (hi : i < u.cores.length) : resumeIfs u i = modCore u i unasked := by
  have hfold := foldl_onCtxs (atYieldIf · = true) (fun x => { x with stat := .running }) hi ctxIds
  rw [resumeIfs]
  refine (congrArg (modCore · i fun c => { c with preq := none }) hfold).trans ?_
  rw [modCore_modCore hi]
  rfl

theorem unasked_ctx (c : Core) (k : CtxId) : (unasked c).ctx k =
    if atYieldIf (c.ctx k) = true then { (c.ctx k) with stat := .running } else c.ctx k := by
  rw [unasked, onCtxs_frame]
  fin_cases k <;> rfl

theorem RegsRec.modCore {s t : State} {i : Nat} (h : RegsRec s t) (hi : i < s.cores.length) (g : Core → Core) :
    coreRegsRec s (modCore t i g) i := by
  obtain ⟨r, rec, rfl⟩ := h
  have hcore := coreAt_modCore (s := { s with regs := r, recorder := rec }) hi g
  rw [coreRegsRec, hcore]
  rfl

section
variable {s : State} {i : CoreId}

theorem dispatcherRequest_stands (hi : i.val < s.cores.length) (hq : quenched s = false) (ht : (coreAt s i).task.isSome = true)
    (he : (coreAt s i).ended = none) (hp : (coreAt s i).preq = none) (hs : coreSaving s i = false)
    (hd : domState s (domOf i) = 1) (hf : flag s (CORE_TILECTL i) CORE_TILECTL_LEAVE_POLICY = true) (hl : liveCtxs s i ≠ [])
    (hx : ∃ k ∈ liveCtxs s i, (ctxAt s i k).stat ≠ .atYield) (hw : yieldWait s i ≠ 0) :
    dispatcherRequest s i = modCore s i fun c => { c with preq := some s.time.ns } := by
  have hctx : ∀ k, ctxAt (modCore s i fun c => { c with preq := some s.now }) i k = ctxAt s i k := fun k => by
    rw [ctxAt, coreAt_modCore hi]; rfl
  have hlive : liveCtxs (modCore s i fun c => { c with preq := some s.now }) i = liveCtxs s i :=
    List.filter_congr fun k _ => by rw [hctx]; rfl
  have hready : yieldReady (modCore s i fun c => { c with preq := some s.now }) i = false := by
    obtain ⟨k, hk, hn⟩ := hx
    refine Bool.and_eq_false_iff.2 (.inr (List.all_eq_false.2 ⟨k, hlive ▸ hk, ?_⟩))
    rw [hctx]
    simp [hn]
  have hwait : yieldWait (modCore s i fun c => { c with preq := some s.now }) i = yieldWait s i := rfl
  have hstay : settleYield (modCore s i fun c => { c with preq := some s.now }) i =
      modCore s i fun c => { c with preq := some s.now } := by rw [settleYield, hready]; rfl
  have ht' : (coreAt s i).task.isNone = false := by simpa [Option.isSome_iff_ne_none] using ht
  have hl' : (liveCtxs s i).isEmpty = false := by simpa using hl
  rw [dispatcherRequest]
  simp only [hq, ht', he, hp, hs, hd, hf, hl', domLeaving, hstay, hwait, hw, Option.isSome_none, bne_self_eq_false, Bool.not_true,
    Bool.or_self, decide_false, Bool.false_and, Bool.false_eq_true, if_false]
  rfl

theorem yieldTimeout_passed {t0 : Nat} (hq : quenched s = false) (hp : (coreAt s i).preq = some t0) (hs : coreSaving s i = false)
    (hw : yieldWait s i ≤ s.time.ns - t0) : yieldTimeout s i = giveUpRequest s i := by
  have hw' : ¬ s.now - t0 < yieldWait s i := not_lt.2 hw
  simp [yieldTimeout, hp, hq, hs, hw']

theorem giveUpRequest_shows (hz : sized s = true) : coreRegsRec s (giveUpRequest s i) i ∧ (coreAt (giveUpRequest s i) i).preq = none ∧
    (giveUpRequest s i).recorder = (makeRecord s i 0x10B [w64 (runningPc s i)]).recorder ∧
    getF (giveUpRequest s i) (CORE_FAULTCNT i) CORE_FAULTCNT_YIELDTO
      = min 255 (getF s (CORE_FAULTCNT i) CORE_FAULTCNT_YIELDTO + 1) ∧
    (∀ k, ctxAt (giveUpRequest s i) i k =
      if atYieldIf (ctxAt s i k) = true then { (ctxAt s i k) with stat := .running } else ctxAt s i k) := by
  have hcores : (satF (makeRecord s (srcCore i) 0x10B [w64 (runningPc s i)]) (CORE_FAULTCNT i) CORE_FAULTCNT_YIELDTO 1).cores =
      s.cores := makeRecord_cores ..
  have hi : i.val < (satF (makeRecord s (srcCore i) 0x10B [w64 (runningPc s i)]) (CORE_FAULTCNT i) CORE_FAULTCNT_YIELDTO 1).cores.length :=
    hcores ▸ core_lt hz i
  have hrec : RegsRec s (satF (makeRecord s (srcCore i) 0x10B [w64 (runningPc s i)]) (CORE_FAULTCNT i) CORE_FAULTCNT_YIELDTO 1) :=
    ((RegsRec.refl s).makeRecord ..).satF ..
  have hcore := coreAt_congr hcores i
  have hgive : giveUpRequest s i = modCore (satF (makeRecord s (srcCore i) 0x10B [w64 (runningPc s i)]) (CORE_FAULTCNT i)
      CORE_FAULTCNT_YIELDTO 1) i unasked := resumeIfs_eq hi
  have hc : coreAt (giveUpRequest s i) i = unasked (coreAt s i) := by rw [hgive, coreAt_modCore hi, hcore]
  refine ⟨?_, by rw [hc]; rfl, ?_, ?_, fun k => ?_⟩
  · rw [hgive]
    exact hrec.modCore (core_lt hz i) unasked
  · rw [hgive, modCore_recorder, satF_recorder]
    rfl
  · rw [getF_congr ((congrArg State.regs hgive).trans (modCore_regs ..)), getF_satF (by decide) (by decide), getF_congr (makeRecord_regs ..)]
    rfl
  · rw [ctxAt, hc]
    exact unasked_ctx ..

end

/-- Settles O13. -/
theorem dispatcherRequests : Obligations.DispatcherRequests := by
  unfold Obligations.DispatcherRequests
  refine fun i s hz hq => ⟨fun ht he hp hs hd hf hl hx hw => ?_, fun t0 hp hs hw => ?_⟩
  · have hi := core_lt hz i
    exact .of rfl (dispatcherRequest_stands hi hq ht he hp hs hd hf hl hx hw) ⟨coreOnly_modCore hi _, coreAt_modCore hi _⟩
  · obtain ⟨hframe, hpreq, hrec, hcnt, hctx⟩ := giveUpRequest_shows (i := i) hz
    refine .of rfl (yieldTimeout_passed hq hp hs hw) ⟨hframe, hpreq, hrec, hcnt, fun k ha hn => ?_, fun k ha => ?_⟩
    · rw [hctx, if_pos (by simp [atYieldIf, ha, hn])]
    · rw [hctx, if_neg (by simp [atYieldIf, ha])]

end Sys2Proof.Machine
end

section
/-! PROOFS. An entry that leaves makes every core's tongs queue look again (R174, R183). -/

namespace Sys2Proof.Machine

/-- An entry of context 0 with a false predicate. -/
def offEntry (started : Bool) : QEntry :=
  { qid := 0, op := 0, pc := 0, ctx := 0, off := true, ga := 0, gb := 0, gc := 0, gd := 0, started, finished := started
    f := { pneg := false, pred := 0, sigen := false, sigc := 0, mod := 0, d := 0, a := 0, b := 0, c := 0, sub := 0, imm := 0 }
    high := [], awaits := 0, ecc := false, buf := [], begun := 0, ended := 0, pos := 0 }

/-- Core 0 has a vector entry that is over; the tongs queue of core 1 holds an entry that may start. -/
def tongsLookState : State :=
  modCore (modCore .reset 0 fun c => { c with vec := [offEntry true] }) 1 fun c => { c with tongs := [offEntry false] }

/-- The tongs entries of core 1 that have started after a command. -/
def tongsStartedAfter (c : Instr) (s : State) : List Bool :=
  match exec c s with
  | .next t => (coreAt t 1).tongs.map (·.started)
  | _ => []

theorem tongsStartedAfter_of_coreOnly {c : Instr} {s : State} {P : State → Prop} (h : Answers c s fun t => coreOnly s t 0 ∧ P t) :
    tongsStartedAfter c s = (coreAt s 1).tongs.map (·.started) := by
  obtain ⟨t, he, hframe, -⟩ := h
  have hcore : coreAt t 1 = coreAt s 1 := by
    rw [hframe]
    simp [coreAt, List.getD_eq_getElem?_getD]
  rw [tongsStartedAfter, he]
  exact congrArg (fun c : Core => c.tongs.map (·.started)) hcore

/-- Refutes O14, in its first clause: an entry of core 0 that leaves its queue starts an entry in the tongs queue of core 1. -/
theorem not_entriesLeave : ¬ Obligations.EntriesLeave := by
  unfold Obligations.EntriesLeave
  intro ⟨h, _⟩
  have hleave := h 0 .vec tongsLookState (offEntry true) (by decide +kernel) (by decide +kernel) (by decide +kernel)
    (by decide +kernel) (.inl rfl) (by decide +kernel) (by decide +kernel) (fun hs => absurd hs (by decide))
  exact absurd (tongsStartedAfter_of_coreOnly hleave) (by decide +kernel)

end Sys2Proof.Machine
end

section
/-! PROOFS. What accesses to memory change (R244, R249, R250, R252, R256). -/

namespace Sys2Proof.Machine

/-! ## Ranges of bytes -/

theorem readBytes_ext {s t : State} {a c n : Nat} (h : ∀ b, b < n → readByte t (a + b) = readByte s (c + b)) :
    readBytes t a n = readBytes s c n := by
  unfold readBytes
  induction n generalizing a c with
  | zero => rfl
  | succ n ih =>
    rw [memGetAll, memGetAll]
    refine congrArg₂ List.cons (h 0 (by omega)) (ih fun b hb => ?_)
    have hb1 := h (b + 1) (by omega)
    rwa [show a + (b + 1) = a + 1 + b by omega, show c + (b + 1) = c + 1 + b by omega] at hb1

theorem length_readBytes (s : State) (a n : Nat) : (readBytes s a n).length = n := by
  unfold readBytes
  induction n generalizing a with
  | zero => rfl
  | succ n ih => exact congrArg (· + 1) (ih (a + 1))

theorem readWord_ext {s t : State} {a c : Nat} (h : ∀ b, b < 8 → readByte t (a + b) = readByte s (c + b)) :
    readWord t a = readWord s c := by
  rw [readWord, readWord, readBytes_ext h]

theorem readBytes_eq_of_bytes {t : State} {a : Nat} {bs : List Byte} (h : ∀ b, b < bs.length → readByte t (a + b) = bs.getD b 0) :
    readBytes t a bs.length = bs := by
  rw [← readBytes_writeBytes t a bs]
  conv_lhs => rw [readBytes_writeBytes]
  refine readBytes_ext fun b hb => ?_
  rw [h b hb, readByte_writeBytes, if_pos ⟨by omega, by omega⟩, Nat.add_sub_cancel_left]

theorem memSameOutside.readBytes {s t : State} {a n c m : Nat} (h : memSameOutside s t a n) (hd : c + m ≤ a ∨ a + n ≤ c) :
    readBytes t c m = readBytes s c m :=
  readBytes_ext fun b hb => h (c + b) (by omega)

theorem memSameOutside.readWord {s t : State} {a n c : Nat} (h : memSameOutside s t a n) (hd : c + 8 ≤ a ∨ a + n ≤ c) :
    readWord t c = readWord s c := readWord_ext fun b hb => h (c + b) (by omega)

theorem memSameOutside.trans {s t u : State} {a n : Nat} (h : memSameOutside s t a n) (h' : memSameOutside t u a n) :
    memSameOutside s u a n := fun b hb => (h' b hb).trans (h b hb)

theorem memSameOutside.mono {s t : State} {a n c m : Nat} (h : memSameOutside s t a n) (hc : c ≤ a) (hm : a + n ≤ c + m) :
    memSameOutside s t c m := fun b hb => h b (by omega)

theorem memSameOutside_writeBytes (s : State) (a : Nat) (bs : List Byte) : memSameOutside s (writeBytes s a bs) a bs.length :=
  fun b hb => by rw [readByte_writeBytes, if_neg (by omega)]

theorem memSameOutside_of_mem {s t u : State} {a n : Nat} (h : memSameOutside s t a n) (hm : u.mem = t.mem) :
    memSameOutside s u a n := fun b hb => (readByte_congr hm b).trans (h b hb)

/-! ## Slices of the hearths -/

/-- A hearth of which the slice and the write buffer alone differ. -/
structure SliceOnly (h g : Hearth) : Prop where
  eq : g = { h with slice := g.slice, wbuf := g.wbuf }

theorem SliceOnly.refl (h : Hearth) : SliceOnly h h := ⟨rfl⟩

theorem SliceOnly.trans {h g k : Hearth} (a : SliceOnly h g) (b : SliceOnly g k) : SliceOnly h k := by
  obtain ⟨a⟩ := a
  obtain ⟨b⟩ := b
  exact ⟨by rw [b, a]⟩

theorem sliceOnly_touchHome (h : Hearth) (l : Nat) (w g : Bool) : SliceOnly h (touchHome h l w g) := by
  unfold touchHome installLine
  split
  · exact ⟨rfl⟩
  · split
    · split <;> exact ⟨rfl⟩
    · exact ⟨rfl⟩

/-- From `s` to `t` the slices of the hearths alone may have changed. -/
structure Touched (s t : State) : Prop where
  frame : t = { s with hearths := t.hearths }
  slices : ∀ h, SliceOnly (hearthAt s h) (hearthAt t h)
  count : t.hearths.length = s.hearths.length

theorem Touched.refl (s : State) : Touched s s := ⟨rfl, fun _ => .refl _, rfl⟩

theorem Touched.trans {s t u : State} (a : Touched s t) (b : Touched t u) : Touched s u where
  frame := by rw [b.frame, a.frame]
  slices h := (a.slices h).trans (b.slices h)
  count := b.count.trans a.count

theorem touched_touchLine (s : State) (l : Nat) (w g : Bool) : Touched s (touchLine s l w g) := by
  unfold touchLine
  split
  · refine ⟨rfl, fun h => ?_, by simp [modHearth, setHearth]⟩
    simp only [hearthAt, modHearth, setHearth, List.getD_eq_getElem?_getD, List.getElem?_set]
    split
    · next he =>
      subst he
      split
      · next hlt => simpa [hlt] using sliceOnly_touchHome ..
      · next hlt => simpa [hlt] using SliceOnly.refl _
    · exact .refl _
  · exact .refl s

theorem touched_touchLines {s : State} (f : Nat → Bool × Bool) (ls : List Nat) :
    Touched s (ls.foldl (fun t l => touchLine t l (f l).1 (f l).2) s) := by
  induction ls generalizing s with
  | nil => exact .refl s
  | cons l ls ih => exact (touched_touchLine ..).trans ih

theorem touched_memRead (s : State) (a n : Nat) : Touched s (memRead s a n).1 := by
  unfold memRead
  split
  · exact .refl s
  · split
    · exact .refl s
    · split
      · exact touched_touchLines (fun _ => (false, false)) _
      · exact .refl s

/-! ## Writes -/

theorem clean.poison_congr {s t : State} {a n : Nat} (h : clean s a n) (hp : t.memctl.poison = s.memctl.poison) : clean t a n :=
  fun b hl hu => by rw [poisoned, hp]; exact h b hl hu

/-- From `s` to `t` memory, slices and the poisoned lines alone may have changed, and no line has become poisoned. -/
structure Written (s t : State) : Prop where
  frame : t = { s with mem := t.mem, hearths := t.hearths, memctl := { s.memctl with poison := t.memctl.poison } }
  slices : ∀ h, SliceOnly (hearthAt s h) (hearthAt t h)
  count : t.hearths.length = s.hearths.length
  healed : t.memctl.poison ⊆ s.memctl.poison

theorem Written.refl (s : State) : Written s s := ⟨rfl, fun _ => .refl _, rfl, List.Subset.refl _⟩

theorem Written.trans {s t u : State} (a : Written s t) (b : Written t u) : Written s u where
  frame := by rw [b.frame, a.frame]
  slices h := (a.slices h).trans (b.slices h)
  count := b.count.trans a.count
  healed := List.Subset.trans b.healed a.healed

theorem Touched.written {s t : State} (h : Touched s t) : Written s t where
  frame := by rw [h.frame]
  slices := h.slices
  count := h.count
  healed := by rw [h.frame]; exact List.Subset.refl _

theorem written_writeBytes (s : State) (a : Nat) (bs : List Byte) : Written s (writeBytes s a bs) :=
  ⟨rfl, fun _ => .refl _, rfl, List.Subset.refl _⟩

theorem written_clearPoison (s : State) (a : Nat) : Written s (clearPoison s a) :=
  ⟨rfl, fun _ => .refl _, rfl, List.filter_subset_self _⟩

theorem written_writeChunk (p : State × Acc) (c : Nat × List Byte) : Written p.1 (writeChunk p c).1 := by
  unfold writeChunk
  split
  · exact .refl _
  · exact ((written_clearPoison ..).trans (written_writeBytes ..)).trans (touched_touchLine ..).written

theorem written_chunks (cs : List (Nat × List Byte)) (p : State × Acc) : Written p.1 (cs.foldl writeChunk p).1 := by
  induction cs generalizing p with
  | nil => exact .refl _
  | cons c cs ih => exact (written_writeChunk ..).trans (ih _)

theorem written_memWrite (s : State) (a : Nat) (bs : List Byte) : Written s (memWrite s a bs).1 := by
  unfold memWrite
  split
  · exact .refl s
  · split
    · exact .refl s
    · split
      · exact written_chunks _ (s, .ok)
      · exact written_writeBytes ..

theorem Written.poisoned {s t : State} (h : Written s t) {a : Nat} (hp : poisoned s a = false) : poisoned t a = false := by
  simp only [Machine.poisoned, List.contains_iff_mem, ← Bool.not_eq_true] at hp ⊢
  exact fun hm => hp (h.healed hm)

theorem Written.clean {s t : State} (h : Written s t) {a n : Nat} (hc : clean s a n) : clean t a n :=
  fun b hl hu => h.poisoned (hc b hl hu)

theorem memSameOutside_writeChunk (p : State × Acc) (c : Nat × List Byte) :
    memSameOutside p.1 (writeChunk p c).1 c.1 c.2.length := by
  unfold writeChunk
  split
  · exact fun _ _ => rfl
  · exact memSameOutside_of_mem (memSameOutside_writeBytes (clearPoison p.1 c.1) c.1 c.2) (touchLine_mem ..)

/-- The pieces of a transfer change no byte outside it. -/
theorem memSameOutside_chunks (k a : Nat) (bs : List Byte) (p : State × Acc) :
    memSameOutside p.1 ((lineChunks k a bs).foldl writeChunk p).1 a bs.length := by
  induction k generalizing a bs p with
  | zero => exact fun _ _ => rfl
  | succ k ih =>
    rw [lineChunks]
    split
    · exact fun _ _ => rfl
    · rw [List.foldl_cons]
      intro b hb
      rw [ih _ _ _ b (by rw [List.length_drop]; omega), memSameOutside_writeChunk p _ b (by rw [List.length_take]; omega)]

theorem memSameOutside_memWrite (s : State) (a : Nat) (bs : List Byte) : memSameOutside s (memWrite s a bs).1 a bs.length := by
  unfold memWrite
  split
  · exact fun _ _ => rfl
  · split
    · exact fun _ _ => rfl
    · split
      · exact memSameOutside_chunks _ a bs (s, .ok)
      · exact memSameOutside_writeBytes s a bs

theorem writeChunk_clean {p : State × Acc} {c : Nat × List Byte} (h : poisoned p.1 c.1 = false) :
    (writeChunk p c).2 = p.2 ∧ ∀ b, readByte (writeChunk p c).1 b = readByte (writeBytes p.1 c.1 c.2) b := by
  unfold writeChunk
  rw [h]
  exact ⟨rfl, fun b => readByte_touchLine ..⟩

/-- The pieces of a transfer to clean lines leave its bytes. -/
theorem chunks_clean {k a : Nat} {bs : List Byte} {p : State × Acc} (hk : a % 128 + bs.length ≤ 128 * k)
    (hc : clean p.1 a bs.length) : ((lineChunks k a bs).foldl writeChunk p).2 = p.2 ∧
      ∀ b, readByte ((lineChunks k a bs).foldl writeChunk p).1 b =
        if a ≤ b ∧ b < a + bs.length then bs.getD (b - a) 0 else readByte p.1 b := by
  induction k generalizing a bs p with
  | zero => exact ⟨rfl, fun b => by rw [if_neg (by omega)]; rfl⟩
  | succ k ih =>
    rw [lineChunks]
    by_cases he : bs = []
    · subst he
      exact ⟨rfl, fun b => (if_neg fun h => by have := h.2; rw [List.length_nil] at this; omega).symm⟩
    · have hpos : 0 < bs.length := List.length_pos_iff.2 he
      have hm : 0 < 128 - a % 128 := by omega
      rw [if_neg (by simpa using he), List.foldl_cons]
      obtain ⟨h2, h1⟩ := writeChunk_clean (p := p) (c := (a, bs.take (128 - a % 128))) (hc a le_rfl (by omega))
      have hlen : (bs.drop (128 - a % 128)).length = bs.length - (128 - a % 128) := List.length_drop
      obtain ⟨i2, i1⟩ := ih (a := a + (128 - a % 128)) (bs := bs.drop (128 - a % 128))
        (p := writeChunk p (a, bs.take (128 - a % 128))) (by omega)
        ((written_writeChunk ..).clean fun b hl hu => hc b (by omega) (by omega))
      refine ⟨i2.trans h2, fun b => ?_⟩
      rw [i1, h1, readByte_writeBytes]
      simp only [List.length_take, List.getD_eq_getElem?_getD, List.getElem?_drop, List.getElem?_take, hlen]
      generalize 128 - a % 128 = m at *
      by_cases hin : a ≤ b ∧ b < a + bs.length
      · rw [if_pos hin]
        by_cases hfirst : b < a + m
        · rw [if_neg (by omega), if_pos (by omega), if_pos (by omega)]
        · rw [if_pos (by omega), show m + (b - (a + m)) = b - a by omega]
      · rw [if_neg hin, if_neg (by omega), if_neg (by omega)]

/-- A write to open clean DRAM leaves its bytes. -/
theorem memWrite_openDram {s : State} {a : Nat} {bs : List Byte} (h : openDram s a bs.length) :
    (memWrite s a bs).2 = .ok ∧ readBytes (memWrite s a bs).1 a bs.length = bs := by
  obtain ⟨ha, hn, has, hc⟩ := h
  have hd : isDram a = true := decide_eq_true ha
  have he : bs.isEmpty = false := by simpa [List.isEmpty_iff] using List.length_pos_iff.1 hn
  have hw : memWrite s a bs = (lineChunks (bs.length / 128 + 2) a bs).foldl writeChunk (s, .ok) := by
    simp [memWrite, he, has, hd]
  obtain ⟨h2, h1⟩ := chunks_clean (k := bs.length / 128 + 2) (p := (s, .ok)) (by omega) hc
  rw [hw]
  refine ⟨h2, readBytes_eq_of_bytes fun b hb => ?_⟩
  rw [h1, if_pos (by omega), Nat.add_sub_cancel_left]

/-! ## Words of a written range -/

theorem getD_bytesOfWords {ws : List Word64} {k : Nat} (hk : k < ws.length) (rest : List Byte) {b : Nat} (hb : b < 8) :
    (bytesOfWords ws ++ rest).getD (8 * k + b) 0 = (leBytes 8 ws[k].toNat).getD b 0 := by
  induction ws generalizing k with
  | nil => cases hk
  | cons w ws ih =>
    have hcons : bytesOfWords (w :: ws) ++ rest = leBytes 8 w.toNat ++ (bytesOfWords ws ++ rest) := by
      simp [bytesOfWords]
    rw [hcons, List.getD_eq_getElem?_getD]
    cases k with
    | zero => rw [List.getElem?_append_left (by rw [leBytes_length]; omega), List.getD_eq_getElem?_getD]; simp
    | succ k =>
      rw [List.getElem?_append_right (by rw [leBytes_length]; omega), leBytes_length, ← List.getD_eq_getElem?_getD,
        show 8 * (k + 1) + b - 8 = 8 * k + b by omega, ih (Nat.lt_of_succ_lt_succ hk)]
      rfl

theorem length_bytesOfWords (ws : List Word64) : (bytesOfWords ws).length = 8 * ws.length := by
  induction ws with
  | nil => rfl
  | cons w ws ih =>
    have hcons : bytesOfWords (w :: ws) = leBytes 8 w.toNat ++ bytesOfWords ws := rfl
    rw [hcons, List.length_append, ih, leBytes_length, List.length_cons]
    omega

/-- A word of a range that was written as words. -/
theorem readWord_writeBytes_words (s : State) (a : Nat) {ws : List Word64} {k : Nat} (hk : k < ws.length) (rest : List Byte) :
    readWord (writeBytes s a (bytesOfWords ws ++ rest)) (a + 8 * k) = ws[k] := by
  rw [← readWord_writeWord s (a + 8 * k) ws[k]]
  refine readWord_ext fun b hb => ?_
  have hlen : 8 * k + b < (bytesOfWords ws ++ rest).length := by rw [List.length_append, length_bytesOfWords]; omega
  rw [writeWord, readByte_writeBytes, readByte_writeBytes, leBytes_length, if_pos (by omega), if_pos (by omega),
    show a + 8 * k + b - a = 8 * k + b by omega, getD_bytesOfWords hk rest hb, Nat.add_sub_cancel_left]

theorem readWord_writeWords (s : State) (a : Nat) {ws : List Word64} {k : Nat} (hk : k < ws.length) :
    readWord (writeWords s a ws) (a + 8 * k) = ws[k] := by
  have h := readWord_writeBytes_words s a hk []
  rwa [List.append_nil] at h

theorem readWords_writeWords (s : State) (a : Nat) (ws : List Word64) : readWords (writeWords s a ws) a ws.length = ws := by
  refine List.ext_getElem (by simp [readWords]) fun k hk hk' => ?_
  simp only [readWords, List.getElem_map, List.getElem_range]
  exact readWord_writeWords s a hk'

end Sys2Proof.Machine
end

section
/-! PROOFS. The save of a task and its restore (R134 to R138, R208, R209). -/

namespace Sys2Proof.Machine

/-! ## Save -/

/-- From `s` to `t` memory alone may have changed. -/
def MemOnly (s t : State) : Prop := t = { s with mem := t.mem }

theorem MemOnly.refl (s : State) : MemOnly s s := rfl

theorem MemOnly.writeBytes {s t : State} (h : MemOnly s t) (a : Nat) (bs : List Byte) : MemOnly s (writeBytes t a bs) := by
  rw [MemOnly, h]
  rfl

theorem MemOnly.foldl {α : Type} {f : State → α → State} {s : State} (hf : ∀ t x, MemOnly s t → MemOnly s (f t x)) (xs : List α)
    {t : State} (h : MemOnly s t) : MemOnly s (xs.foldl f t) := by
  induction xs generalizing t with
  | nil => exact h
  | cons x xs ih => exact ih (hf t x h)

theorem MemOnly.saveAnvil {s t : State} (h : MemOnly s t) (i a : Nat) : MemOnly s (saveAnvil i t a) := by
  unfold Machine.saveAnvil
  dsimp only
  split <;> split <;> simp only [writeWords, h.writeBytes, MemOnly.writeBytes]

theorem MemOnly.saveSeq {s t : State} (h : MemOnly s t) (i : Nat) : MemOnly s (saveSeq t i) := by
  unfold Machine.saveSeq
  dsimp only
  refine MemOnly.foldl (fun u p hu => ?_) _ (h.writeBytes ..)
  split
  · exact hu.writeBytes ..
  · exact hu

/-- The vector registers stand behind the first 0x400 bytes of the record. -/
theorem readWord_saveSeq (s : State) (i : Nat) : readWord (saveSeq s i) (csBase i + seqSaveOff s i) = w64 (seqHeader s i) := by
  have hv : ∀ (vs : List (VReg × Nat)) (t : State), readWord (vs.foldl (fun t p =>
      if (liveMask s i).testBit p.2 then
        writeBytes t (csBase i + seqSaveOff s i + 0x400 + 1024 * p.2) (p.1.lanes.flatMap fun v => leBytes 4 v.toNat)
      else t) t) (csBase i + seqSaveOff s i) = readWord t (csBase i + seqSaveOff s i) := by
    intro vs
    induction vs with
    | nil => exact fun _ => rfl
    | cons p vs ih =>
      intro t
      rw [List.foldl_cons, ih]
      split
      · exact (memSameOutside_writeBytes _ _ _).readWord (.inl (by omega))
      · rfl
  have hbytes : ∃ ws rest, seqBytes s i = bytesOfWords (w64 (seqHeader s i) :: ws) ++ rest := by
    rw [seqBytes]
    simp only [List.append_assoc, List.cons_append]
    exact ⟨_, _, rfl⟩
  obtain ⟨ws, rest, h⟩ := hbytes
  rw [saveSeq, hv, h]
  exact readWord_writeBytes_words s _ (ws := w64 (seqHeader s i) :: ws) (Nat.succ_pos _) rest

theorem MemOnly.seqHeader {s t : State} (h : MemOnly s t) (i : Nat) : seqHeader t i = seqHeader s i := by
  rw [h]
  rfl

theorem seqSaveOff_congr {s t : State} (h : t.regs = s.regs) (i : Nat) : seqSaveOff t i = seqSaveOff s i :=
  congrArg (128 * ·) (getF_congr h ..)

theorem MemOnly.seqSaveOff {s t : State} (h : MemOnly s t) (i : Nat) : seqSaveOff t i = seqSaveOff s i :=
  seqSaveOff_congr (by rw [h]) i

theorem MemOnly.slotAddr {s t : State} (h : MemOnly s t) (k : Nat) : slotAddr t k = slotAddr s k := by
  rw [h]
  rfl

/-- A core that keeps nothing of the task that it saved. -/
def leftCore (kept : List (List QEntry)) (mons : List (List (Nat × Nat × Nat))) (voluntary : Bool) (c : Core) : Core :=
  { clearPartition c [0, 1, 2, 3] with
    anv0 := [], anv1 := [], pass0 := none, pass1 := none, ctx0 := .reset, ctx1 := .reset, heldWaits := []
    task := c.task.map fun t => { t with kept := kept, mons := mons }
    ended := some (.preempted voluntary), preq := none }

/-- An anvil that a save has emptied. -/
def clearedAnvil (x : Anvil) : Anvil :=
  { x with active := .cleared, shadow := .cleared, drain := none, load := none
           poison := false, lastPass := none, ramp := rampDownReq x.ramp }

theorem anvil_leftCore {c : Core} (hc : c.anvils.length = 4) (kept mons) (v : Bool) (a : AnvilId) :
    ((leftCore kept mons v c).anvil a).active.st = .empty := by
  have hmem : a.val ∈ [0, 1, 2, 3] := by fin_cases a <;> decide
  have h := anvil_foldAnvils_mem clearedAnvil (l := [0, 1, 2, 3]) (by decide) hmem (c := c) (by rw [hc]; exact a.isLt)
  exact congrArg (fun x : Anvil => x.active.st) h

theorem leaveCore_shows {s : State} {i : CoreId} (hi : i.val < s.cores.length) (v : Bool) :
    (∃ kept mons, coreAt (leaveCore s i v) i = leftCore kept mons v (coreAt s i)) ∧ (leaveCore s i v).mem = s.mem := by
  have heq : leaveCore s i v = syncGrants (modCore s i (leftCore (lanes2.map (keptEntries s i.val))
      (lanes2.map fun k => (ctxAt s i.val k).mons) v)) i := rfl
  rw [heq, syncGrants_frame]
  exact ⟨⟨_, _, coreAt_modCore hi _⟩, rfl⟩

/-- The slot of a hearth is DRAM, below every core store. -/
theorem slot_below_coreStore {a n : Nat} (h : a + n ≤ 2 ^ 40) (i : Nat) : a + n ≤ csBase i := by
  unfold csBase windowBase
  omega

section
variable {s : State} {i : CoreId}

/-- The state in which the records stand in the slot, before the core leaves. -/
def recordsSaved (s : State) (i : CoreId) (k : Nat) : State :=
  copyToSlot (saveSeq ((List.range 4).foldl (saveAnvil i.val) s) i) i k

theorem saveComplete_empty {x : Task} {k : Nat} {fed : List Nat} (ht : (coreAt s i).task = some x) (hs : x.slot = some k)
    (hr : saveReady s i = true) (h0 : (coreAt s i).anv0 = []) (h1 : (coreAt s i).anv1 = []) (hp0 : (coreAt s i).pass0 = none)
    (hp1 : (coreAt s i).pass1 = none) (hm : saveMiss s i = none) :
    saveComplete s i fed none = leaveCore (recordsSaved s i k) i (coreAt (recordsSaved s i k) i).preq.isNone := by
  have hstop : lanes2.foldl (stopPass fed i.val) s = s := by
    simp [lanes2, stopPass, lanePass, hp0, hp1]
  have hretire : lanes2.foldl (retireLane i) s = s := by
    simp [lanes2, retireLane, laneQueue, Core.queue, h0, h1]
  have htask : (coreAt s i).task.bind (·.slot) = some k := by rw [ht]; exact hs
  unfold saveComplete
  rw [htask]
  simp only [hr, hstop, hretire, hm, Option.map_none, Option.getD_none, Bool.not_true, Bool.false_eq_true, if_false]
  rfl

theorem recordsSaved_shows {k : Nat} (hs : slotAddr s k + saveLen + seqSaveLen ≤ 2 ^ 40) :
    (recordsSaved s i k).cores = s.cores ∧ readWord (recordsSaved s i k) (csBase i + seqSaveOff s i) = w64 (seqHeader s i) := by
  have ha : MemOnly s ((List.range 4).foldl (saveAnvil i.val) s) := .foldl (fun t a h => h.saveAnvil i a) _ (.refl s)
  have hq := ha.saveSeq i
  have hword := readWord_saveSeq ((List.range 4).foldl (saveAnvil i.val) s) i
  rw [ha.seqHeader, ha.seqSaveOff] at hword
  have hslot : slotAddr (saveSeq ((List.range 4).foldl (saveAnvil i.val) s) i) k = slotAddr s k := hq.slotAddr k
  refine ⟨?_, ?_⟩
  · rw [recordsSaved, copyToSlot, (written_memWrite ..).frame, hq]
  · rw [← hword, recordsSaved, copyToSlot, hslot]
    refine (memSameOutside_memWrite _ _ _).readWord (.inr ?_)
    have hbelow := slot_below_coreStore (a := slotAddr s k) (n := saveLen + seqSaveLen) (by omega) i
    rw [List.length_append, length_readBytes, length_readBytes]
    omega

end

/-! ## Restore -/

/-- A core with the same g registers and the same task. -/
structure SameTask (c d : Core) : Prop where
  g : d.g = c.g
  task : d.task = c.task

theorem SameTask.refl (c : Core) : SameTask c c := ⟨rfl, rfl⟩

theorem SameTask.trans {c d e : Core} (a : SameTask c d) (b : SameTask d e) : SameTask c e :=
  ⟨b.g.trans a.g, b.task.trans a.task⟩

theorem SameTask.setCtx (c : Core) (k : CtxId) (x : Ctx) : SameTask c (c.setCtx k x) := by
  unfold Core.setCtx; split <;> exact ⟨rfl, rfl⟩

theorem SameTask.setQueue (c : Core) (q : Queue) (l : List QEntry) : SameTask c (c.setQueue q l) := by
  cases q <;> exact ⟨rfl, rfl⟩

theorem SameTask.clearPartition (c : Core) (as : List Nat) (p : Bool) : SameTask c (clearPartition c as p) := by
  rw [clearPartition_frame]; exact ⟨rfl, rfl⟩

theorem SameTask.abortBase (split : Bool) (c : Core) (k : CtxId) : SameTask c (abortBase split c k) := by
  have h := SameTask.clearPartition (discardEntries (dropHeld c k) k) (partition split k) true
  unfold Machine.abortBase
  dsimp only
  repeat' split
  all_goals exact ⟨h.g, h.task⟩

theorem SameTask.abortOther (c : Core) (o : CtxId) : SameTask c (abortOther c o) := by
  have h := SameTask.clearPartition (discardEntries (dropHeld c o) o) (partition true o) true
  have hx := h.trans (.setCtx _ o { ((Machine.clearPartition (discardEntries (dropHeld c o) o) (partition true o) true).ctx o) with
    stat := .aborting, hold := .none, yieldNow := false, mons := [], placed := [] })
  unfold Machine.abortOther
  split
  · exact ⟨hx.g, hx.task⟩
  · split
    · exact .setCtx ..
    · exact .refl c

theorem SameTask.abortCore (split : Bool) (c : Core) (k : CtxId) (code : Nat) (residue : Bool) :
    SameTask c (abortCore split c k code residue) := by
  obtain ⟨e, p, heq⟩ := abortCore_frame split c k code residue
  have h : SameTask c (if split then Machine.abortOther ((Machine.abortBase split c k).setCtx k
      (abortedCtx ((Machine.abortBase split c k).ctx k))) (if k = 0 then 1 else 0)
      else (Machine.abortBase split c k).setCtx k (abortedCtx ((Machine.abortBase split c k).ctx k))) := by
    have hset := (SameTask.abortBase split c k).trans (.setCtx _ k (abortedCtx ((Machine.abortBase split c k).ctx k)))
    split
    · exact hset.trans (.abortOther ..)
    · exact hset
  rw [heq]
  exact ⟨h.g, h.task⟩

/-- From `s` to `t` core `i` has kept its g registers and its task, and memory and the hearths are as before. -/
structure InLanes (i : Nat) (s t : State) : Prop where
  mem : t.mem = s.mem
  hearths : t.hearths = s.hearths
  count : t.cores.length = s.cores.length
  core : SameTask (coreAt s i) (coreAt t i)

section
variable {i : CoreId} {s t : State}

theorem InLanes.refl (i : CoreId) (s : State) : InLanes i s s := ⟨rfl, rfl, rfl, .refl _⟩

theorem InLanes.trans {u : State} (a : InLanes i s t) (b : InLanes i t u) : InLanes i s u :=
  ⟨b.mem.trans a.mem, b.hearths.trans a.hearths, b.count.trans a.count, a.core.trans b.core⟩

theorem InLanes.of (hm : t.mem = s.mem) (hh : t.hearths = s.hearths) (hc : t.cores = s.cores) : InLanes i s t :=
  ⟨hm, hh, by rw [hc], by rw [coreAt_congr hc]; exact .refl _⟩

theorem InLanes.modCore (s : State) {f : Core → Core} (hf : ∀ c, SameTask c (f c)) : InLanes i s (modCore s i f) := by
  refine ⟨rfl, rfl, modCore_cores_length .., ?_⟩
  by_cases hi : i < s.cores.length
  · rw [coreAt_modCore hi]; exact hf _
  · have h : Machine.modCore s i f = s := by
      rw [Machine.modCore, setCore, List.set_eq_of_length_le (by omega)]
    rw [h]; exact .refl _

theorem InLanes.faultAbort (s : State) (k : CtxId) (queue code pc : Nat) (precise residue : Bool) :
    InLanes i s (faultAbort s i k queue code pc precise residue) := by
  by_cases h : ((coreAt s i).ctx k).over = true
  · rw [Machine.faultAbort, if_pos h]; exact .refl i s
  · obtain ⟨fld, body, heq⟩ := faultAbort_eq (i := i) (eq_false_of_ne_true h) queue code pc precise residue
    rw [heq]
    refine (InLanes.modCore s fun c => SameTask.abortCore (isSplit s i) c k code residue).trans (.of ?_ ?_ ?_)
    · simp -implicitDefEqProofs only [makeRecord_mem, satF_mem, faultNoted, putF_mem]
    · simp -implicitDefEqProofs only [makeRecord_hearths, satF_hearths, faultNoted, putF_hearths]
    · simp -implicitDefEqProofs only [makeRecord_cores, satF_cores, faultNoted, putF_cores]

theorem InLanes.setEntry (s : State) (q : Queue) (qid : Nat) (f : QEntry → QEntry) : InLanes i s (setEntry s i q qid f) :=
  .modCore s fun _ => .setQueue ..

theorem InLanes.entryFault (s : State) (q : Queue) (e : QEntry) (code : Nat) (residue : Bool) :
    InLanes i s (entryFault s i q e code residue) := by
  unfold Machine.entryFault
  split
  · exact .setEntry ..
  · exact .faultAbort ..

theorem InLanes.removeEntry (s : State) (q : Queue) (qid : Nat) : InLanes i s (removeEntry s i q qid) :=
  .modCore s fun _ => .setQueue ..

theorem InLanes.writeSc (s : State) (n v : Nat) : InLanes i s (writeSc s i n v) := .modCore s fun _ => ⟨rfl, rfl⟩

theorem InLanes.entrySignal (s : State) (q : Queue) (e : QEntry) : InLanes i s (entrySignal s i q e) := by
  unfold Machine.entrySignal signalDone addCounter
  split
  · split
    · exact .faultAbort ..
    · exact .writeSc ..
  · exact .refl i s

end

section
variable {s : State} (i : CoreId) (lane : CtxId)

theorem inLanes_ite {p : Prop} [Decidable p] {a b : State × Bool} (ha : InLanes i s a.1) (hb : InLanes i s b.1) :
    InLanes i s (if p then a else b).1 := by
  split
  · exact ha
  · exact hb

/-- Nothing that a lane starts by itself changes memory, a g register or the task. -/
theorem inLanes_startNext {q : Queue} (hq : q = .anv0 ∨ q = .anv1) : InLanes i s (startNext s i q).1 := by
  have hstay : InLanes i s s := .refl i s
  have hsignal : ∀ e n v, InLanes i s (entrySignal (removeEntry (writeSc s i n v) i q e.qid) i q e) := fun e n v =>
    ((InLanes.writeSc s n v).trans (.removeEntry ..)).trans (.entrySignal ..)
  have hwait : ∀ k pl n m se sc pc, InLanes i s (holdWait s i k pl n m se sc pc) := fun k pl n m se sc pc =>
    .modCore s fun _ => ⟨rfl, rfl⟩
  unfold startNext
  split
  · exact hstay
  · next e _ =>
    refine inLanes_ite i hstay (inLanes_ite i (.setEntry ..) (inLanes_ite i (inLanes_ite i (.entryFault ..) (hsignal ..))
      (inLanes_ite i (inLanes_ite i ((InLanes.removeEntry ..).trans (.entrySignal ..)) (inLanes_ite i hstay (hwait ..)))
      (inLanes_ite i hstay (inLanes_ite i hstay ?_)))))
    rcases hq with rfl | rfl <;> exact hstay

theorem inLanes_pumpQueue : InLanes i s (pumpQueue s i (laneQueue lane)) := by
  unfold pumpQueue
  generalize ((coreAt s i.val).queue (laneQueue lane)).length = n
  induction n generalizing s with
  | zero => exact .refl ..
  | succ n ih =>
    have hq : laneQueue lane = .anv0 ∨ laneQueue lane = .anv1 := by unfold laneQueue; split <;> simp
    have h := inLanes_startNext (s := s) i hq
    rw [pumpN]
    split
    · exact h.trans ih
    · exact h

theorem inLanes_lanesPump : InLanes i s (lanesPump s i) := (inLanes_pumpQueue i 0).trans (inLanes_pumpQueue i 1)

theorem inLanes_reenter (old : Option QEntry) (pos : Nat) (lo hi : Word64) : InLanes i s (reenter i lane old pos s lo hi) := by
  have hdraw : InLanes i s (if old.isSome then s else (drawFree s).2) := by
    split
    · exact .refl ..
    · exact .of rfl rfl rfl
  have hcore : ∀ e (c : Core), SameTask c { c.setQueue (laneQueue lane) (c.queue (laneQueue lane) ++ [e]) with
      nextQid := c.nextQid + 1 } := fun e c => by
    have h := SameTask.setQueue c (laneQueue lane) (c.queue (laneQueue lane) ++ [e])
    exact ⟨h.g, h.task⟩
  exact hdraw.trans (.modCore _ (hcore _))

theorem inLanes_foldl {α : Type} {f : State → α → State} (hf : ∀ t x, InLanes i t (f t x)) (xs : List α) :
    InLanes i s (xs.foldl f s) := by
  induction xs generalizing s with
  | nil => exact .refl ..
  | cons x xs ih => exact (hf s x).trans ih

theorem inLanes_restoreLane : InLanes i s (restoreLane i s lane) := by
  unfold restoreLane
  dsimp only
  refine InLanes.trans ?_ (inLanes_foldl i (fun t j => inLanes_reenter ..) _)
  split
  · exact inLanes_reenter ..
  · exact .refl ..

theorem inLanes_restoreAnvil (a : Nat) : InLanes i s (restoreAnvil i s a) := by
  unfold restoreAnvil modAnvil
  exact .modCore s fun _ => ⟨rfl, rfl⟩

end

section
variable {s : State} {i : CoreId} {x : Task} {k : Nat}

theorem taskRestore_read (ht : (coreAt s i).task = some x) (hs : x.slot = some k) (hq : quenched s = false)
    (hr : (coreAt s i).ctx0.stat = .restoring) (hf : saveOff s i + saveLen ≤ csSize) (hb : seqSaveBad s i = false)
    (hok : (memRead s (slotAddr s k) (saveLen + seqSaveLen)).2.1 = .ok) : taskRestore s i false =
      restoreTask (copyFromSlot (memRead s (slotAddr s k) (saveLen + seqSaveLen)).1 i x
        (memRead s (slotAddr s k) (saveLen + seqSaveLen)).2.2) i false := by
  unfold taskRestore
  rw [ht]
  dsimp only
  rw [hs]
  simp [hq, hr, hb, hok, not_lt.2 hf]

theorem hearthAt_slots_filter (w : State) (h : Nat) (p : Nat → Bool) :
    (hearthAt (modHearth w h fun g => { g with slots := g.slots.filter p }) h).slots = (hearthAt w h).slots.filter p := by
  by_cases hh : h < w.hearths.length
  · rw [hearthAt_modHearth hh]
  · simp only [hearthAt, modHearth, setHearth, List.set_eq_of_length_le (Nat.le_of_not_lt hh)]
    rw [List.getD_eq_default _ _ (Nat.le_of_not_lt hh)]
    rfl

/-- What the copy of the slot leaves in the core's own save areas. -/
theorem copyFromSlot_shows {w : State} (hw : Touched s w) (hi : i.val < s.cores.length) (hs : x.slot = some k) (bs : List Byte) :
    (coreAt (copyFromSlot w i x bs) i).task = some { x with slot := none } ∧ (copyFromSlot w i x bs).regs = s.regs ∧
    (copyFromSlot w i x bs).cores.length = s.cores.length ∧
    (hearthAt (copyFromSlot w i x bs) (k / 256)).slots = (hearthAt s (k / 256)).slots.filter (· != k % 256) := by
  have hcores : w.cores = s.cores := by rw [hw.frame]
  have hregs : w.regs = s.regs := by rw [hw.frame]
  have hslots : (hearthAt w (k / 256)).slots = (hearthAt s (k / 256)).slots := by rw [(hw.slices _).eq]
  have hdrop : ∀ u : State, dropSlot u x = modHearth u (k / 256) fun g => { g with slots := g.slots.filter (· != k % 256) } :=
    fun u => by rw [dropSlot, hs]
  unfold copyFromSlot
  dsimp only
  rw [hdrop]
  refine ⟨?_, hregs, (modCore_cores_length ..).trans (congrArg List.length hcores), ?_⟩
  · rw [coreAt_modCore (hcores ▸ hi)]
  · rw [← hslots]
    exact hearthAt_slots_filter ..

/-- The state in which registers, sets and lanes have been restored. -/
def lanesRestored (u : State) (i : CoreId) : State :=
  lanes2.foldl (restoreLane i.val) ((List.range 4).foldl (restoreAnvil i.val) (restoreSeq u i.val))

theorem restoreTask_shows {u : State} (hi : i.val < u.cores.length) (ht : (coreAt u i).task = some { x with slot := none })
    (hf : restoreFault u i = none) : (restoreTask u i false).mem = u.mem ∧ (restoreTask u i false).hearths = u.hearths ∧
      (coreAt (restoreTask u i false) i).g = readWords u (csBase i + seqSaveOff u i + 0x40) 32 ∧
      (coreAt (restoreTask u i false) i).task = some { x with slot := none, kept := [], mons := [] } := by
  have heq : restoreTask u i false = lanesPump (modCore (lanesRestored u i) i fun c => { c with
      task := c.task.map fun t => { t with kept := [], mons := [] } }) i := by
    rw [restoreTask, if_neg (by decide), hf]
    rfl
  have hlanes : InLanes i (restoreSeq u i) (lanesRestored u i) :=
    (inLanes_foldl i (fun _ a => inLanes_restoreAnvil i a) _).trans (inLanes_foldl i (fun _ l => inLanes_restoreLane i l) _)
  have hpump := inLanes_lanesPump (s := modCore (lanesRestored u i) i fun c => { c with
      task := c.task.map fun t => { t with kept := [], mons := [] } }) i
  rw [← heq] at hpump
  have hlen : i.val < (lanesRestored u i).cores.length := by
    rw [hlanes.count, restoreSeq, modCore_cores_length]; exact hi
  have hcore : coreAt (restoreSeq u i) i = _ := coreAt_modCore hi _
  refine ⟨hpump.mem.trans hlanes.mem, hpump.hearths.trans hlanes.hearths, ?_, ?_⟩
  · rw [hpump.core.g, coreAt_modCore hlen]
    exact hlanes.core.g.trans (by rw [hcore])
  · rw [hpump.core.task, coreAt_modCore hlen]
    have htask : (coreAt (lanesRestored u i) i).task = some { x with slot := none } :=
      hlanes.core.task.trans (by rw [hcore]; exact ht)
    simp only [htask, Option.map_some]

end

/-- Settles O15: what the record holds after a save, and what a restore takes from it. -/
theorem saveAndRestore : Obligations.SaveAndRestore := by
  unfold Obligations.SaveAndRestore
  refine fun i s hz => ⟨fun k x fed ht hs hr h0 h1 hp0 hp1 hb hl hm => ?_, fun k x u ht hs hq hr hf hb hok hu => ?_⟩
  · obtain ⟨hcores, hword⟩ := recordsSaved_shows (i := i) hl
    have hcore := coreAt_congr hcores i
    obtain ⟨⟨kept, mons, hleft⟩, hmem⟩ := leaveCore_shows (s := recordsSaved s i k) (i := i) (hcores ▸ core_lt hz i)
      (coreAt (recordsSaved s i k) i).preq.isNone
    rw [hcore] at hleft hmem
    have hend := saveComplete_empty (fed := fed) ht hs hr h0 h1 hp0 hp1 hm
    rw [hcore] at hend
    refine .of rfl hend ⟨?_, ?_, ?_, fun a => ?_, (readWord_congr hmem _).trans hword⟩
    · rw [hleft]; rfl
    · rw [hleft]; rfl
    · rw [hleft]; rfl
    · rw [hleft]
      exact anvil_leftCore (coreSized_iff.1 (sized_core hz i)).2.2.2 ..
  · subst hu
    obtain ⟨htask, hregs, hcount, hslots⟩ := copyFromSlot_shows (touched_memRead s (slotAddr s k) (saveLen + seqSaveLen))
      (core_lt hz i) hs (memRead s (slotAddr s k) (saveLen + seqSaveLen)).2.2
    have hrun := taskRestore_read ht hs hq hr hf hb hok
    have hoff := seqSaveOff_congr hregs i
    revert htask hcount hslots hrun hoff
    generalize copyFromSlot (memRead s (slotAddr s k) (saveLen + seqSaveLen)).1 i x
        (memRead s (slotAddr s k) (saveLen + seqSaveLen)).2.2 = u
    intro htask hcount hslots hrun hoff
    refine .of rfl hrun ⟨fun code hc => ?_, fun hn => ?_⟩
    · rw [restoreTask, if_neg (by decide), hc]
    · obtain ⟨hmem, hhearths, hg, htask'⟩ := restoreTask_shows (hcount ▸ core_lt hz i) htask hn
      refine ⟨?_, htask', ?_⟩
      · rw [hg, hoff, readWords_congr hmem]
      · rw [hearthAt_congr hhearths, hslots]

end Sys2Proof.Machine
end

section
/-! PROOFS. The mark of one entry of a lane frees another with the same number (R172, R173). -/

namespace Sys2Proof.Machine

/-- A lane entry of context 0. -/
def laneEntry (op : Nat) (mod : BitVec 7) (imm : Word64) (started : Bool) : QEntry :=
  { qid := 0, op, pc := 0, ctx := 0, off := false, ga := 0, gb := 0, gc := 0, gd := 0, started, finished := false
    f := { pneg := false, pred := 0, sigen := false, sigc := 0, mod, d := 0, a := 0, b := 0, c := 0, sub := 0, imm }
    high := [], awaits := 0, ecc := false, buf := [], begun := 0, ended := 0, pos := 0 }

/-- Lane 0 of core 0 holds a tile entry and, with the same number and marked as started, a SIGNAL of a counter that is full. -/
def twinState (op : Nat) (mod : BitVec 7) (x : Anvil) : State :=
  setDomState (modCore .reset 0 fun c => { c with
    ctx0 := { Ctx.reset with stat := .running }
    sc := List.replicate 16 0xFFFFFFFF
    anvils := c.anvils.set 0 x
    anv0 := [laneEntry op mod 0 false, laneEntry opSignal 0 1 true] }) 0 0

/-- The fault code of core 0 after a command. -/
def faultCodeAfter (c : Instr) (s : State) : Nat :=
  match exec c s with
  | .next t => getF t (CORE_FAULT 0) CORE_FAULT_CODE
  | _ => 0

theorem faultCodeAfter_of_coreOnly {c : Instr} {s : State} {i : Nat} {P : State → Prop} (h : Answers c s fun t => coreOnly s t i ∧ P t) :
    faultCodeAfter c s = getF s (CORE_FAULT 0) CORE_FAULT_CODE := by
  obtain ⟨t, he, hframe, -⟩ := h
  rw [faultCodeAfter, he]
  exact getF_congr (by rw [hframe]) ..

/-- Refutes O19, in its first clause: ZERO on an anvil un-marks another started entry of the lane that has the same number, and
that SIGNAL then overflows its counter. -/
theorem not_shadowsAndCells : ¬ Obligations.ShadowsAndCells := by
  unfold Obligations.ShadowsAndCells
  intro ⟨h, _⟩
  obtain ⟨hzero, -⟩ := h 0 0 (twinState opAzero 8 .reset) (laneEntry opAzero 8 0 false) (by decide +kernel) (by decide +kernel)
    (by decide +kernel)
  have hshow := hzero (by decide +kernel) (by decide +kernel)
  exact absurd (faultCodeAfter_of_coreOnly hshow) (by decide +kernel)

end Sys2Proof.Machine
end

section
/-! PROOFS. DRAIN too frees a started entry with the same number (R124, R172, R173). -/

namespace Sys2Proof.Machine

/-- An anvil whose Finished set waits for its drain. -/
def finishedAnvil : Anvil := { Anvil.reset with shadow := { AccSet.cleared with st := .finished } }

/-- Refutes O21, in its first clause: DRAIN of a raw tile un-marks another started entry of the lane that has the same number,
and that SIGNAL then overflows its counter. -/
theorem not_drainsAndFusedRows : ¬ Obligations.DrainsAndFusedRows := by
  unfold Obligations.DrainsAndFusedRows
  intro ⟨h, _⟩
  obtain ⟨hdrain, -⟩ := h 0 0 (twinState opAdrain 10 finishedAnvil) (by decide +kernel)
  have hshow := hdrain (laneEntry opAdrain 10 0 false) (by decide +kernel) (by decide +kernel) (by decide +kernel)
    (by decide +kernel) (by decide +kernel) (by decide +kernel) (by decide +kernel) (by decide +kernel)
    (fun h0 => absurd h0 (by decide +kernel)) (by decide +kernel)
  exact absurd (faultCodeAfter_of_coreOnly hshow) (by decide +kernel)

end Sys2Proof.Machine
end

section
/-! PROOFS. Passes and ramps (R121, R129 to R131). -/

namespace Sys2Proof.Machine

/-! ## Lanes of tile entries -/

section
variable {s : State} {i : CoreId}

theorem lanesTile_iff : lanesTile s i = true ↔ ∀ lane : CtxId, ∀ e ∈ (coreAt s i).queue (laneQueue lane),
    e.started = true ∨ (isTile e = true ∧ e.off = false) := by
  simp only [lanesTile, List.all_append, Bool.and_eq_true, List.all_eq_true, Bool.or_eq_true, Bool.not_eq_true']
  refine ⟨fun ⟨h0, h1⟩ lane => ?_, fun h => ⟨h 0, h 1⟩⟩
  fin_cases lane
  · exact h0
  · exact h1

theorem pumpQueue_of_tile {q : Queue} (h : ∀ e ∈ (coreAt s i).queue q, e.started = true ∨ (isTile e = true ∧ e.off = false)) :
    pumpQueue s i q = s := by
  have hstay : startNext s i q = (s, false) := by
    cases hh : headEntry s i q with
    | none => simp [startNext, hh]
    | some e =>
      have hs : e.started = false := by simpa using List.find?_some hh
      obtain ⟨ht, ho⟩ := (h e (List.mem_of_find?_eq_some hh)).resolve_left (by simp [hs])
      have hsig : e.op ≠ opSignal := by rintro h; rw [isTile, h] at ht; exact absurd ht (by decide)
      have hwait : e.op ≠ opWait := by rintro h; rw [isTile, h] at ht; exact absurd ht (by decide)
      simp only [startNext, hh, ho, if_neg hsig, if_neg hwait, ht, if_true, Bool.false_eq_true, if_false, ite_self]
  unfold pumpQueue
  cases ((coreAt s i.val).queue q).length with
  | zero => rfl
  | succ n => rw [pumpN, hstay]; rfl

theorem lanesPump_of_tile (h : lanesTile s i = true) : lanesPump s i = s := by
  have h' := lanesTile_iff.1 h
  have h0 : pumpQueue s i .anv0 = s := pumpQueue_of_tile (h' 0)
  rw [lanesPump, h0]
  exact pumpQueue_of_tile (h' 1)

theorem lanesTile_congr {t : State} (h0 : (coreAt t i).anv0 = (coreAt s i).anv0) (h1 : (coreAt t i).anv1 = (coreAt s i).anv1) :
    lanesTile t i = lanesTile s i := by
  rw [lanesTile, h0, h1, lanesTile]

end

/-! ## Ramps asked for -/

/-- An anvil of which a pass asks the ramp. -/
def rampAsked (x : Anvil) : Anvil := { x with ramp := rampUpReq x.ramp }

theorem askRamp_eq {s : State} {i : CoreId} (hi : i.val < s.cores.length) (m : Nat) :
    askRamp s i m = syncGrants (modCore s i (foldAnvils rampAsked (anvList m))) i := by
  rw [askRamp]
  exact congrArg (syncGrants · i) (foldl_modAnvil hi rampAsked _)

theorem setAnvil_self (c : Core) (a : Nat) : c.setAnvil a (c.anvil a) = c := by
  have h : c.anvils.set a (c.anvils.getD a .reset) = c.anvils := by
    refine List.ext_getElem (by simp) fun n h1 h2 => ?_
    rw [List.getElem_set]
    split
    · next he => subst he; exact (List.getElem_eq_getD Anvil.reset).symm
    · rfl
  exact congrArg (fun l => { c with anvils := l }) h

theorem foldAnvils_of_fixed {g : Anvil → Anvil} {l : List Nat} {c : Core} (h : ∀ a ∈ l, g (c.anvil a) = c.anvil a) :
    foldAnvils g l c = c := by
  unfold foldAnvils
  induction l with
  | nil => rfl
  | cons a l ih =>
    rw [List.foldl_cons, h a List.mem_cons_self, setAnvil_self]
    exact ih fun b hb => h b (List.mem_cons_of_mem _ hb)

section
variable {s : State} {i : CoreId} {m : Nat}

/-- Anvils at full activity keep it. -/
theorem askRamp_full (hi : i.val < s.cores.length) (h : rampsFull s i m = true) : askRamp s i m = syncGrants s i := by
  have hfix : foldAnvils rampAsked (anvList m) (coreAt s i) = coreAt s i := foldAnvils_of_fixed fun a ha => by
    have hr : (anvilAt s i a).ramp = .full := by simpa using List.all_eq_true.1 h a ha
    have hr' : ((coreAt s i).anvil a).ramp = .full := hr
    revert hr'
    generalize (coreAt s i).anvil a = x
    rintro hx
    rw [rampAsked, hx, ← hx]
    cases x
    subst hx
    rfl
  rw [askRamp_eq hi, modCore, hfix]
  exact congrArg (syncGrants · i) (modCore_id s i)

/-- What a request for a ramp shows. -/
theorem askRamp_shows (hz : sized s = true) (m : Nat) : memSame s (askRamp s i m) ∧ regsSameBut s (askRamp s i m) [] ∧
    (coreAt (askRamp s i m) i).anv0 = (coreAt s i).anv0 ∧ (coreAt (askRamp s i m) i).anv1 = (coreAt s i).anv1 ∧
    ∀ a : AnvilId, anvilAt (askRamp s i m) i a =
      if m.testBit a then { anvilAt s i a with ramp := rampUpReq (anvilAt s i a).ramp } else anvilAt s i a := by
  have hi := core_lt hz i
  have hcore : coreAt (askRamp s i m) i = foldAnvils rampAsked (anvList m) (coreAt s i) := by
    rw [askRamp_eq hi, syncGrants_frame]
    exact coreAt_modCore hi _
  refine ⟨memSame_of_mem ?_, regsSameBut_of_regs ?_ _, ?_, ?_, fun a => ?_⟩
  · rw [askRamp_eq hi, syncGrants_frame]; rfl
  · rw [askRamp_eq hi, syncGrants_frame]; rfl
  · rw [hcore, foldAnvils_frame]
  · rw [hcore, foldAnvils_frame]
  · rw [anvilAt, hcore]
    split
    next h =>
      exact anvil_foldAnvils_mem _ (nodup_anvList m) ((mem_anvList a).2 h)
        (by rw [(coreSized_iff.1 (sized_core hz i)).2.2.2]; exact a.isLt)
    next h => exact anvil_foldAnvils_not_mem _ (mt (mem_anvList a).1 h) _

theorem doPass_asks {lane : CtxId} {e : QEntry} (hz : sized s = true) (hl : anvilsLive s i = true) (hn : nextPass s i lane = some e)
    (hr : (anvList (anvMask e.f)).any (fun b => rampUpReq (anvilAt s i b).ramp != .full) = true) :
    doPass s i lane false = askRamp s i (anvMask e.f) := by
  obtain ⟨b, hb, hne⟩ := List.any_eq_true.1 hr
  have hb4 : b < 4 := List.mem_range.1 (List.mem_filter.1 hb).1
  obtain ⟨-, -, -, -, hanv⟩ := askRamp_shows (i := i) hz (anvMask e.f)
  have hask := hanv ⟨b, hb4⟩
  rw [if_pos ((mem_anvList ⟨b, hb4⟩).1 hb)] at hask
  have hfull : rampsFull (askRamp s i (anvMask e.f)) i (anvMask e.f) = false := by
    refine List.all_eq_false.2 ⟨b, hb, ?_⟩
    have hramp := congrArg Anvil.ramp hask
    simp only at hramp
    rw [hramp]
    simpa using hne
  unfold doPass
  rw [hn]
  simp [hl, hfull]

end

/-! ## Changes of one core in turn -/

section
variable {α : Type} (i : Nat) (g : α → Core → Core)

theorem foldl_modCore_frame (l : List α) (t : State) :
    l.foldl (fun t a => modCore t i (g a)) t = { t with cores := (l.foldl (fun t a => modCore t i (g a)) t).cores } := by
  induction l generalizing t with
  | nil => rfl
  | cons a l ih => rw [List.foldl_cons, ih]; rfl

theorem foldl_modCore_count (l : List α) (t : State) :
    (l.foldl (fun t a => modCore t i (g a)) t).cores.length = t.cores.length := by
  induction l generalizing t with
  | nil => rfl
  | cons a l ih => rw [List.foldl_cons, ih, modCore_cores_length]

/-- What every change of a core keeps, all of them keep. -/
theorem foldl_modCore_keeps {β : Type} (p : Core → β) (hg : ∀ a c, p (g a c) = p c) (l : List α) (t : State) :
    p (coreAt (l.foldl (fun t a => modCore t i (g a)) t) i) = p (coreAt t i) := by
  induction l generalizing t with
  | nil => rfl
  | cons a l ih =>
    rw [List.foldl_cons, ih]
    by_cases hi : i < t.cores.length
    · rw [coreAt_modCore hi, hg]
    · rw [modCore, setCore, List.set_eq_of_length_le (Nat.le_of_not_lt hi)]

end

/-! ## Entries and passes of a lane -/

theorem setQueue_pass (c : Core) (q : Queue) (l : List QEntry) : (c.setQueue q l).pass0 = c.pass0 ∧ (c.setQueue q l).pass1 = c.pass1 := by
  cases q <;> exact ⟨rfl, rfl⟩

theorem setQueue_anvils (c : Core) (q : Queue) (l : List QEntry) : (c.setQueue q l).anvils = c.anvils := by cases q <;> rfl

theorem queue_setQueue_ne {q q' : Queue} (h : q' ≠ q) (c : Core) (l : List QEntry) : (c.setQueue q l).queue q' = c.queue q' := by
  cases q <;> cases q' <;> first | rfl | exact absurd rfl h

section
variable {s : State} {i : CoreId} {lane : CtxId}

theorem coreAt_setEntry (hi : i.val < s.cores.length) (q : Queue) (qid : Nat) (f : QEntry → QEntry) :
    coreAt (setEntry s i q qid f) i =
      (coreAt s i).setQueue q (((coreAt s i).queue q).map fun e => if e.qid = qid then f e else e) := coreAt_modCore hi _

theorem lanePass_setEntry (hi : i.val < s.cores.length) (q : Queue) (qid : Nat) (f : QEntry → QEntry) :
    lanePass (setEntry s i q qid f) i lane = lanePass s i lane := by
  obtain ⟨h0, h1⟩ := setQueue_pass (coreAt s i) q (((coreAt s i).queue q).map fun e => if e.qid = qid then f e else e)
  rw [lanePass, coreAt_setEntry hi, h0, h1, lanePass]

theorem anvilAt_setEntry (hi : i.val < s.cores.length) (q : Queue) (qid : Nat) (f : QEntry → QEntry) (a : Nat) :
    anvilAt (setEntry s i q qid f) i a = anvilAt s i a := by
  rw [anvilAt, coreAt_setEntry hi, Core.anvil, setQueue_anvils, anvilAt, Core.anvil]

theorem lanePass_setLanePass (hi : i.val < s.cores.length) (p : Option PassRun) : lanePass (setLanePass s i lane p) i lane = p := by
  rw [lanePass, setLanePass, coreAt_modCore hi]
  by_cases h : lane = 0 <;> simp [h]

theorem setLanePass_keeps (hi : i.val < s.cores.length) (p : Option PassRun) :
    (coreAt (setLanePass s i lane p) i).anvils = (coreAt s i).anvils ∧
    ∀ q, (coreAt (setLanePass s i lane p) i).queue q = (coreAt s i).queue q := by
  rw [setLanePass, coreAt_modCore hi]
  split <;> exact ⟨rfl, fun q => by cases q <;> rfl⟩

/-- Entries that keep their operation and do not lose their start leave the lanes with tile entries alone. -/
theorem lanesTile_setEntry (hi : i.val < s.cores.length) (h : lanesTile s i = true) (q : Queue) (qid : Nat) {f : QEntry → QEntry}
    (hf : ∀ e, (f e).started = true) : lanesTile (setEntry s i q qid f) i = true := by
  refine lanesTile_iff.2 fun l e he => ?_
  rw [coreAt_setEntry hi] at he
  by_cases hq : laneQueue l = q
  · rw [hq, queue_setQueue, List.mem_map] at he
    obtain ⟨x, hx, rfl⟩ := he
    split
    · exact .inl (hf x)
    · exact lanesTile_iff.1 h l x (hq ▸ hx)
  · rw [queue_setQueue_ne hq] at he
    exact lanesTile_iff.1 h l e he

/-! ## A pass that starts -/

/-- The scales of the anvils of a pass latched. -/
def latched (u : State) (i : Nat) (e : QEntry) (a : Nat) (c : Core) : Core :=
  c.setAnvil a { (c.anvil a) with active := { (c.anvil a).active with
    ea := latch (c.anvil a).active.ea ((passRows u i (amacFmt e.f) (fromPos (passDescOf (amacDesc u i e)) e.pos)
      ((List.range 32).map (actRow (fromPos (passDescOf (amacDesc u i e)) e.pos)))).getD [])
    eb := latch (c.anvil a).active.eb ((passRows u i (amacFmt e.f) (fromPos (passDescOf (amacDesc u i e)) e.pos)
      ((List.range 64).map (wgtRow (fromPos (passDescOf (amacDesc u i e)) e.pos) a))).getD []) } }

theorem anvMask_lt (f : Fields) : anvMask f < 16 := bitsOf_lt ..

theorem startPass_shows (hi : i.val < s.cores.length) (ht : lanesTile s i = true) (e : QEntry) :
    (startPass s i lane e).mem = s.mem ∧ lanesTile (startPass s i lane e) i = true ∧
    (lanePass (startPass s i lane e) i lane).map (fun p => (p.qid, p.tag, p.anv.toNat, p.fmt, p.pc, p.base))
      = some (e.qid, tagOf e, anvMask e.f, amacFmt e.f, e.pc, e.pos) := by
  obtain ⟨run, hrun, hstart⟩ : ∃ run : PassRun, (run.qid, run.tag, run.anv.toNat, run.fmt, run.pc, run.base) =
      (e.qid, tagOf e, anvMask e.f, amacFmt e.f, e.pc, e.pos) ∧ startPass s i lane e =
        setEntry (setLanePass ((anvList (anvMask e.f)).foldl (fun t a => modCore t i (latched s i e a)) s) i lane (some run)) i
          (laneQueue lane) e.qid fun x => { x with begun := BitVec.ofNat 4 (anvMask x.f), started := true } :=
    ⟨_, by simp [anvMask_lt], rfl⟩
  have hcount := foldl_modCore_count i (latched s i e) (anvList (anvMask e.f)) s
  have hframe := foldl_modCore_frame i (latched s i e) (anvList (anvMask e.f)) s
  have h0 := foldl_modCore_keeps i (latched s i e) (·.anv0) (fun _ _ => rfl) (anvList (anvMask e.f)) s
  have h1 := foldl_modCore_keeps i (latched s i e) (·.anv1) (fun _ _ => rfl) (anvList (anvMask e.f)) s
  rw [hstart]
  revert hcount hframe h0 h1
  generalize (anvList (anvMask e.f)).foldl (fun t a => modCore t i (latched s i e a)) s = u
  intro hcount hframe h0 h1
  have hi1 : i.val < u.cores.length := hcount ▸ hi
  have hi2 : i.val < (setLanePass u i lane (some run)).cores.length := by rw [setLanePass, modCore_cores_length]; exact hi1
  obtain ⟨-, hq⟩ := setLanePass_keeps (lane := lane) hi1 (some run)
  refine ⟨?_, ?_, ?_⟩
  · have hmem : u.mem = s.mem := by rw [hframe]
    exact hmem
  · refine lanesTile_setEntry hi2 ?_ _ _ fun _ => rfl
    rw [lanesTile_congr (hq .anv0) (hq .anv1), lanesTile_congr h0 h1]
    exact ht
  · rw [lanePass_setEntry hi2, lanePass_setLanePass hi1]
    exact congrArg some hrun

theorem doPass_starts {e : QEntry} (hz : sized s = true) (hl : anvilsLive s i = true) (hn : nextPass s i lane = some e)
    (hr : rampsFull s i (anvMask e.f) = true) (hp : lanePass s i lane = none)
    (hrun : ∀ a ∈ anvList (anvMask e.f), (anvilAt s i a).active.st = .running ∧ (anvilAt s i a).active.tag = tagOf e)
    (hf : passFault s i e = none) : doPass s i lane false = startPass (syncGrants s i) i lane e := by
  have hask := askRamp_full (core_lt hz i) hr
  have hframe := syncGrants_frame s i
  revert hask hframe
  generalize syncGrants s i = u
  intro hask hframe
  have hready : (anvList (anvMask e.f)).all (fun a => decide ((anvilAt s i a).active.st = .running) &&
      decide ((anvilAt s i a).active.tag = tagOf e)) = true :=
    List.all_eq_true.2 fun a ha => by simpa using hrun a ha
  have hr' : rampsFull u i (anvMask e.f) = true := by rw [hframe]; exact hr
  have hp' : lanePass u i lane = none := by rw [hframe]; exact hp
  have hf' : passFault u i e = none := by rw [hframe]; exact hf
  have hready' : (anvList (anvMask e.f)).all (fun a => decide ((anvilAt u i a).active.st = .running) &&
      decide ((anvilAt u i a).active.tag = tagOf e)) = true := by rw [hframe]; exact hready
  unfold doPass
  rw [hn]
  simp [hl, hask, hr', hp', hf', hready']

end

/-! ## A pass that ends -/

/-- From `u` to `t` ramps, entries and the power state alone may have changed. -/
structure RampsOnly (i : CoreId) (u t : State) : Prop where
  mem : t.mem = u.mem
  regs : t.regs = u.regs
  count : t.cores.length = u.cores.length
  lanes : ∀ l, lanePass t i l = lanePass u i l
  active : ∀ a, (anvilAt t i a).active = (anvilAt u i a).active

theorem RampsOnly.refl (i : CoreId) (u : State) : RampsOnly i u u := ⟨rfl, rfl, rfl, fun _ => rfl, fun _ => rfl⟩

theorem RampsOnly.trans {i : CoreId} {s t u : State} (a : RampsOnly i s t) (b : RampsOnly i t u) : RampsOnly i s u :=
  ⟨b.mem.trans a.mem, b.regs.trans a.regs, b.count.trans a.count, fun l => (b.lanes l).trans (a.lanes l),
    fun x => (b.active x).trans (a.active x)⟩

theorem active_setAnvil {c : Core} {a : Nat} {x : Anvil} (h : x.active = (c.anvil a).active) (b : Nat) :
    ((c.setAnvil a x).anvil b).active = (c.anvil b).active := by
  by_cases hab : a = b
  · subst hab
    by_cases ha : a < c.anvils.length
    · rw [anvil_setAnvil ha, h]
    · have hset : c.setAnvil a x = c := by
        rw [Core.setAnvil, List.set_eq_of_length_le (Nat.le_of_not_lt ha)]
      rw [hset]
  · rw [anvil_setAnvil_ne hab]

theorem rampsOnly_modAnvil {i : CoreId} {u : State} (hi : i.val < u.cores.length) (a : Nat) {f : Anvil → Anvil}
    (hf : ∀ x, (f x).active = x.active) : RampsOnly i u (modAnvil u i a f) where
  mem := rfl
  regs := rfl
  count := modCore_cores_length ..
  lanes l := by rw [lanePass, modAnvil, coreAt_modCore hi]; rfl
  active b := by
    rw [anvilAt, modAnvil, coreAt_modCore hi]
    exact active_setAnvil (hf _) b

theorem rampsOnly_settleRamp {i : CoreId} {u : State} (hi : i.val < u.cores.length) (a : Nat) : RampsOnly i u (settleRamp u i a) := by
  unfold settleRamp
  split
  · exact .refl i u
  · exact rampsOnly_modAnvil hi a fun _ => rfl

theorem rampsOnly_settleRamps {i : CoreId} {u : State} (hi : i.val < u.cores.length) (l : List Nat) :
    RampsOnly i u (l.foldl (fun t a => settleRamp t i a) u) := by
  induction l generalizing u with
  | nil => exact .refl i u
  | cons a l ih =>
    have h := rampsOnly_settleRamp hi a
    exact h.trans (ih (h.count ▸ hi))

theorem rampsOnly_syncGrants (i : CoreId) (u : State) : RampsOnly i u (syncGrants u i) := by
  rw [syncGrants_frame]
  exact ⟨rfl, rfl, rfl, fun _ => rfl, fun _ => rfl⟩

section
variable {s : State} {i : CoreId} {lane : CtxId}

theorem regsSameBut_countVoids (s : State) (i n addr : Nat) : regsSameBut s (countVoids s i n addr) [CORE_VOIDCNT i] := by
  have h : regsSameBut s (satF s (CORE_VOIDCNT i) CORE_VOIDCNT_VOID_READS n) [CORE_VOIDCNT i] :=
    (regsSameBut.refl s _).satF List.mem_cons_self _ _
  unfold countVoids
  split
  · exact .refl s _
  · dsimp only
    split
    · exact h.of_regs (makeRecord_regs ..)
    · exact h

/-- The products of a pass change accumulators, and the count of voids. -/
theorem applyPass_shows (s : State) (i : CoreId) (p : PassRun) (n : Nat) : (applyPass s i p n).mem = s.mem ∧
    (applyPass s i p n).cores.length = s.cores.length ∧ regsSameBut s (applyPass s i p n) [CORE_VOIDCNT i] := by
  obtain ⟨r, rec, hvoid⟩ := RegsRec.countVoids (.refl s) i (passVoids s i p n) (csBase i + p.abase)
  have hregs := regsSameBut_countVoids s i (passVoids s i p n) (csBase i + p.abase)
  unfold applyPass
  dsimp only
  revert hvoid hregs
  generalize countVoids s i (passVoids s i p n) (csBase i + p.abase) = u
  intro hvoid hregs
  refine ⟨?_, (foldl_modCore_count ..).trans (by rw [hvoid]), hregs.of_regs ?_⟩
  · rw [foldl_modCore_frame, hvoid]
  · rw [foldl_modCore_frame]

theorem passComplete_eq {p : PassRun} (hl : anvilsLive s i = true) (hp : lanePass s i lane = some p) (hs : coreSaving s i = false)
    (hr : rampsFull s i p.anv.toNat = true) : passComplete s i lane =
      syncGrants ((anvList p.anv.toNat).foldl (fun t a => settleRamp t i a)
        (setEntry (setLanePass (applyPass s i p p.count) i lane none) i (laneQueue lane) p.qid fun x =>
          { x with ended := x.begun, finished := true })) i := by
  unfold passComplete
  rw [hp]
  simp only [hl, hs, hr, Bool.not_true, Bool.or_self, Bool.false_eq_true, if_false]

theorem passComplete_shows {p : PassRun} (hz : sized s = true) (hl : anvilsLive s i = true) (hp : lanePass s i lane = some p)
    (hs : coreSaving s i = false) (hr : rampsFull s i p.anv.toNat = true) :
    memSame s (passComplete s i lane) ∧ lanePass (passComplete s i lane) i lane = none ∧
    regsSameBut s (passComplete s i lane) [CORE_VOIDCNT i] ∧
    ∀ a : AnvilId, (anvilAt (passComplete s i lane) i a).active = (anvilAt (applyPass s i p p.count) i a).active := by
  obtain ⟨hmem, hcount, hregs⟩ := applyPass_shows s i p p.count
  rw [passComplete_eq hl hp hs hr]
  revert hmem hcount hregs
  generalize applyPass s i p p.count = u
  intro hmem hcount hregs
  have hi : i.val < u.cores.length := hcount ▸ core_lt hz i
  have hi1 : i.val < (setLanePass u i lane none).cores.length := by rw [setLanePass, modCore_cores_length]; exact hi
  obtain ⟨hanvils, -⟩ := setLanePass_keeps (lane := lane) hi none
  have hmem2 : (setEntry (setLanePass u i lane none) i (laneQueue lane) p.qid fun x =>
    { x with ended := x.begun, finished := true }).mem = u.mem := rfl
  have hregs2 : (setEntry (setLanePass u i lane none) i (laneQueue lane) p.qid fun x =>
    { x with ended := x.begun, finished := true }).regs = u.regs := rfl
  have hpass : lanePass (setEntry (setLanePass u i lane none) i (laneQueue lane) p.qid fun x =>
    { x with ended := x.begun, finished := true }) i lane = none := by rw [lanePass_setEntry hi1, lanePass_setLanePass hi]
  have hanv : ∀ a, anvilAt (setEntry (setLanePass u i lane none) i (laneQueue lane) p.qid fun x =>
      { x with ended := x.begun, finished := true }) i a = anvilAt u i a := fun a => by
    rw [anvilAt_setEntry hi1, anvilAt, Core.anvil, hanvils, anvilAt, Core.anvil]
  have hi2 : i.val < (setEntry (setLanePass u i lane none) i (laneQueue lane) p.qid fun x =>
    { x with ended := x.begun, finished := true }).cores.length := by rw [setEntry, modCore_cores_length]; exact hi1
  revert hmem2 hregs2 hpass hanv hi2
  generalize setEntry (setLanePass u i lane none) i (laneQueue lane) p.qid (fun x =>
    { x with ended := x.begun, finished := true }) = w
  intro hmem2 hregs2 hpass hanv hi2
  have hramp := (rampsOnly_settleRamps hi2 (anvList p.anv.toNat)).trans (rampsOnly_syncGrants i _)
  exact ⟨memSame_of_mem (hramp.mem.trans (hmem2.trans hmem)), (hramp.lanes lane).trans hpass,
    hregs.of_regs (hramp.regs.trans hregs2), fun a => by rw [hramp.active, hanv]⟩

/-! ## A stage of a ramp -/

theorem noteIdle_frame (s : State) : noteIdle s = { s with power := (noteIdle s).power } := by
  unfold noteIdle; split <;> rfl

/-- An anvil one stage further up. -/
def rampRaised (x : Anvil) : Anvil :=
  { x with ramp := match x.ramp with
    | .up k => if 6 ≤ k then .full else .up (k + 1)
    | .down k => if 6 ≤ k then .idle else .down (k + 1)
    | r => r }

theorem rampStage_pending {a : AnvilId} (hz : sized s = true) (hl : anvilsLive s i = true) (hp : passPending s i a = true) :
    rampStage s i a = noteIdle (syncGrants (modAnvil s i a rampRaised) i) := by
  have hi := core_lt hz i
  have hq : quenched s = false := by simpa using (Bool.and_eq_true_iff.1 hl).1
  have hq' : quenched (modAnvil s i a rampRaised) = false := hq
  have hp' : passPending (modAnvil s i a rampRaised) i a = true := by
    have hqueue : ∀ q, (coreAt (modAnvil s i a rampRaised) i).queue q = (coreAt s i).queue q := fun q => by
      rw [modAnvil, coreAt_modCore hi]; cases q <;> rfl
    have hlane : anvilLane (modAnvil s i a rampRaised) i a = anvilLane s i a := rfl
    rw [← hp, passPending, passOn, hlane, hqueue, modAnvil, coreAt_modCore hi]
    rfl
  have hsettle : settleRamp (modAnvil s i a rampRaised) i a = modAnvil s i a rampRaised := by
    rw [settleRamp, hp', hq']; rfl
  exact congrArg (fun t => noteIdle (syncGrants t i)) hsettle

theorem rampStage_shows {a : AnvilId} {n : Nat} (hz : sized s = true) (hl : anvilsLive s i = true)
    (hr : (anvilAt s i a).ramp = .up n) (hp : passPending s i a = true) :
    memSame s (rampStage s i a) ∧ regsSameBut s (rampStage s i a) [] ∧ otherAnvils s (rampStage s i a) i a ∧
    anvilAt (rampStage s i a) i a = { anvilAt s i a with ramp := if 6 ≤ n then .full else .up (n + 1) } := by
  have hi := core_lt hz i
  obtain ⟨p1, h1⟩ : ∃ p, syncGrants (modAnvil s i a rampRaised) i = { modAnvil s i a rampRaised with power := p } :=
    ⟨_, syncGrants_frame ..⟩
  obtain ⟨p2, h2⟩ : ∃ p, noteIdle { modAnvil s i a rampRaised with power := p1 } = { modAnvil s i a rampRaised with power := p } :=
    ⟨_, noteIdle_frame _⟩
  have heq : rampStage s i a = { modAnvil s i a rampRaised with power := p2 } := by rw [rampStage_pending hz hl hp, h1, h2]
  have hcore : coreAt (rampStage s i a) i = (coreAt s i).setAnvil a (rampRaised ((coreAt s i).anvil a)) :=
    (coreAt_congr (s := modAnvil s i a rampRaised) (by rw [heq]) i).trans (coreAt_modCore hi _)
  refine ⟨memSame_of_mem ?_, regsSameBut_of_regs ?_ _, fun b hb => ?_, ?_⟩
  · rw [heq]; rfl
  · rw [heq]; rfl
  · rw [anvilAt, hcore, anvil_setAnvil_ne (Ne.symm hb)]; rfl
  · have hlen : a.val < (coreAt s i).anvils.length := by rw [(coreSized_iff.1 (sized_core hz i)).2.2.2]; exact a.isLt
    have hr' : ((coreAt s i).anvil a).ramp = .up n := hr
    rw [anvilAt, hcore, anvil_setAnvil hlen, rampRaised, hr']
    rfl

end

/-- Settles O20: a ramp is asked for, a pass starts, ends, and a ramp moves. -/
theorem passes : Obligations.Passes := by
  unfold Obligations.Passes
  refine fun i s hz hl => ⟨fun lane e hn ht hr => ?_, fun lane e hn hr hp hrun hf ht => ?_, fun lane p hp hs hr => ?_,
    fun a n hr hp => ?_⟩
  · obtain ⟨hmem, hregs, h0, h1, hanv⟩ := askRamp_shows (i := i) hz (anvMask e.f)
    have htile : lanesTile (askRamp s i (anvMask e.f)) i = true := (lanesTile_congr h0 h1).trans ht
    exact .of rfl ((congrArg (lanesPump · i) (doPass_asks hz hl hn hr)).trans (lanesPump_of_tile htile)) ⟨hmem, hregs, hanv⟩
  · have hgrants : (syncGrants s i).cores = s.cores ∧ (syncGrants s i).mem = s.mem := by
      rw [syncGrants_frame]; exact ⟨rfl, rfl⟩
    have hcore := coreAt_congr hgrants.1 i
    obtain ⟨hmem, htile, hpass⟩ := startPass_shows (s := syncGrants s i) (i := i) (lane := lane) (hgrants.1 ▸ core_lt hz i)
      ((lanesTile_congr (by rw [hcore]) (by rw [hcore])).trans ht) e
    exact .of rfl ((congrArg (lanesPump · i) (doPass_starts hz hl hn hr hp hrun hf)).trans (lanesPump_of_tile htile))
      ⟨memSame_of_mem (hmem.trans hgrants.2), hpass⟩
  · exact .of rfl rfl (passComplete_shows hz hl hp hs hr)
  · exact .of rfl rfl (rampStage_shows hz hl hr hp)

end Sys2Proof.Machine
end

section
/-! PROOFS. The estimate, pacing and grants (R383 to R387, R398). -/

namespace Sys2Proof.Machine

/-! ## What the bellows changes -/

/-- From `s` to `t` registers, the state of the bellows and the free values drawn alone may have changed. -/
def PowerOnly (s t : State) : Prop := t = { s with regs := t.regs, power := t.power, free := t.free }

theorem PowerOnly.refl (s : State) : PowerOnly s s := rfl

theorem PowerOnly.trans {s t u : State} (a : PowerOnly s t) (b : PowerOnly t u) : PowerOnly s u := by
  rw [PowerOnly, b, a]

theorem PowerOnly.setR {s t : State} (h : PowerOnly s t) (a : Nat) (v : Word32) : PowerOnly s (setR t a v) := by
  rw [PowerOnly, h]
  rfl

theorem PowerOnly.putF {s t : State} (h : PowerOnly s t) (a : Nat) (f : Fld) (n : Nat) : PowerOnly s (putF t a f n) := h.setR ..

theorem PowerOnly.satF {s t : State} (h : PowerOnly s t) (a : Nat) (f : Fld) (n : Nat) : PowerOnly s (satF t a f n) := h.putF ..

theorem PowerOnly.modPower {s t : State} (h : PowerOnly s t) (f : Power → Power) : PowerOnly s (modPower t f) := by
  rw [PowerOnly, h]
  rfl

theorem PowerOnly.time {s t : State} (h : PowerOnly s t) : t.time = s.time := by rw [h]

theorem PowerOnly.mem {s t : State} (h : PowerOnly s t) : t.mem = s.mem := by rw [h]

theorem PowerOnly.cores {s t : State} (h : PowerOnly s t) : t.cores = s.cores := by rw [h]

theorem regsSameBut.getF {s t : State} {as : List Nat} (h : regsSameBut s t as) {a : Nat} (ha : a ∉ as) (f : Fld) :
    getF t a f = getF s a f := by
  rw [Machine.getF, h a ha, Machine.getF]

theorem regsSameBut.flag {s t : State} {as : List Nat} (h : regsSameBut s t as) {a : Nat} (ha : a ∉ as) (f : Fld) :
    flag t a f = flag s a f := by
  rw [Machine.flag, h.getF ha, Machine.flag]

/-! ## The estimate -/

/-- What the limits of R383 and R386 read is as before. -/
structure SameEstimate (s t : State) : Prop where
  frame : PowerOnly s t
  samples : t.power.samples = s.power.samples
  weight : t.power.weight = s.power.weight
  amps : t.power.rawAmps = s.power.rawAmps
  since : t.power.overSince = s.power.overSince
  regs : regsSameBut s t [PWR_POWER, PWR_STATUS, PWR_CNT]

theorem SameEstimate.refl (s : State) : SameEstimate s s := ⟨.refl s, rfl, rfl, rfl, rfl, .refl s _⟩

theorem SameEstimate.trans {s t u : State} (a : SameEstimate s t) (b : SameEstimate t u) : SameEstimate s u :=
  ⟨a.frame.trans b.frame, b.samples.trans a.samples, b.weight.trans a.weight, b.amps.trans a.amps, b.since.trans a.since,
    a.regs.trans b.regs⟩

theorem SameEstimate.putF {s t : State} (h : SameEstimate s t) {a : Nat} (ha : a ∈ [PWR_POWER, PWR_STATUS, PWR_CNT]) (f : Fld) (x : Nat) :
    SameEstimate s (putF t a f x) :=
  ⟨h.frame.putF .., by rw [putF_power]; exact h.samples, by rw [putF_power]; exact h.weight, by rw [putF_power]; exact h.amps,
    by rw [putF_power]; exact h.since, h.regs.putF ha _ _⟩

theorem SameEstimate.satF {s t : State} (h : SameEstimate s t) {a : Nat} (ha : a ∈ [PWR_POWER, PWR_STATUS, PWR_CNT]) (f : Fld) (x : Nat) :
    SameEstimate s (satF t a f x) := h.putF ha f _

theorem SameEstimate.modPower {s t : State} (h : SameEstimate s t) {f : Power → Power} (hs : ∀ p, (f p).samples = p.samples)
    (hw : ∀ p, (f p).weight = p.weight) (ha : ∀ p, (f p).rawAmps = p.rawAmps) (ho : ∀ p, (f p).overSince = p.overSince) :
    SameEstimate s (modPower t f) :=
  ⟨h.frame.modPower f, (hs _).trans h.samples, (hw _).trans h.weight, (ha _).trans h.amps, (ho _).trans h.since, h.regs.of_regs rfl⟩

theorem windowMean_congr {s t : State} (ht : t.time = s.time) (hs : t.power.samples = s.power.samples) (w : Nat) :
    windowMean t w = windowMean s w := by
  rw [windowMean, State.now, hs, ht]
  rfl

theorem regsSameBut.capW {s t : State} {as : List Nat} (h : regsSameBut s t as) (ha : PWR_CTL ∉ as) : capW t = capW s := by
  rw [Machine.capW, clampF, h.getF ha, Machine.capW, clampF]

section
variable {s t : State}

theorem SameEstimate.pFast (h : SameEstimate s t) : pFast t = pFast s := windowMean_congr h.frame.time h.samples _

theorem SameEstimate.pSlow (h : SameEstimate s t) : pSlow t = pSlow s := windowMean_congr h.frame.time h.samples _

theorem SameEstimate.capW (h : SameEstimate s t) : capW t = capW s := h.regs.capW (by decide)

theorem SameEstimate.margin (h : SameEstimate s t) : margin t = margin s := by
  rw [Machine.margin, h.regs.getF (by decide), h.regs.getF (by decide), Machine.margin]

theorem SameEstimate.mustPace (h : SameEstimate s t) : mustPace t = mustPace s := by
  have himax : imaxA t = imaxA s := by rw [imaxA, clampF, h.regs.getF (by decide), imaxA, clampF]
  have hamps : estAmps t t.power.rawAmps = estAmps s s.power.rawAmps := by rw [estAmps, h.weight, h.amps, estAmps]
  have hlong : excursionLong t = excursionLong s := by
    rw [excursionLong, h.since, State.now, h.frame.time]
    rfl
  rw [Machine.mustPace, himax, hamps, hlong, pFastHigh, h.pFast, h.margin, pSlowHigh, h.pSlow, h.margin, h.capW]
  rfl

end

section
variable {s : State} {watts amps : Nat}

theorem addSample_shows (s : State) (watts amps : Nat) : PowerOnly s (addSample s watts amps) ∧
    (addSample s watts amps).power.samples.head? = some (s.now, estWatts s watts amps) ∧
    (addSample s watts amps).power.excursion = s.power.excursion ∧
    regsSameBut s (addSample s watts amps) [PWR_POWER] ∧
    getF (addSample s watts amps) PWR_POWER PWR_POWER_P_FAST = min 0xFFFF (pFast (addSample s watts amps)) ∧
    getF (addSample s watts amps) PWR_POWER PWR_POWER_P_SLOW = min 0xFFFF (pSlow (addSample s watts amps)) := by
  generalize hu : modPower s (fun p => { p with
    samples := (s.now, estWatts s watts amps) :: p.samples.filter fun x => decide (s.now - x.1 < 1000000000)
    rawAmps := amps }) = u
  have heq : addSample s watts amps = putF (putF u PWR_POWER PWR_POWER_P_FAST (min 0xFFFF (pFast u))) PWR_POWER PWR_POWER_P_SLOW
      (min 0xFFFF (pSlow u)) := by
    rw [addSample, hu]
  have hframe : PowerOnly s u := by rw [← hu]; exact (PowerOnly.refl s).modPower _
  have hregs : u.regs = s.regs := by rw [← hu]; rfl
  have hhead : u.power.samples.head? = some (s.now, estWatts s watts amps) := by rw [← hu]; rfl
  have hexc : u.power.excursion = s.power.excursion := by rw [← hu]; rfl
  rw [heq]
  have hfast' : pFast (putF (putF u PWR_POWER PWR_POWER_P_FAST (min 0xFFFF (pFast u))) PWR_POWER PWR_POWER_P_SLOW
      (min 0xFFFF (pSlow u))) = pFast u :=
    windowMean_congr ((putF_time ..).trans (putF_time ..))
      (congrArg Power.samples ((putF_power ..).trans (putF_power ..))) _
  have hslow' : pSlow (putF (putF u PWR_POWER PWR_POWER_P_FAST (min 0xFFFF (pFast u))) PWR_POWER PWR_POWER_P_SLOW
      (min 0xFFFF (pSlow u))) = pSlow u :=
    windowMean_congr ((putF_time ..).trans (putF_time ..))
      (congrArg Power.samples ((putF_power ..).trans (putF_power ..))) _
  refine ⟨(hframe.putF ..).putF .., by rw [putF_power, putF_power]; exact hhead, by rw [putF_power, putF_power]; exact hexc,
    ((regsSameBut_of_regs hregs _).putF List.mem_cons_self _ _).putF List.mem_cons_self _ _, ?_, ?_⟩
  · rw [hfast', getF_putF_apart (by decide) (by decide) (by decide) (by decide), getF_putF (by decide) (by decide)]
    exact Nat.mod_eq_of_lt (Nat.lt_of_le_of_lt (Nat.min_le_left ..) (by decide))
  · rw [hslow', getF_putF (by decide) (by decide)]
    exact Nat.mod_eq_of_lt (Nat.lt_of_le_of_lt (Nat.min_le_left ..) (by decide))

theorem noteOver_shows (s : State) : PowerOnly s (noteOver s) ∧ (noteOver s).regs = s.regs ∧
    (noteOver s).power.samples = s.power.samples ∧ (noteOver s).power.excursion = s.power.excursion :=
  ⟨(PowerOnly.refl s).modPower _, rfl, rfl, rfl⟩

/-- A run of time above CAP, and what shows it. -/
theorem noteExcursion_shows (s : State) : SameEstimate s (noteExcursion s) ∧ paceK (noteExcursion s) = paceK s ∧
    ((noteExcursion s).power.excursion.isSome = decide (capW s < pFast s)) ∧
    (capW s < pFast s → s.power.excursion = none → flag (noteExcursion s) PWR_STATUS PWR_STATUS_EXCURSION = true) ∧
    (pFast s ≤ capW s → flag (noteExcursion s) PWR_STATUS PWR_STATUS_EXCURSION = false) ∧
    regsSameBut s (noteExcursion s) [PWR_STATUS, PWR_CNT] := by
  unfold noteExcursion
  by_cases h : capW s < pFast s
  · rw [if_pos h, decide_eq_true h]
    by_cases hx : s.power.excursion.isSome = true
    · rw [if_pos hx]
      exact ⟨.refl s, rfl, hx, fun _ hn => absurd hx (by simp [hn]), fun hle => absurd h (not_lt.2 hle), .refl s _⟩
    · rw [if_neg hx]
      have hregs : ∀ as, PWR_STATUS ∈ as → PWR_CNT ∈ as → regsSameBut s (satF (putF (modPower s fun p => { p with excursion := some s.now })
          PWR_STATUS PWR_STATUS_EXCURSION 1) PWR_CNT PWR_CNT_EXCURSIONS 1) as := fun as h1 h2 =>
        ((regsSameBut_of_regs rfl as).putF h1 _ _).satF h2 _ _
      refine ⟨(((SameEstimate.refl s).modPower (f := fun p => { p with excursion := some s.now }) (fun _ => rfl) (fun _ => rfl) (fun _ => rfl) fun _ => rfl).putF (by decide) _ _).satF
          (by decide) _ _, ?_, by rw [satF_power, putF_power]; rfl,
        fun _ _ => ?_, fun hle => absurd h (not_lt.2 hle), hregs _ (by decide) (by decide)⟩
      · rw [paceK, satF, getF_putF_ne (by decide), getF_putF_apart (by decide) (by decide) (by decide) (by decide)]
        rfl
      · rw [satF, flag_putF_ne (by decide), flag_putF_one (by decide) (by decide)]
  · rw [if_neg h, decide_eq_false h]
    have hregs : ∀ as, PWR_STATUS ∈ as → regsSameBut s (putF (modPower s fun p => { p with excursion := none })
        PWR_STATUS PWR_STATUS_EXCURSION 0) as := fun as h1 => (regsSameBut_of_regs rfl as).putF h1 _ _
    refine ⟨((SameEstimate.refl s).modPower (f := fun p => { p with excursion := none }) (fun _ => rfl) (fun _ => rfl) (fun _ => rfl) fun _ => rfl).putF (by decide) _ _, ?_,
      by rw [putF_power]; rfl,
      fun hlt => absurd hlt h, fun _ => flag_putF_zero (by decide) (by decide) .., hregs _ (by decide)⟩
    rw [paceK, getF_putF_apart (by decide) (by decide) (by decide) (by decide)]
    rfl

end

/-! ## Pacing -/

/-- From `s` to `t` no excursion has begun or ended. -/
structure SameExcursion (s t : State) : Prop extends SameEstimate s t where
  excursion : t.power.excursion = s.power.excursion
  shown : flag t PWR_STATUS PWR_STATUS_EXCURSION = flag s PWR_STATUS PWR_STATUS_EXCURSION

theorem SameExcursion.refl (s : State) : SameExcursion s s := ⟨.refl s, rfl, rfl⟩

theorem SameExcursion.trans {s t u : State} (a : SameExcursion s t) (b : SameExcursion t u) : SameExcursion s u :=
  ⟨a.toSameEstimate.trans b.toSameEstimate, b.excursion.trans a.excursion, b.shown.trans a.shown⟩

section
variable (s : State)

theorem sameExcursion_settleLimit : SameExcursion s (settleLimit s) :=
  ⟨(SameEstimate.refl s).putF (by decide) _ _, by rw [settleLimit, putF_power],
    by rw [settleLimit, flag_putF_apart (by decide) (by decide) (by decide) (by decide)]⟩

theorem paceK_settleLimit : paceK (settleLimit s) = paceK s := by
  rw [paceK, settleLimit, getF_putF_apart (by decide) (by decide) (by decide) (by decide), paceK]

/-- The pacings counted when a run of pacing begins. -/
def pacingCounted (k : Nat) : State := if paceK s = 16 && k < 16 then satF s PWR_CNT PWR_CNT_PACINGS 1 else s

/-- The last move of k noted. -/
def pacedAt (x : Nat) (p : Power) : Power := { p with paceAt := x }

theorem modPower_regs (u : State) (f : Power → Power) : (modPower u f).regs = u.regs := rfl

theorem modPower_power (u : State) (f : Power → Power) : (modPower u f).power = f u.power := rfl

theorem sameExcursion_pacingCounted (k : Nat) : SameExcursion s (pacingCounted s k) := by
  unfold pacingCounted
  split
  · exact ⟨(SameEstimate.refl s).satF (by decide) _ _, by rw [satF_power], by rw [satF, flag_putF_ne (by decide)]⟩
  · exact .refl s

theorem setPace_eq (k : Nat) : setPace s k = modPower (putF (pacingCounted s k) PWR_STATUS PWR_STATUS_PACE k) (pacedAt s.now) := by
  have hnow : (putF (pacingCounted s k) PWR_STATUS PWR_STATUS_PACE k).now = s.now := by
    rw [State.now, putF_time, (sameExcursion_pacingCounted s k).frame.time]
    rfl
  rw [← hnow]
  rfl

theorem sameExcursion_setPace (k : Nat) : SameExcursion s (setPace s k) := by
  have h := sameExcursion_pacingCounted s k
  rw [setPace_eq]
  refine ⟨(h.toSameEstimate.putF (by decide) _ _).modPower (fun _ => rfl) (fun _ => rfl) (fun _ => rfl) fun _ => rfl, ?_, ?_⟩
  · rw [← h.excursion, modPower_power, putF_power]
    rfl
  · rw [flag_congr (modPower_regs ..), flag_putF_apart (by decide) (by decide) (by decide) (by decide), h.shown]

theorem paceK_setPace {k : Nat} (hk : k < 32) : paceK (setPace s k) = k := by
  rw [paceK, setPace_eq, getF_congr (modPower_regs ..), getF_putF (by decide) (by decide)]
  exact Nat.mod_eq_of_lt hk

theorem sameExcursion_drawFree : SameExcursion s (drawFree s).2 := ⟨⟨rfl, rfl, rfl, rfl, rfl, .refl s _⟩, rfl, rfl⟩

theorem sameExcursion_paceDown : SameExcursion s (paceDown s) := by
  unfold paceDown
  split
  · exact .refl s
  · exact (sameExcursion_drawFree s).trans (sameExcursion_setPace ..)

theorem regsSameBut_setPace (k : Nat) : regsSameBut s (setPace s k) [PWR_STATUS, PWR_CNT] := by
  rw [setPace_eq]
  refine (regsSameBut.putF ?_ (by decide) PWR_STATUS_PACE k).of_regs (modPower_regs ..)
  unfold pacingCounted
  split
  · exact (regsSameBut.refl s _).satF (by decide) _ _
  · exact .refl s _

theorem regsSameBut_paceDown : regsSameBut s (paceDown s) [PWR_STATUS, PWR_CNT] := by
  unfold paceDown
  split
  · exact .refl s _
  · exact (regsSameBut_of_regs (t := (drawFree s).2) rfl _).trans (regsSameBut_setPace _ _)

theorem paceK_lt : paceK s < 32 := bitsOf_lt ..

theorem paceK_paceDown (h : 1 < paceK s) : 1 ≤ paceK (paceDown s) ∧ paceK (paceDown s) < paceK s := by
  have hm : (drawFree s).1.toNat % (paceK s - 1) < paceK s - 1 := Nat.mod_lt _ (by omega)
  have hlt := paceK_lt s
  rw [paceDown, if_neg (by omega)]
  dsimp only
  rw [paceK_setPace _ (by omega)]
  omega

end

theorem powerEstimate_shows {s : State} {watts amps : Nat} (hq : quenched s = false) {t : State} (ht : t = powerEstimate s watts amps) :
    t.power.samples.head? = some (s.now, estWatts s watts amps) ∧
      getF t PWR_POWER PWR_POWER_P_FAST = min 0xFFFF (pFast t) ∧ getF t PWR_POWER PWR_POWER_P_SLOW = min 0xFFFF (pSlow t) ∧
      (t.power.excursion.isSome = decide (capW s < pFast t)) ∧
      (capW s < pFast t → s.power.excursion = none → flag t PWR_STATUS PWR_STATUS_EXCURSION = true) ∧
      (pFast t ≤ capW s → flag t PWR_STATUS PWR_STATUS_EXCURSION = false) ∧
      (1500 < pFastHigh t ∨ (capW t : Rat) < pSlowHigh t → mustPace t = true) ∧
      (mustPace t = false → paceK t = paceK s) ∧ (mustPace t = true → 1 < paceK s → 1 ≤ paceK t ∧ paceK t < paceK s) ∧
      regsSameBut s t [PWR_POWER, PWR_STATUS, PWR_CNT] ∧ memSame s t ∧ t.cores = s.cores := by
  obtain ⟨hf1, hhead, hx1, hr1, hfast, hslow⟩ := addSample_shows s watts amps
  have hq1 : quenched (addSample s watts amps) = false := by
    have h : (addSample s watts amps).therm = s.therm := by rw [hf1]
    rw [quenched, h]; exact hq
  have heq : t = settleLimit (if mustPace (noteExcursion (noteOver (addSample s watts amps))) then
      paceDown (noteExcursion (noteOver (addSample s watts amps))) else noteExcursion (noteOver (addSample s watts amps))) := by
    rw [ht, powerEstimate]
    dsimp only
    rw [hq1]
    rfl
  revert hf1 hhead hx1 hr1 hfast hslow hq1 heq
  generalize addSample s watts amps = u
  intro hf1 hhead hx1 hr1 hfast hslow hq1 heq
  obtain ⟨hf2, hr2, hs2, hx2⟩ := noteOver_shows u
  revert hf2 hr2 hs2 hx2 heq
  generalize noteOver u = v
  intro heq hf2 hr2 hs2 hx2
  obtain ⟨hsame, hk3, hisx, hshown, hgone, hr3⟩ := noteExcursion_shows v
  revert hsame hk3 hisx hshown hgone hr3 heq
  generalize noteExcursion v = w
  intro heq hsame hk3 hisx hshown hgone hr3
  have hwt : SameExcursion w t := by
    rw [heq]
    refine .trans ?_ (sameExcursion_settleLimit _)
    split
    · exact sameExcursion_paceDown w
    · exact .refl w
  have hvt : SameEstimate v t := hsame.trans hwt.toSameEstimate
  have hmust : mustPace t = mustPace w := hwt.mustPace
  have hcap : capW v = capW s := ((regsSameBut_of_regs hr2 []).capW (by decide)).trans (hr1.capW (by decide))
  have hpf : pFast t = pFast u := hvt.pFast.trans (windowMean_congr hf2.time hs2 _)
  have hps : pSlow t = pSlow u := hvt.pSlow.trans (windowMean_congr hf2.time hs2 _)
  have hk : paceK w = paceK s := by
    rw [hk3, paceK, getF_congr hr2, hr1.getF (by decide), paceK]
  have hpower : ∀ f, getF t PWR_POWER f = getF u PWR_POWER f := fun f => by
    have hwr : regsSameBut w t [PWR_STATUS, PWR_CNT] := by
      rw [heq]
      have hl : ∀ x : State, regsSameBut x (settleLimit x) [PWR_STATUS, PWR_CNT] := fun x => (regsSameBut.refl x _).putF (by decide) _ _
      refine regsSameBut.trans ?_ (hl _)
      split
      · exact regsSameBut_paceDown w
      · exact .refl w _
    rw [hwr.getF (by decide), hr3.getF (by decide), getF_congr hr2]
  refine ⟨?_, ?_, ?_, ?_, ?_, ?_, ?_, ?_, ?_, ?_, ?_, ?_⟩
  · rw [hvt.samples, hs2, hhead]
  · rw [hpower, hfast, hpf]
  · rw [hpower, hslow, hps]
  · rw [hwt.excursion, hisx, hcap, hvt.pFast]
  · rw [hvt.pFast, ← hcap, hwt.shown]
    exact fun h hn => hshown h (hx2.trans (hx1.trans hn))
  · rw [hvt.pFast, ← hcap, hwt.shown]
    exact hgone
  · rintro (h | h) <;> simp [mustPace, h]
  · intro h
    rw [← hk, heq, paceK_settleLimit, if_neg (by rw [← hmust, h]; decide)]
  · intro h h1
    rw [heq, paceK_settleLimit, if_pos (by rw [← hmust, h]), ← hk]
    exact paceK_paceDown w (hk ▸ h1)
  · exact ((hr1.mono (by decide)).trans (regsSameBut_of_regs hr2 _)).trans hvt.regs
  · exact memSame_of_mem (hvt.frame.mem.trans (hf2.mem.trans hf1.mem))
  · exact hvt.frame.cores.trans (hf2.cores.trans hf1.cores)

/-- k rises by one once its cause has gone. -/
theorem paceRaise_shows {s : State} (hq : quenched s = false) (hm : mustPace s = false) (hk : paceK s < 16)
    (hp : 10000 ≤ s.now - s.power.paceAt) (hh : s.power.hotPace = true → paceK s < 8) : paceK (paceRaise s true) = paceK s + 1 ∧
    (paceRaise s true).power.paceAt = s.now ∧ regsSameBut s (paceRaise s true) [PWR_STATUS] := by
  have hhot : (s.power.hotPace && decide (8 ≤ paceK s)) = false := by
    cases h : s.power.hotPace with
    | false => rfl
    | true => simpa using hh h
  have heq : paceRaise s true = setPace s (paceK s + 1) := by
    simp [paceRaise, hm, hq, hhot, not_le.2 hk, not_lt.2 hp]
  have hcount : pacingCounted s (paceK s + 1) = s := if_neg (by simp; omega)
  rw [heq]
  refine ⟨paceK_setPace s (by omega), ?_, ?_⟩
  · rw [setPace_eq, modPower_power]
    rfl
  · rw [setPace_eq, hcount]
    exact ((regsSameBut.refl s _).putF List.mem_cons_self PWR_STATUS_PACE (paceK s + 1)).of_regs (modPower_regs ..)

/-! ## Grants -/

section
variable {s : State}

theorem foldl_syncGrants_frame (is : List CoreId) (t : State) :
    is.foldl syncGrants t = { t with power := (is.foldl syncGrants t).power } := by
  induction is generalizing t with
  | nil => rfl
  | cons i is ih => rw [List.foldl_cons, ih, syncGrants_frame]

theorem standingGrants_frame (s : State) : standingGrants s = { s with power := (standingGrants s).power } := by
  rw [standingGrants, foldl_syncGrants_frame]
  rfl

/-- The requests when one has been granted. -/
def grantTaken (u : State) (g : GrantReq) : State := modPower u fun p => { p with
  grants := p.grants.erase g, charges := recentCharges u ++ [(u.now, (grantCharge u g).1, (grantCharge u g).2)]
  dither := if isRampDown g then p.dither else none }

theorem grant_none (h : nextGrant (standingGrants s) = none) : grant s = standingGrants s := by
  unfold grant
  dsimp only
  rw [h]

theorem grant_held {g : GrantReq} (h : nextGrant (standingGrants s) = some g)
    (hw : (ditherWaits (standingGrants s) && !isRampDown g || !grantFits (standingGrants s) g) = true) : grant s = standingGrants s := by
  unfold grant
  dsimp only
  rw [h]
  exact if_pos hw

theorem grant_given {g : GrantReq} (h : nextGrant (standingGrants s) = some g)
    (hw : (ditherWaits (standingGrants s) && !isRampDown g || !grantFits (standingGrants s) g) = false) :
    grant s = noteIdle (applyGrant (grantTaken (standingGrants s) g) g) := by
  unfold grant
  dsimp only
  rw [h]
  exact if_neg (by simp [hw])

/-- An anvil whose ramp-up is granted. -/
def rampStarted (x : Anvil) : Anvil := { x with ramp := if x.ramp = .waitUp then .up 1 else x.ramp }

theorem noteIdle_shows (w : State) : (noteIdle w).cores = w.cores ∧ (noteIdle w).mem = w.mem ∧ (noteIdle w).regs = w.regs ∧
    (noteIdle w).power.grants = w.power.grants ∧ (noteIdle w).power.charges = w.power.charges ∧
    (noteIdle w).power.dither = w.power.dither := by
  unfold noteIdle
  split <;> exact ⟨rfl, rfl, rfl, rfl, rfl, rfl⟩

/-- What a granted ramp-up leaves. -/
theorem upGranted_shows {u : State} (hz : sized u = true) {c : CoreId} {m : BitVec 4} {gs : List GrantReq}
    (hg : u.power.grants = .up c m :: gs) {t : State} (ht : t = noteIdle (applyGrant (grantTaken u (.up c m)) (.up c m))) :
    (∀ a, a < 4 → m.toNat.testBit a = true → (anvilAt u c.val a).ramp = .waitUp → (anvilAt t c.val a).ramp = .up 1) ∧
    (∀ i : CoreId, i ≠ c → coreAt t i = coreAt u i) ∧ t.power.grants = gs ∧ t.mem = u.mem ∧ t.power.dither = none ∧
    t.power.charges = recentCharges u ++ [(u.now, true, (anvList m.toNat).length * anvilMilli u)] := by
  have hi : c.val < (grantTaken u (.up c m)).cores.length := core_lt hz c
  have happly : applyGrant (grantTaken u (.up c m)) (.up c m) =
      modCore (grantTaken u (.up c m)) c (foldAnvils rampStarted (anvList m.toNat)) := foldl_modAnvil hi rampStarted _
  rw [happly] at ht
  obtain ⟨hcores, hmem, -, hgrants, hcharges, hdither⟩ := noteIdle_shows
    (modCore (grantTaken u (.up c m)) c (foldAnvils rampStarted (anvList m.toNat)))
  rw [← ht] at hcores hmem hgrants hcharges hdither
  refine ⟨fun a ha hb hr => ?_, fun i hne => ?_, hgrants.trans ?_, hmem, hdither, hcharges⟩
  · have hlen : a < (coreAt u c).anvils.length := by rw [(coreSized_iff.1 (sized_core hz c)).2.2.2]; exact ha
    have hr' : ((coreAt u c).anvil a).ramp = .waitUp := hr
    rw [anvilAt, coreAt_congr hcores, coreAt_modCore hi]
    have hcore : coreAt (grantTaken u (.up c m)) c = coreAt u c := rfl
    rw [hcore, anvil_foldAnvils_mem rampStarted (nodup_anvList _) ((mem_anvList ⟨a, ha⟩).2 hb) hlen, rampStarted, hr']
    rfl
  · rw [coreAt_congr hcores, coreAt_modCore_ne (fun h => hne (Fin.ext h.symm))]
    rfl
  · have herase : (grantTaken u (.up c m)).power.grants = u.power.grants.erase (.up c m) := rfl
    rw [modCore_power, herase, hg, List.erase_cons_head]

end

theorem nextGrant_up {u : State} {g : GrantReq} {gs : List GrantReq} (hq : quenched u = false) (hg : u.power.grants = g :: gs) :
    nextGrant u = some g := by
  rw [nextGrant, hq, hg]
  rfl

/-- The dither has passed: the first request is granted. -/
theorem ditherExpiry_shows {s : State} (hz : sized s = true) {x : Nat} {c : CoreId} {m : BitVec 4} (hx : s.power.dither = some x)
    (hle : x ≤ s.now) (hq : quenched s = false) (hg : s.power.grants = [.up c m])
    (hst : standingGrants { s with power := { s.power with dither := none } } = { s with power := { s.power with dither := none } })
    (hf : grantFits s (.up c m) = true) : (ditherExpiry s).power.dither = none ∧ (ditherExpiry s).power.grants = [] ∧
      (∀ a, a < 4 → m.toNat.testBit a = true → (anvilAt s c.val a).ramp = .waitUp → (anvilAt (ditherExpiry s) c.val a).ramp = .up 1) := by
  generalize hu : ({ s with power := { s.power with dither := none } } : State) = u at hst
  have hrun : ditherExpiry s = grant u := by
    have hw : ditherWaits s = false := by rw [ditherWaits, hx]; exact decide_eq_false (not_lt.2 hle)
    have hgo : ditherExpiry s = grant (modPower s fun p => { p with dither := none }) := if_neg (by simp [hx, hw])
    exact hgo.trans (congrArg grant hu)
  have hzu : sized u = true := by rw [← hu]; exact hz
  have hqu : quenched u = false := by rw [← hu]; exact hq
  have hgu : u.power.grants = [.up c m] := by rw [← hu]; exact hg
  have hfu : grantFits u (.up c m) = true := by rw [← hu]; exact hf
  have hwu : ditherWaits u = false := by rw [← hu]; rfl
  have hanv : ∀ a, anvilAt u c a = anvilAt s c a := fun a => by rw [← hu]; rfl
  have hgive : grant u = noteIdle (applyGrant (grantTaken u (.up c m)) (.up c m)) := by
    have h := grant_given (s := u) (g := .up c m) (by rw [hst]; exact nextGrant_up hqu hgu) (by rw [hst, hwu, hfu]; rfl)
    rwa [hst] at h
  obtain ⟨hup, -, hgrants, -, hdither, -⟩ := upGranted_shows hzu hgu (hrun.trans hgive)
  exact ⟨hdither, hgrants, fun a ha hb hr => hup a ha hb (by rw [hanv]; exact hr)⟩

/-- What a granted ramp-down leaves. -/
theorem downGranted_shows {u : State} (hz : sized u = true) {c : CoreId} {a : AnvilId} (hr : (anvilAt u c a).ramp = .waitDown)
    {t : State} (ht : t = noteIdle (applyGrant (grantTaken u (.down c a)) (.down c a))) : (anvilAt t c a).ramp = .down 1 ∧
      t.power.grants = u.power.grants.erase (.down c a) ∧ t.mem = u.mem := by
  have hi : c.val < (grantTaken u (.down c a)).cores.length := core_lt hz c
  obtain ⟨hcores, hmem, -, hgrants, -⟩ := noteIdle_shows (applyGrant (grantTaken u (.down c a)) (.down c a))
  rw [← ht] at hcores hmem hgrants
  refine ⟨?_, hgrants, hmem⟩
  have hlen : a.val < (coreAt u c).anvils.length := by rw [(coreSized_iff.1 (sized_core hz c)).2.2.2]; exact a.isLt
  have hr' : ((coreAt u c).anvil a).ramp = .waitDown := hr
  have hcore : coreAt (grantTaken u (.down c a)) c = coreAt u c := rfl
  rw [anvilAt, coreAt_congr hcores, applyGrant, modAnvil, coreAt_modCore hi, hcore, anvil_setAnvil hlen, hr']

/-- Settles O46: the estimate, pacing and the grants. -/
theorem powerAndGrants : Obligations.PowerAndGrants := by
  unfold Obligations.PowerAndGrants
  refine ⟨fun s hz => ⟨fun watts amps hq => .of rfl rfl (powerEstimate_shows hq rfl), fun hq hm hk hp hh =>
    .of rfl rfl (paceRaise_shows hq hm hk hp hh), fun gone h => ?_⟩, fun s u hz hu => ?_⟩
  · refine .of rfl (?_ : _ = s) rfl
    rcases h with rfl | h
    · rfl
    · have h' : s.now - s.power.paceAt < 10000 := h
      simp [paceRaise, h']
  have hframe := standingGrants_frame s
  rw [← hu] at hframe
  have hzu : sized u = true := by rw [hframe]; exact hz
  have hqu : quenched u = quenched s := by rw [hframe]; rfl
  have hmilli : anvilMilli u = anvilMilli s := by rw [hframe]; rfl
  have hnow : u.now = s.now := by rw [hframe]; rfl
  have hmem : u.mem = s.mem := by rw [hframe]
  refine ⟨fun hn => .of rfl (grant_none (hu ▸ hn)) hu.symm, fun c m gs hq hg => ?_, fun c a hq hn hf hr => ?_,
    fun x c m hx hle hq hg hst hf => .of rfl rfl (ditherExpiry_shows hz hx hle hq hg hst hf), fun x h => ?_⟩
  · have hnext := nextGrant_up (hqu.trans hq) hg
    rw [hu] at hnext
    refine ⟨fun hf => ?_, fun hw => ?_, fun hf hw => ?_⟩
    · exact .of rfl (grant_held hnext (by rw [← hu, hf]; simp)) hu.symm
    · exact .of rfl (grant_held hnext (by rw [← hu, hw]; rfl)) hu.symm
    · have hgive := grant_given hnext (by rw [← hu, hf, hw]; rfl)
      rw [← hu] at hgive
      obtain ⟨hup, hother, hgrants, hmem', -, hcharges⟩ := upGranted_shows hzu hg hgive
      exact .of rfl rfl ⟨hup, hother, hgrants, memSame_of_mem (hmem'.trans hmem), by rw [hcharges, hnow, hmilli]⟩
  · have hgive := grant_given (hu ▸ hn) (by rw [← hu, hf]; simp [isRampDown])
    rw [← hu] at hgive
    obtain ⟨hramp, hgrants, hmem'⟩ := downGranted_shows hzu hr hgive
    refine .of (u := grant s) rfl rfl ⟨?_, ?_, ?_⟩
    · exact hramp
    · exact hgrants
    · exact memSame_of_mem (hmem'.trans hmem)
  · refine .of rfl (?_ : _ = s) rfl
    rcases h with h | ⟨h, hlt⟩
    · simp [ditherExpiry, h]
    · simp [ditherExpiry, ditherWaits, h, hlt]

end Sys2Proof.Machine
end

section
/-! PROOFS. Rail currents, the voltage request and the ladder (R384, R388 to R391). -/

namespace Sys2Proof.Machine

/-! ## What the ladder reads -/

/-- Nothing that a step of the ladder reads differs, the level it stands at and the parked cores apart. -/
structure LadderBase (s t : State) : Prop where
  frame : t = { s with power := t.power }
  samples : t.power.samples = s.power.samples
  therm : t.power.pTherm = s.power.pTherm
  offDoms : t.power.offDoms = s.power.offDoms
  floored : t.power.floored = s.power.floored
  moved : t.power.vAt = s.power.vAt
  dead : t.power.avsDead = s.power.avsDead

/-- Nothing that a step of the ladder reads differs. -/
structure LadderSame (s t : State) : Prop extends LadderBase s t where
  level : t.power.ladderV = s.power.ladderV
  parked : t.power.parked = s.power.parked

section
variable {s t u : State}

theorem LadderBase.trans (a : LadderBase s t) (b : LadderBase t u) : LadderBase s u :=
  ⟨by rw [b.frame, a.frame], b.samples.trans a.samples, b.therm.trans a.therm, b.offDoms.trans a.offDoms,
    b.floored.trans a.floored, b.moved.trans a.moved, b.dead.trans a.dead⟩

theorem LadderSame.trans (a : LadderSame s t) (b : LadderSame t u) : LadderSame s u :=
  ⟨a.toLadderBase.trans b.toLadderBase, b.level.trans a.level, b.parked.trans a.parked⟩

theorem LadderBase.regs (h : LadderBase s t) : t.regs = s.regs := by rw [h.frame]

theorem LadderBase.time (h : LadderBase s t) : t.time = s.time := by rw [h.frame]

theorem LadderBase.pFast (h : LadderBase s t) : pFast t = pFast s := windowMean_congr h.time h.samples _

theorem LadderBase.pAllow (h : LadderBase s t) : pAllow t = pAllow s := by
  have hcap : capW t = capW s := (regsSameBut_of_regs h.regs []).capW (by decide)
  have hflow : flowNow t = flowNow s := by
    have htherm : t.therm = s.therm := by rw [h.frame]
    rw [flowNow, flag_congr h.regs, htherm, clampF, getF_congr h.regs]
    rfl
  rw [Machine.pAllow, pFlow, hcap, hflow, h.therm]
  rfl

theorem vset_congr (h : t.regs = s.regs) : vset t = vset s := by rw [vset, getF_congr h, vset]

theorem vfloor_congr (h : t.regs = s.regs) : vfloor t = vfloor s := by rw [vfloor, vset_congr h, getF_congr h, vfloor]

theorem vreq_congr (h : t.regs = s.regs) : vreq t = vreq s := getF_congr h ..

theorem LadderSame.ladderLevel (h : LadderSame s t) : ladderLevel t = ladderLevel s := by
  rw [Machine.ladderLevel, vfloor_congr h.regs, vset_congr h.regs, h.level, Machine.ladderLevel]

theorem LadderSame.nextPark (h : LadderSame s t) : nextPark t = nextPark s := by
  have hret : coreRetired t = coreRetired s := by
    funext i
    rw [coreRetired, getR_congr h.regs]
    rfl
  rw [Machine.nextPark, h.parked, hret, Machine.nextPark]

theorem ladderSame_noteParked (s : State) : LadderSame s (noteParked s) := ⟨⟨rfl, rfl, rfl, rfl, rfl, rfl, rfl⟩, rfl, rfl⟩

theorem ladderSame_ladderAt (s : State) (x : Option Nat) : LadderSame s (modPower s fun p => { p with ladderAt := x }) :=
  ⟨⟨rfl, rfl, rfl, rfl, rfl, rfl, rfl⟩, rfl, rfl⟩

/-- The ladder's level lies between VFLOOR and VSET. -/
theorem ladderLevel_bounds (s : State) : vfloor s ≤ ladderLevel s ∧ ladderLevel s ≤ vset s ∧ vset s ≤ 60 := by
  have h : vfloor s ≤ vset s := Nat.min_le_left ..
  have h60 : vset s ≤ 60 := Nat.min_le_left ..
  unfold ladderLevel
  omega

end

/-! ## The request -/

theorem vreq_lt (s : State) : vreq s < 64 := bitsOf_lt ..

/-- What a request for another code leaves. -/
theorem requestV_shows {s : State} {v : Nat} (hv : v ≠ vreq s) (hd : s.power.avsDead = false ∨ v < vreq s) (h64 : v < 64) :
    vreq (requestV s v) = v ∧ (requestV s v).egress = s.egress ++ [.avs v] ∧ (requestV s v).power = { s.power with vAt := s.now } ∧
    regsSameBut s (requestV s v) [PWR_VCTL] ∧ vfloor (requestV s v) = vfloor s ∧ vset (requestV s v) = vset s := by
  have hgo : requestV s v = emit (putF (modPower s fun p => { p with vAt := s.now }) PWR_VCTL PWR_VCTL_VREQ v) (.avs v) := by
    refine if_neg ?_
    rcases hd with hd | hd
    · simp [hd, hv]
    · simp [hv, not_lt.2 hd.le]
  have hregs : (requestV s v).regs = (putF (modPower s fun p => { p with vAt := s.now }) PWR_VCTL PWR_VCTL_VREQ v).regs := by
    rw [hgo, emit_regs]
  have hget : ∀ f : Fld, f.lo ≤ f.hi → f.hi < 32 → PWR_VCTL_VREQ.apart f = true → getF (requestV s v) PWR_VCTL f = getF s PWR_VCTL f :=
    fun f h1 h2 h3 => by rw [getF_congr hregs, getF_putF_apart (by decide) h1 h2 h3]; rfl
  have hset : vset (requestV s v) = vset s := by rw [vset, hget _ (by decide) (by decide) (by decide), vset]
  refine ⟨?_, ?_, ?_, ?_, ?_, hset⟩
  · rw [vreq, getF_congr hregs, getF_putF (by decide) (by decide)]
    exact Nat.mod_eq_of_lt h64
  · have he : ∀ (u : State) (o : Out), (emit u o).egress = u.egress ++ [o] := fun _ _ => rfl
    rw [hgo, he, putF_egress]
    rfl
  · rw [hgo, emit_power, putF_power]
    rfl
  · exact ((regsSameBut_of_regs (t := modPower s fun p => { p with vAt := s.now }) rfl _).putF List.mem_cons_self _ _).of_regs hregs
  · rw [vfloor, hset, hget _ (by decide) (by decide) (by decide), vfloor]

theorem moveV_up {s : State} (ha : 100000 ≤ s.now - s.power.vAt) (h : vreq s < vTarget s) : moveV s = requestV s (vreq s + 1) := by
  rw [moveV, if_neg (not_lt.2 ha), if_pos h]

theorem moveV_down {s : State} (ha : 100000 ≤ s.now - s.power.vAt) (h : vTarget s < vreq s) : moveV s = requestV s (vreq s - 1) := by
  rw [moveV, if_neg (not_lt.2 ha), if_neg (not_lt.2 h.le), if_pos h]

/-- However the request moves, the ladder stays. -/
theorem moveV_keeps (s : State) : (moveV s).power.ladderV = s.power.ladderV ∧ (moveV s).power.parked = s.power.parked ∧
    (moveV s).power.offDoms = s.power.offDoms := by
  have hr : ∀ v, (requestV s v).power.ladderV = s.power.ladderV ∧ (requestV s v).power.parked = s.power.parked ∧
      (requestV s v).power.offDoms = s.power.offDoms := fun v => by
    unfold requestV
    split
    · exact ⟨rfl, rfl, rfl⟩
    · rw [emit_power, putF_power]
      exact ⟨rfl, rfl, rfl⟩
  unfold moveV
  split
  · exact ⟨rfl, rfl, rfl⟩
  · split
    · exact hr _
    · split
      · exact hr _
      · exact ⟨rfl, rfl, rfl⟩

/-! ## A step of the ladder -/

section
variable {s : State}

/-- The state in which a step of the ladder moves. -/
def ladderDue (s : State) : State := noteParked (modPower s fun p => { p with ladderAt := some s.now })

theorem ladderSame_ladderDue (s : State) : LadderSame s (ladderDue s) := (ladderSame_ladderAt s _).trans (ladderSame_noteParked _)

theorem ladderStep_due (hb : bellowsHolds s = true) (hd : dueAfter s 100000 s.power.ladderAt = true) :
    ladderStep s = settleLimit (moveV (noteParked (ladderMove (ladderDue s)))) := by
  rw [ladderStep, hb, hd]
  rfl

theorem ladderStep_waits (h : bellowsHolds s = false ∨ dueAfter s 100000 s.power.ladderAt = false) : ladderStep s = s := by
  rcases h with h | h <;> simp [ladderStep, h]

theorem settleLimit_power (u : State) : (settleLimit u).power = u.power := putF_power ..

/-- What the ladder holds after a step is what its move left. -/
theorem ladderStep_shows (hb : bellowsHolds s = true) (hd : dueAfter s 100000 s.power.ladderAt = true) :
    (ladderStep s).power.ladderV = (ladderMove (ladderDue s)).power.ladderV ∧
    (ladderStep s).power.parked = (ladderMove (ladderDue s)).power.parked ∧
    (ladderStep s).power.offDoms = (ladderMove (ladderDue s)).power.offDoms := by
  rw [ladderStep_due hb hd, settleLimit_power]
  exact moveV_keeps (noteParked (ladderMove (ladderDue s)))

/-- The ladder's level one code lower. -/
theorem ladderMove_voltage (ha : pAllow s < (pFast s : Rat)) (hv : vfloor s < ladderLevel s) :
    ladderMove (ladderDue s) = modPower (ladderDue s) fun p => { p with ladderV := ladderLevel s - 1 } := by
  have h := ladderSame_ladderDue s
  have hgo : pAllow (ladderDue s) < (pFast (ladderDue s) : Rat) := by rw [h.pAllow, h.pFast]; exact ha
  rw [ladderMove, if_pos hgo, ladderDown, if_pos (by rw [vfloor_congr h.regs, h.ladderLevel]; exact hv), h.ladderLevel]
  rfl

theorem ladderMove_park {i : Nat} (ha : pAllow s < (pFast s : Rat)) (hv : vfloor s = ladderLevel s)
    (he : flag s PWR_CTL PWR_CTL_PARK_EN = true) (hn : nextPark s = some i) :
    ladderMove (ladderDue s) = noteParked (modPower (ladderDue s) fun p => { p with parked := p.parked ++ [i] }) := by
  have h := ladderSame_ladderDue s
  have hgo : pAllow (ladderDue s) < (pFast (ladderDue s) : Rat) := by rw [h.pAllow, h.pFast]; exact ha
  rw [ladderMove, if_pos hgo, ladderDown, if_neg (by rw [vfloor_congr h.regs, h.ladderLevel, hv]; exact lt_irrefl _),
    flag_congr h.regs, he, h.nextPark, hn]
  rfl

theorem ladderMove_stay (h1 : (pFast s : Rat) ≤ pAllow s) (h2 : 95 / 100 * pAllow s ≤ (pFast s : Rat)) :
    ladderMove (ladderDue s) = ladderDue s := by
  have h := ladderSame_ladderDue s
  rw [ladderMove, h.pAllow, h.pFast, if_neg (not_lt.2 h1), if_neg (not_lt.2 h2)]

theorem ladderMove_unpark (h1 : (pFast s : Rat) ≤ pAllow s) (h2 : (pFast s : Rat) < 95 / 100 * pAllow s)
    (ho : s.power.offDoms = []) (hp : s.power.parked ≠ []) :
    ladderMove (ladderDue s) = modPower (ladderDue s) fun p => { p with parked := p.parked.dropLast } := by
  have h := ladderSame_ladderDue s
  have hp' : ((ladderDue s).power.parked != []) = true := by rw [h.parked]; simpa using hp
  rw [ladderMove, h.pAllow, h.pFast, if_neg (not_lt.2 h1), if_pos h2, ladderUp, h.offDoms, ho]
  exact if_pos hp'

end

/-! ## Rail currents -/

/-- The bellows when the rail currents add up to `total`. -/
def avsKnown (total : Nat) (p : Power) : Power :=
  { p with avsFails := 0, weight := if p.rawAmps = 0 then p.weight else (total : Rat) / 100 / p.rawAmps }

theorem avsRead_eq (s : State) (mv : Nat) (rails : List (BitVec 16)) : avsRead s mv rails = modPower (putF (putF s PWR_MEAS
    PWR_MEAS_VMV mv) PWR_MEAS PWR_MEAS_IAMP (min 0xFFFF ((rails.map (·.toNat)).sum / 100))) (avsKnown (rails.map (·.toNat)).sum) := rfl

theorem putF_frame (s : State) (a : Nat) (f : Fld) (x : Nat) : putF s a f x = { s with regs := (putF s a f x).regs } := rfl

theorem avsRead_shows (s : State) (mv : BitVec 16) (rails : List (BitVec 16)) :
    getF (avsRead s mv.toNat rails) PWR_MEAS PWR_MEAS_VMV = mv.toNat % (PWR_MEAS_VMV.cap + 1) ∧
    getF (avsRead s mv.toNat rails) PWR_MEAS PWR_MEAS_IAMP = min 0xFFFF ((rails.map (·.toNat)).sum / 100) ∧
    (avsRead s mv.toNat rails).power.avsFails = 0 ∧ regsSameBut s (avsRead s mv.toNat rails) [PWR_MEAS] ∧
    avsRead s mv.toNat rails = { s with regs := (avsRead s mv.toNat rails).regs, power := (avsRead s mv.toNat rails).power } := by
  obtain ⟨r, hr⟩ : ∃ r, putF (putF s PWR_MEAS PWR_MEAS_VMV mv.toNat) PWR_MEAS PWR_MEAS_IAMP
      (min 0xFFFF ((rails.map (·.toNat)).sum / 100)) = { s with regs := r } := by
    rw [putF_frame, putF_frame s]
    exact ⟨_, rfl⟩
  rw [avsRead_eq]
  refine ⟨?_, ?_, rfl, ?_, ?_⟩
  · rw [getF_congr (modPower_regs ..), getF_putF_apart (by decide) (by decide) (by decide) (by decide),
      getF_putF (by decide) (by decide)]
    rfl
  · rw [getF_congr (modPower_regs ..), getF_putF (by decide) (by decide)]
    exact Nat.mod_eq_of_lt (Nat.lt_of_le_of_lt (Nat.min_le_left ..) (by decide))
  · exact (((regsSameBut.refl s _).putF List.mem_cons_self _ _).putF List.mem_cons_self _ _).of_regs (modPower_regs ..)
  · rw [hr]
    rfl

/-- The bellows once a third read has failed. -/
def avsLost (p : Power) : Power := { p with avsFails := p.avsFails + 1, avsDead := true }

theorem avsFail_third {s : State} (hf : s.power.avsFails = 2) (hd : s.power.avsDead = false) : (avsFail s).power.avsFails = 3 ∧
    (avsFail s).power.avsDead = true ∧ (avsFail s).regs = s.regs ∧
    (avsFail s).recorder = (makeRecord s srcBellows 0x400 [w64 avsRailCurrent]).recorder := by
  have heq : avsFail s = makeRecord (modPower s avsLost) srcBellows 0x400 [w64 avsRailCurrent] :=
    if_pos (by simp [modPower, hf, hd])
  rw [heq]
  refine ⟨?_, ?_, makeRecord_regs .., makeRecord_recorder_congr (s := s) (t := modPower s avsLost) rfl rfl rfl ..⟩
  · rw [makeRecord_power]
    exact congrArg (· + 1) hf
  · rw [makeRecord_power]
    rfl

/-! ## The idle floor and its end -/

section
variable {s : State}

/-- The request is told to stand at the floor, or at the ladder's level. -/
def flooredAs (b : Bool) (s : State) : State := modPower s fun p => { p with floored := b }

theorem idleVfloor_shows (hb : bellowsHolds s = true) (ha : 100000 ≤ s.now - s.power.vAt) (hi : idleMillisecond s = true)
    (hf : forecastDue s = false) (hv : vfloor s < vreq s) : vreq (idleVfloor s) = vreq s - 1 ∧
      (idleVfloor s).egress = s.egress ++ [.avs (vreq s - 1)] ∧ (idleVfloor s).power.floored = true ∧
      regsSameBut s (idleVfloor s) [PWR_VCTL] := by
  have hgo : idleVfloor s = moveV (flooredAs true s) := if_pos (by simp [hb, hi, hf])
  have ht : vTarget (flooredAs true s) = vfloor s := if_pos rfl
  have hv' : vTarget (flooredAs true s) < vreq s := by rw [ht]; exact hv
  rw [hgo, moveV_down (s := flooredAs true s) ha hv']
  have hlt := vreq_lt s
  obtain ⟨h1, h2, h3, h4, -⟩ := requestV_shows (s := flooredAs true s) (v := vreq s - 1)
    (show vreq s - 1 ≠ vreq s by omega) (.inr (show vreq s - 1 < vreq s by omega)) (by omega)
  exact ⟨h1, h2, congrArg Power.floored h3, h4⟩

/-- The forecasts whose window has not closed. -/
def openForecasts (s : State) : State :=
  modPower s fun p => { p with forecasts := p.forecasts.filter fun f => decide (s.now < f.closes) }

theorem forecastDue_open (s : State) : forecastDue (openForecasts s) = forecastDue s := by
  have hp : ∀ f : Forecast, (decide (s.now < f.closes) && forecastNear s 500000 f) = forecastNear s 500000 f := fun f => by
    rw [forecastNear]
    cases decide (s.now < f.closes) <;> simp
  have hnear : forecastNear (openForecasts s) 500000 = forecastNear s 500000 := rfl
  rw [forecastDue, hnear, forecastDue]
  refine Eq.trans List.any_filter ?_
  exact congrArg _ (funext hp)

theorem forecastWindowDue_shows (hb : bellowsHolds s = true) (ha : 100000 ≤ s.now - s.power.vAt) (hf : forecastDue s = true)
    (hv : vreq s < ladderLevel s) (hd : s.power.avsDead = false) : vreq (forecastWindowDue s) = vreq s + 1 ∧
      (forecastWindowDue s).egress = s.egress ++ [.avs (vreq s + 1)] ∧ (forecastWindowDue s).power.floored = false ∧
      regsSameBut s (forecastWindowDue s) [PWR_VCTL] := by
  have hb' : bellowsHolds (openForecasts s) = true := hb
  have hgo : forecastWindowDue s = moveV (flooredAs false (openForecasts s)) :=
    if_pos (Bool.and_eq_true_iff.2 ⟨hb', (forecastDue_open s).trans hf⟩)
  obtain ⟨-, hle, h60⟩ := ladderLevel_bounds s
  have ht : vTarget (flooredAs false (openForecasts s)) = ladderLevel s := if_neg (Bool.false_ne_true)
  have hv' : vreq s < vTarget (flooredAs false (openForecasts s)) := by rw [ht]; exact hv
  rw [hgo, moveV_up (s := flooredAs false (openForecasts s)) ha hv']
  obtain ⟨h1, h2, h3, h4, -⟩ := requestV_shows (s := flooredAs false (openForecasts s))
    (v := vreq s + 1) (show vreq s + 1 ≠ vreq s by omega) (.inl hd) (by omega)
  exact ⟨h1, h2, congrArg Power.floored h3, h4⟩

/-! ## A code down the ladder -/

/-- The ladder one code lower, before the request moves. -/
theorem ladderStep_voltage (hb : bellowsHolds s = true) (hat : 100000 ≤ s.now - s.power.vAt)
    (hd : dueAfter s 100000 s.power.ladderAt = true) (ha : pAllow s < (pFast s : Rat)) (hv : vfloor s < ladderLevel s)
    (hr : vreq s = ladderLevel s) (hfl : s.power.floored = false) : ladderLevel (ladderStep s) = ladderLevel s - 1 ∧
      vreq (ladderStep s) = vreq s - 1 ∧ (ladderStep s).power.parked = s.power.parked := by
  have hdue := ladderSame_ladderDue s
  have hstep := ladderStep_due hb hd
  rw [ladderMove_voltage ha hv] at hstep
  have hparked : (ladderStep s).power.parked = s.power.parked := by
    rw [(ladderStep_shows hb hd).2.1, ladderMove_voltage ha hv]
    exact hdue.parked
  have hlow : LadderBase s (noteParked (modPower (ladderDue s) fun p => { p with ladderV := ladderLevel s - 1 })) :=
    hdue.toLadderBase.trans ⟨rfl, rfl, rfl, rfl, rfl, rfl, rfl⟩
  have hlv : (noteParked (modPower (ladderDue s) fun p => { p with ladderV := ladderLevel s - 1 })).power.ladderV =
    ladderLevel s - 1 := rfl
  revert hlow hlv hstep
  generalize noteParked (modPower (ladderDue s) fun p => { p with ladderV := ladderLevel s - 1 }) = u
  intro hstep hlow hlv
  obtain ⟨hlo, hhi, h60⟩ := ladderLevel_bounds s
  have hlevel : ∀ w : State, w.power.ladderV = ladderLevel s - 1 → vfloor w = vfloor s → vset w = vset s →
      ladderLevel w = ladderLevel s - 1 := fun w h1 h2 h3 => by rw [ladderLevel, h1, h2, h3]; omega
  have hu := hlevel u hlv (vfloor_congr hlow.regs) (vset_congr hlow.regs)
  have hreq : vreq u = vreq s := vreq_congr hlow.regs
  have htarget : vTarget u = ladderLevel s - 1 := by
    rw [vTarget, hlow.floored, hfl, if_neg (by decide), hu]
  have hat' : 100000 ≤ u.now - u.power.vAt := by rw [State.now, hlow.time, hlow.moved]; exact hat
  have hmove := moveV_down hat' (by rw [htarget, hreq]; omega)
  obtain ⟨h1, -, h3, -, h5, h6⟩ := requestV_shows (s := u) (v := vreq u - 1) (by omega) (.inr (by omega)) (by rw [hreq]; omega)
  rw [← hmove] at h1 h3 h5 h6
  rw [hstep] at hparked ⊢
  have hget : ∀ f, getF (settleLimit (moveV u)) PWR_VCTL f = getF (moveV u) PWR_VCTL f := fun f => getF_putF_ne (by decide) ..
  have hset : vset (settleLimit (moveV u)) = vset s := by
    rw [← vset_congr hlow.regs, ← h6, vset, hget, vset]
  have hfloor : vfloor (settleLimit (moveV u)) = vfloor s := by
    rw [← vfloor_congr hlow.regs, ← h5, vfloor, hset, hget, vfloor, h6, vset_congr hlow.regs]
  refine ⟨hlevel _ ?_ hfloor hset, ?_, hparked⟩
  · rw [settleLimit_power, h3]
    exact hlv
  · rw [vreq, hget, ← hreq]
    exact h1

end

/-- Settles O47: rail currents, the idle floor, forecasts and the steps of the ladder. -/
theorem voltageAndLadder : Obligations.VoltageAndLadder := by
  unfold Obligations.VoltageAndLadder
  refine fun s _ => ⟨fun h3 => ⟨fun mv rails => ?_, fun mv rails hf hd => ?_⟩, fun hb ha => ⟨fun hi hf hv => ?_, fun hf hv hd => ?_,
    fun hd hp hv hr hfl => ?_⟩, fun hb => ⟨fun i hd hp hv he hn => ?_, fun h1 h2 => ?_, fun hd h1 h2 ho hp => ?_⟩, fun h =>
    .of rfl (ladderStep_waits h) rfl⟩
  · exact .of rfl (if_neg (not_lt.2 h3)) (avsRead_shows s mv rails)
  · exact .of rfl (if_neg (not_lt.2 h3)) (avsFail_third hf hd)
  · exact .of rfl rfl (idleVfloor_shows hb ha hi hf hv)
  · exact .of rfl rfl (forecastWindowDue_shows hb ha hf hv hd)
  · exact .of rfl rfl (ladderStep_voltage hb ha hd hp hv hr hfl)
  · refine .of (u := ladderStep s) rfl rfl ?_
    rw [(ladderStep_shows hb hd).2.1, ladderMove_park hp hv he hn]
    exact congrArg (· ++ [i]) (ladderSame_ladderDue s).parked
  · by_cases hd : dueAfter s 100000 s.power.ladderAt = true
    · have hsame := ladderSame_ladderDue s
      obtain ⟨hl, hp, ho⟩ := ladderStep_shows hb hd
      rw [ladderMove_stay h1 h2] at hl hp ho
      exact .of rfl rfl ⟨hl.trans hsame.level, hp.trans hsame.parked, ho.trans hsame.offDoms⟩
    · exact .of rfl (ladderStep_waits (.inr (eq_false_of_ne_true hd))) ⟨rfl, rfl, rfl⟩
  · refine .of (u := ladderStep s) rfl rfl ?_
    rw [(ladderStep_shows hb hd).2.1, ladderMove_unpark h1 h2 ho hp]
    exact congrArg List.dropLast (ladderSame_ladderDue s).parked

end Sys2Proof.Machine
end

section
/-! PROOFS. Control domains: their states and what changes them (R24 to R28, R402). -/

namespace Sys2Proof.Machine

/-! ## The state field of a domain -/

/-- The field of DEV_DOM_STATE that holds the state of a domain. -/
def domFld (u : Nat) : Fld := ⟨2 * u + 1, 2 * u⟩

theorem domState_eq (s : State) (u : Nat) : domState s u = getF s DEV_DOM_STATE (domFld u) := by
  have h : 2 * u + 1 + 1 - 2 * u = 2 := by omega
  simp only [domState, getF, Fld.get, bitsOf, domFld, h]
  rfl

theorem setDomState_eq (s : State) (u v : Nat) : setDomState s u v = putF s DEV_DOM_STATE (domFld u) v := rfl

section
variable {s : State} {u v : Nat}

theorem domState_setDomState (hu : u < 16) (hv : v < 4) (s : State) : domState (setDomState s u v) u = v := by
  have h : 2 * u + 1 + 1 - 2 * u = 2 := by omega
  rw [domState_eq, setDomState_eq, getF_putF (by simp [domFld]) (by simp only [domFld]; omega), domFld, h]
  exact Nat.mod_eq_of_lt hv

theorem domState_setDomState_ne {w : Nat} (hw : w < 16) (h : w ≠ u) (s : State) (v : Nat) :
    domState (setDomState s u v) w = domState s w := by
  rw [domState_eq, setDomState_eq, domState_eq]
  refine getF_putF_apart (by simp [domFld]) (by simp [domFld]) (by simp only [domFld]; omega) ?_ _ _ _
  have hne : 2 * u + 1 < 2 * w ∨ 2 * w + 1 < 2 * u := by omega
  exact Bool.or_eq_true_iff.2 (hne.imp decide_eq_true decide_eq_true)

theorem setDomState_frame (s : State) (u v : Nat) : setDomState s u v = { s with regs := (setDomState s u v).regs } := rfl

theorem regsSameBut_setDomState (s : State) (u v : Nat) : regsSameBut s (setDomState s u v) [DEV_DOM_STATE] :=
  (regsSameBut.refl s _).setR List.mem_cons_self _

theorem domainAt_setDomState (s : State) (u v w : Nat) : domainAt (setDomState s u v) w = domainAt s w :=
  domainAt_congr (setDomState_domains ..) w

/-! ## The record of a domain -/

theorem domainAt_modDomain (h : u < s.domains.length) (f : Domain → Domain) : domainAt (modDomain s u f) u = f (domainAt s u) := by
  simp [domainAt, modDomain, setDomain, List.getD_eq_getElem?_getD, h]

theorem domainAt_modDomain_ne {w : Nat} (h : w ≠ u) (s : State) (f : Domain → Domain) : domainAt (modDomain s u f) w = domainAt s w := by
  simp [domainAt, modDomain, setDomain, List.getD_eq_getElem?_getD, List.getElem?_set_ne h.symm]

theorem modDomain_frame (s : State) (u : Nat) (f : Domain → Domain) :
    modDomain s u f = { s with domains := (modDomain s u f).domains } := rfl

theorem domState_modDomain (s : State) (u : Nat) (f : Domain → Domain) (w : Nat) : domState (modDomain s u f) w = domState s w :=
  domState_congr rfl w

theorem modDomain_count (s : State) (u : Nat) (f : Domain → Domain) : (modDomain s u f).domains.length = s.domains.length :=
  List.length_set

/-- A change that leaves a domain as it is. -/
theorem modDomain_of_fixed {f : Domain → Domain} (h : f (domainAt s u) = domainAt s u) : modDomain s u f = s := by
  have hset : s.domains.set u (domainAt s u) = s.domains := by
    refine List.ext_getElem (by simp) fun n h1 h2 => ?_
    rw [List.getElem_set]
    split
    · next he => subst he; simp [domainAt, List.getD_eq_getElem?_getD, h2]
    · rfl
  rw [modDomain, h]
  exact congrArg (fun l => { s with domains := l }) hset

end

/-! ## States that differ in their domains -/

/-- From `s` to `t` the domains and the register of their states alone may have changed. -/
structure DomainsOnly (s t : State) : Prop where
  frame : t = { s with regs := t.regs, domains := t.domains }
  regs : regsSameBut s t [DEV_DOM_STATE]
  count : t.domains.length = s.domains.length

section
variable {s t w : State} {u : Nat}

theorem DomainsOnly.refl (s : State) : DomainsOnly s s := ⟨rfl, .refl s _, rfl⟩

theorem DomainsOnly.trans (a : DomainsOnly s t) (b : DomainsOnly t w) : DomainsOnly s w :=
  ⟨by rw [b.frame, a.frame], a.regs.trans b.regs, b.count.trans a.count⟩

theorem domainsOnly_modDomain (s : State) (u : Nat) (f : Domain → Domain) : DomainsOnly s (modDomain s u f) :=
  ⟨rfl, .refl s _, modDomain_count ..⟩

theorem domainsOnly_setDomState (s : State) (u v : Nat) : DomainsOnly s (setDomState s u v) :=
  ⟨rfl, regsSameBut_setDomState s u v, rfl⟩

/-- A state of one domain, with its record changed. -/
def domMoved (s : State) (u v : Nat) (f : Domain → Domain) : State := modDomain (setDomState s u v) u f

theorem domainsOnly_domMoved (s : State) (u v : Nat) (f : Domain → Domain) : DomainsOnly s (domMoved s u v f) :=
  (domainsOnly_setDomState ..).trans (domainsOnly_modDomain ..)

theorem domMoved_shows (hu : u < 16) (hl : s.domains.length = 16) {v : Nat} (hv : v < 4) (f : Domain → Domain) :
    domState (domMoved s u v f) u = v ∧ domainAt (domMoved s u v f) u = f (domainAt s u) := by
  refine ⟨?_, ?_⟩
  · rw [domMoved, domState_modDomain, domState_setDomState hu hv]
  · rw [domMoved, domainAt_modDomain (by rw [setDomState_domains, hl]; exact hu), domainAt_setDomState]

theorem domMoved_other {o : Nat} (ho : o < 16) (h : o ≠ u) (s : State) (v : Nat) (f : Domain → Domain) :
    domState (domMoved s u v f) o = domState s o ∧ domainAt (domMoved s u v f) o = domainAt s o := by
  refine ⟨?_, ?_⟩
  · rw [domMoved, domState_modDomain, domState_setDomState_ne ho h]
  · rw [domMoved, domainAt_modDomain_ne h, domainAt_setDomState]

theorem domMoved_otherDoms (u : DomId) (s : State) (v : Nat) (f : Domain → Domain) : otherDoms s (domMoved s u v f) u :=
  fun o h => domMoved_other o.isLt h s v f

theorem domMoved_domOnly (u : DomId) (s : State) (v : Nat) (f : Domain → Domain) : domOnly s (domMoved s u v f) u :=
  ⟨(domainsOnly_domMoved ..).frame, (domainsOnly_domMoved ..).regs, domMoved_otherDoms u s v f⟩

end

/-! ## Commands that wait -/

theorem mem_addPending {s : State} {u : Nat} (hu : u < s.domains.length) (c : DomCmd) : c ∈ (domainAt (addPending s u c) u).pending := by
  rw [addPending, domainAt_modDomain hu]
  by_cases h : c ∈ (domainAt s u).pending <;> simp [h]

/-- With no command waiting or held nothing is taken. -/
theorem retryDomain_quiet {s : State} {u : Nat} (hp : (domainAt s u).pending = []) (hh : (domainAt s u).held = []) :
    retryDomain s u = s := by
  have htake : takePending s u = s := by
    rw [takePending, hp]
    rfl
  have hsame : modDomain s u (fun d => { d with held := [], pending := d.held.filter (!d.pending.contains ·) ++ d.pending }) = s := by
    refine modDomain_of_fixed ?_
    revert hp hh
    generalize domainAt s u = d
    intro hp hh
    cases d
    simp only at hp hh
    subst hp hh
    rfl
  unfold retryDomain
  split
  · exact htake
  · rw [hsame]
    exact htake

theorem domQuiet_iff {s : State} : domQuiet s = true ↔ ∀ d ∈ s.domains, d.pending = [] ∧ d.held = [] := by
  simp [domQuiet]

theorem domQuiet_at {s : State} (h : domQuiet s = true) (u : Nat) : (domainAt s u).pending = [] ∧ (domainAt s u).held = [] := by
  by_cases hu : u < s.domains.length
  · have hd : domainAt s u = s.domains[u] := by simp [domainAt, List.getD_eq_getElem?_getD, hu]
    rw [hd]
    exact domQuiet_iff.1 h _ (List.getElem_mem hu)
  · have hd : domainAt s u = .reset u := by simp [domainAt, List.getD_eq_getElem?_getD, hu]
    rw [hd]
    exact ⟨rfl, rfl⟩

theorem retryHalf_quiet {s : State} (h : ∀ u, (domainAt s u).pending = [] ∧ (domainAt s u).held = []) (half : Nat) :
    retryHalf s half = s := by
  unfold retryHalf
  generalize (List.range 8).map (8 * half + ·) = us
  induction us with
  | nil => rfl
  | cons u us ih => rw [List.foldl_cons, retryDomain_quiet (h u).1 (h u).2, ih]

end Sys2Proof.Machine
end

section
/-! PROOFS. The junction, the coolant and the quench (R392 to R402). -/

namespace Sys2Proof.Machine

/-! ## Domains under a quench -/

/-- A domain in self-test is in Off, its test queued again. -/
structure TestQueued (s : State) (u : Nat) : Prop where
  off : domState s u = domOff
  queued : DomCmd.test ∈ (domainAt s u).pending

/-- A domain in Test for a self-test. -/
structure UnderTest (s : State) (u : Nat) : Prop where
  test : domState s u = domTest
  testing : (domainAt s u).testing = true

section
variable {s : State}

theorem quenchDomain_test (u : Nat) (h : UnderTest s u) : quenchDomain s u =
    addPending (domMoved s u domOff fun d => { d with testing := false, window := none }) u .test := by
  rw [quenchDomain, h.test, h.testing]
  rfl

theorem domainsOnly_quenchDomain (s : State) (u : Nat) : DomainsOnly s (quenchDomain s u) := by
  unfold quenchDomain
  dsimp only
  split
  · exact domainsOnly_modDomain ..
  · split
    · exact (domainsOnly_domMoved s u domOff _).trans (domainsOnly_modDomain ..)
    · exact domainsOnly_domMoved s u domOn _

theorem quenchDomain_other {u o : Nat} (ho : o < 16) (h : o ≠ u) (s : State) :
    domState (quenchDomain s u) o = domState s o ∧ domainAt (quenchDomain s u) o = domainAt s o := by
  unfold quenchDomain
  dsimp only
  split
  · exact ⟨domState_modDomain .., domainAt_modDomain_ne h ..⟩
  · split
    · obtain ⟨h1, h2⟩ := domMoved_other ho h s domOff fun d => { d with testing := false, window := none }
      exact ⟨(domState_modDomain ..).trans h1, (domainAt_modDomain_ne h ..).trans h2⟩
    · exact domMoved_other ho h s domOn _

theorem quenchDomain_queues {u : Nat} (hu : u < 16) (hl : s.domains.length = 16) (h : UnderTest s u) : TestQueued (quenchDomain s u) u := by
  rw [quenchDomain_test u h]
  obtain ⟨h1, -⟩ := domMoved_shows hu hl (by decide : domOff < 4) fun d => { d with testing := false, window := none }
  exact ⟨(domState_modDomain ..).trans h1, mem_addPending (by rw [(domainsOnly_domMoved ..).count, hl]; exact hu) _⟩

theorem quenchDomains_queued {u : Nat} (hu : u < 16) (us : List Nat) (hn : u ∉ us) (h : TestQueued s u) :
    TestQueued (us.foldl quenchDomain s) u := by
  induction us generalizing s with
  | nil => exact h
  | cons v us ih =>
    obtain ⟨hne, hn⟩ := List.ne_and_not_mem_of_not_mem_cons hn
    obtain ⟨h1, h2⟩ := quenchDomain_other hu hne s
    exact ih hn ⟨h1.trans h.off, by rw [h2]; exact h.queued⟩

/-- Every domain in self-test goes Off. -/
theorem quenchDomains_test {u : Nat} (hu : u < 16) (us : List Nat) (hd : us.Nodup) (hm : u ∈ us) (hl : s.domains.length = 16)
    (h : UnderTest s u) : TestQueued (us.foldl quenchDomain s) u := by
  induction us generalizing s with
  | nil => cases hm
  | cons v us ih =>
    obtain ⟨hv, hd⟩ := List.nodup_cons.1 hd
    rw [List.foldl_cons]
    by_cases he : u = v
    · subst he
      exact quenchDomains_queued hu us hv (quenchDomain_queues hu hl h)
    · obtain ⟨h1, h2⟩ := quenchDomain_other hu he s
      exact ih hd ((List.mem_cons.1 hm).resolve_left he) ((domainsOnly_quenchDomain ..).count.trans hl)
        ⟨h1.trans h.test, by rw [h2]; exact h.testing⟩

theorem domainsOnly_quenchDomains (us : List Nat) (s : State) : DomainsOnly s (us.foldl quenchDomain s) := by
  induction us generalizing s with
  | nil => exact .refl s
  | cons u us ih => exact (domainsOnly_quenchDomain ..).trans (ih _)

end

/-! ## A quench is declared -/

/-- The registers and times of a quench that begins. -/
def quenchNoted (s : State) (cause : Nat) : State :=
  putF (modPower (satF (putF (modTherm s fun t => { t with quench := some s.now, inSelfRefresh := false, left := false })
    THM_QCTL THM_QCTL_CAUSE cause) THM_QCTL THM_QCTL_COUNT 1) fun p => { p with excursion := none, overSince := none, selfRefresh := [] })
    PWR_STATUS PWR_STATUS_EXCURSION 0

/-- The device when the anvils of a quench have asked for their ramp-down. -/
def rampsAsked (s : State) : State := coreIds.foldl syncGrants (rampAllOff s)

theorem declareQuench_eq {s : State} (hq : quenched s = false) (ht : s.therm.trip = false) (cause : Nat) :
    declareQuench s cause = settleLimit (rampsAsked ((List.range 16).foldl quenchDomain (quenchNoted s cause))) := by
  unfold declareQuench
  rw [hq, ht]
  rfl

theorem putF_regs_only (s : State) (a : Nat) (f : Fld) (x : Nat) : ∃ r, putF s a f x = { s with regs := r } := ⟨_, rfl⟩

theorem quenchNoted_frame (s : State) (cause : Nat) : ∃ r p, quenchNoted s cause =
    { s with regs := r, power := p, therm := { s.therm with quench := some s.now, inSelfRefresh := false, left := false } } := by
  unfold quenchNoted
  obtain ⟨r1, h1⟩ := putF_regs_only (modTherm s fun t => { t with quench := some s.now, inSelfRefresh := false, left := false })
    THM_QCTL THM_QCTL_CAUSE cause
  rw [h1]
  obtain ⟨r2, h2⟩ := putF_regs_only { modTherm s fun t => { t with quench := some s.now, inSelfRefresh := false, left := false } with
    regs := r1 } THM_QCTL THM_QCTL_COUNT (satAdd THM_QCTL_COUNT.cap (getF { modTherm s fun t => { t with
      quench := some s.now, inSelfRefresh := false, left := false } with regs := r1 } THM_QCTL THM_QCTL_COUNT) 1)
  rw [satF, h2]
  obtain ⟨r3, h3⟩ := putF_regs_only (modPower { modTherm s fun t => { t with quench := some s.now, inSelfRefresh := false, left := false } with
    regs := r2 } fun p => { p with excursion := none, overSince := none, selfRefresh := [] }) PWR_STATUS PWR_STATUS_EXCURSION 0
  exact ⟨_, _, h3⟩

theorem quenchNoted_regs {s : State} {cause : Nat} (hc : cause < 8) :
    getF (quenchNoted s cause) THM_QCTL THM_QCTL_CAUSE = cause ∧
    getF (quenchNoted s cause) THM_QCTL THM_QCTL_COUNT = min THM_QCTL_COUNT.cap (getF s THM_QCTL THM_QCTL_COUNT + 1) := by
  have hget : ∀ f, getF (quenchNoted s cause) THM_QCTL f = getF (satF (putF (modTherm s fun t =>
      { t with quench := some s.now, inSelfRefresh := false, left := false }) THM_QCTL THM_QCTL_CAUSE cause) THM_QCTL
      THM_QCTL_COUNT 1) THM_QCTL f := fun f => by
    rw [quenchNoted, getF_putF_ne (by decide), getF_congr (modPower_regs ..)]
  refine ⟨?_, ?_⟩
  · rw [hget, satF, getF_putF_apart (by decide) (by decide) (by decide) (by decide), getF_putF (by decide) (by decide)]
    exact Nat.mod_eq_of_lt hc
  · rw [hget, getF_satF (by decide) (by decide), getF_putF_apart (by decide) (by decide) (by decide) (by decide)]
    rfl

theorem anvil_rampAllOff {s : State} (hz : sized s = true) (i : CoreId) (a : Fin 4) :
    (anvilAt (rampAllOff s) i a).ramp = rampOff (anvilAt s i a).ramp := by
  have hi := core_lt hz i
  have ha : a.val < (coreAt s i).anvils.length := by rw [(coreSized_iff.1 (sized_core hz i)).2.2.2]; exact a.isLt
  have hcore : coreAt (rampAllOff s) i = { (coreAt s i) with
      anvils := (coreAt s i).anvils.map fun a => { a with ramp := rampOff a.ramp } } := by
    simp [coreAt, rampAllOff, List.getD_eq_getElem?_getD, hi]
  rw [anvilAt, hcore, anvilAt]
  simp [Core.anvil, List.getD_eq_getElem?_getD, ha]

theorem rampsAsked_frame (s : State) : ∃ p, rampsAsked s = { rampAllOff s with power := p } :=
  ⟨_, foldl_syncGrants_frame coreIds (rampAllOff s)⟩

/-- What a declared quench shows, the limit in force apart. -/
structure QuenchShown (s t : State) (cause : Nat) : Prop where
  since : t.therm.quench = some s.now
  shownCause : getF t THM_QCTL THM_QCTL_CAUSE = cause
  counted : getF t THM_QCTL THM_QCTL_COUNT = min THM_QCTL_COUNT.cap (getF s THM_QCTL THM_QCTL_COUNT + 1)
  mem : t.mem = s.mem
  pins : t.pins = s.pins
  ramps : ∀ (i : CoreId) (a : Fin 4), (anvilAt t i a).ramp = rampOff (anvilAt s i a).ramp
  tests : ∀ u : DomId, UnderTest s u → TestQueued t u

theorem QuenchShown.standing {s t : State} {cause : Nat} (h : QuenchShown s t cause) : quenched t = true := by
  rw [quenched, h.since]
  rfl

theorem quenchNoted_shows {s : State} {cause : Nat} (hc : cause < 8) : (quenchNoted s cause).cores = s.cores ∧
    (quenchNoted s cause).domains = s.domains ∧ (quenchNoted s cause).mem = s.mem ∧ (quenchNoted s cause).pins = s.pins ∧
    (quenchNoted s cause).therm.quench = some s.now ∧ regsSameBut s (quenchNoted s cause) [THM_QCTL, PWR_STATUS] ∧
    getF (quenchNoted s cause) THM_QCTL THM_QCTL_CAUSE = cause ∧
    getF (quenchNoted s cause) THM_QCTL THM_QCTL_COUNT = min THM_QCTL_COUNT.cap (getF s THM_QCTL THM_QCTL_COUNT + 1) := by
  obtain ⟨r, p, hnoted⟩ := quenchNoted_frame s cause
  obtain ⟨hcause, hcount⟩ := quenchNoted_regs (s := s) hc
  have hregsN : regsSameBut s (quenchNoted s cause) [THM_QCTL, PWR_STATUS] := by
    unfold quenchNoted
    exact (((((regsSameBut_of_regs (t := modTherm s _) rfl _).putF (by decide) _ _).satF (by decide) _ _).of_regs
      (modPower_regs ..)).putF (by decide) _ _)
  exact ⟨by rw [hnoted], by rw [hnoted], by rw [hnoted], by rw [hnoted], by rw [hnoted], hregsN, hcause, hcount⟩

theorem rampsAsked_shows (v : State) : (rampsAsked v).cores = (rampAllOff v).cores ∧ (rampsAsked v).regs = v.regs ∧
    (rampsAsked v).domains = v.domains ∧ (rampsAsked v).mem = v.mem ∧ (rampsAsked v).pins = v.pins ∧
    (rampsAsked v).therm = v.therm := by
  obtain ⟨p, h⟩ := rampsAsked_frame v
  rw [h]
  exact ⟨rfl, rfl, rfl, rfl, rfl, rfl⟩

theorem rampsAsked_quench {s : State} (hz : sized s = true) {cause : Nat} (hc : cause < 8) :
    QuenchShown s (rampsAsked ((List.range 16).foldl quenchDomain (quenchNoted s cause))) cause := by
  obtain ⟨ncores, ndoms, nmem, npins, ntherm, nregs, ncause, ncount⟩ := quenchNoted_shows (s := s) hc
  have hlen : (quenchNoted s cause).domains.length = 16 := by rw [ndoms]; exact (sized_iff.1 hz).2.2.2.1
  have hdom := domainsOnly_quenchDomains (List.range 16) (quenchNoted s cause)
  have htests : ∀ u : DomId, UnderTest (quenchNoted s cause) u → TestQueued ((List.range 16).foldl quenchDomain (quenchNoted s cause)) u :=
    fun u h => quenchDomains_test u.isLt _ List.nodup_range (List.mem_range.2 u.isLt) hlen h
  revert hdom htests
  generalize (List.range 16).foldl quenchDomain (quenchNoted s cause) = v
  intro hdom htests
  obtain ⟨rcores, rregs, rdoms, rmem, rpins, rtherm⟩ := rampsAsked_shows v
  have vmem : v.mem = (quenchNoted s cause).mem := by rw [hdom.frame]
  have vpins : v.pins = (quenchNoted s cause).pins := by rw [hdom.frame]
  have vtherm : v.therm = (quenchNoted s cause).therm := by rw [hdom.frame]
  have vcores : v.cores = s.cores := Eq.trans (by rw [hdom.frame]) ncores
  have hget : ∀ f, getF (rampsAsked v) THM_QCTL f = getF (quenchNoted s cause) THM_QCTL f := fun f =>
    (getF_congr rregs ..).trans (hdom.regs.getF (by decide) f)
  refine ⟨by rw [rtherm, vtherm, ntherm], (hget _).trans ncause, (hget _).trans ncount, rmem.trans (vmem.trans nmem),
    rpins.trans (vpins.trans npins), fun i a => ?_, fun u h => ?_⟩
  · have hall : (rampAllOff v).cores = (rampAllOff s).cores := by rw [rampAllOff, rampAllOff, vcores]
    have h1 : anvilAt (rampsAsked v) i a = anvilAt (rampAllOff s) i a := congrArg (Core.anvil · a)
      (coreAt_congr (s := rampAllOff s) (rcores.trans hall) i)
    rw [h1]
    exact anvil_rampAllOff hz i a
  · have hu : UnderTest (quenchNoted s cause) u :=
      ⟨by rw [domState_eq, nregs.getF (by decide), ← domState_eq]; exact h.test, by rw [domainAt_congr ndoms]; exact h.testing⟩
    exact ⟨(domState_congr rregs _).trans (htests u hu).off, by rw [domainAt_congr rdoms]; exact (htests u hu).queued⟩

theorem QuenchShown.settleLimit {s t : State} {cause : Nat} (h : QuenchShown s t cause) : QuenchShown s (settleLimit t) cause := by
  have hget : ∀ f, getF (Machine.settleLimit t) THM_QCTL f = getF t THM_QCTL f := fun f => getF_putF_ne (by decide) ..
  refine ⟨(congrArg Therm.quench (putF_therm ..)).trans h.since, (hget _).trans h.shownCause, (hget _).trans h.counted,
    (putF_mem ..).trans h.mem, (putF_pins ..).trans h.pins, fun i a => ?_, fun u hu => ⟨?_, ?_⟩⟩
  · have h1 : anvilAt (Machine.settleLimit t) i a = anvilAt t i a := congrArg (Core.anvil · a) (coreAt_congr (putF_cores ..) i)
    rw [h1, h.ramps]
  · rw [domState_eq, Machine.settleLimit, getF_putF_ne (by decide), ← domState_eq]
    exact (h.tests u hu).off
  · have hd : (Machine.settleLimit t).domains = t.domains := putF_domains ..
    rw [domainAt_congr hd]
    exact (h.tests u hu).queued

theorem limit_of_quenched {t : State} (h : quenched t = true) : getF (settleLimit t) PWR_STATUS PWR_STATUS_LIMIT = 6 := by
  have hlimit : limitCode t = 6 := if_pos h
  rw [settleLimit, getF_putF (by decide) (by decide), hlimit]
  rfl

theorem declareQuench_shows {s : State} (hz : sized s = true) (hq : quenched s = false) (ht : s.therm.trip = false) {cause : Nat}
    (hc : cause < 8) : QuenchShown s (declareQuench s cause) cause ∧ getF (declareQuench s cause) PWR_STATUS PWR_STATUS_LIMIT = 6 := by
  have h := rampsAsked_quench hz hc
  rw [declareQuench_eq hq ht]
  exact ⟨h.settleLimit, limit_of_quenched h.standing⟩

end Sys2Proof.Machine
end

section
/-! PROOFS. What a quench ends with, and the samples of heat and coolant (R392 to R400). -/

namespace Sys2Proof.Machine

/-! ## Empty queues -/

section
variable {s : State}

/-- No core has an entry in a queue. -/
def NoEntries (s : State) : Prop := ∀ (i : Nat) (q : Queue), (coreAt s i).queue q = []

theorem queue_reset (q : Queue) : Core.reset.queue q = [] := by cases q <;> rfl

theorem noEntries_of_queuesEmpty (h : queuesEmpty s = true) : NoEntries s := by
  intro i q
  by_cases hi : i < s.cores.length
  · have hc : coreAt s i = s.cores[i] := by simp [coreAt, List.getD_eq_getElem?_getD, hi]
    have he := List.all_eq_true.1 h _ (List.getElem_mem hi)
    rw [← hc] at he
    simp only [Bool.and_eq_true, List.isEmpty_iff] at he
    obtain ⟨⟨⟨⟨h0, h1⟩, hv⟩, ht⟩, hf⟩ := he
    cases q
    · exact h0
    · exact h1
    · exact hv
    · exact ht
    · exact hf
  · have hc : coreAt s i = .reset := by simp [coreAt, List.getD_eq_getElem?_getD, hi]
    rw [hc, queue_reset]

theorem raiseFailed_empty (h : NoEntries s) (i : Nat) : raiseFailed s i = s := by
  have hl : (allQueues.flatMap fun q => ((coreAt s i).queue q).map fun e => (q, e)) = [] :=
    List.flatMap_eq_nil_iff.2 fun q _ => by rw [h]; rfl
  rw [raiseFailed, hl]
  rfl

theorem pumpQueue_empty (h : NoEntries s) (i : CoreId) (q : Queue) : pumpQueue s i q = s := by
  rw [pumpQueue, h]
  rfl

theorem pumpCore_empty (h : NoEntries s) (i : CoreId) : pumpCore s i = s :=
  List.foldl_fixed' (fun q => pumpQueue_empty h i q) _

theorem pumpAll_empty (h : NoEntries s) : pumpAll s = s := List.foldl_fixed' (fun i => pumpCore_empty h i) _

theorem pumpFabrics_empty (h : NoEntries s) : pumpFabrics s = s :=
  List.foldl_fixed' (fun i => by rw [pumpQueue_empty h, pumpQueue_empty h]) _

theorem noEntries_congr {t : State} (hc : t.cores = s.cores) (h : NoEntries s) : NoEntries t := fun i q => by
  rw [coreAt_congr hc i]
  exact h i q

theorem raiseFailed_all_empty (h : NoEntries s) : coreIds.foldl (fun t i => raiseFailed t i.val) s = s :=
  List.foldl_fixed' (fun i => raiseFailed_empty h i.val) _

/-- The doorbell writes that a quench held are gone. -/
def bellsTaken (s : State) : State := { s with intake := { s.intake with bells := [] } }

theorem releaseBells_noRings (h : s.intake.rings = []) : releaseBells s = bellsTaken s := by
  have hring : ∀ i, ringOf (bellsTaken s) i = none := fun i => by
    rw [ringOf, bellsTaken, h]
    rfl
  refine List.foldl_fixed' (fun b => ?_) _
  have h1 : takeCcons (bellsTaken s) b.1 b.2.2 = bellsTaken s := by rw [takeCcons, hring]
  have h2 : takePseq (bellsTaken s) b.1 b.2.2 = bellsTaken s := by rw [takePseq, hring]
  exact (if_congr Iff.rfl h1 h2).trans (ite_self _)

theorem releaseAll_quiet (hd : ∀ u, (domainAt s u).pending = [] ∧ (domainAt s u).held = []) (he : NoEntries s)
    (hr : s.intake.rings = []) : releaseAll s = noteFull (bellsTaken s) := by
  have hhalves : (List.range 2).foldl retryHalf s = s := List.foldl_fixed' (fun b => retryHalf_quiet hd b) _
  have hrings : pumpIntake (bellsTaken s) = noteFull (bellsTaken s) := by
    have h : (bellsTaken s).intake.rings = [] := hr
    rw [pumpIntake, h]
    rfl
  have hempty : NoEntries (noteFull (bellsTaken s)) := noEntries_congr (putF_cores ..) he
  rw [releaseAll, hhalves, raiseFailed_all_empty he, releaseBells_noRings hr, hrings, pumpAll_empty hempty, pumpFabrics_empty hempty]

end

/-! ## The end of a quench (R400) -/

/-- What ending a quench leaves as it was until the device looks again at what it held. -/
structure QuenchKept (s t : State) : Prop where
  domains : t.domains = s.domains
  cores : t.cores = s.cores
  rings : t.intake.rings = s.intake.rings
  step : t.boot.step = s.boot.step
  dead : t.power.avsDead = s.power.avsDead
  regs : regsSameBut s t [PWR_VCTL]
  vfloor : vfloor t = vfloor s

theorem QuenchKept.trans {s t u : State} (a : QuenchKept s t) (b : QuenchKept t u) : QuenchKept s u :=
  ⟨b.domains.trans a.domains, b.cores.trans a.cores, b.rings.trans a.rings, b.step.trans a.step, b.dead.trans a.dead,
    a.regs.trans b.regs, b.vfloor.trans a.vfloor⟩

/-- The request of a code, as it leaves. -/
def vAsked (s : State) (v : Nat) : State :=
  emit (putF (modPower s fun p => { p with vAt := s.now }) PWR_VCTL PWR_VCTL_VREQ v) (.avs v)

theorem getF_vAsked_apart (s : State) (v : Nat) {f : Fld} (h1 : f.lo ≤ f.hi) (h2 : f.hi < 32) (h : PWR_VCTL_VREQ.apart f = true) :
    getF (vAsked s v) PWR_VCTL f = getF s PWR_VCTL f := by
  rw [vAsked, getF_congr (emit_regs ..), getF_putF_apart (by decide) h1 h2 h, getF_congr (modPower_regs ..)]

theorem vreq_vAsked (s : State) {v : Nat} (hv : v < 64) : vreq (vAsked s v) = v := by
  rw [vreq, vAsked, getF_congr (emit_regs ..), getF_putF (by decide) (by decide)]
  exact Nat.mod_eq_of_lt hv

theorem quenchKept_vAsked (s : State) (v : Nat) : QuenchKept s (vAsked s v) := by
  have hset : vset (vAsked s v) = vset s := by rw [vset, getF_vAsked_apart s v (by decide) (by decide) (by decide), vset]
  refine ⟨(emit_domains ..).trans (putF_domains ..), (emit_cores ..).trans (putF_cores ..), ?_, ?_, ?_, ?_, ?_⟩
  · exact congrArg Intake.rings ((emit_intake ..).trans (putF_intake ..))
  · exact congrArg Boot.step ((emit_boot ..).trans (putF_boot ..))
  · rw [vAsked, emit_power, putF_power]
    rfl
  · exact ((regsSameBut_of_regs (t := modPower s fun p => { p with vAt := s.now }) rfl _).putF List.mem_cons_self _ _).of_regs
      (emit_regs ..)
  · rw [vfloor, hset, getF_vAsked_apart s v (by decide) (by decide) (by decide), vfloor]

/-- The voltage that the device asks for when a quench ends. -/
def quenchVoltage (s : State) : Nat := if 3 ≤ s.boot.step ∧ s.boot.step < 8 then 30 else vfloor s

theorem vfloor_lt (s : State) : vfloor s < 64 := by
  have h : vfloor s ≤ 60 := (min_le_left _ _).trans (min_le_left _ _)
  omega

theorem requestV_floor (s : State) : QuenchKept s (requestV s (vfloor s)) ∧
    (s.power.avsDead = false → vreq (requestV s (vfloor s)) = vfloor s) := by
  unfold requestV
  split
  · rename_i h
    refine ⟨⟨rfl, rfl, rfl, rfl, rfl, .refl s _, rfl⟩, fun hd => ?_⟩
    simpa [hd, eq_comm] using h
  · exact ⟨quenchKept_vAsked s _, fun _ => vreq_vAsked s (vfloor_lt s)⟩

theorem resumeStart_shows (s : State) : QuenchKept s (resumeStart s) ∧
    (s.power.avsDead = false → vreq (resumeStart s) = if 3 ≤ s.boot.step ∧ s.boot.step < 8 then 30 else vreq s) := by
  unfold resumeStart startVoltage
  by_cases hs : 3 ≤ s.boot.step ∧ s.boot.step < 8
  · rw [if_pos (by simpa using hs), if_pos hs]
    split
    · rename_i h
      exact ⟨⟨rfl, rfl, rfl, rfl, rfl, .refl s _, rfl⟩, fun hd => by simp [hd] at h⟩
    · exact ⟨quenchKept_vAsked s _, fun _ => vreq_vAsked s (by decide)⟩
  · rw [if_neg (by simpa using hs), if_neg hs]
    exact ⟨⟨rfl, rfl, rfl, rfl, rfl, .refl s _, rfl⟩, fun _ => rfl⟩

theorem quenchVoltage_asked (s : State) : QuenchKept s (resumeStart (requestV s (vfloor s))) ∧
    (s.power.avsDead = false → vreq (resumeStart (requestV s (vfloor s))) = quenchVoltage s) := by
  obtain ⟨h1, hv1⟩ := requestV_floor s
  obtain ⟨h2, hv2⟩ := resumeStart_shows (requestV s (vfloor s))
  refine ⟨h1.trans h2, fun hd => ?_⟩
  rw [hv2 (h1.dead.trans hd), h1.step, hv1 hd, quenchVoltage]

/-- No quench stands. -/
def quenchGone (u : State) : State := modTherm u fun t => { t with quench := none, inSelfRefresh := false, left := false }

/-- The power of a device whose quench has ended waits for the start dither, from the state `w`. -/
def ditheredFrom (w : State) (p : Power) : Power := { p with selfRefresh := [], dither := some (w.now + dither w) }

/-- The device when its quench has ended and nothing has looked again yet. -/
def quenchOff (u : State) : State :=
  modPower (putF (quenchGone u) THM_QCTL THM_QCTL_CAUSE 0) (ditheredFrom (quenchGone u))

theorem endQuench_eq (s : State) (since : Nat) : endQuench s since =
    settleLimit (releaseAll (shiftTimes (quenchOff (resumeStart (requestV s (vfloor s)))) since)) := rfl

theorem modPower_shows (v : State) (f : Power → Power) : (modPower v f).domains = v.domains ∧ (modPower v f).cores = v.cores ∧
    (modPower v f).intake = v.intake ∧ (modPower v f).therm = v.therm := ⟨rfl, rfl, rfl, rfl⟩

theorem quenchOff_shows (u : State) : (quenchOff u).domains = u.domains ∧ (quenchOff u).cores = u.cores ∧
    (quenchOff u).intake = u.intake ∧ (quenchOff u).therm.quench = none ∧ (quenchOff u).regs =
      (putF (quenchGone u) THM_QCTL THM_QCTL_CAUSE 0).regs := by
  obtain ⟨hd, hc, hi, ht⟩ := modPower_shows (putF (quenchGone u) THM_QCTL THM_QCTL_CAUSE 0) (ditheredFrom (quenchGone u))
  refine ⟨hd.trans ?_, hc.trans ?_, hi.trans ?_, ?_, modPower_regs ..⟩
  · rw [putF_domains]
    rfl
  · rw [putF_cores]
    rfl
  · rw [putF_intake]
    rfl
  · rw [quenchOff, ht, putF_therm]
    rfl

theorem shiftTimes_shows (u : State) (q : Nat) : (shiftTimes u q).domains = u.domains ∧ (shiftTimes u q).intake = u.intake ∧
    (shiftTimes u q).therm = u.therm ∧ (shiftTimes u q).regs = u.regs ∧ (NoEntries u → NoEntries (shiftTimes u q)) := by
  refine ⟨rfl, rfl, rfl, rfl, fun h i k => ?_⟩
  by_cases hi : i < u.cores.length
  · have hc : (coreAt (shiftTimes u q) i).queue k = (coreAt u i).queue k := by
      simp only [coreAt, shiftTimes, List.getD_eq_getElem?_getD, List.getElem?_map, List.getElem?_eq_getElem hi, Option.map_some,
        Option.getD_some]
      cases k <;> rfl
    rw [hc, h]
  · have hc : coreAt (shiftTimes u q) i = .reset := by simp [coreAt, shiftTimes, List.getD_eq_getElem?_getD, hi]
    rw [hc, queue_reset]

/-- What the end of a quench shows. -/
structure QuenchEnded (s t : State) : Prop where
  gone : quenched t = false
  cause : getF t THM_QCTL THM_QCTL_CAUSE = 0
  voltage : s.power.avsDead = false → vreq t = quenchVoltage s
  counted : getF t THM_QCTL THM_QCTL_COUNT = getF s THM_QCTL THM_QCTL_COUNT

/-- The end of a quench before the device looks again at what it held. -/
structure QuenchEnding (s v : State) : Prop where
  domains : v.domains = s.domains
  cores : v.cores = s.cores
  rings : v.intake.rings = s.intake.rings
  gone : v.therm.quench = none
  cause : getF v THM_QCTL THM_QCTL_CAUSE = 0
  voltage : s.power.avsDead = false → vreq v = quenchVoltage s
  counted : getF v THM_QCTL THM_QCTL_COUNT = getF s THM_QCTL THM_QCTL_COUNT

theorem quenchOff_ending {s u : State} (h : QuenchKept s u) (hv : s.power.avsDead = false → vreq u = quenchVoltage s) :
    QuenchEnding s (quenchOff u) := by
  obtain ⟨hdoms, hcores, hintake, hgone, hregs⟩ := quenchOff_shows u
  refine ⟨hdoms.trans h.domains, hcores.trans h.cores, (congrArg Intake.rings hintake).trans h.rings, hgone, ?_, fun hd => ?_, ?_⟩
  · rw [getF_congr hregs, getF_putF (by decide) (by decide)]
    rfl
  · rw [vreq, getF_congr hregs, getF_putF_ne (by decide)]
    exact hv hd
  · rw [getF_congr hregs, getF_putF_apart (by decide) (by decide) (by decide) (by decide)]
    exact h.regs.getF (by decide) _

theorem quenchReleased_regs (w : State) {a : Nat} (h1 : a ≠ WRK_STATUS) (h2 : a ≠ PWR_STATUS) (f : Fld) :
    getF (settleLimit (noteFull (bellsTaken w))) a f = getF w a f := by
  rw [settleLimit, getF_putF_ne h2, noteFull, getF_putF_ne h1]
  rfl

theorem quenchReleased_therm (w : State) : (settleLimit (noteFull (bellsTaken w))).therm = w.therm :=
  (putF_therm ..).trans (putF_therm ..)

theorem QuenchEnding.released {s v : State} (h : QuenchEnding s v) (he : queuesEmpty s = true) (hr : s.intake.rings = [])
    (hd : domQuiet s = true) (since : Nat) : QuenchEnded s (settleLimit (releaseAll (shiftTimes v since))) := by
  obtain ⟨wdoms, wintake, wtherm, wregs, wempty⟩ := shiftTimes_shows v since
  have hquiet : ∀ d, (domainAt (shiftTimes v since) d).pending = [] ∧ (domainAt (shiftTimes v since) d).held = [] := fun d => by
    rw [domainAt_congr (wdoms.trans h.domains) d]
    exact domQuiet_at hd d
  have hempty : NoEntries (shiftTimes v since) := wempty (noEntries_congr h.cores (noEntries_of_queuesEmpty he))
  have hrings : (shiftTimes v since).intake.rings = [] := by rw [wintake, h.rings, hr]
  rw [releaseAll_quiet hquiet hempty hrings]
  have hget : ∀ a f, getF (shiftTimes v since) a f = getF v a f := fun a f => getF_congr wregs a f
  refine ⟨?_, ?_, fun hdead => ?_, ?_⟩
  · rw [quenched, quenchReleased_therm, wtherm, h.gone]
    rfl
  · rw [quenchReleased_regs _ (by decide) (by decide), hget, h.cause]
  · rw [vreq, quenchReleased_regs _ (by decide) (by decide), hget]
    exact h.voltage hdead
  · rw [quenchReleased_regs _ (by decide) (by decide), hget, h.counted]

theorem endQuench_shows {s : State} (he : queuesEmpty s = true) (hr : s.intake.rings = []) (hd : domQuiet s = true) (since : Nat) :
    QuenchEnded s (endQuench s since) := by
  obtain ⟨hkept, hvolt⟩ := quenchVoltage_asked s
  rw [endQuench_eq]
  exact (quenchOff_ending hkept hvolt).released he hr hd since

end Sys2Proof.Machine
end

section
/-! PROOFS. The samples of heat and coolant (R392 to R396). -/

namespace Sys2Proof.Machine

/-! ## The junction (R392) -/

theorem sext_toNat (x : BitVec 16) : sext 16 x.toNat = x.toInt := by
  have h := x.isLt
  rw [sext, BitVec.toInt_eq_toNat_cond, Nat.mod_eq_of_lt h]
  split <;> split <;> omega

/-- The state that a sample of the junction leaves before anything acts on it. -/
def tjNoted (s : State) (tj sensor : Nat) : State := putF (putF s THM_TJ THM_TJ_TJ tj) THM_TJ THM_TJ_SENSOR sensor

section
variable {s : State}

theorem tjNoted_shows (s : State) (tj : BitVec 16) (sensor : BitVec 8) : junction (tjNoted s tj.toNat sensor.toNat) = tj.toInt ∧
    getF (tjNoted s tj.toNat sensor.toNat) THM_TJ THM_TJ_TJ = tj.toNat ∧
    getF (tjNoted s tj.toNat sensor.toNat) THM_TJ THM_TJ_SENSOR = sensor.toNat ∧
    regsSameBut s (tjNoted s tj.toNat sensor.toNat) [THM_TJ] := by
  have htj : getF (tjNoted s tj.toNat sensor.toNat) THM_TJ THM_TJ_TJ = tj.toNat := by
    rw [tjNoted, getF_putF_apart (by decide) (by decide) (by decide) (by decide), getF_putF (by decide) (by decide)]
    exact Nat.mod_eq_of_lt tj.isLt
  refine ⟨by rw [junction, htj, sext_toNat], htj, ?_, ?_⟩
  · rw [tjNoted, getF_putF (by decide) (by decide)]
    exact Nat.mod_eq_of_lt sensor.isLt
  · exact ((regsSameBut.refl s _).putF List.mem_cons_self _ _).putF List.mem_cons_self _ _

theorem tjNoted_rest (s : State) (tj sensor : Nat) : (tjNoted s tj sensor).therm = s.therm ∧ (tjNoted s tj sensor).pins = s.pins ∧
    (tjNoted s tj sensor).power = s.power :=
  ⟨(putF_therm ..).trans (putF_therm ..), (putF_pins ..).trans (putF_pins ..), (putF_power ..).trans (putF_power ..)⟩

theorem quenchT_bounds (s : State) : 100 ≤ quenchT s ∧ quenchT s ≤ 108 := by
  unfold quenchT clampF
  omega

/-- What pacing at the junction leaves as it was. -/
theorem hotPacing_shows (u : State) : (hotPacing u).therm = u.therm ∧ (hotPacing u).pins = u.pins ∧
    regsSameBut u (hotPacing u) [PWR_STATUS, PWR_CNT] := by
  have hpace : ∀ v : State, (setPace v 8).therm = v.therm ∧ (setPace v 8).pins = v.pins := fun v => by
    have h := (sameExcursion_setPace v 8).frame
    rw [h]
    exact ⟨rfl, rfl⟩
  unfold hotPacing
  split
  · dsimp only
    split
    · exact ⟨(hpace _).1, (hpace _).2, (regsSameBut_of_regs (t := modPower u _) rfl _).trans (regsSameBut_setPace _ _)⟩
    · exact ⟨rfl, rfl, regsSameBut_of_regs rfl _⟩
  · split
    · exact ⟨rfl, rfl, regsSameBut_of_regs rfl _⟩
    · exact ⟨rfl, rfl, .refl u _⟩

theorem hotPacing_cool {u : State} (h : junction u < celsius 93) :
    hotPacing u = modPower u fun p => { p with hotPace := false } := by
  have h95 : ¬ celsius 95 ≤ junction u := by
    unfold celsius at *
    omega
  rw [hotPacing, if_neg h95, if_pos h]

theorem hotPacing_hot {u : State} (h : celsius 95 ≤ junction u) : paceK (hotPacing u) = min 8 (paceK u) ∧
    (hotPacing u).power.hotPace = true := by
  have hset : ∀ v : State, v.power.hotPace = true → (setPace v 8).power.hotPace = true := fun v hv => by
    rw [setPace_eq, modPower_power, putF_power]
    have hc : (pacingCounted v 8).power = v.power := by
      unfold pacingCounted
      split
      · rw [satF_power]
      · rfl
    rw [hc]
    exact hv
  have hk : paceK (modPower u fun p => { p with hotPace := true }) = paceK u := rfl
  rw [hotPacing, if_pos h]
  dsimp only
  by_cases h8 : 8 < paceK u
  · rw [if_pos (by rw [hk]; exact h8), paceK_setPace _ (by decide)]
    exact ⟨by omega, hset _ rfl⟩
  · rw [if_neg (by rw [hk]; exact h8), hk]
    exact ⟨by omega, rfl⟩

theorem quenchT_congr {t : State} {as : List Nat} (h : regsSameBut s t as) (ha : THM_CTL ∉ as) : quenchT t = quenchT s := by
  rw [quenchT, clampF, h.getF ha, quenchT, clampF]

theorem junction_congr {t : State} {as : List Nat} (h : regsSameBut s t as) (ha : THM_TJ ∉ as) : junction t = junction s := by
  rw [junction, h.getF ha, junction]

/-- The quench that a junction at QUENCH_T calls. -/
def junctionQuench (u : State) : State := if celsius (quenchT u) ≤ junction u then declareQuench u causeJunction else u

/-- The trip of a junction at 110 °C. -/
def junctionTrip (v : State) (tj sensor : Nat) : State := if celsius 110 ≤ junction v then thermalTrip v sensor tj else v

theorem thermalSample_eq (s : State) (tj sensor : Nat) : thermalSample s tj sensor = junctionTrip (junctionQuench
    (if quenched (tjNoted s tj sensor) then tjNoted s tj sensor else hotPacing (tjNoted s tj sensor))) tj sensor := rfl

/-- A sample below QUENCH_T paces at most. -/
theorem thermalSample_below {u : State} (tj sensor : Nat)
    (hu : (if quenched (tjNoted s tj sensor) then tjNoted s tj sensor else hotPacing (tjNoted s tj sensor)) = u)
    (hj : junction u < celsius (quenchT u)) : thermalSample s tj sensor = u := by
  have h110 : ¬ celsius 110 ≤ junction u := by
    have h := (quenchT_bounds u).2
    unfold celsius at *
    omega
  rw [thermalSample_eq, hu, junctionQuench, if_neg (not_le.2 hj), junctionTrip, if_neg h110]

theorem quenched_congr {t : State} (h : t.therm = s.therm) : quenched t = quenched s := by rw [quenched, h, quenched]

theorem declareQuench_regs {s : State} {cause : Nat} (hc : cause < 8) (hq : quenched s = false) (ht : s.therm.trip = false) :
    regsSameBut s (declareQuench s cause) [THM_QCTL, PWR_STATUS, DEV_DOM_STATE] := by
  obtain ⟨-, -, -, -, -, hnoted, -, -⟩ := quenchNoted_shows (s := s) hc
  obtain ⟨-, hasked, -, -, -, -⟩ := rampsAsked_shows ((List.range 16).foldl quenchDomain (quenchNoted s cause))
  have hdom := (domainsOnly_quenchDomains (List.range 16) (quenchNoted s cause)).regs
  rw [declareQuench_eq hq ht]
  exact ((((hnoted.mono (by decide)).trans (hdom.mono (by decide))).of_regs hasked).putF (by decide) _ _)

theorem thermalSample_cool (tj : BitVec 16) (sensor : BitVec 8) (h : tj.toInt < celsius 93) {t : State}
    (ht : t = thermalSample s tj.toNat sensor.toNat) : regsSameBut s t [THM_TJ] ∧ getF t THM_TJ THM_TJ_TJ = tj.toNat ∧
    getF t THM_TJ THM_TJ_SENSOR = sensor.toNat ∧ quenched t = quenched s ∧ (quenched s = false → t.power.hotPace = false) := by
  obtain ⟨hj, htj, hsensor, hregs⟩ := tjNoted_shows s tj sensor
  obtain ⟨htherm, -, -⟩ := tjNoted_rest s tj.toNat sensor.toNat
  have hq : quenched (tjNoted s tj.toNat sensor.toNat) = quenched s := quenched_congr htherm
  have hcool : ∀ u : State, junction u = tj.toInt → junction u < celsius (quenchT u) := fun u hu => by
    have hb := (quenchT_bounds u).1
    unfold celsius at *
    omega
  cases hquench : quenched s
  · obtain ⟨-, -, -, hsame⟩ := modPower_shows (tjNoted s tj.toNat sensor.toNat) fun p => { p with hotPace := false }
    have hr := modPower_regs (tjNoted s tj.toNat sensor.toNat) fun p => { p with hotPace := false }
    have hj' := (junction_congr (regsSameBut_of_regs hr []) nofun).trans hj
    have hu := thermalSample_below tj.toNat sensor.toNat ((if_neg (by rw [hq, hquench]; exact Bool.false_ne_true)).trans
      (hotPacing_cool (by rw [hj]; exact h))) (hcool _ hj')
    rw [ht, hu]
    exact ⟨hregs.of_regs hr, (getF_congr hr ..).trans htj, (getF_congr hr ..).trans hsensor,
      (quenched_congr hsame).trans (hq.trans hquench), fun _ => rfl⟩
  · have hu := thermalSample_below tj.toNat sensor.toNat (if_pos (hq.trans hquench)) (hcool _ hj)
    rw [ht, hu]
    exact ⟨hregs, htj, hsensor, hq.trans hquench, nofun⟩

/-- The junction and its threshold after pacing. -/
theorem hotPacing_tj (s : State) (tj : BitVec 16) (sensor : BitVec 8) :
    junction (hotPacing (tjNoted s tj.toNat sensor.toNat)) = tj.toInt ∧
    quenchT (hotPacing (tjNoted s tj.toNat sensor.toNat)) = quenchT s := by
  obtain ⟨hj, -, -, hregs⟩ := tjNoted_shows s tj sensor
  obtain ⟨-, -, hpace⟩ := hotPacing_shows (tjNoted s tj.toNat sensor.toNat)
  exact ⟨(junction_congr hpace (by decide)).trans hj, (quenchT_congr hpace (by decide)).trans (quenchT_congr hregs (by decide))⟩

theorem thermalSample_hot (tj : BitVec 16) (sensor : BitVec 8) (hq : quenched s = false) (h95 : celsius 95 ≤ tj.toInt)
    (h : tj.toInt < celsius (quenchT s)) {t : State} (ht : t = thermalSample s tj.toNat sensor.toNat) :
    paceK t = min 8 (paceK s) ∧ t.power.hotPace = true ∧ quenched t = false := by
  obtain ⟨hj, -, -, hregs⟩ := tjNoted_shows s tj sensor
  obtain ⟨htherm, -, -⟩ := tjNoted_rest s tj.toNat sensor.toNat
  obtain ⟨ptherm, -, -⟩ := hotPacing_shows (tjNoted s tj.toNat sensor.toNat)
  obtain ⟨hpj, hpq⟩ := hotPacing_tj s tj sensor
  obtain ⟨hk, hhot⟩ := hotPacing_hot (u := tjNoted s tj.toNat sensor.toNat) (by rw [hj]; exact h95)
  have hu := thermalSample_below tj.toNat sensor.toNat
    (if_neg (by rw [quenched_congr htherm, hq]; exact Bool.false_ne_true)) (by rw [hpj, hpq]; exact h)
  rw [ht, hu]
  refine ⟨?_, hhot, (quenched_congr (ptherm.trans htherm)).trans hq⟩
  rw [hk, paceK, hregs.getF (by decide), paceK]

theorem thermalSample_quench (hz : sized s = true) (tj : BitVec 16) (sensor : BitVec 8) (hq : quenched s = false)
    (htrip : s.therm.trip = false) (h : celsius (quenchT s) ≤ tj.toInt) (h110 : tj.toInt < celsius 110) {t : State}
    (ht : t = thermalSample s tj.toNat sensor.toNat) : quenched t = true ∧ getF t THM_QCTL THM_QCTL_CAUSE = 2 ∧
    getF t PWR_STATUS PWR_STATUS_LIMIT = 6 ∧ t.pins.thermTrip = s.pins.thermTrip := by
  obtain ⟨htherm, hpins, -⟩ := tjNoted_rest s tj.toNat sensor.toNat
  obtain ⟨ptherm, ppins, -⟩ := hotPacing_shows (tjNoted s tj.toNat sensor.toNat)
  obtain ⟨hpj, hpq⟩ := hotPacing_tj s tj sensor
  have hsized : sized (hotPacing (tjNoted s tj.toNat sensor.toNat)) = true :=
    (Kept.hotPacing (((Kept.refl s).putF ..).putF ..)).shaped hz
  have hpace : (if quenched (tjNoted s tj.toNat sensor.toNat) then tjNoted s tj.toNat sensor.toNat else
      hotPacing (tjNoted s tj.toNat sensor.toNat)) = hotPacing (tjNoted s tj.toNat sensor.toNat) :=
    if_neg (by rw [quenched_congr htherm, hq]; exact Bool.false_ne_true)
  rw [thermalSample_eq, hpace] at ht
  revert ht
  have ptherm := ptherm.trans htherm
  have ppins := ppins.trans hpins
  revert ptherm ppins hpj hpq hsized
  clear hpace htherm hpins
  generalize hotPacing (tjNoted s tj.toNat sensor.toNat) = u
  intro uj uq hsized utherm upins ht
  have hq' : quenched u = false := (quenched_congr utherm).trans hq
  have htrip' : u.therm.trip = false := by rw [utherm, htrip]
  obtain ⟨hshow, hlimit⟩ := declareQuench_shows hsized hq' htrip' (by decide : causeJunction < 8)
  have hj : junction (declareQuench u causeJunction) = tj.toInt :=
    (junction_congr (declareQuench_regs (by decide) hq' htrip') (by decide)).trans uj
  have hstay : ¬ celsius 110 ≤ junction (declareQuench u causeJunction) := by
    rw [hj]
    exact not_le.2 h110
  rw [ht, junctionQuench, if_pos (by rw [uj, uq]; exact h), junctionTrip, if_neg hstay]
  exact ⟨hshow.standing, hshow.shownCause, hlimit, by rw [hshow.pins, upins]⟩

/-! ## The allowance (R392) -/

theorem allowanceStep_early (h : dueAfter s 1000000 s.power.allowAt = false) : allowanceStep s = s := if_pos (by simp [h])

theorem allowanceStep_due (h : dueAfter s 1000000 s.power.allowAt = true) : allowanceStep s =
    if junctionHot s then modPower s fun p => { p with pTherm := max 0 (s.power.pTherm - (capW s : Rat) / 50), allowAt := some s.now }
    else if junction s < celsius (tjLim s) - celsius 3 then
      modPower s fun p => { p with pTherm := min (capW s : Rat) (s.power.pTherm + (capW s : Rat) / 100), allowAt := some s.now }
    else s := if_neg (by simp [h])

end

end Sys2Proof.Machine
end

section
/-! PROOFS. The coolant and its sensing (R393 to R396), and the statement of heat and quench. -/

namespace Sys2Proof.Machine

/-- The state after the request of flow. -/
def flowAsked (s : State) (q : Nat) : State :=
  emit (modPower (putF s THM_SMB THM_SMB_FLOWREQ q) fun p => { p with lastFlow := s.now })
    (.flowReq (getF s THM_SMB THM_SMB_TRAY_ADDR) q)

/-- What the end of a poll of the coolant leaves as it was. -/
structure CoolSame (s t : State) : Prop where
  therm : t.therm = s.therm
  recorder : t.recorder = s.recorder
  regs : regsSameBut s t [THM_SMB, PWR_STATUS]

section
variable {s : State}

theorem CoolSame.trans {t u : State} (a : CoolSame s t) (b : CoolSame t u) : CoolSame s u :=
  ⟨b.therm.trans a.therm, b.recorder.trans a.recorder, a.regs.trans b.regs⟩

theorem coolSame_flowAsked (s : State) (q : Nat) : CoolSame s (flowAsked s q) := by
  have hp : ∀ (v : State) (f : Power → Power), (modPower v f).therm = v.therm ∧ (modPower v f).recorder = v.recorder :=
    fun _ _ => ⟨rfl, rfl⟩
  refine ⟨?_, ?_, ?_⟩
  · rw [flowAsked, emit_therm, (hp _ _).1, putF_therm]
  · rw [flowAsked, emit_recorder, (hp _ _).2, putF_recorder]
  · exact (((regsSameBut.refl s _).putF (by decide) _ _).of_regs (modPower_regs ..)).of_regs (emit_regs ..)

theorem coolSame_requestFlow (s : State) : CoolSame s (requestFlow s) := by
  unfold requestFlow
  dsimp only
  split
  · exact ⟨rfl, rfl, .refl s _⟩
  · exact coolSame_flowAsked s _

theorem coolSame_settled (s : State) : CoolSame s (settleLimit (requestFlow s)) :=
  (coolSame_requestFlow s).trans ⟨putF_therm .., putF_recorder .., (regsSameBut.refl _ _).putF (by decide) _ _⟩

/-- A reading of inlet and flow, noted. -/
def coolNoted (s : State) (inlet flow : Nat) : State :=
  putF (putF (modTherm s fun t => { t with smbFails := 0 }) THM_COOL THM_COOL_INLET inlet) THM_COOL THM_COOL_FLOW (min 1000 flow)

theorem coolNoted_shows (s : State) (inlet flow : Nat) :
    getF (coolNoted s inlet flow) THM_COOL THM_COOL_INLET = inlet % (THM_COOL_INLET.cap + 1) ∧
    getF (coolNoted s inlet flow) THM_COOL THM_COOL_FLOW = min 1000 flow ∧ (coolNoted s inlet flow).therm.smbFails = 0 ∧
    regsSameBut s (coolNoted s inlet flow) [THM_COOL] := by
  refine ⟨?_, ?_, ?_, ?_⟩
  · rw [coolNoted, getF_putF_apart (by decide) (by decide) (by decide) (by decide), getF_putF (by decide) (by decide)]
    rfl
  · rw [coolNoted, getF_putF (by decide) (by decide)]
    exact Nat.mod_eq_of_lt (lt_of_le_of_lt (min_le_left _ _) (by decide))
  · rw [coolNoted, putF_therm, putF_therm]
    rfl
  · exact ((regsSameBut_of_regs (t := modTherm s _) rfl _).putF List.mem_cons_self _ _).putF List.mem_cons_self _ _

/-- Sensing that is back shows SENSE_OK. -/
theorem senseBack_shows (s : State) : (senseBack s).regs = (putF s THM_COOL THM_COOL_SENSE_OK 1).regs ∧
    (senseBack s).therm.lost = false ∧ (senseBack s).therm.smbFails = s.therm.smbFails := by
  have hsame : (putF s THM_COOL THM_COOL_SENSE_OK 1).therm = s.therm := putF_therm ..
  rw [senseBack, ← hsame]
  generalize putF s THM_COOL THM_COOL_SENSE_OK 1 = u
  split
  · refine ⟨makeRecord_regs .., ?_, ?_⟩
    · rw [makeRecord_therm]
      rfl
    · rw [makeRecord_therm]
      rfl
  · rename_i h
    exact ⟨rfl, by simpa using h, rfl⟩

theorem noteFlow_shows (s : State) (flow : Nat) : (noteFlow s flow).regs = s.regs ∧ (noteFlow s flow).therm.flow = flow ∧
    (noteFlow s flow).therm.lost = s.therm.lost ∧ (noteFlow s flow).therm.smbFails = s.therm.smbFails := ⟨rfl, rfl, rfl, rfl⟩

theorem coolantRead_ok {faults : Nat} (h : faults % 2 = 0) (inlet flow : Nat) :
    coolantRead s true inlet flow faults = noteFlow (senseBack (coolNoted s inlet flow)) (min 1000 flow) := by
  have h1 : ¬ faults % 2 = 1 := by omega
  rw [coolantRead]
  dsimp only
  rw [if_neg (by decide), if_neg h1]
  rfl

theorem coolantPoll_ok (hs : 4 ≤ s.boot.step) {faults : Nat} (h : faults % 2 = 0) (inlet flow : Nat) {t : State}
    (ht : t = coolantPoll s true inlet flow faults) : getF t THM_COOL THM_COOL_INLET = inlet % (THM_COOL_INLET.cap + 1) ∧
    getF t THM_COOL THM_COOL_FLOW = min 1000 flow ∧ flag t THM_COOL THM_COOL_SENSE_OK = true ∧ t.therm.flow = min 1000 flow ∧
    t.therm.smbFails = 0 ∧ t.therm.lost = false ∧ regsSameBut s t [THM_COOL, THM_SMB, PWR_STATUS] := by
  rw [coolantPoll, if_neg (by omega), coolantRead_ok h] at ht
  obtain ⟨hinlet, hflow, hfails, hregs⟩ := coolNoted_shows s inlet flow
  revert hinlet hflow hfails hregs ht
  generalize coolNoted s inlet flow = u
  intro ht hinlet hflow hfails hregs
  obtain ⟨bregs, blost, bfails⟩ := senseBack_shows u
  obtain ⟨nregs, nflow, nlost, nfails⟩ := noteFlow_shows (senseBack u) (min 1000 flow)
  have hsame := coolSame_settled (noteFlow (senseBack u) (min 1000 flow))
  rw [← ht] at hsame
  have hr := nregs.trans bregs
  have hget : ∀ f, f.lo ≤ f.hi → f.hi < 32 → THM_COOL_SENSE_OK.apart f = true → getF t THM_COOL f = getF u THM_COOL f :=
    fun f h1 h2 h3 => (hsame.regs.getF (by decide) f).trans ((getF_congr hr ..).trans (getF_putF_apart (by decide) h1 h2 h3 ..))
  refine ⟨(hget _ (by decide) (by decide) (by decide)).trans hinlet, (hget _ (by decide) (by decide) (by decide)).trans hflow,
    ?_, ?_, ?_, ?_, ?_⟩
  · rw [hsame.regs.flag (by decide), flag_congr hr]
    exact flag_putF_one (by decide) (by decide) ..
  · rw [hsame.therm, nflow]
  · rw [hsame.therm, nfails, bfails, hfails]
  · rw [hsame.therm, nlost, blost]
  · exact (((hregs.mono (by decide)).putF (by decide) THM_COOL_SENSE_OK 1).of_regs hr).trans (hsame.regs.mono (by decide))

/-- The read that fails, counted. -/
def smbFailed (s : State) : State := modTherm s fun t => { t with smbFails := t.smbFails + 1 }

theorem coolantRead_lost (hf : 2 ≤ s.therm.smbFails) (inlet flow faults : Nat) :
    coolantRead s false inlet flow faults = senseLost (smbFailed s) 1 := by
  have h : 3 ≤ (smbFailed s).therm.smbFails := Nat.succ_le_succ hf
  rw [coolantRead]
  dsimp only
  rw [if_pos (by decide)]
  exact if_pos h

/-- The sensing that ends, in the registers and times. -/
def senseOff (s : State) : State :=
  putF (modTherm s fun t => { t with lowSince := none, okSince := none }) THM_COOL THM_COOL_SENSE_OK 0

theorem senseLost_first (h : s.therm.lost = false) (cause : Nat) : senseLost s cause =
    makeRecord (modTherm (senseOff s) fun t => { t with lost := true }) srcBellows 0x401 [w64 (1 + cause * 2 ^ 8)] := by
  have hl : (senseOff s).therm.lost = false := (congrArg Therm.lost (putF_therm ..)).trans h
  exact if_neg (by rw [← senseOff, hl]; exact Bool.false_ne_true)

theorem coolantPoll_lost (hs : 4 ≤ s.boot.step) (hf : 2 ≤ s.therm.smbFails) (hl : s.therm.lost = false) (inlet flow faults : Nat)
    {t : State} (ht : t = coolantPoll s false inlet flow faults) : flag t THM_COOL THM_COOL_SENSE_OK = false ∧
    t.therm.lost = true ∧ t.recorder = (makeRecord s srcBellows 0x401 [w64 (1 + 2 ^ 8)]).recorder := by
  have hl' : (smbFailed s).therm.lost = false := hl
  have hsame := coolSame_settled (senseLost (smbFailed s) 1)
  rw [coolantPoll, if_neg (by omega), coolantRead_lost hf] at ht
  rw [← ht] at hsame
  have hregs : (senseLost (smbFailed s) 1).regs = (senseOff (smbFailed s)).regs := by
    rw [senseLost_first hl', makeRecord_regs]
    rfl
  have hrec : (senseOff (smbFailed s)).recorder = s.recorder ∧ (senseOff (smbFailed s)).weld = s.weld ∧
      (senseOff (smbFailed s)).time = s.time := ⟨putF_recorder .., putF_weld .., putF_time ..⟩
  refine ⟨?_, ?_, ?_⟩
  · rw [hsame.regs.flag (by decide), flag_congr hregs]
    exact flag_putF_zero (by decide) (by decide) ..
  · rw [hsame.therm, senseLost_first hl', makeRecord_therm]
    rfl
  · rw [hsame.recorder, senseLost_first hl']
    exact makeRecord_recorder_congr (t := modTherm (senseOff (smbFailed s)) _) hrec.1 hrec.2.1 hrec.2.2 _ _ _

/-! ## Idle in a quench -/

theorem quenchIdle_idle {q : Nat} (hq : s.therm.quench = some q) (hr : s.therm.inSelfRefresh = false) (hi : anvilsIdle s = true) :
    quenchIdle s = requestV (modTherm s fun t => { t with inSelfRefresh := true }) 0 := by
  have hs : quenched s = true := by
    rw [quenched, hq]
    rfl
  rw [quenchIdle, hs, hr, hi]
  rfl

theorem requestV_therm (s : State) (v : Nat) : (requestV s v).therm = s.therm := by
  unfold requestV
  split
  · rfl
  · rw [emit_therm, putF_therm]
    rfl

theorem quenchIdle_shows {q : Nat} (hq : s.therm.quench = some q) (hr : s.therm.inSelfRefresh = false) (hi : anvilsIdle s = true)
    (hv : vreq s ≠ 0) {t : State} (ht : t = quenchIdle s) : vreq t = 0 ∧ t.egress = s.egress ++ [.avs 0] ∧
    t.therm.inSelfRefresh = true ∧ regsSameBut s t [PWR_VCTL] := by
  have hv' : vreq (modTherm s fun t => { t with inSelfRefresh := true }) = vreq s := rfl
  have hne : 0 ≠ vreq (modTherm s fun t => { t with inSelfRefresh := true }) := fun h => hv (by rw [← hv', ← h])
  obtain ⟨h1, h2, -, h4, -, -⟩ := requestV_shows hne (.inr (Nat.pos_of_ne_zero hne.symm)) (by decide)
  rw [quenchIdle_idle hq hr hi] at ht
  refine ⟨by rw [ht, h1], by rw [ht, h2]; rfl, by rw [ht, requestV_therm]; rfl, ?_⟩
  rw [ht]
  exact (regsSameBut_of_regs (t := modTherm s _) rfl _).trans h4

/-! ## The statement -/

theorem quenched_of_some {q : Nat} (h : s.therm.quench = some q) : quenched s = true := by
  rw [quenched, h]
  rfl

theorem quenchIdle_busy (hi : anvilsIdle s = false) : quenchIdle s = s := if_pos (by simp [hi])

theorem quenchEnd_waits (h : mayEnd s = false) : quenchEnd s = s := by
  unfold quenchEnd
  split
  · rfl
  · exact if_neg (by simp [h])

theorem quenchEnd_ends {q : Nat} (hq : s.therm.quench = some q) (h : mayEnd s = true) : quenchEnd s = endQuench s q := by
  unfold quenchEnd
  rw [hq]
  exact if_pos h

theorem selfRefreshReentry_one {h chan t0 : Nat} (hr : s.power.selfRefresh = [(128 * h + chan, t0)]) :
    selfRefreshReentry s h chan = if s.now - t0 < 10000 then s else { s with power := { s.power with selfRefresh := [] } } := by
  have hget : assocGet (128 * h + chan) s.power.selfRefresh = some t0 := by simp [hr, assocGet]
  have herase : assocErase (128 * h + chan) s.power.selfRefresh = [] := by simp [hr, assocErase]
  rw [selfRefreshReentry, hget]
  dsimp only
  rw [modPower, herase]

end

/-- Settles O48, from what each sample, and the beginning and the end of a quench, leave. -/
theorem heatAndQuench : Obligations.HeatAndQuench := by
  refine ⟨fun s hz => ⟨fun tj sensor => ⟨fun h => ?_, fun hq h95 h => ?_, fun hq htrip h h110 => ?_⟩, fun hd hh => ?_,
    fun hd hc hh => ?_, fun h => ?_, fun hs inlet flow faults => ⟨fun hf => ?_, fun hf hl => ?_⟩⟩,
    fun s hz => ⟨fun h => ?_, fun hq htrip => ⟨fun h => ?_, fun agent h => ?_⟩, fun q hq => ⟨fun hr hi hv => ?_, fun hi => ?_,
    fun hm => ?_, fun hm he hrings hd => ?_⟩, fun h chan t0 hr => ⟨fun hl => ?_, fun hl => ?_⟩⟩⟩
  · exact Answers.of rfl rfl (thermalSample_cool tj sensor h rfl)
  · exact Answers.of rfl rfl (thermalSample_hot tj sensor hq h95 h rfl)
  · exact Answers.of rfl rfl (thermalSample_quench hz tj sensor hq htrip h h110 rfl)
  · exact Answers.of rfl ((allowanceStep_due hd).trans (if_pos hh)) ⟨rfl, rfl⟩
  · exact Answers.of rfl ((allowanceStep_due hd).trans ((if_neg (by simp [hh])).trans (if_pos hc))) ⟨rfl, rfl⟩
  · refine Answers.of rfl ?_ rfl
    rcases hdue : dueAfter s 1000000 s.power.allowAt
    · exact allowanceStep_early hdue
    · obtain ⟨hh, hc⟩ := h.resolve_left (by rw [hdue]; decide)
      exact (allowanceStep_due hdue).trans ((if_neg (by simp [hh])).trans (if_neg (not_lt.2 hc)))
  · exact Answers.of rfl rfl (coolantPoll_ok hs hf _ flow rfl)
  · exact Answers.of rfl rfl (coolantPoll_lost hs hf hl _ flow _ rfl)
  · exact Answers.of rfl (if_neg (by simp [h])) rfl
  · obtain ⟨hshow, -⟩ := declareQuench_shows hz hq htrip (by decide : causeFlow < 8)
    exact Answers.of rfl (if_pos h) ⟨hshow.standing, hshow.shownCause⟩
  · obtain ⟨hshow, -⟩ := declareQuench_shows hz hq htrip (by decide : causeRegister < 8)
    exact Answers.of rfl (if_pos h) ⟨hshow.standing, hshow.since, hshow.shownCause, hshow.counted, memSame_of_mem hshow.mem,
      hshow.ramps, fun u ht htest => ⟨(hshow.tests u ⟨ht, htest⟩).off, (hshow.tests u ⟨ht, htest⟩).queued⟩⟩
  · exact Answers.of rfl rfl (quenchIdle_shows hq hr hi hv rfl)
  · exact Answers.of rfl (quenchIdle_busy hi) rfl
  · exact Answers.of rfl (quenchEnd_waits hm) rfl
  · have hend := endQuench_shows he hrings hd q
    exact Answers.of rfl (quenchEnd_ends hq hm) ⟨hend.gone, hend.cause, hend.voltage, hend.counted⟩
  · exact Answers.of rfl ((selfRefreshReentry_one hr).trans (if_neg (not_lt.2 hl))) rfl
  · exact Answers.of rfl ((selfRefreshReentry_one hr).trans (if_pos hl)) rfl

end Sys2Proof.Machine
end

section
/-! PROOFS. What a retirement leaves, and the domains' commands (R24 to R32, R378, R379). -/

namespace Sys2Proof.Machine

/-! ## Messages that leave (R298, R374) -/

/-- From `s` to `t` only connections, ports, outputs and notices may have changed. -/
def SendOnly (s t : State) : Prop := t = { s with conns := t.conns, ports := t.ports, egress := t.egress, surv := t.surv }

section
variable {s t u : State}

theorem SendOnly.trans (a : SendOnly s t) (b : SendOnly t u) : SendOnly s u := by
  rw [SendOnly, b, a]

theorem sendOnly_roceIssue (s : State) (c : Conn) (o : RoceOp) : SendOnly s (roceIssue s c o) := by
  unfold roceIssue
  dsimp only
  split
  · rfl
  · rw [SendOnly, roceEmit_frame]
    rfl

theorem sendOnly_roceSendOn (s : State) (idx : Nat) (o : RoceOp) : SendOnly s (roceSendOn s idx o).1 := by
  unfold roceSendOn
  split
  · split
    · rfl
    · exact sendOnly_roceIssue ..
  · rfl

theorem sendOnly_sendNotices (n : Nat) (s : State) : SendOnly s (sendNotices n s) := by
  induction n generalizing s with
  | zero => rfl
  | succ n ih =>
    unfold sendNotices
    split
    · rfl
    · split
      · rfl
      · dsimp only
        split
        · have hnotices : ∀ (v : State) (l : List (List Word64)), SendOnly v { v with surv := { v.surv with notices := l } } :=
            fun _ _ => rfl
          exact ((sendOnly_roceSendOn s _ _).trans (hnotices _ _)).trans (ih _)
        · rfl

theorem sendOnly_postNotice (s : State) (typ : Nat) (ws : List Word64) : SendOnly s (postNotice s typ ws) :=
  SendOnly.trans (t := { s with surv := { s.surv with notices := s.surv.notices ++ [headWord s typ 0 :: ws] } }) rfl
    (sendOnly_sendNotices ..)

/-! ## What a retirement may change -/

/-- Registers of the status of the device, and the parts of the state that a retirement or a wedge may touch. -/
structure StatusOnly (s t : State) : Prop where
  frame : t = { s with regs := t.regs, boot := t.boot, recorder := t.recorder, hearths := t.hearths, conns := t.conns
                       ports := t.ports, egress := t.egress, surv := t.surv, pins := t.pins }
  regs : regsSameBut s t [DEV_STATUS, SURV_STATUS]
  degraded : flag t DEV_STATUS DEV_STATUS_DEGRADED = flag s DEV_STATUS DEV_STATUS_DEGRADED

theorem StatusOnly.refl (s : State) : StatusOnly s s := ⟨rfl, .refl s _, rfl⟩

theorem StatusOnly.trans (a : StatusOnly s t) (b : StatusOnly t u) : StatusOnly s u :=
  ⟨by rw [b.frame, a.frame], a.regs.trans b.regs, b.degraded.trans a.degraded⟩

theorem SendOnly.statusOnly (h : SendOnly s t) : StatusOnly s t := by
  have hr : t.regs = s.regs := by rw [h]
  exact ⟨by rw [h], regsSameBut_of_regs hr _, flag_congr hr ..⟩

theorem statusOnly_putF (s : State) {a : Nat} {f : Fld} (ha : a = SURV_STATUS ∨ (a = DEV_STATUS ∧ f.apart DEV_STATUS_DEGRADED = true
    ∧ f.lo ≤ f.hi)) (x : Nat) : StatusOnly s (putF s a f x) := by
  refine ⟨by obtain ⟨r, h⟩ := putF_regs_only s a f x; rw [h], ?_, ?_⟩
  · exact (regsSameBut.refl s _).putF (by rcases ha with rfl | ⟨rfl, -⟩ <;> decide) _ _
  · rcases ha with rfl | ⟨rfl, hf, hl⟩
    · exact flag_putF_ne (by decide) ..
    · exact flag_putF_apart hl (by decide) (by decide) hf ..

theorem statusOnly_requestService (s : State) : StatusOnly s (requestService s) := by
  obtain ⟨hf, hr, hd⟩ := statusOnly_putF s (.inr ⟨rfl, by decide, by decide⟩ : DEV_STATUS = SURV_STATUS ∨ (DEV_STATUS = DEV_STATUS ∧
    DEV_STATUS_SVC_REQ.apart DEV_STATUS_DEGRADED = true ∧ DEV_STATUS_SVC_REQ.lo ≤ DEV_STATUS_SVC_REQ.hi)) 1
  exact ⟨by obtain ⟨r, h⟩ := putF_regs_only s DEV_STATUS DEV_STATUS_SVC_REQ 1; rw [requestService, h],
    hr.of_regs (u := requestService s) rfl, (flag_congr (t := requestService s) rfl ..).trans hd⟩

theorem statusOnly_serviceStanding (s : State) : StatusOnly s (serviceStanding s) :=
  (statusOnly_putF s (.inl rfl) 1).trans (statusOnly_requestService _)

theorem statusOnly_makeRecord (s : State) (src typ : Nat) (b : List Word64) : StatusOnly s (makeRecord s src typ b) :=
  ⟨by rw [makeRecord_eq], regsSameBut_of_regs (makeRecord_regs ..) _, flag_congr (makeRecord_regs ..) ..⟩

theorem statusOnly_wedge (s : State) (cause unit row : Nat) : StatusOnly s (wedge s cause unit row) := by
  unfold wedge
  split
  · exact .refl s
  · exact ((statusOnly_makeRecord ..).trans (statusOnly_putF _ (.inr ⟨rfl, by decide, by decide⟩) 1)).trans
      ((statusOnly_serviceStanding _).trans (statusOnly_putF _ (.inl rfl) 1))

theorem statusOnly_moveReady (s : State) (h : Nat) : StatusOnly s (moveReady s h) := by
  unfold moveReady
  split
  · exact .refl s
  · split
    · exact ⟨rfl, .refl s _, rfl⟩
    · exact statusOnly_wedge ..

theorem statusOnly_retireThresholds (s : State) : StatusOnly s (retireThresholds s) := by
  have hnotice : StatusOnly s (serviceNotice (serviceStanding s)) :=
    (statusOnly_serviceStanding s).trans (sendOnly_postNotice ..).statusOnly
  have hleave : ∀ v : State, StatusOnly v { v with surv := { v.surv with leave := true } } := fun v => ⟨rfl, .refl v _, rfl⟩
  unfold retireThresholds
  dsimp only
  split
  · split
    · exact hnotice.trans (hleave _)
    · exact hnotice
  · split
    · exact hleave s
    · exact .refl s

theorem statusOnly_saveRetirement (s : State) : StatusOnly s (saveRetirement s) := by
  unfold saveRetirement
  split <;> exact ⟨rfl, .refl s _, rfl⟩

/-! ## The bit of a core (R31, R378) -/

/-- The registers of a core that is out of service. -/
def retireRegs (s : State) (i : Nat) : State :=
  putF (setR s (DEV_CORE_RETIRED (i / 32)) (getR s (DEV_CORE_RETIRED (i / 32)) ||| BitVec.ofNat 32 (2 ^ (i % 32)))) DEV_STATUS
    DEV_STATUS_DEGRADED 1

theorem regsSameBut_retireRegs (s : State) (i : Nat) : regsSameBut s (retireRegs s i) [DEV_CORE_RETIRED (i / 32), DEV_STATUS] :=
  ((regsSameBut.refl s _).setR (by simp) _).putF (by simp) _ _

theorem retireAddr_ne {k a : Nat} (hk : k < 4) (h : a = DEV_STATUS ∨ a = SURV_STATUS ∨ a = SURV_CNT2 ∨ a = PWR_TEST ∨ a = DEV_DOM_STATE) :
    DEV_CORE_RETIRED k ≠ a := by
  have hd : ∀ x : Fin 4, DEV_CORE_RETIRED x ≠ DEV_STATUS ∧ DEV_CORE_RETIRED x ≠ SURV_STATUS ∧ DEV_CORE_RETIRED x ≠ SURV_CNT2 ∧
    DEV_CORE_RETIRED x ≠ PWR_TEST ∧ DEV_CORE_RETIRED x ≠ DEV_DOM_STATE := by decide
  obtain ⟨h1, h2, h3, h4, h5⟩ := hd ⟨k, hk⟩
  rcases h with rfl | rfl | rfl | rfl | rfl <;> assumption

theorem getR_retireRegs {k : Nat} (hk : k < 4) (s : State) (i : Nat) : getR (retireRegs s i) (DEV_CORE_RETIRED k) =
    if k = i / 32 then getR s (DEV_CORE_RETIRED (i / 32)) ||| BitVec.ofNat 32 (2 ^ (i % 32)) else getR s (DEV_CORE_RETIRED k) := by
  rw [retireRegs, getR_putF_ne (retireAddr_ne hk (.inl rfl)), getR_setR]
  refine if_congr ?_ rfl rfl
  unfold DEV_CORE_RETIRED
  omega

theorem testBit_or_bit (x : Word32) {n : Nat} (m : Nat) (hn : n < 32) :
    (x ||| BitVec.ofNat 32 (2 ^ n)).toNat.testBit m = (x.toNat.testBit m || decide (m = n)) := by
  rw [BitVec.toNat_or, Nat.testBit_or, BitVec.toNat_ofNat, Nat.mod_eq_of_lt (Nat.pow_lt_pow_right (by decide) hn),
    Nat.testBit_two_pow]
  simp [eq_comm]

theorem coreRetired_retireRegs {i j : Nat} (hj : j < 128) (s : State) :
    coreRetired (retireRegs s i) j = (coreRetired s j || decide (j = i)) := by
  rw [coreRetired, getR_retireRegs (by omega)]
  split
  · rename_i h
    rw [testBit_or_bit _ _ (Nat.mod_lt _ (by decide)), coreRetired, h]
    congr 1
    exact decide_eq_decide.2 (by omega)
  · rename_i h
    have hne : j ≠ i := fun he => h (by rw [he])
    simp [coreRetired, hne]

/-- What the retirement of a core leaves. -/
structure Retired (s t : State) (i : Nat) : Prop where
  bits : ∀ j < 128, coreRetired t j = (coreRetired s j || decide (j = i))
  regs : regsSameBut s t [DEV_CORE_RETIRED (i / 32), DEV_STATUS, SURV_STATUS, SURV_CNT2]
  degraded : flag t DEV_STATUS DEV_STATUS_DEGRADED = true
  cores : t.cores = (modCore s i fun c => { c with retireDue := none }).cores
  domains : t.domains = s.domains

theorem coreRetired_congr_regs {as : List Nat} (h : regsSameBut s t as) {j : Nat} (ha : DEV_CORE_RETIRED (j / 32) ∉ as) :
    coreRetired t j = coreRetired s j := by rw [coreRetired, h _ ha, coreRetired]

theorem Retired.status {i : Nat} (h : Retired s t i) (ht : StatusOnly t u) : Retired s u i := by
  refine ⟨fun j hj => ?_, h.regs.trans (ht.regs.mono (by simp)), ht.degraded.trans h.degraded, ?_, ?_⟩
  · have hne1 := retireAddr_ne (k := j / 32) (by omega) (.inl rfl : DEV_STATUS = DEV_STATUS ∨ _)
    have hne2 := retireAddr_ne (k := j / 32) (by omega) (.inr (.inl rfl) : SURV_STATUS = DEV_STATUS ∨ SURV_STATUS = SURV_STATUS ∨ _)
    rw [coreRetired_congr_regs ht.regs (by simp [hne1, hne2]), h.bits j hj]
  · rw [ht.frame]
    exact h.cores
  · rw [ht.frame]
    exact h.domains

/-- The registers and the core of a retirement, before its records and its notices. -/
def retireMarked (s : State) (i cause : Nat) : State :=
  modCore { putF (retireRegs s i) SURV_CNT2 SURV_CNT2_RETIRED (retiredCount (retireRegs s i)) with
    boot := { (putF (retireRegs s i) SURV_CNT2 SURV_CNT2_RETIRED (retiredCount (retireRegs s i))).boot with
      retireCauses := assocSet i cause (putF (retireRegs s i) SURV_CNT2 SURV_CNT2_RETIRED (retiredCount (retireRegs s i))).boot.retireCauses } }
    i fun c => { c with retireDue := none }

theorem retireCore_eq {i : Nat} (h : coreRetired s i = false) (cause : Nat) : retireCore s i cause =
    moveReady (retireThresholds (makeRecord (saveRetirement (retireMarked s i cause)) srcSmith 0x086 [w64 (i + cause * 2 ^ 8)]))
      (hearthOf i) := if_neg (by simp [h])

theorem retired_retireMarked (s : State) (i : Nat) (cause : Nat) : Retired s (retireMarked s i cause) i := by
  have hregs : (retireMarked s i cause).regs =
      (putF (retireRegs s i) SURV_CNT2 SURV_CNT2_RETIRED (retiredCount (retireRegs s i))).regs := rfl
  have hcnt : regsSameBut (retireRegs s i) (retireMarked s i cause) [SURV_CNT2] :=
    ((regsSameBut.refl _ _).putF List.mem_cons_self _ _).of_regs hregs
  have hsame : (retireRegs s i).cores = s.cores ∧ (retireRegs s i).domains = s.domains :=
    ⟨(putF_cores ..).trans rfl, (putF_domains ..).trans rfl⟩
  refine ⟨fun j hj => ?_, ?_, ?_, ?_, ?_⟩
  · have hne := retireAddr_ne (k := j / 32) (by omega) (.inr (.inr (.inl rfl)) : SURV_CNT2 = DEV_STATUS ∨ SURV_CNT2 = SURV_STATUS ∨
      SURV_CNT2 = SURV_CNT2 ∨ _)
    rw [coreRetired_congr_regs hcnt (by simp [hne]), coreRetired_retireRegs hj]
  · exact ((regsSameBut_retireRegs s i).mono (by simp)).trans (hcnt.mono (by simp))
  · rw [hcnt.flag (by decide)]
    exact flag_putF_one (by decide) (by decide) ..
  · have hc : (putF (retireRegs s i) SURV_CNT2 SURV_CNT2_RETIRED (retiredCount (retireRegs s i))).cores = s.cores :=
      (putF_cores ..).trans hsame.1
    have hm : ∀ (v : State) (b : Boot) (f : Core → Core), v.cores = s.cores → (modCore { v with boot := b } i f).cores =
        (modCore s i f).cores := fun v b f h => by simp only [modCore, setCore, coreAt, h]
    exact hm _ _ _ hc
  · have hd : (retireMarked s i cause).domains =
        (putF (retireRegs s i) SURV_CNT2 SURV_CNT2_RETIRED (retiredCount (retireRegs s i))).domains := rfl
    exact hd.trans ((putF_domains ..).trans hsame.2)

theorem retired_retireCore {i : Nat} (h : coreRetired s i = false) (cause : Nat) : Retired s (retireCore s i cause) i := by
  rw [retireCore_eq h]
  exact ((((retired_retireMarked s i cause).status (statusOnly_saveRetirement _)).status (statusOnly_makeRecord ..)).status
    (statusOnly_retireThresholds _)).status (statusOnly_moveReady ..)

end

end Sys2Proof.Machine
end

section
/-! PROOFS. The commands of a control domain and the retirement of a core (R24 to R28, R253, R378, R406). -/

namespace Sys2Proof.Machine

section
variable {s : State} {u : DomId}

theorem sized_domains (hz : sized s = true) : s.domains.length = 16 := (sized_iff.1 hz).2.2.2.1

theorem domCommand_free (hq : quenched s = false) (ht : inTransition s u = false) (c : DomCmd) : domCommand s u c = startCmd s u c :=
  if_neg (by simp [hq, ht])

theorem domCommand_waits (h : quenched s = true ∨ inTransition s u = true) (c : DomCmd) : domCommand s u c = addPending s u c :=
  if_pos (by rcases h with h | h <;> simp [h])

/-- A command that makes an On domain leave: off, or a test where none of the half runs. -/
def Leaves (s : State) (u : DomId) (c : Instr) (d : DomCmd) : Prop :=
  (c = .domainSwitchOff u ∧ d = .off) ∨ (c = .domainSelfTestStart u ∧ d = .test ∧ testRuns s (u / 8) = false)

theorem Leaves.exec {c : Instr} {d : DomCmd} (h : Leaves s u c d) : exec c s = .next (domCommand s u d) := by
  rcases h with ⟨rfl, rfl⟩ | ⟨rfl, rfl, -⟩ <;> rfl

theorem Leaves.startCmd_on {c : Instr} {d : DomCmd} (h : Leaves s u c d) (hd : domState s u = 0) :
    startCmd s u d = if wouldStrand s u then holdCmd s u d else beginLeaving s u d := by
  have hon : ¬ (domState s u != domOn) = true := by simp [hd, domOn]
  rcases h with ⟨rfl, rfl⟩ | ⟨rfl, rfl, hr⟩
  · exact if_neg hon
  · have hr' : testRuns s (u.val / 8) = false := hr
    have hoff : ¬ domState s u = domOff := by rw [hd]; decide
    exact (if_neg (by rw [hr']; exact Bool.false_ne_true)).trans ((if_neg hoff).trans (if_neg hon))

theorem beginLeaving_eq (d : DomCmd) : beginLeaving s u d = domMoved s u domLeaving fun x => { x with target := some d } := rfl

theorem beginOn_eq (s : State) (u : Nat) : beginOn s u =
    domMoved s u domOn fun d => { d with target := none, testing := false, window := none, clearing := true } := rfl

theorem enterTest_eq (s : State) (u : Nat) (c : DomCmd) : enterTest s u c =
    domMoved s u domTest fun d => { d with target := none, testing := decide (c = .test), window := some true } := rfl

/-- The record of a command that R26 holds. -/
def heldBody (u : DomId) (d : DomCmd) : List Word64 := [w64 (u + (if d = .off then 0 else 256))]

theorem holdCmd_first (hh : (domainAt s u).held = []) (d : DomCmd) : holdCmd s u d =
    makeRecord (modDomain s u fun x => { x with held := x.held ++ [d] }) (srcStriker (u / 8)) 0x080 (heldBody u d) :=
  if_neg (by simp [hh])

theorem holdCmd_shows (hz : sized s = true) (hd : domState s u = 0) (hh : (domainAt s u).held = []) (d : DomCmd) {t : State}
    (ht : t = holdCmd s u d) : domState t u = 0 ∧ domainAt t u = { (domainAt s u) with held := [d] } ∧
    t = { s with domains := t.domains, recorder := t.recorder } ∧
    t.recorder = (makeRecord s (srcStriker (u / 8)) 0x080 (heldBody u d)).recorder := by
  rw [holdCmd_first hh] at ht
  subst ht
  refine ⟨?_, ?_, ?_, makeRecord_recorder_congr (s := s) (t := modDomain s u _) rfl rfl rfl _ _ _⟩
  · rw [domState_congr (makeRecord_regs ..), domState_modDomain, hd]
  · rw [domainAt_congr (makeRecord_domains ..), domainAt_modDomain (by rw [sized_domains hz]; exact u.isLt), hh]
    rfl
  · rw [makeRecord_eq]
    rfl

/-! ## A domain that has left -/

theorem domainLeft_off (hq : quenched s = false) (hd : domState s u = 1) (hi : domainIdle s u = true)
    (ht : (domainAt s u).target = some .off) (hp : (domainAt s u).pending = []) (hl : s.domains.length = 16) :
    domainLeft s u = domMoved s u domOff fun d => { d with target := none } := by
  have hgo : domainLeft s u = takePending (domMoved s u domOff fun d => { d with target := none }) u := by
    rw [domainLeft, if_neg (by simp [hd, hi, hq, domLeaving]), ht]
    rfl
  have hnone : (domainAt (domMoved s u domOff fun d => { d with target := none }) u).pending = [] := by
    rw [(domMoved_shows u.isLt hl (by decide) _).2]
    exact hp
  rw [hgo, takePending, hnone]
  rfl

theorem domainLeft_test (hq : quenched s = false) (hd : domState s u = 1) (hi : domainIdle s u = true) {d : DomCmd}
    (ht : (domainAt s u).target = some d) (hne : d ≠ .off) : domainLeft s u = enterTest s u d := by
  rw [domainLeft, if_neg (by simp [hd, hi, hq, domLeaving]), ht]
  cases d with
  | off => exact absurd rfl hne
  | on => rfl
  | test => rfl
  | window => rfl

theorem domainLeft_shows (hz : sized s = true) (hq : quenched s = false) (hd : domState s u = 1) (hi : domainIdle s u = true) {d : DomCmd}
    (ht : (domainAt s u).target = some d) (hp : (domainAt s u).pending = []) {t : State} (h : t = domainLeft s u) :
    domOnly s t u ∧ (domainAt t u).target = none ∧ domState t u = (if d = .off then 2 else 3) ∧
    (domainAt t u).testing = (if d = .off then (domainAt s u).testing else decide (d = .test)) := by
  have hl := sized_domains hz
  by_cases hoff : d = .off
  · subst hoff
    obtain ⟨h1, h2⟩ := domMoved_shows u.isLt hl (by decide : domOff < 4) fun d => { d with target := none }
    rw [h, domainLeft_off hq hd hi ht hp hl, h1, h2]
    exact ⟨domMoved_domOnly .., rfl, rfl, rfl⟩
  · obtain ⟨h1, h2⟩ := domMoved_shows u.isLt hl (by decide : domTest < 4) fun x =>
      { x with target := none, testing := decide (d = .test), window := some true }
    rw [h, domainLeft_test hq hd hi ht hoff, enterTest_eq, h1, h2, if_neg hoff, if_neg hoff]
    exact ⟨domMoved_domOnly .., rfl, rfl, rfl⟩

/-! ## The core stores are cleared (R253) -/

/-- The core stores of a list of cores are zero. -/
def storesZeroed (s : State) (is : List Nat) : State := is.foldl (fun s i => zeroBytes s (csBase i) windowSize) s

theorem storesZeroed_frame (is : List Nat) (s : State) : storesZeroed s is = { s with mem := (storesZeroed s is).mem } := by
  unfold storesZeroed
  induction is generalizing s with
  | nil => rfl
  | cons i is ih =>
    rw [List.foldl_cons, ih]
    rfl

theorem readByte_storesZeroed (is : List Nat) (s : State) (a : Nat) : readByte (storesZeroed s is) a =
    if ∃ i ∈ is, csBase i ≤ a ∧ a < csBase i + windowSize then 0 else readByte s a := by
  unfold storesZeroed
  induction is generalizing s with
  | nil => simp
  | cons i is ih =>
    rw [List.foldl_cons, ih, readByte_zeroBytes]
    by_cases h1 : ∃ j ∈ is, csBase j ≤ a ∧ a < csBase j + windowSize
    · have h2 : ∃ j ∈ i :: is, csBase j ≤ a ∧ a < csBase j + windowSize := by
        obtain ⟨j, hj, h⟩ := h1
        exact ⟨j, List.mem_cons_of_mem _ hj, h⟩
      rw [if_pos h1, if_pos h2]
    · rw [if_neg h1]
      refine if_congr ?_ rfl rfl
      rw [List.exists_mem_cons_iff, or_iff_left h1]

theorem loadImages_noJob (is : List Nat) (h : s.job = none) : is.foldl loadImage s = s :=
  List.foldl_fixed' (fun i => (if_pos (by rw [h]; rfl) : loadImage s i = s)) _

theorem clearDone_quiet (hz : sized s = true) (hc : (domainAt s u).clearing = true) (hq : domQuiet s = true) (hj : s.job = none) :
    clearDone s u = modDomain (storesZeroed s (domCores u)) u fun d => { d with clearing := false } := by
  have hframe := storesZeroed_frame (domCores u) s
  have hjob : (storesZeroed s (domCores u)).job = none := by rw [hframe]; exact hj
  have hdoms : (storesZeroed s (domCores u)).domains = s.domains := by rw [hframe]
  have hgo : clearDone s u = retryHalf (modDomain ((domCores u).foldl loadImage (storesZeroed s (domCores u))) u fun d =>
      { d with clearing := false }) (u / 8) := if_neg (by simp [hc])
  rw [hgo, loadImages_noJob _ hjob]
  refine retryHalf_quiet (fun v => ?_) _
  by_cases hv : v = u.val
  · subst hv
    rw [domainAt_modDomain (by rw [hdoms, sized_domains hz]; exact u.isLt), domainAt_congr hdoms]
    exact domQuiet_at hq _
  · rw [domainAt_modDomain_ne hv, domainAt_congr hdoms]
    exact domQuiet_at hq _

theorem clearDone_shows (hz : sized s = true) (hc : (domainAt s u).clearing = true) (hq : domQuiet s = true) (hj : s.job = none)
    {t : State} (ht : t = clearDone s u) : t = { s with mem := t.mem, domains := t.domains } ∧ (domainAt t u).clearing = false ∧
    (∀ i ∈ domCores u, ∀ off, off < 0x200000 → readByte t (csBase i + off) = 0) ∧
    (∀ a, (∀ i ∈ domCores u, a < csBase i ∨ csBase i + 0x200000 ≤ a) → readByte t a = readByte s a) := by
  have hframe := storesZeroed_frame (domCores u) s
  have hread := readByte_storesZeroed (domCores u) s
  rw [clearDone_quiet hz hc hq hj] at ht
  revert hframe hread ht
  generalize storesZeroed s (domCores u) = v
  intro ht hframe hread
  have hlen : v.domains.length = 16 := by rw [hframe]; exact sized_domains hz
  have hbyte : ∀ a, readByte t a = readByte v a := readByte_congr (by rw [ht]; rfl)
  refine ⟨?_, ?_, fun i hi off hoff => ?_, fun a ha => ?_⟩
  · rw [ht, hframe]
    rfl
  · rw [ht, domainAt_modDomain (by rw [hlen]; exact u.isLt)]
  · rw [hbyte, hread, if_pos ⟨i, hi, Nat.le_add_right _ _, Nat.add_lt_add_left hoff _⟩]
  · rw [hbyte, hread, if_neg]
    rintro ⟨i, hi, h1, h2⟩
    have h := ha i hi
    simp only [windowSize] at h2
    omega

/-! ## A self-test ends (R406, R407) -/

theorem selfTestComplete_eq (hq : quenched s = false) (hd : domState s u = 3) (ht : (domainAt s u).testing = true)
    (hw : (domainAt s u).window = none) (l : List (HearthId × Fin 4)) : selfTestComplete s u l =
    beginOn (putF (l.foldl (selfTestFail u) s) PWR_TEST PWR_TEST_LASTDOM u) u := if_neg (by simp [hd, ht, hw, hq, domTest])

/-- The domain is On with its stores to clear, and the test noted. -/
theorem testEnded_shows {v t : State} (hl : v.domains.length = 16) (ht : t = beginOn (putF v PWR_TEST PWR_TEST_LASTDOM u) u) :
    domState t u = 0 ∧ (domainAt t u).clearing = true ∧ getF t PWR_TEST PWR_TEST_LASTDOM = u ∧
    regsSameBut v t [PWR_TEST, DEV_DOM_STATE] ∧ t = { v with regs := t.regs, domains := t.domains } ∧
    getF t PWR_TEST PWR_TEST_FAILS = getF v PWR_TEST PWR_TEST_FAILS := by
  have hdoms : (putF v PWR_TEST PWR_TEST_LASTDOM u).domains = v.domains := putF_domains ..
  have hframe := putF_frame v PWR_TEST PWR_TEST_LASTDOM u
  have hregs : regsSameBut v (putF v PWR_TEST PWR_TEST_LASTDOM u) [PWR_TEST, DEV_DOM_STATE] := (regsSameBut.refl v _).putF (by decide) _ _
  have hlast : getF (putF v PWR_TEST PWR_TEST_LASTDOM u) PWR_TEST PWR_TEST_LASTDOM = u := by
    rw [getF_putF (by decide) (by decide)]
    exact Nat.mod_eq_of_lt u.isLt
  have hfails : getF (putF v PWR_TEST PWR_TEST_LASTDOM u) PWR_TEST PWR_TEST_FAILS = getF v PWR_TEST PWR_TEST_FAILS :=
    getF_putF_apart (by decide) (by decide) (by decide) (by decide) ..
  rw [beginOn_eq] at ht
  revert ht hdoms hframe hregs hlast hfails
  generalize putF v PWR_TEST PWR_TEST_LASTDOM u = w
  intro ht hdoms hframe hregs hlast hfails
  obtain ⟨h1, h2⟩ := domMoved_shows (s := w) u.isLt (by rw [hdoms, hl]) (by decide : domOn < 4) fun d =>
    { d with target := none, testing := false, window := none, clearing := true }
  have honly := domainsOnly_domMoved w u domOn fun d => { d with target := none, testing := false, window := none, clearing := true }
  rw [← ht] at h1 h2 honly
  refine ⟨h1, by rw [h2], ?_, hregs.trans (honly.regs.mono (by decide)), ?_, ?_⟩
  · rw [honly.regs.getF (by decide), hlast]
  · rw [honly.frame, hframe]
  · rw [honly.regs.getF (by decide), hfails]

end

end Sys2Proof.Machine
end

section
/-! PROOFS. A failing core and a core due for retirement leave service (R378, R406, R407). -/

namespace Sys2Proof.Machine

section
variable {s : State} {u : DomId}

/-- The core of a domain that a failing unit of a hearth names. -/
def failedCore (u : DomId) (h : HearthId) : Nat := 64 * (u.val / 8) + 8 * (h.val % 8) + u.val % 8

/-- A failing unit, counted and recorded. -/
def failNoted (s : State) (u : DomId) (h : HearthId) (p : Fin 4) : State :=
  makeRecord (satF s PWR_TEST PWR_TEST_FAILS 1) (srcStriker (u.val / 8)) 0x085 [w64 (failedCore u h + (p.val + 1) * 2 ^ 8)]

theorem selfTestFail_eq (u : DomId) (s : State) (h : HearthId) (p : Fin 4) :
    selfTestFail u s (h, p) = retireCore (failNoted s u h p) (failedCore u h) 4 := rfl

theorem failNoted_shows (s : State) (u : DomId) (h : HearthId) (p : Fin 4) : (failNoted s u h p).domains = s.domains ∧
    regsSameBut s (failNoted s u h p) [PWR_TEST] ∧
    getF (failNoted s u h p) PWR_TEST PWR_TEST_FAILS = min 255 (getF s PWR_TEST PWR_TEST_FAILS + 1) := by
  refine ⟨(makeRecord_domains ..).trans (satF_domains ..), ((regsSameBut.refl s _).satF (by decide) _ _).of_regs (makeRecord_regs ..), ?_⟩
  rw [failNoted, getF_congr (makeRecord_regs ..), getF_satF (by decide) (by decide)]
  rfl

theorem selfTestFail_shows (s : State) (u : DomId) (h : HearthId) (p : Fin 4) (hr : coreRetired s (failedCore u h) = false) :
    (selfTestFail u s (h, p)).domains = s.domains ∧ coreRetired (selfTestFail u s (h, p)) (failedCore u h) = true ∧
    getF (selfTestFail u s (h, p)) PWR_TEST PWR_TEST_FAILS = min 255 (getF s PWR_TEST PWR_TEST_FAILS + 1) ∧
    flag (selfTestFail u s (h, p)) DEV_STATUS DEV_STATUS_DEGRADED = true := by
  obtain ⟨hdoms, hregs, hfails⟩ := failNoted_shows s u h p
  have hi : failedCore u h < 128 := by
    have := u.isLt
    have := h.isLt
    unfold failedCore
    omega
  have hne := retireAddr_ne (k := failedCore u h / 32) (by omega) (.inr (.inr (.inr (.inl rfl))) : PWR_TEST = DEV_STATUS ∨
    PWR_TEST = SURV_STATUS ∨ PWR_TEST = SURV_CNT2 ∨ PWR_TEST = PWR_TEST ∨ _)
  have hr' : coreRetired (failNoted s u h p) (failedCore u h) = false := (coreRetired_congr_regs hregs (by simp [hne])).trans hr
  have hret := retired_retireCore hr' 4
  rw [selfTestFail_eq]
  refine ⟨hret.domains.trans hdoms, ?_, ?_, hret.degraded⟩
  · rw [hret.bits _ hi]
    simp
  · have hout : PWR_TEST ∉ [DEV_CORE_RETIRED (failedCore u h / 32), DEV_STATUS, SURV_STATUS, SURV_CNT2] := by
      simp only [List.mem_cons, hne.symm, false_or]
      decide
    rw [hret.regs.getF hout, hfails]

theorem selfTest_failed (hz : sized s = true) (hq : quenched s = false) (hd : domState s u = 3) (ht : (domainAt s u).testing = true)
    (hw : (domainAt s u).window = none) (h : HearthId) (p : Fin 4) (hr : coreRetired s (failedCore u h) = false) {t : State}
    (heq : t = selfTestComplete s u [(h, p)]) : coreRetired t (failedCore u h) = true ∧ domState t u = 0 ∧
    getF t PWR_TEST PWR_TEST_FAILS = min 255 (getF s PWR_TEST PWR_TEST_FAILS + 1) ∧
    flag t DEV_STATUS DEV_STATUS_DEGRADED = true := by
  obtain ⟨hdoms, hbit, hfails, hdeg⟩ := selfTestFail_shows s u h p hr
  rw [selfTestComplete_eq hq hd ht hw] at heq
  change t = beginOn (putF (selfTestFail u s (h, p)) PWR_TEST PWR_TEST_LASTDOM u) u at heq
  revert hdoms hbit hfails hdeg heq
  generalize selfTestFail u s (h, p) = v
  intro hdoms hbit hfails hdeg heq
  obtain ⟨h0, -, -, hregs, -, hcount⟩ := testEnded_shows (by rw [hdoms, sized_domains hz]) heq
  have hne : ∀ k < 4, DEV_CORE_RETIRED k ∉ [PWR_TEST, DEV_DOM_STATE] := fun k hk => by
    simp [retireAddr_ne hk (.inr (.inr (.inr (.inl rfl))) : PWR_TEST = DEV_STATUS ∨ PWR_TEST = SURV_STATUS ∨ PWR_TEST = SURV_CNT2 ∨
      PWR_TEST = PWR_TEST ∨ _), retireAddr_ne hk (.inr (.inr (.inr (.inr rfl))) : DEV_DOM_STATE = DEV_STATUS ∨ _)]
  refine ⟨?_, h0, hcount.trans hfails, ?_⟩
  · have hlt : failedCore u h / 32 < 4 := by
      have := u.isLt
      have := h.isLt
      unfold failedCore
      omega
    rw [coreRetired_congr_regs hregs (hne _ hlt), hbit]
  · rw [hregs.flag (by decide), hdeg]

theorem selfTest_passed (hz : sized s = true) (hq : quenched s = false) (hd : domState s u = 3) (ht : (domainAt s u).testing = true)
    (hw : (domainAt s u).window = none) {t : State} (heq : t = selfTestComplete s u []) : domState t u = 0 ∧
    (domainAt t u).clearing = true ∧ getF t PWR_TEST PWR_TEST_LASTDOM = u ∧ regsSameBut s t [PWR_TEST, DEV_DOM_STATE] ∧
    t = { s with regs := t.regs, domains := t.domains } := by
  obtain ⟨h1, h2, h3, h4, h5, -⟩ := testEnded_shows (sized_domains hz) (heq.trans (selfTestComplete_eq hq hd ht hw []))
  exact ⟨h1, h2, h3, h4, h5⟩

theorem coreRetireNow_busy {i : Nat} {cause : Nat} (hr : (coreAt s i).retireDue = some cause) (h : coreHoldsTask s i = true) :
    coreRetireNow s i = s := by
  rw [coreRetireNow, hr]
  exact if_pos h

theorem coreRetireNow_free {i : Nat} {cause : Nat} (hr : (coreAt s i).retireDue = some cause) (h : coreHoldsTask s i = false) :
    coreRetireNow s i = retireCore s i cause := by
  rw [coreRetireNow, hr]
  exact if_neg (by simp [h])

theorem retireCore_shows (hz : sized s = true) (i : CoreId) (cause : Nat) (hr : coreRetired s i = false) {t : State}
    (ht : t = retireCore s i cause) : coreRetired t i = true ∧ inService t i = false ∧
    (∀ j : CoreId, j ≠ i → coreRetired t j = coreRetired s j) ∧ flag t DEV_STATUS DEV_STATUS_DEGRADED = true ∧
    (coreAt t i).retireDue = none := by
  have hret := retired_retireCore hr cause
  rw [← ht] at hret
  have hbit : coreRetired t i = true := by
    rw [hret.bits _ i.isLt]
    simp
  refine ⟨hbit, by simp [inService, hbit], fun j hj => ?_, hret.degraded, ?_⟩
  · have hne : j.val ≠ i.val := fun h => hj (Fin.ext h)
    rw [hret.bits _ j.isLt]
    simp [hne]
  · rw [coreAt_congr hret.cores, coreAt_modCore (core_lt hz i)]

end

/-- Settles O23, from what each command of a domain and the retirement of a core leave. -/
theorem domainsAndRetirement : Obligations.DomainsAndRetirement := by
  refine ⟨fun u s hz => ⟨fun c d hc hq ht hd => ⟨fun hs => ?_, fun hs hh => ?_⟩, fun hq ht hd => ?_, fun c d hc hw => ?_,
    fun d hq hd hi ht hp => ?_, fun hc hq hj => ?_, fun hq hd ht hw => ⟨?_, fun h p i hi hr => ?_⟩⟩,
    fun i cause s hz hr => ⟨fun h => ?_, fun h hnot => ?_⟩⟩
  · have hgo : domCommand s u d = domMoved s u domLeaving fun x => { x with target := some d } := by
      rw [domCommand_free hq ht, Leaves.startCmd_on hc hd, if_neg (by simp [hs]), beginLeaving_eq]
    obtain ⟨h1, h2⟩ := domMoved_shows u.isLt (sized_domains hz) (by decide : domLeaving < 4) fun x => { x with target := some d }
    exact Answers.of (Leaves.exec hc) hgo ⟨domMoved_domOnly .., h1, h2⟩
  · have hgo : domCommand s u d = holdCmd s u d := by
      rw [domCommand_free hq ht, Leaves.startCmd_on hc hd, if_pos hs]
    exact Answers.of (Leaves.exec hc) hgo (holdCmd_shows hz hd hh d rfl)
  · have hgo : domCommand s u .on = beginOn s u := (domCommand_free hq ht .on).trans (if_pos hd)
    obtain ⟨h1, h2⟩ := domMoved_shows u.isLt (sized_domains hz) (by decide : domOn < 4) fun d =>
      { d with target := none, testing := false, window := none, clearing := true }
    exact Answers.of rfl (hgo.trans (beginOn_eq s u)) ⟨domMoved_domOnly .., h1, h2⟩
  · have he : exec c s = .next (domCommand s u d) := by
      rcases hc with ⟨rfl, rfl⟩ | ⟨rfl, rfl⟩ | ⟨rfl, rfl⟩ <;> rfl
    exact Answers.of he (domCommand_waits hw d) ⟨rfl, mem_addPending (by rw [sized_domains hz]; exact u.isLt) d⟩
  · exact Answers.of rfl rfl (domainLeft_shows hz hq hd hi ht hp rfl)
  · exact Answers.of rfl rfl (clearDone_shows hz hc hq hj rfl)
  · exact Answers.of rfl rfl (selfTest_passed hz hq hd ht hw rfl)
  · subst hi
    exact Answers.of rfl rfl (selfTest_failed hz hq hd ht hw h p hr rfl)
  · exact Answers.of rfl (coreRetireNow_busy hr h) rfl
  · exact Answers.of rfl (coreRetireNow_free hr h) (retireCore_shows hz i cause hnot rfl)

end Sys2Proof.Machine
end

section
/-! PROOFS. Margin windows, trim codes and the weld (R34, R48 to R54). -/

namespace Sys2Proof.Machine

/-! ## Sweeps (R50, Table 2-5) -/

section
variable {s : State}

/-- The code of Table 2-5, from the code before, the factory code, the smallest slack and the count of high sweeps before. -/
def sweptCode (code factory slack high : Nat) : Nat :=
  if slack < 2 then min 15 (code + 2) else if slack < 6 then min 15 (code + 1)
  else if 15 ≤ slack ∧ 4 ≤ high + 1 then max factory (code - 1) else code

theorem trimDecision_eq (code factory slack high : Nat) :
    trimDecision code factory slack (highCount high slack) = sweptCode code factory slack high := by
  unfold trimDecision highCount sweptCode
  split_ifs <;> omega

/-- Only what a sweep's records need changed: those that wait, and whether the trim record of the flash is out of date. -/
def RecordsOnly (s t : State) : Prop := t = { s with boot := t.boot, recorder := t.recorder }

theorem RecordsOnly.trans {t u : State} (a : RecordsOnly s t) (b : RecordsOnly t u) : RecordsOnly s u := by
  rw [RecordsOnly, b, a]

theorem recordsOnly_makeRecord (s : State) (src typ : Nat) (b : List Word64) : RecordsOnly s (makeRecord s src typ b) := by
  rw [RecordsOnly, makeRecord_eq]

theorem RecordsOnly.makeRecord_if {c : Prop} [Decidable c] {t : State} (h : RecordsOnly s t) (src typ : Nat) (b : List Word64) :
    RecordsOnly s (if c then makeRecord t src typ b else t) := by
  split
  · exact h.trans (recordsOnly_makeRecord ..)
  · exact h

theorem recordsOnly_trimRecords (s : State) (src unit old new replica slack : Nat) :
    RecordsOnly s (trimRecords s src unit old new replica slack) := by
  unfold trimRecords
  have hdirty : ∀ v : State, RecordsOnly v { v with boot := { v.boot with trimDirty := true } } := fun _ => rfl
  have hfirst : RecordsOnly s (if slack < 2 then makeRecord s src 0x082 (trimBodyWords s unit old new replica slack) else s) :=
    RecordsOnly.makeRecord_if (t := s) rfl ..
  refine RecordsOnly.makeRecord_if ?_ ..
  revert hfirst
  generalize (if slack < 2 then makeRecord s src 0x082 (trimBodyWords s unit old new replica slack) else s) = v
  intro hfirst
  split
  · exact (hfirst.trans (hdirty v)).trans (recordsOnly_makeRecord ..)
  · exact hfirst

/-- Cores due for retirement leave the rest as it was. -/
def CoresOnly (s t : State) : Prop := t = { s with cores := t.cores }

theorem coresOnly_dueRetire (cs : List (Nat × Nat)) (cause : Nat) (s : State) :
    CoresOnly s (cs.foldl (fun s p => dueRetire s (replicaCore p.1) cause) s) := by
  induction cs generalizing s with
  | nil => rfl
  | cons p cs ih =>
    rw [CoresOnly, List.foldl_cons, ih]
    rfl

/-- The domain of a sweep, with its code and its count. -/
def sweptDomain (d : Domain) (u slack : Nat) : Domain :=
  { d with code := trimDecision d.code (Config.factoryCode u) slack (highCount d.high slack), high := highCount d.high slack
           exhausted := d.exhausted || 8 < trimDecision d.code (Config.factoryCode u) slack (highCount d.high slack) }

/-- A sweep of a domain, with its records. -/
def domSwept (s : State) (u : Nat) (ps : List (Nat × Nat)) (r m : Nat) : State :=
  trimRecords (setDomain (noteSlacks s ps) u (sweptDomain (domainAt s u) u m)) (srcStriker (u / 8)) u (domainAt s u).code
    (trimDecision (domainAt s u).code (Config.factoryCode u) m (highCount (domainAt s u).high m)) r m

theorem trimDomain_eq {u : Nat} {ps : List (Nat × Nat)} {r m : Nat} (hs : smallestSlack ps = some (r, m)) : trimDomain s u ps =
    if (domainAt s u).code = 15 then (ps.filter (·.2 < 2)).foldl (fun s p => dueRetire s (replicaCore p.1) 2) (domSwept s u ps r m)
    else domSwept s u ps r m := by
  rw [trimDomain, hs]
  rfl

/-- What a sweep of a domain leaves. -/
structure SweepShown (s t : State) (u m : Nat) : Prop where
  domains : t.domains = s.domains.set u (sweptDomain (domainAt s u) u m)
  mem : t.mem = s.mem
  time : t.time = s.time

theorem sweepShown_trimDomain {u : Nat} {ps : List (Nat × Nat)} {r m : Nat} (hs : smallestSlack ps = some (r, m)) :
    SweepShown s (trimDomain s u ps) u m := by
  have hswept : SweepShown s (domSwept s u ps r m) u m := by
    rw [domSwept, recordsOnly_trimRecords]
    exact ⟨rfl, rfl, rfl⟩
  rw [trimDomain_eq hs]
  revert hswept
  generalize domSwept s u ps r m = v
  intro hswept
  split
  · rw [coresOnly_dueRetire]
    exact ⟨hswept.domains, hswept.mem, hswept.time⟩
  · exact hswept

/-! ## Windows (R48) -/

theorem windowNatural_opens {u : DomId} (hd : domState s u = 0) (ht : inTransition s u = false) (hw : (domainAt s u).window = none)
    (hq : quenched s = false) (hi : domainIdle s u = true) (ha : domainAnvilsIdle s u = true) :
    windowNatural s u = modDomain s u fun d => { d with window := some false } := if_pos (by simp [hd, ht, hw, hq, hi, ha, domOn])

theorem windowForced_leaves {u : DomId} (hd : domState s u = 0) (ht : inTransition s u = false) (hw : (domainAt s u).window = none)
    (hq : quenched s = false) (hn : 60000000000 ≤ s.time.ns - (domainAt s u).lastWindow) (hr : testRuns s (u / 8) = false)
    (hs : wouldStrand s u = false) : windowForced s u = domMoved s u domLeaving fun x => { x with target := some .window } := by
  have hr' : testRuns s (u.val / 8) = false := hr
  have hoff : ¬ domState s u = domOff := by rw [hd]; decide
  have hon : ¬ (domState s u != domOn) = true := by simp [hd, domOn]
  have hn' : 60000000000 ≤ s.now - (domainAt s u).lastWindow := hn
  have hgo : windowForced s u = domCommand s u .window := if_pos (by simpa [hd, hw, domOn] using hn')
  have hstart : startCmd s u .window = beginLeaving s u .window := (if_neg (by rw [hr']; exact Bool.false_ne_true)).trans
    ((if_neg hoff).trans ((if_neg hon).trans (if_neg (by simp [hs]))))
  rw [hgo, domCommand_free hq ht, hstart, beginLeaving_eq]

theorem domOnly_modDomain (u : DomId) (f : Domain → Domain) : domOnly s (modDomain s u f) u :=
  ⟨rfl, .refl s _, fun _ h => ⟨domState_modDomain .., domainAt_modDomain_ne h ..⟩⟩

/-- A domain after its window, swept. -/
def windowClosed (d : Domain) (u m now : Nat) : Domain := { (sweptDomain d u m) with lastWindow := now, window := none }

theorem windowComplete_shows {u : DomId} (hz : sized s = true) {slacks : List (BitVec 5)} {r m : Nat} (hw : (domainAt s u).window = some false)
    (hq : quenched s = false) (hp : (domainAt s u).pending = [])
    (hs : smallestSlack ((domReplicas u).zip (slacks.map (·.toNat))) = some (r, m)) {t : State} (ht : t = windowComplete s u slacks) :
    domainAt t u = windowClosed (domainAt s u) u m s.time.ns ∧ memSame s t := by
  have hshow := sweepShown_trimDomain (s := s) (u := u) hs
  have hgo : windowComplete s u slacks = takePending (modDomain (sweepDomain s u slacks) u fun d => { d with window := none }) u := by
    rw [windowComplete, hw]
    exact (if_neg (by simp [hq])).trans (if_neg (by simp))
  rw [hgo, sweepDomain] at ht
  revert ht hshow
  generalize trimDomain s u ((domReplicas u).zip (slacks.map (·.toNat))) = v
  intro ht hshow
  have hlen : v.domains.length = 16 := by rw [hshow.domains, List.length_set, sized_domains hz]
  have hlt : u.val < v.domains.length := by rw [hlen]; exact u.isLt
  have hv : domainAt v u = sweptDomain (domainAt s u) u m := by
    rw [domainAt, hshow.domains]
    simp [List.getD_eq_getElem?_getD, sized_domains hz]
  have hd : domainAt (modDomain (modDomain v u fun d => { d with lastWindow := s.now }) u fun d => { d with window := none }) u =
      windowClosed (domainAt s u) u m s.time.ns := by
    rw [domainAt_modDomain (by rw [modDomain_count]; exact hlt), domainAt_modDomain hlt, hv]
    rfl
  have hmem : (modDomain (modDomain v u fun d => { d with lastWindow := s.now }) u fun d => { d with window := none }).mem = s.mem :=
    hshow.mem
  have hpend : (windowClosed (domainAt s u) u m s.time.ns).pending = [] := hp
  revert ht hd hmem
  generalize modDomain (modDomain v u fun d => { d with lastWindow := s.now }) u (fun d => { d with window := none }) = w
  intro ht hd hmem
  have hsame : takePending w u = w := by
    rw [takePending, hd, hpend]
    rfl
  rw [ht, hsame]
  exact ⟨hd, memSame_of_mem hmem⟩

/-! ## The weld (R34, R54) -/

/-- A direction after a sweep. -/
def sweptWeld (d : WeldDir) (w m now : Nat) : WeldDir :=
  { d with code := trimDecision d.code (Config.factoryCode (16 + w)) m (highCount d.high m), high := highCount d.high m
           exhausted := d.exhausted || 8 < trimDecision d.code (Config.factoryCode (16 + w)) m (highCount d.high m), lastWindow := now }

theorem weldDir_setWeldDir (s : State) (w : Fin 2) (d : WeldDir) : weldDir (setWeldDir s w d) w = d ∧
    weldDir (setWeldDir s w d) (1 - w) = weldDir s (1 - w) := by
  match w with
  | 0 => exact ⟨rfl, rfl⟩
  | 1 => exact ⟨rfl, rfl⟩

theorem weldDir_congr {t : State} (h : t.weld = s.weld) (w : Nat) : weldDir t w = weldDir s w := by rw [weldDir, h, weldDir]

theorem weldMeasure_shows (w : Fin 2) {slacks : List (BitVec 5)} {r m : Nat} (hup : s.weld.up = true) (hc : (weldDir s w).code ≠ 15)
    (hs : smallestSlack ((weldReplicas w).zip (slacks.map (·.toNat))) = some (r, m)) {t : State} (ht : t = weldMeasure s w slacks) :
    weldDir t w = sweptWeld (weldDir s w) w m s.time.ns ∧ weldDir t (1 - w) = weldDir s (1 - w) ∧ memSame s t := by
  have hgo : weldMeasure s w slacks = trimRecords (setWeldDir (noteSlacks s ((weldReplicas w).zip (slacks.map (·.toNat)))) w
      (sweptWeld (weldDir s w) w m s.time.ns)) srcWeld (16 + w) (weldDir s w).code
      (sweptWeld (weldDir s w) w m s.time.ns).code r m := by
    rw [weldMeasure]
    dsimp only
    rw [hs]
    exact (if_neg (by simp [hup])).trans (if_neg (by simp [hc]))
  have hset := weldDir_setWeldDir (noteSlacks s ((weldReplicas w).zip (slacks.map (·.toNat)))) w (sweptWeld (weldDir s w) w m s.time.ns)
  have hmem : (setWeldDir (noteSlacks s ((weldReplicas w).zip (slacks.map (·.toNat)))) w (sweptWeld (weldDir s w) w m s.time.ns)).mem =
      s.mem := rfl
  have hother : weldDir (noteSlacks s ((weldReplicas w).zip (slacks.map (·.toNat)))) (1 - w) = weldDir s (1 - w) := rfl
  rw [hgo] at ht
  rw [hother] at hset
  revert ht hset hmem
  generalize setWeldDir (noteSlacks s ((weldReplicas w).zip (slacks.map (·.toNat)))) w (sweptWeld (weldDir s w) w m s.time.ns) = v
  intro ht hset hmem
  have hrec := recordsOnly_trimRecords v srcWeld (16 + w) (weldDir s w).code (sweptWeld (weldDir s w) w m s.time.ns).code r m
  rw [← ht] at hrec
  have hw : t.weld = v.weld := by rw [hrec]
  have hm : t.mem = v.mem := by rw [hrec]
  exact ⟨(weldDir_congr hw _).trans hset.1, (weldDir_congr hw _).trans hset.2, memSame_of_mem (hm.trans hmem)⟩

theorem weldRetry_ok (w : Fin 2) (hup : s.weld.up = true) : weldRetry s w true = setWeldDir s w { (weldDir s w) with fails := 0 } :=
  (if_neg (by simp [hup])).trans (if_pos rfl)

/-- A transfer that failed, counted. -/
def weldMissed (s : State) (w : Nat) : State :=
  setWeldDir s w { (weldDir s w) with fails := (weldDir s w).fails + 1, retries := (weldDir s w).retries + 1 }

theorem weldRetry_failed (w : Fin 2) (hup : s.weld.up = true) : weldRetry s w false =
    if 16 ≤ (weldDir s w).fails + 1 then failWeld (weldMissed s w) w 1 else weldMissed s w :=
  (if_neg (by simp [hup])).trans (if_neg (by decide))

theorem flag_serviceStanding {g : Fld} (hg : g.lo ≤ g.hi) (hg32 : g.hi < 32) (h : DEV_STATUS_SVC_REQ.apart g = true) (s : State) :
    flag (serviceStanding s) DEV_STATUS g = flag s DEV_STATUS g := by
  have hpin : ∀ v : State, (requestService v).regs = (putF v DEV_STATUS DEV_STATUS_SVC_REQ 1).regs := fun _ => rfl
  rw [serviceStanding, flag_congr (hpin _), flag_putF_apart (by decide) hg hg32 h, flag_putF_ne (by decide)]

/-- The state that a wedge leaves, where the device was not wedged. -/
theorem wedge_eq (h : flag s DEV_STATUS DEV_STATUS_WEDGED = false) (cause unit row : Nat) : wedge s cause unit row =
    selfFence (serviceStanding (putF (makeRecord s srcSmith 0x087 [wedgeCause cause unit row]) DEV_STATUS DEV_STATUS_WEDGED 1)) :=
  if_neg (by simp [h])

theorem flag_wedge (s : State) (cause unit row : Nat) : flag (wedge s cause unit row) DEV_STATUS DEV_STATUS_WEDGED = true := by
  cases h : flag s DEV_STATUS DEV_STATUS_WEDGED
  · rw [wedge_eq h, selfFence, flag_putF_ne (by decide), flag_serviceStanding (by decide) (by decide) (by decide)]
    exact flag_putF_one (by decide) (by decide) ..
  · have hstay : wedge s cause unit row = s := if_pos h
    rw [hstay, h]

theorem flag_wedge_weld (s : State) (cause unit row : Nat) :
    flag (wedge s cause unit row) DEV_STATUS DEV_STATUS_WELD_UP = flag s DEV_STATUS DEV_STATUS_WELD_UP := by
  cases h : flag s DEV_STATUS DEV_STATUS_WEDGED
  · rw [wedge_eq h, selfFence, flag_putF_ne (by decide), flag_serviceStanding (by decide) (by decide) (by decide),
      flag_putF_apart (by decide) (by decide) (by decide) (by decide), flag_congr (makeRecord_regs ..)]
  · exact congrArg (flag · DEV_STATUS DEV_STATUS_WELD_UP) (if_pos h : wedge s cause unit row = s)

/-- The weld down, before the device wedges. -/
def weldDown (s : State) (dir cause : Nat) : State :=
  putF { makeRecord s srcWeld 0x088 [w64 (dir + cause * 2 ^ 8)] with
    weld := { (makeRecord s srcWeld 0x088 [w64 (dir + cause * 2 ^ 8)]).weld with up := false, failed := true } }
    DEV_STATUS DEV_STATUS_WELD_UP 0

theorem failWeld_shows (s : State) (dir cause : Nat) : (failWeld s dir cause).weld.up = false ∧ (failWeld s dir cause).weld.failed = true ∧
    flag (failWeld s dir cause) DEV_STATUS DEV_STATUS_WELD_UP = false ∧ flag (failWeld s dir cause) DEV_STATUS DEV_STATUS_WEDGED = true := by
  have hgo : failWeld s dir cause = wedge (weldDown s dir cause) 2 dir 0 := rfl
  have hweld : (wedge (weldDown s dir cause) 2 dir 0).weld = (weldDown s dir cause).weld := by rw [(statusOnly_wedge ..).frame]
  have hdown : (weldDown s dir cause).weld.up = false ∧ (weldDown s dir cause).weld.failed = true := by
    rw [weldDown, putF_weld]
    exact ⟨rfl, rfl⟩
  rw [hgo, hweld, flag_wedge_weld]
  exact ⟨hdown.1, hdown.2, flag_putF_zero (by decide) (by decide) .., flag_wedge ..⟩

theorem timeCorrection_up (hup : s.weld.up = true) :
    timeCorrection s = { s with time := { s.time with half1 := s.time.ns, tracking := true } } := if_pos hup

/-! ## The trim record (R52) -/

theorem trimRecordWrite_due {t0 : Nat} (hd : s.boot.trimDirty = true) (hb : s.boot.slotBusy = none) (ha : s.boot.trimAt = some t0)
    (h : 3600000000000 ≤ s.time.ns - t0) {t : State} (ht : t = trimRecordWrite s) : t = { s with boot := t.boot } ∧
    t.boot.trimDirty = false ∧ t.boot.trimAt = some s.time.ns := by
  have h' : 3600000000000 ≤ s.now - t0 := h
  have hwrite : writeRecord s areaTrim (trimBody s) = { s with boot := (writeRecord s areaTrim (trimBody s)).boot } := rfl
  have hgo : trimRecordWrite s = { writeRecord s areaTrim (trimBody s) with
      boot := { (writeRecord s areaTrim (trimBody s)).boot with trimDirty := false, trimAt := some s.now } } := by
    rw [trimRecordWrite]
    exact if_pos (by simp [hd, hb, ha, h'])
  rw [hgo, hwrite] at ht
  subst ht
  exact ⟨rfl, rfl, rfl⟩

theorem trimRecordWrite_early {t0 : Nat} (ha : s.boot.trimAt = some t0) (h : s.time.ns - t0 < 3600000000000) : trimRecordWrite s = s := by
  have h' : ¬ 3600000000000 ≤ s.now - t0 := not_le.2 h
  rw [trimRecordWrite]
  exact if_neg (by simp [ha, h'])

end

/-- Settles O26, from what a sweep, a transfer of the weld and the trim record leave. -/
theorem trimAndWeld : Obligations.TrimAndWeld := by
  refine ⟨fun s hz => ⟨fun u hd ht hw hq => ⟨fun hi ha => ?_, fun hn hr hs => ?_⟩, fun u slacks r m hw hq hp hs => ?_,
    fun w slacks r m hup hc hs => ?_, fun t0 hd hb ha => ⟨fun h => ?_, fun h => ?_⟩⟩,
    fun w s hup => ⟨?_, fun hf => ?_, fun hf => ?_, ?_⟩⟩
  · have hlen : u.val < s.domains.length := by rw [sized_domains hz]; exact u.isLt
    exact Answers.of rfl (windowNatural_opens hd ht hw hq hi ha) ⟨domOnly_modDomain u _, domainAt_modDomain hlen _⟩
  · obtain ⟨h1, h2⟩ := domMoved_shows u.isLt (sized_domains hz) (by decide : domLeaving < 4) fun x => { x with target := some .window }
    exact Answers.of rfl (windowForced_leaves hd ht hw hq hn hr hs) ⟨domMoved_domOnly .., h1, h2⟩
  · obtain ⟨hd, hmem⟩ := windowComplete_shows hz hw hq hp hs rfl
    refine Answers.of rfl rfl ?_
    rw [hd]
    exact ⟨rfl, rfl, trimDecision_eq .., rfl, hmem⟩
  · obtain ⟨hd, hother, hmem⟩ := weldMeasure_shows w hup hc hs rfl
    refine Answers.of rfl rfl ?_
    rw [hd]
    exact ⟨trimDecision_eq .., rfl, hother, hmem⟩
  · exact Answers.of rfl rfl (trimRecordWrite_due hd hb ha h rfl)
  · exact Answers.of rfl (trimRecordWrite_early ha h) rfl
  · exact Answers.of rfl (weldRetry_ok w hup) ⟨rfl, (weldDir_setWeldDir ..).1, (weldDir_setWeldDir ..).2⟩
  · exact Answers.of rfl ((weldRetry_failed w hup).trans (if_neg (by omega)))
      ⟨rfl, (weldDir_setWeldDir ..).1, (weldDir_setWeldDir ..).2⟩
  · exact Answers.of rfl ((weldRetry_failed w hup).trans (if_pos (by omega))) (failWeld_shows ..)
  · exact Answers.of rfl (timeCorrection_up hup) rfl

end Sys2Proof.Machine
end

section
/-! PROOFS. Whenever the fabric settles, a member whose connection is in error is reported once (R307), by a survival line that the
device writes into its own memory when it is the first of its group. `fabCalm` does not say that no such report is due, so an
event of a port, of the line protocol or of a connection may write memory and note the report. -/

namespace Sys2Proof.Machine

/-- Nodes 5 and 9, of which this device is the first. -/
def pairGroup : Group :=
  { index := 0, gen := 0, rank := 0, nodes := [5, 9], conns := [], stage := 0, nextInst := 0, outq := [], sent := [], returned := []
    taken := [], last := none, aborted := [] }

/-- Node 5, joined, with port 3 up and the given members; the loss of node 9 is not yet reported. -/
def unreportedState (members : List (Nat × Nat)) : State :=
  let s := putF (putF (putF .reset FAB_NODE FAB_NODE_NODE 5) FAB_NODE FAB_NODE_JOINED 1) (PRT_STATUS 3) PRT_STATUS_LINK_UP 1
  { s with ylp := { s.ylp with members, ingressCap := 65536 }, time := ⟨20000000, 0, 0, false⟩
           coll := { s.coll with groups := [pairGroup], lost := [(9, false)] } }

/-- The first word of the line that reports the loss. -/
def reportWordAfter (c : Instr) (s : State) : Option Word64 :=
  match exec c s with
  | .next t => some (readWord t 0x100280)
  | _ => none

theorem reportWordAfter_of_memSame {c : Instr} {s : State} {P : State → Prop} (h : Answers c s fun t => memSame s t ∧ P t) :
    reportWordAfter c s = some (readWord s 0x100280) := by
  obtain ⟨t, he, hmem, -⟩ := h
  rw [reportWordAfter, he]
  exact congrArg some (readWord_ext fun _ _ => hmem _)

/-- The members lost, with what is reported of them. -/
def lostAfter (c : Instr) (s : State) : Option (List (Nat × Bool)) :=
  match exec c s with
  | .next t => some t.coll.lost
  | _ => none

theorem lostAfter_of_coll {c : Instr} {s : State} {P : State → Prop} (h : Answers c s P) (hP : ∀ t, P t → t.coll = s.coll) :
    lostAfter c s = some s.coll.lost := by
  obtain ⟨t, he, ht⟩ := h
  rw [lostAfter, he]
  exact congrArg (some ·.lost) (hP t ht)

/-- Refutes O31, in its clause on a port that goes down: with no member, the report of a lost member still changes more than
registers, records, ports and connections. -/
theorem not_portEvents : ¬ Obligations.PortEvents := by
  unfold Obligations.PortEvents
  intro h
  obtain ⟨-, -, -, hdown, -⟩ := h 3 (unreportedState []) (by decide +kernel)
  have hcalm := hdown (.portDisable 3) 0 (.inl rfl) (by decide +kernel) (by decide +kernel) (by decide +kernel) (by decide +kernel)
  have hlost := lostAfter_of_coll hcalm fun t ht => by
    obtain ⟨-, -, -, -, -, -, hframe, -⟩ := ht
    rw [hframe rfl]
  exact absurd hlost (by decide +kernel)

/-- A frame of node 9 to node 5, sealed. -/
def frameOfNine (kind op : Nat) : YlpFrame :=
  sealFrame { blankFrame .reset 5 kind op with src := 9, seq := 3, ack := 2, eth := ylpEth (unreportedState []) 5 3 }

/-- Refutes O32, in its clause on PROBE: taking the frame, the device reports the lost member in its own memory. -/
theorem not_ylpRequests : ¬ Obligations.YlpRequests := by
  unfold Obligations.YlpRequests
  intro h
  obtain ⟨-, -, hprobe, -⟩ := h 3 (frameOfNine 0 0x07) (unreportedState [(9, 0)]) 0 (by decide +kernel) (by decide +kernel)
    (by decide +kernel) (by decide +kernel) (by decide +kernel) (by decide +kernel)
  exact absurd (reportWordAfter_of_memSame (hprobe (by decide +kernel) (by decide +kernel))) (by decide +kernel)

/-- A destination of node 9 with what stands towards it. -/
def dstNine (rs : List TxReq) (failed : BitVec 6) : TxDst :=
  { newDst (unreportedState [(9, 0)]) 9 with next := 4, acked := 3, unacked := rs, failed }

/-- The same device, with one destination. -/
def sendingState (d : TxDst) : State :=
  { unreportedState [(9, 0)] with ylp := { (unreportedState [(9, 0)]).ylp with tx := [d] } }

/-- Refutes O33, in its clause on the timer of PROBE, which reports lost members too. -/
theorem not_ylpTimersAndDiscards : ¬ Obligations.YlpTimersAndDiscards := by
  unfold Obligations.YlpTimersAndDiscards
  intro ⟨h, _⟩
  obtain ⟨-, -, htimers, -⟩ := h 9 (sendingState (dstNine [] 2)) (by decide +kernel) (by decide +kernel)
  obtain ⟨-, -, -, hprobe, -⟩ := htimers (dstNine [] 2) rfl (by decide +kernel) (by decide +kernel)
  have hsame := hprobe 3 (by decide) (by decide +kernel) (by decide +kernel) (by decide +kernel) (by decide +kernel) (by decide +kernel)
    (by decide +kernel)
  exact absurd (reportWordAfter_of_memSame hsame) (by decide +kernel)

/-- A read of node 9, outstanding. -/
def readOfNine : TxReq := ⟨3, frameOfNine 0 0x01, .line, 0, 0, 0, 0, 0, false⟩

/-- Refutes O34, in its clause on BUSY. -/
theorem not_ylpReplies : ¬ Obligations.YlpReplies := by
  unfold Obligations.YlpReplies
  intro h
  obtain ⟨-, -, hbusy, -⟩ := h 3 (frameOfNine 1 0x88) (sendingState (dstNine [readOfNine] 0)) (dstNine [readOfNine] 0) readOfNine
    (by decide +kernel) (by decide +kernel) (by decide +kernel) (by decide +kernel)
  have hsame := hbusy ⟨rfl, by decide +kernel, rfl, rfl, rfl, by decide +kernel, rfl, by decide +kernel, by decide +kernel⟩ (by decide +kernel)
  exact absurd (reportWordAfter_of_memSame hsame) (by decide +kernel)

/-- A connection with nothing outstanding. -/
def idleConn : Conn :=
  { index := 4, entry := [], error := false, port := 3, spsn := 0, epsn := 0, rate := 1, lastCut := none, lastCnp := none
    lastUp := 0, ops := [], waitq := [], retries := 0, sentAt := 0, wrPtr := 0, wrLeft := 0 }

/-- The same device, with one connection. -/
def connectedState : State := { unreportedState [] with conns := [idleConn] }

/-- Refutes O35, in its clause on DEACT. -/
theorem not_roceConnections : ¬ Obligations.RoceConnections := by
  unfold Obligations.RoceConnections
  intro h
  obtain ⟨-, -, -, -, -, -, -, hacts⟩ := h 3 ⟨0, 0, 0, 0, 0, [], false, true, {}, false, 4791, .listed⟩ connectedState idleConn 0
    (by decide +kernel) rfl
  obtain ⟨-, -, hdeact⟩ := hacts 1 4 (by decide +kernel)
  have hend := hdeact (by decide +kernel) rfl rfl (by decide +kernel) (by decide +kernel)
  have hlost := lostAfter_of_coll hend fun t ht => by
    rw [ht.1]
    exact putF_coll connectedState FAB_CONN_CTL FAB_CONN_CTL_INDEX 4
  exact absurd hlost (by decide +kernel)

end Sys2Proof.Machine
end

section
/-! PROOFS. The step end contributes no totals for a layer of which the member owns no rows (R231, R235). -/

namespace Sys2Proof.Machine

/-- FCOLL of the step end with its descriptor at the start of core store. -/
def stepEndFields : Fields :=
  { pneg := false, pred := 0, sigen := false, sigc := 0, mod := 0x20, d := 0, a := 0, b := 0, c := 0, sub := 0, imm := 0 }

/-- A job of one layer, whose entry in memory gives it no rows. -/
def layerJob : Job :=
  { desc := [0, 0, 0, 0, w64 (2 ^ 48)], stat := .running, step := 0, item := none, endItem := none, fwdWide := [], agWide := [], clean := []
    vector := [], dramRes := 0, csRes := 0, ratio := false, widenDue := false, relItem := none, stepEnd := 0, skipUpdate := false
    started := true, idleRep := false, payload := [], peaks := [], piths := [], vecAt := 0, inputs := [] }

/-- Core 0 runs; the payload at 0x8000 holds 7 as the sum of the layer, of which this member owns nothing. -/
def unownedState : State :=
  let s := modCore .reset 0 fun c => { c with ctx0 := { c.ctx0 with stat := .running } }
  let s := [(csBase 0, 0x0C62 * 2 ^ 48), (csBase 0 + 16, 0x8000), (0x8000, 0x0C63 * 2 ^ 48 + 2 ^ 32), (0x8040, 7)].foldl
    (fun t p => writeWord t p.1 (w64 p.2)) s
  { s with job := some layerJob, coll := { s.coll with groups := [pairGroup] } }

/-- The payload of the instance of group 0 after a command. -/
def instWorkAfter (c : Instr) (s : State) : Option (List Word64) :=
  match exec c s with
  | .next t => (instOf t 0).map (·.work)
  | _ => none

theorem unowned_clean (a n : Nat) : clean unownedState a n := fun _ _ _ => rfl

/-- Refutes O18, in its clause on the step end: for a layer of which the member owns no rows, the instance holds an empty entry where
the payload in memory holds the member's sum. -/
theorem not_collectivesStart : ¬ Obligations.CollectivesStart := by
  unfold Obligations.CollectivesStart
  intro h
  obtain ⟨-, -, hstep, -⟩ := h 0 0 stepEndFields unownedState pairGroup (by decide +kernel)
  have hgo := hstep (fcollForm 0 0 4 stepEndFields) (readWords unownedState (csBase 0) 8) 46 rfl (by decide +kernel) (by decide +kernel)
    (by decide +kernel) (by decide +kernel) (by decide +kernel) (by decide +kernel) (by decide +kernel) (by decide +kernel) (by decide +kernel)
    ⟨by decide +kernel, by decide, by decide +kernel, unowned_clean _ _⟩ ⟨by decide +kernel, by decide, by decide +kernel, unowned_clean _ _⟩
  obtain ⟨t, he, -, hinst⟩ := hgo
  have hwork : instWorkAfter (.fcollStepEnd 0 0 stepEndFields) unownedState =
      some (readWords unownedState (descSrc (readWords unownedState (csBase 0) 8)) 46) := by
    rw [instWorkAfter, he]
    change (instOf t pairGroup.index).map (·.work) = _
    obtain ⟨y, hy, heq⟩ := Option.map_eq_some_iff.1 hinst
    rw [hy]
    exact congrArg (fun p => some p.2.2.2) heq
  exact absurd hwork (by decide +kernel)

end Sys2Proof.Machine
end

section
/-! PROOFS. The life of a task on a core: its start, its completion and its return (R30, R141, R148, R178, R206, R221). -/

namespace Sys2Proof.Machine

/-! ## Cores and ready queues -/

section
variable {s t : State}

theorem coreAndReady_of {i : CoreId} {c : Core} (hz : sized s = true)
    (ht : t = { s with cores := s.cores.set i c, hearths := t.hearths }) : coreAndReady s t i ∧ coreAt t i = c := by
  have hcore : coreAt t i = c := by
    rw [ht]
    simp [coreAt, List.getD_eq_getElem?_getD, core_lt hz i]
  exact ⟨by rw [coreAndReady, hcore]; exact ht, hcore⟩

theorem hearth_lt (hz : sized s = true) {h : Nat} (hh : h < 16) : h < s.hearths.length := by rw [(sized_iff.1 hz).2.2.1]; exact hh

theorem hearthAt_modHearth_ne {h j : Nat} (hj : j ≠ h) (f : Hearth → Hearth) : hearthAt (modHearth s h f) j = hearthAt s j := by
  simp [hearthAt, modHearth, setHearth, List.getD_eq_getElem?_getD, List.getElem?_set_ne hj.symm]

/-- A change of the hearths that leaves what `P` says of a ready queue leaves every ready queue. -/
theorem ready_modHearth {f : Hearth → Hearth} (hf : ∀ x, (f x).ready = x.ready) (h j : Nat) :
    (hearthAt (modHearth s h f) j).ready = (hearthAt s j).ready := by
  by_cases hj : j = h
  · subst hj
    by_cases hl : j < s.hearths.length
    · rw [hearthAt_modHearth hl, hf]
    · have hsame : (s.hearths.set j (f (hearthAt s j))) = s.hearths := List.set_eq_of_length_le (not_lt.1 hl)
      rw [modHearth, setHearth, hearthAt, hsame, hearthAt]
  · rw [hearthAt_modHearth_ne hj]

theorem clearTask_eq (s : State) (i : Nat) : clearTask s i = modCore s i taskGone := rfl

/-! ## The entry of a task (R221) -/

/-- An entry with one task less. -/
def oneLess (failed : Bool) (e : EntryRun) : EntryRun := ⟨e.idx, e.left - 1, e.failed || failed⟩

theorem entryTaskOver_frame (s : State) (x : Task) (b : Bool) :
    entryTaskOver s x b = { s with hearths := (entryTaskOver s x b).hearths } := by
  unfold entryTaskOver
  split <;> rfl

theorem entryTaskOver_none {x : Task} (h : x.entry = none) (b : Bool) : entryTaskOver s x b = s := by rw [entryTaskOver, h]

theorem entryTaskOver_ready (s : State) (x : Task) (b : Bool) (j : Nat) :
    (hearthAt (entryTaskOver s x b) j).ready = (hearthAt s j).ready := by
  unfold entryTaskOver
  split
  · rfl
  · refine ready_modHearth (f := _) ?_ _ _
    exact fun _ => rfl

theorem taskHearth_lt (ws : List Word64) : taskHearth ws < 16 := bitsOf_lt ..

theorem entryTaskOver_out (hz : sized s = true) {x : Task} {idx : Nat} (hx : x.entry = some idx) (b : Bool) {e : EntryRun}
    (he : e ∈ (hearthAt s (taskHearth x.record)).out) (hi : e.idx = idx) :
    oneLess b e ∈ (hearthAt (entryTaskOver s x b) (taskHearth x.record)).out := by
  rw [entryTaskOver, hx]
  dsimp only
  rw [hearthAt_modHearth (hearth_lt hz (taskHearth_lt _))]
  exact List.mem_map.2 ⟨e, he, if_pos (by simp [hi])⟩

theorem settleStep_noJob (h : s.job = none) : settleStep s = s := by rw [settleStep, h]

/-! ## Completion (R30, R148) -/

/-- The task of a core with one part less to run. -/
def partOver (x : Task) (k : CtxId) : Task := { x with parts := x.parts &&& ~~~(BitVec.ofNat 2 (2 ^ k.val)) }

theorem taskComplete_part {i : CoreId} {k : CtxId} {x : Task} (hx : (coreAt s i).task = some x) (hq : quenched s = false)
    (hd : (ctxAt s i k).partDone = true) (hp : x.parts.toNat.testBit k.val = true) : taskComplete s i k =
    if (partOver x k).parts = 0 then settleStep (clearTask (entryTaskOver (noteReexec (modCore s i fun c => { c with task := some (partOver x k) })
      i (partOver x k)) (partOver x k) false) i)
    else modCore s i fun c => { c with task := some (partOver x k) } := by
  rw [taskComplete, hx]
  exact if_neg (by simp [hq, hd, hp])

/-- A core on which the last part of a task is done, before the core is free. -/
def lastPart (s : State) (i : Nat) (x : Task) (k : CtxId) : State :=
  entryTaskOver (modCore s i fun c => { c with task := some (partOver x k) }) (partOver x k) false

theorem lastPart_frame (s : State) (i : Nat) (x : Task) (k : CtxId) : lastPart s i x k =
    { s with cores := s.cores.set i { (coreAt s i) with task := some (partOver x k) }, hearths := (lastPart s i x k).hearths } := by
  rw [lastPart, entryTaskOver_frame]
  rfl

theorem taskComplete_last {i : CoreId} {k : CtxId} {x : Task} (hx : (coreAt s i).task = some x) (hq : quenched s = false)
    (hd : (ctxAt s i k).partDone = true) (hp : x.parts.toNat = 2 ^ k.val) (hf : x.fails = 0) (hj : s.job = none) :
    taskComplete s i k = clearTask (lastPart s i x k) i := by
  have hbit : x.parts.toNat.testBit k.val = true := by rw [hp, Nat.testBit_two_pow_self]
  have hparts : x.parts = BitVec.ofNat 2 (2 ^ k.val) := BitVec.eq_of_toNat_eq (by
    rw [hp, BitVec.toNat_ofNat, Nat.mod_eq_of_lt (Nat.pow_lt_pow_right (by decide) k.isLt)])
  have hzero : (partOver x k).parts = 0 := by
    rw [partOver, hparts]
    exact (by decide : ∀ b : BitVec 2, b &&& ~~~b = 0) _
  have hre : ∀ u : State, noteReexec u i (partOver x k) = u := fun u => if_neg (by simp [partOver, hf])
  have hjob : (clearTask (lastPart s i x k) i).job = none := by
    have h : (clearTask (lastPart s i x k) i).job = (lastPart s i x k).job := rfl
    rw [h, lastPart_frame]
    exact hj
  rw [taskComplete_part hx hq hd hbit, if_pos hzero, hre]
  exact settleStep_noJob hjob

theorem clearTask_frame {i : CoreId} {c : Core} {u : State} (hz : sized s = true)
    (hu : u = { s with cores := s.cores.set i c, hearths := u.hearths }) :
    clearTask u i = { s with cores := s.cores.set i (taskGone c), hearths := (clearTask u i).hearths } ∧
    (clearTask u i).hearths = u.hearths := by
  refine ⟨?_, rfl⟩
  have hcore := (coreAndReady_of hz hu).2
  have hcs : u.cores = s.cores.set i c := by rw [hu]
  have hclear : clearTask u i = { u with cores := u.cores.set i (taskGone (coreAt u i)) } := rfl
  rw [hclear, hcore, hcs, List.set_set, hu]

theorem taskComplete_last_shows {i : CoreId} {k : CtxId} {x : Task} (hz : sized s = true) (ht : t = clearTask (lastPart s i x k) i) :
    coreAndReady s t i ∧ coreAt t i = taskGone (coreAt s i) ∧ (x.entry = none → t.hearths = s.hearths) ∧
    (∀ h : HearthId, (hearthAt t h).ready = (hearthAt s h).ready) ∧
    (∀ idx, x.entry = some idx → ∀ e ∈ (hearthAt s (taskHearth x.record)).out, e.idx = idx →
      { e with left := e.left - 1 } ∈ (hearthAt t (taskHearth x.record)).out) := by
  obtain ⟨hframe, hh⟩ := clearTask_frame hz (lastPart_frame s i x k)
  rw [← ht] at hframe hh
  obtain ⟨h1, h2⟩ := coreAndReady_of hz hframe
  refine ⟨h1, h2, fun hn => ?_, fun h => ?_, fun idx hx e he hi => ?_⟩
  · rw [hh, lastPart, entryTaskOver_none (x := partOver x k) hn]
    rfl
  · rw [hearthAt_congr hh, lastPart, entryTaskOver_ready]
    rfl
  · have hz' : sized (modCore s i fun c => { c with task := some (partOver x k) }) = true :=
      (Kept.modCoreRest (Kept.refl s) i).shaped hz
    have hout := entryTaskOver_out hz' (x := partOver x k) hx false he hi
    have heq : oneLess false e = { e with left := e.left - 1 } := by simp [oneLess]
    rw [hearthAt_congr hh, lastPart, ← heq]
    exact hout

theorem taskComplete_half {i : CoreId} {k : CtxId} {x : Task} (hx : (coreAt s i).task = some x) (hq : quenched s = false)
    (hd : (ctxAt s i k).partDone = true) (hp : x.parts = 3) : taskComplete s i k =
    modCore s i fun c => { c with task := some { x with parts := if k = 0 then 2 else 1 } } := by
  have hover : partOver x k = { x with parts := if k = 0 then 2 else 1 } := by
    rw [partOver, hp]
    match k with
    | 0 => rfl
    | 1 => rfl
  have hbit : x.parts.toNat.testBit k.val = true := by
    rw [hp]
    match k with
    | 0 => rfl
    | 1 => rfl
  have hne : ¬ (partOver x k).parts = 0 := by
    rw [hover]
    match k with
    | 0 => exact (by decide : ¬ (2 : BitVec 2) = 0)
    | 1 => exact (by decide : ¬ (1 : BitVec 2) = 0)
  rw [taskComplete_part hx hq hd hbit, if_neg hne, hover]

/-! ## Return (R141, R206) -/

theorem queueHome_congr {u : State} (h : u.regs = s.regs) (j : Nat) : queueHome u j = queueHome s j := by
  have hret : ∀ i, coreRetired u i = coreRetired s i := fun i => by rw [coreRetired, getR_congr h, coreRetired]
  have hin : ∀ i, inService u i = inService s i := fun i => by rw [inService, domState_congr h, hret, inService]
  have hserv : hearthInService u = hearthInService s := by
    funext k
    rw [hearthInService, funext hin, hearthInService]
  rw [queueHome, funext hret, queueMoveTarget, hserv, queueHome, queueMoveTarget]

/-- A core left with no task, and a change of one ready queue. -/
theorem queued_shows {i : CoreId} {h : Nat} (hz : sized s = true) (hh : h < 16) (f : Hearth → Hearth)
    (ht : t = modHearth (clearTask s i) h f) : coreAndReady s t i ∧ coreAt t i = taskGone (coreAt s i) ∧
    hearthAt t h = f (hearthAt s h) := by
  have hframe : t = { s with cores := s.cores.set i (taskGone (coreAt s i)), hearths := t.hearths } := by
    rw [ht]
    rfl
  obtain ⟨h1, h2⟩ := coreAndReady_of hz hframe
  have hlen : h < (clearTask s i).hearths.length := hearth_lt hz hh
  exact ⟨h1, h2, by rw [ht, hearthAt_modHearth hlen]; rfl⟩

section
variable {i : CoreId} {x : Task}

theorem taskReturn_preempted (hx : (coreAt s i).task = some x) (hq : quenched s = false)
    (hc : contextsOver s i = true) {b : Bool} (he : (coreAt s i).ended = some (.preempted b)) : taskReturn s i =
    modHearth (clearTask s i) (queueHome s (hearthOf i)) fun y => { y with
      ready := if b then y.ready ++ [x] else x :: y.ready } := by
  have hhome : queueHome (clearTask s i) (hearthOf i) = queueHome s (hearthOf i) := queueHome_congr rfl _
  rw [taskReturn, hx, he]
  dsimp only
  rw [if_neg (by simp [hq, hc])]
  cases b
  · exact congrArg (fun h => modHearth (clearTask s i) h _) hhome
  · exact congrArg (fun h => modHearth (clearTask s i) h _) hhome

/-- The task of a first hardware fault, queued again. -/
def retried (s : State) (i : Nat) (x : Task) : Task :=
  ⟨x.record, x.entry, x.mbox, none, 1, some i, if taskSplit x then (coreAt s i).endedParts else 1, false, [], []⟩

theorem taskReturn_hardware (hx : (coreAt s i).task = some x) (hq : quenched s = false) (hc : contextsOver s i = true) {code : Nat}
    (he : (coreAt s i).ended = some (.hardware code false)) (hcode : code ≠ 0x0D) (hf : x.fails = 0) (hs : x.slot = none)
    (hm : x.moved = false) (hin : inService s i = true) : taskReturn s i =
    modHearth (clearTask s i) (queueHome s (hearthOf i)) fun y => { y with ready := retried s i x :: y.ready } := by
  have hhome : queueHome (clearTask s i) (hearthOf i) = queueHome s (hearthOf i) := queueHome_congr rfl _
  have hdrop : dropSlot s x = s := by rw [dropSlot, hs]
  have hre : noteReFail s i x false = s := if_pos (by simp)
  have hin' : inService (clearTask s i) i = true := hin
  have htask : { x with
      slot := none
      fails := x.fails + 1
      lastCore := some i.val
      parts := if taskSplit x then (coreAt s i).endedParts else 1
      kept := []
      mons := [] } = retried s i x := by
    rw [hf, hm]
    rfl
  have hgo : returnFaulted s i x code false = queueHead (clearTask s i) (hearthOf i) (retried s i x) := by
    rw [returnFaulted]
    dsimp only
    rw [hdrop, hre, if_neg (by simp [hf, faultPoison, hcode, hm, hin'])]
    exact congrArg (queueHead _ _) htask
  rw [taskReturn, hx, he]
  dsimp only
  rw [if_neg (by simp [hq, hc]), hgo, queueHead, hhome]

end

/-- From `s` to `t` no core has changed, and no ready queue. -/
structure RunKept (s t : State) : Prop where
  cores : t.cores = s.cores
  ready : ∀ j, (hearthAt t j).ready = (hearthAt s j).ready
  job : t.job = s.job

theorem RunKept.trans {u : State} (a : RunKept s t) (b : RunKept t u) : RunKept s u :=
  ⟨b.cores.trans a.cores, fun j => (b.ready j).trans (a.ready j), b.job.trans a.job⟩

theorem runKept_of {u : State} (hc : u.cores = s.cores) (hh : u.hearths = s.hearths) (hj : u.job = s.job) : RunKept s u :=
  ⟨hc, fun j => by rw [hearthAt_congr hh], hj⟩

theorem runKept_holdRecord (s : State) (ring : Nat) (ws : List Word64) : RunKept s (holdRecord s ring ws) :=
  runKept_of (putF_cores ..) (putF_hearths ..) (putF_job ..)

theorem runKept_noteSlot (s : State) (ring : Nat) (ws : List Word64) (c : Nat) : RunKept s (noteSlot s ring ws c) := by
  unfold noteSlot
  split <;> exact runKept_of rfl rfl rfl

theorem SendOnly.runKept (h : SendOnly s t) : RunKept s t := by
  rw [h]
  exact runKept_of rfl rfl rfl

theorem runKept_postNow (s : State) (r : Ring) (ws : List Word64) : RunKept s (postNow s r ws).1 := by
  have hring : ∀ (v : State) (r : Ring) (a : Nat) (w : Word64), RunKept v (writeWord (setRing v r) a w) :=
    fun _ _ _ _ => runKept_of rfl rfl rfl
  unfold postNow
  dsimp only
  split
  · exact ((sendOnly_roceSendOn ..).runKept.trans (hring _ _ _ _)).trans (runKept_noteSlot ..)
  · exact runKept_of rfl rfl rfl

theorem runKept_postTo (s : State) (ring : Nat) (ws : List Word64) : RunKept s (postTo s ring ws) := by
  unfold postTo
  split
  · exact runKept_of rfl rfl rfl
  · split
    · exact runKept_holdRecord ..
    · dsimp only
      split
      · exact runKept_holdRecord ..
      · split
        · exact runKept_postNow ..
        · exact runKept_holdRecord ..

theorem runKept_entryTaskOver (s : State) (x : Task) (b : Bool) : RunKept s (entryTaskOver s x b) :=
  ⟨by rw [entryTaskOver_frame], entryTaskOver_ready s x b, by rw [entryTaskOver_frame]⟩

theorem runKept_failTask (hj : s.job = none) (i : Nat) (x : Task) (code pc : Nat) : RunKept s (failTask s i x code pc) := by
  have h := (runKept_postTo s (getF s WRK_CTL WRK_CTL_EVRING) [headWord s 0x0404 0, x.record.getD 1 0,
    w64 (i * 2 ^ 57 + code * 2 ^ 48 + pc % 2 ^ 21)]).trans (runKept_entryTaskOver _ x true)
  rw [failTask, postRecord, settleStep_noJob (h.job.trans hj)]
  exact h

theorem taskReturn_program {i : CoreId} {x : Task} (hz : sized s = true) (hx : (coreAt s i).task = some x) (hq : quenched s = false)
    (hc : contextsOver s i = true) (he : (coreAt s i).ended = some .program) (hj : s.job = none) (ht : t = taskReturn s i) :
    coreAt t i = taskGone (coreAt s i) ∧ (x.slot = none → ∀ j : HearthId, (hearthAt t j).ready = (hearthAt s j).ready) := by
  have hdrop : (dropSlot s x).cores = s.cores ∧ (dropSlot s x).job = s.job ∧ (x.slot = none → dropSlot s x = s) := by
    unfold dropSlot
    split
    · rename_i k hk
      exact ⟨rfl, rfl, fun h => by rw [h] at hk; cases hk⟩
    · exact ⟨rfl, rfl, fun _ => rfl⟩
  have hgo : t = failTask (clearTask (dropSlot s x) i) i x (getF s (CORE_FAULT i) CORE_FAULT_CODE) (getF s (CORE_FAULTPC i) CORE_FAULTPC_PC) := by
    rw [ht, taskReturn, hx, he]
    exact if_neg (by simp [hq, hc])
  obtain ⟨dcores, djob, dsame⟩ := hdrop
  have hclear : (clearTask (dropSlot s x) i).cores = s.cores.set i (taskGone (coreAt s i)) := by
    rw [clearTask_eq, modCore, setCore, coreAt_congr dcores, dcores]
  have hkept := runKept_failTask (s := clearTask (dropSlot s x) i) (djob.trans hj) i x (getF s (CORE_FAULT i) CORE_FAULT_CODE)
    (getF s (CORE_FAULTPC i) CORE_FAULTPC_PC)
  rw [← hgo] at hkept
  refine ⟨?_, fun hs j => ?_⟩
  · rw [coreAt, hkept.cores, hclear]
    simp [List.getD_eq_getElem?_getD, core_lt hz i]
  · rw [hkept.ready, dsame hs]
    rfl

/-! ## Dispatch (R30, R178, R221) -/

theorem nextTask_core {h : HearthId} {x : Task} {i : Nat} (hn : nextTask s h = some (x, i)) : i < 128 := by
  obtain ⟨y, -, hy⟩ := List.exists_of_findSome?_eq_some hn
  obtain ⟨j, hj, heq⟩ := Option.map_eq_some_iff.1 hy
  have hmem := List.mem_of_find?_eq_some hj
  obtain ⟨c, hc, hcj⟩ := List.mem_map.1 hmem
  have hi : j = i := congrArg Prod.snd heq
  have hlt := List.mem_range.1 hc
  have := h.isLt
  rw [coreOf] at hcj
  omega

/-- The core's registers and memory set for a task. -/
def recordGiven (s : State) (i : Nat) (x : Task) : State :=
  writeWords (setSplit s i (taskSplit x)) (csBase i + recordOff (setSplit s i (taskSplit x)) i) (padWords 8 x.record)

theorem recordOff_congr (h : t.regs = s.regs) (i : Nat) : recordOff t i = recordOff s i := by
  simp only [recordOff, saveOff, seqSaveOff, getF_congr h]

theorem startG_congr (h : t.regs = s.regs) (i off : Nat) (b : Bool) : startG t i off b = startG s i off b := by
  have hid : viewIdent t i = viewIdent s i := by rw [viewIdent, joined, flag_congr h, getF_congr h, viewIdent, joined]
  rw [startG, hid, startG]

theorem recordOff_setSplit (s : State) (i : Nat) (v : Bool) : recordOff (setSplit s i v) i = recordOff s i := by
  have hsave : saveOff (setSplit s i v) i = saveOff s i := by
    rw [saveOff, (regsSameBut_setSplit s i v).getF (by simp [CORE_SAVEBASE, CORE_TILECTL]), saveOff]
  have hseq : seqSaveOff (setSplit s i v) i = seqSaveOff s i := by
    rw [seqSaveOff, (regsSameBut_setSplit s i v).getF (by simp [CORE_SEQSAVE, CORE_TILECTL]), seqSaveOff]
  rw [recordOff, hsave, hseq, recordOff]

theorem startG_setSplit (s : State) (i off : Nat) (v b : Bool) : startG (setSplit s i v) i off b = startG s i off b := by
  have hne : FAB_NODE ∉ [CORE_TILECTL i] := by simp [FAB_NODE, CORE_TILECTL]; omega
  have hid : viewIdent (setSplit s i v) i = viewIdent s i := by
    rw [viewIdent, joined, (regsSameBut_setSplit s i v).flag hne, (regsSameBut_setSplit s i v).getF hne, viewIdent, joined]
  rw [startG, hid, startG]

theorem noteMoved_record (i : Nat) (x : Task) : (noteMoved i x).record = x.record := by
  unfold noteMoved
  split <;> rfl

/-- A core that starts the task `y` of a record. -/
theorem startFresh_core {i : Nat} (hi : i < s.cores.length) (y : Task) (ht : t = startFresh s i y) :
    (coreAt t i).task = some y ∧ (coreAt t i).g = startG s i (recordOff s i) (taskSplit y) ∧ (coreAt t i).p = 0 ∧
    (coreAt t i).ctx0 = startCtx y 0 ∧ (coreAt t i).ctx1 = (if taskSplit y then startCtx y 1 else .reset) ∧
    (coreAt t i).sc = List.replicate 16 0 := by
  rw [ht, startFresh, coreAt_modCore hi]
  exact ⟨rfl, rfl, rfl, rfl, rfl, rfl⟩

theorem giveTask_fresh {i : Nat} {x : Task} (hm : x.mbox = none) (hs : x.slot = none) :
    giveTask s i x = startFresh (recordGiven s i (noteMoved i x)) i (noteMoved i x) := by
  have hm' : (noteMoved i x).mbox = none := by
    unfold noteMoved
    split <;> exact hm
  have hs' : (noteMoved i x).slot.isSome = false := by
    unfold noteMoved
    split <;> simp [hs]
  rw [giveTask, hm', hs']
  rfl

theorem length_padWords (n : Nat) (ws : List Word64) : (padWords n ws).length = n := by
  simp [padWords]
  omega

theorem recordGiven_frame (s : State) (i : Nat) (x : Task) :
    (recordGiven s i x).regs = (setSplit s i (taskSplit x)).regs ∧ (recordGiven s i x).cores = s.cores ∧
    (recordGiven s i x).hearths = s.hearths :=
  ⟨writeBytes_regs .., (writeBytes_cores ..).trans (putF_cores ..), (writeBytes_hearths ..).trans (putF_hearths ..)⟩

theorem recordGiven_memory (s : State) (i : Nat) (x : Task) :
    readWords (recordGiven s i x) (csBase i + recordOff s i) 8 = padWords 8 x.record ∧
    memSameOutside s (recordGiven s i x) (csBase i + recordOff s i) 64 := by
  have hlen : (padWords 8 x.record).length = 8 := length_padWords 8 _
  rw [recordGiven, recordOff_setSplit]
  refine ⟨?_, fun a ha => ?_⟩
  · have hback := readWords_writeWords (setSplit s i (taskSplit x)) (csBase i + recordOff s i) (padWords 8 x.record)
    rwa [hlen] at hback
  · have hout := memSameOutside_writeBytes (setSplit s i (taskSplit x)) (csBase i + recordOff s i) (bytesOfWords (padWords 8 x.record))
    rw [length_bytesOfWords, hlen] at hout
    exact (hout a ha).trans (readByte_congr (putF_mem ..) a)

theorem taskDispatch_shows (hz : sized s = true) {h : HearthId} {x : Task} {i : Nat} (hd : dispatchOpen s = true)
    (hn : nextTask s h = some (x, i)) (hr : wfield x.record 0 63 48 = 0x0A53) (hs : x.slot = none) (hm : x.mbox = none)
    (ht : t = taskDispatch s h) :
    (coreAt t i).task = some (noteMoved i x) ∧ (coreAt t i).g = startG s i (recordOff s i) (taskSplit x) ∧ (coreAt t i).p = 0 ∧
    (coreAt t i).ctx0 = startCtx x 0 ∧ (coreAt t i).ctx1 = (if taskSplit x then startCtx x 1 else .reset) ∧
    (coreAt t i).sc = List.replicate 16 0 ∧ isSplit t i = taskSplit x ∧
    readWords t (csBase i + recordOff s i) 8 = padWords 8 x.record ∧
    memSameOutside s t (csBase i + recordOff s i) 64 ∧ (hearthAt t h).ready = (hearthAt s h).ready.erase x := by
  have hi : i < s.cores.length := by rw [sized_cores hz]; exact nextTask_core hn
  have hgo : t = startFresh (recordGiven (modHearth s h fun y => { y with ready := y.ready.erase x }) i (noteMoved i x)) i (noteMoved i x) := by
    rw [ht, taskDispatch, hn]
    dsimp only
    rw [if_neg (by simp [hd]), if_neg (by simp [hr]), giveTask_fresh hm hs]
  generalize hu : (modHearth s h fun y => { y with ready := y.ready.erase x }) = u at hgo
  have huregs : u.regs = s.regs := by rw [← hu]; rfl
  have humem : u.mem = s.mem := by rw [← hu]; rfl
  have hucores : u.cores = s.cores := by rw [← hu]; rfl
  have hready : (hearthAt u h).ready = (hearthAt s h).ready.erase x := by rw [← hu, hearthAt_modHearth (hearth_lt hz h.isLt)]
  have hoff : recordOff u i = recordOff s i := recordOff_congr huregs i
  obtain ⟨hwords, hmem⟩ := recordGiven_memory u i (noteMoved i x)
  obtain ⟨hvregs, hvcores, hvh⟩ := recordGiven_frame u i (noteMoved i x)
  generalize recordGiven u i (noteMoved i x) = v at hgo hwords hmem hvregs hvcores hvh
  have htsplit : taskSplit (noteMoved i x) = taskSplit x := by rw [taskSplit, noteMoved_record, taskSplit]
  have hctx : ∀ k, startCtx (noteMoved i x) k = startCtx x k := fun k => by
    unfold noteMoved
    split <;> rfl
  have hvoff : recordOff v i = recordOff s i := by rw [recordOff_congr hvregs, recordOff_setSplit, hoff]
  have hvg : ∀ off b, startG v i off b = startG s i off b := fun off b => by
    rw [startG_congr hvregs, startG_setSplit, startG_congr huregs]
  obtain ⟨h1, h2, h3, h4, h5, h6⟩ := startFresh_core (by rw [hvcores, hucores]; exact hi) (noteMoved i x) hgo
  rw [hvoff, hvg, htsplit] at h2
  rw [hctx] at h4
  rw [htsplit, hctx] at h5
  rw [hoff] at hwords hmem
  have htregs : t.regs = v.regs := by rw [hgo]; rfl
  have htmem : t.mem = v.mem := by rw [hgo]; rfl
  have hth : t.hearths = v.hearths := by rw [hgo]; rfl
  refine ⟨h1, h2, h3, h4, h5, h6, ?_, ?_, fun a ha => ?_, ?_⟩
  · rw [isSplit, flag_congr (htregs.trans hvregs), ← htsplit]
    exact isSplit_setSplit ..
  · rw [readWords_congr htmem, hwords, noteMoved_record]
  · exact (readByte_congr htmem a).trans ((hmem a ha).trans (readByte_congr humem a))
  · rw [hearthAt_congr (hth.trans hvh), hready]

/-! ## The obligation -/

end

/-- Settles O24, clause by clause: what starts a task, ends a part of it and takes it back to a ready queue. -/
theorem taskLife : Obligations.TaskLife := by
  intro s hz
  refine ⟨fun h x i hd hn hr hs hm => ?_, fun i k x hx hq hd hp hf hj => ?_, fun i k x hx hq hd hp => ?_,
    fun i x e h hx he hq hc hh hlt => ⟨fun hpre => ?_, fun hpre => ?_, fun code hhw hcode hf hs hm hin => ?_, fun hprog hj => ?_⟩⟩
  · exact .of rfl rfl (taskDispatch_shows hz hd hn hr hs hm rfl)
  · exact .of rfl rfl (taskComplete_last_shows hz (taskComplete_last hx hq hd hp hf hj))
  · refine .of rfl (taskComplete_half hx hq hd hp) ?_
    exact ⟨coreOnly_modCore (core_lt hz i) _, coreAt_modCore (core_lt hz i) _⟩
  · subst hpre hh
    obtain ⟨h1, h2, h3⟩ := queued_shows hz hlt _ (taskReturn_preempted hx hq hc he)
    exact .of rfl rfl ⟨h1, h2, by rw [h3]; rfl⟩
  · subst hpre hh
    obtain ⟨h1, h2, h3⟩ := queued_shows hz hlt _ (taskReturn_preempted hx hq hc he)
    exact .of rfl rfl ⟨h1, h2, by rw [h3]; rfl⟩
  · subst hhw hh
    obtain ⟨h1, h2, h3⟩ := queued_shows hz hlt _ (taskReturn_hardware hx hq hc he hcode hf hs hm hin)
    exact .of rfl rfl ⟨h1, h2, by rw [h3]; rfl⟩
  · subst hprog
    exact .of rfl rfl (taskReturn_program hz hx hq hc he hj rfl)

end Sys2Proof.Machine
end

section
/-! PROOFS. Survival, where the statements fail: a heartbeat has no path to take, and the report of a lost member (R307), due when the
fabric settles, changes memory under a survival line and under the adoption of a ward. -/

namespace Sys2Proof.Machine

/-- Node 5, joined, keeps the copy of its ward 9; no port of it is up. -/
def pathlessState : State :=
  let s := putF (putF .reset FAB_NODE FAB_NODE_NODE 5) FAB_NODE FAB_NODE_JOINED 1
  { s with ylp := { s.ylp with members := [(9, 0)] }
           surv := { s.surv with wards := [⟨9, 0, 0, 0, [], []⟩] } }

/-- What stands towards node 9. -/
def pendingAfter (c : Instr) (s : State) : Option Nat :=
  match exec c s with
  | .next t => some (pendingTo t 9)
  | _ => none

/-- Refutes O43, in its clause on heartbeats: with no path to the node (R290) none stands towards it, and the node is unreachable. -/
theorem not_seedCopyAndLosses : ¬ Obligations.SeedCopyAndLosses := by
  unfold Obligations.SeedCopyAndLosses
  intro ⟨_, h⟩
  obtain ⟨hbeat, -⟩ := h 9 pathlessState (by decide +kernel)
  obtain ⟨t, he, hpending, -⟩ := hbeat (by decide +kernel) (by decide +kernel) (by decide +kernel) (by decide +kernel)
  have hafter : pendingAfter (.heartbeatTimer 9) pathlessState = some (pendingTo pathlessState 9 + 1) := by
    rw [pendingAfter, he]
    exact congrArg some hpending
  exact absurd hafter (by decide +kernel)

/-- The first of two members, with a change that the other has not confirmed and a LOSS line that names nobody. -/
def changingState : State :=
  let s := unreportedState []
  let s := writeBytes s 0x100000 (survBytes s kLoss 0 1 0 [] [])
  { s with surv := { s.surv with change := some ⟨0, [], [], [], 0, false⟩ } }

/-- Refutes O44, in its clause on LOSS: taking the line, the device reports the lost member in its own memory. -/
theorem not_survivalLines : ¬ Obligations.SurvivalLines := by
  unfold Obligations.SurvivalLines
  intro h
  obtain ⟨-, hlines, -⟩ := h (.inbox 0) 0 changingState pairGroup ⟨1, [], [], 5, 0, 1, 0, 0⟩ (by decide +kernel) rfl (by decide +kernel)
  obtain ⟨hreports, -⟩ := hlines rfl (by decide +kernel) (by decide +kernel)
  obtain ⟨hloss, -⟩ := hreports ⟨0, [], [], [], 0, false⟩ (by decide +kernel) rfl (by decide +kernel) rfl
  exact absurd (reportWordAfter_of_memSame (hloss rfl rfl)) (by decide +kernel)

/-- The ward of node 9, whose slot stands where this device's inbox takes its own lines. -/
def leasedWard : Ward := ⟨9, 0x100280, 0, 0, [], []⟩

/-- The current copy of that ward, whose lease is over; the loss of node 9 is not yet reported. -/
def leasedState : State :=
  let s := writeWord (unreportedState []) 0x100280 2
  { s with time := ⟨60000000000, 0, 0, false⟩
           surv := { s.surv with plan := [0, 0, 0, w64 (2 ^ 44)], wards := [leasedWard], removedAt := [(9, 0)] } }

/-- Refutes O45, in its clause on the lease: once the shard is adopted the report of the loss is written over the word of its slot. -/
theorem not_shardsMove : ¬ Obligations.ShardsMove := by
  unfold Obligations.ShardsMove
  intro h
  obtain ⟨hlease, -⟩ := h 9 leasedState leasedWard (by decide +kernel) (by decide +kernel) (by decide +kernel) (by decide +kernel)
  obtain ⟨t, he, -, hword, -⟩ := hlease 0 rfl rfl (by decide +kernel) (by decide +kernel) (by decide +kernel) (by decide +kernel)
    (by decide +kernel) (by decide +kernel) (by decide +kernel) (by decide +kernel)
  have hafter : (reportWordAfter (.leaseExpiry 9) leasedState).map (·.toNat % 4) = some 3 := by
    rw [reportWordAfter, he]
    exact congrArg some hword
  exact absurd hafter (by decide +kernel)

end Sys2Proof.Machine
end

section
/-! PROOFS. Sixteen instances of the collectives engines run at most (R305), and a hold round (R319) waits while they all do: the
statements on the release of a held step and on the result of a step do not say that an engine is free. -/

namespace Sys2Proof.Machine

/-- A barrier of group 1, not yet over. -/
def otherInst : Inst :=
  { group := 1, num := 0, op := .barrier, desc := [], core := 0, qid := 0, own := true, kids := [], phase := 0, got := [], work := []
    ident := 0, since := 0, stalled := false }

/-- A job whose step ends in group 0 while sixteen instances run. -/
def crowdedState (j : Job) : State :=
  { State.reset with job := some j
                     coll := { State.reset.coll with groups := [pairGroup], insts := List.replicate 16 otherInst } }

/-- Where the step end of the job stands. -/
def stepEndAfter (c : Instr) (s : State) : Option Nat :=
  match exec c s with
  | .next t => t.job.map (·.stepEnd)
  | _ => none

theorem stepEndAfter_of_job {c : Instr} {s t : State} {β : Type} {f : Job → β} {n : Nat} {v : β} (he : exec c s = .next t)
    (hjob : t.job.map (fun y => (y.stepEnd, f y)) = some (n, v)) : stepEndAfter c s = some n := by
  obtain ⟨y, hy, heq⟩ := Option.map_eq_some_iff.1 hjob
  rw [stepEndAfter, he]
  change t.job.map _ = _
  rw [hy]
  exact congrArg (some ·.1) heq

/-- A job of one layer at the given point of its step end. -/
def jobAt (stat : JobStat) (stepEnd : Nat) (payload : List Word64) : Job := { layerJob with desc := [], stat, stepEnd, payload }

/-- WIDEN_RELEASE of step 0, running on ring 0. -/
def releaseItem : JEntry :=
  { jseq := 0, ring := 0, st := .running, status := 0, seq := 0, accTime := 0, doneStep := none, detail := 0
    item := w64 (2 * 2 ^ 40) :: List.replicate 47 0, mirrored := true, marked := false, markAcked := false, fin := false
    posted := false, cslot := none }

/-- A step held for its widths, with the item that releases it. -/
def heldWidenState : State :=
  let s := crowdedState (jobAt .heldWiden 5 [])
  { s with intake := { s.intake with journal := [releaseItem] } }

/-- Refutes O40, in its clause on the release of a held step: with sixteen instances in progress the hold round does not start. -/
theorem not_workItems : ¬ Obligations.WorkItems := by
  unfold Obligations.WorkItems
  intro h
  obtain ⟨hgood, -⟩ := h 0 heldWidenState releaseItem (by decide +kernel) (by decide +kernel) rfl rfl rfl
  obtain ⟨-, hwiden, -⟩ := hgood (by decide +kernel)
  obtain ⟨-, hheld⟩ := hwiden (jobAt .heldWiden 5 []) rfl (by decide +kernel) (by decide +kernel)
  obtain ⟨t, he, -, hjob⟩ := hheld pairGroup rfl (by decide +kernel) (by decide +kernel) (by decide +kernel) (by decide +kernel)
  exact absurd (stepEndAfter_of_job he hjob) (by decide +kernel)

/-- The result of a step asks for a hold round. -/
def widenDueJob : Job := jobAt .running 2 [0, 0, w64 (2 ^ 37)]

/-- Refutes O27, in its clause on a result that asks for a hold round, in the same way. -/
theorem not_scheduleAndStepEnd : ¬ Obligations.ScheduleAndStepEnd := by
  unfold Obligations.ScheduleAndStepEnd
  intro ⟨_, _, h⟩
  obtain ⟨-, hresult⟩ := h 0 (crowdedState widenDueJob) widenDueJob (by decide +kernel) rfl
  obtain ⟨hdone, -⟩ := hresult (by decide +kernel) (by decide +kernel) (by decide +kernel)
  obtain ⟨-, -, -, hwiden⟩ := hdone pairGroup rfl (by decide +kernel) rfl
  obtain ⟨t, he, hjob, -⟩ := hwiden (by decide +kernel) (by decide +kernel)
  exact absurd (stepEndAfter_of_job he hjob) (by decide +kernel)

end Sys2Proof.Machine
end

section
/-! PROOFS. Lines of bonded memory and their errors (R244, R249, R250, R252, R255 to R258, R264). -/

namespace Sys2Proof.Machine

/-! ## A range within one line -/

section
variable {s t : State} {a n : Nat}

theorem lineBase_le (a : Nat) : lineBase a ≤ a := Nat.div_mul_le_self a 128

theorem lineBase_mod (a : Nat) : lineBase a % 128 = 0 := Nat.mul_mod_left ..

theorem lineBase_lineBase (a : Nat) : lineBase (lineBase a) = lineBase a := by unfold lineBase; omega

theorem poisoned_lineBase (s : State) (a : Nat) : poisoned s (lineBase a) = poisoned s a := by
  rw [poisoned, lineBase_lineBase, poisoned]

theorem clean_line (h : poisoned s a = false) : clean s (lineBase a) 128 := fun b hl hu => by
  have hb : lineBase b = lineBase a := by unfold lineBase at *; omega
  rw [poisoned, hb]
  exact h

/-- A range within one line lies in one region pair. -/
theorem rangeClosed_inLine (hn : 0 < n) (hl : a % 128 + n ≤ 128) : rangeClosed s a n =
    s.memctl.regions.any fun r => r.closed && decide (a / 2 ^ 21 % 2 ^ 18 = r.pair) := by
  have hone : (a + n - 1) / 2 ^ 21 + 1 - a / 2 ^ 21 = 1 := by omega
  rw [rangeClosed, hone]
  simp

theorem assigned_inLine (hd : a < 2 ^ 40) (hn : 0 < n) (hl : a % 128 + n ≤ 128) (h : assigned s (lineBase a) 128 = true) :
    assigned s a n = true := by
  have hd' : isDram (lineBase a) = true := decide_eq_true (lt_of_le_of_lt (lineBase_le a) hd)
  have hda : isDram a = true := decide_eq_true hd
  have hpair : lineBase a / 2 ^ 21 = a / 2 ^ 21 := by unfold lineBase; omega
  rw [assigned, if_pos hd', rangeClosed_inLine (by decide) (by rw [lineBase_mod]), hpair] at h
  rw [assigned, if_pos hda, rangeClosed_inLine hn hl]
  obtain ⟨htop, hshut⟩ := Bool.and_eq_true_iff.1 h
  have htop' : lineBase a + 128 ≤ dramTop := of_decide_eq_true htop
  have hbase : lineBase a + a % 128 = a := by unfold lineBase; omega
  exact Bool.and_eq_true_iff.2 ⟨decide_eq_true (by omega), hshut⟩

theorem linesOf_inLine (hn : 0 < n) (hl : a % 128 + n ≤ 128) : linesOf a n = [lineBase a] := by
  have hone : (a + n - 1) / 128 + 1 - a / 128 = 1 := by omega
  rw [linesOf, hone]
  simp [lineBase]

/-! ## Words of memory -/

theorem memGetAll_add (m : Memory) (a k n : Nat) : memGetAll m a (k + n) = memGetAll m a k ++ memGetAll m (a + k) n := by
  induction k generalizing a with
  | zero => simp [memGetAll]
  | succ k ih => rw [Nat.add_right_comm, memGetAll, ih, memGetAll, Nat.add_right_comm a 1 k]; rfl

theorem readWords_succ (s : State) (a n : Nat) : readWords s a (n + 1) = readWord s a :: readWords s (a + 8) n := by
  rw [readWords, List.range_succ_eq_map, List.map_cons, List.map_map, readWords]
  refine congrArg₂ _ rfl (List.map_congr_left fun k _ => ?_)
  exact congrArg (readWord s) (by omega)

theorem wordsOf_readBytes (s : State) (a n : Nat) : wordsOf n (readBytes s a (8 * n)) = readWords s a n := by
  induction n generalizing a with
  | zero => rfl
  | succ n ih =>
    have hsplit : readBytes s a (8 * (n + 1)) = readBytes s a 8 ++ readBytes s (a + 8) (8 * n) := by
      rw [readBytes, show 8 * (n + 1) = 8 + 8 * n by omega, memGetAll_add]
      rfl
    rw [hsplit, wordsOf, List.take_left' (length_readBytes s a 8), List.drop_left' (length_readBytes s a 8), ih, readWords_succ]
    rfl

/-! ## Reads of a line -/

theorem channelHeld_none (h : s.memctl.rerunning = none) (a n : Nat) : channelHeld s a n = false := by rw [channelHeld, h]

theorem sliceError_zero (s : State) (a : Nat) : sliceError s a 0 = s := by
  unfold sliceError
  split <;> rfl

theorem memRead_inLine (hd : a < 2 ^ 40) (hl : a % 128 + n ≤ 128) (hopen : assigned s (lineBase a) 128 = true)
    (hp : poisoned s a = false) : (memRead s a n).2 = (.ok, readBytes s a n) := by
  rcases Nat.eq_zero_or_pos n with rfl | hn
  · rfl
  · have hda : isDram a = true := decide_eq_true hd
    have hline : poisoned s (lineBase a) = false := (poisoned_lineBase s a).trans hp
    rw [memRead, if_neg (by omega), if_neg (by simp [assigned_inLine hd hn hl hopen]), if_pos hda, linesOf_inLine hn hl]
    simp [hline]

theorem lineRead_held (hd : a < 2 ^ 40) (hopen : assigned s a 8 = true) (hh : channelHeld s a 1 = true) (n b : Nat) :
    lineRead s a n b = answering s .held := by
  have hda : isDram a = true := decide_eq_true hd
  rw [lineRead, if_neg (by simp [hda, hopen]), if_pos hh]

theorem lineRead_data (hopen : openDram s (lineBase a) 128) (ha : a % 8 = 0) (hp : poisoned s a = false)
    (hr : s.memctl.rerunning = none) (n : Nat) (ht : t = lineRead s a n 0) :
    t.answer = .data (readWords s a (min n ((128 - a % 128) / 8))) ∧ t = { s with answer := t.answer, hearths := t.hearths } := by
  obtain ⟨hd, -, has, -⟩ := hopen
  have hbase : lineBase a + a % 128 = a := by unfold lineBase; omega
  have htop : lineBase a + 128 ≤ 2 ^ 40 := by
    have hdb : isDram (lineBase a) = true := decide_eq_true hd
    rw [assigned, if_pos hdb] at has
    exact of_decide_eq_true (Bool.and_eq_true_iff.1 has).1
  have hda : a < 2 ^ 40 := by omega
  have hdram : isDram a = true := decide_eq_true hda
  have hlen : a % 128 + 8 * wordsInLine a n ≤ 128 := by unfold wordsInLine; omega
  have hread := memRead_inLine (n := 8 * wordsInLine a n) hda hlen has hp
  have hgo : t = answering (memRead s a (8 * wordsInLine a n)).1 (.data (readWords s a (wordsInLine a n))) := by
    rw [ht, lineRead, if_neg (by simp [hdram, assigned_inLine hda (by decide) (by omega : a % 128 + 8 ≤ 128) has]),
      if_neg (by simp [channelHeld_none hr]), sliceError_zero]
    dsimp only
    rw [hread]
    exact congrArg (fun ws => answering _ (.data ws)) (wordsOf_readBytes ..)
  have hframe := (touched_memRead s a (8 * wordsInLine a n)).frame
  generalize (memRead s a (8 * wordsInLine a n)).1 = u at hgo hframe
  refine ⟨by rw [hgo]; rfl, ?_⟩
  rw [hgo, hframe]
  rfl

theorem lineRead_unassigned (h : assigned s a 8 = false) (n b : Nat) : lineRead s a n b = answering s .unassigned :=
  if_pos (by simp [h])

/-! ## Writes of a line -/

/-- The first words of a mask, written. -/
def maskedWords (s : State) (a mask : Nat) (ws : List Word64) (m : Nat) : State :=
  (List.range m).foldl (fun t k => if mask.testBit k then writeWord t (a + 8 * k) (ws.getD k 0) else t) s

theorem maskedWords_succ (s : State) (a mask : Nat) (ws : List Word64) (m : Nat) : maskedWords s a mask ws (m + 1) =
    if mask.testBit m then writeWord (maskedWords s a mask ws m) (a + 8 * m) (ws.getD m 0) else maskedWords s a mask ws m := by
  rw [maskedWords, List.range_succ, List.foldl_append]
  rfl

theorem maskedWords_frame (s : State) (a mask : Nat) (ws : List Word64) (m : Nat) :
    maskedWords s a mask ws m = { s with mem := (maskedWords s a mask ws m).mem } := by
  induction m with
  | zero => rfl
  | succ m ih =>
    rw [maskedWords_succ]
    split
    · rw [ih]; rfl
    · exact ih

theorem maskedWords_outside (s : State) (a mask : Nat) (ws : List Word64) (m : Nat) :
    memSameOutside s (maskedWords s a mask ws m) a (8 * m) := by
  induction m with
  | zero => exact fun _ _ => rfl
  | succ m ih =>
    intro b hb
    rw [maskedWords_succ]
    split
    · rw [readByte_writeWord_outside _ _ b _ (by omega), ih b (by omega)]
    · exact ih b (by omega)

theorem readWord_maskedWords (s : State) (a mask : Nat) (ws : List Word64) (m k : Nat) :
    readWord (maskedWords s a mask ws m) (a + 8 * k) =
      if k < m ∧ mask.testBit k = true then ws.getD k 0 else readWord s (a + 8 * k) := by
  induction m with
  | zero => rw [if_neg (by omega)]; rfl
  | succ m ih =>
    rw [maskedWords_succ]
    by_cases hk : k = m
    · subst hk
      split
      · next hb => rw [readWord_writeWord, if_pos ⟨by omega, hb⟩]
      · next hb => rw [ih, if_neg (by omega), if_neg (by simp [hb])]
    · have hiff : (k < m + 1 ∧ mask.testBit k = true) ↔ (k < m ∧ mask.testBit k = true) := by
        have : k < m + 1 ↔ k < m := by omega
        rw [this]
      rw [if_congr hiff rfl rfl, ← ih]
      split
      · refine readWord_ext fun b hb => readByte_writeWord_outside _ _ _ _ (by omega)
      · rfl

theorem writeMasked_eq (s : State) (a mask : Nat) (ws : List Word64) : writeMasked s a mask ws = maskedWords s a mask ws 16 := rfl

/-- What a write of a line leaves. -/
structure LineWritten (s t : State) (a mask : Nat) (ws : List Word64) : Prop where
  answer : t.answer = .done
  healed : poisoned t a = false
  words : ∀ k, k < 16 → readWord t (lineBase a + 8 * k) = if mask.testBit k then ws.getD k 0 else readWord s (lineBase a + 8 * k)
  outside : memSameOutside s t (lineBase a) 128
  frame : t = { s with mem := t.mem, memctl := t.memctl, hearths := t.hearths, answer := .done }

/-- A whole line is one piece. -/
theorem memWrite_line (hd : a < 2 ^ 40) (hopen : assigned s (lineBase a) 128 = true) {bs : List Byte} (hb : bs.length = 128) :
    (memWrite s (lineBase a) bs).1 = touchLine (writeBytes (clearPoison s (lineBase a)) (lineBase a) bs) (lineBase a) true false := by
  have hdb : isDram (lineBase a) = true := decide_eq_true (lt_of_le_of_lt (lineBase_le a) hd)
  have hne : bs.isEmpty = false := by cases bs with | nil => cases hb | cons _ _ => rfl
  have hchunks : lineChunks (bs.length / 128 + 2) (lineBase a) bs = [(lineBase a, bs)] := by
    rw [hb, show 128 / 128 + 2 = 1 + 1 + 1 from rfl, lineChunks, lineBase_mod, if_neg (by simp [hne]), List.take_of_length_le (by omega),
      List.drop_of_length_le (by omega)]
    rfl
  rw [memWrite, if_neg (by simp [hne]), if_neg (by simp [hb, hopen]), if_pos hdb, hchunks]
  simp only [List.foldl_cons, List.foldl_nil, writeChunk, hb, lineBase_lineBase]
  simp

theorem padWords_getD (n : Nat) (ws : List Word64) {k : Nat} (hk : k < n) : (padWords n ws).getD k 0 = ws.getD k 0 := by
  simp only [padWords, List.getD_eq_getElem?_getD, List.getElem?_append, List.length_take, List.getElem?_take, List.getElem?_replicate]
  split
  · simp
  · rw [List.getElem?_eq_none (by omega : ws.length ≤ k)]
    split <;> rfl

theorem poisoned_clearPoison (s : State) (a : Nat) : poisoned (clearPoison s a) a = false := by
  simp [poisoned, clearPoison]

theorem lineWrite_whole (hd : a < 2 ^ 40) (hopen : assigned s (lineBase a) 128 = true) (hr : channelHeld s a 1 = false)
    (ws : List Word64) (ht : t = lineWrite s a 0xFFFF ws) : LineWritten s t a 0xFFFF ws := by
  have hlen : (bytesOfWords (padWords 16 ws)).length = 128 := by rw [length_bytesOfWords, length_padWords]
  have hda : isDram a = true := decide_eq_true hd
  have hgo : t = answering (touchLine (writeWords (clearPoison s (lineBase a)) (lineBase a) (padWords 16 ws)) (lineBase a) true false) .done := by
    rw [ht, lineWrite, if_neg (by simp [hda, hopen]), if_neg (by simp [hr]), if_pos rfl, memWrite_line hd hopen hlen]
    rfl
  have hmem : ∀ b, readByte t b = readByte (writeWords (clearPoison s (lineBase a)) (lineBase a) (padWords 16 ws)) b := fun b => by
    rw [hgo]
    exact readByte_touchLine ..
  have hpoison : t.memctl.poison = (clearPoison s (lineBase a)).memctl.poison := by rw [hgo, touchLine_frame]; rfl
  refine ⟨by rw [hgo]; rfl, ?_, fun k hk => ?_, fun b hb => ?_, ?_⟩
  · rw [← poisoned_lineBase, poisoned, hpoison]
    exact poisoned_clearPoison s (lineBase a)
  · have hkl : k < (padWords 16 ws).length := by rw [length_padWords]; exact hk
    have hbit : (0xFFFF : Nat).testBit k = true := by interval_cases k <;> rfl
    rw [if_pos hbit, readWord_ext fun b _ => hmem _, readWord_writeWords _ _ hkl, ← padWords_getD 16 ws hk]
    exact List.getElem_eq_getD (h := hkl) 0
  · rw [hmem]
    exact memSameOutside_writeBytes (clearPoison s (lineBase a)) _ _ b (by rw [hlen]; exact hb)
  · rw [hgo, touchLine_frame]
    rfl

theorem lineWrite_masked (hd : a < 2 ^ 40) (hopen : assigned s (lineBase a) 128 = true) (hr : channelHeld s a 1 = false) {mask : Nat}
    (hm : mask % 65536 ≠ 0xFFFF) (hp : poisoned s a = false) (ws : List Word64) (ht : t = lineWrite s a mask ws) :
    LineWritten s t a mask ws := by
  have hda : isDram a = true := decide_eq_true hd
  have hgo : t = answering (touchLine (maskedWords s (lineBase a) mask ws 16) (lineBase a) true false) .done := by
    rw [ht, lineWrite, if_neg (by simp [hda, hopen]), if_neg (by simp [hr]), if_neg hm, if_neg (by simp [poisoned_lineBase, hp])]
    rfl
  have hmem : ∀ b, readByte t b = readByte (maskedWords s (lineBase a) mask ws 16) b := fun b => by
    rw [hgo]
    exact readByte_touchLine ..
  have hframe := maskedWords_frame s (lineBase a) mask ws 16
  have hwords := readWord_maskedWords s (lineBase a) mask ws 16
  have hout := maskedWords_outside s (lineBase a) mask ws 16
  generalize maskedWords s (lineBase a) mask ws 16 = u at hgo hmem hframe hwords hout
  refine ⟨by rw [hgo]; rfl, ?_, fun k hk => ?_, fun b hb => ?_, ?_⟩
  · rw [poisoned, hgo, touchLine_frame, hframe]
    exact hp
  · rw [readWord_ext fun b _ => hmem _, hwords]
    exact if_congr (by simp [hk]) rfl rfl
  · rw [hmem, hout b hb]
  · rw [hgo, touchLine_frame, hframe]
    rfl

theorem lineWrite_poison (hd : a < 2 ^ 40) (hopen : assigned s (lineBase a) 128 = true) (hr : channelHeld s a 1 = false) {mask : Nat}
    (hm : mask % 65536 ≠ 0xFFFF) (hp : poisoned s a = true) (ws : List Word64) : lineWrite s a mask ws = answering s .poison := by
  have hda : isDram a = true := decide_eq_true hd
  rw [lineWrite, if_neg (by simp [hda, hopen]), if_neg (by simp [hr]), if_neg hm, if_pos ((poisoned_lineBase s a).trans hp)]

theorem lineWrite_held (hd : a < 2 ^ 40) (hopen : assigned s (lineBase a) 128 = true) (hr : channelHeld s a 1 = true) (mask : Nat)
    (ws : List Word64) : lineWrite s a mask ws = answering s .held := by
  have hda : isDram a = true := decide_eq_true hd
  rw [lineWrite, if_neg (by simp [hda, hopen]), if_pos hr]

/-! ## Misses (R254, R255) -/

/-- A line that is absent is read from DRAM, checked and installed. -/
theorem missFill_absent (hd : a < 2 ^ 40) (hl : sliceLine s a = none) (hr : s.memctl.rerunning = none) (r : ReadResult) :
    missFill s a r = touchLine (dramRead (wakeChannel s a) a r) (lineBase a) false false := by
  have hda : isDram a = true := decide_eq_true hd
  exact if_neg (by simp [hda, hl, channelHeld_none hr])

theorem missFill_held (hh : channelHeld s a 1 = true) (r : ReadResult) : missFill s a r = s := if_pos (by simp [hh])

theorem wakeChannel_frame (s : State) (a : Nat) : wakeChannel s a = { s with power := (wakeChannel s a).power } := by
  unfold wakeChannel
  split <;> rfl

/-- A miss that leaves `u` once its channel is awake, but for slices. -/
theorem missFill_fields (hd : a < 2 ^ 40) (hl : sliceLine s a = none) (hr : s.memctl.rerunning = none) {r : ReadResult} {u : State}
    (hu : dramRead (wakeChannel s a) a r = u) (ht : t = missFill s a r) :
    t.regs = u.regs ∧ t.mem = u.mem ∧ t.memctl = u.memctl := by
  rw [ht, missFill_absent hd hl hr, hu, touchLine_frame]
  exact ⟨rfl, rfl, rfl⟩

theorem missFill_clean (hd : a < 2 ^ 40) (hr : s.memctl.rerunning = none) (ht : t = missFill s a .clean) :
    t = { s with hearths := t.hearths, power := t.power } ∧ ∀ h, SliceOnly (hearthAt s h) (hearthAt t h) := by
  cases hl : sliceLine s a with
  | some l =>
    have hgo : t = s := by rw [ht, missFill, if_pos (by simp [hl])]
    rw [hgo]
    exact ⟨rfl, fun _ => .refl _⟩
  | none =>
    have hframe := wakeChannel_frame s a
    have hgo : t = touchLine (wakeChannel s a) (lineBase a) false false := by
      rw [ht, missFill_absent hd hl hr]
      rfl
    generalize wakeChannel s a = v at hframe hgo
    have htouch := touched_touchLine v (lineBase a) false false
    rw [← hgo] at htouch
    have hh : v.hearths = s.hearths := by rw [hframe]
    refine ⟨?_, fun h => ?_⟩
    · rw [htouch.frame, hframe]
    · rw [← hearthAt_congr hh]
      exact htouch.slices h

/-- An error that reading again cures. -/
theorem missFill_retried (hd : a < 2 ^ 40) (hl : sliceLine s a = none) (hr : s.memctl.rerunning = none) {r : ReadResult}
    (hu : dramRead (wakeChannel s a) a r = satF (wakeChannel s a) MEM_UECNT MEM_UECNT_RETRIED 1) (ht : t = missFill s a r) :
    memSame s t ∧ regsSameBut s t [MEM_UECNT] ∧
    getF t MEM_UECNT MEM_UECNT_RETRIED = min 0xFFFF (getF s MEM_UECNT MEM_UECNT_RETRIED + 1) := by
  obtain ⟨hregs, hmem, -⟩ := missFill_fields hd hl hr hu ht
  have hw : (wakeChannel s a).regs = s.regs := by rw [wakeChannel_frame]
  have hwm : (wakeChannel s a).mem = s.mem := by rw [wakeChannel_frame]
  refine ⟨memSame_of_mem (hmem.trans ((putF_mem ..).trans hwm)), ?_, ?_⟩
  · exact ((regsSameBut_of_regs hw _).satF List.mem_cons_self _ _).of_regs hregs
  · rw [getF_congr hregs, getF_satF (by decide) (by decide), getF_congr hw]
    rfl

/-- A corrected symbol of a stack, noted with its time. -/
def correctedNoted (s : State) (k : Nat) : State :=
  { s with memctl := { s.memctl with ceHour := (k, s.now) :: s.memctl.ceHour.filter fun e => s.now - e.2 < hourNs } }

theorem correctedNoted_fields (s : State) (k : Nat) : (correctedNoted s k).mem = s.mem ∧ (correctedNoted s k).regs = s.regs := ⟨rfl, rfl⟩

/-- The record of a stack whose rate stands over the threshold. -/
def rateChecked (s : State) (k : Nat) : State :=
  let rate := getF s MEM_CTL MEM_CTL_CE_RATE
  if rate = 0 then s
  else if ceCount s k ≤ 16 * rate then
    { s with memctl := { s.memctl with ceReported := s.memctl.ceReported.filter (· != k) } }
  else if s.memctl.ceReported.contains k then s
  else
    makeRecord { s with memctl := { s.memctl with ceReported := k :: s.memctl.ceReported } }
      (srcHearth (2 * k)) 0x181 [w64 (k + ceCount s k * 2 ^ 32)]

theorem countCorrected_eq (s : State) (a : Nat) : countCorrected s a =
    rateChecked (correctedNoted (satF s (MEM_CECNT (stackOf s a)) MEM_CECNT_CE 1) (stackOf s a)) (stackOf s a) := rfl

theorem rateChecked_shows (s : State) (k : Nat) : (rateChecked s k).mem = s.mem ∧ (rateChecked s k).regs = s.regs := by
  unfold rateChecked
  dsimp only
  split
  · exact ⟨rfl, rfl⟩
  · split
    · exact ⟨rfl, rfl⟩
    · split
      · exact ⟨rfl, rfl⟩
      · exact ⟨makeRecord_mem .., makeRecord_regs ..⟩

theorem countCorrected_shows (s : State) (a : Nat) :
    (countCorrected s a).mem = s.mem ∧ (countCorrected s a).regs = (satF s (MEM_CECNT (stackOf s a)) MEM_CECNT_CE 1).regs := by
  have hcount : (satF s (MEM_CECNT (stackOf s a)) MEM_CECNT_CE 1).mem = s.mem := putF_mem ..
  rw [countCorrected_eq]
  generalize satF s (MEM_CECNT (stackOf s a)) MEM_CECNT_CE 1 = u at hcount ⊢
  obtain ⟨hm, hr⟩ := rateChecked_shows (correctedNoted u (stackOf s a)) (stackOf s a)
  obtain ⟨hnm, hnr⟩ := correctedNoted_fields u (stackOf s a)
  exact ⟨hm.trans (hnm.trans hcount), hr.trans hnr⟩

/-- One symbol in error is counted. -/
theorem missFill_corrected (hd : a < 2 ^ 40) (hl : sliceLine s a = none) (hr : s.memctl.rerunning = none) {r : ReadResult}
    (hu : dramRead (wakeChannel s a) a r = countCorrected (wakeChannel s a) a) (ht : t = missFill s a r) :
    memSame s t ∧ regsSameBut s t [MEM_CECNT (stackOf s a)] ∧
    getF t (MEM_CECNT (stackOf s a)) MEM_CECNT_CE = min 0xFFFFFFFF (getF s (MEM_CECNT (stackOf s a)) MEM_CECNT_CE + 1) := by
  obtain ⟨hregs, hmem, -⟩ := missFill_fields hd hl hr hu ht
  obtain ⟨hcm, hcr⟩ := countCorrected_shows (wakeChannel s a) a
  have hstack : stackOf (wakeChannel s a) a = stackOf s a := by rw [wakeChannel_frame]; rfl
  have hw : (wakeChannel s a).regs = s.regs := by rw [wakeChannel_frame]
  have hwm : (wakeChannel s a).mem = s.mem := by rw [wakeChannel_frame]
  rw [hstack] at hcr
  refine ⟨memSame_of_mem (hmem.trans (hcm.trans hwm)), ?_, ?_⟩
  · exact ((regsSameBut_of_regs hw _).satF List.mem_cons_self _ _).of_regs (hregs.trans hcr)
  · rw [getF_congr (hregs.trans hcr), getF_satF (by decide) (by decide), getF_congr hw]
    rfl

theorem dramRead_retried {bad : Nat} {meta_ : BitVec 15} {loc : Bool} (h : 2 ≤ bad ∨ meta_ ≠ 0 ∨ loc = true) (s : State) (a : Nat) :
    dramRead s a (.symbols bad meta_ loc true) = satF s MEM_UECNT MEM_UECNT_RETRIED 1 := by
  have hcode : codeResult bad meta_.toNat loc = .uncorrectable := by
    refine if_pos ?_
    simp only [Bool.or_eq_true, bne_iff_ne, decide_eq_true_eq]
    rcases h with h | h | h
    · exact .inr h
    · refine .inl (.inr fun h0 => h (BitVec.eq_of_toNat_eq h0))
    · exact .inl (.inl h)
  unfold dramRead
  dsimp only
  rw [hcode]
  exact if_pos rfl

/-! ## Poison (R256) -/

/-- A line noted as poisoned. -/
def poisonNoted (s : State) (a : Nat) : State :=
  { s with memctl := { s.memctl with poison := lineBase a :: s.memctl.poison.filter (· != lineBase a) } }

/-- The line counted, and its address shown. -/
def poisonCounted (s : State) (a : Nat) : State :=
  setPair (satF (poisonNoted s a) MEM_UECNT MEM_UECNT_POISONED 1) MEM_UEADDR_LO MEM_UEADDR_HI (lineBase a % 2 ^ 48)

theorem poisonLine_eq (s : State) (a : Nat) :
    poisonLine s a = makeRecord (poisonCounted s a) (srcHearth (homeOf s a)) 0x182 [w64 (lineBase a)] := rfl

/-- A line that belongs to no plan, ward or journal is poisoned, and nothing else happens. -/
theorem poisonAndReport_free (hp : s.surv.plan = []) (hw : s.surv.wards = []) (hj : s.intake.journal = []) (a : Nat) :
    poisonAndReport s a = poisonLine s a := by
  have hplan : (poisonLine s a).surv = s.surv := by
    rw [poisonLine_eq, makeRecord_surv, poisonCounted, setPair, setR_surv, setR_surv, satF, putF_surv]
    rfl
  have hjournal : (poisonLine s a).intake = s.intake := by
    rw [poisonLine_eq, makeRecord_intake, poisonCounted, setPair, setR_intake, setR_intake, satF, putF_intake]
    rfl
  have hext : ∀ k, extentsOf [] k = [] := fun k => by simp [extentsOf, recExtents, wfield, bitsOf]
  rw [poisonAndReport, smithPoison, hplan, hp, hjournal, hj, wardOf, wardSlotOf, hplan, hw]
  simp [hext, inExtents]

theorem poisonLine_shows (s : State) (a : Nat) (ht : t = poisonLine s a) : t.mem = s.mem ∧
    t.memctl.poison = lineBase a :: s.memctl.poison.filter (· != lineBase a) ∧
    getF t MEM_UECNT MEM_UECNT_POISONED = min 0xFFFF (getF s MEM_UECNT MEM_UECNT_POISONED + 1) := by
  have hmem : t.mem = s.mem := by
    rw [ht, poisonLine_eq, makeRecord_mem, poisonCounted, setPair, setR_mem, setR_mem, satF, putF_mem]
    rfl
  have hctl : t.memctl = (poisonNoted s a).memctl := by
    rw [ht, poisonLine_eq, makeRecord_memctl, poisonCounted, setPair, setR_memctl, setR_memctl, satF, putF_memctl]
  have hnoted : (poisonNoted s a).regs = s.regs := rfl
  have hregs : t.regs = (poisonCounted s a).regs := by rw [ht, poisonLine_eq, makeRecord_regs]
  have hbut : regsSameBut (satF (poisonNoted s a) MEM_UECNT MEM_UECNT_POISONED 1) (poisonCounted s a) [MEM_UEADDR_LO, MEM_UEADDR_HI] :=
    ((regsSameBut.refl _ _).setR List.mem_cons_self _).setR (List.mem_cons_of_mem _ List.mem_cons_self) _
  refine ⟨hmem, by rw [hctl]; rfl, ?_⟩
  rw [getF_congr hregs, hbut.getF (by decide), getF_satF (by decide) (by decide), getF_congr hnoted]
  rfl

theorem missFill_poisoned (hd : a < 2 ^ 40) (hl : sliceLine s a = none) (hr : s.memctl.rerunning = none) (hp : s.surv.plan = [])
    (hw : s.surv.wards = []) (hj : s.intake.journal = []) (ht : t = missFill s a (.uncorrectable false)) :
    poisoned t a = true ∧ memSame s t ∧
    getF t MEM_UECNT MEM_UECNT_POISONED = min 0xFFFF (getF s MEM_UECNT MEM_UECNT_POISONED + 1) ∧
    (∀ b, lineBase b ≠ lineBase a → poisoned t b = poisoned s b) := by
  have hframe := wakeChannel_frame s a
  have hu : dramRead (wakeChannel s a) a (.uncorrectable false) = poisonAndReport (wakeChannel s a) a := rfl
  obtain ⟨hregs, hmem, hctl⟩ := missFill_fields hd hl hr hu ht
  generalize wakeChannel s a = v at hframe hregs hmem hctl
  rw [poisonAndReport_free (by rw [hframe]; exact hp) (by rw [hframe]; exact hw) (by rw [hframe]; exact hj)] at hregs hmem hctl
  obtain ⟨h1, h2, h3⟩ := poisonLine_shows v a rfl
  have hvc : v.memctl = s.memctl := by rw [hframe]
  have hvr : v.regs = s.regs := by rw [hframe]
  have hvm : v.mem = s.mem := by rw [hframe]
  have hpoison : t.memctl.poison = lineBase a :: s.memctl.poison.filter (· != lineBase a) := by rw [hctl, h2, hvc]
  refine ⟨by simp [poisoned, hpoison], memSame_of_mem (hmem.trans (h1.trans hvm)), ?_, fun b hb => ?_⟩
  · rw [getF_congr hregs, h3, getF_congr hvr]
  · rw [Bool.eq_iff_iff]
    simp [poisoned, hpoison, hb]

/-! ## Refresh and scrubbing (R243, R258) -/

theorem homeOf_lt (hd : a < 2 ^ 40) : homeOf s a < 16 := by
  have hj : homeJ a < 8 := Nat.xor_lt_two_pow (n := 3) (by omega) (by omega)
  have hx : (a / 2 ^ 39 % 2) ^^^ (a / 2 ^ 10 % 2) < 2 := Nat.xor_lt_two_pow (n := 1) (by omega) (by omega)
  rw [homeOf, isWindow_of_dram hd, if_neg (by decide), homeUnder]
  split <;> omega

/-- A patrol read. -/
theorem scrubDram_clean (hz : sized s = true) (hd : a < 2 ^ 40) (hr : s.memctl.rerunning = none)
    (hh : getF s MEM_CTL MEM_CTL_SCRUB_HRS ≠ 0) (ht : t = scrubDram s a .clean) :
    t = { s with hearths := t.hearths, power := t.power } ∧
    (hearthAt t (homeOf s a)).scrubbed = (hearthAt s (homeOf s a)).scrubbed + 1 := by
  have hlen : homeOf s a < s.hearths.length := hearth_lt hz (homeOf_lt hd)
  have hda : isDram a = true := decide_eq_true hd
  generalize hu : (modHearth s (homeOf s a) fun h => { h with scrubbed := h.scrubbed + 1 }) = u at *
  have hgo : t = touchLine (missFill u a .clean) (lineBase a) false false := by
    rw [ht, scrubDram, if_neg (by simp [hh, hda, channelHeld_none hr]), hu]
  have huf : u = { s with hearths := u.hearths } := by rw [← hu]; rfl
  have hone : (hearthAt u (homeOf s a)).scrubbed = (hearthAt s (homeOf s a)).scrubbed + 1 := by rw [← hu, hearthAt_modHearth hlen]
  obtain ⟨hframe, hslices⟩ := missFill_clean (s := u) hd (by rw [huf]; exact hr) rfl
  have htouch := touched_touchLine (missFill u a .clean) (lineBase a) false false
  rw [← hgo] at htouch
  refine ⟨?_, ?_⟩
  · rw [htouch.frame, hframe, huf]
  · rw [(htouch.slices _).eq, (hslices _).eq]
    exact hone

/-- A word of core store that one bit is wrong in. -/
theorem scrubCoreStore_one {i : Nat} (hin : inService s i = true) : scrubCoreStore s i 1 = satF s (HCH_SCE (hearthOf i)) HCH_SCE_CS_CE 1 :=
  if_pos (by simp [hin])

theorem strobeRecentre_shows (hz : sized s = true) (h : HearthId) (chan : BitVec 7) (ht : t = strobeRecentre s h chan.toNat) :
    t = { s with hearths := t.hearths } ∧ assocGet chan.toNat (hearthAt t h).recentred = some s.time.ns := by
  refine ⟨by rw [ht]; rfl, ?_⟩
  rw [ht, strobeRecentre, hearthAt_modHearth (hearth_lt hz h.isLt)]
  simp [assocGet_assocSet]
  rfl

theorem refresh_shows (hz : sized s = true) (h : HearthId) (hot : Bool) (ht : t = refresh s h hot) :
    t = { s with hearths := t.hearths } ∧ hearthAt t h = { (hearthAt s h) with hotRefresh := hot, lastRefresh := s.time.ns } := by
  refine ⟨by rw [ht]; rfl, ?_⟩
  rw [ht, refresh, hearthAt_modHearth (hearth_lt hz h.isLt)]
  rfl

end

/-! ## The obligation -/

/-- Settles O28, clause by clause: accesses of a line, what a miss finds, refresh and the scrubber. -/
theorem linesAndErrors : Obligations.LinesAndErrors := by
  intro ag addr s a hz ha
  subst ha
  refine ⟨fun words mask data hd h8 hline hheld => ⟨?_, ?_, ?_⟩, fun hr => ?_⟩
  · exact .of rfl (lineRead_held hd h8 hheld words 0) rfl
  · exact .of rfl (lineWrite_held hd hline hheld mask.toNat data) rfl
  · exact .of rfl (missFill_held hheld .clean) rfl
  have hfree : channelHeld s addr.toNat 1 = false := channelHeld_none hr ..
  have hpart : ∀ mask : BitVec 16, mask ≠ 0xFFFF → mask.toNat % 65536 ≠ 0xFFFF := fun mask hm h0 =>
    hm (BitVec.eq_of_toNat_eq (by have := mask.isLt; rw [Nat.mod_eq_of_lt this] at h0; exact h0))
  refine ⟨fun words hopen h8 hp => ?_, fun words hd hu => ?_, fun mask data hd hline hm => ?_, fun mask data hd hline hm hp => ?_,
    fun hd hl => ⟨?_, ?_, fun ok => ?_, fun bad meta_ loc hbad => ?_, ?_, fun hplan hwards hj => ?_⟩, fun h hot chan => ⟨?_, ?_⟩,
    fun raced hd hh => ?_, fun i off hin => ?_⟩
  · exact .of rfl rfl (lineRead_data hopen h8 hp hr words rfl)
  · exact .of rfl (lineRead_unassigned hu words 0) rfl
  · have hw : LineWritten s (lineWrite s addr.toNat mask.toNat data) addr.toNat mask.toNat data := by
      by_cases hfull : mask = 0xFFFF
      · subst hfull
        exact lineWrite_whole hd hline hfree data rfl
      · exact lineWrite_masked hd hline hfree (hpart mask hfull) (hm.resolve_left hfull) data rfl
    exact .of rfl rfl ⟨hw.answer, hw.healed, hw.words, hw.outside, hw.frame⟩
  · exact .of rfl (lineWrite_poison hd hline hfree (hpart mask hm) hp data) rfl
  · exact .of rfl rfl (missFill_clean hd hr rfl).1
  · exact .of rfl rfl (missFill_retried hd hl hr rfl rfl)
  · obtain ⟨h1, -, h3⟩ := missFill_corrected (t := missFill s addr.toNat (.symbols 1 0 false ok)) hd hl hr rfl rfl
    exact .of rfl rfl ⟨h1, h3⟩
  · obtain ⟨h1, -, h3⟩ := missFill_retried (t := missFill s addr.toNat (.symbols bad meta_ loc true)) hd hl hr (dramRead_retried hbad _ _) rfl
    exact .of rfl rfl ⟨h1, h3⟩
  · exact .of rfl rfl (missFill_corrected hd hl hr rfl rfl)
  · exact .of rfl rfl (missFill_poisoned hd hl hr hplan hwards hj rfl)
  · exact .of rfl rfl (refresh_shows hz h hot rfl)
  · exact .of rfl rfl (strobeRecentre_shows hz h chan rfl)
  · exact .of rfl rfl (scrubDram_clean hz hd hr hh rfl)
  · refine .of rfl (scrubCoreStore_one hin) ⟨?_, (regsSameBut.refl s _).satF List.mem_cons_self _ _, putF_frame ..⟩
    rw [getF_satF (by decide) (by decide)]
    rfl

end Sys2Proof.Machine
end

section
/-! PROOFS. Reductions and windows (R253, R261), region pairs and their migration (R246, R248), margins and training (R262 to R264). -/

namespace Sys2Proof.Machine

section
variable {s t : State} {a : Nat}

/-! ## Reductions (R261) -/

theorem length_readWords (s : State) (a n : Nat) : (readWords s a n).length = n := by simp [readWords]

theorem length_reduceWords (op : Nat) (xs ys : List Word64) (h : xs.length = ys.length) : (reduceWords op xs ys).1.length = ys.length := by
  induction xs generalizing ys with
  | nil =>
    cases ys with
    | nil => rfl
    | cons y ys => cases h
  | cons x xs ih =>
    cases ys with
    | nil => cases h
    | cons y ys => exact congrArg (· + 1) (ih ys (Nat.succ.inj h))

theorem wordChunks_inLine {ws : List Word64} (hw : ws ≠ []) (hl : a % 128 + 8 * ws.length ≤ 128) (k : Nat) :
    wordChunks (k + 2) a ws = [(a, ws)] := by
  have hlen : ws.length ≤ (128 - a % 128) / 8 := by omega
  have hne : ws.isEmpty = false := by simpa using hw
  rw [wordChunks, if_neg (by simp [hne]), List.take_of_length_le hlen, List.drop_of_length_le hlen]
  rfl

theorem reduceAt_inLine {ws : List Word64} (hw : ws ≠ []) (hl : a % 128 + 8 * ws.length ≤ 128) (s : State) (op : Nat) :
    reduceAt s a op ws = reduceLine s a op ws := by
  rw [reduceAt, wordChunks_inLine hw hl]
  rfl

theorem countCrucibleVoids_mem (s : State) (h n b : Nat) : (countCrucibleVoids s h n b).mem = s.mem := by
  unfold countCrucibleVoids
  split
  · rfl
  · dsimp only
    split
    · exact (makeRecord_mem ..).trans (putF_mem ..)
    · exact putF_mem ..

/-- A line reduced: its words, what is counted of them, and its place in the slice. -/
def reducedLine (s : State) (a op : Nat) (ws : List Word64) : State :=
  let r := reduceWords op (readWords s a ws.length) ws
  touchLine (countCrucibleVoids (writeWords s a r.1) (homeOf s a) r.2 a) (lineBase a) true true

theorem reducedLine_mem (s : State) (a op : Nat) (ws : List Word64) :
    (reducedLine s a op ws).mem = (writeWords s a (reduceWords op (readWords s a ws.length) ws).1).mem :=
  (touchLine_mem ..).trans (countCrucibleVoids_mem ..)

theorem reduceLine_open {ws : List Word64} (hw : ws ≠ []) (hopen : openDram s a (8 * ws.length)) {op : Nat} :
    reduceLine s a op ws = (reducedLine s a op ws, .ok 0) := by
  obtain ⟨hd, hn, has, hc⟩ := hopen
  rw [reduceLine, if_neg (by simpa using hw), if_neg (by simp [isWindow_of_dram hd]), if_neg (by simp [has]),
    if_neg (by simp [hc.not_poisoned hn])]
  rfl

theorem crucibleReduction_open {op : Nat} (hop : op ≤ 4) (ha : a % 8 = 0) {ws : List Word64} (hw : ws ≠ [])
    (hl : a % 128 + 8 * ws.length ≤ 128) (hopen : openDram s a (8 * ws.length)) (hh : channelHeld s a (8 * ws.length) = false)
    (ht : t = crucibleReduction s op a ws) : t.answer = .done ∧ memSameOutside s t a (8 * ws.length) ∧
    readWords t a ws.length = (reduceWords op (readWords s a ws.length) ws).1 := by
  have hgo : t = answering (reducedLine s a op ws) .done := by
    rw [ht, crucibleReduction, if_neg (by simp [hop.not_gt, ha]), if_neg (by simp [hh]), reduceAt_inLine hw hl, reduceLine_open hw hopen]
    rfl
  have hmem := reducedLine_mem s a op ws
  have htm : t.mem = (reducedLine s a op ws).mem := by rw [hgo]; rfl
  have hlen : (reduceWords op (readWords s a ws.length) ws).1.length = ws.length := length_reduceWords _ _ _ (length_readWords ..)
  generalize (reduceWords op (readWords s a ws.length) ws).1 = rs at hmem hlen
  have hout := memSameOutside_writeBytes s a (bytesOfWords rs)
  rw [length_bytesOfWords, hlen] at hout
  refine ⟨by rw [hgo]; rfl, memSameOutside_of_mem hout (htm.trans hmem), ?_⟩
  rw [readWords_congr (htm.trans hmem), ← hlen]
  exact readWords_writeWords s a rs

/-! ### Poison -/

theorem crucibleAtomic_poison (hd : a < 2 ^ 40) (hp : poisoned s a = true) (has : assigned s a 8 = true) (ha : a % 8 = 0)
    (hr : s.memctl.rerunning = none) {op : Nat} (hop : op ≤ 9) (x cmp : Word64) : crucibleAtomic s op a x cmp =
    answering (satF s (HCH_CRUC (homeOf s a)) HCH_CRUC_REFUSED 1) .poison := by
  rw [crucibleAtomic, if_neg (by simp [hop.not_gt, ha]), if_neg (by simp [channelHeld_none hr]), atomicAt,
    if_neg (by simp [isWindow_of_dram hd]), if_neg (by simp [has]), if_pos hp]
  rfl

theorem crucibleReduction_poison (hd : a < 2 ^ 40) (hp : poisoned s a = true) (has : assigned s a 8 = true) (ha : a % 8 = 0)
    (hr : s.memctl.rerunning = none) {op : Nat} (hop : op ≤ 4) {ws : List Word64} (hl : ws.length = 1) : crucibleReduction s op a ws =
    answering (satF s (HCH_CRUC (homeOf s a)) HCH_CRUC_REFUSED 1) .poison := by
  have hw : ws ≠ [] := fun h0 => by rw [h0] at hl; cases hl
  have has' : assigned s a (8 * ws.length) = true := by rw [hl]; exact has
  rw [crucibleReduction, if_neg (by simp [hop.not_gt, ha]), if_neg (by simp [channelHeld_none hr]), reduceAt_inLine hw (by omega), reduceLine,
    if_neg (by simpa using hw), if_neg (by simp [isWindow_of_dram hd]), if_neg (by simp [has']), if_pos hp]
  rfl

theorem refused_shows (s : State) (a n : Nat) (f : Fld) (x : Answer) :
    memSame s (answering (satF s a f n) x) ∧ (answering (satF s a f n) x).answer = x := by
  have hmem : (satF s a f n).mem = s.mem := putF_mem ..
  exact ⟨memSame_of_mem hmem, rfl⟩

/-! ## Windows (R253) -/

theorem not_isDram_of_window (h : isWindow a = true) : isDram a = false := by
  by_contra hd
  have hlt : a < 2 ^ 40 := of_decide_eq_true (Bool.not_eq_false _ ▸ hd)
  rw [isWindow_of_dram hlt] at h
  cases h

theorem windowAccess_read (ag : Agent) (hw : isWindow a = true) (ha : a % 8 = 0) {n : Nat} (hn : 0 < n)
    (has : assigned s a (8 * n) = true) : windowAccess s ag a (.read n) false = answering s (.data (readWords s a n)) := by
  have hread : memRead s a (8 * n) = (s, .ok, readBytes s a (8 * n)) := by
    rw [memRead, if_neg (by omega), if_neg (by simp [has]), if_neg (by simp [not_isDram_of_window hw])]
  rw [windowAccess, if_neg (by simp [hw, ha])]
  dsimp only
  rw [hread, if_neg (by simp), if_neg (by simp)]
  exact congrArg (fun ws => answering s (.data ws)) (wordsOf_readBytes ..)

theorem windowAccess_write (ag : Agent) (hw : isWindow a = true) (ha : a % 8 = 0) {ws : List Word64} (hn : ws ≠ [])
    (has : assigned s a (8 * ws.length) = true) (e : Bool) (ht : t = windowAccess s ag a (.write ws) e) :
    t.answer = .done ∧ readWords t a ws.length = ws ∧ memSameOutside s t a (8 * ws.length) ∧ t = { s with mem := t.mem, answer := .done } := by
  have hne : (bytesOfWords ws).isEmpty = false := by
    cases ws with
    | nil => exact absurd rfl hn
    | cons w ws => rfl
  have hwrite : memWrite s a (bytesOfWords ws) = (writeWords s a ws, .ok) := by
    rw [memWrite, if_neg (by simp [hne]), length_bytesOfWords, if_neg (by simp [has]), if_neg (by simp [not_isDram_of_window hw])]
    rfl
  have hgo : t = answering (writeWords s a ws) .done := by
    rw [ht, windowAccess, if_neg (by simp [hw, ha])]
    dsimp only
    rw [hwrite]
    rfl
  have hout := memSameOutside_writeBytes s a (bytesOfWords ws)
  rw [length_bytesOfWords] at hout
  subst hgo
  exact ⟨rfl, readWords_writeWords s a ws, memSameOutside_of_mem hout rfl, rfl⟩

theorem windowAccess_atomic (ag : Agent) (hw : isWindow a = true) (ha : a % 8 = 0) (e : Bool) :
    windowAccess s ag a .atomic e = answering s (turnedAway ag) := by
  rw [windowAccess, if_neg (by simp [hw, ha])]

/-! ## Region pairs (R246, R248) -/

theorem regionAt_pair (s : State) (p : Nat) : (regionAt s p).pair = p := by
  rw [regionAt]
  cases h : s.memctl.regions.find? (·.pair = p) with
  | none => rfl
  | some r => simpa using List.find?_some h

theorem regionAt_setRegion (s : State) (r : Region) : regionAt (setRegion s r) r.pair = r := by
  have hnone : (s.memctl.regions.filter (·.pair != r.pair)).find? (·.pair = r.pair) = none := by
    rw [List.find?_eq_none]
    intro x hx
    simpa using (List.mem_filter.1 hx).2
  unfold regionAt setRegion
  dsimp only
  split
  · next h =>
    rw [List.nil_append, hnone]
    exact h.symm
  · rw [List.singleton_append, List.find?_cons_of_pos (by simp)]
    rfl

theorem regionAt_setRegion_ne (s : State) {r : Region} {q : Nat} (h : q ≠ r.pair) : regionAt (setRegion s r) q = regionAt s q := by
  have hfilter : (s.memctl.regions.filter (·.pair != r.pair)).find? (·.pair = q) = s.memctl.regions.find? (·.pair = q) := by
    rw [List.find?_filter]
    congr 1
    funext x
    by_cases hx : x.pair = q
    · simp [hx, h]
    · simp [hx]
  unfold regionAt setRegion
  dsimp only
  split
  · rw [List.nil_append, hfilter]
  · rw [List.singleton_append, List.find?_cons_of_neg (by simpa using h.symm), hfilter]

/-- One region pair is set, and nothing else. -/
structure RegionSet (s t : State) (p : Nat) (r : Region) : Prop where
  region : regionAt t p = r
  others : ∀ q, q ≠ p → regionAt t q = regionAt s q
  frame : t = { s with memctl := t.memctl }

theorem regionSet_of {p : Nat} {r : Region} (hp : r.pair = p) (ht : t = setRegion s r) : RegionSet s t p r := by
  subst ht hp
  exact ⟨regionAt_setRegion s r, fun q hq => regionAt_setRegion_ne s hq, rfl⟩

theorem regionWord_reads (r : Region) (c al po : Bool) : bitsOf 3 2 (regionWord r (bit c) al po) = bit c ∧
    (regionWord r (bit c) al po).testBit 0 = po ∧ (regionWord r (bit c) al po).testBit 1 = al := by
  unfold regionWord
  generalize r.busy = b
  revert b c al po
  decide

/-- What a write of MEM_RGN that is not refused leaves. -/
def regionAfter (r : Region) (c al po : Bool) : Region :=
  { r with closed := c, alloc := al, policy := po, busy := r.busy || po != r.policy }

theorem regionWrite_taken {r : Region} (hr : r = regionAt s (regionSel s)) {c al po : Bool} (h : regionRefused r (bit c) po = false) :
    regionWrite s (regionWord r (bit c) al po) = setRegion s (regionAfter r c al po) := by
  obtain ⟨h1, h2, h3⟩ := regionWord_reads r c al po
  have hc : decide (bit c = 1) = c := by cases c <;> rfl
  rw [regionWrite, ← hr, h1, h2, h3, if_neg (by simp [h]), hc]
  rfl

theorem regionWrite_refused {r : Region} (hr : r = regionAt s (regionSel s)) {c al po : Bool} (h : regionRefused r (bit c) po = true) :
    regionWrite s (regionWord r (bit c) al po) =
      makeRecord s srcSmith 0x180 [w64 (regionSel s + regionWord r (bit c) al po % 2 ^ 32 * 2 ^ 32)] := by
  obtain ⟨h1, h2, -⟩ := regionWord_reads r c al po
  rw [regionWrite, ← hr, h1, h2, if_pos h]

section
variable {agent : Nat} {p : Nat} {r : Region} (hp : p = getF s MEM_RGN_SEL MEM_RGN_SEL_PAIR) (hr : r = regionAt s p)
  (hm : mayWrite s agent MEM_RGN = true)
include hp hr hm

theorem regionCommand_eq (f : Region → Nat) : regionCommand s agent f = regionWrite s (f r) := by
  have hsel : regionAt s (regionSel s) = r := by rw [hr, hp, regionSel]
  rw [regionCommand, if_pos hm, hsel]

theorem regionCommand_taken {c al po : Bool} (h : regionRefused r (bit c) po = false) {f : Region → Nat}
    (hf : f r = regionWord r (bit c) al po) (ht : t = regionCommand s agent f) : RegionSet s t p (regionAfter r c al po) := by
  have hsel : r = regionAt s (regionSel s) := by rw [hr, hp, regionSel]
  refine regionSet_of ?_ (by rw [ht, regionCommand_eq hp hr hm, hf, regionWrite_taken hsel h])
  rw [regionAfter, hr]
  exact regionAt_pair s p

end

/-- With the policy left as it is a pair that is not busy may be closed or opened. -/
theorem regionRefused_same {r : Region} {c : Bool} (h : c = r.closed ∨ r.busy = false) : regionRefused r (bit c) r.policy = false := by
  unfold regionRefused
  generalize r.closed = cl at *
  generalize r.busy = b at *
  generalize r.policy = po
  revert c cl b po
  decide

theorem regionAfter_same (r : Region) (c al : Bool) : regionAfter r c al r.policy = { r with closed := c, alloc := al } := by
  rw [regionAfter]
  simp

theorem migrationComplete_shows (hz : sized s = true) {p : Nat} (hb : (regionAt s p).busy = true) (ht : t = migrationComplete s p) :
    regionAt t p = { (regionAt s p) with busy := false } ∧ memSame s t ∧
    (∀ h : HearthId, ∀ l ∈ (hearthAt t h).slice, pairOf l.line ≠ p) ∧ t = { s with memctl := t.memctl, hearths := t.hearths } := by
  have hgo : t = { setRegion s { (regionAt s p) with busy := false } with
      hearths := s.hearths.map fun h => { h with slice := h.slice.filter fun l => pairOf l.line != p } } := by
    rw [ht, migrationComplete]
    exact if_pos hb
  have hregion : regionAt t p = regionAt (setRegion s { (regionAt s p) with busy := false }) p := by rw [hgo]; rfl
  refine ⟨?_, memSame_of_mem (by rw [hgo]; rfl), fun h l hl => ?_, by rw [hgo]; rfl⟩
  · have hset := regionAt_setRegion s { (regionAt s p) with busy := false }
    rw [hregion]
    rwa [show Region.pair { (regionAt s p) with busy := false } = p from regionAt_pair s p] at hset
  · have hlen : h.val < s.hearths.length := hearth_lt hz h.isLt
    have hat : (hearthAt t h).slice = (hearthAt s h).slice.filter fun l => pairOf l.line != p := by
      rw [hgo]
      simp [hearthAt, List.getD_eq_getElem?_getD, hlen]
    rw [hat] at hl
    simpa using (List.mem_filter.1 hl).2

/-! ## Margins (R262 to R264) -/

theorem mergeMargin_pass (o : Option MarginResult) {m : MarginResult} (h : marginPass m = true) :
    mergeMargin o m = { m with attempts := (o.getD ⟨0, 0, 0, 0, 0, 0, 0, 0, 0⟩).attempts } := if_pos h

theorem mergeMargin_fail (o : MarginResult) {m : MarginResult} (h : marginPass m = false) :
    mergeMargin (some o) m = { o with rdW := m.rdW, rdH := m.rdH, wrW := m.wrW, wrH := m.wrH } := if_neg (by simp [h])

/-- A rerun that has ended, with its margins. -/
def rerunEnded (s : State) (c : Nat) (m : MarginResult) : State :=
  { s with memctl := { s.memctl with
    rerunning := none, margins := assocSet c (mergeMargin (assocGet c s.memctl.margins) m) s.memctl.margins } }

theorem marginRerunComplete_pass {c : Nat} {m : MarginResult} (hc : s.memctl.rerunning = some c) (h : marginPass m = true) :
    marginRerunComplete s m = rerunEnded s c m := by
  rw [marginRerunComplete, hc]
  exact if_pos h

theorem marginRerunComplete_fail {c : Nat} {m : MarginResult} (hc : s.memctl.rerunning = some c) (h : marginPass m = false) :
    marginRerunComplete s m = requestService (marginRecord (rerunEnded s c m) 0x184 c m) := by
  rw [marginRerunComplete, hc]
  exact if_neg (by simp [h])

theorem requestService_shows (u : State) : (requestService u).pins.svcReq = true ∧
    flag (requestService u) DEV_STATUS DEV_STATUS_SVC_REQ = true ∧ (requestService u).memctl = u.memctl ∧
    (requestService u).recorder = u.recorder ∧ (requestService u).mem = u.mem ∧ (requestService u).boot = u.boot ∧
    regsSameBut u (requestService u) [DEV_STATUS] := by
  have hpins : ∀ v : State, ({ v with pins := { u.pins with svcReq := true } } : State).memctl = v.memctl ∧
      ({ v with pins := { u.pins with svcReq := true } } : State).recorder = v.recorder ∧
      ({ v with pins := { u.pins with svcReq := true } } : State).mem = v.mem ∧
      ({ v with pins := { u.pins with svcReq := true } } : State).boot = v.boot ∧
      ({ v with pins := { u.pins with svcReq := true } } : State).regs = v.regs := fun _ => ⟨rfl, rfl, rfl, rfl, rfl⟩
  obtain ⟨h1, h2, h3, h4, h5⟩ := hpins (putF u DEV_STATUS DEV_STATUS_SVC_REQ 1)
  refine ⟨rfl, ?_, h1.trans (putF_memctl ..), h2.trans (putF_recorder ..), h3.trans (putF_mem ..), h4.trans (putF_boot ..), ?_⟩
  · exact (flag_congr h5 ..).trans (flag_putF_one (by decide) (by decide) ..)
  · exact ((regsSameBut.refl u _).putF List.mem_cons_self _ _).of_regs h5

theorem marginRerunComplete_fail_shows {c : Nat} {m : MarginResult} (hc : s.memctl.rerunning = some c) (h : marginPass m = false)
    (ht : t = marginRerunComplete s m) : t.memctl.rerunning = none ∧ t.pins.svcReq = true ∧
    flag t DEV_STATUS DEV_STATUS_SVC_REQ = true ∧
    (∀ o, assocGet c s.memctl.margins = some o →
      (assocGet c t.memctl.margins).map (fun x => (x.rdW, x.rdDly, x.wrDly)) = some (m.rdW, o.rdDly, o.wrDly)) ∧
    t.recorder = (makeRecord s (srcHearth (channelHearth c)) 0x184 [w64 (c + marginRes m * 2 ^ 32)]).recorder := by
  rw [marginRerunComplete_fail hc h] at ht
  obtain ⟨h1, h2, h3, h4, -⟩ := requestService_shows (marginRecord (rerunEnded s c m) 0x184 c m)
  rw [← ht] at h1 h2 h3 h4
  have hctl : t.memctl = (rerunEnded s c m).memctl := h3.trans (makeRecord_memctl ..)
  have hrec : (marginRecord (rerunEnded s c m) 0x184 c m).recorder =
      (makeRecord s (srcHearth (channelHearth c)) 0x184 [w64 (c + marginRes m * 2 ^ 32)]).recorder :=
    makeRecord_recorder_congr (s := s) (t := rerunEnded s c m) rfl rfl rfl _ _ _
  refine ⟨by rw [hctl]; rfl, h1, h2, fun o ho => ?_, h4.trans hrec⟩
  have hget : assocGet c t.memctl.margins = some (mergeMargin (some o) m) := by
    rw [hctl, ← ho]
    exact (assocGet_assocSet ..).trans (if_pos rfl)
  rw [hget, mergeMargin_fail o h]
  rfl

/-! ### Training (Table 9-5) -/

/-- Training over, with a margin for each channel. -/
def trainingEnded (s : State) (rs : List MarginResult) : State :=
  let s := putF s MEM_STATUS MEM_STATUS_TRAINING 0
  { s with memctl := { s.memctl with margins := rs.zipIdx.map fun p => (p.2, p.1) } }

/-- The channels that failed. -/
def failedChannels (rs : List MarginResult) : List (Nat × MarginResult) :=
  (rs.zipIdx.map fun p => (p.2, p.1)).filter fun p => !marginPass p.2

theorem trainingComplete_eq {rs : List MarginResult} (hl : rs.length = 2048) (ht : flag s MEM_STATUS MEM_STATUS_TRAINING = true) :
    trainingComplete s rs = if (failedChannels rs).isEmpty then wipeDram (putF (trainingEnded s rs) MEM_STATUS MEM_STATUS_TRAINED 1)
      else
        let s := (failedChannels rs).foldl (fun t p => marginRecord t 0x183 p.1 p.2) (putF (trainingEnded s rs) MEM_STATUS MEM_STATUS_TRAIN_FAIL 1)
        requestService { s with boot := { s.boot with stuck := true } } := if_neg (by simp [hl, ht])

theorem failedChannels_empty (rs : List MarginResult) : (failedChannels rs).isEmpty = rs.all marginPass := by
  rw [Bool.eq_iff_iff, List.isEmpty_iff, failedChannels, List.filter_eq_nil_iff, List.all_eq_true]
  simp only [List.mem_map, Prod.exists, forall_exists_index, and_imp, Prod.forall, Prod.mk.injEq, Bool.not_eq_true', Bool.not_eq_false]
  constructor
  · intro h x hx
    obtain ⟨k, hk, hget⟩ := List.getElem_of_mem hx
    exact h k x x k (by rw [← hget]; exact List.mem_zipIdx_iff_getElem?.2 (by simp [hk])) rfl rfl
  · rintro h n m x k hx rfl rfl
    exact h x (List.fst_mem_of_mem_zipIdx hx)

theorem trainingEnded_fields (s : State) (rs : List MarginResult) : (trainingEnded s rs).mem = s.mem ∧
    (trainingEnded s rs).regs = (putF s MEM_STATUS MEM_STATUS_TRAINING 0).regs := by
  have hctl : ∀ (v : State) (m : List (Nat × MarginResult)), ({ v with memctl := { v.memctl with margins := m } } : State).mem = v.mem ∧
      ({ v with memctl := { v.memctl with margins := m } } : State).regs = v.regs := fun _ _ => ⟨rfl, rfl⟩
  obtain ⟨h1, h2⟩ := hctl (putF s MEM_STATUS MEM_STATUS_TRAINING 0) (rs.zipIdx.map fun p => (p.2, p.1))
  exact ⟨h1.trans (putF_mem ..), h2⟩

theorem wipeDram_fields (s : State) : (wipeDram s).regs = s.regs ∧
    (∀ a, a < 2 ^ 40 → readByte (wipeDram s) a = 0 ∧ poisoned (wipeDram s) a = false) ∧
    (∀ a, 2 ^ 40 ≤ a → readByte (wipeDram s) a = readByte s a) := by
  have hmem : ∀ a, readByte (wipeDram s) a = if !isDram a then readByte s a else 0 := fun a => by
    unfold readByte wipeDram memGet
    rw [assocGet_filter _ (fun k => !isDram k) (fun _ => rfl)]
    split <;> rfl
  refine ⟨rfl, fun a ha => ⟨?_, rfl⟩, fun a ha => ?_⟩
  · have hd : isDram a = true := decide_eq_true ha
    rw [hmem, if_neg (by simp [hd])]
  · have hd : isDram a = false := decide_eq_false (Nat.not_lt.2 ha)
    rw [hmem, if_pos (by simp [hd])]

theorem trainingComplete_pass {rs : List MarginResult} (hl : rs.length = 2048) (hf : flag s MEM_STATUS MEM_STATUS_TRAINING = true)
    (hp : rs.all marginPass = true) (ht : t = trainingComplete s rs) : flag t MEM_STATUS MEM_STATUS_TRAINED = true ∧
    flag t MEM_STATUS MEM_STATUS_TRAINING = false ∧ (∀ a, a < 2 ^ 40 → readByte t a = 0 ∧ poisoned t a = false) ∧
    (∀ a, 2 ^ 40 ≤ a → readByte t a = readByte s a) := by
  rw [trainingComplete_eq hl hf, failedChannels_empty, if_pos hp] at ht
  obtain ⟨hmem, hregs⟩ := trainingEnded_fields s rs
  generalize trainingEnded s rs = u at ht hmem hregs
  obtain ⟨h1, h2, h3⟩ := wipeDram_fields (putF u MEM_STATUS MEM_STATUS_TRAINED 1)
  rw [← ht] at h1 h2 h3
  refine ⟨?_, ?_, h2, fun a ha => ?_⟩
  · rw [flag_congr h1]
    exact flag_putF_one (by decide) (by decide) ..
  · rw [flag_congr h1, flag_putF_apart (by decide) (by decide) (by decide) (by decide), flag_congr hregs]
    exact flag_putF_zero (by decide) (by decide) ..
  · exact (h3 a ha).trans (readByte_congr ((putF_mem ..).trans hmem) a)

theorem marginRecords_fields (cs : List (Nat × MarginResult)) (u : State) (typ : Nat) :
    (cs.foldl (fun t p => marginRecord t typ p.1 p.2) u).mem = u.mem ∧ (cs.foldl (fun t p => marginRecord t typ p.1 p.2) u).regs = u.regs := by
  induction cs generalizing u with
  | nil => exact ⟨rfl, rfl⟩
  | cons c cs ih =>
    obtain ⟨h1, h2⟩ := ih (marginRecord u typ c.1 c.2)
    exact ⟨h1.trans (makeRecord_mem ..), h2.trans (makeRecord_regs ..)⟩

theorem trainingComplete_fail {rs : List MarginResult} (hl : rs.length = 2048) (hf : flag s MEM_STATUS MEM_STATUS_TRAINING = true)
    (hp : rs.all marginPass = false) (ht : t = trainingComplete s rs) : flag t MEM_STATUS MEM_STATUS_TRAIN_FAIL = true ∧
    t.boot.stuck = true ∧ t.pins.svcReq = true ∧ memSame s t := by
  rw [trainingComplete_eq hl hf, failedChannels_empty, if_neg (by simp [hp])] at ht
  obtain ⟨hmem, -⟩ := trainingEnded_fields s rs
  generalize trainingEnded s rs = u at ht hmem
  obtain ⟨h1, h2⟩ := marginRecords_fields (failedChannels rs) (putF u MEM_STATUS MEM_STATUS_TRAIN_FAIL 1) 0x183
  generalize (failedChannels rs).foldl (fun t p => marginRecord t 0x183 p.1 p.2) (putF u MEM_STATUS MEM_STATUS_TRAIN_FAIL 1) = v at ht h1 h2
  obtain ⟨k1, -, -, -, k5, k6, k7⟩ := requestService_shows { v with boot := { v.boot with stuck := true } }
  have hgo : t = requestService { v with boot := { v.boot with stuck := true } } := ht
  rw [← hgo] at k1 k5 k6 k7
  refine ⟨?_, by rw [k6], k1, memSame_of_mem (k5.trans (h1.trans ((putF_mem ..).trans hmem)))⟩
  have hv : ({ v with boot := { v.boot with stuck := true } } : State).regs = v.regs := rfl
  rw [k7.flag (by decide), flag_congr (hv.trans h2)]
  exact flag_putF_one (by decide) (by decide) ..

end

/-! ## The obligation -/

/-- Settles O30, clause by clause: reductions and windows, the commands of a region pair, a margin rerun and the training. -/
theorem crucibleRegionsMargins : Obligations.CrucibleRegionsMargins := by
  refine ⟨fun ag addr s a hz ha => ?_, fun agent s hz => ⟨fun p r hp hr hm => ⟨fun al => ?_, fun hb => ⟨?_, ?_⟩, fun po hc hb hpo => ?_,
    fun po hc hpo => ?_⟩, fun pair hb => ?_, fun hm h1 h2 => ?_, fun c h1 h2 h3 h4 h5 => ?_, fun c m hc => ⟨fun hp => ?_, fun hp => ?_⟩,
    fun rs hl hf => ⟨fun hp => ?_, fun hp => ?_⟩⟩⟩
  · subst ha
    refine ⟨fun op data hop h8 hd hl hopen hh => ?_, fun op x cmp data hd hp has h8 hr => ⟨fun hop => ?_, fun hop hl => ?_⟩,
      fun hw h8 => ⟨fun n hn has => ?_, fun data ecc hd has => ?_, fun ecc => ?_⟩⟩
    · exact .of rfl rfl (crucibleReduction_open hop h8 hd hl hopen hh rfl)
    · exact .of rfl (crucibleAtomic_poison hd hp has h8 hr hop x cmp) (refused_shows ..)
    · exact .of rfl (crucibleReduction_poison hd hp has h8 hr hop hl) (refused_shows ..)
    · exact .of rfl (windowAccess_read ag hw h8 hn has) rfl
    · exact .of rfl rfl (windowAccess_write ag hw h8 hd has ecc rfl)
    · refine .of rfl (windowAccess_atomic ag hw h8 ecc) ⟨memSame_of_mem rfl, ?_⟩
      cases ag <;> rfl
  · obtain ⟨h1, h2, h3⟩ := regionCommand_taken (c := r.closed) (al := al) hp hr hm (regionRefused_same (.inl rfl))
      (f := fun r => regionWord r (bit r.closed) al r.policy) (t := regionCommand s agent.toNat _) rfl rfl
    rw [regionAfter_same] at h1
    exact .of rfl rfl ⟨h1, h2, h3⟩
  · obtain ⟨h1, h2, h3⟩ := regionCommand_taken (c := true) (al := r.alloc) hp hr hm (regionRefused_same (.inr hb))
      (f := fun r => regionWord r 1 r.alloc r.policy) (t := regionCommand s agent.toNat _) rfl rfl
    rw [regionAfter_same] at h1
    exact .of rfl rfl ⟨h1, h2, h3⟩
  · obtain ⟨h1, h2, h3⟩ := regionCommand_taken (c := false) (al := r.alloc) hp hr hm (regionRefused_same (.inr hb))
      (f := fun r => regionWord r 0 r.alloc r.policy) (t := regionCommand s agent.toNat _) rfl rfl
    rw [regionAfter_same] at h1
    exact .of rfl rfl ⟨h1, h2, h3⟩
  · have hgo : regionRefused r (bit r.closed) po = false := by simp [regionRefused, hc, hb, bit]
    obtain ⟨h1, h2, h3⟩ := regionCommand_taken (c := r.closed) (al := r.alloc) hp hr hm hgo
      (f := fun r => regionWord r (bit r.closed) r.alloc po) (t := regionCommand s agent.toNat _) rfl rfl
    refine .of rfl rfl ⟨?_, h2, h3⟩
    rw [h1, regionAfter, show (po != r.policy) = true by simpa using hpo, Bool.or_true]
  · have hno : regionRefused r (bit r.closed) po = true := by simp [regionRefused, hc, hpo]
    refine .of rfl (regionCommand_eq hp hr hm _) ?_
    rw [regionWrite_refused (by rw [hr, hp, regionSel]) hno]
    exact makeRecord_eq ..
  · exact .of rfl rfl (migrationComplete_shows hz hb rfl)
  · refine .of rfl (if_pos hm) ?_
    rw [mrgStart, if_neg (by simp [h1, h2])]
    dsimp only
    cases hj : s.job.isSome
    · exact ⟨rfl, rfl, rfl⟩
    · exact ⟨rfl, rfl, rfl⟩
  · have hon : testOn s = false := by simpa [testOn, h2] using h3
    refine .of (u := marginRerun s) (t := startRerun s) rfl ?_ ⟨by rw [startRerun, h1], rfl⟩
    rw [marginRerun, if_neg (by simp [h1, hon, h4]), if_pos (by simp [h5])]
  · refine .of rfl (marginRerunComplete_pass hc hp) ⟨rfl, ?_, rfl⟩
    have hget : assocGet c (rerunEnded s c m).memctl.margins = some (mergeMargin (assocGet c s.memctl.margins) m) :=
      (assocGet_assocSet ..).trans (if_pos rfl)
    rw [hget, mergeMargin_pass _ hp]
    rfl
  · exact .of rfl rfl (marginRerunComplete_fail_shows hc hp rfl)
  · exact .of rfl rfl (trainingComplete_pass hl hf hp rfl)
  · exact .of rfl rfl (trainingComplete_fail hl hf hp rfl)

end Sys2Proof.Machine
end


section
/-! PROOFS. Start and resets (O51): the rails, the pin and the reset frame; the steps of Table 15-1 and their timers. -/

namespace Sys2Proof.Machine

/-! ## Absence -/

section
variable {s : State}

/-- Nobody reads or writes an absent device. -/
theorem absent_closed {t : State} (h : t.boot.running = false) (agent a : Nat) : mayRead t agent a = false ∧ mayWrite t agent a = false := by
  simp [mayRead, mayWrite, h]

theorem powerGood_starts (hr : s.boot.running = false) (hb : s.boot.brown = none) : powerGood s = resetState s s.boot.latch :=
  if_neg (by simp [hr, hb])

theorem brownRecovery_starts {x : Nat} (hb : s.boot.brown = some x) (hx : 1000000 ≤ s.now - x) (hr : s.boot.rst = false) :
    brownRecovery s = resetState s s.boot.latch := by
  rw [brownRecovery, hb]
  exact if_neg (by simpa [hr] using hx)

theorem brownRecovery_early {x : Nat} (hb : s.boot.brown = some x) (hx : s.now - x < 1000000) : brownRecovery s = s := by
  rw [brownRecovery, hb]
  exact if_pos (by simp [hx])

/-- A rail that is lost leaves its power-good bit. -/
theorem railLost (pg : BitVec 5) (rail : Fin 5) : (pg &&& ~~~BitVec.ofNat 5 (2 ^ rail.val)).getLsbD rail = false := by
  have hbit : (BitVec.ofNat 5 (2 ^ rail.val)).getLsbD rail = true := by revert rail; decide
  rw [BitVec.getLsbD_and, BitVec.getLsbD_not, hbit]
  simp

/-- What an absence keeps, and that all else is the reset state's. -/
theorem absentState_shows (s : State) (latch : Option (List Byte)) (pg : BitVec 5) (rst : Bool) (brown : Option Nat) :
    absentState s latch pg rst brown = { State.reset with
      boot := { Boot.reset with flash := s.boot.flash, fuses := s.boot.fuses, latch := latch, running := false, pg := pg, rst := rst,
                                brown := brown }
      egress := s.egress, free := s.free, pending := s.pending } := rfl

theorem powerLoss_shows (s : State) (rail : Fin 5) {t : State} (ht : t = powerLoss s rail) :
    t.boot = (absentState s none (s.boot.pg &&& ~~~BitVec.ofNat 5 (2 ^ rail.val)) s.boot.rst none).boot ∧ t.mem = [] ∧ t.regs = [] := by
  subst ht
  unfold powerLoss
  dsimp only
  split <;> exact ⟨rfl, rfl, rfl⟩

end

/-! ## A wedge -/

section
variable {s t : State}

/-- What the wedge of a device that was not wedged shows. -/
structure WedgeShown (s t : State) (cause : Word64) : Prop where
  wedged : flag t DEV_STATUS DEV_STATUS_WEDGED = true
  fenced : fenced t = true
  mem : memSame s t
  svc : t.pins.svcReq = true
  recorder : t.recorder = (makeRecord s srcSmith 0x087 [cause]).recorder

theorem pins_serviceStanding (s : State) : (serviceStanding s).pins.svcReq = true := rfl

theorem mem_wedge (s : State) (cause unit row : Nat) : (wedge s cause unit row).mem = s.mem := by
  rw [(statusOnly_wedge ..).frame]

theorem wedge_shows (h : flag s DEV_STATUS DEV_STATUS_WEDGED = false) (cause unit row : Nat) :
    WedgeShown s (wedge s cause unit row) (wedgeCause cause unit row) := by
  have heq := wedge_eq h cause unit row
  refine ⟨flag_wedge .., ?_, memSame_of_mem (mem_wedge ..), ?_, ?_⟩
  · rw [heq]
    exact flag_putF_one (by decide) (by decide) ..
  · rw [heq, selfFence, putF_pins]
    exact pins_serviceStanding _
  · have hst : ∀ v : State, (serviceStanding v).recorder = (putF v SURV_STATUS SURV_STATUS_SVC 1).recorder := fun _ => rfl
    rw [heq, selfFence, putF_recorder, hst, putF_recorder, putF_recorder]

end

/-! ## Step 2 -/

section
variable {s t u : State}

/-- What a device that stops at its step shows. -/
theorem holdStart_shows (s : State) : (holdStart s).boot = { s.boot with stuck := true } ∧ (holdStart s).pins.svcReq = true ∧
    flag (holdStart s) DEV_STATUS DEV_STATUS_SVC_REQ = true ∧ (holdStart s).mem = s.mem := by
  obtain ⟨k1, k2, -, -, k5, k6, -⟩ := requestService_shows (modBoot s fun b => { b with stuck := true })
  exact ⟨k6, k1, k2, k5⟩

/-- From `s` to `t` windows were swept: domains, their slacks and records, and cores due to retire. -/
structure Swept (s t : State) : Prop where
  frame : t = { s with domains := t.domains, slacks := t.slacks, boot := t.boot, recorder := t.recorder, cores := t.cores }
  count : t.domains.length = s.domains.length

theorem Swept.refl (s : State) : Swept s s := ⟨rfl, rfl⟩

theorem Swept.trans (a : Swept s t) (b : Swept t u) : Swept s u := ⟨by rw [b.frame, a.frame], b.count.trans a.count⟩

theorem wedge_boot (s : State) (cause unit row : Nat) : (wedge s cause unit row).boot = s.boot := by
  have hst : ∀ v : State, (serviceStanding v).boot = (putF v SURV_STATUS SURV_STATUS_SVC 1).boot := fun _ => rfl
  unfold wedge
  split
  · rfl
  · rw [selfFence, putF_boot, hst, putF_boot, putF_boot, makeRecord_boot]

theorem swept_modDomain (s : State) (u : Nat) (f : Domain → Domain) : Swept s (modDomain s u f) := ⟨rfl, modDomain_count ..⟩

theorem swept_of_cores (h : CoresOnly s t) : Swept s t := ⟨by rw [CoresOnly.eq_1] at h; rw [h], by rw [h]⟩

theorem swept_of_records (h : RecordsOnly s t) : Swept s t := ⟨by rw [RecordsOnly.eq_1] at h; rw [h], by rw [h]⟩

theorem swept_trimDomain (s : State) (u : Nat) (ps : List (Nat × Nat)) : Swept s (trimDomain s u ps) := by
  cases hs : smallestSlack ps with
  | none => rw [trimDomain, hs]; exact .refl s
  | some x =>
    have hset : Swept s (setDomain (noteSlacks s ps) u (sweptDomain (domainAt s u) u x.2)) := ⟨rfl, List.length_set ..⟩
    have hswept : Swept s (domSwept s u ps x.1 x.2) := hset.trans (swept_of_records (recordsOnly_trimRecords ..))
    rw [trimDomain_eq hs]
    split
    · exact hswept.trans (swept_of_cores (coresOnly_dueRetire ..))
    · exact hswept

theorem swept_sweepDomain (s : State) (u : Nat) (slacks : List (BitVec 5)) : Swept s (sweepDomain s u slacks) :=
  (swept_trimDomain ..).trans (swept_modDomain ..)

/-! ### The windows of step 2 -/

theorem lastWindow_trimDomain (s : State) (v u : Nat) (ps : List (Nat × Nat)) :
    (domainAt (trimDomain s v ps) u).lastWindow = (domainAt s u).lastWindow := by
  cases hs : smallestSlack ps with
  | none => rw [trimDomain, hs]
  | some x =>
    have hd := (sweepShown_trimDomain (s := s) (u := v) hs).domains
    have ht : domainAt (trimDomain s v ps) u = domainAt (modDomain s v fun d => sweptDomain d v x.2) u := by
      rw [domainAt, hd]
      rfl
    rw [ht]
    by_cases huv : u = v
    · subst huv
      by_cases hu : u < s.domains.length
      · rw [domainAt_modDomain hu]
        rfl
      · rw [modDomain, setDomain, List.set_eq_of_length_le (Nat.le_of_not_lt hu)]
    · rw [domainAt_modDomain_ne huv]

theorem lastWindow_sweepDomain {v u : Nat} (hu : u < s.domains.length) (slacks : List (BitVec 5)) :
    (domainAt (sweepDomain s v slacks) u).lastWindow = if u = v then s.now else (domainAt s u).lastWindow := by
  have hc := (swept_trimDomain s v ((domReplicas v).zip (slacks.map (·.toNat)))).count
  unfold sweepDomain
  by_cases h : u = v
  · subst h
    rw [domainAt_modDomain (by rw [hc]; exact hu), if_pos rfl]
  · rw [domainAt_modDomain_ne h, lastWindow_trimDomain, if_neg h]

theorem Swept.now (h : Swept s t) : t.now = s.now := by rw [State.now, h.frame, State.now]

/-- Every domain of a list is swept at the present time. -/
theorem swept_windows (us : List Nat) (slacks : List (List (BitVec 5))) (s : State) :
    Swept s (us.foldl (fun t u => sweepDomain t u (slacks.getD u [])) s) ∧
    ∀ u, u < s.domains.length → (u ∈ us ∨ (domainAt s u).lastWindow = s.now) →
      (domainAt (us.foldl (fun t u => sweepDomain t u (slacks.getD u [])) s) u).lastWindow = s.now := by
  induction us generalizing s with
  | nil => exact ⟨.refl s, fun u _ h => h.resolve_left (List.not_mem_nil)⟩
  | cons v us ih =>
    have hv := swept_sweepDomain s v (slacks.getD v [])
    obtain ⟨h1, h2⟩ := ih (sweepDomain s v (slacks.getD v []))
    refine ⟨hv.trans h1, fun u hu h => (h2 u (by rw [hv.count]; exact hu) ?_).trans hv.now⟩
    rw [lastWindow_sweepDomain hu, hv.now]
    rcases h with h | h
    · rcases List.mem_cons.1 h with rfl | h
      · exact .inr (if_pos rfl)
      · exact .inl h
    · refine .inr ?_
      split
      · rfl
      · exact h

/-! ### The domains of step 2 -/

/-- A domain that is On with its core stores to clear. -/
def BegunOn (s : State) (u : Nat) : Prop := domState s u = domOn ∧ (domainAt s u).clearing = true

theorem domainsOnly_beginOn (s : State) (u : Nat) : DomainsOnly s (beginOn s u) := domainsOnly_domMoved ..

theorem begunOn_beginOn {v u : Nat} (hl : s.domains.length = 16) (hu : u < 16) (h : u = v ∨ BegunOn s u) : BegunOn (beginOn s v) u := by
  rw [beginOn_eq]
  by_cases huv : u = v
  · subst huv
    obtain ⟨h1, h2⟩ := domMoved_shows hu hl (v := domOn) (by decide)
      fun d => { d with target := none, testing := false, window := none, clearing := true }
    exact ⟨h1, by rw [h2]⟩
  · obtain ⟨h1, h2⟩ := domMoved_other hu huv s domOn
      fun d => { d with target := none, testing := false, window := none, clearing := true }
    obtain ⟨k1, k2⟩ := h.resolve_left huv
    exact ⟨h1.trans k1, by rw [h2]; exact k2⟩

theorem lastWindow_beginOn {v u : Nat} (hl : s.domains.length = 16) (hu : u < 16) :
    (domainAt (beginOn s v) u).lastWindow = (domainAt s u).lastWindow := by
  rw [beginOn_eq]
  by_cases huv : u = v
  · subst huv
    rw [(domMoved_shows hu hl (v := domOn) (by decide) _).2]
  · rw [(domMoved_other hu huv s domOn _).2]

theorem begun_domains (us : List Nat) (s : State) (hl : s.domains.length = 16) : DomainsOnly s (us.foldl beginOn s) ∧
    ∀ u, u < 16 → (domainAt (us.foldl beginOn s) u).lastWindow = (domainAt s u).lastWindow ∧
      (u ∈ us ∨ BegunOn s u → BegunOn (us.foldl beginOn s) u) := by
  induction us generalizing s with
  | nil => exact ⟨.refl s, fun u _ => ⟨rfl, fun h => h.resolve_left List.not_mem_nil⟩⟩
  | cons v us ih =>
    have hv := domainsOnly_beginOn s v
    obtain ⟨h1, h2⟩ := ih (beginOn s v) (hv.count.trans hl)
    refine ⟨hv.trans h1, fun u hu => ⟨(h2 u hu).1.trans (lastWindow_beginOn hl hu), fun h => (h2 u hu).2 ?_⟩⟩
    rcases h with h | h
    · rcases List.mem_cons.1 h with rfl | h
      · exact .inr (begunOn_beginOn hl hu (.inl rfl))
      · exact .inl h
    · exact .inr (begunOn_beginOn hl hu (.inr h))

theorem startDomains_all (s : State) : startDomains s [] = (List.range 16).foldl beginOn s := by
  have hall : ((List.range 16).filter fun u => (domCores u).any fun i => !([] : List (CoreId × Fin 4)).any fun f => f.1.val = i)
      = List.range 16 := by decide
  rw [startDomains, hall]

/-! ### What the records of the flash give -/

/-- From `s` to `t` a step of the start took its records: registers, the boot, domains and the weld. -/
structure Loaded (s t : State) : Prop where
  frame : t = { s with regs := t.regs, boot := t.boot, domains := t.domains, weld := t.weld }
  count : t.domains.length = s.domains.length

theorem Loaded.refl (s : State) : Loaded s s := ⟨rfl, rfl⟩

theorem Loaded.trans (a : Loaded s t) (b : Loaded t u) : Loaded s u := ⟨by rw [b.frame, a.frame], b.count.trans a.count⟩

theorem Loaded.foldl {α : Type} {f : State → α → State} (h : ∀ s x, Loaded s (f s x)) (l : List α) (s : State) : Loaded s (l.foldl f s) := by
  induction l generalizing s with
  | nil => exact .refl s
  | cons x l ih => exact (h s x).trans (ih _)

theorem loaded_putF (s : State) (a : Nat) (f : Fld) (x : Nat) : Loaded s (putF s a f x) := ⟨rfl, rfl⟩

theorem loaded_modBoot (s : State) (f : Boot → Boot) : Loaded s (modBoot s f) := ⟨rfl, rfl⟩

theorem loaded_setWeldDir (s : State) (w : Nat) (d : WeldDir) : Loaded s (setWeldDir s w d) := ⟨rfl, rfl⟩

theorem loaded_loadRetired (s : State) : Loaded s (loadRetired s) := by
  unfold loadRetired
  cases readRecord s areaRetire with
  | none => exact .refl s
  | some bs =>
    have hregs := Loaded.foldl (fun t k => (⟨rfl, rfl⟩ : Loaded t (setR t (DEV_CORE_RETIRED k) (BitVec.ofNat 32 (fieldLE bs (4 * k) 4)))))
      (List.range 4) s
    dsimp only
    split
    · exact hregs.trans (loaded_modBoot ..)
    · exact (hregs.trans (loaded_modBoot ..)).trans (loaded_putF ..)

theorem loaded_loadTrim (s : State) : Loaded s (loadTrim s) := by
  unfold loadTrim
  cases readRecord s areaTrim with
  | none => exact .refl s
  | some bs =>
    exact ((Loaded.foldl (fun t u => ⟨rfl, modDomain_count ..⟩) (List.range 16) s).trans (loaded_setWeldDir ..)).trans (loaded_setWeldDir ..)

/-- The weld trained: its flag, and base die 1's copy of local time. -/
structure WeldTrained (s t : State) : Prop where
  frame : t = { s with regs := t.regs, boot := t.boot, domains := t.domains, weld := t.weld, time := t.time }
  count : t.domains.length = s.domains.length
  now : t.now = s.now
  tracking : t.time.tracking = true
  up : t.weld.up = true
  shown : flag t DEV_STATUS DEV_STATUS_WELD_UP = true

theorem weldUp_trains (h : Loaded s t) : WeldTrained s (weldUp t) := by
  have hup : ∀ v : State, (({ v with weld := { v.weld with up := true } } : State).weld.up = true) := fun _ => rfl
  refine ⟨?_, h.count, ?_, rfl, rfl, flag_putF_one (by decide) (by decide) { t with weld := { t.weld with up := true } } ..⟩
  · rw [weldUp, h.frame]
    rfl
  · rw [weldUp, State.now, State.now, h.frame]
    rfl

/-! ### The step -/

/-- A request that is emitted: one register, and what leaves the block. -/
theorem emit_putF (w : State) (a : Nat) (f : Fld) (x : Nat) (o : Out) :
    emit (putF w a f x) o = { w with regs := (putF w a f x).regs, egress := w.egress ++ [o] } := rfl

/-- What the request for 0.60 V leaves. -/
structure VoltageAsked (s t : State) : Prop where
  frame : t = { s with regs := t.regs, power := t.power, egress := t.egress }
  regs : regsSameBut s t [PWR_VCTL]
  asked : s.power.avsDead = false → vreq t = 30 ∧ t.egress = s.egress ++ [.avs 30]

theorem startVoltage_shows (s : State) : VoltageAsked s (startVoltage s) := by
  unfold startVoltage
  split
  · next h => exact ⟨rfl, .refl s _, fun hd => by simp [hd] at h⟩
  · have hw : ∃ p, modPower s (fun p => { p with vAt := s.now }) = { s with power := p } := ⟨_, rfl⟩
    obtain ⟨p, hp⟩ := hw
    rw [hp, emit_putF]
    refine ⟨rfl, ?_, fun _ => ⟨?_, rfl⟩⟩
    · exact ((regsSameBut_of_regs (t := { s with power := p }) rfl _).putF List.mem_cons_self PWR_VCTL_VREQ 30).of_regs rfl
    · exact (getF_congr (s := putF { s with power := p } PWR_VCTL PWR_VCTL_VREQ 30) rfl ..).trans (getF_putF (by decide) (by decide) ..)

/-- What step 2 leaves when its tests pass. -/
structure StepTwoDone (s t : State) : Prop where
  step : t.boot.step = 3
  asked : s.power.avsDead = false → vreq t = 30 ∧ t.egress = s.egress ++ [.avs 30]
  swept : ∀ u : DomId, (domainAt t u).lastWindow = s.now
  shown : flag t DEV_STATUS DEV_STATUS_WELD_UP = true
  up : t.weld.up = true
  tracking : t.time.tracking = true
  mem : t.mem = s.mem
  on : ∀ u : DomId, BegunOn t u

theorem atStep_frame (s : State) (n : Nat) : atStep s n = { s with boot := { s.boot with step := n } } := rfl

theorem begunOn_congr (hr : regsSameBut s t [PWR_VCTL]) (hd : t.domains = s.domains) (u : Nat) : BegunOn s u → BegunOn t u := by
  rintro ⟨h1, h2⟩
  refine ⟨?_, by rw [domainAt, hd]; exact h2⟩
  rw [domState_eq, hr.getF (by decide), ← domState_eq]
  exact h1

theorem step2_eq {r : StartReport} (hb : r.baseOk = true) (hw : r.weldOk = true) (hf : r.coreFails = []) :
    step2 s r = startVoltage (atStep ((List.range 16).foldl beginOn (startWindows (weldUp (loadTrim (loadRetired s))) r.slacks)) 3) := by
  rw [step2, if_neg (by simp [hb, hw]), hf]
  dsimp only
  rw [List.foldl_nil, startDomains_all]

/-- Step 2 from the training of the weld on: the windows, the domains and the voltage. -/
theorem stepTwoDone_of {a b c d : State} (hup : WeldTrained s a) (hb : Swept a b)
    (hlast : ∀ u, u < 16 → (domainAt b u).lastWindow = a.now) (hc : DomainsOnly b c)
    (hon : ∀ u, u < 16 → (domainAt c u).lastWindow = (domainAt b u).lastWindow ∧ BegunOn c u)
    (hd : VoltageAsked (atStep c 3) d) : StepTwoDone s d := by
  have hdf : d = { c with boot := { c.boot with step := 3 }, regs := d.regs, power := d.power, egress := d.egress } := hd.frame
  have hregs : regsSameBut c d [PWR_VCTL] := hd.regs
  have hcb : c.boot = b.boot ∧ c.power = b.power ∧ c.egress = b.egress ∧ c.weld = b.weld ∧ c.time = b.time ∧ c.mem = b.mem := by
    rw [hc.frame]; exact ⟨rfl, rfl, rfl, rfl, rfl, rfl⟩
  have hba : b.power = a.power ∧ b.egress = a.egress ∧ b.weld = a.weld ∧ b.time = a.time ∧ b.mem = a.mem ∧ b.regs = a.regs := by
    rw [hb.frame]; exact ⟨rfl, rfl, rfl, rfl, rfl, rfl⟩
  have has : a.power = s.power ∧ a.egress = s.egress ∧ a.mem = s.mem := by
    rw [hup.frame]; exact ⟨rfl, rfl, rfl⟩
  have hdc : d.boot.step = 3 ∧ d.weld = c.weld ∧ d.time = c.time ∧ d.mem = c.mem ∧ d.domains = c.domains := by
    rw [hdf]; exact ⟨rfl, rfl, rfl, rfl, rfl⟩
  obtain ⟨-, hcp, hce, hcw, hct, hcm⟩ := hcb
  obtain ⟨hbp, hbe, hbw, hbt, hbm, hbr⟩ := hba
  obtain ⟨hap, hae, ham⟩ := has
  obtain ⟨hstep, hdw, hdt, hdm, hdom⟩ := hdc
  refine ⟨hstep, fun hdead => ?_, fun u => ?_, ?_, ?_, ?_, ?_, fun u => begunOn_congr hregs hdom u (hon u u.isLt).2⟩
  · obtain ⟨h1, h2⟩ := hd.asked (by rw [← hap, ← hbp, ← hcp] at hdead; exact hdead)
    exact ⟨h1, by rw [h2, ← hae, ← hbe, ← hce]; rfl⟩
  · rw [domainAt, hdom, ← domainAt, (hon u u.isLt).1, hlast u u.isLt, hup.now]
  · rw [hregs.flag (by decide), hc.regs.flag (by decide), flag_congr hbr, hup.shown]
  · rw [hdw, hcw, hbw, hup.up]
  · rw [hdt, hct, hbt, hup.tracking]
  · rw [hdm, hcm, hbm, ham]

theorem step2_passes (hz : sized s = true) {r : StartReport} (hb : r.baseOk = true) (hw : r.weldOk = true) (hf : r.coreFails = []) :
    StepTwoDone s (step2 s r) := by
  have hup := weldUp_trains ((loaded_loadRetired s).trans (loaded_loadTrim _))
  have hn := hup.count.trans (sized_domains hz)
  obtain ⟨hsw, hlast⟩ := swept_windows (List.range 16) r.slacks (weldUp (loadTrim (loadRetired s)))
  obtain ⟨hon, hbegun⟩ := begun_domains (List.range 16) (startWindows (weldUp (loadTrim (loadRetired s))) r.slacks) (hsw.count.trans hn)
  rw [step2_eq hb hw hf]
  exact stepTwoDone_of hup hsw (fun u hu => hlast u (by rw [hn]; exact hu) (.inl (List.mem_range.2 hu))) hon
    (fun u hu => ⟨(hbegun u hu).1, (hbegun u hu).2 (.inl (List.mem_range.2 hu))⟩) (startVoltage_shows _)

end

/-! ## Step 3 -/

section
variable {s t u : State}

/-- The flash below `n` is as it was. -/
def FlashBelow (n : Nat) (s t : State) : Prop := ∀ k, k < n → flashGet t k = flashGet s k

theorem FlashBelow.trans {n : Nat} (a : FlashBelow n s t) (b : FlashBelow n t u) : FlashBelow n s u := fun k hk => (b k hk).trans (a k hk)

theorem flashBelow_of_flash {n : Nat} (h : t.boot.flash = s.boot.flash) : FlashBelow n s t := fun k _ => flashGet_congr h k

theorem flashGet_put_below (bs : List Byte) (m : List (Nat × Byte)) {a k : Nat} (h : k < a) :
    (assocGet k (flashPut m a bs)).getD 0xFF = (assocGet k m).getD 0xFF := by
  induction bs generalizing m a with
  | nil => rfl
  | cons b bs ih => rw [flashPut, ih _ (by omega), assocGet_sparseSet, if_neg (by omega)]

theorem flashBelow_writeRecord {n area : Nat} (hn : n ≤ area) (s : State) (body : List Byte) : FlashBelow n s (writeRecord s area body) := by
  intro k hk
  unfold writeRecord
  dsimp only
  generalize (match bestCopy s area with | some c => 1 - c.1 | none => 0) = c
  rw [flashGet, flashWrite, flashGet_put_below _ _ (by omega), ← flashGet, flashGet_flashErase, if_neg (by omega)]

theorem readCopy_below {n area k : Nat} (h : FlashBelow n s t) (ha : area + 0x10000 * k + 16 + (areaShape area).2 ≤ n) :
    readCopy t area k = readCopy s area k := by
  have hbytes : ∀ a m, a + m ≤ n → flashBytes t a m = flashBytes s a m := fun a m hm =>
    List.map_congr_left fun i hi => h _ (by have := List.mem_range.1 hi; omega)
  rw [readCopy, hbytes _ _ (by omega), hbytes _ _ (by omega), hbytes _ _ (by omega), readCopy]

theorem readProt_below (h : FlashBelow areaStart s t) : readRecord t areaProt = readRecord s areaProt := by
  rw [readRecord, bestCopy, readCopy_below h (by decide), readCopy_below h (by decide), ← bestCopy, ← readRecord]

theorem boot_loadWear (s : State) : (loadWear s).boot = s.boot := by
  unfold loadWear
  cases readRecord s areaWear with
  | none => rfl
  | some bs =>
    have hfold : ∀ (l : List Nat) (v : State), (l.foldl (fun t b => setR t (THM_CYC b) (BitVec.ofNat 32 (fieldLE bs (4 * b) 4))) v).boot = v.boot := by
      intro l
      induction l with
      | nil => exact fun _ => rfl
      | cons b l ih => exact fun v => (ih _).trans rfl
    have hmod : ∀ (v : State) (f : Therm → Therm), (modTherm v f).boot = v.boot := fun _ _ => rfl
    dsimp only
    rw [hmod, putF_boot]
    split <;> simp only [hmod, putF_boot, hfold]

theorem boot_loadStart (s : State) : (loadStart s).boot.flash = s.boot.flash ∧ (loadStart s).boot.step = s.boot.step := by
  unfold loadStart
  cases readRecord s areaStart with
  | none => exact ⟨rfl, rfl⟩
  | some bs =>
    dsimp only
    rw [putF_boot]
    exact ⟨rfl, rfl⟩

theorem boot_takeLatch (s : State) : (takeLatch s).boot.flash = s.boot.flash ∧ (takeLatch s).boot.step = s.boot.step := by
  unfold takeLatch
  cases s.boot.latch with
  | none => exact ⟨rfl, rfl⟩
  | some v =>
    dsimp only
    rw [satF_boot]
    exact ⟨rfl, rfl⟩

theorem flashBelow_saveStartIfAnchored (s : State) : FlashBelow areaStart s (saveStartIfAnchored s) := by
  unfold saveStartIfAnchored
  split
  · exact fun _ _ => rfl
  · exact flashBelow_writeRecord (Nat.le_refl _) _ _

theorem boot_saveStartIfAnchored (s : State) : (saveStartIfAnchored s).boot.step = s.boot.step := by
  unfold saveStartIfAnchored saveStart writeRecord flashWrite flashErase
  split <;> rfl

/-- The state that step 3 reads the protection record in. -/
def anchored (s : State) : State := saveStartIfAnchored (takeLatch (loadStart (loadWear s)))

theorem anchored_shows (s : State) : FlashBelow areaStart s (anchored s) ∧ (anchored s).boot.step = s.boot.step := by
  obtain ⟨h2, k2⟩ := boot_loadStart (loadWear s)
  obtain ⟨h3, k3⟩ := boot_takeLatch (loadStart (loadWear s))
  have h1 : (loadWear s).boot = s.boot := boot_loadWear s
  refine ⟨(flashBelow_of_flash (h3.trans (h2.trans (congrArg Boot.flash h1)))).trans (flashBelow_saveStartIfAnchored _), ?_⟩
  rw [anchored, boot_saveStartIfAnchored, k3, k2, h1]

theorem step3_refused (h : readRecord s areaProt = none) : step3 s = holdStart (putF (anchored s) CFG_BOOT CFG_BOOT_TRUST_FAIL 1) := by
  have hp : readRecord (anchored s) areaProt = none := (readProt_below (anchored_shows s).1).trans h
  have ha : acceptProt (anchored s) = none := by rw [acceptProt, hp]
  have hgo : saveStartIfAnchored (takeLatch (loadStart (loadWear s))) = anchored s := rfl
  unfold step3
  dsimp only
  rw [hgo, ha]

theorem step3_refused_shows (h : readRecord s areaProt = none) (ht : t = step3 s) : t.boot.stuck = true ∧ t.boot.step = s.boot.step ∧
    flag t CFG_BOOT CFG_BOOT_TRUST_FAIL = true ∧ t.pins.svcReq = true := by
  have hst := (anchored_shows s).2
  rw [step3_refused h] at ht
  generalize anchored s = a at ht hst
  have hflag := flag_putF_one (f := CFG_BOOT_TRUST_FAIL) (by decide) (by decide) a CFG_BOOT
  have hboot : (putF a CFG_BOOT CFG_BOOT_TRUST_FAIL 1).boot = a.boot := putF_boot ..
  generalize putF a CFG_BOOT CFG_BOOT_TRUST_FAIL 1 = b at ht hflag hboot
  obtain ⟨h1, h2, -, -⟩ := holdStart_shows b
  have hregs : regsSameBut b (holdStart b) [DEV_STATUS] :=
    (requestService_shows (modBoot b fun x => { x with stuck := true })).2.2.2.2.2.2
  subst ht
  refine ⟨by rw [h1], ?_, by rw [hregs.flag (by decide), hflag], h2⟩
  rw [h1, hboot, hst]

end

/-! ## Steps 5 and 6 -/

section
variable {s t : State}

theorem prtCtl_injective : Function.Injective PRT_CTL := fun a b h => by
  unfold PRT_CTL at h
  omega

/-- Ports that are enabled. -/
theorem portsEnabled (ps : List Nat) (s : State) : (ps.foldl portEnable s).mem = s.mem ∧
    ∀ p, p ∈ ps ∨ flag s (PRT_CTL p) PRT_CTL_ENABLE = true → flag (ps.foldl portEnable s) (PRT_CTL p) PRT_CTL_ENABLE = true := by
  induction ps generalizing s with
  | nil => exact ⟨rfl, fun p h => h.resolve_left List.not_mem_nil⟩
  | cons q ps ih =>
    obtain ⟨h1, h2⟩ := ih (portEnable s q)
    refine ⟨h1.trans (putF_mem ..), fun p h => h2 p ?_⟩
    by_cases hpq : p = q
    · subst hpq
      exact .inr (flag_putF_one (by decide) (by decide) ..)
    · refine (List.mem_cons.1 |> h.imp_left).elim (fun h => .inl (h.resolve_left hpq)) fun h => .inr ?_
      exact (flag_putF_ne (fun e => hpq (prtCtl_injective e)) ..).trans h

theorem flag_atStep (v : State) (n a : Nat) (f : Fld) : flag (atStep v n) a f = flag v a f := flag_congr rfl a f

theorem atStep_mem (v : State) (n : Nat) : (atStep v n).mem = v.mem := rfl

theorem atStep_step (v : State) (n : Nat) : (atStep v n).boot.step = n := rfl

theorem step5_trained (h : flag s MEM_STATUS MEM_STATUS_TRAINED = true) : step5 s = atStep ((List.range 8).foldl portEnable s) 6 := by
  rw [step5, h, if_pos rfl]

theorem step5_shows (h : flag s MEM_STATUS MEM_STATUS_TRAINED = true) : (step5 s).boot.step = 6 ∧ (step5 s).mem = s.mem ∧
    ∀ p : PortId, flag (step5 s) (PRT_CTL p.val) PRT_CTL_ENABLE = true := by
  obtain ⟨h1, h2⟩ := portsEnabled (List.range 8) s
  rw [step5_trained h, atStep_step, atStep_mem]
  refine ⟨rfl, h1, fun p => ?_⟩
  rw [flag_atStep]
  exact h2 p (.inl (List.mem_range.2 p.isLt))

theorem joinOrRetry_waits (h : anyPlaneUp s = false) :
    joinOrRetry s = { s with boot := { s.boot with portRetryAt := some (s.now + 10000000000) } } := if_neg (by simp [h])

theorem siteRecord_congr (hf : t.boot.flash = s.boot.flash) (ha : t.boot.auths = s.boot.auths) : siteRecord t = siteRecord s := by
  have hcopy : ∀ k, readCopy t areaSite k = readCopy s areaSite k := fun k =>
    readCopy_below (flashBelow_of_flash hf) (Nat.le_refl _)
  have hrec : readRecord t areaSite = readRecord s areaSite := by
    rw [readRecord, bestCopy, hcopy, hcopy, ← bestCopy, ← readRecord]
  rw [siteRecord, hrec, ha, ← siteRecord]

theorem joinOrRetry_noSite (h : anyPlaneUp s = true) (hs : siteRecord s = none) :
    joinOrRetry s = { s with boot := { s.boot with portRetryAt := none, step := 7 } } := by
  have hno : siteRecord (modBoot (atStep s 7) fun b => { b with portRetryAt := none }) = none := (siteRecord_congr rfl rfl).trans hs
  have hgo : joinOrRetry s = beginJoin s := if_pos h
  rw [hgo, beginJoin, hno]
  rfl

theorem portRetry_due {x : Nat} (hx : s.boot.portRetryAt = some x) (hq : quenched s = false) (h : x ≤ s.now) : portRetry s = joinOrRetry s := by
  rw [portRetry, hx]
  exact if_neg (by simp [hq, h])

theorem portRetry_early {x : Nat} (hx : s.boot.portRetryAt = some x) (h : s.now < x) : portRetry s = s := by
  rw [portRetry, hx]
  exact if_pos (by simp [h])

section
variable {r : StartReport} (hr : s.boot.running = true) (hst : s.boot.stuck = false) (hq : quenched s = false)
include hr hst hq

theorem startStep_two (h : s.boot.step = 2) : startStep s r = step2 s r := by
  rw [startStep, if_neg (by simp [hr, hst, hq]), h]
  rfl

theorem startStep_three (h : s.boot.step = 3) : startStep s r = step3 s := by
  rw [startStep, if_neg (by simp [hr, hst, hq]), h]
  rfl

theorem startStep_five (h : s.boot.step = 5) : startStep s r = step5 s := by
  rw [startStep, if_neg (by simp [hr, hst, hq]), h]
  rfl

theorem startStep_noPorts (h : s.boot.step = 6) (hp : s.boot.portRetryAt = none) (hup : r.portsUp = []) : startStep s r = joinOrRetry s := by
  have hgo : startStep s r = if s.boot.portRetryAt.isSome then s else step6 s r := by
    rw [startStep, if_neg (by simp [hr, hst, hq]), h]
    rfl
  rw [hgo, hp, step6, hup]
  rfl

end

theorem watchdog_due (hr : s.boot.running = true) (h4 : 4 ≤ s.boot.step) (h : 1000000000 ≤ s.now - s.boot.watchAt) :
    watchdog s = wedge s 4 0 0 := if_pos (by simp [hr, h4, h])

end

/-! ## The obligation -/

/-- Settles O51: the resets, each step of the start, and its timers. -/
theorem startAndResets : Obligations.StartAndResets := by
  refine ⟨fun s => ⟨fun c hc => ?_, fun rail => ?_, .of rfl rfl ⟨rfl, rfl, rfl, rfl, rfl, rfl, rfl⟩, fun x hb hx => ?_, fun hr hp => ?_,
      fun port e bs => ⟨fun h => ?_, fun h => ?_⟩⟩,
    fun s r hz => ⟨fun hr hst hq => ⟨fun h2 hbad => ?_, fun h2 hb hw hf => ?_, fun h3 hp => ?_, fun h5 ht => ?_, fun h6 hpr hup hany => ?_⟩,
      fun h => ?_, fun hr h4 hn => ?_, fun h4 => ?_, fun x hx hq => ⟨fun h => ?_, fun h hany => ?_, fun h hany hs => ?_⟩, fun h => ?_,
      fun hr h4 hn hw => ?_⟩⟩
  · rcases hc with ⟨rfl, hr, hb⟩ | ⟨rfl, ⟨x, hb, hx⟩, hr⟩
    · exact .of (t := resetState s s.boot.latch) rfl (powerGood_starts hr hb) ⟨rfl, rfl, rfl, rfl, rfl, rfl, rfl, rfl, rfl, rfl, rfl, rfl, rfl⟩
    · exact .of (t := resetState s s.boot.latch) rfl (brownRecovery_starts hb hx hr)
        ⟨rfl, rfl, rfl, rfl, rfl, rfl, rfl, rfl, rfl, rfl, rfl, rfl, rfl⟩
  · obtain ⟨hboot, hmem, hregs⟩ := powerLoss_shows s rail rfl
    exact .of (t := powerLoss s rail) rfl rfl ⟨by rw [hboot]; rfl, by rw [hboot]; rfl, by rw [hboot]; rfl, by rw [hboot]; rfl,
      by rw [hboot]; exact railLost .., hmem, hregs, absent_closed (by rw [hboot]; rfl)⟩
  · exact .of rfl (brownRecovery_early hb hx) rfl
  · refine .of (t := absentState s s.boot.latch s.boot.pg s.boot.rst (some 0)) rfl (if_pos (by simp [hr, hp])) ⟨rfl, rfl, rfl, rfl, rfl, rfl⟩
  · exact .of (t := resetState s (some (slice bs 0x10 32))) rfl (if_pos h) ⟨rfl, rfl, rfl, rfl, rfl, rfl, rfl⟩
  · exact .of (t := s) rfl (if_neg (by simp [h])) rfl
  · have hgo : startStep s r = holdStart (wedge s 5 0 0) := by
      rw [startStep_two hr hst hq h2]
      exact if_pos (by rcases hbad with h | h <;> simp [h])
    obtain ⟨k1, k2, k3, k4⟩ := holdStart_shows (wedge s 5 0 0)
    refine .of (t := holdStart (wedge s 5 0 0)) rfl hgo ⟨by rw [k1], ?_, k2, k3, memSame_of_mem (k4.trans (mem_wedge ..))⟩
    rw [k1, wedge_boot, h2]
  · obtain ⟨k1, k2, k3, k4, k5, k6, k7, k8⟩ := step2_passes hz hb hw hf
    exact .of (t := step2 s r) rfl (startStep_two hr hst hq h2) ⟨k1, k2, k3, k4, k5, k6, memSame_of_mem k7, k8⟩
  · obtain ⟨k1, k2, k3, k4⟩ := step3_refused_shows hp rfl
    exact .of (t := step3 s) rfl (startStep_three hr hst hq h3) ⟨k1, k2.trans h3, k3, k4⟩
  · obtain ⟨k1, k2, k3⟩ := step5_shows ht
    exact .of (t := step5 s) rfl (startStep_five hr hst hq h5) ⟨k1, memSame_of_mem k2, k3⟩
  · exact .of rfl ((startStep_noPorts hr hst hq h6 hpr hup).trans (joinOrRetry_waits hany)) rfl
  · exact .of (t := s) rfl (if_pos (by rcases h with h | h <;> simp [h])) rfl
  · exact .of rfl (if_pos (by simp [hr, h4, hn])) rfl
  · exact .of (t := s) rfl (if_neg (by simp [h4])) rfl
  · exact .of rfl (portRetry_early hx h) rfl
  · exact .of rfl ((portRetry_due hx hq h).trans (joinOrRetry_waits hany)) rfl
  · exact .of rfl ((portRetry_due hx hq h).trans (joinOrRetry_noSite hany hs)) rfl
  · exact .of (t := s) rfl (if_neg (by simp [h])) rfl
  · obtain ⟨k1, k2, k3, k4, k5⟩ := wedge_shows hw 4 0 0
    exact .of (t := wedge s 4 0 0) rfl (watchdog_due hr h4 hn) ⟨k1, k2, k3, k4, k5⟩

end Sys2Proof.Machine
end


section
/-! PROOFS. What a send leaves as it was: requests of the line protocol, RoCEv2 operations, and the faults of the instructions that
cannot be reached (R281, R286, R290, R307). -/

namespace Sys2Proof.Machine

/-! ## A core whose entries at most leave -/

/-- The queues of `d` hold entries of `c` alone, and the task is the same. -/
structure Calmer (c d : Core) : Prop where
  task : d.task = c.task
  fab : c.fab = [] → d.fab = []
  tongs : (∀ e ∈ c.tongs, e.started = true) → ∀ e ∈ d.tongs, e.started = true

theorem Calmer.refl (c : Core) : Calmer c c := ⟨rfl, id, id⟩

theorem Calmer.trans {c d e : Core} (a : Calmer c d) (b : Calmer d e) : Calmer c e :=
  ⟨b.task.trans a.task, fun h => b.fab (a.fab h), fun h => b.tongs (a.tongs h)⟩

theorem discardEntries_sub (c : Core) (k : CtxId) (q : Queue) : (discardEntries c k).queue q ⊆ c.queue q := by
  cases q <;> exact List.filter_subset_self _

theorem clearedEntries_sub (c : Core) (k : CtxId) (as : List Nat) (p : Bool) (q : Queue) :
    (clearPartition (discardEntries (dropHeld c k) k) as p).queue q ⊆ c.queue q := by
  rw [clearPartition_queue]
  exact List.Subset.trans (discardEntries_sub (dropHeld c k) k q) (by rw [dropHeld_queue]; exact List.Subset.refl _)

theorem abortBase_sub (split : Bool) (c : Core) (k : CtxId) (q : Queue) : (abortBase split c k).queue q ⊆ c.queue q := by
  refine List.Subset.trans ?_ (clearedEntries_sub c k (partition split k) true q)
  unfold abortBase
  cases q <;> (dsimp only; repeat' split) <;> exact List.Subset.refl _

theorem abortOther_sub (c : Core) (o : CtxId) (q : Queue) : (abortOther c o).queue q ⊆ c.queue q := by
  unfold abortOther
  split
  · refine List.Subset.trans ?_ (clearedEntries_sub c o (partition true o) true q)
    rw [← setCtx_queue (clearPartition (discardEntries (dropHeld c o) o) (partition true o) true) o]
    cases q <;> exact List.Subset.refl _
  · split
    · rw [setCtx_queue]; exact List.Subset.refl _
    · exact List.Subset.refl _

theorem abortCore_sub (split : Bool) (c : Core) (k : CtxId) (code : Nat) (residue : Bool) (q : Queue) :
    (abortCore split c k code residue).queue q ⊆ c.queue q := by
  obtain ⟨e, p, heq⟩ := abortCore_frame split c k code residue
  have hset : ((abortBase split c k).setCtx k (abortedCtx ((abortBase split c k).ctx k))).queue q ⊆ c.queue q := by
    rw [setCtx_queue]; exact abortBase_sub split c k q
  rw [heq]
  generalize (abortBase split c k).setCtx k (abortedCtx ((abortBase split c k).ctx k)) = d at hset
  have hall : (if split then abortOther d (if k = 0 then 1 else 0) else d).queue q ⊆ c.queue q := by
    split
    · exact List.Subset.trans (abortOther_sub _ _ q) hset
    · exact hset
  cases q <;> exact hall

theorem calmer_abortCore (split : Bool) (c : Core) (k : CtxId) (code : Nat) (residue : Bool) : Calmer c (abortCore split c k code residue) :=
  ⟨(SameTask.abortCore split c k code residue).task, fun h => abortCore_queue_nil (q := .fab) h split k code residue,
    fun h e he => h e (abortCore_sub split c k code residue .tongs he)⟩

/-- Entries of a queue are changed, and none goes back to its start. -/
theorem calmer_mapQueue (c : Core) (q : Queue) {f : QEntry → QEntry} (hf : ∀ e, e.started = true → (f e).started = true) :
    Calmer c (c.setQueue q ((c.queue q).map f)) := by
  refine ⟨(SameTask.setQueue c q _).task, fun h => ?_, fun h e he => ?_⟩
  · cases q
    case fab => exact List.map_eq_nil_iff.2 h
    all_goals exact h
  · cases q
    case tongs =>
      obtain ⟨x, hx, rfl⟩ := List.mem_map.1 he
      exact hf x (h x hx)
    all_goals exact h e he

/-! ## The state of a send -/

/-- From `s` to `t` something was sent, or could not be: what leaves, its sequences and connections, and the faults of
instructions. -/
structure Sent (s t : State) : Prop where
  frame : t = { s with regs := t.regs, cores := t.cores, recorder := t.recorder, ylp := t.ylp, egress := t.egress, ports := t.ports
                       conns := t.conns, surv := t.surv, coll := { s.coll with stream := t.coll.stream, lost := t.coll.lost } }
  cores : ∀ i, Calmer (coreAt s i) (coreAt t i)
  regs : ∀ a, 0x300000 ≤ a → getR t a = getR s a

section
variable {s t u : State}

theorem Sent.refl (s : State) : Sent s s := ⟨rfl, fun _ => .refl _, fun _ _ => rfl⟩

theorem Sent.trans (a : Sent s t) (b : Sent t u) : Sent s u :=
  ⟨by rw [b.frame, a.frame], fun i => (a.cores i).trans (b.cores i), fun x hx => (b.regs x hx).trans (a.regs x hx)⟩

theorem Sent.foldl {α : Type} {f : State → α → State} (h : ∀ s x, Sent s (f s x)) (l : List α) (s : State) : Sent s (l.foldl f s) := by
  induction l generalizing s with
  | nil => exact .refl s
  | cons x l ih => exact (h s x).trans (ih _)

/-- Cores and registers are untouched. -/
theorem sent_of (hf : t = { s with recorder := t.recorder, ylp := t.ylp, egress := t.egress, ports := t.ports, conns := t.conns
                                   surv := t.surv, coll := { s.coll with stream := t.coll.stream, lost := t.coll.lost } }) : Sent s t :=
  have hc : t.cores = s.cores := by rw [hf]
  have hr : t.regs = s.regs := by rw [hf]
  ⟨by rw [hf], fun i => by rw [coreAt_congr hc]; exact .refl _, fun a _ => getR_congr hr a⟩

theorem sent_modCore (s : State) (i : Nat) {f : Core → Core} (h : Calmer (coreAt s i) (f (coreAt s i))) : Sent s (modCore s i f) := by
  refine ⟨rfl, fun j => ?_, fun _ _ => rfl⟩
  by_cases hij : i = j
  · subst hij
    by_cases hi : i < s.cores.length
    · rw [coreAt_modCore hi]; exact h
    · rw [modCore, setCore, List.set_eq_of_length_le (Nat.le_of_not_lt hi)]; exact .refl _
  · rw [coreAt_modCore_ne hij]; exact .refl _

theorem sent_putF (s : State) {a : Nat} (ha : a < 0x300000) (f : Fld) (x : Nat) : Sent s (putF s a f x) :=
  ⟨by obtain ⟨r, h⟩ := putF_regs_only s a f x; rw [h], fun i => by rw [coreAt_congr (putF_cores ..)]; exact .refl _,
    fun b hb => regsSameBut_putF s a f x b (by simp only [List.mem_singleton]; omega)⟩

theorem sent_satF (s : State) {a : Nat} (ha : a < 0x300000) (f : Fld) (n : Nat) : Sent s (satF s a f n) := sent_putF s ha f _

theorem sent_makeRecord (s : State) (src typ : Nat) (b : List Word64) : Sent s (makeRecord s src typ b) :=
  sent_of (by rw [makeRecord_eq])

theorem SendOnly.sent (h : SendOnly s t) : Sent s t := sent_of (by rw [SendOnly] at h; rw [h])

end

/-! ## Faults of instructions -/

section
variable {s : State}

theorem sent_setEntry (s : State) (i : Nat) (q : Queue) (qid : Nat) {f : QEntry → QEntry} (hf : ∀ e, e.started = true → (f e).started = true) :
    Sent s (setEntry s i q qid f) := by
  refine sent_modCore s i (calmer_mapQueue _ q fun e he => ?_)
  split
  · exact hf e he
  · exact he

theorem sent_faultAbort (s : State) (i : CoreId) (k : CtxId) (queue code pc : Nat) (precise residue : Bool) :
    Sent s (faultAbort s i k queue code pc precise residue) := by
  by_cases h : ((coreAt s i).ctx k).over = true
  · rw [faultAbort, if_pos h]; exact .refl s
  · obtain ⟨fld, body, heq⟩ := faultAbort_eq (eq_false_of_ne_true h) queue code pc precise residue
    have hi := i.isLt
    have h1 : CORE_FAULT i < 0x300000 := by unfold CORE_FAULT; omega
    have h2 : CORE_FAULTPC i < 0x300000 := by unfold CORE_FAULTPC; omega
    have h3 : CORE_FAULTCNT i < 0x300000 := by unfold CORE_FAULTCNT; omega
    have hcore := sent_modCore s i (f := fun c => abortCore (isSplit s i) c k code residue) (calmer_abortCore ..)
    have hnoted : Sent s (faultNoted s i k queue code pc precise residue) :=
      ((((hcore.trans (sent_putF _ h1 ..)).trans (sent_putF _ h1 ..)).trans (sent_putF _ h1 ..)).trans (sent_putF _ h1 ..)).trans
        (sent_putF _ h2 ..)
    rw [heq]
    exact (hnoted.trans (sent_satF _ h3 ..)).trans (sent_makeRecord ..)

theorem sent_entryFault (s : State) (i : CoreId) (q : Queue) (e : QEntry) (code : Nat) (residue : Bool) :
    Sent s (entryFault s i q e code residue) := by
  unfold entryFault
  split
  · exact sent_setEntry s i q e.qid fun _ h => h
  · exact sent_faultAbort ..

theorem sent_ownerDone (s : State) (o : Owner) (code : Nat) : Sent s (ownerDone s o (some code)) := by
  cases o with
  | insn i q qid =>
    unfold ownerDone
    dsimp only
    cases entryOf s i.val q qid with
    | none => exact .refl s
    | some e => exact sent_entryFault ..
  | _ => exact sent_of rfl

end

/-! ## Requests of the line protocol -/

section
variable {s : State}

theorem sent_portEmit (s : State) (p q : Nat) (o : Out) : Sent s (portEmit s p q o) := by
  unfold portEmit
  split <;> exact sent_of rfl

theorem sent_sendFrame (s : State) (port : Nat) (f : YlpFrame) : Sent s (sendFrame s port f) := by
  unfold sendFrame
  split
  · split
    · dsimp only
      exact Sent.trans (sent_of rfl) (sent_portEmit _ port _ _)
    · exact .refl s
  · exact .refl s

theorem sent_sendOn (s : State) (d : TxDst) (f : YlpFrame) : Sent s (sendOn s d f) := by
  unfold sendOn
  split
  · exact sent_sendFrame ..
  · exact .refl s

theorem sent_setDst (s : State) (d : TxDst) : Sent s (setDst s d) := sent_of rfl

theorem sent_noteHigh (s : State) (o : Owner) (node seq : Nat) : Sent s (noteHigh s o node seq) := by
  cases o with
  | insn i q qid =>
    exact sent_modCore s i.val (f := fun c => c.setQueue q ((c.queue q).map fun e =>
      if e.qid = qid then { e with high := assocSet node seq e.high } else e)) (calmer_mapQueue _ q fun e he => by split <;> exact he)
  | _ => exact .refl s

theorem sent_sendNumbered (s : State) (d : TxDst) (f : YlpFrame) (o : Owner) (dst skip len : Nat) :
    Sent s (sendNumbered s d f o dst skip len) :=
  ((sent_setDst ..).trans (sent_sendOn ..)).trans (sent_noteHigh ..)

theorem sent_unreachable (s : State) (node : Nat) : Sent s (unreachable s node) :=
  ((sent_setDst ..).trans (sent_satF _ (by decide) ..)).trans (Sent.foldl (fun t o => sent_ownerDone t o faultFabric) _ _)

theorem sent_refuseNoPath (s : State) (d : TxDst) (f : YlpFrame) (o : Owner) : Sent s (refuseNoPath s d f o) := by
  unfold refuseNoPath
  split
  · exact sent_ownerDone ..
  · exact (sent_setDst ..).trans (sent_unreachable ..)

theorem sent_sendRequest (s : State) (node : Nat) (f : YlpFrame) (o : Owner) (dst skip len : Nat) :
    Sent s (sendRequest s node f o dst skip len) := by
  unfold sendRequest
  dsimp only
  split
  · exact sent_refuseNoPath ..
  · split
    · exact sent_sendNumbered ..
    · exact sent_setDst ..

theorem sent_sendWrites (s : State) (node a : Nat) (bs : List Byte) (o : Owner) : Sent s (sendWrites s node a bs o) :=
  Sent.foldl (fun t _ => sent_sendRequest t ..) _ _

theorem sent_loseMember (s : State) (node : Nat) : Sent s (loseMember s node) := by
  unfold loseMember
  split
  · exact .refl s
  · exact sent_of rfl

/-- What is carried to another member than this one is sent. -/
theorem sent_carry {g : Group} {rank : Nat} (h : rank ≠ g.rank) (s : State) (a : Nat) (bs : List Byte) (o : Owner) :
    Sent s (carry s g rank a bs o) := by
  unfold carry
  rw [if_neg h]
  split
  · exact sent_sendWrites ..
  · dsimp only
    split
    · exact (sendOnly_roceSendOn ..).sent
    · exact (sendOnly_roceSendOn ..).sent.trans (sent_loseMember ..)

end

/-! ## Cores at rest -/

/-- No core has a fabric instruction, nor one of the tongs that has not started. -/
def Resting (s : State) : Prop := ∀ i, (coreAt s i).fab = [] ∧ ∀ e ∈ (coreAt s i).tongs, e.started = true

section
variable {s t : State}

theorem Resting.calmer (h : Resting s) (hc : ∀ i, Calmer (coreAt s i) (coreAt t i)) : Resting t := fun i =>
  ⟨(hc i).fab (h i).1, (hc i).tongs (h i).2⟩

theorem resting_of_all (h : s.cores.all (fun c => c.fab.isEmpty && c.tongs.all (·.started)) = true) : Resting s := by
  intro i
  by_cases hi : i < s.cores.length
  · have hc : coreAt s i = s.cores[i] := by simp [coreAt, List.getD_eq_getElem?_getD, hi]
    have he := List.all_eq_true.1 h _ (List.getElem_mem hi)
    rw [← hc, Bool.and_eq_true, List.isEmpty_iff, List.all_eq_true] at he
    exact he
  · have hc : coreAt s i = .reset := by simp [coreAt, List.getD_eq_getElem?_getD, hi]
    rw [hc]
    exact ⟨rfl, fun e he => absurd he List.not_mem_nil⟩

theorem pumpQueue_resting (h : Resting s) (i : CoreId) (q : Queue) (hq : q = .fab ∨ q = .tongs) : pumpQueue s i q = s := by
  have hhead : headEntry s i.val q = none := by
    rcases hq with rfl | rfl
    · exact congrArg (List.find? _) (h i).1
    · exact List.find?_eq_none.2 fun e he => by simp [(h i).2 e he]
  have hnext : startNext s i q = (s, false) := by rw [startNext, hhead]
  rw [pumpQueue]
  cases ((coreAt s i.val).queue q).length with
  | zero => rfl
  | succ n => rw [pumpN, hnext]; rfl

theorem pumpFabrics_resting (h : Resting s) : pumpFabrics s = s :=
  List.foldl_fixed' (fun i => by rw [pumpQueue_resting h i .fab (.inl rfl), pumpQueue_resting h i .tongs (.inr rfl)]) _

end

end Sys2Proof.Machine
end


section
/-! PROOFS. What the lines of a group leave as it was: credit and sending (R311), the end of a run, and what waits for the
engines (R306, R326). -/

namespace Sys2Proof.Machine

/-! ## Lines that are sent -/

/-- A group apart from what it has sent and has to send. -/
def Group.settled (g : Group) : Group := { g with outq := [], sent := [], returned := [], taken := [] }

/-- No line of the group that waits is for this member itself. -/
def Foreign (s : State) (k : Nat) : Prop := ∀ g, groupAt s k = some g → ∀ o ∈ g.outq, o.rank ≠ g.rank

/-- No group has set a run aside. -/
def NoLater (s : State) : Prop := ∀ k g, groupAt s k = some g → g.later = none

/-- From `s` to `t` lines of groups were queued or sent, and credit was counted. -/
structure Spoken (s t : State) : Prop where
  frame : t = { s with regs := t.regs, cores := t.cores, recorder := t.recorder, ylp := t.ylp, egress := t.egress, ports := t.ports
                       conns := t.conns, surv := t.surv
                       coll := { s.coll with groups := t.coll.groups, stream := t.coll.stream, lost := t.coll.lost } }
  cores : ∀ i, Calmer (coreAt s i) (coreAt t i)
  regs : ∀ a, 0x300000 ≤ a → getR t a = getR s a
  groups : ∀ k, (groupAt t k).map Group.settled = (groupAt s k).map Group.settled
  foreign : ∀ k, Foreign s k → Foreign t k

section
variable {s t u : State}

theorem groupAt_index {k : Nat} {g : Group} (h : groupAt s k = some g) : g.index = k := by
  simpa using List.find?_some h

theorem groupAt_congr_coll (h : t.coll.groups = s.coll.groups) (k : Nat) : groupAt t k = groupAt s k := by
  rw [groupAt, h, groupAt]

theorem instOf_group {k : Nat} {x : Inst} (h : instOf s k = some x) : x.group = k := by
  simpa using List.find?_some h

theorem instOf_congr_coll (h : t.coll.insts = s.coll.insts) (k : Nat) : instOf t k = instOf s k := by
  rw [instOf, h, instOf]

theorem Spoken.refl (s : State) : Spoken s s := ⟨rfl, fun _ => .refl _, fun _ _ => rfl, fun _ => rfl, fun _ h => h⟩

theorem Spoken.trans (a : Spoken s t) (b : Spoken t u) : Spoken s u :=
  ⟨by rw [b.frame, a.frame], fun i => (a.cores i).trans (b.cores i), fun x hx => (b.regs x hx).trans (a.regs x hx),
    fun k => (b.groups k).trans (a.groups k), fun k h => b.foreign k (a.foreign k h)⟩

theorem Spoken.inst (h : Spoken s t) (k : Nat) : instOf t k = instOf s k := instOf_congr_coll (by rw [h.frame]) k

theorem Spoken.mem (h : Spoken s t) : t.mem = s.mem := by rw [h.frame]

theorem Spoken.reset (h : Spoken s t) : t.coll.reset = s.coll.reset := by rw [h.frame]

/-- The group after lines were sent differs in what it has sent and has to send alone. -/
theorem Spoken.group (h : Spoken s t) {k : Nat} {g : Group} (hg : groupAt s k = some g) :
    ∃ g', groupAt t k = some g' ∧ g'.settled = g.settled := by
  have hk := h.groups k
  rw [hg, Option.map_some, Option.map_eq_some_iff] at hk
  exact hk

theorem settled_rank {g h : Group} (e : h.settled = g.settled) : h.rank = g.rank := (congrArg Group.rank e : h.settled.rank = g.settled.rank)
theorem settled_gen {g h : Group} (e : h.settled = g.settled) : h.gen = g.gen := (congrArg Group.gen e : h.settled.gen = g.settled.gen)
theorem settled_later {g h : Group} (e : h.settled = g.settled) : h.later = g.later := (congrArg Group.later e : h.settled.later = g.settled.later)

theorem noLater_of_groups (h : NoLater s) (hg : ∀ k, (groupAt t k).map Group.later = (groupAt s k).map Group.later) : NoLater t := by
  intro k g hk
  have he := hg k
  rw [hk, Option.map_some] at he
  obtain ⟨g', h1, h2⟩ := Option.map_eq_some_iff.1 he.symm
  exact h2.symm.trans (h k g' h1)

theorem Spoken.noLater (h : Spoken s t) (hs : NoLater s) : NoLater t := noLater_of_groups hs fun k => by
  have hmap : ∀ o : Option Group, (o.map Group.settled).map Group.later = o.map Group.later := fun o => by cases o <;> rfl
  rw [← hmap, h.groups k, hmap]

theorem noLater_of_all (h : s.coll.groups.all (·.later.isNone) = true) : NoLater s := fun k g hg => by
  have he := List.all_eq_true.1 h g (List.mem_of_find?_eq_some hg)
  exact Option.isNone_iff_eq_none.1 he

theorem resumeLater_idle (h : NoLater s) : resumeLater s = s := List.foldl_fixed' (fun g => by
  rw [resumeOne]
  cases hg : groupAt s g.index with
  | none => rfl
  | some x =>
    cases instOf s g.index with
    | some y => rfl
    | none =>
      dsimp only
      rw [h _ x hg]) _

theorem Sent.group (h : Sent s t) (k : Nat) : groupAt t k = groupAt s k := groupAt_congr_coll (by rw [h.frame]) k

theorem Sent.inst (h : Sent s t) (k : Nat) : instOf t k = instOf s k := instOf_congr_coll (by rw [h.frame]) k

theorem Sent.spoken (h : Sent s t) : Spoken s t :=
  ⟨by rw [h.frame], h.cores, h.regs, fun k => by rw [h.group], fun k hk g hk' => hk g (by rw [← h.group]; exact hk')⟩

/-- A group takes another account of what it sends. -/
theorem spoken_setGroupEntry {g h : Group} (hg : groupAt s h.index = some g) (he : h.settled = g.settled)
    (ho : ∀ o ∈ h.outq, o ∈ g.outq ∨ o.rank ≠ h.rank) : Spoken s (setGroupEntry s h) := by
  refine ⟨rfl, fun _ => .refl _, fun _ _ => rfl, fun k => ?_, fun k hk x hx o hox => ?_⟩
  · by_cases hkh : k = h.index
    · subst hkh
      rw [groupAt_setGroupEntry, hg, Option.map_some, he, Option.map_some]
    · rw [groupAt_setGroupEntry_ne hkh]
  · by_cases hkh : k = h.index
    · subst hkh
      rw [groupAt_setGroupEntry, Option.some.injEq] at hx
      subst hx
      rcases ho o hox with h1 | h1
      · rw [settled_rank he]
        exact hk g hg o h1
      · exact h1
    · exact hk x (by rw [← groupAt_setGroupEntry_ne hkh]; exact hx) o hox

theorem sent_aimDie (s : State) (node : Nat) : Sent s (aimDie s node) := by
  unfold aimDie
  dsimp only
  split
  · exact .refl s
  · split
    · exact sent_setDst ..
    · exact .refl s

theorem sent_sendLine {g : Group} {o : OutLine} (h : o.rank ≠ g.rank) (s : State) (slot : Nat) : Sent s (sendLine s g o slot) := by
  have h1 : Sent s (if laneRel o.rel || o.rank = g.rank || g.conn o.rank != 0xFFFF then s else aimDie s (g.node o.rank)) := by
    split
    · exact .refl s
    · exact sent_aimDie ..
  unfold sendLine
  dsimp only
  generalize (if laneRel o.rel || o.rank = g.rank || g.conn o.rank != 0xFFFF then s else aimDie s (g.node o.rank)) = v at h1 ⊢
  split
  · exact h1.trans (sent_carry h ..)
  · exact (h1.trans (sent_carry h ..)).trans (sent_carry h ..)

theorem spoken_drainLines (idx : Nat) (l kept : List OutLine) (s : State)
    (h : ∀ g, groupAt s idx = some g → ∀ o ∈ l ++ kept, o.rank ≠ g.rank) : Spoken s (drainLines idx l kept s) := by
  induction l generalizing kept s with
  | nil =>
    rw [drainLines]
    cases hg : groupAt s idx with
    | none => exact .refl s
    | some g =>
      exact spoken_setGroupEntry (h := { g with outq := kept }) ((congrArg (groupAt s) (groupAt_index hg)).trans hg) rfl
        fun o ho => .inr (h g hg o ho)
  | cons o rest ih =>
    rw [drainLines]
    cases hg : groupAt s idx with
    | none => exact .refl s
    | some g =>
      dsimp only
      split
      · refine ih _ _ fun g' hg' p hp => h g' hg' p ?_
        simp only [List.mem_append, List.mem_cons, List.not_mem_nil, or_false] at hp ⊢
        tauto
      · have hset := spoken_setGroupEntry (h := { g with sent := assocSet (relKey o.rel o.rank) (tally (relKey o.rel o.rank) g.sent + 1) g.sent })
          ((congrArg (groupAt s) (groupAt_index hg)).trans hg) rfl fun p hp => .inl hp
        have hsent := hset.trans (sent_sendLine (h g hg o List.mem_cons_self) _
          (o.slot + tally (relKey o.rel o.rank) g.sent % o.slots)).spoken
        refine hsent.trans (ih _ _ fun g' hg' p hp => ?_)
        obtain ⟨g'', k1, k2⟩ := hsent.group hg
        rw [k1, Option.some.injEq] at hg'
        subst hg'
        rw [settled_rank k2]
        refine h g hg p ?_
        simp only [List.cons_append, List.mem_cons]
        exact .inr hp

theorem spoken_drainGroup {idx : Nat} (h : Foreign s idx) : Spoken s (drainGroup s idx) := by
  unfold drainGroup
  cases hg : groupAt s idx with
  | none => exact .refl s
  | some g => exact spoken_drainLines _ _ _ _ fun g' hg' o ho => h g' hg' o (by
      rw [hg, Option.some.injEq] at hg'
      subst hg'
      simpa using ho)

theorem spoken_queueLine {idx : Nat} {o : OutLine} (h : ∀ g, groupAt s idx = some g → o.rank ≠ g.rank) :
    Spoken s (queueLine s idx o) := by
  unfold queueLine
  cases hg : groupAt s idx with
  | none => exact .refl s
  | some g =>
    refine spoken_setGroupEntry (h := { g with outq := g.outq ++ [o] }) ((congrArg (groupAt s) (groupAt_index hg)).trans hg) rfl fun p hp => ?_
    rcases List.mem_append.1 hp with hp | hp
    · exact .inl hp
    · rw [List.mem_singleton] at hp
      subst hp
      exact .inr (h g hg)

/-! ## The tree of rank 0 -/

theorem swapRank_zero (r : Nat) : swapRank 0 r = r := by
  unfold swapRank
  split <;> simp_all

theorem childrenIn_zero (n r : Nat) : childrenIn n 0 r = treeChildren n r := by
  rw [childrenIn, swapRank_zero]
  exact List.map_id'' swapRank_zero _

theorem child_ne {n r c : Nat} (h : c ∈ childrenIn n 0 r) : c ≠ r := by
  rw [childrenIn_zero, treeChildren, List.mem_filter, List.mem_map] at h
  obtain ⟨⟨k, -, rfl⟩, -⟩ := h
  omega

theorem parent_ne {r : Nat} (h : r ≠ 0) : parentIn 0 r ≠ r := by
  rw [parentIn, swapRank_zero, swapRank_zero, treeParent]
  omega

theorem treeParent_ne {r : Nat} (h : r ≠ 0) : treeParent r ≠ r := by
  rw [treeParent]
  omega

/-! ## Lines of a group that is active -/

/-- The group is active, apart from what it has sent. -/
def Has (s : State) (g : Group) : Prop := ∃ h, groupAt s g.index = some h ∧ h.settled = g.settled

theorem Has.spoken {g : Group} (h : Has s g) (hs : Spoken s t) : Has t g := by
  obtain ⟨x, h1, h2⟩ := h
  obtain ⟨y, k1, k2⟩ := hs.group h1
  exact ⟨y, k1, k2.trans h2⟩

theorem Has.rank {g h : Group} (hs : Has s g) (hg : groupAt s g.index = some h) : h.rank = g.rank := by
  obtain ⟨x, h1, h2⟩ := hs
  rw [h1, Option.some.injEq] at hg
  subst hg
  exact settled_rank h2

theorem has_of {k : Nat} {g : Group} (h : groupAt s k = some g) : Has s g := ⟨g, by rw [groupAt_index h, h], rfl⟩

theorem foreign_of_empty {k : Nat} {g : Group} (h : groupAt s k = some g) (ho : g.outq = []) : Foreign s k := fun x hx o hox => by
  rw [h, Option.some.injEq] at hx
  subst hx
  rw [ho] at hox
  exact absurd hox List.not_mem_nil

section
variable {g : Group} (hg : Has s g)
include hg

theorem spoken_sendLines {o : OutLine} (ho : o.rank ≠ g.rank) (hf : Foreign s g.index) :
    Spoken s (drainGroup (queueLine s g.index o) g.index) := by
  have hq := spoken_queueLine (idx := g.index) (o := o) fun x hx => by rw [hg.rank hx]; exact ho
  exact hq.trans (spoken_drainGroup (hq.foreign _ hf))

theorem spoken_sendSlot27 {rank : Nat} (hr : rank ≠ g.rank) (hf : Foreign s g.index) (inst kind status : Nat) :
    Spoken s (sendSlot27 s g rank inst kind status) := spoken_sendLines hg hr hf

theorem spoken_queueUp {root : Nat} (hr : parentIn root g.rank ≠ g.rank) (hf : Foreign s g.index) (inst kind value : Nat) (data : List Byte) :
    Spoken s (queueUp s g root inst kind value data) := spoken_sendLines hg hr hf

theorem spoken_queueLines {α : Type} {line : α → OutLine} (cs : List α) (hc : ∀ c ∈ cs, (line c).rank ≠ g.rank) :
    Spoken s (cs.foldl (fun t c => queueLine t g.index (line c)) s) := by
  induction cs generalizing s with
  | nil => exact .refl s
  | cons c cs ih =>
    have hq := spoken_queueLine (s := s) (idx := g.index) (o := line c) fun x hx => by
      rw [hg.rank hx]; exact hc c List.mem_cons_self
    exact hq.trans (ih (hg.spoken hq) fun d hd => hc d (List.mem_cons_of_mem _ hd))

theorem spoken_queueDown {root : Nat} (hr : ∀ c ∈ childrenIn g.size root g.rank, c ≠ g.rank) (hf : Foreign s g.index)
    (inst kind value : Nat) (data : List Byte) (chunk : Nat) : Spoken s (queueDown s g root inst kind value data chunk) := by
  have hq := spoken_queueLines hg (line := fun c => downLine g root c inst kind value data chunk) (childrenIn g.size root g.rank) hr
  exact hq.trans (spoken_drainGroup (hq.foreign _ hf))

theorem spoken_slot27s {inst kind status : Nat} (cs : List Nat) (hc : ∀ c ∈ cs, c ≠ g.rank) (hf : Foreign s g.index) :
    Spoken s (cs.foldl (fun t c => sendSlot27 t g c inst kind status) s) := by
  induction cs generalizing s with
  | nil => exact .refl s
  | cons c cs ih =>
    have hq := spoken_sendSlot27 hg (hc c List.mem_cons_self) hf inst kind status
    exact hq.trans (ih (hg.spoken hq) (fun d hd => hc d (List.mem_cons_of_mem _ hd)) (hq.foreign _ hf))

end

/-- A group that takes back a slot. -/
theorem returnCredit_eq {g h : Group} (hg : groupAt s g.index = some h) (rel sender : Nat) : returnCredit s g rel sender =
    if sender < g.size then carry (setGroupEntry s { h with taken := assocSet (relKey rel sender) (tally (relKey rel sender) h.taken + 1) h.taken })
        g sender (creditLine g rel) (leBytes 8 (tally (relKey rel sender) h.taken + 1) ++ List.replicate 120 0) (.coll g.index)
    else setGroupEntry s { h with taken := assocSet (relKey rel sender) (tally (relKey rel sender) h.taken + 1) h.taken } := by
  rw [returnCredit, hg]

theorem spoken_returnCredit {g : Group} {sender : Nat} (h : sender ≠ g.rank) (s : State) (rel : Nat) :
    Spoken s (returnCredit s g rel sender) := by
  cases hg : groupAt s g.index with
  | none => rw [returnCredit, hg]; exact .refl s
  | some x =>
    have hset := spoken_setGroupEntry (h := { x with taken := assocSet (relKey rel sender) (tally (relKey rel sender) x.taken + 1) x.taken })
      ((congrArg (groupAt s) (groupAt_index hg)).trans hg) rfl fun p hp => .inl hp
    rw [returnCredit_eq hg]
    split
    · exact hset.trans (sent_carry h ..).spoken
    · exact hset

/-- What stands in the queue of a group stays there while a slot goes back. -/
theorem outq_returnCredit {g : Group} {sender : Nat} (h : sender ≠ g.rank) (s : State) (rel : Nat) :
    (groupAt (returnCredit s g rel sender) g.index).map Group.outq = (groupAt s g.index).map Group.outq := by
  cases hg : groupAt s g.index with
  | none => rw [returnCredit, hg]; simp [hg]
  | some x =>
    have hx := groupAt_index hg
    have hset : groupAt (setGroupEntry s { x with taken := assocSet (relKey rel sender) (tally (relKey rel sender) x.taken + 1) x.taken }) g.index
        = some { x with taken := assocSet (relKey rel sender) (tally (relKey rel sender) x.taken + 1) x.taken } := by
      rw [← hx]
      exact groupAt_setGroupEntry ..
    rw [returnCredit_eq hg]
    split
    · have hsent := sent_carry h (setGroupEntry s { x with taken := assocSet (relKey rel sender) (tally (relKey rel sender) x.taken + 1) x.taken })
        (creditLine g rel) (leBytes 8 (tally (relKey rel sender) x.taken + 1) ++ List.replicate 120 0) (.coll g.index)
      rw [hsent.group, hset]
      rfl
    · rw [hset]
      rfl

end

end Sys2Proof.Machine
end


section
/-! PROOFS. Control lines (O36): a line is left in a quench (R211); a chunk of a broadcast (R321), the arrivals and the release of a
barrier (R320), and an abort (R327). -/

namespace Sys2Proof.Machine

/-! ## The end of a run -/

/-- From `s` to `t` the run of group `k` is over, and its group has taken the change `f`. -/
structure InstOver (s t : State) (k : Nat) (f : Group → Group) : Prop where
  mem : t.mem = s.mem
  cores : ∀ i, Calmer (coreAt s i) (coreAt t i)
  inst : instOf t k = none
  group : groupAt t k = (groupAt s k).map f
  other : ∀ n, n ≠ k → groupAt t n = groupAt s n

section
variable {s t u : State} {k : Nat} {f : Group → Group}

theorem InstOver.sent (h : InstOver s t k f) (hs : Sent t u) : InstOver s u k f :=
  ⟨by rw [← h.mem, hs.frame], fun i => (h.cores i).trans (hs.cores i), (hs.inst k).trans h.inst, (hs.group k).trans h.group,
    fun n hn => (hs.group n).trans (h.other n hn)⟩

theorem InstOver.noLater (h : InstOver s t k f) (hf : ∀ g, (f g).later = g.later) (hs : NoLater s) : NoLater t := fun n g hg => by
  by_cases hn : n = k
  · subst hn
    rw [h.group, Option.map_eq_some_iff] at hg
    obtain ⟨x, hx, rfl⟩ := hg
    exact (hf x).trans (hs n x hx)
  · exact hs n g (by rw [← h.other n hn]; exact hg)

/-- The group after a run of it has released. -/
def releasedGroup (x : Inst) (h : Group) : Group := { h with last := some x, lastGen := h.gen }

/-- The group after a run of it has failed. -/
def failedGroup (x : Inst) (h : Group) : Group :=
  { h with outq := h.outq.filter (·.rel = 10), last := none, lastGen := h.gen, failed := x.num :: h.failed.filter (· != x.num) }

/-- The run is gone, and its ring lanes ask for no path. -/
def instGone (s : State) (g : Group) (x : Inst) : State := if isRing x.op then freePaths (dropInst s g.index) g.index else dropInst s g.index

theorem instGone_shows (s : State) (g : Group) (x : Inst) : (instGone s g x).mem = s.mem ∧ (instGone s g x).cores = s.cores ∧
    (instGone s g x).coll = (dropInst s g.index).coll := by
  unfold instGone
  split <;> exact ⟨rfl, rfl, rfl⟩

theorem endInst_over (s : State) (g : Group) (x : Inst) : InstOver s (endInst s g x) g.index (releasedGroup x) := by
  obtain ⟨hm, hc, hcoll⟩ := instGone_shows s g x
  have hgone : endInst s g x = match groupAt (instGone s g x) g.index with
    | some h => setGroupEntry (instGone s g x) (releasedGroup x h)
    | none => instGone s g x := rfl
  have hgroup : ∀ n, groupAt (instGone s g x) n = groupAt s n := groupAt_congr_coll (by rw [hcoll]; rfl)
  have hinst : instOf (instGone s g x) g.index = none := (instOf_congr_coll (by rw [hcoll]) _).trans (instOf_dropInst ..)
  rw [hgone, hgroup]
  generalize instGone s g x = v at hm hc hgroup hinst ⊢
  cases hg : groupAt s g.index with
  | none => exact ⟨hm, fun i => by rw [coreAt_congr hc]; exact .refl _, hinst, by rw [hgroup, hg]; rfl, fun n _ => hgroup n⟩
  | some h =>
    have hi : (releasedGroup x h).index = g.index := (groupAt_index hg : h.index = g.index)
    refine ⟨hm, fun i => by rw [coreAt_congr (t := setGroupEntry v (releasedGroup x h)) hc]; exact .refl _, hinst, ?_, fun n hn => ?_⟩
    · rw [hg, Option.map_some, ← hi]
      exact groupAt_setGroupEntry ..
    · rw [← hgroup n]
      exact groupAt_setGroupEntry_ne (by rw [hi]; exact hn)

theorem sent_entryPart (s : State) (i : CoreId) (q : Queue) (qid : Nat) : Sent s (entryPart s i q qid) := by
  unfold entryPart
  exact sent_modCore s i.val (f := fun c : Core => c.setQueue q ((c.queue q).map fun e : QEntry =>
    if e.qid = qid then { e with awaits := e.awaits - 1 } else e)) (calmer_mapQueue _ q fun e he => by split <;> exact he)

theorem completeInst_over (s : State) (g : Group) {x : Inst} (h : x.op ≠ .snapshot) :
    InstOver s (completeInst s g x) g.index (releasedGroup x) := by
  rw [completeInst, if_neg h]
  exact (endInst_over s g x).sent (sent_entryPart ..)

theorem withdrawInst_over (s : State) (g : Group) (x : Inst) : InstOver s (withdrawInst s g x) g.index (failedGroup x) := by
  have he := endInst_over s g x
  have hgo : withdrawInst s g x = match groupAt (endInst s g x) g.index with
    | some h => setGroupEntry (endInst s g x) (failedGroup x h)
    | none => endInst s g x := by
      unfold withdrawInst
      dsimp only
      cases hg : groupAt (endInst s g x) g.index with
      | none => rfl
      | some h =>
        rw [he.group, Option.map_eq_some_iff] at hg
        obtain ⟨y, -, rfl⟩ := hg
        rfl
  rw [hgo, he.group]
  generalize endInst s g x = v at he ⊢
  cases hg : groupAt s g.index with
  | none => exact ⟨he.mem, he.cores, he.inst, by rw [Option.map_none, he.group, hg]; rfl, he.other⟩
  | some h =>
    have hi : (failedGroup x (releasedGroup x h)).index = g.index := (groupAt_index hg : h.index = g.index)
    refine ⟨he.mem, he.cores, he.inst, ?_, fun n hn => ?_⟩
    · rw [hg, Option.map_some, Option.map_some, ← hi]
      exact groupAt_setGroupEntry ..
    · rw [← he.other n hn]
      exact groupAt_setGroupEntry_ne (by rw [hi]; exact hn)

theorem InstOver.regs {v : State} (h : InstOver s t k f) (hm : v.mem = t.mem) (hc : v.cores = t.cores) (hi : v.coll.insts = t.coll.insts)
    (hg : v.coll.groups = t.coll.groups) : InstOver s v k f :=
  ⟨hm.trans h.mem, fun i => by rw [coreAt_congr hc]; exact h.cores i, (instOf_congr_coll hi k).trans h.inst,
    (groupAt_congr_coll hg k).trans h.group, fun n hn => (groupAt_congr_coll hg n).trans (h.other n hn)⟩

/-- A snapshot that is over closes nothing but what it opened. -/
theorem closeSnap_shows (s : State) (x : Inst) : (closeSnap s x).mem = s.mem ∧ (closeSnap s x).cores = s.cores ∧
    (closeSnap s x).coll.insts = s.coll.insts ∧ (closeSnap s x).coll.groups = s.coll.groups := by
  unfold closeSnap
  split
  · have hv : ∀ v : State, ({ v with coll := { s.coll with capturing := false } } : State).mem = v.mem ∧
        ({ v with coll := { s.coll with capturing := false } } : State).cores = v.cores := fun _ => ⟨rfl, rfl⟩
    exact ⟨(hv _).1.trans (putF_mem ..), (hv _).2.trans (putF_cores ..), rfl, rfl⟩
  · exact ⟨rfl, rfl, rfl, rfl⟩

theorem failInst_over (s : State) (g : Group) (x : Inst) (code : Nat) : InstOver s (failInst s g x code) g.index (failedGroup x) := by
  obtain ⟨hm, hc, hi, hg⟩ := closeSnap_shows (withdrawInst s g x) x
  have h2 := (withdrawInst_over s g x).regs hm hc hi hg
  rw [failInst]
  generalize closeSnap (withdrawInst s g x) x = v at h2 ⊢
  split
  · exact (h2.regs (satF_mem ..) (satF_cores ..) (congrArg Coll.insts (satF_coll ..)) (congrArg Coll.groups (satF_coll ..))).sent
      (sent_ownerDone ..)
  · exact h2.sent (sent_ownerDone ..)

end

/-! ## A line that is taken -/

/-- From `u` to `t` a line was taken: no byte of memory changed, no instruction started, and no run was set aside. -/
structure LineDone (u t : State) : Prop where
  mem : t.mem = u.mem
  cores : ∀ i, Calmer (coreAt u i) (coreAt t i)
  later : NoLater u → NoLater t

section
variable {s t u v : State} {idx slot : Nat} {g : Group} {x : Inst} {l : CtrlLine}

theorem LineDone.trans (a : LineDone s t) (b : LineDone t u) : LineDone s u :=
  ⟨b.mem.trans a.mem, fun i => (a.cores i).trans (b.cores i), fun h => b.later (a.later h)⟩

theorem Spoken.lineDone (h : Spoken s t) : LineDone s t := ⟨h.mem, h.cores, h.noLater⟩

theorem InstOver.lineDone {k : Nat} {f : Group → Group} (h : InstOver s t k f) (hf : ∀ g, (f g).later = g.later) : LineDone s t :=
  ⟨h.mem, h.cores, h.noLater hf⟩

theorem lineDone_setInst (s : State) (x : Inst) : LineDone s (setInst s x) := ⟨rfl, fun _ => .refl _, fun h => h⟩

theorem touched_touchReads (s : State) (rs : List (Nat × Nat)) : Touched s (touchReads s rs) := by
  have hrange : ∀ (s : State) (r : Nat × Nat), Touched s (touchRange s r.1 r.2) := fun s r => by
    unfold touchRange
    split
    · exact touched_touchLines (fun _ => (false, false)) _
    · exact .refl s
  unfold touchReads
  induction rs generalizing s with
  | nil => exact .refl s
  | cons r rs ih => exact (hrange s r).trans (ih _)

theorem atLine_open (hq : quenched s = false) (hopen : allOpen s [(slotLine g slot, 32)] = true) (hg : groupAt s idx = some g)
    (f : State → State) : atLine s idx slot f = pumpFabrics (f (touchReads s [(slotLine g slot, 32)])) := by
  have hr : lineRange s idx slot = [(slotLine g slot, 32)] := by rw [lineRange, hg]
  rw [atLine, hr, if_neg (by simp [hq, hopen])]

theorem readLine_congr (h : u.mem = s.mem) (g : Group) (slot : Nat) : readLine u g slot = readLine s g slot := by
  rw [readLine, readWords_congr h, readLine]

theorem lineCase_mine {kind : Nat} (hg : groupAt u idx = some g) (hl : l = readLine u g slot) (hk : l.kind = kind)
    (hk6 : 0 < kind ∧ kind ≤ 6) (hgen : l.gen = g.gen) (hx : instOf u idx = some x) (hi : l.inst = x.num) :
    lineCase u idx slot kind = .mine g x := by
  rw [lineCase, hg]
  dsimp only
  rw [← hl, hk, if_neg (by simp; omega), if_neg (by simp), if_neg (by simp [hgen]), hx]
  exact if_pos hi

theorem takeLine_mine {kind : Nat} (hg : groupAt u idx = some g) (hl : l = readLine u g slot) (hk : l.kind = kind)
    (hk6 : 0 < kind ∧ kind ≤ 6) (hgen : l.gen = g.gen) (hx : instOf u idx = some x) (hi : l.inst = x.num)
    (f : Group → Inst → CtrlLine → State → State) : takeLine u idx slot kind f = resumeLater (f g x l u) := by
  rw [takeLine, lineCase_mine hg hl hk hk6 hgen hx hi, hl]

/-- What waited for the engines has nothing to do. -/
theorem settled_after (h : LineDone u t) (hr : Resting u) (hn : NoLater u) : pumpFabrics (resumeLater t) = t := by
  rw [resumeLater_idle (h.later hn), pumpFabrics_resting (hr.calmer h.cores)]

/-! ### Barriers -/

/-- A run with the arrival of a child. -/
def withArrival (s : State) (x : Inst) (l : CtrlLine) : Inst := { x with kids := x.kids ++ [l.rank], since := s.now, stalled := false }

theorem awaitedKids_withArrival (s : State) (g : Group) (x : Inst) (l : CtrlLine) :
    awaitedKids g (withArrival s x l) = awaitedKids g { x with kids := x.kids ++ [l.rank] } := rfl

theorem kidIn_eq (s : State) (g : Group) (x : Inst) (l : CtrlLine) :
    kidIn s g x l = (setInst (returnCredit s g 1 l.rank) (withArrival s x l), withArrival s x l) := rfl

theorem onArrive_eq (hb : x.op = .barrier) (hk : (awaitedKids g x).contains l.rank = true) :
    onArrive g x l u = barrierUp (setInst (returnCredit u g 1 l.rank) (withArrival u x l)) g (withArrival u x l) := by
  rw [onArrive, kidIn_eq, if_neg (by rw [hk]; decide), if_pos hb]

theorem barrierUp_waits (h : awaitedKids g x ≠ []) : barrierUp u g x = u := by
  rw [barrierUp, if_pos (by simp [h])]

theorem barrierUp_root (ho : x.own = true) (h : awaitedKids g x = []) (h0 : g.rank = 0) :
    barrierUp u g x = completeInst (queueDown u g 0 x.num kRelease 0 [] 0) g x := by
  rw [barrierUp, if_neg (by simp [ho, h]), if_pos h0]

theorem barrierUp_up (ho : x.own = true) (h : awaitedKids g x = []) (h0 : g.rank ≠ 0) :
    barrierUp u g x = queueUp u g 0 x.num kArrive 0 [] := by
  rw [barrierUp, if_neg (by simp [ho, h]), if_neg h0]

theorem foreign_setInst (s : State) (y : Inst) {k : Nat} (h : Foreign s k) : Foreign (setInst s y) k := h

theorem Has.setInst (h : Has s g) (y : Inst) : Has (setInst s y) g := h

section
variable (hg : groupAt u idx = some g) (ho : g.outq = []) (hx : instOf u idx = some x) (hr : l.rank ≠ g.rank)
include hg ho hx hr

/-- A child of a barrier is noted and its slot goes back. -/
theorem onArrive_barrier (hb : x.op = .barrier) (hown : x.own = true) (hk : (awaitedKids g x).contains l.rank = true)
    (ht : t = onArrive g x l u) : LineDone u t ∧
    (awaitedKids g { x with kids := x.kids ++ [l.rank] } ≠ [] → (instOf t idx).map (·.kids) = some (x.kids ++ [l.rank])) ∧
    (awaitedKids g { x with kids := x.kids ++ [l.rank] } = [] → g.rank = 0 → instOf t idx = none) := by
  have hidx := groupAt_index hg
  have hcred := spoken_returnCredit hr u 1
  have hhas : Has (setInst (returnCredit u g 1 l.rank) (withArrival u x l)) g := ((has_of hg).spoken hcred).setInst _
  have hf : Foreign (setInst (returnCredit u g 1 l.rank) (withArrival u x l)) g.index :=
    foreign_setInst _ _ (hcred.foreign _ (by rw [hidx]; exact foreign_of_empty hg ho))
  have hset : LineDone u (setInst (returnCredit u g 1 l.rank) (withArrival u x l)) := hcred.lineDone.trans (lineDone_setInst ..)
  have hinst : instOf (setInst (returnCredit u g 1 l.rank) (withArrival u x l)) idx = some (withArrival u x l) := by
    rw [← instOf_group hx]
    exact instOf_setInst _ (withArrival u x l)
  rw [onArrive_eq hb hk] at ht
  rw [← awaitedKids_withArrival u]
  generalize setInst (returnCredit u g 1 l.rank) (withArrival u x l) = v at hhas hf hset hinst ht
  by_cases he : awaitedKids g (withArrival u x l) = []
  · by_cases h0 : g.rank = 0
    · rw [barrierUp_root (x := withArrival u x l) hown he h0] at ht
      have hdown := spoken_queueDown hhas (fun c hc => child_ne hc) hf (withArrival u x l).num kRelease 0 [] 0
      have hover := completeInst_over (queueDown v g 0 (withArrival u x l).num kRelease 0 [] 0) g
        (x := withArrival u x l) (by rw [show (withArrival u x l).op = x.op from rfl, hb]; decide)
      rw [← ht] at hover
      exact ⟨(hset.trans hdown.lineDone).trans (hover.lineDone fun _ => rfl), fun h => absurd he h, fun _ _ => hidx ▸ hover.inst⟩
    · rw [barrierUp_up (x := withArrival u x l) hown he h0] at ht
      have hup := spoken_queueUp hhas (parent_ne h0) hf (withArrival u x l).num kArrive 0 []
      rw [← ht] at hup
      exact ⟨hset.trans hup.lineDone, fun h => absurd he h, fun _ h => absurd h h0⟩
  · rw [barrierUp_waits he] at ht
    subst ht
    exact ⟨hset, fun _ => by rw [hinst]; rfl, fun h => absurd h he⟩

omit hx in
/-- The release of a barrier goes on down the tree, and its run is over. -/
theorem onRelease_barrier (hb : x.op = .barrier) (h0 : g.rank ≠ 0) (hp : l.rank = treeParent g.rank) (ht : t = onRelease g x l u) :
    LineDone u t ∧ instOf t idx = none ∧ (groupAt t idx).map (fun y => (y.last, y.lastGen)) = some (some x, g.gen) := by
  have hidx := groupAt_index hg
  have hcred := spoken_returnCredit hr u (1 + childNo 0 g.rank)
  have hdown := spoken_queueDown ((has_of hg).spoken hcred) (fun c hc => child_ne hc)
    (hcred.foreign _ (by rw [hidx]; exact foreign_of_empty hg ho)) x.num kRelease 0 [] 0
  have hsp := hcred.trans hdown
  have hover := completeInst_over (queueDown (returnCredit u g (1 + childNo 0 g.rank) l.rank) g 0 x.num kRelease 0 [] 0) g
    (x := x) (by rw [hb]; decide)
  have hgo : onRelease g x l u = completeInst (queueDown (returnCredit u g (1 + childNo 0 g.rank) l.rank) g 0 x.num kRelease 0 [] 0) g x := by
    rw [onRelease, if_neg (by simp [h0, hp]), if_pos hb]
  rw [← hgo, ← ht, hidx] at hover
  obtain ⟨h, h1, h2⟩ := hsp.group hg
  refine ⟨hsp.lineDone.trans (hover.lineDone fun _ => rfl), hover.inst, ?_⟩
  rw [hover.group, h1]
  exact congrArg (fun n => some (some x, n)) (settled_gen h2)

/-- An abort ends the run in progress, after it went on down the tree. -/
theorem onAbort_mine (hi : l.inst = x.num) (ha : assocGet l.inst g.aborted = none) (ht : t = onAbort u g l) :
    LineDone u t ∧ instOf t idx = none ∧ (groupAt t idx).map (fun y => (y.outq.all (·.rel = 10), y.last)) = some (true, none) ∧
    (groupAt t idx).map (fun y => y.failed.contains x.num) = some true := by
  have hcred := spoken_returnCredit hr u 10
  have hidx := groupAt_index hg
  have hf := foreign_of_empty hg ho
  have hhas := has_of hg
  rw [← hidx] at hf
  have hflood : Spoken (returnCredit u g 10 l.rank) (floodAbort (returnCredit u g 10 l.rank) g l) :=
    spoken_slot27s (hhas.spoken hcred) _ (fun c hc => child_ne hc) (hcred.foreign _ hf)
  have hover := failInst_over (floodAbort (returnCredit u g 10 l.rank) g l) g x l.status
  have hsp := hcred.trans hflood
  have hgo : onAbort u g l = failInst (floodAbort (returnCredit u g 10 l.rank) g l) g x l.status := by
    rw [onAbort, if_neg (by simp [ha]), hcred.inst, hidx, hx, Option.filter_some_pos (by simp [hi])]
  rw [hgo] at ht
  subst ht
  obtain ⟨h, h1, h2⟩ := hsp.group hg
  rw [hidx] at hover
  refine ⟨hsp.lineDone.trans (hover.lineDone fun _ => rfl), hover.inst, ?_, ?_⟩
  · rw [hover.group, h1]
    simp [failedGroup]
  · rw [hover.group, h1]
    simp [failedGroup]

end

/-! ### Reads and writes of open memory -/

theorem memRead_openDram {a n : Nat} (h : openDram s a n) : (memRead s a n).2 = (.ok, readBytes s a n) := by
  obtain ⟨ha, hn, has, hc⟩ := h
  have hda : isDram a = true := decide_eq_true ha
  have hany : (linesOf a n).any (poisoned s) = false := List.any_eq_false.2 fun b hb => by
    obtain ⟨k, hk, rfl⟩ := List.mem_map.1 hb
    have hk' := List.mem_range.1 hk
    have hline : poisoned s ((a / 128 + k) * 128) = poisoned s (max a ((a / 128 + k) * 128)) := by
      rw [poisoned, poisoned]
      unfold lineBase
      congr 2
      rcases Nat.eq_zero_or_pos k with rfl | hk0
      · rw [max_eq_left (by omega)]
        omega
      · rw [max_eq_right (by omega)]
    rw [hline, hc _ (by omega) (by omega)]
    decide
  rw [memRead, if_neg (by omega), if_neg (by simp [has]), if_pos hda, hany]
  rfl

theorem openDram_touched {a n : Nat} (h : Touched s u) (ho : openDram s a n) : openDram u a n := by
  rw [h.frame]
  exact ho

/-! ### A chunk of a broadcast -/

/-- The state with the bytes of a chunk at their place. -/
def chunkStored (u : State) (g : Group) (slot a n : Nat) : State := (memWrite (memRead u (slotData g slot) n).1 a (readBytes u (slotData g slot) n)).1

/-- What a stored chunk leaves. -/
structure ChunkShown (u v : State) (src dst n : Nat) : Prop where
  bytes : readBytes v dst n = readBytes u src n
  others : memSameOutside u v dst n
  cores : v.cores = u.cores
  coll : v.coll = u.coll

theorem chunkStored_shows {a n : Nat} (hdst : openDram u a n) :
    ChunkShown u (chunkStored u g slot a n) (slotData g slot) a n := by
  have hlen : (readBytes u (slotData g slot) n).length = n := length_readBytes ..
  have hread := touched_memRead u (slotData g slot) n
  have hopen : openDram (memRead u (slotData g slot) n).1 a (readBytes u (slotData g slot) n).length := by
    rw [hlen]; exact openDram_touched hread hdst
  have hm : (memRead u (slotData g slot) n).1.mem = u.mem := by rw [hread.frame]
  have hw := written_memWrite (memRead u (slotData g slot) n).1 a (readBytes u (slotData g slot) n)
  have hbytes := (memWrite_openDram hopen).2
  have hout := memSameOutside_memWrite (memRead u (slotData g slot) n).1 a (readBytes u (slotData g slot) n)
  rw [hlen] at hbytes hout
  refine ⟨hbytes, fun b hb => (hout b hb).trans (readByte_congr hm b), ?_, ?_⟩
  · rw [chunkStored, hw.frame, hread.frame]
  · rw [chunkStored, hw.frame, hread.frame]

theorem queueDown_none {h : Group} {root : Nat} (hc : childrenIn g.size root g.rank = []) (hg : groupAt s g.index = some h) (ho : h.outq = [])
    (inst kind value : Nat) (data : List Byte) (chunk : Nat) :
    queueDown s g root inst kind value data chunk = setGroupEntry s { h with outq := [] } := by
  rw [queueDown, hc, List.foldl_nil, drainGroup, hg]
  dsimp only
  rw [ho, drainLines, hg]

/-- A run with a chunk more. -/
def withChunk (u : State) (x : Inst) : Inst := { x with got := assocSet 0 (tally 0 x.got + 1) x.got, since := u.now, stalled := false }

theorem tally_withChunk (u : State) (x : Inst) : tally 0 (withChunk u x).got = tally 0 x.got + 1 := by
  rw [tally, withChunk, assocGet_assocSet, if_pos rfl]
  rfl

/-- The chunk counted and its slot given back. -/
def chunkCounted (v : State) (g : Group) (x y : Inst) (l : CtrlLine) (bs : List Byte) : State :=
  returnCredit (queueDown (setInst v y) g x.root x.num kData 0 bs (tally 0 x.got)) g (1 + childNo x.root g.rank) l.rank

section
variable (hg : groupAt u idx = some g) (ho : g.outq = []) (hx : instOf u idx = some x) (hr : l.rank ≠ g.rank)

theorem bcastData_eq (hs : 24 ≤ slot) (hp : l.rank = parentIn x.root g.rank) (hc : l.chunk = tally 0 x.got)
    (hlt : tally 0 x.got < bcastChunks x.desc) {n : Nat} (hn : n = bcastLen x.desc (tally 0 x.got)) (hln : l.len = n)
    (hsrc : openDram u (slotData g slot) n) (hdst : openDram u (descDst x.desc + 65536 * tally 0 x.got) n) :
    bcastData u g x slot l = bcastCheck (chunkCounted (chunkStored u g slot (descDst x.desc + 65536 * tally 0 x.got) n) g x
      (withChunk u x) l (readBytes u (slotData g slot) n)) g.index := by
  have hread := memRead_openDram hsrc
  have hopen : openDram (memRead u (slotData g slot) n).1 (descDst x.desc + 65536 * tally 0 x.got) (readBytes u (slotData g slot) n).length := by
    rw [length_readBytes]; exact openDram_touched (touched_memRead ..) hdst
  have hw := (memWrite_openDram hopen).1
  rw [bcastData, if_neg (by simp [hp, hc, hln, ← hn]; omega), hln]
  dsimp only
  rw [hread]
  dsimp only
  rw [if_neg (by decide), hw, if_neg (by decide)]
  rfl

include hg ho hx hr

theorem chunkCounted_shows {v : State} (hv : v.coll = u.coll) (hc : childrenIn g.size x.root g.rank = []) {y : Inst} (hy : y.group = x.group)
    (bs : List Byte) : Spoken (setInst v y) (chunkCounted v g x y l bs) ∧ instOf (chunkCounted v g x y l bs) idx = some y ∧
    ∃ h, groupAt (chunkCounted v g x y l bs) idx = some h ∧ h.outq = [] ∧ h.settled = g.settled := by
  have hidx := groupAt_index hg
  have hgv : groupAt (setInst v y) idx = some g := (groupAt_congr_coll (t := setInst v y) (by rw [← hv]; rfl) idx).trans hg
  have hgi : groupAt (setInst v y) g.index = some g := by rw [hidx]; exact hgv
  have hdown : Spoken (setInst v y) (queueDown (setInst v y) g x.root x.num kData 0 bs (tally 0 x.got)) :=
    spoken_queueDown (has_of hgv) (fun c h => by rw [hc] at h; exact absurd h List.not_mem_nil) (foreign_of_empty hgi ho) ..
  have hcred := spoken_returnCredit hr (queueDown (setInst v y) g x.root x.num kData 0 bs (tally 0 x.got)) (1 + childNo x.root g.rank)
  have hq : (groupAt (queueDown (setInst v y) g x.root x.num kData 0 bs (tally 0 x.got)) g.index).map Group.outq = some [] := by
    rw [queueDown_none hc hgi ho]
    exact congrArg (Option.map Group.outq) (groupAt_setGroupEntry (setInst v y) { g with outq := [] })
  have hall := hdown.trans hcred
  obtain ⟨h, h1, h2⟩ := hall.group hgv
  refine ⟨hall, (hall.inst idx).trans ?_, h, h1, ?_, h2⟩
  · rw [← instOf_group hx, ← hy]
    exact instOf_setInst v y
  · have hout := (outq_returnCredit hr (queueDown (setInst v y) g x.root x.num kData 0 bs (tally 0 x.got)) (1 + childNo x.root g.rank)).trans hq
    rw [hidx] at hout
    have hsome := (congrArg (Option.map Group.outq) h1).symm.trans hout
    exact Option.some.inj hsome

/-- A chunk of a broadcast that this member need not send on. -/
theorem bcastCheck_counted {v : State} (hv : v.coll = u.coll) (hc : childrenIn g.size x.root g.rank = []) (hb : x.op = .broadcast)
    (hroot : g.rank ≠ x.root) (bs : List Byte) (ht : t = bcastCheck (chunkCounted v g x (withChunk u x) l bs) g.index) :
    LineDone v t ∧ if tally 0 x.got + 1 = bcastChunks x.desc then instOf t idx = none
      else (instOf t idx).map (fun y => tally 0 y.got) = some (tally 0 x.got + 1) := by
  obtain ⟨hsp, hinst, h, hgrp, hout, hset⟩ := chunkCounted_shows hg ho hx hr hv hc (y := withChunk u x) rfl bs
  have hdone : LineDone v (chunkCounted v g x (withChunk u x) l bs) := (lineDone_setInst ..).trans hsp.lineDone
  have hidx := groupAt_index hg
  generalize chunkCounted v g x (withChunk u x) l bs = w at hsp hinst hgrp hdone ht
  have hhi := groupAt_index hgrp
  have hover : bcastOver w h (withChunk u x) = decide (tally 0 x.got + 1 = bcastChunks x.desc) := by
    have hrank : ¬ h.rank = (withChunk u x).root := by
      rw [settled_rank hset]
      exact hroot
    rw [bcastOver, hhi, hgrp]
    dsimp only
    rw [hout, if_neg hrank, tally_withChunk]
    rfl
  have hgo : t = if tally 0 x.got + 1 = bcastChunks x.desc then completeInst w h (withChunk u x) else w := by
    have hop : (withChunk u x).op = .broadcast := hb
    rw [ht, hidx, bcastCheck, hgrp, hinst]
    dsimp only
    rw [hover, hop]
    simp
  by_cases he : tally 0 x.got + 1 = bcastChunks x.desc
  · rw [if_pos he] at hgo ⊢
    have hend := completeInst_over w h (x := withChunk u x) (by rw [show (withChunk u x).op = x.op from rfl, hb]; decide)
    rw [← hgo, hhi] at hend
    exact ⟨hdone.trans (hend.lineDone fun _ => rfl), hend.inst⟩
  · rw [if_neg he] at hgo ⊢
    subst hgo
    refine ⟨hdone, ?_⟩
    rw [hinst, Option.map_some, tally_withChunk]

end

end

/-! ## The obligation -/

section
variable {s : State} {idx : BitVec 10} {slot : Fin 28}

theorem atLine_quenched (h : quenched s = true) (i k : Nat) (f : State → State) : atLine s i k f = s := if_pos (by simp [h])

/-- Every line command leaves its line where it stands in a quench. -/
theorem lines_wait {c : Instr} (hc : c ∈ ([.ctrlData idx slot, .ctrlArrive idx slot, .ctrlRelease idx slot, .ctrlReset idx slot,
    .ctrlDone idx slot, .ctrlAbort idx slot] : List Instr)) : Answers c s fun t => quenched s = true → t = s := by
  simp only [List.mem_cons, List.not_mem_nil, or_false] at hc
  rcases hc with rfl | rfl | rfl | rfl | rfl | rfl
  · exact .of (t := ctrlData s idx.toNat slot.val) rfl rfl fun h => atLine_quenched h ..
  · exact .of (t := ctrlArrive s idx.toNat slot.val) rfl rfl fun h => atLine_quenched h ..
  · exact .of (t := ctrlRelease s idx.toNat slot.val) rfl rfl fun h => atLine_quenched h ..
  · exact .of (t := atLine s idx.toNat slot.val fun t => takeReset t idx.toNat slot.val) rfl rfl fun h => atLine_quenched h ..
  · exact .of (t := ctrlDone s idx.toNat slot.val) rfl rfl fun h => atLine_quenched h ..
  · exact .of (t := atLine s idx.toNat slot.val fun t => takeAbort t idx.toNat slot.val) rfl rfl fun h => atLine_quenched h ..

/-- Settles O36: each kind of line, taken where the engines can read it. -/
theorem controlLines : Obligations.ControlLines := by
  intro idx slot s hz
  refine ⟨fun c hc => lines_wait hc, fun g x l hq hopen hcalm hg ho hl hgen hx hi hr => ?_⟩
  have htouch := touched_touchReads s [(slotLine g slot, 32)]
  have hat := fun f => atLine_open (s := s) (slot := slot) hq hopen hg f
  have hmem : (touchReads s [(slotLine g slot, 32)]).mem = s.mem := by rw [htouch.frame]
  have hcoll : (touchReads s [(slotLine g slot, 32)]).coll = s.coll := by rw [htouch.frame]
  have hcores : (touchReads s [(slotLine g slot, 32)]).cores = s.cores := by rw [htouch.frame]
  obtain ⟨hrest0, hlater0⟩ := Bool.and_eq_true_iff.1 hcalm
  generalize touchReads s [(slotLine g slot, 32)] = u at htouch hat hmem hcoll hcores
  have hgu : groupAt u idx.toNat = some g := (groupAt_congr_coll (by rw [hcoll]) _).trans hg
  have hxu : instOf u idx.toNat = some x := (instOf_congr_coll (by rw [hcoll]) _).trans hx
  have hlu : l = readLine u g slot := hl.trans (readLine_congr hmem g slot).symm
  have hrest : Resting u := (resting_of_all hrest0).calmer fun i => by rw [coreAt_congr hcores]; exact .refl _
  have hlater : NoLater u := noLater_of_groups (noLater_of_all hlater0) fun k => by
    rw [groupAt_congr_coll (congrArg Coll.groups hcoll)]
  have hdone : ∀ {t : State}, LineDone u t → pumpFabrics (resumeLater t) = t := fun h => settled_after h hrest hlater
  have hsame : ∀ {t : State}, LineDone u t → memSame s t := fun h => memSame_of_mem (h.mem.trans hmem)
  refine ⟨fun c n hb hk hs hroot hp hc0 hc hlc hlt hn hln hsrc hdst => ?_, fun hb hown hk hkid => ?_, fun hb hk hres h0 hp => ?_, fun hk ha => ?_⟩
  · subst hc
    have hsu := openDram_touched htouch hsrc
    have hdu := openDram_touched htouch hdst
    have hgo : onData slot.val g x l u = bcastData u g x slot l := by rw [onData, hb]
    obtain ⟨k1, k2, k3, k4⟩ := chunkStored_shows (g := g) (slot := slot.val) (n := n) hdu
    obtain ⟨m1, m2⟩ := bcastCheck_counted hgu ho hxu hr k4 hc0 hb hroot (readBytes u (slotData g slot) n) rfl
    have hgo2 := bcastData_eq hs hp hlc hlt hn hln hsu hdu
    rw [← hgo2] at m1 m2
    have hrest2 : Resting (chunkStored u g slot (descDst x.desc + 65536 * tally 0 x.got) n) := hrest.calmer fun i => by
      rw [coreAt_congr k3]; exact .refl _
    have hlater2 : NoLater (chunkStored u g slot (descDst x.desc + 65536 * tally 0 x.got) n) := noLater_of_groups hlater fun k => by
      rw [groupAt_congr_coll (congrArg Coll.groups k4)]
    refine .of (t := bcastData u g x slot l) rfl ?_ ⟨?_, ?_, m2⟩
    · rw [ctrlData, hat, takeLine_mine (kind := kData) hgu hlu hk (by decide) hgen hxu hi, hgo, settled_after m1 hrest2 hlater2]
    · rw [readBytes_congr m1.mem, k1, readBytes_congr hmem]
    · exact fun b hb => (readByte_congr m1.mem b).trans ((k2 b hb).trans (readByte_congr hmem b))
  · obtain ⟨m1, m2, m3⟩ := onArrive_barrier hgu ho hxu hr hb hown hkid rfl
    refine .of (t := onArrive g x l u) rfl ?_ ⟨hsame m1, m2, m3⟩
    rw [ctrlArrive, hat, takeLine_mine (kind := kArrive) hgu hlu hk (by decide) hgen hxu hi, hdone m1]
  · obtain ⟨m1, m2, m3⟩ := onRelease_barrier hgu ho hr hb h0 hp rfl
    refine .of (t := onRelease g x l u) rfl ?_ ⟨hsame m1, m2, m3⟩
    have hnone : resetLine u idx.toNat slot kRelease = none := by
      have hru : u.coll.reset = none := by rw [hcoll, hres]
      rw [resetLine, hgu, hru]
    rw [ctrlRelease, hat, hnone]
    dsimp only
    rw [takeLine_mine (kind := kRelease) hgu hlu hk (by decide) hgen hxu hi, hdone m1]
  · obtain ⟨m1, m2, m3, m4⟩ := onAbort_mine hgu ho hxu hr hi ha rfl
    refine .of (t := onAbort u g l) rfl ?_ ⟨hsame m1, m2, m3, m4⟩
    rw [hat, takeAbort, hgu]
    dsimp only
    rw [← hlu, hk, if_neg (by decide), if_neg (by decide), if_neg (by simp [hgen]), pumpFabrics_resting (hrest.calmer m1.cores)]

end

end Sys2Proof.Machine
end


section
/-! PROOFS. The lines of a reset (O38, R325): a member abandons the tasks of the job, and the root releases when its children are
done. -/

namespace Sys2Proof.Machine

/-! ## What the job keeps while it stands at the start of its step -/

/-- From `s` to `t` items were finished, the job moved, and memory was written. -/
structure Rewound (s t : State) : Prop where
  frame : t = { s with regs := t.regs, mem := t.mem, hearths := t.hearths, memctl := t.memctl, intake := t.intake, job := t.job }
  slices : ∀ h, SliceOnly (hearthAt s h) (hearthAt t h)

section
variable {s t u : State}

theorem Rewound.refl (s : State) : Rewound s s := ⟨rfl, fun _ => .refl _⟩

theorem Rewound.trans (a : Rewound s t) (b : Rewound t u) : Rewound s u := ⟨by rw [b.frame, a.frame], fun h => (a.slices h).trans (b.slices h)⟩

theorem Rewound.foldl {α : Type} {f : State → α → State} (h : ∀ s x, Rewound s (f s x)) (l : List α) (s : State) : Rewound s (l.foldl f s) := by
  induction l generalizing s with
  | nil => exact .refl s
  | cons x l ih => exact (h s x).trans (ih _)

theorem Rewound.cores (h : Rewound s t) : t.cores = s.cores := by rw [h.frame]
theorem Rewound.coll (h : Rewound s t) : t.coll = s.coll := by rw [h.frame]

theorem Written.rewound (h : Written s t) : Rewound s t := ⟨by rw [h.frame], h.slices⟩

theorem rewound_of (h : t = { s with regs := t.regs, intake := t.intake, job := t.job }) : Rewound s t := by
  have hh : t.hearths = s.hearths := by rw [h]
  exact ⟨by rw [h], fun k => by rw [hearthAt_congr hh]; exact .refl _⟩

theorem rewound_setJournal (s : State) (j : JEntry) : Rewound s (setJournal s j) :=
  (rewound_of rfl).trans (written_memWrite ..).rewound

theorem rewound_finishItem (s : State) (jseq status detail step : Nat) : Rewound s (finishItem s jseq status detail step) := by
  unfold finishItem
  split
  · exact .refl s
  · split
    · exact .refl s
    · exact rewound_setJournal ..

theorem rewound_finishIf (s : State) (x : Option (Nat × Nat)) (status step : Nat) : Rewound s (finishIf s x status step) := by
  cases x with
  | none => exact .refl s
  | some p => exact rewound_finishItem ..

theorem rewound_modJob (s : State) (f : Job → Job) : Rewound s (modJob s f) := rewound_of rfl

theorem rewound_rewindJob (s : State) : Rewound s (rewindJob s) := by
  unfold rewindJob
  cases s.job with
  | none => exact rewound_modJob ..
  | some j => exact (rewound_finishIf ..).trans (rewound_modJob ..)

theorem rewound_clearGrads (s : State) (step : Nat) : Rewound s (clearGrads s step) :=
  Rewound.foldl (fun _ _ => ((written_memWrite ..).trans (written_memWrite ..)).rewound) _ _

theorem rewound_clearArrivals (s : State) : Rewound s (clearArrivals s) :=
  Rewound.foldl (fun _ _ => (written_memWrite ..).rewound) _ _

theorem rewound_settleHalt (s : State) : Rewound s (settleHalt s) := by
  unfold settleHalt
  split
  · have hj : ∀ (v : State) (j : Option Job), Rewound v { v with job := j } := fun _ _ => rewound_of rfl
    have hp : Rewound s (putF s SURV_STATUS SURV_STATUS_HALTED 1) := rewound_of (putF_frame ..)
    exact hp.trans (hj _ _)
  · exact .refl s

theorem rewound_settleEnd (s : State) : Rewound s (settleEnd s) := by
  unfold settleEnd
  split
  · split
    · exact rewound_finishIf ..
    · exact .refl s
  · exact .refl s

theorem rewound_finishItems (s : State) (l : List JEntry) :
    Rewound s (l.foldl (fun t j => finishItem t j.jseq 0 0 (jobStep t)) s) := Rewound.foldl (fun _ _ => rewound_finishItem ..) _ _

end

/-! ## Tasks that are abandoned -/

/-- A core with no task of the job. -/
def FreeCore (c : Core) : Prop := ∀ y, c.task = some y → y.entry = none

/-- A hearth that walks no schedule, with no task of the job in its ready queue. -/
def FreeHearth (h : Hearth) : Prop := h.walk = 0 ∧ h.out = [] ∧ ∀ y ∈ h.ready, y.entry = none

/-- The queues that other members wait on are at rest. -/
def RestingCore (c : Core) : Prop := c.fab = [] ∧ ∀ e ∈ c.tongs, e.started = true

/-- From `s` to `t` cores and hearths alone changed; what was free stays free, and the cores stay at rest. -/
structure Abandoned (s t : State) : Prop where
  frame : t = { s with cores := t.cores, hearths := t.hearths }
  cores : ∀ i, FreeCore (coreAt s i) → FreeCore (coreAt t i)
  hearths : ∀ h, FreeHearth (hearthAt s h) → FreeHearth (hearthAt t h)
  rest : ∀ i, RestingCore (coreAt s i) → RestingCore (coreAt t i)

section
variable {s t u : State}

theorem Abandoned.refl (s : State) : Abandoned s s := ⟨rfl, fun _ h => h, fun _ h => h, fun _ h => h⟩

theorem Abandoned.trans (a : Abandoned s t) (b : Abandoned t u) : Abandoned s u :=
  ⟨by rw [b.frame, a.frame], fun i h => b.cores i (a.cores i h), fun h k => b.hearths h (a.hearths h k), fun i h => b.rest i (a.rest i h)⟩

theorem Abandoned.foldl {α : Type} {f : State → α → State} (h : ∀ s x, Abandoned s (f s x)) (l : List α) (s : State) :
    Abandoned s (l.foldl f s) := by
  induction l generalizing s with
  | nil => exact .refl s
  | cons x l ih => exact (h s x).trans (ih _)

/-- What holds of a core before and after its change holds of every core. -/
theorem coreAt_modCore_all {P : Core → Prop} {f : Core → Core} (i j : Nat) (hf : P (coreAt s i) → P (f (coreAt s i))) (h : P (coreAt s j)) :
    P (coreAt (modCore s i f) j) := by
  by_cases hij : i = j
  · subst hij
    by_cases hi : i < s.cores.length
    · rw [coreAt_modCore hi]; exact hf h
    · rw [modCore, setCore, List.set_eq_of_length_le (Nat.le_of_not_lt hi)]; exact h
  · rw [coreAt_modCore_ne hij]; exact h

theorem hearthAt_modHearth_all {P : Hearth → Prop} {f : Hearth → Hearth} (i j : Nat) (hf : P (hearthAt s i) → P (f (hearthAt s i)))
    (h : P (hearthAt s j)) : P (hearthAt (modHearth s i f) j) := by
  by_cases hij : j = i
  · subst hij
    by_cases hi : j < s.hearths.length
    · rw [hearthAt_modHearth hi]; exact hf h
    · rw [modHearth, setHearth, List.set_eq_of_length_le (Nat.le_of_not_lt hi)]; exact h
  · rw [hearthAt_modHearth_ne hij]; exact h

theorem abandoned_dropSlot (s : State) (x : Task) : Abandoned s (dropSlot s x) := by
  unfold dropSlot
  split
  · exact ⟨rfl, fun _ h => h, fun h hf => hearthAt_modHearth_all _ h (fun k => k) hf, fun _ h => h⟩
  · exact .refl s

theorem abandoned_modCore (s : State) (i : Nat) {f : Core → Core} (hf : FreeCore (coreAt s i) → FreeCore (f (coreAt s i)))
    (hr : RestingCore (coreAt s i) → RestingCore (f (coreAt s i))) : Abandoned s (modCore s i f) :=
  ⟨rfl, fun j h => coreAt_modCore_all i j hf h, fun _ h => h, fun j h => coreAt_modCore_all i j hr h⟩

theorem abandoned_clearTask (s : State) (i : Nat) : Abandoned s (clearTask s i) :=
  abandoned_modCore s i (fun _ y hy => absurd hy (by simp)) (fun h => h)

theorem freeCore_clearTask (s : State) (i : Nat) : FreeCore (coreAt (clearTask s i) i) := by
  by_cases hi : i < s.cores.length
  · rw [clearTask_eq, coreAt_modCore hi]
    exact fun y hy => absurd hy (by simp [taskGone])
  · rw [clearTask_eq, modCore, setCore, List.set_eq_of_length_le (Nat.le_of_not_lt hi)]
    have hc : coreAt s i = .reset := by simp [coreAt, List.getD_eq_getElem?_getD, hi]
    exact fun y hy => by rw [show coreAt _ i = Core.reset from hc] at hy; exact absurd hy (by simp [Core.reset])

theorem Calmer.restingCore {c d : Core} (h : Calmer c d) (hr : RestingCore c) : RestingCore d := ⟨h.fab hr.1, h.tongs hr.2⟩

theorem Calmer.freeCore {c d : Core} (h : Calmer c d) (hf : FreeCore c) : FreeCore d := fun y hy => hf y (h.task ▸ hy)

theorem failFabrics_empty {i : Nat} (h : (coreAt s i).fab = []) (k : CtxId) : failFabrics s i k = s := by
  rw [failFabrics, h]
  rfl

/-- The core with both parts of its task abandoned. -/
def partsAborted (sp : Bool) (c : Core) : Core :=
  if sp then abortCore sp (abortCore sp c 0 faultFabric false) 1 faultFabric false else abortCore sp c 0 faultFabric false

theorem calmer_partsAborted (sp : Bool) (c : Core) : Calmer c (partsAborted sp c) := by
  unfold partsAborted
  split
  · exact (calmer_abortCore ..).trans (calmer_abortCore ..)
  · exact calmer_abortCore ..

theorem abandonCore_task {i : Nat} {x : Task} (hf : (coreAt s i).fab = []) (hx : (coreAt s i).task = some x) (hj : jobTask x = true) :
    abandonCore s i = clearTask (dropSlot (modCore s i (partsAborted (isSplit s i))) x) i := by
  rw [abandonCore, hx]
  dsimp only
  rw [if_neg (by simp [hj]), failFabrics_empty hf, failFabrics_empty hf]
  rfl

theorem abandonCore_shows (hr : Resting s) (i : Nat) : Abandoned s (abandonCore s i) ∧ FreeCore (coreAt (abandonCore s i) i) := by
  cases hx : (coreAt s i).task with
  | none =>
    have hgo : abandonCore s i = s := by rw [abandonCore, hx]
    rw [hgo]
    exact ⟨.refl s, fun y hy => absurd (hx.symm.trans hy) (by simp)⟩
  | some x =>
    by_cases hj : jobTask x = true
    · rw [abandonCore_task (hr i).1 hx hj]
      have hc := calmer_partsAborted (isSplit s i) (coreAt s i)
      exact ⟨((abandoned_modCore s i hc.freeCore hc.restingCore).trans (abandoned_dropSlot ..)).trans (abandoned_clearTask ..),
        freeCore_clearTask _ _⟩
    · have hgo : abandonCore s i = s := by
        rw [abandonCore, hx]
        exact if_pos (by simp [hj])
      rw [hgo]
      refine ⟨.refl s, fun y hy => ?_⟩
      rw [hx, Option.some.injEq] at hy
      subst hy
      simpa [jobTask] using hj

theorem Abandoned.resting (h : Abandoned s t) (hr : Resting s) : Resting t := fun i => h.rest i (hr i)

theorem abandonCores_shows (l : List Nat) (hr : Resting s) : Abandoned s (l.foldl abandonCore s) ∧
    ∀ i, i ∈ l → FreeCore (coreAt (l.foldl abandonCore s) i) := by
  induction l generalizing s with
  | nil => exact ⟨.refl s, fun i h => absurd h List.not_mem_nil⟩
  | cons j l ih =>
    obtain ⟨h1, h2⟩ := abandonCore_shows hr j
    obtain ⟨k1, k2⟩ := ih (h1.resting hr)
    refine ⟨h1.trans k1, fun i hi => ?_⟩
    rcases List.mem_cons.1 hi with rfl | hi
    · exact k1.cores _ h2
    · exact k2 i hi

theorem abandonReady_shows (s : State) (h : Nat) : Abandoned s (abandonReady s h) ∧ FreeHearth (hearthAt (abandonReady s h) h) := by
  have hdrop := Abandoned.foldl abandoned_dropSlot ((hearthAt s h).ready.filter jobTask) s
  unfold abandonReady
  dsimp only
  generalize ((hearthAt s h).ready.filter jobTask).foldl dropSlot s = v at hdrop ⊢
  have hfree : ∀ x : Hearth, FreeHearth { x with ready := x.ready.filter (!jobTask ·), walk := 0, out := [], stalled := false } := fun x =>
    ⟨rfl, rfl, fun y hy => by simpa [jobTask] using (List.mem_filter.1 hy).2⟩
  refine ⟨hdrop.trans ⟨rfl, fun _ k => k, fun j k => hearthAt_modHearth_all h j (fun _ => hfree _) k, fun _ k => k⟩, ?_⟩
  by_cases hl : h < v.hearths.length
  · rw [hearthAt_modHearth hl]
    exact hfree _
  · rw [modHearth, setHearth, List.set_eq_of_length_le (Nat.le_of_not_lt hl)]
    have hc : hearthAt v h = .reset := by simp [hearthAt, List.getD_eq_getElem?_getD, hl]
    rw [show hearthAt _ h = Hearth.reset from hc]
    exact ⟨rfl, rfl, fun y hy => absurd hy List.not_mem_nil⟩

theorem abandonReadies_shows (l : List Nat) (s : State) : Abandoned s (l.foldl abandonReady s) ∧
    ∀ h, h ∈ l → FreeHearth (hearthAt (l.foldl abandonReady s) h) := by
  induction l generalizing s with
  | nil => exact ⟨.refl s, fun i h => absurd h List.not_mem_nil⟩
  | cons j l ih =>
    obtain ⟨h1, h2⟩ := abandonReady_shows s j
    obtain ⟨k1, k2⟩ := ih (abandonReady s j)
    refine ⟨h1.trans k1, fun i hi => ?_⟩
    rcases List.mem_cons.1 hi with rfl | hi
    · exact k1.hearths _ h2
    · exact k2 i hi

/-- Nothing of the job runs or waits on the device. -/
structure JobFree (s : State) : Prop where
  cores : ∀ i : CoreId, FreeCore (coreAt s i)
  hearths : ∀ h : HearthId, FreeHearth (hearthAt s h)

theorem abandonTasks_shows (hr : Resting s) : Abandoned s (abandonTasks s) ∧ JobFree (abandonTasks s) := by
  obtain ⟨h1, h2⟩ := abandonCores_shows (List.range 128) hr
  obtain ⟨k1, k2⟩ := abandonReadies_shows (List.range 16) ((List.range 128).foldl abandonCore s)
  exact ⟨h1.trans k1, fun i => k1.cores _ (h2 i (List.mem_range.2 i.isLt)), fun h => k2 h (List.mem_range.2 h.isLt)⟩

theorem SliceOnly.freeHearth {g h : Hearth} (k : SliceOnly g h) (hf : FreeHearth g) : FreeHearth h := by
  rw [k.eq]
  exact hf

theorem JobFree.rewound (h : JobFree s) (hr : Rewound s t) : JobFree t :=
  ⟨fun i => by rw [coreAt_congr hr.cores]; exact h.cores i, fun k => (hr.slices k).freeHearth (h.hearths k)⟩

theorem JobFree.spoken (h : JobFree s) (hs : Spoken s t) : JobFree t :=
  ⟨fun i => (hs.cores i).freeCore (h.cores i), fun k => by rw [hearthAt_congr (by rw [hs.frame])]; exact h.hearths k⟩

theorem resetMember_shows (hr : Resting s) (hi : s.coll.insts = []) (n : Nat) :
    JobFree (resetMember s n) ∧ Resting (resetMember s n) ∧ (resetMember s n).coll = s.coll := by
  obtain ⟨h1, h2⟩ := abandonTasks_shows hr
  have hcoll : (abandonTasks s).coll = s.coll := by rw [h1.frame]
  have hrest := h1.resting hr
  have hgo : resetMember s n = if (abandonTasks s).job.isSome then
      clearArrivals (clearGrads (rewindJob (abandonTasks s)) (jobStep (abandonTasks s))) else abandonTasks s := by
    unfold resetMember
    dsimp only
    rw [hcoll, hi, List.filter_nil, List.foldl_nil]
  rw [hgo]
  split
  · have hrw := ((rewound_rewindJob (abandonTasks s)).trans (rewound_clearGrads _ (jobStep (abandonTasks s)))).trans (rewound_clearArrivals _)
    exact ⟨h2.rewound hrw, hrest.calmer fun i => by rw [coreAt_congr hrw.cores]; exact .refl _, hrw.coll.trans hcoll⟩
  · exact ⟨h2, hrest, hcoll⟩

/-! ## The reset over the tree -/

/-- The groups as `s` had them, apart from what they have sent; cores at most drain. -/
structure GroupsKept (s t : State) : Prop where
  cores : ∀ i, Calmer (coreAt s i) (coreAt t i)
  insts : t.coll.insts = s.coll.insts
  groups : ∀ k, (groupAt t k).map Group.settled = (groupAt s k).map Group.settled
  foreign : ∀ k, Foreign s k → Foreign t k

theorem Spoken.groupsKept (h : Spoken s t) : GroupsKept s t := ⟨h.cores, by rw [h.frame], h.groups, h.foreign⟩

theorem GroupsKept.trans (a : GroupsKept s t) (b : GroupsKept t u) : GroupsKept s u :=
  ⟨fun i => (a.cores i).trans (b.cores i), b.insts.trans a.insts, fun k => (b.groups k).trans (a.groups k),
    fun k h => b.foreign k (a.foreign k h)⟩

theorem groupsKept_of_coll (hc : t.cores = s.cores) (hcoll : t.coll = s.coll) : GroupsKept s t := by
  have hg : ∀ k, groupAt t k = groupAt s k := groupAt_congr_coll (by rw [hcoll])
  exact ⟨fun i => by rw [coreAt_congr hc]; exact .refl _, by rw [hcoll], fun k => by rw [hg], fun k h x hx => h x (by rw [← hg]; exact hx)⟩

theorem GroupsKept.has {g : Group} {k : Nat} (h : GroupsKept s t) (hg : groupAt s k = some g) : Has t g := by
  have hk := h.groups k
  rw [hg, Option.map_some, Option.map_eq_some_iff] at hk
  obtain ⟨x, h1, h2⟩ := hk
  exact ⟨x, by rw [groupAt_index hg]; exact h1, h2⟩

/-- Credit that this member gives to itself is written in its own memory. -/
theorem carry_own (s : State) (g : Group) (a : Nat) (bs : List Byte) (k : Nat) :
    carry s g g.rank a bs (.coll k) = (memWrite s a bs).1 := if_pos rfl

theorem groupsKept_returnCredit (s : State) (g : Group) (rel sender : Nat) : GroupsKept s (returnCredit s g rel sender) := by
  by_cases h : sender = g.rank
  · subst h
    cases hg : groupAt s g.index with
    | none => rw [returnCredit, hg]; exact (Spoken.refl s).groupsKept
    | some x =>
      have hset := (spoken_setGroupEntry (h := { x with taken := assocSet (relKey rel g.rank) (tally (relKey rel g.rank) x.taken + 1) x.taken })
        ((congrArg (groupAt s) (groupAt_index hg)).trans hg) rfl fun p hp => .inl hp).groupsKept
      rw [returnCredit_eq hg]
      split
      · have hw := written_memWrite (setGroupEntry s { x with taken := assocSet (relKey rel g.rank) (tally (relKey rel g.rank) x.taken + 1) x.taken })
          (creditLine g rel) (leBytes 8 (tally (relKey rel g.rank) x.taken + 1) ++ List.replicate 120 0)
        rw [carry_own]
        exact hset.trans (groupsKept_of_coll (by rw [hw.frame]) (by rw [hw.frame]))
      · exact hset
  · exact (spoken_returnCredit h s rel).groupsKept

/-- What the start of a reset leaves at a member with children. -/
structure ResetBegun (s t : State) (g : Group) : Prop where
  reset : t.coll.reset = some ⟨g.index, [], true⟩
  free : JobFree t
  rest : Resting t

/-- The state in which a reset runs. -/
def resetOpened (s : State) (g : Group) : State := { s with coll := { s.coll with reset := some ⟨g.index, [], true⟩ } }

theorem startReset_shows {g : Group} (hr : Resting s) (hi : s.coll.insts = []) (hg : Has s g) (hf : Foreign s g.index)
    (hc : childrenIn g.size 0 g.rank ≠ []) : ResetBegun s (startReset s g) g := by
  have hgo : startReset s g = resetUp ((childrenIn g.size 0 g.rank).foldl (fun t c => sendSlot27 t g c resetInst kReset 0)
      (resetMember (resetOpened s g) g.index)) g := rfl
  obtain ⟨h1, h2, h3⟩ := resetMember_shows (s := resetOpened s g) hr hi g.index
  rw [hgo]
  generalize resetMember (resetOpened s g) g.index = v at h1 h2 h3
  have hgroup : ∀ k, groupAt v k = groupAt s k := groupAt_congr_coll (by rw [h3]; rfl)
  have hhas : Has v g := by
    obtain ⟨x, k1, k2⟩ := hg
    exact ⟨x, by rw [hgroup, k1], k2⟩
  have hsp := spoken_slot27s hhas (inst := resetInst) (kind := kReset) (status := 0) (childrenIn g.size 0 g.rank) (fun c h => child_ne h)
    fun x hx => hf x (by rw [← hgroup]; exact hx)
  generalize (childrenIn g.size 0 g.rank).foldl (fun t c => sendSlot27 t g c resetInst kReset 0) v = w at hsp
  have hreset : w.coll.reset = some ⟨g.index, [], true⟩ := by rw [hsp.reset, h3]; rfl
  have hup : resetUp w g = w := by
    have hany : (childrenIn g.size 0 g.rank).any (fun c => !([] : List Nat).contains c) = true := by
      obtain ⟨c, cs, hcs⟩ := List.exists_cons_of_ne_nil hc
      rw [hcs]
      rfl
    rw [resetUp, hreset]
    exact if_pos (by rw [hany, Bool.or_true])
  rw [hup]
  exact ⟨hreset, h1.spoken hsp, h2.calmer hsp.cores⟩

/-! ## The commands -/

section
variable {idx : BitVec 10} {slot : Fin 28} {g : Group} {l : CtrlLine}
variable (hg : groupAt u idx.toNat = some g) (ho : g.outq = []) (hl : l = readLine u g slot) (hgen : l.gen = g.gen)
  (hr : Resting u)
include hg ho hl hgen hr

/-- RESET makes a member start the reset of its children. -/
theorem takeReset_starts (hi : u.coll.insts = []) (hk : l.kind = 4) (hrun : resetRuns u = false)
    (hup : g.rank = 0 ∨ l.rank = treeParent g.rank) (hc : childrenIn g.size 0 g.rank ≠ []) (ht : t = takeReset u idx.toNat slot) :
    ResetBegun u t g := by
  have hcred := groupsKept_returnCredit u g 10 l.rank
  have hgo : t = startReset (returnCredit u g 10 l.rank) g := by
    rw [ht, takeReset, hg]
    dsimp only
    rw [← hl, hk, if_neg (by decide), if_neg (by decide), if_neg (by simp [hgen])]
    exact if_neg (by simp only [hrun, Bool.false_or, Bool.not_eq_true', Bool.or_eq_false_iff, decide_eq_false_iff_not]; tauto)
  rw [hgo]
  obtain ⟨k1, k2, k3⟩ := startReset_shows (s := returnCredit u g 10 l.rank) (g := g) (hr.calmer hcred.cores) (hcred.insts.trans hi)
    (hcred.has hg) (hcred.foreign _ (by rw [groupAt_index hg]; exact foreign_of_empty hg ho)) hc
  exact ⟨k1, k2, k3⟩

omit ho hr in
theorem resetLine_done {r : ResetRun} (hres : u.coll.reset = some r) (hri : r.group = idx.toNat) (hown : r.own = true) (hk : l.kind = 5)
    (hinst : l.inst = 0xFFFFFFFF) : resetLine u idx.toNat slot kDone = some (g, l) := by
  rw [resetLine, hg, hres]
  dsimp only
  rw [← hl]
  exact if_pos (by simp [hri, hown, hk, hgen, hinst, kDone, resetInst])

end

/-- A reset that one more child has finished. -/
def kidDone (r : ResetRun) (c : Nat) : ResetRun := { r with kids := r.kids ++ [c] }

/-- The state that has noted it. -/
def kidNoted (s : State) (r : ResetRun) (c : Nat) : State := { s with coll := { s.coll with reset := some (kidDone r c) } }

theorem resetDone_eq {g : Group} {l : CtrlLine} {r : ResetRun} (hres : u.coll.reset = some r)
    (hc : (childrenIn g.size 0 g.rank).contains l.rank = true) (hk : r.kids.contains l.rank = false) (h : Spoken u (returnCredit u g 1 l.rank)) :
    resetDone u g l = resetUp (kidNoted (returnCredit u g 1 l.rank) r l.rank) g := by
  have hr : (returnCredit u g 1 l.rank).coll.reset = some r := h.reset.trans hres
  rw [resetDone]
  dsimp only
  rw [hr]
  exact if_neg (by rw [hc, hk]; decide)

/-- The hearths hold from now on. -/
def resetOver (s : State) : State :=
  { s with coll := { s.coll with reset := none }, hearths := s.hearths.map fun h => { h with heldSince := some s.now } }

theorem resetReleased_shows {g : Group} (hg : Has s g) (hf : Foreign s g.index) (hl : s.hearths.length = 16) (hr : Resting s)
    (ht : t = resetReleased s g) : t.coll.reset = none ∧ (∀ h : HearthId, (hearthAt t h).heldSince = some s.time.ns) ∧ Resting t := by
  have hsp := spoken_queueDown hg (fun c h => child_ne h) hf resetInst kRelease 0 [] 0
  have hgo : t = settleEnd (settleHalt ((resetItems (resetOver (queueDown s g 0 resetInst kRelease 0 [] 0)) g.index).foldl
      (fun t j => finishItem t j.jseq 0 0 (jobStep t)) (resetOver (queueDown s g 0 resetInst kRelease 0 [] 0)))) := ht
  generalize queueDown s g 0 resetInst kRelease 0 [] 0 = v at hsp hgo
  have hrw : Rewound (resetOver v) t := by
    rw [hgo]
    exact ((rewound_finishItems ..).trans (rewound_settleHalt _)).trans (rewound_settleEnd _)
  refine ⟨by rw [hrw.coll]; rfl, fun h => ?_, ?_⟩
  · have hv : v.hearths = s.hearths ∧ v.time = s.time := by rw [hsp.frame]; exact ⟨rfl, rfl⟩
    have hheld : (hearthAt (resetOver v) h).heldSince = some s.time.ns := by
      have hh : h.val < v.hearths.length := by rw [hv.1, hl]; exact h.isLt
      simp only [hearthAt, resetOver, State.now, List.getD_eq_getElem?_getD, List.getElem?_map, List.getElem?_eq_getElem hh, Option.map_some,
        Option.getD_some, hv.2]
    rw [(hrw.slices h).eq]
    exact hheld
  · have hrest : Resting (resetOver v) := hr.calmer hsp.cores
    exact hrest.calmer fun i => by rw [coreAt_congr hrw.cores]; exact .refl _

/-- DONE of a child while others are awaited. -/
theorem resetUp_waits {g : Group} {r : ResetRun} {c : Nat}
    (hany : (childrenIn g.size 0 g.rank).any (fun d => !(r.kids ++ [c]).contains d) = true) : resetUp (kidNoted s r c) g = kidNoted s r c := by
  have hr : (kidNoted s r c).coll.reset = some (kidDone r c) := rfl
  rw [resetUp, hr]
  exact if_pos (by rw [kidDone, hany, Bool.or_true])

/-- DONE of the last child lets the root release. -/
theorem resetUp_releases {g : Group} {r : ResetRun} {c : Nat} (hown : r.own = true)
    (hany : (childrenIn g.size 0 g.rank).any (fun d => !(r.kids ++ [c]).contains d) = false) (h0 : g.rank = 0) :
    resetUp (kidNoted s r c) g = resetReleased (kidNoted s r c) g := by
  have hr : (kidNoted s r c).coll.reset = some (kidDone r c) := rfl
  rw [resetUp, hr]
  dsimp only
  rw [kidDone, hown, hany, if_neg (by decide), if_pos h0]

/-- What the root or a member leaves when a child's DONE is in. -/
theorem resetDone_shows {g : Group} {l : CtrlLine} {r : ResetRun} (hg : Has u g) (hf : Foreign u g.index) (hl : u.hearths.length = 16)
    (hr : Resting u) (hres : u.coll.reset = some r) (hown : r.own = true) (hkid : (childrenIn g.size 0 g.rank).contains l.rank = true)
    (hnew : r.kids.contains l.rank = false) (ht : t = resetDone u g l) : Resting t ∧
    ((childrenIn g.size 0 g.rank).any (fun d => !(r.kids ++ [l.rank]).contains d) = true →
      t.mem = u.mem ∧ t.coll.reset = some { r with kids := r.kids ++ [l.rank] }) ∧
    ((childrenIn g.size 0 g.rank).any (fun d => !(r.kids ++ [l.rank]).contains d) = false → g.rank = 0 →
      t.coll.reset = none ∧ ∀ h : HearthId, (hearthAt t h).heldSince = some u.time.ns) := by
  have hsp := spoken_returnCredit (child_ne (List.contains_iff_mem.1 hkid)) u 1
  rw [resetDone_eq hres hkid hnew hsp] at ht
  have hhas := hg.spoken hsp
  have hfor := hsp.foreign _ hf
  have hrest := hr.calmer hsp.cores
  have hmem := hsp.mem
  have hh : (returnCredit u g 1 l.rank).hearths = u.hearths := by rw [hsp.frame]
  have htm : (returnCredit u g 1 l.rank).time = u.time := by rw [hsp.frame]
  generalize returnCredit u g 1 l.rank = v at ht hhas hfor hrest hmem hh htm
  have hhasn : Has (kidNoted v r l.rank) g := hhas
  have hforn : Foreign (kidNoted v r l.rank) g.index := hfor
  have hrestn : Resting (kidNoted v r l.rank) := hrest
  have hln : (kidNoted v r l.rank).hearths.length = 16 := (congrArg List.length hh).trans hl
  have htn : (kidNoted v r l.rank).time = u.time := htm
  cases hany : (childrenIn g.size 0 g.rank).any (fun d => !(r.kids ++ [l.rank]).contains d) with
  | true =>
    rw [resetUp_waits hany] at ht
    subst ht
    exact ⟨hrestn, fun _ => ⟨hmem, rfl⟩, fun h => absurd h (by decide)⟩
  | false =>
    by_cases h0 : g.rank = 0
    · rw [resetUp_releases hown hany h0] at ht
      obtain ⟨k1, k2, k3⟩ := resetReleased_shows hhasn hforn hln hrestn ht
      exact ⟨k3, fun h => absurd h (by decide), fun _ _ => ⟨k1, fun h => by rw [k2 h, htn]⟩⟩
    · have hup : resetUp (kidNoted v r l.rank) g = queueUp (kidNoted v r l.rank) g 0 resetInst kDone 0 [] := by
        have hr' : (kidNoted v r l.rank).coll.reset = some (kidDone r l.rank) := rfl
        rw [resetUp, hr']
        dsimp only
        rw [kidDone, hown, hany, if_neg (by decide), if_neg h0]
      rw [hup] at ht
      have hq := spoken_queueUp hhasn (parent_ne h0) hforn resetInst kDone 0 []
      rw [← ht] at hq
      exact ⟨hrestn.calmer hq.cores, fun h => absurd h (by decide), fun _ h => absurd h h0⟩

end

/-- Settles O38: RESET at a member that runs no reset, and DONE of the children of the root. -/
theorem resetLines : Obligations.ResetLines := by
  intro idx slot s g l hz hq hopen hfab hcalm hg ho hl hgen
  have htouch := touched_touchReads s [(slotLine g slot, 32)]
  have hat := fun f => atLine_open (s := s) (slot := slot) hq hopen hg f
  have hmem : (touchReads s [(slotLine g slot, 32)]).mem = s.mem := by rw [htouch.frame]
  have hcoll : (touchReads s [(slotLine g slot, 32)]).coll = s.coll := by rw [htouch.frame]
  have hcores : (touchReads s [(slotLine g slot, 32)]).cores = s.cores := by rw [htouch.frame]
  have htime : (touchReads s [(slotLine g slot, 32)]).time = s.time := by rw [htouch.frame]
  have hinsts : s.coll.insts = [] := by
    simp only [fabCalm, Bool.and_eq_true, List.isEmpty_iff] at hfab
    exact hfab.1.1.1.2
  obtain ⟨hrest0, -⟩ := Bool.and_eq_true_iff.1 hcalm
  generalize touchReads s [(slotLine g slot, 32)] = u at htouch hat hmem hcoll hcores htime
  have hgu : groupAt u idx.toNat = some g := (groupAt_congr_coll (by rw [hcoll]) _).trans hg
  have hlu : l = readLine u g slot := hl.trans (readLine_congr hmem g slot).symm
  have hrest : Resting u := (resting_of_all hrest0).calmer fun i => by rw [coreAt_congr hcores]; exact .refl _
  refine ⟨fun hk hrun hup hc => ?_, fun r hres hri hown hk hinst hkid hnew => ?_⟩
  · have hrunu : resetRuns u = false := by rw [resetRuns, hcoll, ← resetRuns]; exact hrun
    obtain ⟨k1, k2, k3⟩ := takeReset_starts hgu ho hlu hgen hrest (by rw [hcoll, hinsts]) hk hrunu hup hc rfl
    exact .of (t := takeReset u idx.toNat slot) rfl ((hat _).trans (pumpFabrics_resting k3)) ⟨k1, fun i => k2.cores i, k2.hearths⟩
  · have hresu : u.coll.reset = some r := by rw [hcoll, hres]
    obtain ⟨k1, k2, k3⟩ := resetDone_shows (has_of hgu) (by rw [groupAt_index hgu]; exact foreign_of_empty hgu ho)
      (htouch.count.trans (sized_iff.1 hz).2.2.1) hrest hresu hown hkid hnew rfl
    have hgo : ctrlDone s idx.toNat slot = resetDone u g l := by
      rw [ctrlDone, hat, resetLine_done hgu hlu hgen hresu hri hown hk hinst]
      exact pumpFabrics_resting k1
    refine ⟨fun hany => ?_, fun hany h0 => ?_⟩
    · obtain ⟨m1, m2⟩ := k2 hany
      exact .of rfl hgo ⟨memSame_of_mem (m1.trans hmem), m2⟩
    · obtain ⟨m1, m2⟩ := k3 hany h0
      exact .of rfl hgo ⟨m1, fun h => by rw [m2 h, htime]⟩

end Sys2Proof.Machine
end


section
/-! PROOFS. Groups and streams (O37): the group table (R308), credit (R311), stalls (R328), and the capture and the stream of a
snapshot (R322 to R324). -/

namespace Sys2Proof.Machine

/-! ## Records that are posted -/

/-- From `s` to `t` a record was posted or is held. -/
structure Posted (s t : State) : Prop where
  frame : t = { s with regs := t.regs, mem := t.mem, intake := t.intake, conns := t.conns, ports := t.ports, egress := t.egress
                       surv := t.surv }
  regs : regsSameBut s t [WRK_STATUS]

section
variable {s t u : State}

theorem Posted.refl (s : State) : Posted s s := ⟨rfl, .refl s _⟩

theorem Posted.trans (a : Posted s t) (b : Posted t u) : Posted s u := ⟨by rw [b.frame, a.frame], a.regs.trans b.regs⟩

theorem posted_of (h : t = { s with mem := t.mem, intake := t.intake, conns := t.conns, ports := t.ports, egress := t.egress
                                    surv := t.surv }) : Posted s t := by
  have hr : t.regs = s.regs := by rw [h]
  exact ⟨by rw [h], regsSameBut_of_regs hr _⟩

theorem SendOnly.posted (h : SendOnly s t) : Posted s t := posted_of (by rw [SendOnly] at h; rw [h])

theorem posted_status (s : State) (f : Fld) (x : Nat) : Posted s (putF s WRK_STATUS f x) :=
  ⟨by obtain ⟨r, h⟩ := putF_regs_only s WRK_STATUS f x; rw [h], regsSameBut_putF _ _ _ _⟩

theorem posted_holdRecord (s : State) (ring : Nat) (ws : List Word64) : Posted s (holdRecord s ring ws) :=
  Posted.trans (t := { s with intake := { s.intake with heldRecs := s.intake.heldRecs ++ [(ring, ws)] } }) (posted_of rfl) (posted_status ..)

theorem posted_noteSlot (s : State) (ring : Nat) (ws : List Word64) (c : Nat) : Posted s (noteSlot s ring ws c) := by
  unfold noteSlot
  split <;> exact posted_of rfl

theorem posted_postNow (s : State) (r : Ring) (ws : List Word64) : Posted s (postNow s r ws).1 := by
  have hring : ∀ (v : State) (r : Ring) (a : Nat) (w : Word64), Posted v (writeWord (setRing v r) a w) := fun _ _ _ _ => posted_of rfl
  unfold postNow
  dsimp only
  split
  · exact ((sendOnly_roceSendOn ..).posted.trans (hring _ _ _ _)).trans (posted_noteSlot ..)
  · exact .refl s

theorem posted_postTo (s : State) (ring : Nat) (ws : List Word64) : Posted s (postTo s ring ws) := by
  unfold postTo
  split
  · exact .refl s
  · split
    · exact posted_holdRecord ..
    · dsimp only
      split
      · exact posted_holdRecord ..
      · split
        · exact posted_postNow ..
        · exact posted_holdRecord ..

theorem posted_postRecord (s : State) (ws : List Word64) : Posted s (postRecord s ws) := posted_postTo ..

theorem Posted.coll (h : Posted s t) : t.coll = s.coll := by rw [h.frame]
theorem Posted.cores (h : Posted s t) : t.cores = s.cores := by rw [h.frame]

theorem resting_congr (h : t.cores = s.cores) (hr : Resting s) : Resting t := hr.calmer fun i => by rw [coreAt_congr h]; exact .refl _

/-! ## The group table (R308) -/

section
variable {agent idx : Nat}

theorem grpActBy_refused (h : mayWrite s agent COL_GRP_CTL = false) : grpActBy s agent idx = s := if_neg (by simp [h])

theorem grpDeactBy_refused (h : mayWrite s agent COL_GRP_CTL = false) : grpDeactBy s agent idx = s := if_neg (by simp [h])

theorem groupAt_writeGroupIndex (s : State) (i k : Nat) : groupAt (writeGroupIndex s i) k = groupAt s k := groupAt_congr_coll (by
  rw [writeGroupIndex, putF_coll]) k

theorem instOf_writeGroupIndex (s : State) (i k : Nat) : instOf (writeGroupIndex s i) k = instOf s k := instOf_congr_coll (by
  rw [writeGroupIndex, putF_coll]) k

theorem index_writeGroupIndex (s : State) (i : BitVec 10) : getF (writeGroupIndex s i.toNat) COL_GRP_CTL COL_GRP_CTL_INDEX = i.toNat := by
  rw [writeGroupIndex, getF_putF (by decide) (by decide)]
  exact Nat.mod_eq_of_lt i.isLt

theorem groupAct_active (h : (groupAt s idx).isSome = true) : groupAct s idx = s := if_pos h

theorem groupAct_taken (h : groupAt s idx = none) (hr : groupReason s (readGroupEntry s idx) = 0) :
    groupAct s idx = setGroupEntry s (Group.ofEntry idx (readGroupEntry s idx)) := by
  rw [groupAct, h]
  exact if_pos hr

theorem groupAct_refused (h : groupAt s idx = none) (hr : groupReason s (readGroupEntry s idx) ≠ 0) :
    groupAct s idx = makeRecord s srcSmith 0x282 [w64 (idx + groupReason s (readGroupEntry s idx) * 2 ^ 8)] := by
  rw [groupAct, h]
  exact if_neg hr

/-- The table without a group. -/
def groupGone (s : State) (idx : Nat) : State := { s with coll := { s.coll with groups := s.coll.groups.filter (·.index != idx) } }

theorem groupDeact_idle (h : instOf s idx = none) : groupDeact s idx = groupGone s idx := by
  rw [groupDeact, h]
  cases groupAt s idx <;> rfl

theorem groupAt_groupGone (s : State) (idx : Nat) : groupAt (groupGone s idx) idx = none := by
  refine List.find?_eq_none.2 fun g hg => ?_
  have hi := (List.mem_filter.1 hg).2
  simpa using hi

theorem grpDeactBy_idle (hm : mayWrite s agent COL_GRP_CTL = true) (hr : Resting s) (hi : instOf s idx = none) :
    grpDeactBy s agent idx = groupGone (writeGroupIndex s idx) idx := by
  have hc : ∀ v : State, (groupGone v idx).cores = v.cores := fun _ => rfl
  have hrest : Resting (groupGone (writeGroupIndex s idx) idx) := resting_congr ((hc _).trans (putF_cores ..)) hr
  rw [grpDeactBy, if_pos hm, groupDeact_idle ((instOf_writeGroupIndex ..).trans hi), pumpFabrics_resting hrest]

end

/-! ## Credit (R311) and the stream (R324) -/

/-- From `s` to `t` a piece of the stream may have left. -/
def Streamed (s t : State) : Prop := t = { s with hearths := t.hearths, conns := t.conns, ports := t.ports, egress := t.egress
                                                  surv := t.surv, coll := { s.coll with stream := t.coll.stream } }

theorem streamed_pumpStream (s : State) : Streamed s (pumpStream s) := by
  unfold pumpStream
  split
  · rfl
  · next st _ =>
    split
    · rfl
    · next c _ =>
      have hread := touched_memRead s (st.area + st.sent) (min streamPiece (st.len - st.sent))
      have hcoll : ∀ v : State, Touched s v → Streamed s { v with coll := { v.coll with
          stream := some { st with sent := st.sent + min streamPiece (st.len - st.sent) } } } := fun v hv => by
        rw [Streamed, hv.frame]
      have h1 := hcoll _ hread
      dsimp only
      generalize ({ (memRead s (st.area + st.sent) (min streamPiece (st.len - st.sent))).1 with coll := { (memRead s (st.area + st.sent)
        (min streamPiece (st.len - st.sent))).1.coll with stream := some { st with sent := st.sent + min streamPiece (st.len - st.sent) } } } : State)
        = w at h1 ⊢
      have h2 := sendOnly_roceIssue w c (rdmaWrite .stream (st.remote + st.sent) (memRead s (st.area + st.sent) (min streamPiece (st.len - st.sent))).2.2)
      rw [Streamed, h2, h1]

/-- The group with a count of slots returned. -/
def credited (g : Group) (k n : Nat) : Group := { g with returned := assocSet k n g.returned }

theorem groupAt_set {idx : Nat} {c : Group} (h : c.index = idx) (s : State) : groupAt (setGroupEntry s c) idx = some c := by
  rw [← h]
  exact groupAt_setGroupEntry ..

theorem drainGroup_empty {idx : Nat} {c : Group} (hg : groupAt s idx = some c) (ho : c.outq = []) : drainGroup s idx = setGroupEntry s c := by
  have hsame : ({ c with outq := [] } : Group) = c := by rw [← ho]
  rw [drainGroup, hg]
  dsimp only
  rw [ho, drainLines, hg]
  exact congrArg (setGroupEntry s) hsame

theorem pollColl_empty (h : s.coll.insts = []) : pollColl s = pumpStream s := by
  rw [pollColl, h]
  rfl

/-- The group's account with the count taken. -/
def creditTaken (s : State) (g : Group) (k n : Nat) : State := setGroupEntry (setGroupEntry s (credited g k n)) (credited g k n)

theorem takeCredit_eq {idx rel r : Nat} {g : Group} (hq : quenched s = false) (hg : groupAt s idx = some g) (ho : g.outq = [])
    (hi : s.coll.insts = []) (hr : (creditPeers g rel (readWord s (creditLine g rel)).toNat).head? = some r) :
    takeCredit s idx rel = resumeLater (pumpStream (creditTaken s g (relKey rel r) (readWord s (creditLine g rel)).toNat)) := by
  have hset := groupAt_set (c := credited g (relKey rel r) (readWord s (creditLine g rel)).toNat) (groupAt_index hg : g.index = idx) s
  have hgo : takeCredit s idx rel = resumeLater (pollColl (drainGroup (setGroupEntry s (credited g (relKey rel r)
      (readWord s (creditLine g rel)).toNat)) idx)) := by
    rw [takeCredit, hg]
    dsimp only
    rw [if_neg (by simp [hq]), hr]
    rfl
  rw [hgo, drainGroup_empty hset ho, ← creditTaken, pollColl_empty (s := creditTaken s g (relKey rel r) (readWord s (creditLine g rel)).toNat) hi]

theorem takeCredit_shows {idx rel r : Nat} {g : Group} (hq : quenched s = false) (hg : groupAt s idx = some g) (ho : g.outq = [])
    (hi : s.coll.insts = []) (hr : (creditPeers g rel (readWord s (creditLine g rel)).toNat).head? = some r) (hrest : Resting s)
    (hl : NoLater s) (ht : t = pumpFabrics (takeCredit s idx rel)) :
    t.mem = s.mem ∧ (groupAt t idx).map (fun y => tally (relKey rel r) y.returned) = some (readWord s (creditLine g rel)).toNat := by
  rw [takeCredit_eq hq hg ho hi hr] at ht
  generalize (readWord s (creditLine g rel)).toNat = n at ht ⊢
  have hs := streamed_pumpStream (creditTaken s g (relKey rel r) n)
  have hgrp : groupAt (creditTaken s g (relKey rel r) n) idx = some (credited g (relKey rel r) n) :=
    groupAt_set (c := credited g (relKey rel r) n) (groupAt_index hg : g.index = idx) _
  have hlater : NoLater (creditTaken s g (relKey rel r) n) := noLater_of_groups hl fun k => by
    by_cases hk : k = idx
    · subst hk
      rw [hgrp, hg]
      rfl
    · have hne : k ≠ (credited g (relKey rel r) n).index := fun e => hk (e.trans (groupAt_index hg : g.index = idx))
      rw [creditTaken, groupAt_setGroupEntry_ne hne, groupAt_setGroupEntry_ne hne]
  have hrest' : Resting (creditTaken s g (relKey rel r) n) := hrest
  have hmem : (creditTaken s g (relKey rel r) n).mem = s.mem := rfl
  generalize creditTaken s g (relKey rel r) n = v at ht hs hgrp hlater hrest' hmem
  have hg' : ∀ k, groupAt (pumpStream v) k = groupAt v k := groupAt_congr_coll (by rw [hs])
  have hc' : (pumpStream v).cores = v.cores := by rw [hs]
  have hm' : (pumpStream v).mem = v.mem := by rw [hs]
  generalize pumpStream v = w at ht hg' hc' hm'
  rw [resumeLater_idle (noLater_of_groups hlater fun k => by rw [hg']), pumpFabrics_resting (resting_congr hc' hrest')] at ht
  subst ht
  refine ⟨hm'.trans hmem, ?_⟩
  rw [hg', hgrp]
  simp [credited, tally, assocGet_assocSet]

/-- The end of a stream that storage has. -/
theorem streamComplete_shows {st : Stream} (hst : s.coll.stream = some st) (hlen : st.len ≤ st.sent) (hleft : streamLeft s = false)
    (hrest : Resting s) (ht : t = streamComplete s) : t.coll = { s.coll with stream := none } ∧ t.cores = s.cores ∧
    flag t COL_STATUS COL_STATUS_STREAMING = false := by
  have hp := posted_postRecord (putF { s with coll := { s.coll with stream := none } } COL_STATUS COL_STATUS_STREAMING 0)
    [headWord (putF { s with coll := { s.coll with stream := none } } COL_STATUS COL_STATUS_STREAMING 0) 0x0407 0, st.ident, w64 st.step, w64 st.len]
  have hgo : t = pumpFabrics (postRecord (putF { s with coll := { s.coll with stream := none } } COL_STATUS COL_STATUS_STREAMING 0)
      [headWord (putF { s with coll := { s.coll with stream := none } } COL_STATUS COL_STATUS_STREAMING 0) 0x0407 0, st.ident, w64 st.step, w64 st.len]) := by
    rw [ht, streamComplete, hst]
    exact if_neg (by simp [hleft, hlen])
  have hflag := flag_putF_zero (f := COL_STATUS_STREAMING) (by decide) (by decide) { s with coll := { s.coll with stream := none } } COL_STATUS
  have hcores : (putF { s with coll := { s.coll with stream := none } } COL_STATUS COL_STATUS_STREAMING 0).cores = s.cores := putF_cores ..
  have hcoll : (putF { s with coll := { s.coll with stream := none } } COL_STATUS COL_STATUS_STREAMING 0).coll = { s.coll with stream := none } :=
    putF_coll ..
  generalize putF { s with coll := { s.coll with stream := none } } COL_STATUS COL_STATUS_STREAMING 0 = v at hp hgo hflag hcores hcoll
  generalize postRecord v [headWord v 0x0407 0, st.ident, w64 st.step, w64 st.len] = w at hp hgo
  rw [pumpFabrics_resting (resting_congr (hp.cores.trans hcores) hrest)] at hgo
  subst hgo
  exact ⟨hp.coll.trans hcoll, hp.cores.trans hcores, (hp.regs.flag (by decide) _).trans hflag⟩

/-! ## The capture (R323) -/

/-- The run of a snapshot whose capture has ended. -/
def captured (s : State) (x : Inst) : State :=
  setInst { s with coll := { s.coll with capturing := false } } { x with own := true, since := s.now }

theorem captureDone_shows {idx : Nat} {g : Group} {x : Inst} (hg : groupAt s idx = some g) (hx : instOf s idx = some x) (ho : x.op = .snapshot)
    (hp : x.phase = 1) (hown : x.own = false) (hc : s.coll.capturing = true) (hq : quenched s = false) (hr : Resting s)
    (hk : awaitedKids g x ≠ []) (hn : s.intake.rings = []) : captureDone s idx = noteFull (captured s x) := by
  have hup : snapUp (captured s x) g { x with own := true, since := s.now } = captured s x := by
    have hk' : awaitedKids g { x with own := true, since := s.now } ≠ [] := hk
    rw [snapUp, if_pos (by simp [hk'])]
  have hgo : captureComplete s idx = captured s x := by
    rw [captureComplete, hg, hx]
    exact (if_pos (by simp [ho, hp, hown, hc, hq])).trans hup
  have hrest : Resting (captured s x) := hr
  have hrings : (captured s x).intake.rings = [] := hn
  rw [captureDone, hgo, pumpFabrics_resting hrest, pumpIntake, hrings]
  rfl

/-! ## Stalls (R328) -/

/-- The state that notes a stall, before its record is posted. -/
def stallNoted (s : State) (idx : Nat) (g : Group) (x : Inst) : State :=
  makeRecord (satF (setInst s { x with stalled := true }) COL_CNT3 COL_CNT3_STALLS 1) (srcEngine 1) 0x281
    [w64 (idx + (awaitedRanks g x).headD 0 * 2 ^ 16 + (awaitedRanks g x).length * 2 ^ 32), w64 x.num]

theorem collStall_due {idx : Nat} {g : Group} {x : Inst} (hg : groupAt s idx = some g) (hx : instOf s idx = some x) (hs : x.stalled = false)
    (hq : quenched s = false) (hl : getF s COL_CTL COL_CTL_STALL_MS ≠ 0)
    (hd : getF s COL_CTL COL_CTL_STALL_MS * 1000000 ≤ s.time.ns - x.since) : ∃ ws, collStall s idx = postRecord (stallNoted s idx g x) ws := by
  refine ⟨[headWord (stallNoted s idx g x) 0x0406 0, w64 (idx * 2 ^ 48 + x.num), w64 ((awaitedRanks g x).headD 0), w64 (awaitedRanks g x).length], ?_⟩
  rw [collStall, hg, hx]
  have hlate : decide (s.now - x.since < getF s COL_CTL COL_CTL_STALL_MS * 1000000) = false := decide_eq_false (not_lt.2 hd)
  exact if_neg (by rw [hlate]; simp [hl, hs, hq])

theorem collStall_shows {idx : Nat} {g : Group} {x : Inst} (hg : groupAt s idx = some g) (hx : instOf s idx = some x) (hs : x.stalled = false)
    (hq : quenched s = false) (hl : getF s COL_CTL COL_CTL_STALL_MS ≠ 0)
    (hd : getF s COL_CTL COL_CTL_STALL_MS * 1000000 ≤ s.time.ns - x.since) (ht : t = collStall s idx) :
    (instOf t idx).map (·.stalled) = some true ∧
    getF t COL_CNT3 COL_CNT3_STALLS = min COL_CNT3_STALLS.cap (getF s COL_CNT3 COL_CNT3_STALLS + 1) := by
  obtain ⟨ws, hgo⟩ := collStall_due hg hx hs hq hl hd
  have hp := posted_postRecord (stallNoted s idx g x) ws
  rw [← hgo, ← ht] at hp
  have hinst : instOf (setInst s { x with stalled := true }) idx = some { x with stalled := true } := by
    rw [← instOf_group hx]
    exact instOf_setInst s { x with stalled := true }
  have hregs : (setInst s { x with stalled := true }).regs = s.regs := rfl
  have hcoll : (stallNoted s idx g x).coll = (setInst s { x with stalled := true }).coll := by
    rw [stallNoted, makeRecord_coll, satF_coll]
  refine ⟨?_, ?_⟩
  · rw [instOf_congr_coll (congrArg Coll.insts (hp.coll.trans hcoll)), hinst]
    rfl
  · rw [hp.regs.getF (by decide), stallNoted, getF_congr (makeRecord_regs ..), getF_satF (by decide) (by decide), getF_congr hregs]
    rfl

theorem collStall_quiet {idx : Nat} (h : quenched s = true ∨ getF s COL_CTL COL_CTL_STALL_MS = 0 ∨ instOf s idx = none) : collStall s idx = s := by
  unfold collStall
  split
  · next g x hg hx =>
    refine if_pos ?_
    rcases h with h | h | h
    · simp [h]
    · simp [h]
    · rw [h] at hx; cases hx
  · rfl

end

/-! ## The obligation -/

/-- Settles O37: the table, credit, stalls, the capture and the stream, each where its engine is at rest. -/
theorem groupsAndStreams : Obligations.GroupsAndStreams := by
  intro s hz
  refine ⟨fun agent idx w e hw he => ⟨?_, ?_⟩, fun idx rel => ?_, fun idx => ?_, fun idx => ?_, ?_⟩
  · refine .of (t := grpActBy s agent.toNat idx.toNat) rfl rfl ⟨fun hm => grpActBy_refused hm, fun hm => ?_⟩
    have hgo : grpActBy s agent.toNat idx.toNat = groupAct w idx.toNat := by rw [hw]; exact if_pos hm
    have hgw : groupAt w idx.toNat = groupAt s idx.toNat := by rw [hw, groupAt_writeGroupIndex]
    have hindex : getF w COL_GRP_CTL COL_GRP_CTL_INDEX = idx.toNat := by rw [hw]; exact index_writeGroupIndex s idx
    rw [hgo, ← hgw]
    clear hw hgo
    cases hg : groupAt w idx.toNat with
    | some g =>
      rw [groupAct_active (by rw [hg]; rfl)]
      exact ⟨hindex, fun _ => rfl, fun h => by simp at h, fun h => by simp at h⟩
    | none =>
      by_cases hr : groupReason w e = 0
      · rw [groupAct_taken hg (by rw [← he]; exact hr), ← he]
        refine ⟨(getF_congr (t := setGroupEntry w (Group.ofEntry idx.toNat e)) rfl ..).trans hindex, fun h => by simp at h,
          fun _ _ => ⟨rfl, groupAt_setGroupEntry w (Group.ofEntry idx.toNat e)⟩, fun _ h => absurd hr h⟩
      · rw [groupAct_refused hg (by rw [← he]; exact hr), ← he]
        exact ⟨(getF_congr (makeRecord_regs ..) ..).trans hindex, fun h => by simp at h, fun _ h => absurd h hr, fun _ _ => rfl⟩
  · refine .of (t := grpDeactBy s agent.toNat idx.toNat) rfl rfl ⟨fun hm => grpDeactBy_refused hm, fun hm hcalm hi => ?_⟩
    obtain ⟨hrest, -⟩ := Bool.and_eq_true_iff.1 hcalm
    rw [grpDeactBy_idle hm (resting_of_all hrest) hi, hw]
    exact ⟨groupAt_groupGone .., rfl⟩
  · refine .of (t := pumpFabrics (takeCredit s idx.toNat rel.val)) rfl rfl fun g r hq hcalm hg ho hi hr => ?_
    obtain ⟨hrest, hl⟩ := Bool.and_eq_true_iff.1 hcalm
    obtain ⟨k1, k2⟩ := takeCredit_shows hq hg ho hi hr (resting_of_all hrest) (noLater_of_all hl) rfl
    exact ⟨memSame_of_mem k1, k2⟩
  · exact .of (t := collStall s idx.toNat) rfl rfl ⟨fun h => collStall_quiet h, fun g x hg hx hs hq hl hd => collStall_shows hg hx hs hq hl hd rfl⟩
  · refine .of (t := captureDone s idx.toNat) rfl rfl fun g x hg hx ho hp hown hc hq hcalm hk hn => ?_
    obtain ⟨hrest, -⟩ := Bool.and_eq_true_iff.1 hcalm
    rw [captureDone_shows hg hx ho hp hown hc hq (resting_of_all hrest) hk hn]
    have hinst : instOf (captured s x) idx.toNat = some { x with own := true, since := s.now } := by
      rw [← instOf_group hx]
      exact instOf_setInst _ { x with own := true, since := s.now }
    have hcap : captured s x = { s with coll := (captured s x).coll } := rfl
    have hcapt : (captured s x).coll.capturing = false := rfl
    generalize captured s x = v at hinst hcap hcapt
    have hcoll : (noteFull v).coll = v.coll := putF_coll ..
    have hregs : regsSameBut s (noteFull v) [WRK_STATUS] :=
      (regsSameBut_of_regs (s := s) (t := v) (by rw [hcap]) [WRK_STATUS]).trans (regsSameBut_putF _ _ _ _)
    refine ⟨?_, hregs, by rw [hcoll, hcapt], by rw [instOf_congr_coll (congrArg Coll.insts hcoll), hinst]; rfl⟩
    have hf : ∀ v : State, noteFull v = { v with regs := (noteFull v).regs } := fun _ => rfl
    rw [hf, hcap]
  · refine .of (t := streamComplete s) rfl rfl ⟨fun h => by rw [streamComplete, h], fun st hst hlen hleft hcalm => ?_⟩
    obtain ⟨hrest, -⟩ := Bool.and_eq_true_iff.1 hcalm
    exact streamComplete_shows hst hlen hleft (resting_of_all hrest) rfl

end Sys2Proof.Machine
end

section
/-! PROOFS. Rings and journal entries as the steps of the intake find and leave them (R331 to R343). -/

namespace Sys2Proof.Machine

section
variable {s t : State} {k q : Nat} {r : Ring}

/-! ## Rings -/

theorem ringOf_index (h : ringOf s k = some r) : r.index = k :=
  of_decide_eq_true (List.find?_some (p := fun x : Ring => decide (x.index = k)) h)

theorem ringOf_setRing_some (h : ringOf s k = some r) {r' : Ring} (hi : r'.index = k) : ringOf (setRing s r') k = some r' := by
  subst hi
  exact ringOf_setRing (by rw [h]; rfl)

theorem ringOf_noteSlot (s : State) (n : Nat) (ws : List Word64) (c : Nat) : ringOf (noteSlot s n ws c) k = ringOf s k := by
  unfold noteSlot
  split <;> rfl

/-- A posted record moves the completion sequence of its ring at most. -/
theorem ringOf_postTo (h : ringOf s k = some r) (ws : List Word64) : ∃ c, ringOf (postTo s k ws) k = some { r with cseq := c } := by
  have hheld : ∃ c, ringOf (holdRecord s k ws) k = some { r with cseq := c } := ⟨r.cseq, by
    have hi : (holdRecord s k ws).intake.rings = s.intake.rings := by rw [holdRecord, putF_intake]
    rw [ringOf, hi]
    exact h⟩
  unfold postTo
  split
  · exact ⟨r.cseq, h⟩
  · rw [h]
    dsimp only
    split
    · exact hheld
    · split
      · refine ⟨r.cseq + 1, ?_⟩
        have hsend := sendOnly_roceSendOn s r.conn (rdmaWrite .line (r.cbase + 128 * (r.cseq % r.cslots)) (slotBytes ws r.cseq r.index))
        have hr : ringOf (roceSendOn s r.conn (rdmaWrite .line (r.cbase + 128 * (r.cseq % r.cslots)) (slotBytes ws r.cseq r.index))).1 k
            = some r := by
          rw [SendOnly] at hsend
          rw [ringOf_congr (s := s) (by rw [hsend]), h]
        unfold postNow
        dsimp only
        split
        · rw [ringOf_noteSlot]
          exact ringOf_setRing_some hr (r' := { r with cseq := r.cseq + 1 }) (ringOf_index (r := r) h)
        · rename_i hp hn
          rw [postNow] at hp
          simp [hn] at hp
      · exact hheld

/-! ## Journal entries -/

theorem entryAt_jseq {j : JEntry} (h : entryAt s q = some j) : j.jseq = q :=
  of_decide_eq_true (List.find?_some (p := fun x : JEntry => decide (x.jseq = q)) h)

/-- A change that keeps the number of every entry is made where the entry stands. -/
theorem find_map_jseq {f : JEntry → JEntry} (hf : ∀ j, (f j).jseq = j.jseq) (l : List JEntry) :
    (l.map f).find? (·.jseq = q) = (l.find? (·.jseq = q)).map f := by
  rw [List.find?_map]
  congr 2
  funext j
  simp [hf]

theorem storeEntry_intake (s : State) (j : JEntry) : (storeEntry s j).intake = s.intake := by
  rw [storeEntry, (written_memWrite ..).frame]

theorem journal_setJournal (s : State) (j : JEntry) :
    (setJournal s j).intake.journal = s.intake.journal.map fun x => if x.jseq = j.jseq then j else x := by
  rw [setJournal, storeEntry_intake]

theorem ringOf_setJournal (s : State) (j : JEntry) : ringOf (setJournal s j) k = ringOf s k := by
  have h : (setJournal s j).intake.rings = s.intake.rings := by rw [setJournal, storeEntry_intake]
  rw [ringOf, h, ringOf]

theorem entryAt_setJournal {i : JEntry} (h : entryAt s q = some i) {j : JEntry} (hj : j.jseq = q) :
    entryAt (setJournal s j) q = some j := by
  have hi := entryAt_jseq h
  rw [entryAt, journal_setJournal, find_map_jseq (by intro x; split <;> simp_all), ← entryAt, h, Option.map_some,
    if_pos (hi.trans hj.symm)]

/-- An entry that the journal holds is found under its number, or one of its number is. -/
theorem entryAt_of_mem {j : JEntry} (h : j ∈ s.intake.journal) : ∃ i, entryAt s j.jseq = some i :=
  Option.isSome_iff_exists.1 (List.find?_isSome.2 ⟨j, h, by simp⟩)

theorem entryAt_congr (h : t.intake = s.intake) : entryAt t q = entryAt s q := by rw [entryAt, h, entryAt]

/-! ## What holds the engine -/

theorem intakeHeld_congr (hr : t.regs = s.regs) (ht : t.therm = s.therm) : intakeHeld t = intakeHeld s := by
  simp only [intakeHeld, partnerValid, fenced, quenched_congr ht, flag_congr hr]

theorem noteFull_therm (s : State) : (noteFull s).therm = s.therm := putF_therm ..

theorem noteFull_intake (s : State) : (noteFull s).intake = s.intake := putF_intake ..

theorem intakeHeld_noteFull (s : State) : intakeHeld (noteFull s) = intakeHeld s := by
  have hne : ∀ (a : Nat) (f : Fld), a ≠ WRK_STATUS → flag (noteFull s) a f = flag s a f := fun a f h => flag_putF_ne h ..
  have hap : flag (noteFull s) WRK_STATUS WRK_STATUS_PARTNER_DOWN = flag s WRK_STATUS WRK_STATUS_PARTNER_DOWN :=
    flag_putF_apart (by decide) (by decide) (by decide) (by decide) ..
  simp only [intakeHeld, partnerValid, fenced, quenched_congr (noteFull_therm s), hap,
    hne SURV_STATUS _ (by decide), hne WRK_CTL _ (by decide), hne WRK_PARTNER _ (by decide)]

theorem intakeHeld_written (h : Written s t) : intakeHeld t = intakeHeld s :=
  intakeHeld_congr (by rw [h.frame]) (by rw [h.frame])

theorem readSlots_held (h : intakeHeld s = true) (k n : Nat) : readSlots k n s = s := by
  cases n with
  | zero => rfl
  | succ n =>
    unfold readSlots
    split
    · rfl
    · exact if_pos (by simp [h])

theorem pumpRing_held (h : intakeHeld s = true) (k : Nat) : pumpRing s k = s := by
  unfold pumpRing
  split
  · exact readSlots_held h ..
  · rfl

theorem pumpIntake_held (h : intakeHeld s = true) : pumpIntake s = noteFull s := by
  have hf := (intakeHeld_noteFull s).trans h
  unfold pumpIntake
  generalize noteFull s = t at hf
  generalize s.intake.rings.map (·.index) = l
  induction l with
  | nil => rfl
  | cons k l ih => rw [List.foldl_cons, pumpRing_held hf, ih]

/-- A ring whose next slot PSEQ does not cover is not read. -/
theorem readSlots_covered (h : ringOf s k = some r) (hb : seqBefore r.next r.pseq = false) (n : Nat) : readSlots k n s = s := by
  cases n with
  | zero => rfl
  | succ n =>
    unfold readSlots
    rw [h]
    exact if_pos (by simp [hb])

theorem seqBefore_self {a : Nat} (h : a < 2 ^ 64) : seqBefore a a = false := by
  have hz : (a + 2 ^ 64 - a % 2 ^ 64) % 2 ^ 64 = 0 := by
    rw [Nat.mod_eq_of_lt h, Nat.add_sub_cancel_left, Nat.mod_self]
  rw [seqBefore, hz]
  decide

end

end Sys2Proof.Machine
end

section
/-! PROOFS. The rings (O39, R331 to R336, R339 to R343). -/

namespace Sys2Proof.Machine

section
variable {s t : State} {k : Nat} {r : Ring}

/-! ## Doorbells (R332, R333) -/

/-- The doorbell word reads as written and nothing else of memory changes. -/
structure BellWritten (s t : State) (a : Nat) (v : Word64) : Prop where
  written : Written s t
  outside : memSameOutside s t a 8
  reads : readWord t a = v

theorem bellWritten {a : Nat} (h : openDram s a 8) (v : Word64) : BellWritten s (memWrite s a (leBytes 8 v.toNat)).1 a v := by
  have hlen : (leBytes 8 v.toNat).length = 8 := leBytes_length ..
  refine ⟨written_memWrite .., ?_, ?_⟩
  · have ho := memSameOutside_memWrite s a (leBytes 8 v.toNat)
    rwa [hlen] at ho
  · have hr := (memWrite_openDram (bs := leBytes 8 v.toNat) (by rw [hlen]; exact h)).2
    have hw := readBytes_writeBytes s a (leBytes 8 v.toNat)
    rw [hlen] at hr hw
    refine Eq.trans ?_ (readWord_writeWord s a v)
    rw [readWord, readWord, writeWord, hr, hw]

/-- With no quench the engine takes the word that its home reports. -/
theorem ringBell_taken (hr : ringOf s k = some r) (hq : quenched s = false) {word : Bool} {a : Nat}
    (ha : r.doorbell + (if word then 8 else 0) = a) (ho : openDram s a 8) (v : Word64) (f : State → State) :
    ringBell s k word v f = f (memWrite s a (leBytes 8 v.toNat)).1 := by
  have hok := (memWrite_openDram (bs := leBytes 8 v.toNat) (by rw [leBytes_length]; exact ho)).1
  unfold ringBell
  rw [hr]
  dsimp only
  rw [ha, if_neg (by simp [hok]), if_neg (by simp [hq])]

/-- A write of PSEQ above ACC_SEQ has the ring read its slots. -/
theorem takePseq_above (hr : ringOf s k = some r) {v : Word64} (hp : seqBefore v.toNat r.pseq = false)
    (ha : seqBefore r.acc v.toNat = true) : takePseq s k v = pumpRing (setRing s (r.withPseq v.toNat s.now)) k := by
  unfold takePseq
  rw [hr]
  dsimp only
  rw [if_neg (by simp [hp]), reportAgain]
  exact congrArg (pumpRing · k) (if_pos ha)

theorem ringOf_withPseq (hr : ringOf s k = some r) (v now : Nat) :
    ringOf (setRing s (r.withPseq v now)) k = some (r.withPseq v now) :=
  ringOf_setRing_some hr (r' := r.withPseq v now) (ringOf_index (r := r) hr)

/-! ### A slot that is read -/

/-- A valid item reads the same where the bytes of its slot do and no line of it is poisoned anew. -/
theorem slotCase_item_of {n : Nat} {ws : List Word64} (hb : readBytes t (ringSlot r n) 384 = readBytes s (ringSlot r n) 384)
    (hp : t.memctl.poison ⊆ s.memctl.poison) (h : slotCase s r n = .item ws) : slotCase t r n = .item ws := by
  have hclean : ∀ l, poisoned s l = false → poisoned t l = false := by
    intro l hl
    simp only [poisoned, List.contains_eq_mem, decide_eq_false_iff_not] at hl ⊢
    exact fun hm => hl (hp hm)
  unfold slotCase at h ⊢
  rw [hb]
  dsimp only at h ⊢
  split at h
  next hc =>
    rw [if_pos]
    · exact h
    · simp only [Bool.and_eq_true, List.all_eq_true, Bool.not_eq_true'] at hc ⊢
      exact ⟨hc.1, hc.2.1, fun l hl => hclean l (hc.2.2 l hl)⟩
  next => split at h <;> cases h

/-- The slots of a ring lie clear of its doorbell line. -/
theorem ringSlot_apart (h : ringAddrBad r = false) (n : Nat) :
    ringSlot r n + 384 ≤ r.doorbell ∨ r.doorbell + 8 ≤ ringSlot r n := by
  have hlt : n % r.slots < r.slots := Nat.mod_lt _ (Nat.two_pow_pos _)
  simp only [ringAddrBad, Bool.or_eq_false_iff, Bool.and_eq_false_iff, decide_eq_false_iff_not] at h
  obtain ⟨-, h⟩ := h
  simp only [ringSlot]
  omega

/-- The entry that an item takes in the journal. -/
def JEntry.ofItem (s : State) (r : Ring) (ws : List Word64) : JEntry :=
  { jseq := s.intake.jseq, ring := r.index, st := .accepted, status := 0, seq := wfield ws 1 63 0, accTime := s.now
    doneStep := none, detail := 0, item := ws, mirrored := false, marked := false, markAcked := false, fin := false
    posted := false, cslot := none }

theorem sendMirror_intake (s : State) (j : JEntry) (o : Owner) : (sendMirror s j o).intake = s.intake := by
  unfold sendMirror
  split
  · rw [(sent_sendWrites ..).frame]
  · rfl

theorem journalItem_intake (s : State) (r : Ring) (ws : List Word64) : (journalItem s r ws).intake =
    (setRing { s with intake := { s.intake with jseq := s.intake.jseq + 1, journal := s.intake.journal ++ [.ofItem s r ws] } }
      { r with next := seqNext r.next, waitAt := none }).intake := by
  unfold journalItem
  dsimp only
  rw [noteFull_intake, sendMirror_intake, storeEntry_intake]
  rfl

/-- The slot of the last item that PSEQ covers is read, and the ring waits for more. -/
theorem pumpRing_item (hr : ringOf s k = some r) {ws : List Word64} (hs : r.stopped = false) (hn : r.pseq = seqNext r.next)
    (hb : seqBefore r.next r.pseq = true) (hh : intakeHeld s = false) (hrec : s.intake.heldRecs = [])
    (hf : journalFull s = false) (hc : s.coll.capturing = false) (hi : slotCase s r r.next = .item ws) :
    pumpRing s k = journalItem s r ws := by
  have hring : ringOf (journalItem s r ws) k = some { r with next := seqNext r.next, waitAt := none } := by
    rw [ringOf_congr (journalItem_intake ..)]
    exact ringOf_setRing_some (r := r) (by exact hr) (ringOf_index (r := r) hr)
  have hlt : r.pseq < 2 ^ 64 := by rw [hn]; exact Nat.mod_lt _ (Nat.two_pow_pos _)
  unfold pumpRing
  rw [hr]
  dsimp only
  unfold readSlots
  rw [hr]
  dsimp only
  rw [if_neg (by simp [hs, hb, hh, hrec]), if_neg (by simp [hf]), hi]
  dsimp only
  rw [if_neg (by simp [hc])]
  exact readSlots_covered hring (by dsimp only; rw [← hn]; exact seqBefore_self hlt) _

/-! ### PSEQ -/

/-- What a write of PSEQ above ACC_SEQ finds. -/
structure PseqDue (s : State) (k : Nat) (r : Ring) (v : Word64) : Prop where
  ring : ringOf s k = some r
  addr : ringAddrBad r = false
  bell : openDram s r.doorbell 8
  level : seqBefore v.toNat r.pseq = false
  above : seqBefore r.acc v.toNat = true

variable {v : Word64}

/-- The doorbell word is in memory and the ring has its PSEQ. -/
def pseqTaken (s : State) (r : Ring) (v : Word64) : State :=
  let t := (memWrite s r.doorbell (leBytes 8 v.toNat)).1
  setRing t (r.withPseq v.toNat t.now)

theorem doorbellPseq_due (h : PseqDue s k r v) (hq : quenched s = false) : doorbellPseq s k v = pumpRing (pseqTaken s r v) k := by
  have hring : ringOf (memWrite s r.doorbell (leBytes 8 v.toNat)).1 k = some r :=
    (ringOf_congr (by rw [(written_memWrite ..).frame]) k).trans h.ring
  rw [doorbellPseq, ringBell_taken h.ring hq (a := r.doorbell) rfl h.bell, takePseq_above hring h.level h.above]
  rfl

/-- What the write leaves before the ring reads its slots. -/
structure PseqTaken (s t : State) (k : Nat) (r : Ring) (v : Word64) : Prop where
  written : BellWritten s { t with intake := s.intake } r.doorbell v
  journal : t.intake.journal = s.intake.journal
  jseq : t.intake.jseq = s.intake.jseq
  recs : t.intake.heldRecs = s.intake.heldRecs
  ring : ringOf t k = some (r.withPseq v.toNat s.now)
  held : intakeHeld t = intakeHeld s

theorem pseqTaken_shows (h : PseqDue s k r v) : PseqTaken s (pseqTaken s r v) k r v := by
  have hb := bellWritten h.bell v
  unfold pseqTaken
  dsimp only
  generalize (memWrite s r.doorbell (leBytes 8 v.toNat)).1 = t at hb
  have hi : t.intake = s.intake := by rw [hb.written.frame]
  have ht : t.now = s.now := by rw [State.now, hb.written.frame, State.now]
  have hring : ringOf t k = some r := (ringOf_congr hi k).trans h.ring
  have hsame : { setRing t (r.withPseq v.toNat t.now) with intake := s.intake } = t := by rw [← hi]; rfl
  exact
    { written := by rw [hsame]; exact hb
      journal := by rw [← hi]; rfl
      jseq := by rw [← hi]; rfl
      recs := by rw [← hi]; rfl
      ring := by rw [← ht]; exact ringOf_withPseq hring ..
      held := (intakeHeld_congr (t := setRing t (r.withPseq v.toNat t.now)) (s := t) rfl rfl).trans (intakeHeld_written hb.written) }

theorem doorbellPseq_held (h : PseqDue s k r v) (hq : quenched s = false) (hh : intakeHeld s = true) :
    PseqTaken s (doorbellPseq s k v) k r v := by
  have ht := pseqTaken_shows h
  rwa [doorbellPseq_due h hq, pumpRing_held (ht.held.trans hh)]

theorem PseqTaken.item (ht : PseqTaken s t k r v) (h : PseqDue s k r v) {ws : List Word64} (hi : slotCase s r r.next = .item ws) :
    slotCase t (r.withPseq v.toNat s.now) r.next = .item ws := by
  have hb := ht.written.outside.readBytes (ringSlot_apart h.addr r.next)
  exact slotCase_item_of (r := r.withPseq v.toNat s.now) (s := s) (by exact hb) ht.written.written.healed hi

theorem doorbellPseq_item (h : PseqDue s k r v) (hq : quenched s = false) {ws : List Word64} (hh : intakeHeld s = false)
    (hc : s.coll.capturing = false) (hf : journalFull s = false) (hrec : s.intake.heldRecs = []) (hv : v.toNat = seqNext r.next)
    (hb : seqBefore r.next v.toNat = true) (hi : slotCase s r r.next = .item ws) :
    doorbellPseq s k v = journalItem (pseqTaken s r v) (r.withPseq v.toNat s.now) ws := by
  have ht := pseqTaken_shows h
  have hw := ht.written.written.frame
  have hfull : journalFull (pseqTaken s r v) = journalFull s := by
    have hr : (pseqTaken s r v).regs = s.regs := (congrArg State.regs hw :)
    have hj : jslots (pseqTaken s r v) = jslots s := by rw [jslots, getF_congr hr, jslots]
    simp only [journalFull, ht.journal, ht.jseq, hj]
  rw [doorbellPseq_due h hq]
  exact pumpRing_item ht.ring rfl hv hb (ht.held.trans hh) (ht.recs.trans hrec) (hfull.trans hf)
    ((congrArg (·.coll.capturing) hw :).trans hc) (ht.item h hi)

/-- The write covers the one item that its slot shows, and the item is journalled. -/
theorem doorbellPseq_journals (h : PseqDue s k r v) (hq : quenched s = false) {ws : List Word64} (hh : intakeHeld s = false)
    (hc : s.coll.capturing = false) (hf : journalFull s = false) (hrec : s.intake.heldRecs = []) (hv : v.toNat = seqNext r.next)
    (hb : seqBefore r.next v.toNat = true) (hi : slotCase s r r.next = .item ws) :
    (ringOf (doorbellPseq s k v) k).map (fun x => (x.pseq, x.next)) = some (v.toNat, v.toNat) ∧
      (doorbellPseq s k v).intake.journal.map (fun j => (j.jseq, j.ring, j.st, j.item)) =
        s.intake.journal.map (fun j => (j.jseq, j.ring, j.st, j.item)) ++ [(s.intake.jseq, k, .accepted, ws)] := by
  have ht := pseqTaken_shows h
  have hidx : (r.withPseq v.toNat s.now).index = k := ringOf_index (r := r) h.ring
  rw [doorbellPseq_item h hq hh hc hf hrec hv hb hi]
  generalize pseqTaken s r v = t at ht
  constructor
  · rw [ringOf_congr (journalItem_intake ..), ringOf_setRing_some (r := r.withPseq v.toNat s.now) (by exact ht.ring) (by exact hidx),
      Option.map_some]
    exact congrArg (fun n => some (v.toNat, n)) hv.symm
  · rw [journalItem_intake]
    change (t.intake.journal ++ [JEntry.ofItem t (r.withPseq v.toNat s.now) ws]).map _ = _
    rw [List.map_append, ht.journal, ← ht.jseq, ← hidx]
    rfl

/-! ### CCONS -/

/-- Entries that are freed leave the journal; registers and rings stay. -/
structure EntriesFreed (s t : State) (l : List JEntry) : Prop where
  regs : t.regs = s.regs
  therm : t.therm = s.therm
  rings : t.intake.rings = s.intake.rings
  journal : ∀ j ∈ t.intake.journal, j ∈ s.intake.journal ∧ ∀ i ∈ l, j.jseq ≠ i.jseq

theorem freed_freeEntry (s : State) (i : JEntry) : EntriesFreed s (freeEntry s i) [i] := by
  have hw := (written_memWrite s (journalAddr s i.jseq) (leBytes 8 0)).frame
  unfold freeEntry
  dsimp only
  generalize (memWrite s (journalAddr s i.jseq) (leBytes 8 0)).1 = t at hw
  have hi : t.intake = s.intake := by rw [hw]
  refine ⟨by rw [hw], by rw [hw], (congrArg Intake.rings hi :), fun j hj => ?_⟩
  obtain ⟨hm, hne⟩ := List.mem_filter.1 hj
  rw [hi] at hm
  exact ⟨hm, fun x hx => by rw [List.mem_singleton.1 hx]; simpa using hne⟩

theorem freed_foldl (l : List JEntry) (s : State) : EntriesFreed s (l.foldl freeEntry s) l := by
  induction l generalizing s with
  | nil => exact ⟨rfl, rfl, rfl, fun j hj => ⟨hj, fun _ h => absurd h (List.not_mem_nil)⟩⟩
  | cons i l ih =>
    have h1 := freed_freeEntry s i
    have h2 := ih (freeEntry s i)
    refine ⟨h2.regs.trans h1.regs, h2.therm.trans h1.therm, h2.rings.trans h1.rings, fun j hj => ?_⟩
    obtain ⟨hm, hl⟩ := h2.journal j hj
    obtain ⟨hs, hi⟩ := h1.journal j hm
    exact ⟨hs, List.forall_mem_cons.2 ⟨hi i (List.mem_singleton_self i), hl⟩⟩

theorem takeCcons_held (hr : ringOf s k = some r) (hc : r.ccons ≤ v.toNat) (hrec : s.intake.heldRecs = [])
    (hh : intakeHeld s = true) : (ringOf (takeCcons s k v) k).map (·.ccons) = some v.toNat ∧
      ∀ j ∈ (takeCcons s k v).intake.journal, j ∈ s.intake.journal ∧ entryFreed { r with ccons := v.toNat } j = false := by
  have hring : ringOf (setRing s { r with ccons := v.toNat }) k = some { r with ccons := v.toNat } :=
    ringOf_setRing_some hr (ringOf_index (r := r) hr)
  have htake : takeCcons s k v = pumpIntake (freeEntries (setRing s { r with ccons := v.toNat }) { r with ccons := v.toNat }) := by
    unfold takeCcons
    rw [hr]
    dsimp only
    rw [if_neg (by omega), hrec]
    rfl
  have hf := freed_foldl (s.intake.journal.filter (entryFreed { r with ccons := v.toNat })) (setRing s { r with ccons := v.toNat })
  have hheld := (intakeHeld_congr hf.regs hf.therm).trans
    ((intakeHeld_congr (t := setRing s { r with ccons := v.toNat }) (s := s) rfl rfl).trans hh)
  have hpump := pumpIntake_held hheld
  have heq : takeCcons s k v = noteFull ((s.intake.journal.filter (entryFreed { r with ccons := v.toNat })).foldl freeEntry
      (setRing s { r with ccons := v.toNat })) := htake.trans hpump
  have hint := congrArg State.intake heq
  rw [noteFull_intake] at hint
  constructor
  · rw [ringOf_congr hint, ringOf, hf.rings, ← ringOf, hring]
    rfl
  · intro j hj
    rw [hint] at hj
    obtain ⟨hm, hne⟩ := hf.journal j hj
    refine ⟨hm, Bool.eq_false_iff.2 fun he => hne j (List.mem_filter.2 ⟨hm, he⟩) rfl⟩

theorem doorbellCcons_held (hr : ringOf s k = some r) (hq : quenched s = false) (hc : r.ccons ≤ v.toNat)
    (ho : openDram s (r.doorbell + 8) 8) (hrec : s.intake.heldRecs = []) (hh : intakeHeld s = true) :
    (ringOf (doorbellCcons s k v) k).map (·.ccons) = some v.toNat ∧
      ∀ j ∈ (doorbellCcons s k v).intake.journal, j ∈ s.intake.journal ∧ entryFreed { r with ccons := v.toNat } j = false := by
  have hw := written_memWrite s (r.doorbell + 8) (leBytes 8 v.toNat)
  have hi : (memWrite s (r.doorbell + 8) (leBytes 8 v.toNat)).1.intake = s.intake := by rw [hw.frame]
  rw [doorbellCcons, ringBell_taken hr hq (a := r.doorbell + 8) rfl ho]
  have h := takeCcons_held (v := v) ((ringOf_congr hi k).trans hr) hc ((congrArg Intake.heldRecs hi).trans hrec)
    ((intakeHeld_written hw).trans hh)
  rwa [hi] at h

/-! ## A slot that is not written in time (R335) -/

theorem stopRing_shows (h : ringOf s k = some r) (n : Nat) : (ringOf (stopRing s r n) k).map (·.stopped) = some true ∧
    getF (stopRing s r n) WRK_CNT WRK_CNT_STOPS = min WRK_CNT_STOPS.cap (getF s WRK_CNT WRK_CNT_STOPS + 1) := by
  obtain rfl := ringOf_index h
  unfold stopRing
  dsimp only
  generalize hu : setRing s { r with stopped := true, waitAt := none } = u
  have hring : ringOf u r.index = some { r with stopped := true, waitAt := none } := by
    rw [← hu]; exact ringOf_setRing_some h rfl
  have hregs : u.regs = s.regs := by rw [← hu]; rfl
  have hcnt : getF (satF u WRK_CNT WRK_CNT_STOPS 1) WRK_CNT WRK_CNT_STOPS = min WRK_CNT_STOPS.cap (getF s WRK_CNT WRK_CNT_STOPS + 1) := by
    rw [getF_satF (by decide) (by decide), getF_congr hregs]
    rfl
  have hsat : ringOf (satF u WRK_CNT WRK_CNT_STOPS 1) r.index = ringOf u r.index := ringOf_congr (putF_intake ..) _
  generalize satF u WRK_CNT WRK_CNT_STOPS 1 = w at hcnt hsat
  have hw : ringOf (makeRecord w srcIntake 0x301 [w64 (r.index + n % 2 ^ 56 * 2 ^ 8)]) r.index = some { r with stopped := true, waitAt := none } := by
    rw [ringOf_congr (makeRecord_intake ..), hsat, hring]
  constructor
  · obtain ⟨c, hc⟩ := ringOf_postTo hw [headWord w 0x0403 0, w64 n]
    rw [hc]
    rfl
  · rw [(posted_postTo ..).regs.getF (by decide), getF_makeRecord, hcnt]

theorem itemWaitExpiry_stops (h : ringOf s k = some r) {t0 : Nat} (hw : r.waitAt = some (r.next, t0)) (hs : r.stopped = false)
    (hh : intakeHeld s = false) (hd : getF s WRK_CTL WRK_CTL_ITEM_WAIT * 1000 ≤ s.now - t0) (hc : slotCase s r r.next = .notYet) :
    itemWaitExpiry s k = stopRing s r r.next := by
  unfold itemWaitExpiry
  rw [h]
  dsimp only
  rw [hw]
  dsimp only
  rw [if_neg (by simp only [hs, hh, Bool.false_or, decide_eq_true_eq]; omega), if_pos (by simp [hc])]

/-! ## Acceptance (R337, R339) -/

theorem takeForecast_power (s : State) (ws : List Word64) : takeForecast s ws = { s with power := (takeForecast s ws).power } := by
  unfold takeForecast
  split <;> rfl

/-- The ring that has accepted one item more. -/
def Ring.accepted (r : Ring) (now : Nat) : Ring :=
  { r with acc := seqNext r.acc, unreported := r.unreported + 1, firstAt := if r.unreported = 0 then now else r.firstAt }

theorem itemAccepted_eq (h : ringOf s k = some r) {j : JEntry} (ha : acceptee s r = some j) (hm : j.mirrored = true)
    (hh : intakeHeld s = false) (hu : r.unreported < 15) : itemAccepted s k =
      takeForecast (writeWord (satF (setRing s (r.accepted s.now)) WRK_CNT WRK_CNT_ACCEPTED 1) ((r.accepted s.now).doorbell + 64)
        (w64 (seqNext r.acc))) j.item := by
  unfold itemAccepted Ring.accepted
  rw [h]
  dsimp only
  rw [ha]
  dsimp only
  rw [if_neg (by simp [hm, hh]), if_neg (by omega)]

/-- The doorbell word of an acceptance, and the forecast of its item: the word alone of memory changes. -/
structure WordTold (s t : State) (a : Nat) (w : Word64) : Prop where
  regs : t.regs = s.regs
  intake : t.intake = s.intake
  reads : readWord t a = w
  outside : memSameOutside s t a 8

theorem told_takeForecast (s : State) (a : Nat) (w : Word64) (ws : List Word64) :
    WordTold s (takeForecast (writeWord s a w) ws) a w := by
  have hout := memSameOutside_writeBytes s a (leBytes 8 w.toNat)
  have hread := readWord_writeWord s a w
  rw [leBytes_length] at hout
  rw [takeForecast_power]
  exact ⟨rfl, rfl, hread, hout⟩

theorem itemAccepted_shows (h : ringOf s k = some r) {j : JEntry} (ha : acceptee s r = some j) (hm : j.mirrored = true)
    (hh : intakeHeld s = false) (hu : r.unreported < 15) : (ringOf (itemAccepted s k) k).map (·.acc) = some (seqNext r.acc) ∧
      readWord (itemAccepted s k) (r.doorbell + 64) = w64 (seqNext r.acc) ∧
      memSameOutside s (itemAccepted s k) (r.doorbell + 64) 8 ∧
      getF (itemAccepted s k) WRK_CNT WRK_CNT_ACCEPTED = min WRK_CNT_ACCEPTED.cap (getF s WRK_CNT WRK_CNT_ACCEPTED + 1) := by
  rw [itemAccepted_eq h ha hm hh hu]
  have hd : (r.accepted s.now).doorbell = r.doorbell := rfl
  have hacc : (r.accepted s.now).acc = seqNext r.acc := rfl
  have hi : (r.accepted s.now).index = k := ringOf_index (r := r) h
  rw [hd]
  generalize r.accepted s.now = x at hacc hi
  have hring : ringOf (setRing s x) k = some x := ringOf_setRing_some h hi
  have hregs : (setRing s x).regs = s.regs := rfl
  have hmem : (setRing s x).mem = s.mem := rfl
  generalize setRing s x = v at hring hregs hmem
  have hw := told_takeForecast (satF v WRK_CNT WRK_CNT_ACCEPTED 1) (r.doorbell + 64) (w64 (seqNext r.acc)) j.item
  have hsmem : (satF v WRK_CNT WRK_CNT_ACCEPTED 1).mem = s.mem := (putF_mem ..).trans hmem
  refine ⟨?_, hw.reads, fun b hb => (hw.outside b hb).trans (readByte_congr hsmem b), ?_⟩
  · rw [ringOf_congr hw.intake, satF, ringOf_congr (s := v) (putF_intake ..), hring, Option.map_some, hacc]
  · rw [getF_congr hw.regs, getF_satF (by decide) (by decide), getF_congr hregs, satAdd]

theorem postAccepted_reported (h : ringOf s k = some r) : (ringOf (postAccepted s r) k).map (·.unreported) = some 0 := by
  obtain rfl := ringOf_index h
  have hring : ringOf (setRing s { r with unreported := 0 }) r.index = some { r with unreported := 0 } := ringOf_setRing_some h rfl
  obtain ⟨c, hc⟩ := ringOf_postTo hring [headWord s 0x0401 0, w64 r.acc]
  rw [postAccepted, hc]
  rfl

theorem acceptanceTimer_posts (h : ringOf s k = some r) (hq : quenched s = false) (hu : r.unreported ≠ 0)
    (hd : 2000 ≤ s.now - r.firstAt) : acceptanceTimer s k = postAccepted s r := by
  unfold acceptanceTimer
  rw [h]
  exact if_neg (by simp only [hu, hq, decide_false, Bool.false_or, decide_eq_true_eq]; omega)

/-! ## Items run one at a time, and their completion (R340, R341) -/

theorem itemStart_eq (h : ringOf s k = some r) {j : JEntry} (hj : frontItem s k = some j) (hq : quenched s = false)
    (hf : fenced s = false) (ha : j.st = .accepted) (hb : seqBefore j.seq r.acc = true) :
    itemStart s k = setJournal s { j with st := .running } := by
  unfold itemStart
  rw [h, hj]
  exact if_neg (by simp [hq, hf, ha, hb])

theorem entryAt_setJournal_mem {i j : JEntry} (hi : i ∈ s.intake.journal) (hj : j.jseq = i.jseq) :
    entryAt (setJournal s j) i.jseq = some j :=
  have ⟨_, he⟩ := entryAt_of_mem hi
  entryAt_setJournal he hj

/-- A Done mark that leaves on its own changes the mark of its entry alone. -/
theorem sendMark_shows {j : JEntry} (h : entryAt s q = some j) : (∃ b, entryAt (sendMark s j) q = some { j with marked := b }) ∧
    ringOf (sendMark s j) k = ringOf s k := by
  unfold sendMark
  split
  · have hj : ({ j with marked := true } : JEntry).jseq = q := entryAt_jseq (j := j) h
    have hi := sendMirror_intake (setJournal s { j with marked := true }) j (.doneMark j.ring j.jseq)
    refine ⟨⟨true, ?_⟩, ?_⟩
    · rw [entryAt_congr hi]
      exact entryAt_setJournal h hj
    · rw [ringOf_congr hi, ringOf_setJournal]
  · exact ⟨⟨j.marked, h⟩, rfl⟩

theorem jobLeaves_intake (s : State) (n m : Nat) : (jobLeaves s n m).intake = s.intake := by
  unfold jobLeaves
  split
  · rw [putF_intake]
  · rfl

theorem entryAt_ringTold (v : State) (x : Ring) (a : Nat) (w : Word64) : entryAt (writeWord (setRing v x) a w) q = entryAt v q := rfl

theorem ringOf_writeWord (v : State) (a : Nat) (w : Word64) : ringOf (writeWord v a w) k = ringOf v k := rfl

/-- The ring with its item Done, before the mark leaves. -/
def itemOver (s : State) (r : Ring) (j : JEntry) : State :=
  writeWord (setRing (setJournal s { j with st := .done }) { r with doneTo := seqNext j.seq }) (r.doorbell + 72) (w64 (seqNext j.seq))

theorem itemDone_eq (h : ringOf s k = some r) {j : JEntry} (hj : runningItem s k = some j) (hq : quenched s = false)
    (hf : j.fin = true) : itemDone s k = jobLeaves (sendMark (itemOver s r j) { j with st := .done }) j.ring j.jseq := by
  unfold itemDone
  rw [h, hj]
  exact if_neg (by simp [hq, hf])

theorem itemDone_shows (h : ringOf s k = some r) {j : JEntry} (hj : runningItem s k = some j) (hq : quenched s = false)
    (hf : j.fin = true) : (entryAt (itemDone s k) j.jseq).map (fun x => (x.st, x.status)) = some (.done, j.status) ∧
      (ringOf (itemDone s k) k).map (·.doneTo) = some (seqNext j.seq) := by
  have hover : entryAt (itemOver s r j) j.jseq = some { j with st := .done } :=
    (entryAt_ringTold ..).trans (entryAt_setJournal_mem (List.mem_of_find?_eq_some hj) rfl)
  have hring : ringOf (itemOver s r j) k = some { r with doneTo := seqNext j.seq } :=
    (ringOf_writeWord ..).trans (ringOf_setRing_some ((ringOf_setJournal ..).trans h) (ringOf_index (r := r) h))
  obtain ⟨⟨b, hb⟩, hr⟩ := sendMark_shows (k := k) hover
  rw [itemDone_eq h hj hq hf, entryAt_congr (jobLeaves_intake ..), ringOf_congr (jobLeaves_intake ..), hb, hr, hring]
  exact ⟨rfl, rfl⟩

/-- A change that keeps number and post of every entry is not seen in either. -/
theorem posted_find_map {f : JEntry → JEntry} (hj : ∀ j, (f j).jseq = j.jseq) (hp : ∀ j, (f j).posted = j.posted) (l : List JEntry) :
    ((l.map f).find? (·.jseq = q)).map (·.posted) = (l.find? (·.jseq = q)).map (·.posted) := by
  rw [find_map_jseq hj, Option.map_map]
  exact congrArg (Option.map · _) (funext hp)

theorem entryAt_noteSlot_posted (s : State) (n : Nat) (ws : List Word64) (c : Nat) :
    (entryAt (noteSlot s n ws c) q).map (·.posted) = (entryAt s q).map (·.posted) := by
  unfold noteSlot
  split
  · exact posted_find_map (by intro j; split <;> rfl) (by intro j; split <;> rfl) _
  · rfl

theorem entryAt_postTo_posted (s : State) (n : Nat) (ws : List Word64) :
    (entryAt (postTo s n ws) q).map (·.posted) = (entryAt s q).map (·.posted) := by
  have hheld : entryAt (holdRecord s n ws) q = entryAt s q := by
    have hi : (holdRecord s n ws).intake.journal = s.intake.journal := by rw [holdRecord, putF_intake]
    rw [entryAt, hi, entryAt]
  have hnow : ∀ r : Ring, (entryAt (postNow s r ws).1 q).map (·.posted) = (entryAt s q).map (·.posted) := by
    intro r
    unfold postNow
    dsimp only
    split
    · rw [entryAt_noteSlot_posted]
      have hi : ∀ v : State, SendOnly s v → entryAt v q = entryAt s q := fun v hv => entryAt_congr (by rw [SendOnly] at hv; rw [hv])
      rw [entryAt_ringTold, hi _ (sendOnly_roceSendOn ..)]
    · rfl
  unfold postTo
  split
  · rfl
  · split
    · rw [hheld]
    · dsimp only
      split
      · rw [hheld]
      · split
        · exact hnow _
        · rw [hheld]

theorem entryAt_modJournal {j : JEntry} (h : entryAt s q = some j) {f : JEntry → JEntry} (hf : ∀ x, (f x).jseq = x.jseq) :
    entryAt (modJournal s q f) q = some (f j) := by
  have hi := entryAt_jseq h
  rw [entryAt, modJournal]
  dsimp only
  rw [updWhere, find_map_jseq (by intro x; split <;> simp_all), ← entryAt, h, Option.map_some, if_pos (by simp [hi])]

theorem doneMirrored_eq {j : JEntry} (hj : s.intake.journal.find? (fun j => j.ring = k && j.st = .done && !j.posted) = some j)
    (hq : quenched s = false) (hf : fenced s = false) (ha : j.markAcked = true) :
    doneMirrored s k = postTo (modJournal s j.jseq fun x => { x with posted := true }) k (completionRecord s j) := by
  unfold doneMirrored
  rw [hj]
  exact if_neg (by simp [hq, hf, ha])

theorem doneMirrored_shows {j : JEntry} (hj : s.intake.journal.find? (fun j => j.ring = k && j.st = .done && !j.posted) = some j)
    (hq : quenched s = false) (hf : fenced s = false) (ha : j.markAcked = true) :
    (entryAt (doneMirrored s k) j.jseq).map (·.posted) = some true := by
  obtain ⟨i, hi⟩ := entryAt_of_mem (List.mem_of_find?_eq_some hj)
  rw [doneMirrored_eq hj hq hf ha, entryAt_postTo_posted, entryAt_modJournal hi (f := fun x => { x with posted := true }) fun _ => rfl, Option.map_some]

/-! ## Rings come and go (R331, R343) -/

theorem connActive_congr (h : t.conns = s.conns) (n : Nat) : connActive t n = connActive s n := by
  rw [connActive, connAt_congr h, connActive]

theorem ringReason_congr (hi : t.intake = s.intake) (hc : t.conns = s.conns) (ws : List Word64) : ringReason t k ws = ringReason s k ws := by
  have ht : takeBad t ws = takeBad s ws := by rw [takeBad, takenOf, hi, takeBad, takenOf]
  have he : ringEntryBad t ws = ringEntryBad s ws := by rw [ringEntryBad, ht, ringEntryBad]
  rw [ringReason, he, connActive_congr hc, ringReason]

theorem ringEntry_writeRingIndex (s : State) (n k : Nat) : ringEntry (writeRingIndex s n) k = ringEntry s k := by
  have hp : getPair (writeRingIndex s n) WRK_RING_BASE_LO WRK_RING_BASE_HI = getPair s WRK_RING_BASE_LO WRK_RING_BASE_HI := by
    rw [getPair, writeRingIndex, getR_putF_ne (by decide), getR_putF_ne (by decide), getPair]
  rw [ringEntry, hp, writeRingIndex, readWords_congr (putF_mem ..), ringEntry]

theorem ringOf_writeRingIndex (s : State) (n : Nat) : ringOf (writeRingIndex s n) k = ringOf s k := ringOf_congr (putF_intake ..) k

theorem index_writeRingIndex (s : State) (k : Fin 16) : getF (writeRingIndex s k.val) WRK_RING_CTL WRK_RING_CTL_INDEX = k.val := by
  rw [writeRingIndex, getF_putF (by decide) (by decide)]
  exact Nat.mod_eq_of_lt k.isLt

/-- A ring that is not taken over starts with its doorbell words and releases nothing while no record is held. -/
theorem activateRing_fresh {ws : List Word64} (h0 : wfield ws 5 63 63 = 0) (hrec : s.intake.heldRecs = []) : activateRing s k ws =
    writeDoorbell { s with intake := { s.intake with rings := s.intake.rings ++ [.ofEntry k ws] } } (.ofEntry k ws) := by
  have hlen : (writeDoorbell { s with intake := { s.intake with rings := s.intake.rings ++ [.ofEntry k ws] } }
      (.ofEntry k ws)).intake.heldRecs.length = 0 := by
    rw [List.length_eq_zero_iff]
    exact hrec
  unfold activateRing
  rw [h0]
  dsimp only
  rw [if_neg Nat.zero_ne_one]
  dsimp only [Option.map_none, Option.getD_none]
  rw [hlen]
  rfl

/-- What a ring that starts leaves. -/
structure RingStarted (s t : State) (r : Ring) : Prop where
  regs : t.regs = s.regs
  rings : t.intake.rings = s.intake.rings ++ [r]
  outside : memSameOutside s t (r.doorbell + 64) 24
  reads : readWords t (r.doorbell + 64) 3 = [w64 r.acc, w64 r.doneTo, w64 r.cseq]

theorem started_writeDoorbell (s : State) (r : Ring) :
    RingStarted s (writeDoorbell { s with intake := { s.intake with rings := s.intake.rings ++ [r] } } r) r where
  regs := rfl
  rings := rfl
  outside := by
    have h := memSameOutside_writeBytes s (r.doorbell + 64) (bytesOfWords [w64 r.acc, w64 r.doneTo, w64 r.cseq])
    rw [length_bytesOfWords] at h
    exact h
  reads := readWords_writeWords _ (r.doorbell + 64) [w64 r.acc, w64 r.doneTo, w64 r.cseq]

section
variable {agent : Nat} {ws : List Word64}

theorem ringActBy_fresh (hm : mayWrite s agent WRK_RING_CTL = true) (hr : ringOf s k = none) (hw : ws = ringEntry s k) :
    ringActBy s agent k = if ringReason s k ws = 0 then activateRing (writeRingIndex s k) k ws
      else ringRefused (writeRingIndex s k) k (ringReason s k ws) := by
  have hn : ringOf (writeRingIndex s k) k = none := (ringOf_writeRingIndex ..).trans hr
  have he : ringReason (writeRingIndex s k) k ws = ringReason s k ws := ringReason_congr (putF_intake ..) (putF_conns ..) ws
  subst hw
  rw [ringActBy, if_pos hm, ringAct, hn, if_neg (by simp)]
  dsimp only
  rw [ringEntry_writeRingIndex, he]

theorem ringActBy_started (hm : mayWrite s agent WRK_RING_CTL = true) (hr : ringOf s k = none) (hw : ws = ringEntry s k)
    (h0 : wfield ws 5 63 63 = 0) (hk : ringReason s k ws = 0) (hrec : s.intake.heldRecs = []) :
    RingStarted (writeRingIndex s k) (ringActBy s agent k) (.ofEntry k ws) := by
  have hi : (writeRingIndex s k).intake.heldRecs = [] := by rw [writeRingIndex, putF_intake, hrec]
  rw [ringActBy_fresh hm hr hw, if_pos hk, activateRing_fresh h0 hi]
  exact started_writeDoorbell ..

theorem ringActBy_refused (hm : mayWrite s agent WRK_RING_CTL = true) (hr : ringOf s k = none) (hw : ws = ringEntry s k)
    (hk : ringReason s k ws ≠ 0) :
    ringActBy s agent k = makeRecord (writeRingIndex s k) srcSmith 0x300 [w64 (k + ringReason s k ws * 2 ^ 8)] := by
  rw [ringActBy_fresh hm hr hw, if_neg hk, ringRefused]

/-- The rings without one. -/
def ringGone (s : State) (k : Nat) : State :=
  { s with intake := { s.intake with rings := s.intake.rings.filter (·.index != k) } }

theorem ringOf_ringGone (s : State) (k : Nat) : ringOf (ringGone s k) k = none := by
  simp [ringOf, ringGone, List.find?_eq_none]

theorem ringDeactBy_empty (hm : mayWrite s agent WRK_RING_CTL = true) (hr : (ringOf s k).isSome = true)
    (hj : ∀ j ∈ s.intake.journal, j.ring ≠ k) : ringDeactBy s agent k = ringGone (noteFull (writeRingIndex s k)) k := by
  obtain ⟨r, hr⟩ := Option.isSome_iff_exists.1 hr
  have hnone : (writeRingIndex s k).intake.journal.filter (·.ring = k) = [] := by
    rw [writeRingIndex, putF_intake, List.filter_eq_nil_iff]
    exact fun j h => by simp [hj j h]
  rw [ringDeactBy, if_pos hm, ringDeact, (ringOf_writeRingIndex ..).trans hr]
  dsimp only
  rw [hnone]
  rfl

theorem regsOnly_trans {u : State} (ht : t = { s with regs := t.regs }) (hu : u = { t with regs := u.regs }) : u = { s with regs := u.regs } := by
  rw [hu, ht]

theorem regsOnly_putF (s : State) (a : Nat) (f : Fld) (x : Nat) : putF s a f x = { s with regs := (putF s a f x).regs } := by
  obtain ⟨r, h⟩ := putF_regs_only s a f x
  rw [h]

theorem frame_indexNoted (s : State) (n : Nat) : noteFull (writeRingIndex s n) = { s with regs := (noteFull (writeRingIndex s n)).regs } :=
  regsOnly_trans (t := writeRingIndex s n) (regsOnly_putF ..) (regsOnly_putF ..)

theorem regsSameBut_noteFull (v : State) : regsSameBut v (noteFull v) [WRK_RING_CTL, WRK_STATUS] := (regsSameBut.refl v _).putF (by simp) _ _

theorem getF_noteFull_ringCtl (v : State) : getF (noteFull v) WRK_RING_CTL WRK_RING_CTL_INDEX = getF v WRK_RING_CTL WRK_RING_CTL_INDEX :=
  getF_putF_ne (by decide) ..

/-- DEACT of a ring without items: its number is in the control register, and the ring is gone. -/
structure RingEnded (s t : State) (k : Nat) : Prop where
  gone : ringOf t k = none
  index : getF t WRK_RING_CTL WRK_RING_CTL_INDEX = getF (writeRingIndex s k) WRK_RING_CTL WRK_RING_CTL_INDEX
  regs : regsSameBut s t [WRK_RING_CTL, WRK_STATUS]
  frame : t = { s with regs := t.regs, intake := t.intake }

theorem ended_ringGone {u : State} (hf : u = { s with regs := u.regs }) (hr : regsSameBut s u [WRK_RING_CTL, WRK_STATUS])
    (hi : getF u WRK_RING_CTL WRK_RING_CTL_INDEX = getF (writeRingIndex s k) WRK_RING_CTL WRK_RING_CTL_INDEX) :
    RingEnded s (ringGone u k) k := by
  have hv : (ringGone u k).regs = u.regs := rfl
  refine ⟨ringOf_ringGone .., (getF_congr hv _ _).trans hi, hr.of_regs hv, ?_⟩
  rw [hf]
  rfl

theorem regsSameBut_indexNoted (s : State) (n : Nat) : regsSameBut s (noteFull (writeRingIndex s n)) [WRK_RING_CTL, WRK_STATUS] :=
  regsSameBut.trans (t := writeRingIndex s n) ((regsSameBut.refl s _).putF (by simp) _ _) (regsSameBut_noteFull _)

theorem ringDeactBy_ended (hm : mayWrite s agent WRK_RING_CTL = true) (hr : (ringOf s k).isSome = true)
    (hj : ∀ j ∈ s.intake.journal, j.ring ≠ k) : RingEnded s (ringDeactBy s agent k) k := by
  rw [ringDeactBy_empty hm hr hj]
  exact ended_ringGone (frame_indexNoted s k) (regsSameBut_indexNoted s k) (getF_noteFull_ringCtl _)

end

end

/-! ## The statement -/

/-- Settles O39: each step of a ring by its lemma above. -/
theorem rings : Obligations.Rings := by
  unfold Obligations.Rings
  intro ring s _ hq
  refine ⟨?pseq, ?ccons, ?wait, ?accept, ?timer, ?start, ?done, ?mark, ?control⟩
  case pseq =>
    intro r v hr ha ho hp hb
    have hd : PseqDue s ring.val r v := ⟨hr, ha, ho, hp, hb⟩
    refine ⟨fun hh => .of rfl rfl ?_, fun ws hh hc hf hrec hv hn hi => .of rfl rfl (doorbellPseq_journals hd hq hh hc hf hrec hv hn hi)⟩
    have ht := doorbellPseq_held hd hq hh
    exact ⟨ht.written.reads, ht.written.outside, ht.journal, by rw [ht.ring]; rfl⟩
  case ccons => exact fun r v hr hc ho hrec hh => .of rfl rfl (doorbellCcons_held hr hq hc ho hrec hh)
  case wait =>
    intro r t0 hr hw hs hh hd hc
    refine .of rfl rfl ?_
    rw [itemWaitExpiry_stops hr hw hs hh hd hc]
    exact stopRing_shows hr _
  case accept => exact fun r j hr ha hm hh hu => .of rfl rfl (itemAccepted_shows hr ha hm hh hu)
  case timer =>
    intro r hr hu hd
    refine .of rfl rfl ?_
    rw [acceptanceTimer_posts hr hq hu hd]
    exact postAccepted_reported hr
  case start =>
    intro r j hr hj hf ha hb
    refine .of rfl rfl ?_
    rw [itemStart_eq hr hj hq hf ha hb, entryAt_setJournal_mem (j := { j with st := .running }) (List.mem_of_find?_eq_some hj) rfl]
    rfl
  case done => exact fun r j hr hj hf => .of rfl rfl (itemDone_shows hr hj hq hf)
  case mark => exact fun j hj hf ha => .of rfl rfl (doneMirrored_shows hj hq hf ha)
  case control =>
    intro agent hm
    refine ⟨fun ws r hr hw he h0 => ⟨fun hk hrec => .of rfl rfl ?_, fun hk => .of rfl rfl (ringActBy_refused hm hr hw hk)⟩,
      fun hr hj => .of rfl rfl ?_⟩
    · have hs := ringActBy_started hm hr hw h0 hk hrec
      rw [← he] at hs
      exact ⟨hs.rings, (getF_congr hs.regs _ _).trans (index_writeRingIndex ..), hs.outside, hs.reads⟩
    · have hg := ringDeactBy_ended hm hr hj
      exact ⟨hg.gone, hg.index.trans (index_writeRingIndex ..), hg.regs, hg.frame⟩

end Sys2Proof.Machine
end

section
/-! PROOFS. What the settling of the fabric leaves as it was: the tests of R408, the status of the ports, and the partner (R289, R290,
R303, R307). -/

namespace Sys2Proof.Machine

/-- From `s` to `t` no test is queued or taken, the registers of the tests and the ports stand, no run of the collectives starts or
ends, the partner is the same, and the entries of cores at most leave. -/
structure Still (s t : State) : Prop where
  regs : ∀ a, 0x50000 ≤ a → a < 0x68000 → getR t a = getR s a
  tests : t.queuedTests = s.queuedTests
  insts : t.coll.insts = s.coll.insts
  partner : t.surv.partner = s.surv.partner
  cores : ∀ i, Calmer (coreAt s i) (coreAt t i)

section
variable {s t u : State}

theorem Still.refl (s : State) : Still s s := ⟨fun _ _ _ => rfl, rfl, rfl, rfl, fun _ => .refl _⟩

theorem Still.trans (a : Still s t) (b : Still t u) : Still s u where
  regs x h h' := (b.regs x h h').trans (a.regs x h h')
  tests := b.tests.trans a.tests
  insts := b.insts.trans a.insts
  partner := b.partner.trans a.partner
  cores i := (a.cores i).trans (b.cores i)

theorem Still.foldl {α : Type} {f : State → α → State} (h : ∀ s x, Still s (f s x)) (l : List α) (s : State) : Still s (l.foldl f s) := by
  induction l generalizing s with
  | nil => exact .refl s
  | cons x l ih => exact (h s x).trans (ih _)

theorem still_of (hr : t.regs = s.regs) (hc : t.cores = s.cores) (hq : t.queuedTests = s.queuedTests)
    (hi : t.coll.insts = s.coll.insts) (hp : t.surv.partner = s.surv.partner) : Still s t :=
  ⟨fun a _ _ => getR_congr hr a, hq, hi, hp, fun i => by rw [coreAt_congr hc]; exact .refl _⟩

theorem still_modCore (s : State) (i : Nat) {f : Core → Core} (h : Calmer (coreAt s i) (f (coreAt s i))) : Still s (modCore s i f) :=
  ⟨fun _ _ _ => rfl, rfl, rfl, rfl, (sent_modCore s i h).cores⟩

/-- A register outside those of the tests and the ports is written. -/
theorem still_putF (s : State) {a : Nat} (ha : a < 0x50000 ∨ 0x68000 ≤ a) (f : Fld) (x : Nat) : Still s (putF s a f x) where
  regs b h h' := regsSameBut_putF s a f x b (by simp only [List.mem_singleton]; omega)
  tests := putF_queuedTests ..
  insts := by rw [putF_coll]
  partner := by rw [putF_surv]
  cores i := by rw [coreAt_congr (putF_cores ..)]; exact .refl _

theorem still_satF (s : State) {a : Nat} (ha : a < 0x50000 ∨ 0x68000 ≤ a) (f : Fld) (n : Nat) : Still s (satF s a f n) := still_putF s ha f _

theorem still_makeRecord (s : State) (src typ : Nat) (b : List Word64) : Still s (makeRecord s src typ b) := by
  rw [makeRecord_eq]; exact still_of rfl rfl rfl rfl rfl

theorem Written.still (h : Written s t) : Still s t := by rw [h.frame]; exact still_of rfl rfl rfl rfl rfl

theorem Touched.still (h : Touched s t) : Still s t := h.written.still

end

/-! ## Owners of requests -/

section
variable (s : State)

theorem still_setEntry (i : Nat) (q : Queue) (qid : Nat) {f : QEntry → QEntry} (hf : ∀ e, e.started = true → (f e).started = true) :
    Still s (setEntry s i q qid f) := by
  refine still_modCore s i (calmer_mapQueue _ q fun e he => ?_)
  split
  · exact hf e he
  · exact he

theorem still_faultAbort (i : CoreId) (k : CtxId) (queue code pc : Nat) (precise residue : Bool) :
    Still s (faultAbort s i k queue code pc precise residue) := by
  by_cases h : ((coreAt s i).ctx k).over = true
  · rw [faultAbort, if_pos h]; exact .refl s
  · obtain ⟨fld, body, heq⟩ := faultAbort_eq (eq_false_of_ne_true h) queue code pc precise residue
    have h1 : CORE_FAULT i < 0x50000 ∨ 0x68000 ≤ CORE_FAULT i := by unfold CORE_FAULT; omega
    have h2 : CORE_FAULTPC i < 0x50000 ∨ 0x68000 ≤ CORE_FAULTPC i := by unfold CORE_FAULTPC; omega
    have h3 : CORE_FAULTCNT i < 0x50000 ∨ 0x68000 ≤ CORE_FAULTCNT i := by unfold CORE_FAULTCNT; omega
    have hcore := still_modCore s i (f := fun c => abortCore (isSplit s i) c k code residue) (calmer_abortCore ..)
    have hnoted : Still s (faultNoted s i k queue code pc precise residue) :=
      ((((hcore.trans (still_putF _ h1 ..)).trans (still_putF _ h1 ..)).trans (still_putF _ h1 ..)).trans (still_putF _ h1 ..)).trans
        (still_putF _ h2 ..)
    rw [heq]
    exact (hnoted.trans (still_satF _ h3 ..)).trans (still_makeRecord ..)

theorem still_entryFault (i : CoreId) (q : Queue) (e : QEntry) (code : Nat) (residue : Bool) : Still s (entryFault s i q e code residue) := by
  unfold entryFault
  split
  · exact still_setEntry s i q e.qid fun _ h => h
  · exact still_faultAbort ..

theorem still_entryPart (i : Nat) (q : Queue) (qid : Nat) : Still s (entryPart s i q qid) :=
  still_modCore s i (calmer_mapQueue _ q fun e he => by split <;> exact he)

theorem still_ownerDone (o : Owner) (fault : Option Nat) : Still s (ownerDone s o fault) := by
  cases o with
  | insn i q qid =>
    cases fault with
    | none => exact still_entryPart ..
    | some code =>
      unfold ownerDone
      dsimp only
      cases entryOf s i.val q qid with
      | none => exact .refl s
      | some e => exact still_entryFault ..
  | _ => cases fault <;> exact still_of rfl rfl rfl rfl rfl

end

/-! ## Sends -/

section
variable (s : State)

theorem still_portEmit (p q : Nat) (o : Out) : Still s (portEmit s p q o) := by
  unfold portEmit
  split <;> exact still_of rfl rfl rfl rfl rfl

theorem still_sendFrame (port : Nat) (f : YlpFrame) : Still s (sendFrame s port f) := by
  unfold sendFrame
  split
  · split
    · dsimp only
      refine Still.trans ?_ (still_portEmit _ port _ _)
      exact still_of rfl rfl rfl rfl rfl
    · exact .refl s
  · exact .refl s

theorem still_sendOn (d : TxDst) (f : YlpFrame) : Still s (sendOn s d f) := by
  unfold sendOn
  split
  · exact still_sendFrame ..
  · exact .refl s

theorem still_setDst (d : TxDst) : Still s (setDst s d) := still_of rfl rfl rfl rfl rfl

theorem still_noteHigh (o : Owner) (node seq : Nat) : Still s (noteHigh s o node seq) := by
  cases o with
  | insn i q qid =>
    exact still_modCore s i.val (f := fun c => c.setQueue q ((c.queue q).map fun e =>
      if e.qid = qid then { e with high := assocSet node seq e.high } else e)) (calmer_mapQueue _ q fun e he => by split <;> exact he)
  | _ => exact .refl s

theorem still_sendNumbered (d : TxDst) (f : YlpFrame) (o : Owner) (dst skip len : Nat) : Still s (sendNumbered s d f o dst skip len) :=
  ((still_setDst ..).trans (still_sendOn ..)).trans (still_noteHigh ..)

theorem still_unreachable (node : Nat) : Still s (unreachable s node) :=
  ((still_setDst ..).trans (still_satF _ (by decide) ..)).trans (Still.foldl (fun t o => still_ownerDone t o (some faultFabric)) _ _)

theorem still_refuseNoPath (d : TxDst) (f : YlpFrame) (o : Owner) : Still s (refuseNoPath s d f o) := by
  unfold refuseNoPath
  split
  · exact still_ownerDone ..
  · exact (still_setDst ..).trans (still_unreachable ..)

theorem still_sendRequest (node : Nat) (f : YlpFrame) (o : Owner) (dst skip len : Nat) : Still s (sendRequest s node f o dst skip len) := by
  unfold sendRequest
  dsimp only
  split
  · exact still_refuseNoPath ..
  · split
    · exact still_sendNumbered ..
    · exact still_setDst ..

theorem still_sendWrites (node a : Nat) (bs : List Byte) (o : Owner) : Still s (sendWrites s node a bs o) :=
  Still.foldl (fun t _ => still_sendRequest t ..) _ _

theorem still_roceIssue (c : Conn) (o : RoceOp) : Still s (roceIssue s c o) := by
  unfold roceIssue
  dsimp only
  split
  · exact still_of rfl rfl rfl rfl rfl
  · rw [roceEmit_frame]
    exact still_of rfl rfl rfl rfl rfl

theorem still_roceSendOn (idx : Nat) (o : RoceOp) : Still s (roceSendOn s idx o).1 := by
  unfold roceSendOn
  split
  · split
    · exact .refl s
    · exact still_roceIssue ..
  · exact .refl s

theorem still_loseMember (node : Nat) : Still s (loseMember s node) := by
  unfold loseMember
  split
  · exact .refl s
  · exact still_of rfl rfl rfl rfl rfl

theorem still_carry (g : Group) (rank a : Nat) (bs : List Byte) (o : Owner) : Still s (carry s g rank a bs o) := by
  unfold carry
  split
  · exact (written_memWrite ..).still.trans (still_ownerDone ..)
  · split
    · exact still_sendWrites ..
    · dsimp only
      split
      · exact still_roceSendOn ..
      · exact (still_roceSendOn ..).trans (still_loseMember ..)

theorem still_noteSurvSent (key seq : Nat) : Still s (noteSurvSent s key seq) := still_of rfl rfl rfl rfl rfl

theorem still_sendInbox (rank kind reason : Nat) (removed added : List Nat) : Still s (sendInbox s rank kind reason removed added) := by
  unfold sendInbox
  split
  · exact .refl s
  · exact (still_carry ..).trans (still_noteSurvSent ..)

theorem still_sendRelation (rank kind reason mgen : Nat) (removed added : List Nat) :
    Still s (sendRelation s rank kind reason mgen removed added) := by
  unfold sendRelation
  split
  · exact .refl s
  · dsimp only
    split
    · exact (still_carry ..).trans (still_noteSurvSent ..)
    · exact still_of rfl rfl rfl rfl rfl

theorem still_sendNotices (n : Nat) : Still s (sendNotices n s) := by
  induction n generalizing s with
  | zero => exact .refl s
  | succ n ih =>
    unfold sendNotices
    split
    · exact .refl s
    · split
      · exact .refl s
      · dsimp only
        split
        · have hnotices : ∀ (v : State) (l : List (List Word64)), Still v { v with surv := { v.surv with notices := l } } :=
            fun _ _ => still_of rfl rfl rfl rfl rfl
          exact ((still_roceSendOn s _ _).trans (hnotices _ _)).trans (ih _)
        · exact .refl s

theorem still_postNotice (typ : Nat) (ws : List Word64) : Still s (postNotice s typ ws) :=
  Still.trans (t := { s with surv := { s.surv with notices := s.surv.notices ++ [headWord s typ 0 :: ws] } })
    (still_of rfl rfl rfl rfl rfl) (still_sendNotices ..)

end

/-! ## Reports of lost members (R307, R363) -/

section
variable (s : State)

theorem still_declareLoss (node reason : Nat) : Still s (declareLoss s node reason) := by
  have hheard : ∀ (v : State) (h r : List (Nat × Nat)), Still v { v with surv := { v.surv with heard := h, removedAt := r } } :=
    fun _ _ _ => still_of rfl rfl rfl rfl rfl
  unfold declareLoss
  split
  · exact .refl s
  · exact (((hheard ..).trans (still_satF _ (by decide) ..)).trans (still_makeRecord ..)).trans (still_sendInbox ..)

theorem still_reportLost (p : Nat × Bool) : Still s (reportLost s p) := by
  have hlost : ∀ (v : State) (l : List (Nat × Bool)), Still v { v with coll := { v.coll with lost := l } } :=
    fun _ _ => still_of rfl rfl rfl rfl rfl
  unfold reportLost
  split
  · exact .refl s
  · exact (((hlost ..).trans (still_satF _ (by decide) ..)).trans (still_makeRecord ..)).trans (still_sendInbox ..)

theorem still_reportUnreached : Still s (reportUnreached s) :=
  (Still.foldl (fun t (d : TxDst) => still_declareLoss t d.node 2) _ _).trans (Still.foldl still_reportLost _ _)

/-! ## Pauses (R270) -/

theorem still_settlePause (p : PortId) (q : Nat) : Still s (settlePause p s q) := by
  have hemit : ∀ (v : State) (x : PortSt) (o : Out), Still v (emit (setPort v p.val x) o) := fun _ _ _ => still_of rfl rfl rfl rfl rfl
  unfold settlePause
  dsimp only
  split
  · exact .refl s
  · split
    · exact hemit ..
    · split
      · exact hemit ..
      · exact .refl s

theorem still_settlePauses : Still s (settlePauses s) := by
  refine Still.foldl (fun t p => ?_) _ _
  split
  · exact .refl t
  · exact Still.foldl (fun v q => still_settlePause v p q) _ _

/-! ## The copy and the rows (R372, R377) -/

theorem still_settlePartner : Still s (settlePartner s) := by
  unfold settlePartner
  split
  · exact still_putF s (by decide) ..
  · exact .refl s

theorem still_settleCopy {s : State} (h : s.surv.partner = none) : Still s (settleCopy s) := by
  have hp := still_settlePartner s
  unfold settleCopy
  dsimp only
  rw [hp.partner.trans h]
  exact hp

theorem still_wedge (cause unit row : Nat) : Still s (wedge s cause unit row) := by
  have hreq : ∀ v : State, Still v (requestService v) := fun v =>
    (still_putF v (a := DEV_STATUS) (by decide) ..).trans (still_of rfl rfl rfl rfl rfl)
  unfold wedge
  split
  · exact .refl s
  · exact ((((still_makeRecord ..).trans (still_putF _ (by decide) ..)).trans (still_putF _ (by decide) ..)).trans (hreq _)).trans
      (still_putF _ (by decide) ..)

theorem still_settleHalt : Still s (settleHalt s) := by
  have hjob : ∀ (v : State) (j : Option Job), Still v { v with job := j } := fun _ _ => still_of rfl rfl rfl rfl rfl
  unfold settleHalt
  split
  · exact (still_putF s (by decide) ..).trans (hjob ..)
  · exact .refl s

theorem still_floodHalt (reason : Nat) : Still s (floodHalt s reason) := by
  have hseen : ∀ v : State, Still v { v with surv := { v.surv with haltSeen := true } } := fun _ => still_of rfl rfl rfl rfl rfl
  exact ((Still.foldl (fun t c => still_sendRelation t c kHalt reason (survMgen t) [] []) _ _).trans (hseen _)).trans (still_settleHalt _)

theorem still_haltJob (reason node row : Nat) : Still s (haltJob s reason node row) := by
  unfold haltJob
  dsimp only
  refine Still.trans ?_ (still_postNotice ..)
  split
  · exact still_floodHalt ..
  · exact still_sendInbox ..

theorem still_rowFailed (row : Nat) : Still s (rowFailed s row) := by
  unfold rowFailed
  split
  · split
    · exact still_wedge ..
    · exact .refl s
  · exact still_haltJob ..

theorem still_settleRows : Still s (settleRows s) :=
  Still.trans (t := { s with surv := { s.surv with failedRows := [] } }) (still_of rfl rfl rfl rfl rfl) (Still.foldl still_rowFailed _ _)

/-! ## The whole fabric -/

theorem still_pumpStream : Still s (pumpStream s) := by
  unfold pumpStream
  split
  · exact .refl s
  · split
    · exact .refl s
    · have hstream : ∀ (v : State) (x : Option Stream), Still v { v with coll := { v.coll with stream := x } } :=
        fun _ _ => still_of rfl rfl rfl rfl rfl
      exact ((touched_memRead ..).still.trans (hstream ..)).trans (still_roceIssue ..)

end

section
variable {s t : State}

/-- No fabric instruction waits, no collective runs, and the device has no partner. -/
structure FabricRests (s : State) : Prop where
  cores : Resting s
  insts : s.coll.insts = []
  partner : s.surv.partner = none

theorem fabricRests_of_fabCalm (h : fabCalm s = true) : FabricRests s := by
  simp only [fabCalm, Bool.and_eq_true, List.isEmpty_iff, Option.isNone_iff_eq_none] at h
  obtain ⟨⟨⟨⟨hc, hi⟩, -⟩, hp⟩, -⟩ := h
  exact ⟨resting_of_all (by simpa using hc), hi, hp⟩

theorem FabricRests.still (h : FabricRests s) (hs : Still s t) : FabricRests t :=
  ⟨h.cores.calmer hs.cores, hs.insts.trans h.insts, hs.partner.trans h.partner⟩

theorem still_settleFabric (h : FabricRests s) : Still s (settleFabric s) := by
  have h1 := (still_settlePauses s).trans (still_reportUnreached _)
  have h2 := (h1.trans (still_settleCopy (h.still h1).partner)).trans (still_settleRows _)
  unfold settleFabric
  generalize settleRows (settleCopy (reportUnreached (settlePauses s))) = u at h2
  have hpoll : pollColl u = pumpStream u := by rw [pollColl, (h.still h2).insts, List.foldl_nil]
  have h3 := h2.trans (still_pumpStream u)
  rw [hpoll, pumpFabrics_resting (h.still h3).cores]
  exact h3

/-! ## A port goes down (R289, R303) -/

theorem still_resendAll (s : State) (node : Nat) (lowest : Option Nat) : Still s (resendAll s node lowest) := by
  unfold resendAll
  dsimp only
  exact (still_setDst ..).trans (Still.foldl (fun t (r : TxReq) => (still_sendOn t ..).trans (still_satF _ (by decide) ..)) _ _)

theorem still_movePath (s : State) (node : Nat) : Still s (movePath s node) := by
  unfold movePath
  dsimp only
  refine (still_satF s (a := FAB_CNT1) (by decide) FAB_CNT1_REROUTES 1).trans ?_
  split
  · exact (still_setDst ..).trans (still_resendAll ..)
  · exact (still_setDst ..).trans (still_unreachable ..)

theorem still_failPortPath (p : Nat) (s : State) (node : Nat) : Still s (failPortPath p s node) := by
  unfold failPortPath
  split
  · exact .refl s
  · dsimp only
    split
    · exact still_movePath ..
    · exact still_setDst ..

end

end Sys2Proof.Machine
end

section
/-! PROOFS. Trips and tests (O50): the thermal trip, thermal cycles and the wear record (R403 to R405), the rotating self-test and RUN
(R406), and the queued tests (R408). -/

namespace Sys2Proof.Machine

/-! ## The trip (R403) -/

section
variable {s t : State}

/-- The device asks for service as wedged, and fences itself. -/
def wedgeStands (s : State) : State := selfFence (serviceStanding (putF s DEV_STATUS DEV_STATUS_WEDGED 1))

/-- What such a device shows. -/
structure Stopped (s t : State) : Prop where
  wedged : flag t DEV_STATUS DEV_STATUS_WEDGED = true
  fenced : fenced t = true
  svc : t.pins.svcReq = true
  trip : t.pins.thermTrip = s.pins.thermTrip
  mem : t.mem = s.mem
  recorder : t.recorder = s.recorder

theorem stopped_wedgeStands (s : State) : Stopped s (wedgeStands s) := by
  have hst : ∀ v : State, (serviceStanding v).recorder = (putF v SURV_STATUS SURV_STATUS_SVC 1).recorder ∧
      (serviceStanding v).mem = (putF v SURV_STATUS SURV_STATUS_SVC 1).mem ∧
      (serviceStanding v).pins.thermTrip = (putF v SURV_STATUS SURV_STATUS_SVC 1).pins.thermTrip := fun _ => ⟨rfl, rfl, rfl⟩
  obtain ⟨hr, hm, hp⟩ := hst (putF s DEV_STATUS DEV_STATUS_WEDGED 1)
  unfold wedgeStands selfFence
  refine ⟨?_, flag_putF_one (by decide) (by decide) .., ?_, ?_, ?_, ?_⟩
  · rw [flag_putF_ne (by decide), flag_serviceStanding (by decide) (by decide) (by decide)]
    exact flag_putF_one (by decide) (by decide) ..
  · rw [putF_pins]; exact pins_serviceStanding _
  · rw [putF_pins, hp, putF_pins, putF_pins]
  · rw [putF_mem, hm, putF_mem, putF_mem]
  · rw [putF_recorder, hr, putF_recorder, putF_recorder]

theorem Stopped.of_frame {u : State} (h : Stopped s t) (hr : u.regs = t.regs) (hp : u.pins = t.pins) (hm : u.mem = t.mem)
    (hc : u.recorder = t.recorder) : Stopped s u :=
  ⟨(flag_congr hr _ _).trans h.wedged, (flag_congr hr _ _).trans h.fenced, by rw [hp, h.svc], by rw [hp, h.trip], hm.trans h.mem,
    hc.trans h.recorder⟩

/-- The cores lose their state. -/
def tripEnds (s : State) : State := noteIdle (coresLost (modTherm s fun t => { t with trip := true }))

theorem tripEnds_frame (s : State) : (tripEnds s).regs = s.regs ∧ (tripEnds s).pins = s.pins ∧ (tripEnds s).mem = s.mem ∧
    (tripEnds s).recorder = s.recorder := by
  unfold tripEnds noteIdle
  split <;> exact ⟨rfl, rfl, rfl, rfl⟩

/-- The trip is on the pin and on record. -/
def tripNoted (s : State) (sensor reading : Nat) : State :=
  let t := makeRecord { s with pins := { s.pins with thermTrip := true } } srcSmith 0x403 [w64 sensor]
  writeRecord t areaTrip (tripBody t sensor reading)

theorem tripNoted_shows (s : State) (sensor reading : Nat) : (tripNoted s sensor reading).pins.thermTrip = true ∧
    (tripNoted s sensor reading).mem = s.mem ∧
    (tripNoted s sensor reading).recorder = (makeRecord s srcSmith 0x403 [w64 sensor]).recorder := by
  have hrec : (makeRecord { s with pins := { s.pins with thermTrip := true } } srcSmith 0x403 [w64 sensor]).recorder =
      (makeRecord s srcSmith 0x403 [w64 sensor]).recorder :=
    makeRecord_recorder_congr (s := s) (t := { s with pins := { s.pins with thermTrip := true } }) rfl rfl rfl _ _ _
  have hmem := makeRecord_mem { s with pins := { s.pins with thermTrip := true } } srcSmith 0x403 [w64 sensor]
  have hpin := makeRecord_pins { s with pins := { s.pins with thermTrip := true } } srcSmith 0x403 [w64 sensor]
  unfold tripNoted
  dsimp only
  generalize makeRecord { s with pins := { s.pins with thermTrip := true } } srcSmith 0x403 [w64 sensor] = v at hrec hmem hpin
  rw [writeRecord_frame]
  exact ⟨congrArg Pins.thermTrip hpin, hmem, hrec⟩

theorem thermalTrip_eq (ht : s.therm.trip = false) (hr : s.boot.running = true) (sensor reading : Nat) :
    thermalTrip s sensor reading = tripEnds (wedgeStands (tripNoted s sensor reading)) := if_neg (by simp [ht, hr])

theorem thermalTrip_stops (ht : s.therm.trip = false) (hr : s.boot.running = true) (sensor reading : Nat) :
    Stopped (tripNoted s sensor reading) (thermalTrip s sensor reading) := by
  rw [thermalTrip_eq ht hr]
  obtain ⟨h1, h2, h3, h4⟩ := tripEnds_frame (wedgeStands (tripNoted s sensor reading))
  exact (stopped_wedgeStands _).of_frame h1 h2 h3 h4

/-! ## Thermal cycles (R404, R405) -/

theorem countHot_cool {x : Int} (h : x ≤ celsius 85) (s : State) : countHot s x = s := if_pos h

/-- The sample of a rising swing that goes on, and of one that turns. -/
theorem cycleSample_rises {x : Int} (hv : s.therm.valid = true) (hu : s.therm.up = true) (he : s.therm.ext ≤ x) (hc : s.therm.cand < x) :
    cycleSample s x = setCycle s true s.therm.ext x := by
  unfold cycleSample
  dsimp only
  rw [if_neg (by simp [hv]), if_pos hu, if_neg (by omega), if_pos hc]

theorem cycleSample_turns {x : Int} (hv : s.therm.valid = true) (hu : s.therm.up = true) (he : s.therm.ext ≤ x)
    (hc : celsius 20 ≤ s.therm.cand - x) : cycleSample s x = countSwing (setCycle s false s.therm.cand x) (s.therm.cand - s.therm.ext) := by
  have hlt : ¬ s.therm.cand < x := by have h20 : celsius 20 = 320 := rfl; omega
  unfold cycleSample
  dsimp only
  rw [if_neg (by simp [hv]), if_pos hu, if_neg (by omega), if_neg hlt, if_pos hc]

theorem cyc_ne {b c : Nat} (h : c ≠ b) : THM_CYC c ≠ THM_CYC b := by unfold THM_CYC; omega

theorem cyc_ne_life {b : Nat} (h : b < 6) : THM_CYC b ≠ THM_LIFE := by unfold THM_CYC THM_LIFE; omega

theorem halfCycles_eq (s : State) (b : Nat) : halfCycles s b = getF s (THM_CYC b) THM_CYC_HALF := by
  have h := (getR s (THM_CYC b)).isLt
  have hget : getF s (THM_CYC b) THM_CYC_HALF = (getR s (THM_CYC b)).toNat / 2 ^ 0 % 2 ^ 32 := rfl
  rw [hget, Nat.pow_zero, Nat.div_one, Nat.mod_eq_of_lt h, halfCycles]

theorem swingBin_lt {a b : Nat} (h : swingBin a = some b) : b < 6 := by
  unfold swingBin at h
  split at h
  · cases h
  · injection h with h; omega

theorem halfCycles_congr (h : t.regs = s.regs) (b : Nat) : halfCycles t b = halfCycles s b := by rw [halfCycles, getR_congr h, halfCycles]

theorem lifeUsed_congr (h : ∀ b, b < 6 → halfCycles t b = halfCycles s b) : lifeUsed t = lifeUsed s := by
  simp only [lifeUsed, ratedCycles, List.zipIdx_cons, List.zipIdx_nil, List.map_cons, List.map_nil, h 0 (by decide), h (0 + 1) (by decide),
    h (0 + 1 + 1) (by decide), h (0 + 1 + 1 + 1) (by decide), h (0 + 1 + 1 + 1 + 1) (by decide), h (0 + 1 + 1 + 1 + 1 + 1) (by decide)]

/-- USED follows the counts, which stay; of the rest the record of R405 alone is new. -/
structure LifeSettled (s t : State) : Prop where
  counts : ∀ b, b < 6 → halfCycles t b = halfCycles s b
  used : getF t THM_LIFE THM_LIFE_USED = min 0xFFFF (lifeUsed t)
  up : t.therm.up = s.therm.up
  ext : t.therm.ext = s.therm.ext
  cand : t.therm.cand = s.therm.cand

theorem LifeSettled.of_frame {u : State} (h : LifeSettled s t) (hr : u.regs = t.regs) (h1 : u.therm.up = t.therm.up)
    (h2 : u.therm.ext = t.therm.ext) (h3 : u.therm.cand = t.therm.cand) : LifeSettled s u where
  counts b hb := (halfCycles_congr hr b).trans (h.counts b hb)
  used := by rw [getF_congr hr, h.used, lifeUsed_congr fun b _ => halfCycles_congr hr b]
  up := h1.trans h.up
  ext := h2.trans h.ext
  cand := h3.trans h.cand

theorem lifeSettled_put (s : State) : LifeSettled s (putF s THM_LIFE THM_LIFE_USED (min 0xFFFF (lifeUsed s))) := by
  have hcyc : ∀ b, b < 6 → halfCycles (putF s THM_LIFE THM_LIFE_USED (min 0xFFFF (lifeUsed s))) b = halfCycles s b := fun b hb => by
    rw [halfCycles, getR_putF_ne (cyc_ne_life hb), halfCycles]
  have hlt : min 0xFFFF (lifeUsed s) < 2 ^ 16 := by omega
  refine ⟨hcyc, ?_, by rw [putF_therm], by rw [putF_therm], by rw [putF_therm]⟩
  rw [getF_putF (by decide) (by decide), lifeUsed_congr hcyc]
  exact Nat.mod_eq_of_lt hlt

theorem lifeSettled_settleLife (s : State) : LifeSettled s (settleLife s) := by
  have hput := lifeSettled_put s
  unfold settleLife
  dsimp only
  generalize putF s THM_LIFE THM_LIFE_USED (min 0xFFFF (lifeUsed s)) = v at hput
  split
  · exact hput.of_frame (makeRecord_regs ..) (by rw [makeRecord_therm, modTherm]) (by rw [makeRecord_therm, modTherm])
      (by rw [makeRecord_therm, modTherm])
  · exact hput

/-- One half cycle more in the bin of a swing. -/
def halfCounted (s : State) (b : Nat) : State := satF s (THM_CYC b) THM_CYC_HALF 1

theorem halfCycles_halfCounted (s : State) (b : Nat) : halfCycles (halfCounted s b) b = min (2 ^ 32 - 1) (halfCycles s b + 1) := by
  rw [halfCycles_eq, halfCycles_eq, halfCounted, getF_satF (by decide) (by decide)]
  rfl

theorem halfCycles_halfCounted_ne {b c : Nat} (h : c ≠ b) (s : State) : halfCycles (halfCounted s b) c = halfCycles s c := by
  rw [halfCycles, halfCounted, satF, getR_putF_ne (cyc_ne h), halfCycles]

/-- What a swing that ends leaves. -/
structure SwingEnded (s t : State) (b : Nat) : Prop where
  counted : halfCycles t b = min (2 ^ 32 - 1) (halfCycles s b + 1)
  others : ∀ c, c < 6 → c ≠ b → halfCycles t c = halfCycles s c
  used : getF t THM_LIFE THM_LIFE_USED = min 0xFFFF (lifeUsed t)
  up : t.therm.up = s.therm.up
  ext : t.therm.ext = s.therm.ext
  cand : t.therm.cand = s.therm.cand

theorem countSwing_ends {a : Int} {b : Nat} (h : swingBin (a / 16).toNat = some b) (s : State) : SwingEnded s (countSwing s a) b := by
  have hl := lifeSettled_settleLife (halfCounted s b)
  have hth : (halfCounted s b).therm = s.therm := putF_therm ..
  have hgo : countSwing s a = settleLife (halfCounted s b) := by rw [countSwing, h, halfCounted]
  rw [hgo]
  exact
    { counted := (hl.counts b (swingBin_lt h)).trans (halfCycles_halfCounted s b)
      others := fun c hc hne => (hl.counts c hc).trans (halfCycles_halfCounted_ne hne s)
      used := hl.used
      up := by rw [hl.up, hth]
      ext := by rw [hl.ext, hth]
      cand := by rw [hl.cand, hth] }

/-- The sample is taken. -/
def sampleTaken (s : State) : State := modTherm s fun t => { t with cycleAt := some s.now }

theorem thermalCycleSample_cool {x : BitVec 16} (hd : dueAfter s 10000000 s.therm.cycleAt = true) (hx : x.toInt ≤ celsius 85) :
    exec (.thermalCycleSample x) s = .next (cycleSample (sampleTaken s) x.toInt) := by
  have hgo : exec (.thermalCycleSample x) s = .next (if dueAfter s 10000000 s.therm.cycleAt then
    cycleSample (countHot (sampleTaken s) x.toInt) x.toInt else s) := rfl
  rw [hgo, if_pos hd, countHot_cool hx]

theorem thermalCycleSample_early {x : BitVec 16} (hd : dueAfter s 10000000 s.therm.cycleAt = false) :
    exec (.thermalCycleSample x) s = .next s := by
  have hgo : exec (.thermalCycleSample x) s = .next (if dueAfter s 10000000 s.therm.cycleAt then
    cycleSample (countHot (sampleTaken s) x.toInt) x.toInt else s) := rfl
  rw [hgo, if_neg (by simp [hd])]

/-! ## The wear record (R405) -/

theorem wearRecordWrite_due (hd : s.therm.wearDirty = true) (ha : s.therm.wearAt = none) (hb : s.boot.slotBusy = none) :
    wearRecordWrite s = modTherm (writeRecord s areaWear (wearBody s)) fun t =>
      { t with wearDirty := false, wearAt := some s.now } := by
  unfold wearRecordWrite
  rw [ha]
  exact if_pos (by simp [hd, hb])

end

/-! ## Tests of domains (R27, R406) -/

section
variable {s t : State} {u : Nat}

theorem any_congr_mem {α : Type} {l : List α} {p q : α → Bool} (h : ∀ x ∈ l, p x = q x) : l.any p = l.any q := by
  rw [Bool.eq_iff_iff, List.any_eq_true, List.any_eq_true]
  exact exists_congr fun x => and_congr_right fun hx => by rw [h x hx]

theorem all_congr_mem {α : Type} {l : List α} {p q : α → Bool} (h : ∀ x ∈ l, p x = q x) : l.all p = l.all q := by
  rw [Bool.eq_iff_iff, List.all_eq_true, List.all_eq_true]
  exact forall_congr' fun x => imp_congr_right fun hx => by rw [h x hx]

/-- What R26 asks of a domain is decided by the states of its half and the cores retired. -/
theorem wouldStrand_congr (hu : u < 16) (hd : ∀ d, d < 8 → domState t (8 * (u / 8) + d) = domState s (8 * (u / 8) + d))
    (hr : ∀ i, i < 128 → coreRetired t i = coreRetired s i) : wouldStrand t u = wouldStrand s u := by
  have hserve : ∀ h ∈ hearthsOfHalf (u / 8), ∀ i ∈ hearthCoreIds h, inService t i = inService s i := by
    intro h hh i hi
    obtain ⟨a, ha, rfl⟩ := List.mem_map.1 hh
    obtain ⟨b, hb, rfl⟩ := List.mem_map.1 hi
    have ha' := List.mem_range.1 ha
    have hb' := List.mem_range.1 hb
    have hdom : domOf (coreOf (8 * (u / 8) + a) b) = 8 * (u / 8) + b := by simp only [domOf, coreOf]; omega
    rw [inService, hdom, hd b hb', hr _ (by simp only [coreOf]; omega), inService, hdom]
  unfold wouldStrand
  refine any_congr_mem fun h hh => ?_
  rw [hearthInService, any_congr_mem (hserve h hh), hearthInService, all_congr_mem fun i hi => by rw [hserve h hh i hi]]

theorem DomainsOnly.coreRetired (h : DomainsOnly s t) (i : Nat) (hi : i < 128) : coreRetired t i = coreRetired s i := by
  have hne : DEV_CORE_RETIRED (i / 32) ∉ [DEV_DOM_STATE] := by
    rw [List.mem_singleton]
    unfold DEV_CORE_RETIRED DEV_DOM_STATE
    omega
  unfold Sys2Proof.Machine.coreRetired
  rw [h.regs _ hne]

theorem testRuns_congr {half : Nat} (h : ∀ d, d < 8 → domState t (8 * half + d) = domState s (8 * half + d) ∧
    domainAt t (8 * half + d) = domainAt s (8 * half + d)) : testRuns t half = testRuns s half := by
  unfold testRuns
  refine any_congr_mem fun d hd => ?_
  obtain ⟨hs, ha⟩ := h d (List.mem_range.1 hd)
  rw [hs, ha]

theorem testRuns_of_target {half d : Nat} (hd : d < 8) (h : (domainAt t (8 * half + d)).target = some .test) : testRuns t half = true :=
  List.any_eq_true.2 ⟨d, List.mem_range.2 hd, by simp [h]⟩

theorem inTransition_congr (hs : domState t u = domState s u) (ha : domainAt t u = domainAt s u) : inTransition t u = inTransition s u := by
  rw [inTransition, hs, ha, inTransition]

/-- A test of an On domain whose half runs none begins with the domain leaving. -/
theorem startTest_leaves (hd : domState s u = domOn) (hr : testRuns s (u / 8) = false) (hw : wouldStrand s u = false) :
    startCmd s u .test = domMoved s u domLeaving fun x => { x with target := some .test } := by
  have hoff : ¬ domState s u = domOff := by rw [hd]; decide
  have hon : ¬ (domState s u != domOn) = true := by simp [hd]
  refine (if_neg (by rw [hr]; exact Bool.false_ne_true)).trans ((if_neg hoff).trans ((if_neg hon).trans ?_))
  exact if_neg (by rw [hw]; exact Bool.false_ne_true)

theorem startTest_waits (hr : testRuns s (u / 8) = true) : startCmd s u .test = addPending s u .test := if_pos hr

theorem domCommand_now (hq : quenched s = false) (ht : inTransition s u = false) (c : DomCmd) : domCommand s u c = startCmd s u c :=
  if_neg (by simp [hq, ht])

/-! ### RUN -/

/-- A domain after RUN: the first of each half leaves for its test, and the others wait. -/
def runTarget (u : Nat) (d : Domain) : Domain :=
  if u % 8 = 0 then { d with target := some .test } else { d with pending := [.test] }

/-- The first `n` domains have taken RUN. -/
structure RunTaken (s t : State) (n : Nat) : Prop where
  only : DomainsOnly s t
  taken : ∀ u, u < 16 → u < n → domState t u = (if u % 8 = 0 then domLeaving else domOn) ∧ domainAt t u = runTarget u (domainAt s u)
  rest : ∀ u, u < 16 → n ≤ u → domState t u = domState s u ∧ domainAt t u = domainAt s u

/-- What RUN finds: every domain On with nothing waiting, and no test or hold in either half. -/
structure RunReady (s : State) : Prop where
  count : s.domains.length = 16
  quench : quenched s = false
  quiet : domQuiet s = true
  on : ∀ u, u < 16 → domState s u = domOn ∧ inTransition s u = false
  tests : ∀ half, half < 2 → testRuns s half = false
  strand : ∀ half, half < 2 → wouldStrand s (8 * half) = false

theorem RunTaken.ready_first {n : Nat} (h : RunTaken s t n) (hs : RunReady s) (hn : n < 16) (h8 : n % 8 = 0) :
    domCommand t n .test = domMoved t n domLeaving fun x => { x with target := some .test } := by
  obtain ⟨hon, htr⟩ := hs.on n hn
  obtain ⟨hst, hat⟩ := h.rest n hn le_rfl
  have hhalf : 8 * (n / 8) = n := by omega
  have hrest : ∀ d, d < 8 → domState t (8 * (n / 8) + d) = domState s (8 * (n / 8) + d) ∧
      domainAt t (8 * (n / 8) + d) = domainAt s (8 * (n / 8) + d) := fun d hd => h.rest _ (by omega) (by omega)
  have hq : quenched t = false := (quenched_congr (by rw [h.only.frame])).trans hs.quench
  rw [domCommand_now hq ((inTransition_congr hst hat).trans htr)]
  refine startTest_leaves (hst.trans hon) ((testRuns_congr hrest).trans (hs.tests _ (by omega))) ?_
  rw [wouldStrand_congr hn (fun d hd => (hrest d hd).1) h.only.coreRetired]
  have hw := hs.strand (n / 8) (by omega)
  rwa [hhalf] at hw

theorem RunTaken.ready_other {n : Nat} (h : RunTaken s t n) (hs : RunReady s) (hn : n < 16) (h8 : n % 8 ≠ 0) :
    domCommand t n .test = addPending t n .test := by
  obtain ⟨-, htr⟩ := hs.on n hn
  obtain ⟨hst, hat⟩ := h.rest n hn le_rfl
  have hq : quenched t = false := (quenched_congr (by rw [h.only.frame])).trans hs.quench
  have hfirst : (domainAt t (8 * (n / 8) + 0)).target = some .test := by
    rw [(h.taken _ (by omega) (by omega)).2, runTarget, if_pos (by omega)]
  rw [domCommand_now hq ((inTransition_congr hst hat).trans htr)]
  exact startTest_waits (testRuns_of_target (by decide) hfirst)

theorem runTaken_zero (s : State) : RunTaken s s 0 :=
  ⟨.refl s, fun _ _ h => absurd h (Nat.not_lt_zero _), fun _ _ _ => ⟨rfl, rfl⟩⟩

/-- One more domain is changed, and the others stay. -/
theorem RunTaken.succ {v : State} {n : Nat} (h : RunTaken s t n) (hn : n < 16) (hv : DomainsOnly t v)
    (hs : domState v n = if n % 8 = 0 then domLeaving else domOn) (ha : domainAt v n = runTarget n (domainAt t n))
    (ho : ∀ o, o < 16 → o ≠ n → domState v o = domState t o ∧ domainAt v o = domainAt t o) : RunTaken s v (n + 1) where
  only := h.only.trans hv
  taken u hu hlt := by
    by_cases hun : u = n
    · subst hun
      exact ⟨hs, by rw [ha, (h.rest u hu le_rfl).2]⟩
    · obtain ⟨h1, h2⟩ := ho u hu hun
      obtain ⟨h3, h4⟩ := h.taken u hu (by omega)
      exact ⟨h1.trans h3, h2.trans h4⟩
  rest u hu hle := by
    obtain ⟨h1, h2⟩ := ho u hu (by omega)
    obtain ⟨h3, h4⟩ := h.rest u hu (by omega)
    exact ⟨h1.trans h3, h2.trans h4⟩

theorem RunTaken.step {n : Nat} (h : RunTaken s t n) (hs : RunReady s) (hn : n < 16) : RunTaken s (domCommand t n .test) (n + 1) := by
  have hcount : t.domains.length = 16 := h.only.count.trans hs.count
  by_cases h8 : n % 8 = 0
  · rw [h.ready_first hs hn h8]
    obtain ⟨h1, h2⟩ := domMoved_shows hn hcount (v := domLeaving) (by decide) fun x => { x with target := some .test }
    exact h.succ hn (domainsOnly_domMoved ..) (h1.trans (if_pos h8).symm) (h2.trans (if_pos h8).symm)
      fun o ho hne => domMoved_other ho hne ..
  · rw [h.ready_other hs hn h8]
    obtain ⟨hst, hat⟩ := h.rest n hn le_rfl
    have hp := (domQuiet_at hs.quiet n).1
    refine h.succ hn (domainsOnly_modDomain ..) ?_ ?_ fun o _ hne => ⟨domState_modDomain .., domainAt_modDomain_ne hne ..⟩
    · rw [if_neg h8, addPending, domState_modDomain, hst, (hs.on n hn).1]
    · rw [addPending, domainAt_modDomain (by omega), runTarget, if_neg h8, hat, hp]
      rfl

theorem runTaken_all (hs : RunReady s) (n : Nat) (hn : n ≤ 16) :
    RunTaken s ((List.range n).foldl (fun t u => domCommand t u .test) s) n := by
  induction n with
  | zero => exact runTaken_zero s
  | succ n ih =>
    rw [List.range_succ, List.foldl_append, List.foldl_cons, List.foldl_nil]
    exact (ih (by omega)).step hs (by omega)

/-- Under a quench RUN waits at each of the first `n` domains. -/
structure RunWaits (s t : State) (n : Nat) : Prop where
  frame : t = { s with domains := t.domains }
  count : t.domains.length = s.domains.length
  waits : ∀ u, u < n → DomCmd.test ∈ (domainAt t u).pending

theorem RunWaits.step {n : Nat} (h : RunWaits s t n) (hq : quenched s = true) (hn : n < s.domains.length) :
    RunWaits s (domCommand t n .test) (n + 1) := by
  have hqt : quenched t = true := (quenched_congr (by rw [h.frame])).trans hq
  have hgo : domCommand t n .test = addPending t n .test := if_pos (by simp [hqt])
  rw [hgo]
  refine ⟨?_, (modDomain_count ..).trans h.count, fun u hu => ?_⟩
  · rw [addPending, modDomain_frame, h.frame]
  · by_cases hun : u = n
    · subst hun
      exact mem_addPending (by rw [h.count]; exact hn) _
    · rw [addPending, domainAt_modDomain_ne hun]
      exact h.waits u (by omega)

theorem runWaits_all (hq : quenched s = true) (n : Nat) (hn : n ≤ s.domains.length) :
    RunWaits s ((List.range n).foldl (fun t u => domCommand t u .test) s) n := by
  induction n with
  | zero => exact ⟨rfl, rfl, fun _ h => absurd h (Nat.not_lt_zero _)⟩
  | succ n ih =>
    rw [List.range_succ, List.foldl_append, List.foldl_cons, List.foldl_nil]
    exact (ih (by omega)).step hq (by omega)

theorem runBy_allowed {agent : Nat} (h : mayWrite s agent PWR_TEST = true) : runBy s agent = runAll s := if_pos h

/-! ### The rotation -/

/-- The rotation moves on. -/
def rotated (s : State) (half : Nat) : State :=
  modPower s fun p => { p with rot := p.rot.set half (((rotAt s half).1 + 1) % 8, s.now) }

theorem rotateTest_due {half : Nat} (hp : getF s PWR_TEST PWR_TEST_PERIOD ≠ 0) (hb : s.boot.step = 8)
    (hg : rotationGap s ≤ s.now - (rotAt s half).2) :
    rotateTest s half = domCommand (rotated s half) (8 * half + (rotAt s half).1) .test :=
  if_neg (by simp only [hp, hb, bne_self_eq_false, decide_false, Bool.false_or, Bool.or_false, decide_eq_true_eq]; omega)

theorem rotAt_rotated {half : Nat} (h : half < s.power.rot.length) : rotAt (rotated s half) half = (((rotAt s half).1 + 1) % 8, s.now) := by
  simp [rotAt, rotated, modPower, List.getD_eq_getElem?_getD, h]

theorem rotateTest_leaves {half : Fin 2} {u : DomId} (hz : sized s = true) (hp : getF s PWR_TEST PWR_TEST_PERIOD ≠ 0)
    (hb : s.boot.step = 8) (hg : rotationGap s ≤ s.now - (rotAt s half.val).2) (hlt : (rotAt s half.val).1 < 8)
    (hu : u.val = 8 * half.val + (rotAt s half.val).1) (hq : quenched s = false) (hr : testRuns s half.val = false)
    (hd : domState s u = domOn) (ht : inTransition s u = false) (hw : wouldStrand s u = false) (hl : s.power.rot.length = 2) :
    domState (rotateTest s half.val) u = domLeaving ∧ (domainAt (rotateTest s half.val) u).target = some .test ∧
      otherDoms s (rotateTest s half.val) u ∧ rotAt (rotateTest s half.val) half.val = (((rotAt s half.val).1 + 1) % 8, s.now) := by
  have hregs : (rotated s half.val).regs = s.regs := rfl
  have hdoms : (rotated s half.val).domains = s.domains := rfl
  have hst : ∀ w, domState (rotated s half.val) w = domState s w := domState_congr hregs
  have hat : ∀ w, domainAt (rotated s half.val) w = domainAt s w := domainAt_congr hdoms
  have hrot := rotAt_rotated (s := s) (half := half.val) (by omega)
  have hhalf : u.val / 8 = half.val := by omega
  have hqr : quenched (rotated s half.val) = false := hq
  have hret : ∀ i, i < 128 → coreRetired (rotated s half.val) i = coreRetired s i := fun i _ => by
    rw [coreRetired, getR_congr hregs, coreRetired]
  have hruns : testRuns (rotated s half.val) (u.val / 8) = false := by
    rw [hhalf, testRuns_congr fun d _ => ⟨hst _, hat _⟩, hr]
  have hstrand : wouldStrand (rotated s half.val) u.val = false := (wouldStrand_congr u.isLt (fun d _ => hst _) hret).trans hw
  have hgo : rotateTest s half.val = domMoved (rotated s half.val) u domLeaving fun x => { x with target := some .test } := by
    rw [rotateTest_due hp hb hg, ← hu, domCommand_now hqr ((inTransition_congr (hst _) (hat _)).trans ht)]
    exact startTest_leaves ((hst _).trans hd) hruns hstrand
  rw [hgo]
  generalize rotated s half.val = v at hdoms hst hat hrot
  obtain ⟨h1, h2⟩ := domMoved_shows u.isLt (by rw [hdoms, sized_domains hz]) (s := v) (v := domLeaving) (by decide)
    fun x => { x with target := some .test }
  refine ⟨h1, by rw [h2], fun w hne => ?_, ?_⟩
  · obtain ⟨h3, h4⟩ := domMoved_other w.isLt hne v domLeaving fun x => { x with target := some .test }
    exact ⟨h3.trans (hst _), h4.trans (hat _)⟩
  · rw [← hrot, rotAt, (domainsOnly_domMoved ..).frame, rotAt]

end

/-! ## Tests of ports and margins (R408) -/

section
variable {s t : State}

/-- A port that goes down while nothing waits for the fabric: its link is down and no test is queued or chosen anew. -/
structure PortFell (s t : State) (p : PortId) : Prop where
  count : t.ports.length = s.ports.length
  down : flag t (PRT_STATUS p.val) PRT_STATUS_LINK_UP = false
  chosen : getF t PWR_TEST PWR_TEST_PORT = getF s PWR_TEST PWR_TEST_PORT
  tests : t.queuedTests = s.queuedTests

/-- The loss of the link is counted and on record. -/
def linkLost (s : State) (p : PortId) : State :=
  satF (makeRecord s (srcPort p.val) 0x200 [w64 (getR s (PRT_STATUS p.val)).toNat]) (PRT_LINKDN p.val) PRT_LINKDN_DOWN 1

/-- The port shows no link, pauses nothing, and its connections move on. -/
def portDark (s : State) (p : PortId) (lanes : Nat) : State :=
  let t := setR s (PRT_STATUS p.val) (BitVec.ofNat 32 (lanes % 16 * 16))
  let t := setPort t p.val { (portAt t p.val) with paused := 0, pausing := 0, held := [] }
  { t with conns := t.conns.map (moveConn t p) }

theorem takePortDown_eq {p : PortId} (h : flag s (PRT_STATUS p.val) PRT_STATUS_LINK_UP = true) (lanes : Nat) : takePortDown s p lanes =
    settleFabric ((pathNodes (portDark (linkLost s p) p lanes)).foldl (failPortPath p.val) (portDark (linkLost s p) p lanes)) :=
  if_neg (by simp [h])

theorem portDark_frame (s : State) (p : PortId) (lanes : Nat) : (portDark s p lanes).cores = s.cores ∧ (portDark s p lanes).coll = s.coll ∧
    (portDark s p lanes).surv = s.surv ∧ (portDark s p lanes).queuedTests = s.queuedTests ∧
    (portDark s p lanes).regs = (setR s (PRT_STATUS p.val) (BitVec.ofNat 32 (lanes % 16 * 16))).regs := ⟨rfl, rfl, rfl, rfl, rfl⟩

theorem flag_portDark (s : State) (p : PortId) : flag (portDark s p 0) (PRT_STATUS p.val) PRT_STATUS_LINK_UP = false := by
  obtain ⟨-, -, -, -, hr⟩ := portDark_frame s p 0
  rw [flag_congr hr, flag, getF, getR_setR_self]
  rfl

theorem chosen_portDark (s : State) (p : PortId) (lanes : Nat) :
    getF (portDark s p lanes) PWR_TEST PWR_TEST_PORT = getF s PWR_TEST PWR_TEST_PORT := by
  have hne : PWR_TEST ≠ PRT_STATUS p.val := by unfold PWR_TEST PRT_STATUS; omega
  obtain ⟨-, -, -, -, hr⟩ := portDark_frame s p lanes
  rw [getF_congr hr, getF, getR_setR_ne hne, getF]

theorem chosen_linkLost (s : State) (p : PortId) : getF (linkLost s p) PWR_TEST PWR_TEST_PORT = getF s PWR_TEST PWR_TEST_PORT := by
  have hne : PWR_TEST ≠ PRT_LINKDN p.val := by unfold PWR_TEST PRT_LINKDN; omega
  rw [linkLost, satF, getF_putF_ne hne, getF_makeRecord]

theorem linkLost_frame (s : State) (p : PortId) : (linkLost s p).cores = s.cores ∧ (linkLost s p).coll = s.coll ∧
    (linkLost s p).surv = s.surv ∧ (linkLost s p).queuedTests = s.queuedTests := by
  unfold linkLost satF
  refine ⟨?_, ?_, ?_, ?_⟩
  · rw [putF_cores, makeRecord_cores]
  · rw [putF_coll, makeRecord_coll]
  · rw [putF_surv, makeRecord_surv]
  · rw [putF_queuedTests, makeRecord_queuedTests]

theorem FabricRests.congr (h : FabricRests s) (hc : t.cores = s.cores) (hi : t.coll = s.coll) (hp : t.surv = s.surv) : FabricRests t :=
  ⟨resting_congr hc h.cores, by rw [hi, h.insts], by rw [hp, h.partner]⟩

theorem takePortDown_fell (hz : sized s = true) (h : FabricRests s) (p : PortId) : PortFell s (takePortDown s p 0) p := by
  have hsized := ((Kept.refl s).takePortDown p 0).shaped hz
  have hcount : (takePortDown s p 0).ports.length = s.ports.length := by
    rw [(sized_iff.1 hsized).2.2.2.2.1, (sized_iff.1 hz).2.2.2.2.1]
  cases hup : flag s (PRT_STATUS p.val) PRT_STATUS_LINK_UP
  case false =>
    have hstay : takePortDown s p 0 = s := if_pos (by simp [hup])
    rw [hstay]
    exact ⟨rfl, hup, rfl, rfl⟩
  case true =>
    obtain ⟨hc1, hi1, hp1, hq1⟩ := linkLost_frame s p
    obtain ⟨hc2, hi2, hp2, hq2, -⟩ := portDark_frame (linkLost s p) p 0
    have hrest := (h.congr hc1 hi1 hp1).congr hc2 hi2 hp2
    have hchosen := (chosen_portDark (linkLost s p) p 0).trans (chosen_linkLost s p)
    have hdown := flag_portDark (linkLost s p) p
    have htests := hq2.trans hq1
    rw [takePortDown_eq hup] at hcount ⊢
    generalize portDark (linkLost s p) p 0 = v at hrest hchosen hdown htests hcount
    have hpaths := Still.foldl (still_failPortPath p.val) (pathNodes v) v
    have hstill := hpaths.trans (still_settleFabric (hrest.still hpaths))
    have hreg : ∀ a f, 0x50000 ≤ a → a < 0x68000 → getF (settleFabric ((pathNodes v).foldl (failPortPath p.val) v)) a f = getF v a f :=
      fun a f ha hb => by rw [getF, hstill.regs a ha hb, getF]
    have hp1 : 0x50000 ≤ PRT_STATUS p.val := by unfold PRT_STATUS; omega
    have hp2 : PRT_STATUS p.val < 0x68000 := by unfold PRT_STATUS; omega
    refine ⟨hcount, ?_, (hreg _ _ (by decide) (by decide)).trans hchosen, hstill.tests.trans htests⟩
    rw [flag, hreg _ _ hp1 hp2, ← flag]
    exact hdown

/-- The test of a port runs from then on. -/
theorem startPortTest_runs (hz : sized s = true) (h : FabricRests s) (p : PortId) :
    PortFell s (startPortTest s p) p ∧ (portAt (startPortTest s p) p.val).testing = true := by
  have hf := takePortDown_fell hz h p
  have hlen : p.val < (takePortDown s p 0).ports.length := by
    rw [hf.count, (sized_iff.1 hz).2.2.2.2.1]
    exact p.isLt
  unfold startPortTest
  dsimp only
  generalize takePortDown s p 0 = v at hf hlen
  have hregs : ∀ x, (setPort v p.val x).regs = v.regs := fun _ => rfl
  refine ⟨⟨?_, (flag_congr (hregs _) _ _).trans hf.down, (getF_congr (hregs _) _ _).trans hf.chosen, hf.tests⟩, ?_⟩
  · exact (List.length_set ..).trans hf.count
  · rw [portAt_setPort hlen]

/-- The port chosen is noted. -/
def portChosen (s : State) (p : PortId) : State := putF s PWR_TEST PWR_TEST_PORT p.val

theorem chosen_portChosen (s : State) (p : PortId) : getF (portChosen s p) PWR_TEST PWR_TEST_PORT = p.val := by
  rw [portChosen, getF_putF (by decide) (by decide)]
  exact Nat.mod_eq_of_lt p.isLt

theorem portChosen_frame (s : State) (p : PortId) : (portChosen s p).cores = s.cores ∧ (portChosen s p).coll = s.coll ∧
    (portChosen s p).surv = s.surv ∧ (portChosen s p).queuedTests = s.queuedTests ∧ (portChosen s p).ports = s.ports ∧
    (portChosen s p).job = s.job ∧ (portChosen s p).memctl = s.memctl := by
  unfold portChosen
  exact ⟨putF_cores .., putF_coll .., putF_surv .., putF_queuedTests .., putF_ports .., putF_job .., putF_memctl ..⟩

/-- The test waits in the queue. -/
def testQueued (s : State) (p : PortId) : State := { s with queuedTests := s.queuedTests ++ [some p] }

/-- A test that waits: nothing but the queue and the port chosen. -/
theorem testQueued_shows {p : PortId} {v : State} (hr : regsSameBut s v [PWR_TEST]) (hc : getF v PWR_TEST PWR_TEST_PORT = p.val)
    (hq : v.queuedTests = s.queuedTests) (hp : v.ports = s.ports) : regsSameBut s (testQueued v p) [PWR_TEST] ∧
      getF (testQueued v p) PWR_TEST PWR_TEST_PORT = p.val ∧ (testQueued v p).queuedTests = s.queuedTests ++ [some p] ∧
      (testQueued v p).ports = s.ports := by
  have hregs : (testQueued v p).regs = v.regs := rfl
  refine ⟨hr.of_regs hregs, (getF_congr hregs _ _).trans hc, ?_, hp⟩
  rw [testQueued, hq]

theorem regsSameBut_portChosen (s : State) (p : PortId) : regsSameBut s (portChosen s p) [PWR_TEST] := regsSameBut_putF _ _ _ _

theorem portTestBy_eq {agent : Nat} (h : mayWrite s agent PWR_TEST = true) (p : PortId) : portTestBy s agent p =
    if s.job.isNone && !testOn s && s.queuedTests.isEmpty then startPortTest (portChosen s p) p else testQueued (portChosen s p) p := by
  obtain ⟨-, -, -, hq, hp, hj, hm⟩ := portChosen_frame s p
  have hon : testOn (portChosen s p) = testOn s := by rw [testOn, hm, hp, testOn]
  have hgo : portTest s p = if (portChosen s p).job.isNone && !testOn (portChosen s p) && (portChosen s p).queuedTests.isEmpty
    then startPortTest (portChosen s p) p else testQueued (portChosen s p) p := rfl
  rw [portTestBy, if_pos h, hgo, hj, hon, hq]

theorem queuedTestRun_none {rest : List (Option PortId)} (ho : testOn s = false) (hq : quenched s = false) (hb : atBoundary s = true)
    (h : s.queuedTests = none :: rest) : queuedTestRun s = startRerun s := by
  unfold queuedTestRun
  rw [if_neg (by simp [ho, hq, hb]), h]

theorem queuedTestRun_port {p : PortId} {rest : List (Option PortId)} (ho : testOn s = false) (hq : quenched s = false)
    (hb : atBoundary s = true) (h : s.queuedTests = some p :: rest) :
    queuedTestRun s = startPortTest { s with queuedTests := rest } p := by
  unfold queuedTestRun
  rw [if_neg (by simp [ho, hq, hb]), h]

theorem portTestBy_queues {agent : Nat} {p : PortId} (hm : mayWrite s agent PWR_TEST = true)
    (h : s.job.isSome = true ∨ testOn s = true ∨ s.queuedTests ≠ []) : portTestBy s agent p = testQueued (portChosen s p) p := by
  have hno : ¬ (s.job.isNone && !testOn s && s.queuedTests.isEmpty) = true := by
    simp only [Bool.and_eq_true, Bool.not_eq_true', List.isEmpty_iff, Option.isNone_iff_eq_none, not_and]
    rintro ⟨hj, ho⟩ hq
    rcases h with h | h | h
    · rw [hj] at h; cases h
    · rw [ho] at h; cases h
    · exact h hq
  rw [portTestBy_eq hm, if_neg hno]

theorem portTestBy_starts {agent : Nat} {p : PortId} (hz : sized s = true) (hm : mayWrite s agent PWR_TEST = true)
    (hj : s.job.isNone = true) (ho : testOn s = false) (hn : s.queuedTests = []) (hcalm : fabCalm s = true) :
    PortFell (portChosen s p) (portTestBy s agent p) p ∧ (portAt (portTestBy s agent p) p.val).testing = true := by
  obtain ⟨hc, hi, hs, -, -, -, -⟩ := portChosen_frame s p
  have hyes : (s.job.isNone && !testOn s && s.queuedTests.isEmpty) = true := by simp [hj, ho, hn]
  have hzp : sized (portChosen s p) = true := ((Kept.refl s).putF ..).shaped hz
  rw [portTestBy_eq hm, if_pos hyes]
  exact startPortTest_runs hzp ((fabricRests_of_fabCalm hcalm).congr hc hi hs) p

theorem queuedTestRun_runs {p : PortId} {rest : List (Option PortId)} (hz : sized s = true) (ho : testOn s = false)
    (hq : quenched s = false) (hb : atBoundary s = true) (h : s.queuedTests = some p :: rest) (hcalm : fabCalm s = true) :
    (queuedTestRun s).queuedTests = rest ∧ (portAt (queuedTestRun s) p.val).testing = true ∧
      flag (queuedTestRun s) (PRT_STATUS p.val) PRT_STATUS_LINK_UP = false := by
  have hrest : FabricRests { s with queuedTests := rest } := (fabricRests_of_fabCalm hcalm).congr rfl rfl rfl
  obtain ⟨hf, ht⟩ := startPortTest_runs (s := { s with queuedTests := rest }) hz hrest p
  rw [queuedTestRun_port ho hq hb h]
  exact ⟨hf.tests, ht, hf.down⟩

end

/-! ## The statement -/

/-- Settles O50: each event by its lemma above. -/
theorem tripsAndTests : Obligations.TripsAndTests := by
  unfold Obligations.TripsAndTests
  intro s hz
  refine ⟨?trip, ?early, ?cycle, ?wear, ?rotation, ?agent, ?queued⟩
  case trip =>
    intro ht hr sensor reading
    refine .of rfl rfl ?_
    have hs := thermalTrip_stops ht hr sensor.toNat reading.toNat
    obtain ⟨hp, hm, hc⟩ := tripNoted_shows s sensor.toNat reading.toNat
    exact ⟨hs.trip.trans hp, hs.svc, hs.wedged, hs.fenced, memSame_of_mem (hs.mem.trans hm), hs.recorder.trans hc⟩
  case early => exact fun x hd => .of (thermalCycleSample_early hd) rfl rfl
  case cycle =>
    intro x hd hx hv hu he
    refine ⟨fun hc => .of (thermalCycleSample_cool hd hx) rfl ?_, fun b hc hb => .of (thermalCycleSample_cool hd hx) rfl ?_⟩
    · rw [cycleSample_rises (s := sampleTaken s) hv hu he hc]
      exact ⟨rfl, rfl, rfl, rfl⟩
    · rw [cycleSample_turns (s := sampleTaken s) hv hu he hc]
      have hend := countSwing_ends hb (setCycle (sampleTaken s) false s.therm.cand x.toInt)
      exact ⟨hend.up, hend.ext, hend.cand, hend.counted, hend.others, hend.used⟩
  case wear =>
    intro hd ha hb
    refine .of rfl rfl ?_
    rw [wearRecordWrite_due hd ha hb]
    exact ⟨rfl, rfl, rfl⟩
  case rotation =>
    intro half hp hb hg u hlt hu _ hq hr hd ht hw hl
    exact .of rfl rfl (rotateTest_leaves hz hp hb hg hlt hu hq hr hd ht hw hl)
  case agent =>
    intro agent hm
    refine ⟨fun hq => .of rfl rfl ?_, fun hq hquiet hon h0 h1 hw0 hw8 => .of rfl rfl ?_, fun p => ⟨fun hbusy => .of rfl rfl ?_,
      fun hj ho hn hcalm => .of rfl rfl ?_⟩⟩
    · have hrun := runWaits_all hq 16 (sized_domains hz).ge
      rw [runBy_allowed hm, runAll]
      exact ⟨memSame_of_mem (by rw [hrun.frame]), by rw [hrun.frame], fun u => hrun.waits u u.isLt⟩
    · have hready : RunReady s :=
        { count := sized_domains hz, quench := hq, quiet := hquiet, on := fun u hu => hon ⟨u, hu⟩
          tests := fun
            | 0, _ => h0
            | 1, _ => h1
          strand := fun
            | 0, _ => hw0
            | 1, _ => hw8 }
      have hrun := runTaken_all hready 16 le_rfl
      rw [runBy_allowed hm, runAll]
      refine ⟨hrun.only.frame, hrun.only.regs, fun u => ?_⟩
      obtain ⟨hst, hat⟩ := hrun.taken u u.isLt u.isLt
      rw [hst, hat, runTarget]
      split
      · exact ⟨rfl, rfl⟩
      · exact ⟨rfl, rfl⟩
    · obtain ⟨-, -, -, hq, hp, -, -⟩ := portChosen_frame s p
      rw [portTestBy_queues hm hbusy]
      exact testQueued_shows (regsSameBut_portChosen s p) (chosen_portChosen s p) hq hp
    · obtain ⟨hf, ht⟩ := portTestBy_starts (p := p) hz hm hj ho hn hcalm
      exact ⟨hf.chosen.trans (chosen_portChosen s p), ht, hf.down⟩
  case queued =>
    intro ho hq hb rest
    refine ⟨fun h => .of rfl rfl ?_, fun p h hcalm => .of rfl rfl (queuedTestRun_runs hz ho hq hb h hcalm)⟩
    rw [queuedTestRun_none ho hq hb h]
    refine ⟨?_, rfl, rfl⟩
    rw [startRerun, h]
    rfl

end Sys2Proof.Machine
end
